-- ==== Sys2Proof/Word.lean ====
section
/-!
DEFINITION. The plain words of the Choxia: bytes, lane words and scalar words, and the register numbers that the fields
of an instruction name (R95, R104 of spec/06_encoding.md and spec/07_assembly.md).
-/

namespace Sys2Proof

/-- A byte. -/
abbrev Byte := BitVec 8
/-- A lane of a vector register: 32 bits (R104). -/
abbrev Lane := BitVec 32
/-- A scalar register: 64 bits (R104). -/
abbrev Word := BitVec 64
/-- A mask over the 96 lanes of a group (R106). -/
abbrev Mask := BitVec 96

/-- A scalar register s0 to s63. -/
abbrev SReg := BitVec 6
/-- A vector register v0 to v63. -/
abbrev VReg := BitVec 6
/-- A mask register k0 to k7. -/
abbrev KReg := BitVec 3
/-- A tile descriptor t0 to t15. -/
abbrev TReg := BitVec 4
/-- A named barrier b0 to b15. -/
abbrev BarNo := BitVec 4
/-- A feed slot f0 to f15. -/
abbrev FeedNo := BitVec 4
/-- A stream ST0 to ST15. -/
abbrev StreamNo := BitVec 4
/-- An accumulator tile a0 to a127. -/
abbrev AccNo := BitVec 7
/-- A weight handle w0 to w255. -/
abbrev HandleNo := BitVec 8
/-- A node of the command graph, 0 to 63. -/
abbrev NodeNo := BitVec 6
/-- A Skipper range, 0 to 63. -/
abbrev RangeNo := BitVec 6

end Sys2Proof
end

