-- ==== Sys2Proof/Config.lean ====
section
/-!
DEFINITION. What the spec leaves to the implementation or to the outside world, as constants that nothing in Lean can
evaluate: the latencies that no rule fixes (R7, R412), the fused key and the signature check (R330), and the numbers that
identify the part (R329).
-/

namespace Sys2Proof

/-- The clks a step takes beyond what the spec states, for the n-th such step of a run (R7, R156, R412). -/
opaque Config.delay : Nat → Nat
/-- Whether a firmware image carries an Ed25519 signature of its digest under the fused key (R330). -/
opaque Config.signatureOk : List Byte → Bool
/-- Whether an image's header is well formed and its length matches its digest (R405, REASON 2). -/
opaque Config.imageOk : List Byte → Bool
/-- Whether a public key is fused (R405, REASON 3). -/
opaque Config.keyFused : Bool
/-- The digest of an image (R330). -/
opaque Config.digest : List Byte → BitVec 512
/-- The attestation measurement after a digest extends it (R330). -/
opaque Config.extend : BitVec 512 → BitVec 512 → BitVec 512
/-- The firmware image that the one slot holds when power comes on (R330). Log 4 (DESIGN CHOICE). -/
opaque Config.firmware : List Byte
/-- The partition map and MKEY that the nonvolatile store holds when power comes on (R318). -/
opaque Config.partitionMap : List Byte
/-- The part number and serial of BIDENT (R329). -/
opaque Config.bident : BitVec 128
/-- Which of several places Monarch takes where no rule says, for the n-th such choice of a run: group slots and offsets of
scope memory (R43, R265). Log 51 (DESIGN CHOICE). -/
opaque Config.pick : Nat → Nat
/-- The set, of 196,608 in a slice, in which the L2 keeps a line (R81). Log 14 (DESIGN CHOICE). -/
opaque Config.l2Set : Nat → Nat
/-- Records of one node that Monarch's queues on the die hold before the spill area takes the rest (R50).
Log 56 (DESIGN CHOICE). -/
opaque Config.onDie : Nat

/-- Root of the device-wide stage-1 table of the shared range, under VMID 0 (R287): the spec does not say where it stands.
Log 8 (DESIGN CHOICE). -/
opaque Config.sharedRoot : Nat

end Sys2Proof
end

