-- ==== Sys2Proof/Machine/Tab.lean ====
section
/-!
DEFINITION. Sparse tables: a list of keys and values in rising order of key. What holds a register file, a set of units
or a cache of the Choxia is such a table, so that the state is plain data.
-/

namespace Sys2Proof.Machine

/-- A sparse table from numbers to values. -/
abbrev Tab (α : Type) := List (Nat × α)

/-- The value at a key. -/
def tabFind {α : Type} (t : Tab α) (k : Nat) : Option α :=
  match t with
  | [] => none
  | (j, a) :: r => if j = k then some a else tabFind r k

/-- The value at a key, or a default. -/
def tabGet {α : Type} (t : Tab α) (k : Nat) (d : α) : α := (tabFind t k).getD d

/-- The table with a value at a key. -/
def tabPut {α : Type} (t : Tab α) (k : Nat) (a : α) : Tab α :=
  match t with
  | [] => [(k, a)]
  | (j, b) :: r => if j = k then (k, a) :: r else if k < j then (k, a) :: (j, b) :: r else (j, b) :: tabPut r k a

/-- The table without a key. -/
def tabDel {α : Type} (t : Tab α) (k : Nat) : Tab α := t.filter (fun p => p.1 != k)

/-- The table with the value at a key changed, where there is one. -/
def tabMod {α : Type} (t : Tab α) (k : Nat) (f : α → α) : Tab α :=
  match tabFind t k with
  | none => t
  | some a => tabPut t k (f a)

/-- The table with every value changed. -/
def tabMap {α : Type} (t : Tab α) (f : Nat → α → α) : Tab α := t.map (fun p => (p.1, f p.1 p.2))

/-- An element placed in a list that an order has sorted, behind those that precede it or equal it. -/
def insertBy {α : Type} (before : α → α → Bool) (x : α) : List α → List α
  | [] => [x]
  | y :: r => if before x y then x :: y :: r else y :: insertBy before x r
/-- A list sorted by an order; equals keep their places. -/
def sortBy {α : Type} (before : α → α → Bool) (l : List α) : List α := l.foldl (fun acc x => insertBy before x acc) []

end Sys2Proof.Machine
end

