-- ==== Sys2Proof/Syntax.lean ====
section
/-!
DEFINITION. The instructions and steps of the Choxia: `Instr` has one constructor for each row of
spec/opcode_table.json. A row that has words is one whole sequence of R92 (spec/06_encoding.md): the instruction with
the prefix (`p`, R98) and the extension payload (`x` or `e`, R97) that its sequence may carry. A row without words is a
step of the machine, and its arguments name the unit the step belongs to and what the outside world brings to it.
-/

namespace Sys2Proof

/-- Floating type of VFP, VFMA and VFPS (R102): code 0 F32, 1 BF16×2, 2 F16×2. -/
inductive FType where
  | f32 | bf16x2 | f16x2
deriving DecidableEq, Repr

/-- Access size of vector loads and stores (R101): codes 0 to 5. -/
inductive MemSize where
  | b | h | w | d | q | n
deriving DecidableEq, Repr

/-- Access size of scalar loads and stores (R162): codes 0 to 4. -/
inductive SMemSize where
  | b | h | w | d | q
deriving DecidableEq, Repr

/-- Operand format of the matrix unit (R176): 0 BF16, 1 FP16, 2 SX2, 3 SX4, 4 SX7. -/
inductive FeedFmt where
  | bf16 | fp16 | sx2 | sx4 | sx7
deriving DecidableEq, Repr

/-- Size of a lane copy (R196): 0 .W, 1 .D, 2 .Q. -/
inductive CpSize where
  | w | d | q
deriving DecidableEq, Repr

/-- Scope of a stream or of FENCE.S (R110, R231): codes 0 to 4. -/
inductive ScopeCode where
  | group | workgroup | die | device | system
deriving DecidableEq, Repr

/-- The vector prefix VPFX (R98): two lane patterns, the fourth operand, the rounding code, the zeroing bit and the
mask register. -/
structure Prefix where
  pb : BitVec 6
  pa : BitVec 6
  c  : BitVec 6
  rm : BitVec 3
  z  : Bool
  k  : BitVec 3
deriving DecidableEq, Repr

/-- What the check bits of a storage array show when a step reads it (R371 to R373): nothing; a parity error that the
retry clears or does not; a tag error likewise; a single-bit error that the scrub clears or does not; a double-bit
error. The outside world brings it. -/
inductive Upset where
  | none
  | parity (again : Bool)
  | tag (again : Bool)
  | single (again : Bool)
  | double
deriving DecidableEq, Repr

/-- What the check bits of a line in a unit's instruction cache show when a sequence of a context is read there (R371): nothing, or a
parity error that the retry clears or does not. The outside world brings it. -/
inductive CodeCheck where
  | none
  | parity (unit vi asid : Nat) (again : Bool)
deriving DecidableEq, Repr

/-- What a GDDR7 burst shows (R375): nothing; a link error of the read, or of a write that the fill made, that the retry clears or
does not; the on-die report. -/
inductive GddrReport where
  | none
  | link (again : Bool)
  | wrote (again : Bool)
  | corrected
  | uncorrected
deriving DecidableEq, Repr

/-- The workgroup a STOP or REPLAY names by the fields of a joined name it takes (R317): partition, virtual interface,
launch id, flat group number. -/
structure WgName where
  part   : BitVec 3
  vi     : BitVec 8
  launch : BitVec 32
  group  : BitVec 32
deriving DecidableEq, Repr

/-- An entry of a translation command ring without its OP byte (R295). -/
structure TCmd where
  flags : BitVec 8
  asid  : BitVec 16
  count : BitVec 32
  addr  : BitVec 64
  done  : BitVec 64
deriving DecidableEq, Repr

/-- A launch of a migration record (R314): its id, context, names, the cap of its priority, how many of its workgroups have ended and
the next one to place, its launch record, and the restart records of its workgroups (R307). -/
structure MovedLaunch where
  id       : BitVec 32
  asid     : BitVec 16
  kpid     : BitVec 32
  ktid     : BitVec 32
  cap      : Nat
  ended    : Nat
  next     : Nat
  record   : List (BitVec 8)
  restarts : List (List (BitVec 8))
deriving DecidableEq, Repr

/-- The launches that a migration record brings to a virtual interface (R314, R397). -/
structure Migration where
  vi       : BitVec 8
  launches : List MovedLaunch
deriving DecidableEq, Repr

/-- What FETCH_MISS meets: a line of code that misses, or the parity of one that a cache holds (R89, R371). -/
structure CodeMiss where
  va    : BitVec 64
  check : CodeCheck
deriving DecidableEq, Repr

/-- A placement decision (R264): its die, and the migration record whose launches come with it (R397). -/
structure Placing where
  die   : Fin 4
  moved : Option Migration
deriving DecidableEq, Repr

/-- A session that opens (R285): the context's ASID, and the event counts of a migration record (R286). -/
structure Opening where
  asid    : BitVec 16
  carried : Option (List (BitVec 64))
deriving DecidableEq, Repr

/-- What lane repair finds (R11, R329): the units out of service (vector cores 0 to 383, application cores 384 + k, clusters 400 + c,
memory controllers 496 + m), and the faulty lanes by core and physical lane. -/
structure LaneReport where
  retired : List Nat
  faulty  : List (Nat × Nat)
deriving DecidableEq, Repr

/-- A flit of a fabric port (R319) without its TYPE: sequence numbers, the 240 payload bytes, the reserved bytes and
the CRC field. -/
structure Flit where
  seq     : BitVec 16
  ackSeq  : BitVec 16
  rsv     : BitVec 24
  payload : List (BitVec 8)
  crc     : BitVec 64
deriving DecidableEq, Repr

/-- A packet header (R320). -/
structure PktHdr where
  len  : BitVec 16
  op   : BitVec 8
  oseq : BitVec 16
  rsv  : BitVec 24
  flow : BitVec 12
  mgmt : Bool
  unordered : Bool
  pkey : BitVec 16
  src  : BitVec 17
  dest : BitVec 17
deriving DecidableEq, Repr

/-- One constructor for each row of spec/opcode_table.json: the steps of the machine first, then the rows that have words,
each in the order of the table. (Lean compiles a constructor that carries data only up to a bounded index; the steps, which
the meanings themselves build, stand below it.) -/
inductive Instr where
  /-- STACK_TRAP (R64): The chosen split takes the STACK trap when its next sequence would issue. -/
  | stackTrap
  /-- RECONVERGENCE (R38): A split at a join PC resolves a stack entry or join record, merging with its sibling. -/
  | reconvergence
  /-- LOAD_COMPLETE (R156): A load's data returns from beyond the L1 and is written to its destination. -/
  | loadComplete (id : Nat) (u : Upset)
  /-- L2_FILL (R86): A line returns from memory into its home L2 and is re-encoded. -/
  | l2Fill (id : Nat) (g : GddrReport)
  /-- TRANSLATE (R293): An L2 miss reaches its translation station and is translated or walked. -/
  | translate (id : Nat)
  /-- WALK_COMPLETE (R294): A page walk finishes and its requests proceed. -/
  | walkComplete (id : Nat)
  /-- FETCH_MISS (R89): A core's instruction fetch miss goes to Admiral. -/
  | fetchMiss (m : CodeMiss)
  /-- FETCH_FILL (R89): Admiral multicasts a fetched line to cores of the kernel. -/
  | fetchFill (id : Nat) (u : Upset)
  /-- DBELL (R260, R315, R316): An application core, or the host, writes bytes at a physical address of the system die's apertures, a
  launch queue's doorbell among them; supervisor code of the core may have written KPID and KTID before. -/
  | dbell (core : Option (Fin 16)) (names : Option (BitVec 32 × BitVec 32)) (pa : BitVec 64) (data : List (BitVec 8))
  /-- LAUNCH_ARRIVAL (R260): Monarch copies a queue entry's record and advances HEAD. -/
  | launchArrival (vi : BitVec 8) (q : BitVec 3)
  /-- ELIGIBILITY_CHECK (R263): Monarch rechecks AFTER objects every 1,024 clk. -/
  | eligibilityCheck
  /-- GRAPH_ACTIVATE (R262): An eligible graph takes reservations and seeds its entry node. -/
  | graphActivate (id : Nat)
  /-- PLACEMENT_DECISION (R264): Monarch makes one placement decision per die in a clk. -/
  | placementDecision (p : Placing)
  /-- DISCARD_COMPLETE (R304): After its engines finish, the discarded workgroup is written back, saved and freed. -/
  | discardComplete (wg : Nat)
  /-- GRACE_EXPIRY (R312): The grace timer runs out and the control program is suspended. -/
  | graceExpiry (wg : Nat)
  /-- SUSPENDED_RESTORE (R394): A suspended control program is restored on a released control thread. -/
  | suspendedRestore (wg : Nat)
  /-- NODE_FLUSH (R48): A flushed node launches a workgroup on its remaining records. -/
  | nodeFlush (graph node : Nat)
  /-- WINDOW_EVALUATION (R62): At the end of a draw window the stack controller evaluates mismatch. -/
  | windowEvaluation (c : Nat)
  /-- KEEPING_END (R70): Keeping ends 4,096 clk after it began. -/
  | keepingEnd (core : Nat)
  /-- MATRIX_ADMIT (R74): The arbiter admits matrix candidates against the budget. -/
  | matrixAdmit (c : Nat)
  /-- PASS_END (R174): A pass frees its cell and releases its feed slot at t + 32. -/
  | passEnd (c cell : Nat)
  /-- MMA_COMPLETE (R174): A matrix operation writes its results at completion. -/
  | mmaComplete (c op : Nat) (u : Upset)
  /-- SEQUENCER_ENQUEUE (R181): The sequencer enqueues its next pass when the queue has room. -/
  | sequencerEnqueue (t : Nat)
  /-- ENGINE_COMPLETE (R194): An engine operation completes and posts to its barrier. -/
  | engineComplete (id : Nat)
  /-- NODE_FIRE (R206): A node whose count reaches zero fires its body. -/
  | nodeFire (c n : Nat)
  /-- NODE_COMPLETE (R206): A node's body completes and its successors' counts fall. -/
  | nodeComplete (c n : Nat)
  /-- COLL_STEP (R212): The communication group drives one collective step. -/
  | collStep (wg : Nat)
  /-- COLL_ABORT (R389): An aborting collective raises counters, restores chunks and posts poisoned. -/
  | collAbort (wg : Nat) (reason : BitVec 8)
  /-- MERGE_COMMIT (R220): The merge unit commits the contributor at NEXT. -/
  | mergeCommit (die : Fin 4)
  /-- STKCFG_WRITE (R65): A supervisor write to STKCFG takes effect at the next window. -/
  | stkcfgWrite (c : Nat) (v : BitVec 64)
  /-- CHRYCFG_WRITE (R80): A write to CHRYCFG carves or removes slots or is ignored. -/
  | chrycfgWrite (die : Fin 4) (v : BitVec 64)
  /-- ACCOWNER_WRITE (R186): A write to ACCOWNER waits until the queues are empty when it changes owner. -/
  | accownerWrite (c : Nat) (v : BitVec 64)
  /-- ACCLIVE_WRITE (R171): A write to ACCLIVE releases cleared tiles or sets bits. -/
  | accliveWrite (c : Nat) (h : BitVec 1) (v : BitVec 64)
  /-- PREEMPT (R303): Pre-empts a virtual interface's or launch's workgroups. -/
  | preempt (p : Fin 8) (tag : BitVec 16) (vi : BitVec 8) (launch : BitVec 32)
  /-- SAVEREG (R308): Registers or withdraws a control save area. -/
  | savereg (p : Fin 8) (tag : BitVec 16) (vi : BitVec 8) (asid : BitVec 16) (pa : BitVec 64)
  /-- VIENABLE (R300): Sets CTL.EN and reads a configuration record into use. -/
  | vienable (p : Fin 8) (tag : BitVec 16) (vi : BitVec 8) (en : BitVec 8)
  /-- STOP (R283): Stops a named workgroup at a sequence boundary. -/
  | stop (p : Fin 8) (tag : BitVec 16) (name : WgName)
  /-- REPLAY (R283): Reruns a stopped workgroup from its region entry. -/
  | replay (p : Fin 8) (tag : BitVec 16) (name : WgName)
  /-- SETGRACE (R312): Sets the partition's PREEMPTGRACE. -/
  | setgrace (p : Fin 8) (tag : BitVec 16) (us : BitVec 32)
  /-- VMINREAD (R331): Returns and optionally clears a minimum-voltage report. -/
  | vminread (p : Fin 8) (tag : BitVec 16) (region layer clear : BitVec 8)
  /-- VIWRITE (R300): Copies an image into a configuration record. -/
  | viwrite (p : Fin 8) (tag : BitVec 16) (vi : BitVec 8) (pa : BitVec 64)
  /-- VIREAD (R300): Copies a configuration record out. -/
  | viread (p : Fin 8) (tag : BitVec 16) (vi : BitVec 8) (pa : BitVec 64)
  /-- RESERVED_COMMAND (R317): A mailbox command with a reserved code answers RESULT 1. -/
  | reservedCommand (p : Fin 8) (tag : BitVec 16) (code : BitVec 8)
  /-- SESSION_OPEN (R285): A write of the ASID to the session register opens a profiling session. -/
  | sessionOpen (vi : BitVec 8) (o : Opening)
  /-- PURGE (R296): Drops translations and cached lines of a range or VMID. -/
  | purge (vi : BitVec 8) (e : TCmd)
  /-- RESUME (R299): Retries or denies an outstanding fault token. -/
  | resume (vi : BitVec 8) (e : TCmd)
  /-- FOTSET (R292): Changes a frame's owner in the frame ownership table. -/
  | fotset (vi : BitVec 8) (e : TCmd)
  /-- SAMPLE (R284): A profiling sample is taken every 2^p clk. -/
  | sample (unit : Nat)
  /-- LIMIT_DRAIN (R277): A counter reaching 2^20 drains its bank. -/
  | limitDrain (unit bank : Nat)
  /-- TABLE_DRAIN (R276): A full PC table is copied to the drain buffer. -/
  | tableDrain (unit : Nat)
  /-- DATA_FLIT (R319): A DATA flit is received and checked. -/
  | dataFlit (port : Fin 24) (f : Flit)
  /-- ACK_FLIT (R319): An ACK flit frees acknowledged flits. -/
  | ackFlit (port : Fin 24) (f : Flit)
  /-- NAK_FLIT (R319): A NAK makes the sender replay from ACKSEQ + 1. -/
  | nakFlit (port : Fin 24) (f : Flit)
  /-- IDLE_FLIT (R399): An IDLE flit keeps the link alive. -/
  | idleFlit (port : Fin 24) (f : Flit)
  /-- WRITE (R321): A remote WRITE packet is translated and performed, then acknowledged. -/
  | write (port : Fin 24) (h : PktHdr) (rva : BitVec 64) (xid : BitVec 32) (poison : BitVec 8) (data : List (BitVec 8))
  /-- CADD_PACKET (R321): A remote counter add is performed in flow order. -/
  | caddPacket (port : Fin 24) (h : PktHdr) (rva v : BitVec 64) (xid : BitVec 32)
  /-- CSET_PACKET (R321): A remote counter set is performed. -/
  | csetPacket (port : Fin 24) (h : PktHdr) (rva v : BitVec 64) (xid : BitVec 32)
  /-- CMAX (R321): A remote counter raise to the larger value. -/
  | cmax (port : Fin 24) (h : PktHdr) (rva v : BitVec 64) (xid : BitVec 32)
  /-- ACK (R321): An ACK for a WRITE or counter operation reaches its sending engine. -/
  | ack (port : Fin 24) (h : PktHdr) (xid : BitVec 32) (status : BitVec 8)
  /-- UNDELIV (R400): An undeliverable notice fails the source engine operation. -/
  | undeliv (port : Fin 24) (h : PktHdr) (dropped : BitVec 128) (xid : BitVec 32) (reason : BitVec 8) (time : BitVec 64)
  /-- LINKDOWN (R327): A link-failure notice reaches a subscriber. -/
  | linkdown (port : Fin 24) (h : PktHdr) (dev : BitVec 17) (down reason : BitVec 8) (time : BitVec 64)
  /-- RTWRITE (R322): Writes a shadow routing entry. -/
  | rtwrite (port : Fin 24) (h : PktHdr) (index : BitVec 32) (rid : BitVec 64) (data : BitVec 128)
  /-- RTREAD (R322): Reads a shadow routing entry. -/
  | rtread (port : Fin 24) (h : PktHdr) (index : BitVec 32) (rid : BitVec 64) (data : BitVec 128)
  /-- RTREADA (R322): Reads an active routing entry. -/
  | rtreada (port : Fin 24) (h : PktHdr) (index : BitVec 32) (rid : BitVec 64) (data : BitVec 128)
  /-- KEYWRITE (R322): Writes a key table entry. -/
  | keywrite (port : Fin 24) (h : PktHdr) (index : BitVec 32) (rid : BitVec 64) (data : BitVec 128)
  /-- KEYREAD (R322): Reads a key table entry. -/
  | keyread (port : Fin 24) (h : PktHdr) (index : BitVec 32) (rid : BitVec 64) (data : BitVec 128)
  /-- COMMIT (R324): Copies the shadow routing table to the active one in one clk. -/
  | commit (port : Fin 24) (h : PktHdr) (index : BitVec 32) (rid : BitVec 64) (data : BitVec 128)
  /-- SUBWRITE (R322): Writes a subscription entry. -/
  | subwrite (port : Fin 24) (h : PktHdr) (index : BitVec 32) (rid : BitVec 64) (data : BitVec 128)
  /-- SUBREAD (R322): Reads a subscription entry. -/
  | subread (port : Fin 24) (h : PktHdr) (index : BitVec 32) (rid : BitVec 64) (data : BitVec 128)
  /-- PORTDOWN (R322): A fabric manager takes a port down. -/
  | portdown (port : Fin 24) (h : PktHdr) (index : BitVec 32) (rid : BitVec 64) (data : BitVec 128)
  /-- PORT_DOWN (R399): A port goes down on loss of signal, silence or failed replay, and notices follow. -/
  | portDown (port : Fin 24) (reason : BitVec 8)
  /-- UNDELIVERABLE_TIMEOUT (R400): A source declares a packet undeliverable 1 ms after sending. -/
  | undeliverableTimeout (xid : BitVec 32)
  /-- ORDERED_HOLD_EXPIRY (R401): A held early ORDERED packet is dropped after 100 us. -/
  | orderedHoldExpiry (src : BitVec 17) (flow : BitVec 12)
  /-- UNDERVOLTAGE (R404): A layer below 0.70 V writes a record and throttles its region. -/
  | undervoltage (region layer : Nat) (mv : BitVec 16)
  /-- REGULATOR_FAULT (R404): A regulator or balancer fault fences its region or resets the device. -/
  | regulatorFault (region layer : Nat) (mv : BitVec 16)
  /-- DEVICE_RESET (R329): Reset starts bring-up at POWERON. -/
  | deviceReset
  /-- VERIFY (R330): The security engine verifies the firmware signature. -/
  | verify
  /-- MEMTRAIN (R329): The GDDR7 devices are trained. -/
  | memtrain (failed : Option (Fin 48))
  /-- LANEMAP (R318): Lane repair runs and partitions are formed from the map. -/
  | lanemap (r : LaneReport)
  /-- FIRMWARE_UPDATE (R405): A new image written through the out-of-band port replaces the slot. -/
  | firmwareUpdate (image : List (BitVec 8))
  /-- PARTITION_MAP_WRITE (R318): The partition map is written through the out-of-band port. -/
  | partitionMapWrite (image : List (BitVec 8))
  /-- ILLEGAL_SEQUENCE (R93): A word or sequence that is not an instruction reaches issue and takes ILLEGAL. -/
  | illegalSequence (sub : BitVec 8) (val : BitVec 48)
  /-- CLK (R272): In every clk each core charges its slot, withholds throttled clks, burns under balanced waiting and ages its splits. -/
  | clk
  /-- STORE_PERFORMED (R161): A store, release write-back, commit or atomic write reaches its place of coherence and is performed, freeing its access slot and its waiters. -/
  | storePerformed (id : Nat) (u : Upset)
  /-- RING_HEAD_ADVANCE (R277): Software advances HEAD of a full record ring and the Choxia writes the records it was holding. -/
  | ringHeadAdvance (vi : BitVec 8) (asid : BitVec 16)
  /-- BANDWIDTH_WINDOW (R301): A 1,200-clk metering window ends, bands are recomputed and requests held at their ceiling are served. -/
  | bandwidthWindow (die : Fin 4)
  /-- VOLTAGE_MINIMUM (R331): A layer's voltage falls to a new minimum and MV and STAMP record it. -/
  | voltageMinimum (region layer : Nat) (mv : BitVec 16)
  /-- ADD (R120): Scalar 64-bit add of two registers. -/
  | add (d : SReg) (a : SReg) (b : SReg)
  /-- SUB (R120): Scalar subtract. -/
  | sub (d : SReg) (a : SReg) (b : SReg)
  /-- AND (R120): Scalar bitwise AND. -/
  | and (d : SReg) (a : SReg) (b : SReg)
  /-- OR (R120): Scalar bitwise OR. -/
  | or (d : SReg) (a : SReg) (b : SReg)
  /-- XOR (R120): Scalar bitwise XOR. -/
  | xor (d : SReg) (a : SReg) (b : SReg)
  /-- SHL (R120): Scalar shift left by s[b][5:0]. -/
  | shl (d : SReg) (a : SReg) (b : SReg)
  /-- SHR (R120): Scalar logical shift right. -/
  | shr (d : SReg) (a : SReg) (b : SReg)
  /-- SRA (R120): Scalar arithmetic shift right. -/
  | sra (d : SReg) (a : SReg) (b : SReg)
  /-- MIN (R120): Scalar signed minimum. -/
  | min (d : SReg) (a : SReg) (b : SReg)
  /-- MAX (R120): Scalar signed maximum. -/
  | max (d : SReg) (a : SReg) (b : SReg)
  /-- MINU (R120): Scalar unsigned minimum. -/
  | minu (d : SReg) (a : SReg) (b : SReg)
  /-- MAXU (R120): Scalar unsigned maximum. -/
  | maxu (d : SReg) (a : SReg) (b : SReg)
  /-- SLT (R120): Scalar signed set-less-than. -/
  | slt (d : SReg) (a : SReg) (b : SReg)
  /-- SLTU (R120): Scalar unsigned set-less-than. -/
  | sltu (d : SReg) (a : SReg) (b : SReg)
  /-- SEQ (R120): Scalar set-if-equal. -/
  | seq (d : SReg) (a : SReg) (b : SReg)
  /-- SNE (R120): Scalar set-if-not-equal. -/
  | sne (d : SReg) (a : SReg) (b : SReg)
  /-- MUL (R120): Scalar multiply, low 64 bits. -/
  | mul (d : SReg) (a : SReg) (b : SReg)
  /-- MULH (R120): Scalar signed multiply, high 64 bits. -/
  | mulh (d : SReg) (a : SReg) (b : SReg)
  /-- MULHU (R120): Scalar unsigned multiply, high 64 bits. -/
  | mulhu (d : SReg) (a : SReg) (b : SReg)
  /-- DIV (R120): Scalar signed division on the shared divider. -/
  | div (d : SReg) (a : SReg) (b : SReg)
  /-- DIVU (R120): Scalar unsigned division. -/
  | divu (d : SReg) (a : SReg) (b : SReg)
  /-- REM (R120): Scalar signed remainder. -/
  | rem (d : SReg) (a : SReg) (b : SReg)
  /-- REMU (R120): Scalar unsigned remainder. -/
  | remu (d : SReg) (a : SReg) (b : SReg)
  /-- CLZ (R120): Scalar count of leading zeros. -/
  | clz (d : SReg) (a : SReg)
  /-- POPC (R120): Scalar population count. -/
  | popc (d : SReg) (a : SReg)
  /-- ADDI (R121): Scalar add of an immediate. -/
  | addi (d : SReg) (a : SReg) (i : BitVec 10) (x : Option (BitVec 25))
  /-- ANDI (R121): Scalar AND with an immediate. -/
  | andi (d : SReg) (a : SReg) (i : BitVec 10) (x : Option (BitVec 25))
  /-- ORI (R121): Scalar OR with an immediate. -/
  | ori (d : SReg) (a : SReg) (i : BitVec 10) (x : Option (BitVec 25))
  /-- XORI (R121): Scalar XOR with an immediate. -/
  | xori (d : SReg) (a : SReg) (i : BitVec 10) (x : Option (BitVec 25))
  /-- SHLI (R121): Scalar shift left by an immediate. -/
  | shli (d : SReg) (a : SReg) (i : BitVec 10) (x : Option (BitVec 25))
  /-- SHRI (R121): Scalar logical shift right by an immediate. -/
  | shri (d : SReg) (a : SReg) (i : BitVec 10) (x : Option (BitVec 25))
  /-- SRAI (R121): Scalar arithmetic shift right by an immediate. -/
  | srai (d : SReg) (a : SReg) (i : BitVec 10) (x : Option (BitVec 25))
  /-- SLTI (R121): Scalar signed set-less-than an immediate. -/
  | slti (d : SReg) (a : SReg) (i : BitVec 10) (x : Option (BitVec 25))
  /-- SLI (R122): Writes a sign-extended immediate to a scalar register. -/
  | sli (d : SReg) (i : BitVec 19) (x : Option (BitVec 25))
  /-- BR_EQZ (R123): Branches when s[a] is zero. -/
  | brEqz (a : SReg) (o : BitVec 16) (x : Option (BitVec 25))
  /-- BR_NEZ (R123): Branches when s[a] is nonzero. -/
  | brNez (a : SReg) (o : BitVec 16) (x : Option (BitVec 25))
  /-- BR_LTZ (R123): Branches when s[a] is negative. -/
  | brLtz (a : SReg) (o : BitVec 16) (x : Option (BitVec 25))
  /-- BR_GEZ (R123): Branches when s[a] is not negative. -/
  | brGez (a : SReg) (o : BitVec 16) (x : Option (BitVec 25))
  /-- BR_GTZ (R123): Branches when s[a] is positive. -/
  | brGtz (a : SReg) (o : BitVec 16) (x : Option (BitVec 25))
  /-- BR_LEZ (R123): Branches when s[a] is zero or negative. -/
  | brLez (a : SReg) (o : BitVec 16) (x : Option (BitVec 25))
  /-- JMP (R123): Jumps the split to a PC-relative target. -/
  | jmp (o : BitVec 25) (x : Option (BitVec 25))
  /-- CALL (R123): Jumps and writes the link to s63. -/
  | call (o : BitVec 25) (x : Option (BitVec 25))
  /-- JR (R124): Jumps to the address in s[a], trapping on an odd address. -/
  | jr (a : SReg)
  /-- CALLR (R124): Calls the address in s[a], linking in s63. -/
  | callr (a : SReg)
  /-- RET (R124): Returns to the address in s63. -/
  | ret
  /-- VBR (R126): Divergent branch on lanes with mask set; divides, folds or serialises the split. -/
  | vbr (k : KReg) (t : BitVec 11) (j : BitVec 10)
  /-- VBR_N (R126): Divergent branch on lanes with mask clear. -/
  | vbrN (k : KReg) (t : BitVec 11) (j : BitVec 10)
  /-- KBR_ANY (R129): Uniform branch when any active lane is set in kn. -/
  | kbrAny (k : KReg) (o : BitVec 20) (x : Option (BitVec 25))
  /-- KBR_ALL (R129): Uniform branch when all active lanes are set in kn. -/
  | kbrAll (k : KReg) (o : BitVec 20) (x : Option (BitVec 25))
  /-- KBR_NONE (R129): Uniform branch when no active lane is set in kn. -/
  | kbrNone (k : KReg) (o : BitVec 20) (x : Option (BitVec 25))
  /-- NOP (R224): Does nothing but take an issue slot. -/
  | nop
  /-- SRD (R225): Reads a system register into s[d]. -/
  | srd (d : SReg) (n : BitVec 12)
  /-- SWR (R225): Writes a system register without behaviour of its own from s[a]. -/
  | swr (n : BitVec 12) (a : SReg)
  /-- TRAP (R226): Takes the SYSCALL trap with TVAL s[a]. -/
  | trap (a : SReg)
  /-- ERET (R226): Returns to TPC and ends the split's handler. -/
  | eret
  /-- BKPT (R226): Takes BREAK, or stops for a claiming debugger. -/
  | bkpt
  /-- YIELD (R227): Makes the split not ready for 64 clk. -/
  | yield
  /-- EXIT (R228): Retires the split's active lanes, possibly ending the group, workgroup or control program. -/
  | exit
  /-- SETFMT (R229): Returns FMT and replaces it from s[a]. -/
  | setfmt (d : SReg) (a : SReg)
  /-- SCFG (R229): Writes eight stream table entries from s[a]. -/
  | scfg (a : SReg) (h : BitVec 1)
  /-- WAITCYC (R227): Makes the split not ready for s[a][31:0] clk. -/
  | waitcyc (a : SReg)
  /-- BAR_INIT (R193): Initialises a named barrier's expected arrivals. -/
  | barInit (n : BarNo) (a : SReg)
  /-- BAR_ARRIVE (R193): Arrives at a barrier, returning the phase token. -/
  | barArrive (d : SReg) (n : BarNo) (rlx : Bool)
  /-- BAR_WAIT (R193): Waits until the barrier's phase differs from the token. -/
  | barWait (d : SReg) (n : BarNo) (a : SReg)
  /-- BAR_AW (R193): Arrives and then waits on the barrier. -/
  | barAw (d : SReg) (n : BarNo) (rlx : Bool)
  /-- BAR_TEST (R193): Tests whether the barrier's phase has flipped. -/
  | barTest (d : SReg) (n : BarNo) (a : SReg)
  /-- BAR_EXPECT (R193): Announces or posts bytes on a barrier. -/
  | barExpect (n : BarNo) (a : SReg) (post : Bool)
  /-- FENCE_X (R230): Joins the streams of a mask for ordering and tagging. -/
  | fenceX (a : SReg)
  /-- FENCE_S (R231): Full fence at a scope over a stream mask. -/
  | fenceS (a : SReg) (sc : ScopeCode)
  /-- QBIND (R234): Binds or unbinds a queue port. -/
  | qbind (p : SReg) (a : SReg)
  /-- QTRY (R234): Pops a queue entry if one is poppable, never waiting. -/
  | qtry (d : SReg) (p : SReg)
  /-- QSTAT (R234): Returns a queue port's status word. -/
  | qstat (d : SReg) (p : SReg)
  /-- REGION (R52): Collectively commits the open region and opens a new one. -/
  | region
  /-- RCLOSE (R52): Collectively commits and opens a non-buffering region. -/
  | rclose
  /-- VFP_FADD (R134): Per-lane floating add. -/
  | vfpFadd (t : FType) (d : VReg) (a : VReg) (b : VReg) (p : Option Prefix)
  /-- VFP_FSUB (R134): Per-lane floating subtract. -/
  | vfpFsub (t : FType) (d : VReg) (a : VReg) (b : VReg) (p : Option Prefix)
  /-- VFP_FMUL (R134): Per-lane floating multiply. -/
  | vfpFmul (t : FType) (d : VReg) (a : VReg) (b : VReg) (p : Option Prefix)
  /-- VFP_FMIN (R134): Per-lane floating minimum. -/
  | vfpFmin (t : FType) (d : VReg) (a : VReg) (b : VReg) (p : Option Prefix)
  /-- VFP_FMAX (R134): Per-lane floating maximum. -/
  | vfpFmax (t : FType) (d : VReg) (a : VReg) (b : VReg) (p : Option Prefix)
  /-- VFP_FABS (R134): Per-lane floating absolute value. -/
  | vfpFabs (t : FType) (d : VReg) (a : VReg) (p : Option Prefix)
  /-- VFP_FNEG (R134): Per-lane floating negation. -/
  | vfpFneg (t : FType) (d : VReg) (a : VReg) (p : Option Prefix)
  /-- VFP_FCPYSGN (R134): Per-lane copy of sign from b. -/
  | vfpFcpysgn (t : FType) (d : VReg) (a : VReg) (b : VReg) (p : Option Prefix)
  /-- FMA (R135): Per-lane fused multiply-add. -/
  | fma (t : FType) (d : VReg) (a : VReg) (b : VReg) (p : Option Prefix)
  /-- FMS (R135): Per-lane fused multiply-subtract. -/
  | fms (t : FType) (d : VReg) (a : VReg) (b : VReg) (p : Option Prefix)
  /-- NFMA (R135): Per-lane negated fused multiply-add. -/
  | nfma (t : FType) (d : VReg) (a : VReg) (b : VReg) (p : Option Prefix)
  /-- NFMS (R135): Per-lane negated fused multiply-subtract. -/
  | nfms (t : FType) (d : VReg) (a : VReg) (b : VReg) (p : Option Prefix)
  /-- VFPS_FADD (R136): Floating add of a scalar to each lane. -/
  | vfpsFadd (t : FType) (d : VReg) (a : VReg) (b : SReg) (p : Option Prefix)
  /-- VFPS_FSUB (R136): Floating subtract of a scalar from each lane. -/
  | vfpsFsub (t : FType) (d : VReg) (a : VReg) (b : SReg) (p : Option Prefix)
  /-- VFPS_FMUL (R136): Floating multiply of each lane by a scalar. -/
  | vfpsFmul (t : FType) (d : VReg) (a : VReg) (b : SReg) (p : Option Prefix)
  /-- VFPS_FMIN (R136): Floating minimum against a scalar. -/
  | vfpsFmin (t : FType) (d : VReg) (a : VReg) (b : SReg) (p : Option Prefix)
  /-- VFPS_FMAX (R136): Floating maximum against a scalar. -/
  | vfpsFmax (t : FType) (d : VReg) (a : VReg) (b : SReg) (p : Option Prefix)
  /-- VFPS_FCPYSGN (R136): Copies the scalar's sign onto each lane. -/
  | vfpsFcpysgn (t : FType) (d : VReg) (a : VReg) (b : SReg) (p : Option Prefix)
  /-- VINT_ADD (R137): Per-lane 32-bit add. -/
  | vintAdd (d : VReg) (a : VReg) (b : VReg) (p : Option Prefix)
  /-- VINT_SUB (R137): Per-lane 32-bit subtract. -/
  | vintSub (d : VReg) (a : VReg) (b : VReg) (p : Option Prefix)
  /-- VINT_MULLO (R137): Per-lane multiply, low 32 bits. -/
  | vintMullo (d : VReg) (a : VReg) (b : VReg) (p : Option Prefix)
  /-- VINT_MULHI_S (R137): Per-lane signed multiply, high 32 bits. -/
  | vintMulhiS (d : VReg) (a : VReg) (b : VReg) (p : Option Prefix)
  /-- VINT_MULHI_U (R137): Per-lane unsigned multiply, high 32 bits. -/
  | vintMulhiU (d : VReg) (a : VReg) (b : VReg) (p : Option Prefix)
  /-- VINT_AND (R137): Per-lane AND. -/
  | vintAnd (d : VReg) (a : VReg) (b : VReg) (p : Option Prefix)
  /-- VINT_OR (R137): Per-lane OR. -/
  | vintOr (d : VReg) (a : VReg) (b : VReg) (p : Option Prefix)
  /-- VINT_XOR (R137): Per-lane XOR. -/
  | vintXor (d : VReg) (a : VReg) (b : VReg) (p : Option Prefix)
  /-- VINT_ANDN (R137): Per-lane AND NOT. -/
  | vintAndn (d : VReg) (a : VReg) (b : VReg) (p : Option Prefix)
  /-- VINT_SHL (R137): Per-lane shift left. -/
  | vintShl (d : VReg) (a : VReg) (b : VReg) (p : Option Prefix)
  /-- VINT_SHR (R137): Per-lane logical shift right. -/
  | vintShr (d : VReg) (a : VReg) (b : VReg) (p : Option Prefix)
  /-- VINT_SRA (R137): Per-lane arithmetic shift right. -/
  | vintSra (d : VReg) (a : VReg) (b : VReg) (p : Option Prefix)
  /-- VINT_MIN_S (R137): Per-lane signed minimum. -/
  | vintMinS (d : VReg) (a : VReg) (b : VReg) (p : Option Prefix)
  /-- VINT_MAX_S (R137): Per-lane signed maximum. -/
  | vintMaxS (d : VReg) (a : VReg) (b : VReg) (p : Option Prefix)
  /-- VINT_MIN_U (R137): Per-lane unsigned minimum. -/
  | vintMinU (d : VReg) (a : VReg) (b : VReg) (p : Option Prefix)
  /-- VINT_MAX_U (R137): Per-lane unsigned maximum. -/
  | vintMaxU (d : VReg) (a : VReg) (b : VReg) (p : Option Prefix)
  /-- VINT_ABS (R137): Per-lane absolute value. -/
  | vintAbs (d : VReg) (a : VReg) (p : Option Prefix)
  /-- VINT_CLZ (R137): Per-lane count of leading zeros. -/
  | vintClz (d : VReg) (a : VReg) (p : Option Prefix)
  /-- VINT_POPC (R137): Per-lane population count. -/
  | vintPopc (d : VReg) (a : VReg) (p : Option Prefix)
  /-- VINT_BREV (R137): Per-lane bit reversal. -/
  | vintBrev (d : VReg) (a : VReg) (p : Option Prefix)
  /-- VINTS_ADD (R138): Per-lane add of a scalar. -/
  | vintsAdd (d : VReg) (a : VReg) (b : SReg) (p : Option Prefix)
  /-- VINTS_SUB (R138): Per-lane subtract of a scalar. -/
  | vintsSub (d : VReg) (a : VReg) (b : SReg) (p : Option Prefix)
  /-- VINTS_MULLO (R138): Per-lane multiply by a scalar, low bits. -/
  | vintsMullo (d : VReg) (a : VReg) (b : SReg) (p : Option Prefix)
  /-- VINTS_MULHI_S (R138): Per-lane signed multiply by a scalar, high bits. -/
  | vintsMulhiS (d : VReg) (a : VReg) (b : SReg) (p : Option Prefix)
  /-- VINTS_MULHI_U (R138): Per-lane unsigned multiply by a scalar, high bits. -/
  | vintsMulhiU (d : VReg) (a : VReg) (b : SReg) (p : Option Prefix)
  /-- VINTS_AND (R138): Per-lane AND with a scalar. -/
  | vintsAnd (d : VReg) (a : VReg) (b : SReg) (p : Option Prefix)
  /-- VINTS_OR (R138): Per-lane OR with a scalar. -/
  | vintsOr (d : VReg) (a : VReg) (b : SReg) (p : Option Prefix)
  /-- VINTS_XOR (R138): Per-lane XOR with a scalar. -/
  | vintsXor (d : VReg) (a : VReg) (b : SReg) (p : Option Prefix)
  /-- VINTS_ANDN (R138): Per-lane AND NOT a scalar. -/
  | vintsAndn (d : VReg) (a : VReg) (b : SReg) (p : Option Prefix)
  /-- VINTS_SHL (R138): Per-lane shift left by a scalar. -/
  | vintsShl (d : VReg) (a : VReg) (b : SReg) (p : Option Prefix)
  /-- VINTS_SHR (R138): Per-lane logical shift right by a scalar. -/
  | vintsShr (d : VReg) (a : VReg) (b : SReg) (p : Option Prefix)
  /-- VINTS_SRA (R138): Per-lane arithmetic shift right by a scalar. -/
  | vintsSra (d : VReg) (a : VReg) (b : SReg) (p : Option Prefix)
  /-- VINTS_MIN_S (R138): Per-lane signed minimum with a scalar. -/
  | vintsMinS (d : VReg) (a : VReg) (b : SReg) (p : Option Prefix)
  /-- VINTS_MAX_S (R138): Per-lane signed maximum with a scalar. -/
  | vintsMaxS (d : VReg) (a : VReg) (b : SReg) (p : Option Prefix)
  /-- VINTS_MIN_U (R138): Per-lane unsigned minimum with a scalar. -/
  | vintsMinU (d : VReg) (a : VReg) (b : SReg) (p : Option Prefix)
  /-- VINTS_MAX_U (R138): Per-lane unsigned maximum with a scalar. -/
  | vintsMaxU (d : VReg) (a : VReg) (b : SReg) (p : Option Prefix)
  /-- VINTI_ADDI (R138): Per-lane add of an immediate. -/
  | vintiAddi (d : VReg) (a : VReg) (i : BitVec 10) (p : Option Prefix) (x : Option (BitVec 25))
  /-- VINTI_ANDI (R138): Per-lane AND with an immediate. -/
  | vintiAndi (d : VReg) (a : VReg) (i : BitVec 10) (p : Option Prefix) (x : Option (BitVec 25))
  /-- VINTI_ORI (R138): Per-lane OR with an immediate. -/
  | vintiOri (d : VReg) (a : VReg) (i : BitVec 10) (p : Option Prefix) (x : Option (BitVec 25))
  /-- VINTI_XORI (R138): Per-lane XOR with an immediate. -/
  | vintiXori (d : VReg) (a : VReg) (i : BitVec 10) (p : Option Prefix) (x : Option (BitVec 25))
  /-- VINTI_SHLI (R138): Per-lane shift left by an immediate. -/
  | vintiShli (d : VReg) (a : VReg) (i : BitVec 10) (p : Option Prefix) (x : Option (BitVec 25))
  /-- VINTI_SHRI (R138): Per-lane logical shift right by an immediate. -/
  | vintiShri (d : VReg) (a : VReg) (i : BitVec 10) (p : Option Prefix) (x : Option (BitVec 25))
  /-- VINTI_SRAI (R138): Per-lane arithmetic shift right by an immediate. -/
  | vintiSrai (d : VReg) (a : VReg) (i : BitVec 10) (p : Option Prefix) (x : Option (BitVec 25))
  /-- VINTI_MULI (R138): Per-lane multiply by an immediate. -/
  | vintiMuli (d : VReg) (a : VReg) (i : BitVec 10) (p : Option Prefix) (x : Option (BitVec 25))
  /-- VCMP_EQ_S32 (R139): Signed equal compare into a mask. -/
  | vcmpEqS32 (d : KReg) (a : VReg) (b : VReg) (p : Option Prefix)
  /-- VCMP_NE_S32 (R139): Signed not-equal compare into a mask. -/
  | vcmpNeS32 (d : KReg) (a : VReg) (b : VReg) (p : Option Prefix)
  /-- VCMP_LT_S32 (R139): Signed less-than compare into a mask. -/
  | vcmpLtS32 (d : KReg) (a : VReg) (b : VReg) (p : Option Prefix)
  /-- VCMP_LE_S32 (R139): Signed less-or-equal compare into a mask. -/
  | vcmpLeS32 (d : KReg) (a : VReg) (b : VReg) (p : Option Prefix)
  /-- VCMP_GT_S32 (R139): Signed greater-than compare into a mask. -/
  | vcmpGtS32 (d : KReg) (a : VReg) (b : VReg) (p : Option Prefix)
  /-- VCMP_GE_S32 (R139): Signed greater-or-equal compare into a mask. -/
  | vcmpGeS32 (d : KReg) (a : VReg) (b : VReg) (p : Option Prefix)
  /-- VCMP_EQ_U32 (R139): Unsigned equal compare into a mask. -/
  | vcmpEqU32 (d : KReg) (a : VReg) (b : VReg) (p : Option Prefix)
  /-- VCMP_NE_U32 (R139): Unsigned not-equal compare into a mask. -/
  | vcmpNeU32 (d : KReg) (a : VReg) (b : VReg) (p : Option Prefix)
  /-- VCMP_LT_U32 (R139): Unsigned less-than compare into a mask. -/
  | vcmpLtU32 (d : KReg) (a : VReg) (b : VReg) (p : Option Prefix)
  /-- VCMP_LE_U32 (R139): Unsigned less-or-equal compare into a mask. -/
  | vcmpLeU32 (d : KReg) (a : VReg) (b : VReg) (p : Option Prefix)
  /-- VCMP_GT_U32 (R139): Unsigned greater-than compare into a mask. -/
  | vcmpGtU32 (d : KReg) (a : VReg) (b : VReg) (p : Option Prefix)
  /-- VCMP_GE_U32 (R139): Unsigned greater-or-equal compare into a mask. -/
  | vcmpGeU32 (d : KReg) (a : VReg) (b : VReg) (p : Option Prefix)
  /-- VCMP_EQ_F32 (R139): Floating equal compare into a mask. -/
  | vcmpEqF32 (d : KReg) (a : VReg) (b : VReg) (p : Option Prefix)
  /-- VCMP_NE_F32 (R139): Floating not-equal compare into a mask. -/
  | vcmpNeF32 (d : KReg) (a : VReg) (b : VReg) (p : Option Prefix)
  /-- VCMP_LT_F32 (R139): Floating less-than compare into a mask. -/
  | vcmpLtF32 (d : KReg) (a : VReg) (b : VReg) (p : Option Prefix)
  /-- VCMP_LE_F32 (R139): Floating less-or-equal compare into a mask. -/
  | vcmpLeF32 (d : KReg) (a : VReg) (b : VReg) (p : Option Prefix)
  /-- VCMP_GT_F32 (R139): Floating greater-than compare into a mask. -/
  | vcmpGtF32 (d : KReg) (a : VReg) (b : VReg) (p : Option Prefix)
  /-- VCMP_GE_F32 (R139): Floating greater-or-equal compare into a mask. -/
  | vcmpGeF32 (d : KReg) (a : VReg) (b : VReg) (p : Option Prefix)
  /-- VCMP_UNORD (R139): Unordered compare into a mask. -/
  | vcmpUnord (d : KReg) (a : VReg) (b : VReg) (p : Option Prefix)
  /-- RCP (R140): Correctly rounded reciprocal per lane. -/
  | rcp (d : VReg) (a : VReg) (p : Option Prefix)
  /-- RSQ (R140): Correctly rounded reciprocal square root per lane. -/
  | rsq (d : VReg) (a : VReg) (p : Option Prefix)
  /-- SQRT (R140): Correctly rounded square root per lane. -/
  | sqrt (d : VReg) (a : VReg) (p : Option Prefix)
  /-- EX2 (R140): Correctly rounded 2^x per lane. -/
  | ex2 (d : VReg) (a : VReg) (p : Option Prefix)
  /-- LG2 (R140): Correctly rounded log2 per lane. -/
  | lg2 (d : VReg) (a : VReg) (p : Option Prefix)
  /-- SIN (R140): Correctly rounded sine per lane. -/
  | sin (d : VReg) (a : VReg) (p : Option Prefix)
  /-- COS (R140): Correctly rounded cosine per lane. -/
  | cos (d : VReg) (a : VReg) (p : Option Prefix)
  /-- TANH (R140): Correctly rounded tanh per lane. -/
  | tanh (d : VReg) (a : VReg) (p : Option Prefix)
  /-- VCVT_F32_S32 (R145): Signed integer to FP32 per lane. -/
  | vcvtF32S32 (d : VReg) (a : VReg) (p : Option Prefix)
  /-- VCVT_F32_U32 (R145): Unsigned integer to FP32 per lane. -/
  | vcvtF32U32 (d : VReg) (a : VReg) (p : Option Prefix)
  /-- VCVT_S32_F32 (R145): FP32 to signed integer per lane. -/
  | vcvtS32F32 (d : VReg) (a : VReg) (p : Option Prefix)
  /-- VCVT_U32_F32 (R145): FP32 to unsigned integer per lane. -/
  | vcvtU32F32 (d : VReg) (a : VReg) (p : Option Prefix)
  /-- VCVT_BF16_F32 (R145): Narrows two FP32 values into packed BF16. -/
  | vcvtBf16F32 (d : VReg) (a : VReg) (b : VReg) (p : Option Prefix)
  /-- VCVT_F16_F32 (R145): Narrows two FP32 values into packed FP16. -/
  | vcvtF16F32 (d : VReg) (a : VReg) (b : VReg) (p : Option Prefix)
  /-- VCVT_F32_BF16 (R145): Widens one BF16 element to FP32. -/
  | vcvtF32Bf16 (d : VReg) (a : VReg) (e : BitVec 1) (p : Option Prefix)
  /-- VCVT_F32_F16 (R145): Widens one FP16 element to FP32. -/
  | vcvtF32F16 (d : VReg) (a : VReg) (e : BitVec 1) (p : Option Prefix)
  /-- VCVT_SX_F32 (R146): Packs six SX blocks from 96 lanes. -/
  | vcvtSxF32 (d : VReg) (a : VReg) (p : Option Prefix)
  /-- VCVT_F32_SX (R147): Unpacks an SX image into FP32 lanes. -/
  | vcvtF32Sx (d : VReg) (a : VReg) (p : Option Prefix)
  /-- VRED_FADD (R148): Fixed-tree floating sum of lanes to a scalar. -/
  | vredFadd (d : SReg) (a : VReg) (p : Option Prefix)
  /-- VRED_FMIN (R148): Fixed-tree floating minimum of lanes. -/
  | vredFmin (d : SReg) (a : VReg) (p : Option Prefix)
  /-- VRED_FMAX (R148): Fixed-tree floating maximum of lanes. -/
  | vredFmax (d : SReg) (a : VReg) (p : Option Prefix)
  /-- VRED_IADD (R148): Integer sum of lanes. -/
  | vredIadd (d : SReg) (a : VReg) (p : Option Prefix)
  /-- VRED_IMIN_S (R148): Signed minimum of lanes. -/
  | vredIminS (d : SReg) (a : VReg) (p : Option Prefix)
  /-- VRED_IMAX_S (R148): Signed maximum of lanes. -/
  | vredImaxS (d : SReg) (a : VReg) (p : Option Prefix)
  /-- VSCAN_FADD (R149): Sequential inclusive floating scan. -/
  | vscanFadd (d : VReg) (a : VReg) (b : SReg) (p : Option Prefix)
  /-- VSCAN_IADD (R149): Sequential inclusive integer scan. -/
  | vscanIadd (d : VReg) (a : VReg) (b : SReg) (p : Option Prefix)
  /-- VCOMPACT (R150): Packs active lanes to the bottom and fills the rest. -/
  | vcompact (d : VReg) (a : VReg) (b : SReg) (p : Option Prefix)
  /-- VEXPAND (R150): Spreads leading values over active lanes. -/
  | vexpand (d : VReg) (a : VReg) (p : Option Prefix)
  /-- VSEL (R150): Selects between two sources by mask. -/
  | vsel (d : VReg) (a : VReg) (b : VReg) (p : Option Prefix)
  /-- VPERM (R150): Arbitrary permutation across the group. -/
  | vperm (d : VReg) (a : VReg) (b : VReg) (p : Option Prefix)
  /-- KAND (R151): Mask AND. -/
  | kand (d : KReg) (a : KReg) (b : KReg) (p : Option Prefix)
  /-- KOR (R151): Mask OR. -/
  | kor (d : KReg) (a : KReg) (b : KReg) (p : Option Prefix)
  /-- KXOR (R151): Mask XOR. -/
  | kxor (d : KReg) (a : KReg) (b : KReg) (p : Option Prefix)
  /-- KANDN (R151): Mask AND NOT. -/
  | kandn (d : KReg) (a : KReg) (b : KReg) (p : Option Prefix)
  /-- KNOT (R151): Mask NOT. -/
  | knot (d : KReg) (a : KReg) (p : Option Prefix)
  /-- KMOV (R151): Mask move. -/
  | kmov (d : KReg) (a : KReg) (p : Option Prefix)
  /-- K2S (R151): Reads 32 mask bits into a scalar. -/
  | k2s (d : SReg) (a : KReg) (n : Fin 3) (p : Option Prefix)
  /-- S2K (R151): Writes 32 mask bits from a scalar. -/
  | s2k (d : KReg) (a : SReg) (n : Fin 3) (p : Option Prefix)
  /-- KPOPC (R151): Counts active set mask bits. -/
  | kpopc (d : SReg) (a : KReg) (p : Option Prefix)
  /-- KFIRST (R151): Finds the first active set mask bit. -/
  | kfirst (d : SReg) (a : KReg) (p : Option Prefix)
  /-- VMOV (R152): Moves a vector register, with pattern. -/
  | vmov (d : VReg) (a : VReg) (p : Option Prefix)
  /-- VSPLAT (R152): Broadcasts a scalar to lanes. -/
  | vsplat (d : VReg) (a : SReg) (p : Option Prefix)
  /-- VEXT (R152): Extracts one lane into a scalar. -/
  | vext (d : SReg) (a : VReg) (b : SReg) (p : Option Prefix)
  /-- VINS (R152): Inserts a scalar into one lane. -/
  | vins (d : VReg) (a : SReg) (b : SReg) (p : Option Prefix)
  /-- VLANEID (R152): Writes each lane's index. -/
  | vlaneid (d : VReg) (p : Option Prefix)
  /-- VIOTA (R152): Writes the count of active lanes below each lane. -/
  | viota (d : VReg) (p : Option Prefix)
  /-- VADD_F32_COMPACT (R94): Compact form of VFP FADD F32. -/
  | vaddF32Compact (d : VReg) (b : BitVec 5)
  /-- VSUB_F32_COMPACT (R94): Compact form of VFP FSUB F32. -/
  | vsubF32Compact (d : VReg) (b : BitVec 5)
  /-- VMUL_F32_COMPACT (R94): Compact form of VFP FMUL F32. -/
  | vmulF32Compact (d : VReg) (b : BitVec 5)
  /-- VMAX_F32_COMPACT (R94): Compact form of VFP FMAX F32. -/
  | vmaxF32Compact (d : VReg) (b : BitVec 5)
  /-- VMIN_F32_COMPACT (R94): Compact form of VFP FMIN F32. -/
  | vminF32Compact (d : VReg) (b : BitVec 5)
  /-- VADD_I32_COMPACT (R94): Compact form of VINT ADD. -/
  | vaddI32Compact (d : VReg) (b : BitVec 5)
  /-- VSUB_I32_COMPACT (R94): Compact form of VINT SUB. -/
  | vsubI32Compact (d : VReg) (b : BitVec 5)
  /-- VAND_COMPACT (R94): Compact form of VINT AND. -/
  | vandCompact (d : VReg) (b : BitVec 5)
  /-- VOR_COMPACT (R94): Compact form of VINT OR. -/
  | vorCompact (d : VReg) (b : BitVec 5)
  /-- VXOR_COMPACT (R94): Compact form of VINT XOR. -/
  | vxorCompact (d : VReg) (b : BitVec 5)
  /-- VSHL_COMPACT (R94): Compact form of VINT SHL. -/
  | vshlCompact (d : VReg) (b : BitVec 5)
  /-- VSHR_U32_COMPACT (R94): Compact form of VINT SHR. -/
  | vshrU32Compact (d : VReg) (b : BitVec 5)
  /-- VMUL_LO_COMPACT (R94): Compact form of VINT MULLO. -/
  | vmulLoCompact (d : VReg) (b : BitVec 5)
  /-- VMAX_S32_COMPACT (R94): Compact form of VINT MAX.S. -/
  | vmaxS32Compact (d : VReg) (b : BitVec 5)
  /-- VMIN_S32_COMPACT (R94): Compact form of VINT MIN.S. -/
  | vminS32Compact (d : VReg) (b : BitVec 5)
  /-- VMOV_COMPACT (R94): Compact form of VMOV. -/
  | vmovCompact (d : VReg) (b : BitVec 5)
  /-- VLD (R157): Vector load per active lane. -/
  | vld (d : VReg) (r : SReg) (x : VReg) (st : StreamNo) (z : MemSize) (e : Option (BitVec 25))
  /-- VST (R157): Vector store per active lane. -/
  | vst (d : VReg) (r : SReg) (x : VReg) (st : StreamNo) (z : MemSize) (e : Option (BitVec 25))
  /-- VLDA (R161): Vector load with acquire at the stream's scope. -/
  | vlda (d : VReg) (r : SReg) (x : VReg) (st : StreamNo) (z : MemSize) (e : Option (BitVec 25))
  /-- VSTR (R161): Vector store with release at the stream's scope. -/
  | vstr (d : VReg) (r : SReg) (x : VReg) (st : StreamNo) (z : MemSize) (e : Option (BitVec 25))
  /-- SLD (R162): Scalar load. -/
  | sld (d : SReg) (r : SReg) (x : SReg) (st : StreamNo) (z : SMemSize) (e : Option (BitVec 25))
  /-- SST (R162): Scalar store. -/
  | sst (d : SReg) (r : SReg) (x : SReg) (st : StreamNo) (z : SMemSize) (e : Option (BitVec 25))
  /-- SLDA (R162): Scalar load with acquire. -/
  | slda (d : SReg) (r : SReg) (x : SReg) (st : StreamNo) (z : SMemSize) (e : Option (BitVec 25))
  /-- SSTR (R162): Scalar store with release. -/
  | sstr (d : SReg) (r : SReg) (x : SReg) (st : StreamNo) (z : SMemSize) (e : Option (BitVec 25))
  /-- VATOM_ADD (R165): Per-lane atomic 32-bit add. -/
  | vatomAdd (d : VReg) (r : SReg) (x : VReg) (st : StreamNo) (e : Option (BitVec 25))
  /-- VATOM_AND (R165): Per-lane atomic AND. -/
  | vatomAnd (d : VReg) (r : SReg) (x : VReg) (st : StreamNo) (e : Option (BitVec 25))
  /-- VATOM_OR (R165): Per-lane atomic OR. -/
  | vatomOr (d : VReg) (r : SReg) (x : VReg) (st : StreamNo) (e : Option (BitVec 25))
  /-- VATOM_XOR (R165): Per-lane atomic XOR. -/
  | vatomXor (d : VReg) (r : SReg) (x : VReg) (st : StreamNo) (e : Option (BitVec 25))
  /-- VATOM_MIN_S (R165): Per-lane atomic signed minimum. -/
  | vatomMinS (d : VReg) (r : SReg) (x : VReg) (st : StreamNo) (e : Option (BitVec 25))
  /-- VATOM_MAX_S (R165): Per-lane atomic signed maximum. -/
  | vatomMaxS (d : VReg) (r : SReg) (x : VReg) (st : StreamNo) (e : Option (BitVec 25))
  /-- VATOM_XCHG (R165): Per-lane atomic exchange. -/
  | vatomXchg (d : VReg) (r : SReg) (x : VReg) (st : StreamNo) (e : Option (BitVec 25))
  /-- VATOM_CAS (R165): Per-lane atomic compare-and-swap. -/
  | vatomCas (d : VReg) (r : SReg) (x : VReg) (st : StreamNo) (e : Option (BitVec 25))
  /-- VATOMF_FADD (R166): Per-lane atomic floating add, RNE. -/
  | vatomfFadd (d : VReg) (r : SReg) (x : VReg) (st : StreamNo) (e : Option (BitVec 25))
  /-- VATOMF_FMIN (R166): Per-lane atomic floating minimum. -/
  | vatomfFmin (d : VReg) (r : SReg) (x : VReg) (st : StreamNo) (e : Option (BitVec 25))
  /-- VATOMF_FMAX (R166): Per-lane atomic floating maximum. -/
  | vatomfFmax (d : VReg) (r : SReg) (x : VReg) (st : StreamNo) (e : Option (BitVec 25))
  /-- VATOMF_MIN_U (R166): Per-lane atomic unsigned minimum. -/
  | vatomfMinU (d : VReg) (r : SReg) (x : VReg) (st : StreamNo) (e : Option (BitVec 25))
  /-- VATOMF_MAX_U (R166): Per-lane atomic unsigned maximum. -/
  | vatomfMaxU (d : VReg) (r : SReg) (x : VReg) (st : StreamNo) (e : Option (BitVec 25))
  /-- VATOMF_INCW (R166): Per-lane atomic wrapping increment. -/
  | vatomfIncw (d : VReg) (r : SReg) (x : VReg) (st : StreamNo) (e : Option (BitVec 25))
  /-- VATOMF_DECW (R166): Per-lane atomic wrapping decrement. -/
  | vatomfDecw (d : VReg) (r : SReg) (x : VReg) (st : StreamNo) (e : Option (BitVec 25))
  /-- SATOM_ADD (R165): Scalar atomic 64-bit add. -/
  | satomAdd (d : SReg) (r : SReg) (x : SReg) (st : StreamNo) (e : Option (BitVec 25))
  /-- SATOM_AND (R165): Scalar atomic AND. -/
  | satomAnd (d : SReg) (r : SReg) (x : SReg) (st : StreamNo) (e : Option (BitVec 25))
  /-- SATOM_OR (R165): Scalar atomic OR. -/
  | satomOr (d : SReg) (r : SReg) (x : SReg) (st : StreamNo) (e : Option (BitVec 25))
  /-- SATOM_XOR (R165): Scalar atomic XOR. -/
  | satomXor (d : SReg) (r : SReg) (x : SReg) (st : StreamNo) (e : Option (BitVec 25))
  /-- SATOM_MIN_S (R165): Scalar atomic signed minimum. -/
  | satomMinS (d : SReg) (r : SReg) (x : SReg) (st : StreamNo) (e : Option (BitVec 25))
  /-- SATOM_MAX_S (R165): Scalar atomic signed maximum. -/
  | satomMaxS (d : SReg) (r : SReg) (x : SReg) (st : StreamNo) (e : Option (BitVec 25))
  /-- SATOM_XCHG (R165): Scalar atomic exchange. -/
  | satomXchg (d : SReg) (r : SReg) (x : SReg) (st : StreamNo) (e : Option (BitVec 25))
  /-- SATOM_CAS (R165): Scalar atomic compare-and-swap. -/
  | satomCas (d : SReg) (r : SReg) (x : SReg) (st : StreamNo) (e : Option (BitVec 25))
  /-- CACHE_PFL1 (R167): Prefetches a line into the L1. -/
  | cachePfl1 (r : SReg) (x : SReg) (st : StreamNo) (e : Option (BitVec 25))
  /-- CACHE_PFL2 (R167): Prefetches a line into its home L2. -/
  | cachePfl2 (r : SReg) (x : SReg) (st : StreamNo) (e : Option (BitVec 25))
  /-- CACHE_WBACK (R167): Writes a line's dirty data back to memory. -/
  | cacheWback (r : SReg) (x : SReg) (st : StreamNo) (e : Option (BitVec 25))
  /-- CACHE_INVAL (R167): Discards a line from the L1. -/
  | cacheInval (r : SReg) (x : SReg) (st : StreamNo) (e : Option (BitVec 25))
  /-- CACHE_WBINV (R167): Writes back and removes a line from L1 and home L2. -/
  | cacheWbinv (r : SReg) (x : SReg) (st : StreamNo) (e : Option (BitVec 25))
  /-- CACHE_ZLINE (R167): Stores 128 zero bytes to a line. -/
  | cacheZline (r : SReg) (x : SReg) (st : StreamNo) (e : Option (BitVec 25))
  /-- CPYL (R196): Forks a per-lane copy engine registered on a barrier. -/
  | cpyl (a : VReg) (b : VReg) (n : BarNo) (z : CpSize) (st : StreamNo)
  /-- TLD (R199): Forks a tile load from tensor to tile or feed slot. -/
  | tld (d : TReg) (a : TReg) (n : BarNo) (st : StreamNo)
  /-- TST (R199): Forks a tile store into a tensor. -/
  | tst (d : TReg) (a : TReg) (n : BarNo) (st : StreamNo)
  /-- TLDW (R183): Loads a compressed weight image into a handle. -/
  | tldw (k : HandleNo) (a : SReg) (st : StreamNo)
  /-- TZFILL (R199): Forks a fill of a tensor tile or feed slot. -/
  | tzfill (d : TReg) (n : BarNo) (st : StreamNo)
  /-- BINSC (R202): Forks a scatter of tokens into expert bins. -/
  | binsc (n : BarNo) (a : VReg) (b : SReg) (st : StreamNo)
  /-- BINRST (R202): Forks a reset of a bin table's counters. -/
  | binrst (n : BarNo) (b : SReg) (st : StreamNo)
  /-- CWAIT (R203): Waits until a counter reaches a value, then acquires. -/
  | cwait (d : SReg) (a : SReg) (b : SReg) (st : StreamNo)
  /-- CADD (R203): Releases and adds to a counter. -/
  | cadd (a : SReg) (b : SReg) (st : StreamNo)
  /-- CSET (R203): Releases and sets a counter. -/
  | cset (a : SReg) (b : SReg) (st : StreamNo)
  /-- CTEST (R203): Tests a counter without waiting. -/
  | ctest (d : SReg) (a : SReg) (b : SReg) (st : StreamNo)
  /-- ALLRED (R212): Issues a ring all-reduce on a communicator. -/
  | allred (t : TReg) (a : SReg) (n : BarNo) (st : StreamNo)
  /-- REDSC (R212): Issues a ring reduce-scatter. -/
  | redsc (t : TReg) (a : SReg) (n : BarNo) (st : StreamNo)
  /-- ALLGAT (R212): Issues a ring all-gather. -/
  | allgat (t : TReg) (a : SReg) (n : BarNo) (st : StreamNo)
  /-- BCAST (R212): Issues a ring broadcast from ROOT. -/
  | bcast (t : TReg) (a : SReg) (n : BarNo) (st : StreamNo)
  /-- RCOPY (R215): Forks a remote tile copy that raises a counter after its data. -/
  | rcopy (d : TReg) (a : TReg) (b : SReg) (n : BarNo) (st : StreamNo)
  /-- BMOPEN (R219): Opens a merge contributor and grants a Chrysalis slot. -/
  | bmopen (d : SReg) (a : SReg) (b : SReg) (st : StreamNo)
  /-- BMSTAGE (R219): Stages one tile into a merge slot. -/
  | bmstage (t : TReg) (a : SReg) (n : BarNo) (st : StreamNo)
  /-- BMCLOSE (R219): Closes or declares absent a merge contributor. -/
  | bmclose (d : SReg) (a : SReg) (b : SReg) (st : StreamNo)
  /-- BMNORM (R221): Continues a norm measurement over one tile. -/
  | bmnorm (d : SReg) (t : TReg) (b : SReg) (st : StreamNo)
  /-- BMADD (R221): Adds a scaled tile into a total. -/
  | bmadd (d : TReg) (a : TReg) (b : SReg) (st : StreamNo)
  /-- BMSTAT (R222): Reads merge progress and free slots. -/
  | bmstat (d : SReg) (a : SReg) (st : StreamNo)
  /-- EMIT (R236): Emits one record per active lane to a successor node, all or nothing. -/
  | emit (d : SReg) (a : VReg) (n : BitVec 2) (st : StreamNo)
  /-- NODE (R205): Defines a command-graph node whose body is the next sequence. -/
  | node (d : NodeNo) (c : BitVec 6)
  /-- NODE_L (R205): Defines a command-graph node whose body is a launch record. -/
  | nodeL (d : NodeNo) (c : BitVec 6) (b : SReg) (st : StreamNo)
  /-- NEDGE (R205): Adds a successor edge between nodes. -/
  | nedge (d : NodeNo) (a : NodeNo)
  /-- NWAIT (R205): Waits until a node is DONE. -/
  | nwait (d : SReg) (a : NodeNo)
  /-- GRAB (R237): Takes the next chunk of a Skipper range. -/
  | grab (d : SReg) (b : RangeNo)
  /-- RSET (R237): Initialises a Skipper range. -/
  | rset (d : RangeNo) (a : SReg) (b : SReg)
  /-- RSTAT (R237): Reads a Skipper range's state. -/
  | rstat (d : SReg) (b : RangeNo)
  /-- BURN (R66): Adds dummy draw to the layer's count. -/
  | burn (a : SReg)
  /-- SHUNT (R67): Requests ladder-balancer capacity for the window. -/
  | shunt (d : SReg) (a : SReg)
  /-- RDMIS (R62): Reads the layer's mismatch of the previous window. -/
  | rdmis (d : SReg)
  /-- DCLS (R68): Sets the group's declared draw class. -/
  | dcls (a : SReg)
  /-- TFEED (R176): Writes three rows of a feed slot and optionally seals it. -/
  | tfeed (m : FeedNo) (a : VReg) (b : SReg) (f : FeedFmt) (sl : Bool) (p : Option Prefix)
  /-- TDRAIN (R177): Reads three accumulator rows into a vector register. -/
  | tdrain (d : VReg) (n : AccNo) (b : SReg) (p : Option Prefix)
  /-- MMA (R178): Enqueues one matrix operation in its cell queue. -/
  | mma (n : AccNo) (m : FeedNo) (k : HandleNo)
  /-- MMAB (R181): Starts the macro-op sequencer over a tile block. -/
  | mmab (n : AccNo) (m : FeedNo) (k : BitVec 5) (b : SReg)
  /-- TZERO (R179): Enqueues a zeroing of an accumulator tile. -/
  | tzero (n : AccNo)
  /-- TCFG (R180): Swaps the thread's matrix configuration. -/
  | tcfg (d : SReg) (a : SReg)
  /-- ACCSPILL (R185): Stores an accumulator tile and releases it. -/
  | accspill (n : AccNo) (a : SReg) (st : StreamNo)
  /-- ACCFILL (R185): Loads an accumulator tile and marks it live. -/
  | accfill (n : AccNo) (a : SReg) (st : StreamNo)
  /-- ACCREL (R185): Releases a run of accumulator tiles. -/
  | accrel (n : AccNo) (c : BitVec 6)
  /-- ACCLIVE (R185): Waits for the thread's operations, then reads a live-tile word. -/
  | acclive (d : SReg) (h : BitVec 1)
  /-- TSET (R198): Writes one word of a tile descriptor. -/
  | tset (n : TReg) (wd : Fin 5) (a : SReg)
  /-- TGET (R198): Reads one word of a tile descriptor. -/
  | tget (d : SReg) (n : TReg) (wd : Fin 5)
  /-- TCOPY (R198): Copies a whole tile descriptor. -/
  | tcopy (d : TReg) (a : TReg)
deriving DecidableEq, Repr

/-- The prefix an instruction carries (R98). -/
def Instr.pfx : Instr → Option Prefix
  | .vfpFadd _ _ _ _ p => p
  | .vfpFsub _ _ _ _ p => p
  | .vfpFmul _ _ _ _ p => p
  | .vfpFmin _ _ _ _ p => p
  | .vfpFmax _ _ _ _ p => p
  | .vfpFabs _ _ _ p => p
  | .vfpFneg _ _ _ p => p
  | .vfpFcpysgn _ _ _ _ p => p
  | .fma _ _ _ _ p => p
  | .fms _ _ _ _ p => p
  | .nfma _ _ _ _ p => p
  | .nfms _ _ _ _ p => p
  | .vfpsFadd _ _ _ _ p => p
  | .vfpsFsub _ _ _ _ p => p
  | .vfpsFmul _ _ _ _ p => p
  | .vfpsFmin _ _ _ _ p => p
  | .vfpsFmax _ _ _ _ p => p
  | .vfpsFcpysgn _ _ _ _ p => p
  | .vintAdd _ _ _ p => p
  | .vintSub _ _ _ p => p
  | .vintMullo _ _ _ p => p
  | .vintMulhiS _ _ _ p => p
  | .vintMulhiU _ _ _ p => p
  | .vintAnd _ _ _ p => p
  | .vintOr _ _ _ p => p
  | .vintXor _ _ _ p => p
  | .vintAndn _ _ _ p => p
  | .vintShl _ _ _ p => p
  | .vintShr _ _ _ p => p
  | .vintSra _ _ _ p => p
  | .vintMinS _ _ _ p => p
  | .vintMaxS _ _ _ p => p
  | .vintMinU _ _ _ p => p
  | .vintMaxU _ _ _ p => p
  | .vintAbs _ _ p => p
  | .vintClz _ _ p => p
  | .vintPopc _ _ p => p
  | .vintBrev _ _ p => p
  | .vintsAdd _ _ _ p => p
  | .vintsSub _ _ _ p => p
  | .vintsMullo _ _ _ p => p
  | .vintsMulhiS _ _ _ p => p
  | .vintsMulhiU _ _ _ p => p
  | .vintsAnd _ _ _ p => p
  | .vintsOr _ _ _ p => p
  | .vintsXor _ _ _ p => p
  | .vintsAndn _ _ _ p => p
  | .vintsShl _ _ _ p => p
  | .vintsShr _ _ _ p => p
  | .vintsSra _ _ _ p => p
  | .vintsMinS _ _ _ p => p
  | .vintsMaxS _ _ _ p => p
  | .vintsMinU _ _ _ p => p
  | .vintsMaxU _ _ _ p => p
  | .vintiAddi _ _ _ p _ => p
  | .vintiAndi _ _ _ p _ => p
  | .vintiOri _ _ _ p _ => p
  | .vintiXori _ _ _ p _ => p
  | .vintiShli _ _ _ p _ => p
  | .vintiShri _ _ _ p _ => p
  | .vintiSrai _ _ _ p _ => p
  | .vintiMuli _ _ _ p _ => p
  | .vcmpEqS32 _ _ _ p => p
  | .vcmpNeS32 _ _ _ p => p
  | .vcmpLtS32 _ _ _ p => p
  | .vcmpLeS32 _ _ _ p => p
  | .vcmpGtS32 _ _ _ p => p
  | .vcmpGeS32 _ _ _ p => p
  | .vcmpEqU32 _ _ _ p => p
  | .vcmpNeU32 _ _ _ p => p
  | .vcmpLtU32 _ _ _ p => p
  | .vcmpLeU32 _ _ _ p => p
  | .vcmpGtU32 _ _ _ p => p
  | .vcmpGeU32 _ _ _ p => p
  | .vcmpEqF32 _ _ _ p => p
  | .vcmpNeF32 _ _ _ p => p
  | .vcmpLtF32 _ _ _ p => p
  | .vcmpLeF32 _ _ _ p => p
  | .vcmpGtF32 _ _ _ p => p
  | .vcmpGeF32 _ _ _ p => p
  | .vcmpUnord _ _ _ p => p
  | .rcp _ _ p => p
  | .rsq _ _ p => p
  | .sqrt _ _ p => p
  | .ex2 _ _ p => p
  | .lg2 _ _ p => p
  | .sin _ _ p => p
  | .cos _ _ p => p
  | .tanh _ _ p => p
  | .vcvtF32S32 _ _ p => p
  | .vcvtF32U32 _ _ p => p
  | .vcvtS32F32 _ _ p => p
  | .vcvtU32F32 _ _ p => p
  | .vcvtBf16F32 _ _ _ p => p
  | .vcvtF16F32 _ _ _ p => p
  | .vcvtF32Bf16 _ _ _ p => p
  | .vcvtF32F16 _ _ _ p => p
  | .vcvtSxF32 _ _ p => p
  | .vcvtF32Sx _ _ p => p
  | .vredFadd _ _ p => p
  | .vredFmin _ _ p => p
  | .vredFmax _ _ p => p
  | .vredIadd _ _ p => p
  | .vredIminS _ _ p => p
  | .vredImaxS _ _ p => p
  | .vscanFadd _ _ _ p => p
  | .vscanIadd _ _ _ p => p
  | .vcompact _ _ _ p => p
  | .vexpand _ _ p => p
  | .vsel _ _ _ p => p
  | .vperm _ _ _ p => p
  | .kand _ _ _ p => p
  | .kor _ _ _ p => p
  | .kxor _ _ _ p => p
  | .kandn _ _ _ p => p
  | .knot _ _ p => p
  | .kmov _ _ p => p
  | .k2s _ _ _ p => p
  | .s2k _ _ _ p => p
  | .kpopc _ _ p => p
  | .kfirst _ _ p => p
  | .vmov _ _ p => p
  | .vsplat _ _ p => p
  | .vext _ _ _ p => p
  | .vins _ _ _ p => p
  | .vlaneid _ p => p
  | .viota _ p => p
  | .tfeed _ _ _ _ _ p => p
  | .tdrain _ _ _ p => p
  | _ => none

/-- The payload of the XIMM an instruction carries (R97). -/
def Instr.ext : Instr → Option (BitVec 25)
  | .addi _ _ _ x => x
  | .andi _ _ _ x => x
  | .ori _ _ _ x => x
  | .xori _ _ _ x => x
  | .shli _ _ _ x => x
  | .shri _ _ _ x => x
  | .srai _ _ _ x => x
  | .slti _ _ _ x => x
  | .sli _ _ x => x
  | .brEqz _ _ x => x
  | .brNez _ _ x => x
  | .brLtz _ _ x => x
  | .brGez _ _ x => x
  | .brGtz _ _ x => x
  | .brLez _ _ x => x
  | .jmp _ x => x
  | .call _ x => x
  | .kbrAny _ _ x => x
  | .kbrAll _ _ x => x
  | .kbrNone _ _ x => x
  | .vintiAddi _ _ _ _ x => x
  | .vintiAndi _ _ _ _ x => x
  | .vintiOri _ _ _ _ x => x
  | .vintiXori _ _ _ _ x => x
  | .vintiShli _ _ _ _ x => x
  | .vintiShri _ _ _ _ x => x
  | .vintiSrai _ _ _ _ x => x
  | .vintiMuli _ _ _ _ x => x
  | .vld _ _ _ _ _ e => e
  | .vst _ _ _ _ _ e => e
  | .vlda _ _ _ _ _ e => e
  | .vstr _ _ _ _ _ e => e
  | .sld _ _ _ _ _ e => e
  | .sst _ _ _ _ _ e => e
  | .slda _ _ _ _ _ e => e
  | .sstr _ _ _ _ _ e => e
  | .vatomAdd _ _ _ _ e => e
  | .vatomAnd _ _ _ _ e => e
  | .vatomOr _ _ _ _ e => e
  | .vatomXor _ _ _ _ e => e
  | .vatomMinS _ _ _ _ e => e
  | .vatomMaxS _ _ _ _ e => e
  | .vatomXchg _ _ _ _ e => e
  | .vatomCas _ _ _ _ e => e
  | .vatomfFadd _ _ _ _ e => e
  | .vatomfFmin _ _ _ _ e => e
  | .vatomfFmax _ _ _ _ e => e
  | .vatomfMinU _ _ _ _ e => e
  | .vatomfMaxU _ _ _ _ e => e
  | .vatomfIncw _ _ _ _ e => e
  | .vatomfDecw _ _ _ _ e => e
  | .satomAdd _ _ _ _ e => e
  | .satomAnd _ _ _ _ e => e
  | .satomOr _ _ _ _ e => e
  | .satomXor _ _ _ _ e => e
  | .satomMinS _ _ _ _ e => e
  | .satomMaxS _ _ _ _ e => e
  | .satomXchg _ _ _ _ e => e
  | .satomCas _ _ _ _ e => e
  | .cachePfl1 _ _ _ e => e
  | .cachePfl2 _ _ _ e => e
  | .cacheWback _ _ _ e => e
  | .cacheInval _ _ _ e => e
  | .cacheWbinv _ _ _ e => e
  | .cacheZline _ _ _ e => e
  | _ => none

end Sys2Proof
end

