-- ==== Sys2Proof/Machine/State.lean ====
section
/-!
DEFINITION. The state of a Choxia: every register, memory, queue and unit that spec/ names, as plain data. The comments
name the rule that gives each piece. Fields marked MODEL are the model's own scheduling data.
-/

namespace Sys2Proof.Machine

/-- Why the machine stops. -/
inductive Fault where
  /-- Raised by the meaning of a sequence when no split or control thread is the issuing agent, which no step of the
  machine does. Safe: the machine stops where nothing of the spec stands. -/
  | noAgent
deriving DecidableEq, Repr

/-- What has no meaning. -/
inductive Refusal where
  /-- An instruction of the table that the model gives no meaning yet, by its mnemonic. Safe: nothing follows from it. -/
  | notModelled (mnemonic : String)
deriving DecidableEq, Repr

/-- A split of a group (group key 32 × core + slot, split number), or a control thread (2 × cluster + 0 or 1). -/
inductive Agent where
  | split (g k : Nat)
  | thread (t : Nat)
deriving DecidableEq, Repr

/-- MODEL: what is left to do about the agents of a clk (R266, R267, R269): see whether one is ready, let a unit choose, or let
an agent try to issue. -/
inductive Turn where
  | look (a : Agent)
  | pick (u : Nat)
  | run (a : Agent)
deriving DecidableEq, Repr

/-- The sixteen causes of a slot (R271). -/
inductive Cause where
  | issue | depend | loadwait | pipe | fetch | barrier | queue | async | stack | balance | fault | sync | matrix | trap
  | restart | empty
deriving DecidableEq, Repr

/-- A stream table entry as an access captures it (R107, R110): ordering, policy, scope, all as codes. -/
structure Stream where
  ord    : BitVec 2
  policy : BitVec 2
  scope  : BitVec 3
deriving DecidableEq, Repr

/-- A parked access (R163): the lanes still to perform, the fault token it waits on, and whether a RESUME has freed it. -/
structure Park where
  mask  : Mask
  token : Option Nat
  /-- The sequence replays at its next issue, for `mask` only. -/
  ready : Bool
  /-- What its ports popped when it first issued: a replay pops nothing again (R105, R154). -/
  popped : List (Nat × Word)
  /-- The sequence is a BAR.AW whose arrival stands, restored with the token of that arrival (R309). -/
  aw     : Option Bool := none
deriving DecidableEq, Repr

/-- What an agent waits in after its sequence has issued, with the register that receives the result. -/
inductive Wait where
  /-- A load or atomic that is performed beyond the core (R156). -/
  | access (id : Nat)
  /-- BAR.WAIT, or BAR.AW whose arrival stands: while PHASE equals the token (R193, R309). -/
  | barrier (n : Nat) (token : Bool) (d : SReg) (arrived : Bool)
  /-- CWAIT: until the counter reaches a value (R203), with what its ports popped. -/
  | counter (va : Word) (v : Word) (st : Nat) (sc : Stream) (d : SReg) (popped : List (Nat × Word))
  /-- NWAIT: until a node is DONE (R205). -/
  | node (n : Nat) (d : SReg)
  /-- At REGION or RCLOSE until the last live group arrives (R52). -/
  | region
  /-- FENCE.S: until the earlier accesses of the streams have been performed (R231). -/
  | fence (streams : BitVec 16) (scope : BitVec 3)
  /-- A COLL of the communication group: before every group has issued, or driving (R212). -/
  | coll
  /-- An answer of the merge unit that comes at a clk, with the registers it writes (R218, R221). -/
  | answer (at_ : Nat) (out : List (SReg × Word))
  /-- ACCSPILL or ACCFILL until the tile has moved (R185). -/
  | acc (at_ : Nat)
  /-- The context engine works on this thread (R187): before it may move the tiles (R175), or until a clk. -/
  | owner (at_ : Option Nat)
deriving DecidableEq, Repr

/-- What a split and a control thread have in common: where they are and what holds them. -/
structure Strand where
  /-- Address of the next sequence (R36, R55), or of the one it waits in. -/
  pc      : Word
  /-- Where it goes on when its wait ends. -/
  resume  : Word
  /-- In its handler (R108). -/
  handler : Bool
  park    : Option Park
  /-- The unfinished lanes of a sequence that trapped while parked or replaying, by its address (R358). -/
  kept    : Option (Word × Park)
  wait    : Option Wait
  /-- Not ready before this clk (R227). -/
  delay   : Nat
  /-- The clk of the last issue, or of creation (R266). -/
  last    : Nat
  /-- Traps to take before the next issue, with their values (R64, R364, R376). -/
  traps   : List (BitVec 8 × Word)
  /-- Stopped by a debugger (R283). -/
  stopped : Bool
  /-- MODEL: why its last attempt of a clk did not issue; ISSUE while it is ready (R266). -/
  why     : Cause
  /-- MODEL: the draw that its next sequence would add, as last seen (R267). -/
  adds    : Nat
  /-- It waits to take a trap while a sibling is in its handler (R108). -/
  queued  : Bool
deriving DecidableEq, Repr

/-- An entry of a split's reconvergence stack or a record of its join chain, innermost first (R37, R38). -/
inductive Nest where
  | pend (join : Word) (x : Mask) (target : Word) (t : Mask) (fmt : BitVec 9) (phase : Bool)
  | link (join : Word) (sib : Nat) (fmt : BitVec 9) (ended : Bool)
deriving DecidableEq, Repr

/-- A split (R36). -/
structure Split where
  strand  : Strand
  /-- EXEC: s62:s61:s60 (R3, R35). -/
  ex      : Mask
  fmt     : BitVec 9
  flags   : BitVec 5
  nest    : List Nest
  /-- Draw of its sequences in the current window and, of their late beats, in the next (R60, R64). -/
  draw    : Nat
  drawNext : Nat
deriving DecidableEq, Repr

/-- A register a scoreboard watches (R270). -/
inductive Reg where
  | s (r : Nat) | bank (k r : Nat) | v (r : Nat) | k (r : Nat) | t (r : Nat)
deriving DecidableEq, Repr

/-- A pending result: the register, the clk it is available, and the cause its dependents are charged: LOADWAIT, DEPEND or
ASYNC (R118, R224, R270). -/
structure Pending where
  reg   : Reg
  at_   : Nat
  cause : Cause
deriving DecidableEq, Repr

/-- A resident group (R104). -/
structure Group where
  /-- Vector registers declared (R10). -/
  nreg    : Nat
  s       : Tab Word
  v       : Tab (List Lane)
  k       : Tab Mask
  tvec    : Word
  tcause  : Word
  tpc     : Word
  tval    : Word
  drawcls : BitVec 2
  st      : Tab (BitVec 7)
  lp      : Tab (BitVec 24)
  gstall  : Tab Word
  /-- Bound queue of each port (R105); a port without an entry is unbound. -/
  port    : Tab (BitVec 5)
  /-- t0 to t15 as the group sees them (R198): word w of tn at 5n + w, with the number of its write. -/
  t       : Tab (Nat × Word)
  splits  : Tab Split
  retired : Mask
  pend    : List Pending
  /-- Workgroup, and LVLIDX0 in it. -/
  wg      : Nat
  idx     : Nat
  /-- First clk in which it may issue and is charged (R265). -/
  from_   : Nat
deriving DecidableEq, Repr

/-- A named barrier (R192, R383). -/
structure Bar where
  phase  : Bool
  expa   : Nat
  penda  : Int
  expb   : Int
  pendb  : Int
  poison : Bool
  opened : Bool
  seq    : BitVec 32
  /-- Status of the last completed phase (R365). -/
  status : BitVec 2
  /-- Descriptor words that members had seen at their arrivals with release in this phase, and in the last completed one (R198). -/
  pub    : Tab (Nat × Word)
  seen   : Tab (Nat × Word)
deriving DecidableEq, Repr

/-- The macro-op sequencer of a control thread while it runs an MMAB (R181, R182). -/
structure Sequencer where
  word  : BitVec 32
  geom  : Word
  kk    : Nat
  ij    : Nat
  cfg   : BitVec 2
  node  : Option Nat
  /-- Issue clk of the MMAB: its passes count as enqueued then (R175). -/
  at_   : Nat
deriving DecidableEq, Repr

/-- A control thread (R55, R104). -/
structure Thread where
  strand : Strand
  s      : Tab Word
  sup    : Bool
  tvec   : Word
  tcause : Word
  tpc    : Word
  tval   : Word
  mcfg   : BitVec 2
  st     : Tab (BitVec 7)
  port   : Tab (BitVec 5)
  /-- t0 to t15 as the thread sees them, as a group does. -/
  t      : Tab (Nat × Word)
  b      : Tab Bar
  seqr   : Option Sequencer
  pend   : List Pending
  /-- Virtual interface and guest ASID of the context it runs (R274). -/
  ctx    : Option (BitVec 8 × BitVec 16)
  /-- Workgroup whose control program it is bound to (R184). -/
  wg     : Option Nat
  exited : Bool
  /-- The context engine stops it: it issues nothing, and its sequencer enqueues nothing (R309, R313). -/
  halt   : Bool
  /-- It issues nothing until the tiles that another virtual interface's context left have been spilled (R175, R311). -/
  spill  : Bool
  /-- The tile of its ACCSPILL or ACCFILL that is parked, with the clk it issued and its address (R175). -/
  acc    : Option (Nat × Nat × Word)
deriving DecidableEq, Repr

/-- A send of a collective's driver (R212): the packets that are not acknowledged, and the raise that follows them. -/
structure Send where
  xids  : List (BitVec 32)
  /-- Device, RVA and value of the raise, until it is made. -/
  raise : Option (Nat × Nat × Word)
deriving DecidableEq, Repr

/-- The collective a workgroup has under way (R208 to R213, R389): what the communication group captured, the groups that have
issued, and where its driver stands. -/
structure Coll where
  op      : BitVec 2
  /-- The communicator record and its address. -/
  record  : List Byte
  va      : Word
  tile    : List Word
  bar     : Nat
  stream  : Nat
  st      : Stream
  /-- The split of the communication group that drives it, once that group has issued. -/
  agent   : Option Agent
  issued  : List Nat
  /-- Every group has issued (R212). -/
  started : Bool
  /-- Chunks (R209), and the driver's next step among its steps. -/
  chunks  : Nat
  pos     : Nat
  sends   : List Send
  /-- CODE and SEQ of the record of its abort, the abort's step, and whether the fabric has reported the previous rank
  (R389). -/
  abort   : Option (BitVec 8 × BitVec 32)
  phase   : Nat
  told    : Bool
deriving DecidableEq, Repr

/-- A restart record (R307) with the control block when CTL is set. -/
structure Restart where
  resume  : Word
  discardable : Bool
  ctl     : Option Thread
  pending : Bool
  suspended : Bool
  saveLost : Bool
  ctlDone : Bool
  live    : List Mask
  /-- Accounting totals and GSTALL banks, which continue (R280). -/
  totals  : Tab Word
  stalls  : Tab (Tab Word)
  batch   : Option (Nat × List (List Byte))
  /-- It is stopped again before its first sequence (R283). -/
  stopped : Bool
deriving DecidableEq, Repr

/-- A workgroup that is placed or waits for relaunch (R41, R52, R264). -/
structure Workgroup where
  launch  : Nat
  num     : Nat
  vi      : BitVec 8
  asid    : BitVec 16
  /-- CLUSTER-bound (R41). -/
  wide    : Bool
  cluster : Nat
  /-- Keys of its groups, by LVLIDX0; none for a group that has ended. -/
  groups  : List (Option Nat)
  /-- The group slots it holds until it ends, by LVLIDX0 (R46). -/
  keys    : List Nat
  /-- GSTALL banks of groups that have ended, by LVLIDX0 (R280, R281). -/
  stalls  : Tab (Tab Word)
  ctl     : Option Nat
  ctlDone : Bool
  b       : Tab Bar
  /-- The scoreboard over t0 to t15 (R270). -/
  pend    : List Pending
  /-- The open region (R52): resume PC, whether it buffers, live masks at its opening, groups that have arrived. -/
  resume  : Word
  buffers : Bool
  live    : List Mask
  arrived : List Nat
  /-- What the last arrival opens (R52): its resume PC, and whether it buffers (REGION) or not (RCLOSE). -/
  nextPc  : Word
  nextBuffers : Bool
  totals  : Tab Word
  coll    : Option Coll
  /-- A pending pre-emption (R306), its grace timer (R312), SUSPENDED. -/
  preempt : Bool
  grace   : Option Nat
  suspended : Option Thread
  /-- Clk at which its discard ends (R304), while it is discarded. -/
  discard : Option Nat
  /-- LVLBASE1 to LVLBASE7 (R42). -/
  bases   : List Word
  /-- Batch of a work-graph node (R48): arrival and records. -/
  batch   : Option (Nat × List (List Byte))
  /-- Core on which a CORE-bound workgroup stands. -/
  core    : Nat
  /-- Stopped by a debugger before its first sequence (R283). -/
  stopped : Bool
  /-- Placement number, rising. -/
  placed  : Nat
  /-- A system trap has ended it; the error record word (R363). -/
  dead    : Bool
  /-- A save of its control program has been abandoned (R395). -/
  saveLost : Bool
deriving DecidableEq, Repr

/-- A launch Monarch has accepted (R260, R261), with its record's bytes. -/
structure Launch where
  id      : BitVec 32
  vi      : BitVec 8
  asid    : BitVec 16
  record  : List Byte
  prio    : Nat
  /-- MAXPRIO of the queue that carried it (R261). -/
  cap     : Nat
  arrival : Nat
  eligible : Bool
  /-- Next flat workgroup number to place, and the workgroups waiting for relaunch. -/
  next    : Nat
  wait    : List (Nat × Restart)
  ended   : Nat
  /-- RECORD of its completion object (R356). -/
  error   : Word
  dead    : Bool
  /-- Its last workgroup has ended, and exit records still wait for their ring (R263, R281). -/
  ending  : Bool
  kpid    : BitVec 32
  ktid    : BitVec 32
  /-- The graph and node it belongs to (R48), or the cluster and node of a NODE.L (R206). -/
  graph   : Option (Nat × Nat)
  node    : Option (Nat × Nat)
  /-- Batches of a node kernel by workgroup number: the arrival of the workgroup, and its records (R48, R261). -/
  batches : Tab (Nat × List (List Byte))
  /-- Level, unit and instance of the domains that its units are bound to (R43, R265). -/
  homes   : List (Nat × Nat × Nat)
  /-- Writes of its ended workgroups that their homes hold (R263, R376). -/
  held    : List Nat
deriving DecidableEq, Repr

/-- An active work graph, or one that waits (R47 to R49, R262). -/
structure Graph where
  vi      : BitVec 8
  asid    : BitVec 16
  record  : List Byte
  prio    : Nat
  arrival : Nat
  active  : Bool
  table   : List Byte
  queues  : Tab (List (List Byte))
  /-- Records in each node's spill area: the first record's place, and how many (R50). -/
  spilled : Tab (Nat × Nat)
  /-- Nodes whose full spill area has been reported (R393). -/
  reported : List Nat
  /-- Launch key of each node's kernel. -/
  launches : Tab Nat
  wgs     : Nat
  ended   : Nat
  /-- RECORD of its completion object, once it has ended and exit records still wait for their ring (R263, R281). -/
  ending  : Option Word
  kpid    : BitVec 32
  ktid    : BitVec 32
  /-- Reservations by node: cluster, core, the workgroup that uses it (R49). -/
  resv    : Tab (Nat × Nat × Option Nat)
deriving DecidableEq, Repr

/-- Stored bytes of a sector that have not joined its ordinary ones: region-dirty bytes of a workgroup (R53, R83), or an ordinary
store made over such bytes (R249, R251). -/
structure Layer where
  region : Bool
  wg     : Nat
  writer : Agent
  mask   : BitVec 16
  bytes  : List Byte
  tags   : BitVec 16
  /-- The policy under which it goes to the home at the commit; none where it stays in the L1 (R84, R241). -/
  policy : Option (BitVec 2)
  /-- A store that made it covers the sector whole (R373). -/
  whole  : Bool
  /-- It has been poisoned in place (R373). -/
  bad    : Bool
deriving DecidableEq, Repr

/-- One 16-byte sector of an L1 line (R83, R245): its ordinary bytes, which of them it holds, dirtiness, stream tags. -/
structure Sector where
  bytes  : List Byte
  /-- Bytes that are valid here. -/
  have_  : BitVec 16
  /-- Bytes written since the last write-back. -/
  dirty  : BitVec 16
  tags   : BitVec 16
  /-- Tags it was filled with. -/
  fill   : BitVec 16
  poison : Bool
  /-- The workgroups whose ordinary stores are dirty in it, the last first, and the agent that last wrote it. -/
  wgs    : List Nat
  writer : Option Agent
  /-- What stands above the ordinary bytes, the oldest first. -/
  layers : List Layer
deriving DecidableEq, Repr

/-- An L1 line (R81, R290). -/
structure L1Line where
  sectors : Tab Sector
  w : Bool
  x : Bool
  kind : BitVec 2
  /-- The translation that filled it is known (R83: a line that only stores made has none). -/
  filled : Bool
  used : Nat
deriving DecidableEq, Repr

/-- An L2 line (R85, R86, R290): 128 bytes, the translation that filled it, dirty sectors, poisoned sectors. -/
structure L2Line where
  bytes  : List Byte
  w      : Bool
  x      : Bool
  kind   : BitVec 2
  frame  : Nat
  dirty  : BitVec 8
  poison : BitVec 8
  used   : Nat
  vi     : BitVec 8
deriving DecidableEq, Repr

/-- An instruction cache line: bytes and the boundary marks of its parcels, 0 UNKNOWN, 1 FIRST, 2 SECOND (R361). -/
structure ILine where
  bytes : List Byte
  marks : Tab Nat
  used  : Nat
  /-- It was delivered poisoned (R373, R374). -/
  bad   : Bool
deriving DecidableEq, Repr

/-- A bank of slot counters (R275): its context and BASEn + CURn, kept apart. -/
structure Bank where
  vi   : BitVec 8
  asid : BitVec 16
  cur  : Tab Nat
  base : Tab Word
deriving DecidableEq, Repr

/-- An entry of a PC table (R276). -/
structure PcEntry where
  bank  : Nat
  pc    : Word
  cause : BitVec 8
  count : Nat
deriving DecidableEq, Repr

/-- The charge of a slot (R272): its context, as the bank names it, its address and cause, and who it went to. -/
structure Charge where
  vi    : BitVec 8
  asid  : BitVec 16
  pc    : Word
  cause : Cause
  agent : Option Agent
  name  : List Byte
deriving DecidableEq, Repr

/-- What a vector core and a control core share: caches of code, slots, banks. -/
structure CoreUnit where
  icache  : Tab ILine
  iways   : Tab Nat
  /-- The divider is busy before this clk (R119). -/
  divider : Nat
  /-- The three vector pipes are held before these clks (R34): FP/FMA, integer and SFU, load/store. -/
  pipes   : List Nat
  banks   : Tab Bank
  pcs     : List PcEntry
  ovf     : Tab Nat
  /-- MODEL: a sequence has issued in this clk. -/
  issued  : Bool
  /-- The charge of this clk, for samples and stall counts (R280, R284). -/
  charged : Option Charge
deriving DecidableEq, Repr

/-- A split that has left its core: slot, split, the du it drew in this window and in the next, context, PC, name (R64, R369). -/
structure Ended where
  slot  : Nat
  split : Nat
  draw  : Nat
  next  : Nat
  vi    : BitVec 8
  asid  : BitVec 16
  pc    : Word
  name  : List Byte
deriving DecidableEq, Repr

/-- A vector core (R9, R58 to R70, R81). -/
structure Core where
  unit    : CoreUnit
  l1      : Tab L1Line
  /-- Ways an L1 set has lost (R357). -/
  l1off   : Tab Nat
  /-- MIS (R62). -/
  mis     : Word
  draw    : Nat
  drawNext : Nat
  burned  : Nat
  autobal : Nat
  shunt   : Nat
  /-- Throttled in this window (R63), and windows a power throttle still lasts (R404). -/
  throttled : Bool
  power   : Nat
  lastIssue : Option Nat
  keeping : Option Nat
  /-- Discarding until this clk, for this context and resume PC (R273). -/
  discard : Option (Nat × Nat)
  fenced  : Bool
  /-- Physical lanes with a lasting fault, each with the spare that serves for it (R11). -/
  spares  : Tab Nat
  /-- Splits that have left while their draw still counts in a window (R64). -/
  ended   : List Ended
deriving DecidableEq, Repr

/-- A feed slot (R169): rows as element fields, with the block headers of an SX row. -/
structure Feed where
  fmt    : FeedFmt
  ready  : Bool
  tog    : Nat
  rows   : Tab (List Nat)
  heads  : Tab (List (Nat × Nat))
  /-- A row has been written since the release, in this format. -/
  wrote  : Option FeedFmt
  mixed  : Bool
  poison : Bool
deriving DecidableEq, Repr

/-- A weight handle (R170, R386). -/
structure Handle where
  valid  : Bool
  fmt    : FeedFmt
  tog    : Nat
  failed : Bool
  poison : Bool
  rows   : List (List Nat)
  heads  : List (List (Nat × Nat))
deriving DecidableEq, Repr

/-- An operation in a matrix queue or in a cell (R174). -/
structure MatOp where
  id     : Nat
  zero   : Bool
  n      : Nat
  m      : Nat
  k      : Nat
  zfirst : Bool
  release : Bool
  thread : Nat
  /-- Clk of enqueue for R175. -/
  at_    : Nat
  /-- D, fixed when it first becomes a candidate, and the clks it has been one since then without admission (R73, R74, R174). -/
  cand   : Option (Nat × Nat)
  /-- Admission clk. -/
  start  : Option Nat
  node   : Option Nat
  seqr   : Bool
  /-- Tiles of its accumulator group, fixed at admission; 8 before (R171, R178). -/
  w      : Nat
  /-- The sealed rows and the weights it reads, captured at admission (R175). -/
  a      : Option Feed
  b      : Option Handle
  /-- Tiles that a later TZERO has written before this operation's results (R174): they are not written again. -/
  passed : List Nat
deriving DecidableEq, Repr

/-- An entry of a hardware queue (R232, R233): the value, and the workgroup that holds it with the number of its pop. -/
structure QEntry where
  val  : Word
  held : Option (Nat × Nat)
deriving DecidableEq, Repr

/-- The body a command-graph node captured (R205). -/
inductive Body where
  | tile (op : Nat) (dst src : List Word) (bar : Nat) (st : Nat) (sc : Stream)
  | weight (k : Nat) (va : Word) (st : Nat) (sc : Stream)
  | mat (zero : Bool) (n m k : Nat) (cfg : BitVec 2)
  | macro_ (word : BitVec 32) (geom : Word) (cfg : BitVec 2)
  | launch (record : List Byte) (addr cap : Nat) (kpid ktid : BitVec 32)
deriving DecidableEq, Repr

/-- States of a command-graph node (R204). -/
inductive NodeState where
  | free | armed | fired | done
deriving DecidableEq, Repr

/-- A command-graph node (R204, R387). -/
structure Node where
  state  : NodeState
  count  : Nat
  succ   : List Nat
  body   : Option Body
  thread : Nat
  vi     : BitVec 8
  asid   : BitVec 16
  wg     : Option Nat
  /-- Error record word of a failed or cancelled node (R387). -/
  error  : Word
deriving DecidableEq, Repr

/-- A cluster (R8). -/
structure Cluster where
  unit    : CoreUnit
  stkcfg  : Word
  shuntloss : Word
  granted : Nat
  /-- MEAN of the previous window (R69). -/
  mean    : Nat
  accowner : Word
  acclive : BitVec 128
  acc     : Tab (List Lane)
  accPoison : List Nat
  feed    : Tab Feed
  handle  : Tab Handle
  mq      : Tab (List MatOp)
  /-- Operations admitted and not complete. -/
  run     : List MatOp
  cellFree : Tab Nat
  budget  : Nat
  queue   : Tab (List QEntry)
  node    : Tab Node
  turn    : Bool
  fenced  : Bool
  cellOff : List Nat
deriving DecidableEq, Repr

/-- A Chrysalis slot (R217, R219): the merge it is held for, its contributor, closed, poisoned, its tiles. -/
structure Slot where
  vi     : BitVec 8
  asid   : BitVec 16
  record : Word
  index  : Nat
  closed : Bool
  poison : Bool
  tiles  : Tab (List Lane)
deriving DecidableEq, Repr

/-- An absent contributor that waits to commit (R220). -/
structure Absent where
  asid   : BitVec 16
  record : Word
  index  : Nat
  vi     : BitVec 8
deriving DecidableEq, Repr

/-- A compute die (R4). -/
structure Die where
  nslot   : Nat
  slots   : Tab Slot
  absent  : List Absent
  l2      : Tab L2Line
  l2off   : Tab Nat
  /-- Held lines (R376): keys of accesses. -/
  held    : List Nat
  /-- Records waiting for a full ring, and DROPPED (R355). -/
  dropped : Nat
  /-- Bytes each virtual interface has moved in this bandwidth window (R301). -/
  band    : Tab Nat
  /-- 64 KiB pieces of chip scratchpad never allocated again (R372). -/
  bad     : List Nat
deriving DecidableEq, Repr

/-- A combined translation in a station (R294): frame, page size as log2, W, X, KIND, OCHK, REMOTE. -/
structure Tlb where
  pa   : Nat
  size : Nat
  w    : Bool
  x    : Bool
  kind : BitVec 2
  ochk : Bool
  remote : Option (Nat × Nat)
  vmid : Nat
  asid : Nat
  page : Nat
  used : Nat
deriving DecidableEq, Repr

/-- A pointer entry that a station keeps (R289, R294): stage, VMID and device ASID (0 for stage 2), level, the addresses under it
by their upper bits, and the table it names. -/
structure Ptr where
  stage : Nat
  vmid  : Nat
  asid  : Nat
  lvl   : Nat
  page  : Nat
  table : Nat
deriving DecidableEq, Repr

/-- A translation station (R293, R294). -/
structure Station where
  tlb   : List Tlb
  /-- Pointer entries, at most 256, the least recently used first. -/
  ptrs  : List Ptr
  fenced : Bool
deriving DecidableEq, Repr

/-- What follows an agent's release of every stream and waits for it (R194, R233, R236): an arrival at a barrier, a posting of
bytes to it, a push, the records of an EMIT. -/
inductive After where
  | arrive (w : Option Nat) (t n : Nat)
  | post (w : Option Nat) (t n : Nat) (bytes : Int)
  /-- Cluster, queue, and the value, once it is known. -/
  | push (c q : Nat) (v : Option Word)
  /-- Graph, node, records, and the status register. -/
  | emit (graph node : Nat) (recs : List (List Byte)) (d : Nat)
deriving DecidableEq, Repr

/-- An access that is under way beyond the core (R154, R156, R161): a lane list for loads and atomics, bytes for stores. -/
structure Access where
  agent  : Agent
  /-- 0 load, 1 store, 2 atomic, 3 line operation, 4 store or write-back that is held (R376), 5 what follows a release. -/
  what   : Nat
  /-- Operation code of an atomic (major code × 8 + sz), or of CACHE. -/
  op     : Nat
  stream : Nat
  st     : Stream
  release : Bool
  acquire : Bool
  vi     : BitVec 8
  asid   : BitVec 16
  wg     : Nat
  core   : Nat
  /-- Lane, address and data of each element, in lane order. -/
  lanes  : List (Nat × Word × List Byte)
  /-- Destination: register file 0 vector, 1 scalar; register; element size; conversion code. -/
  dest   : Nat × Nat × Nat × Nat
  /-- Second operand registers of CAS. -/
  cas    : List (List Byte)
  /-- Active lanes at issue. -/
  mask   : Mask
  /-- What the lanes that have been performed read, by lane or block. -/
  got    : Tab (List Byte)
  token  : Option Nat
  /-- The data is poisoned (R373). -/
  bad    : Bool
  /-- Streams whose later accesses by the same agent wait to issue for this one (R161, R230). -/
  block  : BitVec 16
  /-- Its agent waits in its instruction for it (R163). -/
  held   : Bool
  /-- A store that has not been performed in its core yet, and whether the open region is to buffer it (R53, R161). -/
  via    : Bool
  buf    : Bool
  /-- Streams of the dirty bytes that a held line carries (R245, R376). -/
  tags   : BitVec 16
  /-- Keys of the lines that it brought into the L2 (R84). -/
  brought : List Nat
  popped : List (Nat × Word)
  /-- What it stands for, once the release before it has been performed. -/
  act    : Option After
deriving DecidableEq, Repr

/-- A line that is missing at its home and the steps that bring it (R85, R293). -/
structure Request where
  asid  : BitVec 16
  vi    : BitVec 8
  line  : Nat
  write : Bool
  fetch : Bool
  waiters : List Instr
  token : Option Nat
  tlb   : Option Tlb
  /-- The walk that it waits for, by the request that began it (R294). -/
  walk  : Option Nat
deriving DecidableEq, Repr

/-- A kernel: its context, the CODE or CTLPC of its launch, and whether it is a control program (R89). -/
structure Kernel where
  vi    : BitVec 8
  asid  : BitVec 16
  code  : Nat
  ctl   : Bool
deriving DecidableEq, Repr

/-- A fetch that Admiral has in flight (R89), with the kernels whose misses it answers. -/
structure Fetch where
  die   : Nat
  asid  : BitVec 16
  vi    : BitVec 8
  line  : Nat
  kernels : List Kernel
  agent : Agent
deriving DecidableEq, Repr

/-- What an engine operation does (R190): captured operands. -/
inductive EngineOp where
  | cpyl (size : Nat) (lanes : List (Nat × Word × Word))
  | tld (dst src : List Word)
  | tst (dst src : List Word)
  | tzfill (dst : List Word)
  | tldw (k : Nat) (va : Word)
  | binsc (table : Word) (lanes : List (Nat × Lane × Lane))
  | binrst (table : Word)
  | cadd (va : Word) (v : Word)
  | cset (va : Word) (v : Word)
  | rcopy (dst src : List Word) (counter : Word)
  | stage (handle : Word) (tile : List Word)
deriving DecidableEq, Repr

/-- An engine operation under way (R190, R252). -/
structure Engine where
  op     : EngineOp
  agent  : Agent
  wg     : Option Nat
  unit   : Nat
  cluster : Nat
  vi     : BitVec 8
  asid   : BitVec 16
  stream : Nat
  st     : Stream
  bar    : Option Nat
  bytes  : Nat
  node   : Option Nat
  token  : Option Nat
  /-- Record that its first failure wrote (R383). -/
  error  : Option (BitVec 32)
  xids   : List (BitVec 32)
  /-- 0 before its work, 1 while its data is out, 2 while its counter raise is out, 3 when only the post is left. -/
  phase  : Nat
  /-- Its fault has been denied (R377). -/
  denied : Bool
  /-- A failure has stopped it: nothing is left but its post (R383). -/
  stopped : Bool
  /-- The runs of bytes that it reads or writes, as known at its issue (R191). -/
  spans  : List (Nat × Nat)
  issue  : Nat
deriving DecidableEq, Repr

/-- An outstanding fault (R298): what it names and who waits. -/
structure FaultRec where
  vi     : BitVec 8
  stage  : Nat
  page   : Nat
  asid   : BitVec 16
  va     : Word
  /-- The agents that are parked on it, each with its faulting address (R377). -/
  splits : List (Agent × Word)
  steps  : List Instr
  /-- The ring record has been written. -/
  told   : Bool
  bytes  : List Byte
deriving DecidableEq, Repr

/-- A Skipper range (R51, R237). -/
structure Range where
  next  : Word
  state : Word
  owner : BitVec 8
deriving DecidableEq, Repr

/-- A registered save area's SPILLED and control block stand in memory; the registration (R308). -/
structure SaveArea where
  pa : Nat
deriving DecidableEq, Repr

/-- A packet a device has sent and waits on (R321, R400). -/
structure Sent where
  xid   : BitVec 32
  hdr   : PktHdr
  /-- Its RVA, and the address of its context that leads there (R289). -/
  rva   : Word
  va    : Word
  engine : Option Nat
  coll  : Option Nat
deriving DecidableEq, Repr

/-- A fabric port (R319, R399). -/
structure Port where
  up     : Bool
  reason : BitVec 8
  txSeq  : Nat
  rxSeq  : Nat
  /-- Payload bytes of a packet that has not arrived whole. -/
  part   : List Byte
  /-- Packets that wait for room among the 1,024 unacknowledged flits; those flits; and how many of them have gone out since the last
  NAK. -/
  queue  : List (PktHdr × List Byte)
  unacked : List (Nat × List Byte)
  next   : Nat
  /-- The answer that the port owes its link: 2 ACK or 3 NAK, with ACKSEQ. -/
  said   : Option (Nat × Nat)
  nakked : Bool
  /-- Packets sent through it that are not acknowledged whole, each with the number of its last flit. -/
  out    : List (Nat × PktHdr × List Byte)
  /-- TIME of the last 0x93 record (R402). -/
  told   : Option Nat
  /-- DATA flits dropped since the NAK (R319, R399), and the clk of the last flit. -/
  replays : Nat
  rx     : Nat
deriving DecidableEq, Repr

/-- The fabric (R323, R324, R326, R327). -/
structure Fabric where
  ports  : Tab Port
  shadow : Tab Word
  active : Tab Word
  keys   : Tab (BitVec 128)
  subs   : Tab (BitVec 32)
  mkey   : BitVec 16
  self   : BitVec 17
  sent   : List Sent
  nextXid : BitVec 32
  oseqTx : Tab Nat
  oseqRx : Tab Nat
  /-- Early ORDERED packets: ingress port, clk of arrival, header, payload (R325, R401). -/
  hold   : List (Nat × Nat × PktHdr × List Byte)
  /-- Packets that have passed ingress and whose step is to come: port and header. -/
  passed : List (Nat × PktHdr)
deriving DecidableEq, Repr

/-- A management mailbox (R317): the 64 bytes of its command, and its response. -/
structure Mailbox where
  cmd    : List Byte
  state  : BitVec 8
  result : BitVec 8
  tag    : BitVec 16
  data   : List Byte
deriving DecidableEq, Repr

/-- A partition (R302, R318). -/
structure Partition where
  cores    : BitVec 16
  clusters : BitVec 8
  memory   : BitVec 8
  viBase   : Nat
  viCount  : Nat
  /-- Root port, PCIe function and NVMe namespace of its NIC and storage. -/
  rootPort : Nat
  nicFn    : Nat
  nsid     : Nat
deriving DecidableEq, Repr

/-- Minimum voltage of a layer of a region (R331), with the TIME of its last 0xA0 record (R404). -/
structure Volt where
  stamp : Word
  mv    : BitVec 16
  told  : Option Nat
deriving DecidableEq, Repr

/-- A ring the Choxia writes: records that wait for it, those of a core's drain buffer under its unit + 1 (R276, R277, R355), and
the records that the management controller keeps. -/
structure Ring where
  pend : List (Nat × List Byte)
  recs : List (List Byte)
deriving DecidableEq, Repr

/-- A profiling session of a context (R285). -/
structure Session where
  select : Word
  status : Word
  /-- The count of each active event, as of its last drain or record (R285, R286, R314). -/
  counts : Tab Word
deriving DecidableEq, Repr

/-- The management controller, bring-up and power (R315 to R318, R329 to R331). -/
structure Mgmt where
  /-- BSTATUS (R329). -/
  state   : BitVec 3
  reason  : BitVec 8
  firmware : List Byte
  measure : BitVec 512
  map     : List Byte
  parts   : Tab Partition
  boxes   : Tab Mailbox
  vis     : Tab (List Byte)
  /-- Records read into use at enable (R300). -/
  used    : Tab (List Byte)
  grace   : Tab Nat
  saves   : Tab SaveArea
  /-- KPID and KTID of the application cores (R315). -/
  kpid    : Tab (BitVec 32)
  ktid    : Tab (BitVec 32)
  volts   : Tab Volt
  /-- Contexts a debugger has claimed, and the ranges it watches (R226, R359). -/
  claims  : List (BitVec 8 × BitVec 16)
  watches : List (BitVec 8 × BitVec 16 × Word × Word)
  sessions : Tab Session
  rings   : Tab Ring
  errSeq  : BitVec 32
  /-- Reports of a frame's corrected errors (R375): frame and TIME. -/
  ecc     : List (Nat × Nat)
  retire  : List Nat
  /-- Resources (UNIT and place) in which an error has been found in this clk, and rows that await retirement (R354, R357). -/
  found   : List (Nat × Nat)
  rows    : List (Nat × Nat)
deriving DecidableEq, Repr

/-- A launch queue under service (R260): virtual interface × 8 + q, the names that the doorbell's write captured (R315), the TAIL that
Monarch last read, and the names of a doorbell written since. -/
structure Bell where
  key   : Nat
  kpid  : BitVec 32
  ktid  : BitVec 32
  tail  : Nat
  again : Option (BitVec 32 × BitVec 32)
deriving DecidableEq, Repr

/-- Monarch (R259 to R265). -/
structure Monarch where
  launches : Tab Launch
  graphs  : Tab Graph
  nextKey : Nat
  arrivals : Nat
  ids     : Tab Nat
  /-- Launch queues that are closed after a tenant's slice (R313), and queues reported as overfull (R392). -/
  closed  : List Nat
  ovf     : List Nat
  /-- Queues under service (R260), and command rings under service: virtual interface and TAIL (R295). -/
  bells   : List Bell
  cmds    : Tab Nat
  placed  : Nat
deriving DecidableEq, Repr

/-- A Choxia. Log 6 (DESIGN CHOICE). -/
structure State where
  /-- The clk count since device reset (R7). -/
  clk     : Nat
  /-- Main memory by physical address, and the on-die storage above it (R75, R76, R291), by byte. -/
  mem     : List Host.Cell
  /-- Poisoned sectors of main memory and on-die storage (R373), and frames delivered poisoned. -/
  poison  : List Nat
  poisonFrames : List Nat
  groups  : Tab Group
  threads : Tab Thread
  wgs     : Tab Workgroup
  cores   : Tab Core
  clusters : Tab Cluster
  dies    : Tab Die
  stations : Tab Station
  /-- Accesses, requests, fetches, engine operations and faults under way, by number. -/
  accesses : Tab Access
  requests : Tab Request
  fetches : Tab Fetch
  engines : Tab Engine
  faults  : Tab FaultRec
  nextId  : Nat
  nextToken : Nat
  /-- Skipper (R51). -/
  ranges  : Tab Range
  /-- Allocations of scope memory: storage base, bytes, launch key, level, unit (R43, R77). -/
  allocs  : List (Nat × Nat × Nat × Nat × Nat)
  monarch : Monarch
  mgmt    : Mgmt
  fabric  : Fabric
  /-- MODEL: steps that happen before the next sequence issues. -/
  due     : List Instr
  /-- MODEL: steps that wait for a clk; what the outside world does lands here. -/
  agenda  : List (Nat × Instr)
  /-- MODEL: what is left to do about the agents in this clk. -/
  turn    : List Turn
  /-- MODEL: the agent that issues. -/
  cur     : Option Agent
  /-- MODEL: the sequence behind the current one, for the body of a NODE (R205), with its length. -/
  behind  : Option (Instr × Nat)
  /-- MODEL: how many free values the run has drawn. -/
  free    : Nat
deriving DecidableEq, Repr

/-- A split or thread that has just been created at an address. -/
def Strand.start (pc : Word) (clk : Nat) : Strand :=
  { pc := pc, resume := pc, handler := false, park := none, kept := none, wait := none, delay := 0, last := clk, traps := [], stopped := false,
    why := .fetch, adds := 0, queued := false }

/-- A core or control core after reset. -/
def CoreUnit.reset : CoreUnit :=
  { icache := [], iways := [], divider := 0, pipes := [0, 0, 0],
    banks := [(0, { vi := 0, asid := 0, cur := [], base := [] })], pcs := [], ovf := [], issued := false,
    charged := none }

/-- A vector core after reset. -/
def Core.reset : Core :=
  { unit := CoreUnit.reset, l1 := [], l1off := [], mis := 0, draw := 0, drawNext := 0, burned := 0, autobal := 0, shunt := 0,
    throttled := false, power := 0, lastIssue := none, keeping := none, discard := none, fenced := false,
    spares := [], ended := [] }

/-- A feed slot after reset (R169). -/
def Feed.reset : Feed :=
  { fmt := .bf16, ready := false, tog := 0, rows := [], heads := [], wrote := none, mixed := false, poison := false }

/-- A weight handle after reset (R170). -/
def Handle.reset : Handle :=
  { valid := false, fmt := .bf16, tog := 0, failed := false, poison := false, rows := [], heads := [] }

/-- A cluster after reset: STKCFG holds its four defaults (R65). -/
def Cluster.reset : Cluster :=
  { unit := CoreUnit.reset, stkcfg := 0x5000020003000180, shuntloss := 0, granted := 0, mean := 0,
    accowner := 0, acclive := 0, acc := [], accPoison := [], feed := [], handle := [], mq := [], run := [], cellFree := [],
    budget := 20480, queue := [], node := [], turn := false, fenced := false, cellOff := [] }

/-- A die after reset. -/
def Die.reset : Die :=
  { nslot := 0, slots := [], absent := [], l2 := [], l2off := [], held := [], dropped := 0, band := [], bad := [] }

/-- A barrier after reset (R192). -/
def Bar.reset : Bar :=
  { phase := false, expa := 0, penda := 0, expb := 0, pendb := 0, poison := false, opened := false, seq := 0, status := 0,
    pub := [], seen := [] }

/-- A control thread after device reset: no context. Log 2 (DESIGN CHOICE). -/
def Thread.reset : Thread :=
  { strand := Strand.start 0 0, s := [], sup := false, tvec := 0, tcause := 0, tpc := 0, tval := 0, mcfg := 0, st := [],
    port := [], t := [], b := [], seqr := none, pend := [], ctx := none, wg := none, exited := false, halt := false, spill := false, acc := none }

/-- A port after reset: up. -/
def Port.reset : Port :=
  { up := true, reason := 0, txSeq := 0, rxSeq := 0, part := [], queue := [], unacked := [], next := 0,
    said := none, nakked := false, out := [], told := none,
    replays := 0, rx := 0 }

/-- The management controller after device reset: POWERON (R329). -/
def Mgmt.reset : Mgmt :=
  { state := 0, reason := 0, firmware := Config.firmware, measure := 0, map := Config.partitionMap, parts := [], boxes := [],
    vis := [], used := [], grace := [], saves := [], kpid := [], ktid := [], volts := [], claims := [], watches := [],
    sessions := [], rings := [], errSeq := 1, ecc := [], retire := [], found := [], rows := [] }

/-- Monarch after reset: nothing accepted, launch ids from 1. -/
def Monarch.reset : Monarch :=
  { launches := [], graphs := [], nextKey := 1, arrivals := 0, ids := [], closed := [], ovf := [], bells := [], cmds := [],
    placed := 0 }

/-- The fabric after reset. -/
def Fabric.reset : Fabric :=
  { ports := [], shadow := [], active := [], keys := [], subs := [], mkey := 0, self := 0, sent := [], nextXid := 1,
    oseqTx := [], oseqRx := [], hold := [], passed := [] }

/-- The machine right after device reset: nothing is resident, every cache is empty, and bring-up is at POWERON with its
three states to run (R329). Tables without an entry read as the reset value of their unit. Log 101 (DESIGN CHOICE). -/
def State.reset : State :=
  { clk := 0, mem := [], poison := [], poisonFrames := [], groups := [], threads := [], wgs := [], cores := [],
    clusters := [], dies := [], stations := [], accesses := [], requests := [], fetches := [], engines := [], faults := [],
    nextId := 1, nextToken := 1, ranges := [], allocs := [],
    monarch := Monarch.reset, mgmt := Mgmt.reset, fabric := Fabric.reset,
    due := [.verify, .memtrain none, .lanemap ⟨[], []⟩], agenda := [], turn := [], cur := none, behind := none, free := 0 }

end Sys2Proof.Machine
end

