-- ==== Sys2Proof/Machine/Units.lean ====
section
/-!
DEFINITION. The units of the Choxia and how the state is read and changed by unit: groups, splits, control threads, cores,
clusters, dies (spec/01_device.md R6, spec/07_assembly.md R104), the registers each holds, and the model's own scheduling
data.
-/

namespace Sys2Proof.Machine

/-- What the tables answer where no group stands. -/
def Group.blank : Group :=
  { nreg := 16, s := [], v := [], k := [], tvec := 0, tcause := 0, tpc := 0, tval := 0, drawcls := 0, st := [], lp := [],
    gstall := [], port := [], t := [], splits := [], retired := 0, pend := [], wg := 0, idx := 0, from_ := 0 }

/-- What the tables answer where no split stands. -/
def Split.blank : Split :=
  { strand := Strand.start 0 0, ex := 0, fmt := 0, flags := 0, nest := [], draw := 0, drawNext := 0 }

/-- What the tables answer where no workgroup stands. -/
def Workgroup.blank : Workgroup :=
  { launch := 0, num := 0, vi := 0, asid := 0, wide := false, cluster := 0, groups := [], keys := [], stalls := [],
    ctl := none, ctlDone := false,
    b := [], pend := [], resume := 0, buffers := false, live := [], arrived := [], nextPc := 0, nextBuffers := false, totals := [], coll := none,
    preempt := false, grace := none, suspended := none, discard := none, bases := [], batch := none, core := 0,
    stopped := false, placed := 0, dead := false, saveLost := false }

/-- What the tables answer where no launch stands. -/
def Launch.blank : Launch :=
  { id := 0, vi := 0, asid := 0, record := [], prio := 0, cap := 0, arrival := 0, eligible := false, next := 0, wait := [],
    ended := 0, error := 0, dead := false, ending := false, kpid := 0, ktid := 0, graph := none, node := none, batches := [], homes := [],
    held := [] }

/-- A FREE node (R204). -/
def Node.blank : Node :=
  { state := .free, count := 0, succ := [], body := none, thread := 0, vi := 0, asid := 0, wg := none, error := 0 }

/-- The stream of an entry of seven bits {ORD, POLICY, SCOPE} (R110). -/
def Stream.ofBits (w : BitVec 7) : Stream :=
  { ord := w.extractLsb' 5 2, policy := w.extractLsb' 3 2, scope := w.extractLsb' 0 3 }

def State.group (s : State) (g : Nat) : Group := tabGet s.groups g Group.blank
def State.modGroup (s : State) (g : Nat) (f : Group → Group) : State := { s with groups := tabMod s.groups g f }
def State.splitOf (s : State) (g k : Nat) : Split := tabGet (s.group g).splits k Split.blank
def State.modSplit (s : State) (g k : Nat) (f : Split → Split) : State :=
  s.modGroup g (fun x => { x with splits := tabMod x.splits k f })
def State.thread (s : State) (t : Nat) : Thread := tabGet s.threads t Thread.reset
def State.modThread (s : State) (t : Nat) (f : Thread → Thread) : State :=
  { s with threads := tabPut s.threads t (f (s.thread t)) }
/-- The shared part of a unit on which nothing has happened: its slots are charged EMPTY to the device's own context
(R272, R274). -/
def CoreUnit.idle (clk : Nat) : CoreUnit :=
  { CoreUnit.reset with banks := [(0, { vi := 0, asid := 0, cur := [(15, clk)], base := [] })] }
def State.core (s : State) (c : Nat) : Core := tabGet s.cores c { Core.reset with unit := CoreUnit.idle s.clk }
def State.modCore (s : State) (c : Nat) (f : Core → Core) : State := { s with cores := tabPut s.cores c (f (s.core c)) }
def State.cluster (s : State) (c : Nat) : Cluster :=
  tabGet s.clusters c { Cluster.reset with unit := CoreUnit.idle s.clk }
def State.modCluster (s : State) (c : Nat) (f : Cluster → Cluster) : State :=
  { s with clusters := tabPut s.clusters c (f (s.cluster c)) }
def State.die (s : State) (d : Nat) : Die := tabGet s.dies d Die.reset
def State.modDie (s : State) (d : Nat) (f : Die → Die) : State := { s with dies := tabPut s.dies d (f (s.die d)) }
def State.wg (s : State) (w : Nat) : Workgroup := tabGet s.wgs w Workgroup.blank
def State.modWg (s : State) (w : Nat) (f : Workgroup → Workgroup) : State := { s with wgs := tabMod s.wgs w f }
def State.launch (s : State) (l : Nat) : Launch := tabGet s.monarch.launches l Launch.blank
def State.modLaunch (s : State) (l : Nat) (f : Launch → Launch) : State :=
  { s with monarch := { s.monarch with launches := tabMod s.monarch.launches l f } }
def State.station (s : State) (k : Nat) : Station := tabGet s.stations k { tlb := [], ptrs := [], fenced := false }
def State.modStation (s : State) (k : Nat) (f : Station → Station) : State :=
  { s with stations := tabPut s.stations k (f (s.station k)) }
def State.port (s : State) (p : Nat) : Port := tabGet s.fabric.ports p Port.reset
def State.modPort (s : State) (p : Nat) (f : Port → Port) : State :=
  { s with fabric := { s.fabric with ports := tabPut s.fabric.ports p (f (s.port p)) } }

/-- The shared part of vector core `u` below 384, or of control core `u - 384`. -/
def State.unit (s : State) (u : Nat) : CoreUnit := if u < 384 then (s.core u).unit else (s.cluster (u - 384)).unit
def State.modUnit (s : State) (u : Nat) (f : CoreUnit → CoreUnit) : State :=
  if u < 384 then s.modCore u (fun c => { c with unit := f c.unit })
  else s.modCluster (u - 384) (fun c => { c with unit := f c.unit })

/-- TIME in the current clk (R7). -/
def State.time (s : State) : Nat := 5 * s.clk / 6

/-- The unit an agent issues on: vector core 0 to 383, control core 384 + cluster (R278). -/
def Agent.unit : Agent → Nat
  | .split g _ => g / 32
  | .thread t => 384 + t / 2
def Agent.cluster : Agent → Nat
  | .split g _ => g / 128
  | .thread t => t / 2
def Agent.die (a : Agent) : Nat := a.cluster / 24
def Agent.isThread : Agent → Bool
  | .split _ _ => false
  | .thread _ => true

/-- No agent of a program: what the device itself writes. -/
def Agent.device : Agent := .thread 192

/-- The workgroup of an agent: a group's, or that of the control program a thread runs (R184). -/
def State.wgOf (s : State) : Agent → Option Nat
  | .split g _ => some (s.group g).wg
  | .thread t => (s.thread t).wg

/-- The context of an agent: virtual interface and guest ASID (R274, R275). -/
def State.ctxOf (s : State) : Agent → BitVec 8 × BitVec 16
  | .split g _ => ((s.wg (s.group g).wg).vi, (s.wg (s.group g).wg).asid)
  | .thread t => (s.thread t).ctx.getD (0, 0)

def State.strand (s : State) : Agent → Strand
  | .split g k => (s.splitOf g k).strand
  | .thread t => (s.thread t).strand
def State.modStrand (s : State) (a : Agent) (f : Strand → Strand) : State :=
  match a with
  | .split g k => s.modSplit g k (fun x => { x with strand := f x.strand })
  | .thread t => s.modThread t (fun x => { x with strand := f x.strand })

/-- Whether the agent exists: a split of a resident group, or a thread that holds a context. -/
def State.alive (s : State) : Agent → Bool
  | .split g k => (tabFind (s.group g).splits k).isSome
  | .thread t => (s.thread t).ctx.isSome
/-- The agent that takes a trap of an access: its own, or, where that split has merged, the group's first. -/
def State.heir (s : State) (a : Agent) : Agent :=
  match a with
  | .split g _ => if s.alive a then a else match (s.group g).splits with
    | (k, _) :: _ => .split g k
    | [] => a
  | .thread _ => a

/-- The context engine has stopped the thread (R309, R313). -/
def State.halted (s : State) : Agent → Bool
  | .split _ _ => false
  | .thread t => (s.thread t).halt

/-- EXEC of a split; a control thread has none (R3). Log 12 (DESIGN CHOICE). -/
def State.exMask (s : State) : Agent → Mask
  | .split g k => (s.splitOf g k).ex
  | .thread _ => 0

/-- A scalar register as it stands: s0 reads 0, s60 to s62 of a group are EXEC (R35, R105). -/
def State.sget (s : State) (a : Agent) (r : Nat) : Word :=
  if r = 0 then 0
  else match a with
    | .split g k =>
      if 60 ≤ r ∧ r ≤ 62 then ((s.splitOf g k).ex.extractLsb' (32 * (r - 60)) 32).setWidth 64
      else tabGet (s.group g).s r 0
    | .thread t => tabGet (s.thread t).s r 0

/-- EXEC with one of its three parts replaced. -/
def maskPart (m : Mask) (i : Nat) (w : Lane) : Mask :=
  (m &&& ~~~((0xFFFFFFFF : Mask) <<< (32 * i))) ||| ((w.setWidth 96 : Mask) <<< (32 * i))

/-- A scalar register written: s0 discards, s60 to s62 of a group keep bits [31:0] and the retired lanes stay out
(R35, R46, R105). -/
def State.sput (s : State) (a : Agent) (r : Nat) (v : Word) : State :=
  if r = 0 then s
  else match a with
    | .split g k =>
      if 60 ≤ r ∧ r ≤ 62 then
        s.modGroup g (fun x => { x with
          splits := tabMod x.splits k (fun y => { y with ex := maskPart y.ex (r - 60) (v.setWidth 32) &&& ~~~x.retired }) })
      else s.modGroup g (fun x => { x with s := tabPut x.s r v })
    | .thread t => s.modThread t (fun x => { x with s := tabPut x.s r v })

/-- Ninety-six lanes from a function. -/
def lanes (f : Nat → Lane) : List Lane := (List.range 96).map f
/-- One lane of a register. -/
def lane (v : List Lane) (i : Nat) : Lane := v.getD i 0
/-- A mask from a predicate on lanes. -/
def maskOf (f : Nat → Bool) : Mask := (List.range 96).foldl (fun m i => if f i then m ||| (1 : Mask) <<< i else m) 0
/-- The number of lanes of a mask. -/
def popc {w : Nat} (m : BitVec w) : Nat := (List.range w).foldl (fun n i => if m.getLsbD i then n + 1 else n) 0
def allOnes96 : Mask := BitVec.allOnes 96

def State.vget (s : State) (g r : Nat) : List Lane := tabGet (s.group g).v r (List.replicate 96 0)
def State.vput (s : State) (g r : Nat) (v : List Lane) : State := s.modGroup g (fun x => { x with v := tabPut x.v r v })
/-- A mask register; k0 reads as all ones (R106). -/
def State.kget (s : State) (g r : Nat) : Mask := if r = 0 then allOnes96 else tabGet (s.group g).k r 0
/-- k0 ignores writes (R106). -/
def State.kput (s : State) (g r : Nat) (m : Mask) : State :=
  if r = 0 then s else s.modGroup g (fun x => { x with k := tabPut x.k r m })

/-- The launch record of a workgroup (R44). -/
def State.record (s : State) (w : Nat) : List Byte := (s.launch (s.wg w).launch).record

/-- A little-endian field of a record. -/
def field (bs : List Byte) (off n : Nat) : Nat :=
  ((bs.drop off).take n).foldr (fun b acc => b.toNat + 256 * acc) 0
/-- A number as bytes, lowest first. -/
def toBytes (v n : Nat) : List Byte := (List.range n).map (fun i => BitVec.ofNat 8 (v / 256 ^ i))
/-- Bytes, lowest first, as a number. -/
def ofBytes (bs : List Byte) : Nat := field bs 0 bs.length
/-- A bit range [hi:lo] of a number. -/
def bits (v lo n : Nat) : Nat := v / 2 ^ lo % 2 ^ n
/-- A list with a run of bytes replaced from an offset on. -/
def patch (bs : List Byte) (off : Nat) (new : List Byte) : List Byte :=
  bs.take off ++ new ++ bs.drop (off + new.length)

/-- The streams of an agent. -/
def State.stget (s : State) (a : Agent) (n : Nat) : BitVec 7 :=
  match a with
  | .split g _ => tabGet (s.group g).st n 0
  | .thread t => tabGet (s.thread t).st n 0
/-- A stream entry written; a reserved SCOPE leaves SCOPE as it was (R110). -/
def State.stput (s : State) (a : Agent) (n : Nat) (w : BitVec 7) : State :=
  let old := s.stget a n
  let w := if w.extractLsb' 0 3 < 5#3 then w else (w.extractLsb' 3 4 ++ old.extractLsb' 0 3 : BitVec 7)
  match a with
  | .split g _ => s.modGroup g (fun x => { x with st := tabPut x.st n w })
  | .thread t => s.modThread t (fun x => { x with st := tabPut x.st n w })
/-- STn as an access captures it (R107). -/
def State.stream (s : State) (a : Agent) (n : Nat) : Stream := Stream.ofBits (s.stget a n)

/-- The four trap registers of an agent: TVEC, TCAUSE, TPC, TVAL (R107, R108). -/
def State.tvec (s : State) : Agent → Word
  | .split g _ => (s.group g).tvec
  | .thread t => (s.thread t).tvec
def State.tpc (s : State) : Agent → Word
  | .split g _ => (s.group g).tpc
  | .thread t => (s.thread t).tpc
def State.setTrap (s : State) (a : Agent) (cause pc val : Word) : State :=
  match a with
  | .split g _ => s.modGroup g (fun x => { x with tcause := cause, tpc := pc, tval := val })
  | .thread t => s.modThread t (fun x => { x with tcause := cause, tpc := pc, tval := val })

/-- The tile descriptors as an agent sees them (R104, R198). -/
def State.tview (s : State) : Agent → Tab (Nat × Word)
  | .split g _ => (s.group g).t
  | .thread t => (s.thread t).t
def State.setTview (s : State) (a : Agent) (v : Tab (Nat × Word)) : State :=
  match a with
  | .split g _ => s.modGroup g (fun x => { x with t := v })
  | .thread t => s.modThread t (fun x => { x with t := v })
/-- Five words of a view. -/
def tWords (v : Tab (Nat × Word)) (n : Nat) : List Word := (List.range 5).map (fun w => (tabGet v (5 * n + w) (0, 0)).2)
def State.tget (s : State) (a : Agent) (n : Nat) : List Word := tWords (s.tview a) n
/-- A word of a descriptor written: its group or thread sees it, the others of the workgroup do not yet (R198). -/
def State.tput (s : State) (a : Agent) (n w : Nat) (v : Word) : State :=
  let s := s.setTview a (tabPut (s.tview a) (5 * n + w) (s.nextId, v))
  { s with nextId := s.nextId + 1 }
/-- Two views as one: of two writes of a word, the later. -/
def mergeViews (x y : Tab (Nat × Word)) : Tab (Nat × Word) :=
  y.foldl (fun x p => if (tabGet x p.1 (0, 0)).1 < p.2.1 then tabPut x p.1 p.2 else x) x
/-- A barrier is named by its owner: a workgroup, or a control thread that runs no control program. -/
def State.bget (s : State) (w : Option Nat) (t n : Nat) : Bar :=
  match w with
  | some w => tabGet (s.wg w).b n Bar.reset
  | none => tabGet (s.thread t).b n Bar.reset
def State.bput (s : State) (w : Option Nat) (t n : Nat) (b : Bar) : State :=
  match w with
  | some w => s.modWg w (fun x => { x with b := tabPut x.b n b })
  | none => s.modThread t (fun x => { x with b := tabPut x.b n b })
def Agent.threadNo : Agent → Nat
  | .thread t => t
  | .split _ _ => 0

/-- A free value of the run: how long a step takes beyond what the spec states (R7, R412). -/
def State.delay (s : State) : Nat := Config.delay s.free
/-- The next free value of the run. Log 5 (DESIGN CHOICE). -/
def State.spend (s : State) : State := { s with free := s.free + 1 }
/-- A step that happens before the next sequence issues. -/
def State.soon (s : State) (i : Instr) : State := { s with due := s.due ++ [i] }
/-- A step that happens before every other that is due. -/
def State.first (s : State) (i : Instr) : State := { s with due := i :: s.due }
/-- A step that happens a stated number of clks from now. -/
def State.inClk (s : State) (n : Nat) (i : Instr) : State := { s with agenda := s.agenda ++ [(s.clk + n, i)] }
/-- A step that happens at least `n` clks from now, at a clk that no rule fixes. -/
def State.later (s : State) (n : Nat) (i : Instr) : State := (s.inClk (n + s.delay) i).spend

/-- The context engine or another agent has the record of a virtual interface in use (R300). -/
def State.viRec (s : State) (vi : BitVec 8) : List Byte := tabGet s.mgmt.used vi.toNat []
/-- A field of that record. -/
def State.viField (s : State) (vi : BitVec 8) (off n : Nat) : Nat := field (s.viRec vi) off n
/-- CTL of a virtual interface: EN, MODE, SHW, HYP, partition, OWNER, VMID (R300). -/
def State.viBit (s : State) (vi : BitVec 8) (b : Nat) : Bool := (s.viField vi 0 8).testBit b
def State.viPart (s : State) (vi : BitVec 8) : Nat := bits (s.viField vi 0 8) 4 3
def State.viOwner (s : State) (vi : BitVec 8) : Nat := bits (s.viField vi 0 8) 16 16
def State.viVmid (s : State) (vi : BitVec 8) : Nat := bits (s.viField vi 0 8) 32 12
/-- The device ASID of a guest ASID: ASIDBASE + g (R287). -/
def State.devAsid (s : State) (vi : BitVec 8) (g : BitVec 16) : Nat := (s.viField vi 0x18 2 + g.toNat) % 65536
/-- The virtual cluster that a physical cluster is to a virtual interface: its CLMAP index (R109, R300). -/
def State.viCluster (s : State) (vi : BitVec 8) (c : Nat) : Nat :=
  ((List.range (s.viField vi 0x98 1)).find? (fun v => s.viField vi (0x100 + v) 1 % 128 == c)).getD c
/-- The clusters a virtual interface may use (R300). -/
def State.viClusters (s : State) (vi : BitVec 8) : List Nat :=
  (List.range (s.viField vi 0x98 1)).map (fun v => s.viField vi (0x100 + v) 1 % 128)

end Sys2Proof.Machine
end

