-- ==== Sys2Proof/Machine/Store.lean ====
section
/-!
DEFINITION. Bytes of main memory and of the on-die storage (spec/05_memory.md R75 to R80, spec/20_vm.md R291): one list of
cells in canonical form (keys rising, no cell that holds 0, the value of an unlisted byte: log 1), the local windows, and
the poison that a sector carries (spec/30_errors_memory.md R373).
-/

namespace Sys2Proof.Machine

/-- The canonical form of memory: addresses strictly rising, no cell that holds what an unlisted byte reads as. -/
def Memory.wf (m : List Host.Cell) : Bool :=
  match m with
  | [] => true
  | [c] => c.2 != 0
  | c :: d :: r => c.2 != 0 && decide (c.1 < d.1) && Memory.wf (d :: r)

/-- What a byte that nothing has written reads as (log 1). Log 1 (DESIGN CHOICE). -/
def Memory.unlisted : Byte := 0
/-- One byte. -/
def memGet (m : List Host.Cell) (a : Nat) : Byte := tabGet m a Memory.unlisted
/-- One byte written; the canonical form stays. -/
def memSet (m : List Host.Cell) (a : Nat) (b : Byte) : List Host.Cell :=
  if b = Memory.unlisted then tabDel m a else tabPut m a b
/-- A run of bytes. -/
def memRead (m : List Host.Cell) (a n : Nat) : List Byte := (List.range n).map (fun i => memGet m (a + i))
/-- A run of bytes written, lowest address first. -/
def memWrite (m : List Host.Cell) (a : Nat) (bs : List Byte) : List Host.Cell :=
  match bs with
  | [] => m
  | b :: r => memWrite (memSet m a b) (a + 1) r
/-- A run of bytes set to 0. -/
def memZero (m : List Host.Cell) (a n : Nat) : List Host.Cell := m.filter (fun c => !(a ≤ c.1 && c.1 < a + n))

/-- Storage of core scratchpad `c`, byte `o` (above the 46-bit physical addresses). -/
def scratchAt (c o : Nat) : Nat := 0x400000000000 + c * 0x40000 + o
/-- The 256 KiB slice of cluster-shared memory in core `c`. -/
def sliceAt (c o : Nat) : Nat := 0x400008000000 + c * 0x40000 + o
/-- The chip scratchpad of die `d`. -/
def chipAt (d o : Nat) : Nat := 0x400010000000 + d * 0x4000000 + o
/-- Storage of a group slot's lane-private slices, 96 of at most 1,024 bytes, in its core's scratchpad (R76).
Log 53 (DEDUCED). -/
def laneAt (g : Nat) : Nat := 0x400030000000 + g * 0x18000

/-- Whether a sector is poisoned, or its frame is delivered poisoned (R373). -/
def State.isPoison (s : State) (a : Nat) : Bool :=
  s.poison.contains (a / 16) || s.poisonFrames.contains (a / 0x10000)
/-- The controller or array enters a sector in its table of 1,024; when the controller's is full, the frame is delivered
poisoned from then on (R373). -/
def State.addPoison (s : State) (a : Nat) : State :=
  if s.poison.contains (a / 16) then s
  else if a < 0x400000000000 && 1024 ≤ (s.poison.filter (fun p => p / 0x20000000 == a / 0x200000000)).length then
    { s with poisonFrames := a / 0x10000 :: s.poisonFrames }
  else { s with poison := a / 16 :: s.poison }
def State.clearPoison (s : State) (a : Nat) : State := { s with poison := s.poison.filter (fun p => p != a / 16) }

/-- Bytes written to memory or storage: a sector that is covered whole loses its poison, a sector written in part keeps it
(R373). -/
def State.putBytes (s : State) (a : Nat) (bs : List Byte) : State :=
  let n := bs.length
  let full := s.poison.filter (fun p => !(a ≤ 16 * p && 16 * p + 16 ≤ a + n))
  { s with mem := memWrite s.mem a bs, poison := full }
def State.getBytes (s : State) (a n : Nat) : List Byte := memRead s.mem a n
/-- A little-endian number in memory or storage. -/
def State.getNum (s : State) (a n : Nat) : Nat := ofBytes (s.getBytes a n)
def State.putNum (s : State) (a n v : Nat) : State := s.putBytes a (toBytes v n)
/-- The poisoned sectors among `n` bytes, as addresses. -/
def State.poisonIn (s : State) (a n : Nat) : List Nat :=
  ((List.range ((a % 16 + n + 15) / 16)).map (fun i => (a / 16 + i) * 16)).filter (fun p => s.isPoison p)

/-- Where an address leads (R75, R76). -/
inductive Region where
  | global | lane | scratch | shared | chipOwn | chip (d : Nat) | none
deriving DecidableEq, Repr

/-- The region that holds an access of `n` bytes wholly, with the offset in its window (R75). -/
def regionOf (va n : Nat) : Region × Nat :=
  let last := va + n - 1
  if last < 0xFFF0000000000 then (.global, va)
  else if 0xFFF0000000000 ≤ va && last ≤ 0xFFF00000003FF then (.lane, va - 0xFFF0000000000)
  else if 0xFFF1000000000 ≤ va && last ≤ 0xFFF100003FFFF then (.scratch, va - 0xFFF1000000000)
  else if 0xFFF2000000000 ≤ va && last ≤ 0xFFF20000FFFFF then (.shared, va - 0xFFF2000000000)
  else if 0xFFF3000000000 ≤ va && last ≤ 0xFFF3003FFFFFF then (.chipOwn, va - 0xFFF3000000000)
  else
    let d := (va - 0xFFF4000000000) / 0x100000000
    let o := (va - 0xFFF4000000000) % 0x100000000
    if 0xFFF4000000000 ≤ va && d < 4 && o + n ≤ 0x4000000 then (.chip d, o) else (.none, 0)

end Sys2Proof.Machine
end

