-- ==== Sys2Proof/Machine/Records.lean ====
section
/-!
DEFINITION. The records that the Choxia writes: joined names (spec/19_accounting.md R282), error records
(spec/28_errors_model.md R355, R356), trace records (R284), counting records (R278), and the queue of records that waits for
each ring (R277). A record made in a clk enters its ring at the end of that clk.
-/

namespace Sys2Proof.Machine

/-- EXTENT, SIZE, SCOPE and DOMAIN of level n of a launch record (R44). -/
def recExtent (r : List Byte) (n : Nat) : Nat := field r (0x40 + 16 * n) 4
def recSize (r : List Byte) (n : Nat) : Nat := field r (0x44 + 16 * n) 4
def recScope (r : List Byte) (n : Nat) : Nat := bits (field r (0x48 + 16 * n) 8) 2 2
def recDomain (r : List Byte) (n : Nat) : Nat := bits (field r (0x48 + 16 * n) 8) 0 2
/-- SHAPE (R44). -/
def recShape (r : List Byte) : Nat := field r 0x10 8
/-- NREG, DRAW, PRIO, AUTOBAL, COMM and COMMEN of the shape word. -/
def recNreg (r : List Byte) : Nat := 16 * (bits (recShape r) 0 2 + 1)
def recDraw (r : List Byte) : Nat := bits (recShape r) 2 2
def recPrio (r : List Byte) : Nat := bits (recShape r) 4 3
def recAutobal (r : List Byte) : Bool := (recShape r).testBit 7
def recComm (r : List Byte) : Option Nat := if (recShape r).testBit 15 then some (bits (recShape r) 8 7) else none

/-- A joined name from its parts, with the numbers of R6 (R282). -/
def State.nameOf (s : State) (vi : BitVec 8) (asid : BitVec 16) (l : Launch) (place flat : Nat) : List Byte :=
  toBytes (s.viPart vi + 0x100 * vi.toNat + 0x10000 * asid.toNat) 8 ++ toBytes l.kpid.toNat 4 ++ toBytes l.ktid.toNat 4 ++
    toBytes l.id.toNat 4 ++ toBytes place 4 ++ toBytes flat 4 ++ toBytes 0 4
/-- Die, cluster, layer, slot, thread bit and split of an agent as a joined name holds them. -/
def Agent.place : Agent → Nat
  | .split g k => g / 128 / 24 + 4 * (g / 128) + 0x200 * (g / 32 % 4) + 0x800 * (g % 32) + 0x20000 * k
  | .thread t => t / 2 / 24 + 4 * (t / 2) + 0x800 * (t % 2) + 0x10000
/-- The joined name of an agent (R282). -/
def State.joined (s : State) (a : Agent) : List Byte :=
  let wg := s.wg ((s.wgOf a).getD 0)
  let l := s.launch wg.launch
  let idx := match a with
    | .split g _ => (s.group g).idx
    | .thread _ => 0
  s.nameOf (s.ctxOf a).1 (s.ctxOf a).2 l a.place (idx + recExtent l.record 0 * wg.num)
/-- The joined name of a workgroup: its core and its first group. -/
def State.joinedWg (s : State) (w : Nat) : List Byte :=
  let wg := s.wg w
  let l := s.launch wg.launch
  s.nameOf wg.vi wg.asid l (Agent.split (32 * wg.core) 0).place (recExtent l.record 0 * wg.num)
/-- A name for a record that concerns no agent. -/
def noName : List Byte := List.replicate 32 0

/-- The name with die and cluster as a virtual interface sees them (R109, R282). -/
def State.guestName (s : State) (vi : BitVec 8) (n : List Byte) : List Byte :=
  let p := field n 0x14 4
  let c := s.viCluster vi (bits p 2 7)
  if n = noName then n else patch n 0x14 (toBytes (p / 0x200 * 0x200 + 4 * c + c / 24) 4)

/-- UNIT: kind and instance (R355). -/
def unitWord (kind inst : Nat) : Nat := 2048 * kind + inst
/-- UNIT as the guest sees it. -/
def State.guestUnit (s : State) (vi : BitVec 8) (u : Nat) : Nat :=
  let k := u / 2048
  let i := u % 2048
  if k = 0 then 4 * s.viCluster vi (i / 4) + i % 4
  else if k = 1 || k = 3 then 2048 * k + s.viCluster vi i
  else if k = 2 then 2048 * k + 16 * s.viCluster vi (i / 16) + i % 16
  else u
/-- The die on whose account a record waits (R355). -/
def unitDie (u : Nat) : Nat :=
  let k := u / 2048
  let i := u % 2048
  if k = 0 then i / 96 else if k = 1 || k = 3 then i / 24 else if k = 2 then i / 384
  else if k = 6 || k = 7 then i / 12 else if k = 4 || k = 5 || k = 8 || k = 10 then i else 0

/-- Keys of the rings: the management controller's, a context's, the hypervisor's copy, a fault ring. -/
def ringMgmt : Nat := 0
def ringCtx (vi : BitVec 8) (asid : BitVec 16) : Nat := 1 + 65536 * vi.toNat + asid.toNat
def ringHyp (vi : BitVec 8) : Nat := 0x2000000 + vi.toNat
def ringFault (vi : BitVec 8) : Nat := 0x3000000 + vi.toNat

/-- A record that waits for its ring; `from_`: the unit + 1 in whose drain buffer it waits, else 0 (R276). -/
def State.enqueueFrom (s : State) (from_ ring : Nat) (r : List Byte) : State :=
  let old := tabGet s.mgmt.rings ring { pend := [], recs := [] }
  { s with mgmt := { s.mgmt with rings := tabPut s.mgmt.rings ring { old with pend := old.pend ++ [(from_, r)] } } }
def State.enqueue (s : State) (ring : Nat) (r : List Byte) : State := s.enqueueFrom 0 ring r
/-- The records that wait for a ring. -/
def State.ringPend (s : State) (ring : Nat) : List (Nat × List Byte) := (tabGet s.mgmt.rings ring { pend := [], recs := [] }).pend
/-- The drain buffer of a unit still holds a copy that has not been written (R276). -/
def State.draining (s : State) (u : Nat) : Bool := s.mgmt.rings.any (fun r => r.2.pend.any (fun p => p.1 == u + 1))

/-- Error records of a die that wait (R355). -/
def State.heldRecords (s : State) (die : Nat) : Nat :=
  (s.mgmt.rings.map (fun p =>
    (p.2.pend.filter (fun r => field r.2 0 1 == 7 && unitDie (field r.2 2 2) == die)).length)).foldl Nat.max 0

/-- The word of a completion object or barrier status that names a record (R356). -/
def recordWord (seq : BitVec 32) (code cls : Nat) : Word := BitVec.ofNat 64 (seq.toNat + 2 ^ 32 * code + 2 ^ 40 * cls)
/-- The word that names the next record. -/
def State.nextRecord (s : State) (code cls : Nat) : Word := recordWord s.mgmt.errSeq code cls

/-- An error record (R355): class, severity, UNIT, context (virtual interface and guest ASID), ADDR with ADDRK, RETRY, CODE
and name. One of severity DEVICE takes the Choxia back to bring-up; a failure of bring-up itself holds it there (R357, R405). It goes to the management controller's ring and, for a context, to the context's and the hypervisor's. -/
def State.report (s : State) (cls sev unit : Nat) (ctx : BitVec 8 × BitVec 16) (addr retry addrk code : Nat)
    (name : List Byte) : State :=
  let die := unitDie unit
  if 256 ≤ s.heldRecords die then s.modDie die (fun d => { d with dropped := Nat.min 0xFFFF (d.dropped + 1) })
  else
    let seq := s.mgmt.errSeq
    let dev := if ctx = (0, 0) then 0 else 0x10000 * ctx.1.toNat + s.devAsid ctx.1 ctx.2
    let mk := fun (u : Nat) (n : List Byte) =>
      [7#8] ++ toBytes (cls + 16 * sev) 1 ++ toBytes u 2 ++ toBytes dev 4 ++ toBytes s.time 8 ++ toBytes addr 8 ++
        toBytes (retry + 4 * addrk) 1 ++ toBytes code 1 ++ toBytes (s.die die).dropped 2 ++ toBytes seq.toNat 4 ++ n
    let s := { s with mgmt := { s.mgmt with errSeq := if seq + 1 = 0 then 1 else seq + 1 } }
    let s := s.modDie die (fun d => { d with dropped := 0 })
    let s := s.enqueue ringMgmt (mk unit name)
    let s := if ctx = (0, 0) then s
      else (s.enqueue (ringCtx ctx.1 ctx.2) (mk (s.guestUnit ctx.1 unit) (s.guestName ctx.1 name))).enqueue (ringHyp ctx.1)
        (mk unit name)
    if sev = 3 && cls != 10 then s.soon .deviceReset else s
/-- An error found in a resource; `rec_` writes its record. Two in one clk form one error and one record (R354).
Log 136 (DEDUCED). -/
def State.findError (s : State) (r : Nat × Nat) (rec_ : State → State) : State :=
  if s.mgmt.found.contains r then s
  else let t := rec_ s
    { t with mgmt := { t.mgmt with found := r :: t.mgmt.found } }
/-- A row that awaits retirement (R354, R357). -/
def State.awaitRow (s : State) (r : Nat × Nat) : State :=
  { s with mgmt := { s.mgmt with rows := if s.mgmt.rows.contains r then s.mgmt.rows else r :: s.mgmt.rows } }

/-- Whether the hypervisor keeps an event from a guest with an open session (R285). -/
def State.eventOff (s : State) (vi : BitVec 8) (asid : BitVec 16) (n : Nat) : Bool :=
  match tabFind s.mgmt.sessions (ringCtx vi asid) with
  | none => false
  | some x => x.select.getLsbD n && !(s.viField vi 0x30 8).testBit n

/-- An active event of an open session has come about `k` times more (R285, R286, R314): selected, and allowed. -/
def State.countEvent (s : State) (vi : BitVec 8) (asid : BitVec 16) (n k : Nat) : State :=
  let key := ringCtx vi asid
  match tabFind s.mgmt.sessions key with
  | none => s
  | some x =>
    if x.select.getLsbD n && (s.viField vi 0x30 8).testBit n then
      let x := { x with counts := tabPut x.counts n (tabGet x.counts n 0 + BitVec.ofNat 64 k) }
      { s with mgmt := { s.mgmt with sessions := tabPut s.mgmt.sessions key x } }
    else s

/-- The number of a trace event as R285 counts it: 0 is 18; 1 and 2 are 19; 3 and 4 are 20. -/
def traceClass (e : Nat) : Nat := if e = 0 then 18 else if e ≤ 2 then 19 else 20

/-- A trace record of an event (R284), to the ring of the context that it names. -/
def State.traceEvent (s : State) (vi : BitVec 8) (asid : BitVec 16) (name : List Byte) (event value : Nat) (pc : Word) :
    State :=
  if s.eventOff vi asid (traceClass event) then s
  else (s.countEvent vi asid (traceClass event) 1).enqueue (ringCtx vi asid) ([6#8] ++ toBytes event 1 ++ toBytes 0 2 ++ toBytes value 4 ++ toBytes s.time 8 ++
    toBytes pc.toNat 8 ++ toBytes 0 8 ++ s.guestName vi name)
/-- A trace event of an agent. -/
def State.traceOf (s : State) (a : Agent) (event value : Nat) (pc : Word) : State :=
  s.traceEvent (s.ctxOf a).1 (s.ctxOf a).2 (s.joined a) event value pc
/-- A trace event of a workgroup. -/
def State.traceWg (s : State) (w : Nat) (event : Nat) (pc : Word) : State :=
  s.traceEvent (s.wg w).vi (s.wg w).asid (s.joinedWg w) event 0 pc

end Sys2Proof.Machine
end

