-- ==== Sys2Proof/Machine/Translate.lean ====
section
/-!
DEFINITION. Translation (spec/20_vm.md R287 to R299): the two-stage walk, the stations' buffers, the frame ownership table,
and faults with their tokens and records.
-/

namespace Sys2Proof.Machine

/-- What an entry of a page table is at its level (R288, R289). -/
inductive Entry where
  | invalid
  | pointer (pa : Nat)
  | leaf (pa size : Nat) (w x : Bool) (kind : Nat) (ochk : Bool) (remote : Option (Nat × Nat))
  /-- A malformed entry (R377). -/
  | bad
deriving DecidableEq, Repr

/-- Index of an address at a level (R288). -/
def pteIndex (va lvl : Nat) : Nat :=
  if lvl = 0 then bits va 39 13 else if lvl = 1 then bits va 30 9 else if lvl = 2 then bits va 21 9 else bits va 16 5

/-- log2 of the bytes a leaf of a SIZE code maps (R288). -/
def sizeLog (code : Nat) : Nat := if code = 3 then 30 else if code = 2 then 21 else 16

/-- An 8-byte entry read as its stage and level allow (R289). -/
def readEntry (stage lvl e : Nat) : Entry :=
  let size := bits e 1 2
  let adr := bits e 10 38 * 256
  if !e.testBit 0 then .invalid
  else if size = 0 then
    if lvl = 3 || bits e 3 7 != 0 || bits e 48 16 != 0 then .bad else .pointer adr
  else if lvl = 0 || size != 4 - lvl || bits e 5 2 = 3 then .bad
  else if e.testBit 7 then
    if stage = 2 then .bad
    else .leaf 0 size (e.testBit 3) (e.testBit 4) (bits e 5 2) false (some (bits e 47 17, bits e 11 36 * 65536))
  else .leaf (adr / 2 ^ sizeLog size * 2 ^ sizeLog size) size (e.testBit 3) (e.testBit 4) (bits e 5 2)
    (stage = 2 && e.testBit 8) none

/-- The answer of a walk of one stage. -/
inductive Stage where
  | ok (pa size : Nat) (w x : Bool) (kind : Nat) (ochk : Bool) (remote : Option (Nat × Nat))
  | fault (stage ipa : Nat)
  | bad
deriving DecidableEq, Repr

/-- Bits of an address below the part that one entry of a level covers (R288). -/
def lvlShift (lvl : Nat) : Nat := if lvl = 0 then 39 else if lvl = 1 then 30 else if lvl = 2 then 21 else 16
/-- Whether a kept pointer entry is the one of a level for an address. -/
def Ptr.covers (p : Ptr) (stage vmid asid lvl a : Nat) : Bool :=
  p.stage == stage && p.vmid == vmid && p.asid == asid && p.lvl == lvl && p.page == a / 2 ^ lvlShift lvl
/-- The table that a pointer entry kept in station `k` names (R294). -/
def State.ptr (s : State) (k stage vmid asid lvl a : Nat) : Option Nat :=
  ((s.station k).ptrs.find? (fun p => p.covers stage vmid asid lvl a)).map (·.table)

/-- Levels of stage 2 from a table on, at station `k`: entries are read from memory, but for pointers that the station keeps
(R294). -/
def State.walk2 (s : State) (k vmid ipa : Nat) (levels : List Nat) (table : Nat) : Stage :=
  match levels with
  | [] => .bad
  | l :: r =>
    match s.ptr k 2 vmid 0 l ipa with
    | some t => s.walk2 k vmid ipa r t
    | none =>
      match readEntry 2 l (s.getNum (table + 8 * pteIndex ipa l) 8) with
      | .invalid => .fault 2 ipa
      | .bad => .bad
      | .pointer t => s.walk2 k vmid ipa r t
      | .leaf pa sz w x k o _ => .ok (pa + ipa % 2 ^ sizeLog sz) sz w x k o none

/-- Stage 2 of a virtual interface; a root of 0 is the identity (R290). Station 48 stands for a unit that keeps no pointers. -/
def State.stage2 (s : State) (k : Nat) (vi : BitVec 8) (ipa : Nat) : Stage :=
  if s.viField vi 8 8 = 0 then .ok ipa 3 true true 0 true none
  else s.walk2 k (s.viVmid vi) ipa [0, 1, 2, 3] (s.viField vi 8 8)

/-- Stage 2 as a walk uses it: the shared range stands under VMID 0, whose second stage is the identity without owner
check (log 8). -/
def State.ipaToPa (s : State) (k : Nat) (vi : BitVec 8) (shared : Bool) (ipa : Nat) : Stage :=
  if shared then .ok ipa 3 true true 0 false none else s.stage2 k vi ipa

/-- The shared range (R287). -/
def isShared (va : Nat) : Bool := 0xF000000000000 ≤ va && va < 0xFFF0000000000
/-- The device ASID that tags an address of a context (R287). -/
def State.tagAsid (s : State) (vi : BitVec 8) (asid : BitVec 16) (va : Nat) : Nat :=
  if isShared va then 0 else s.devAsid vi asid
/-- VMID of an address: 0 in the shared range (R287). -/
def State.vmidOf (s : State) (vi : BitVec 8) (va : Nat) : Nat := if isShared va then 0 else s.viVmid vi

/-- Levels of stage 1, at station `k` for device ASID `dev`: the tables' addresses are IPAs, translated through stage 2 (R288,
R294). -/
def State.walk1 (s : State) (k : Nat) (vi : BitVec 8) (dev va : Nat) (levels : List Nat) (table : Nat) : Stage :=
  match levels with
  | [] => .bad
  | l :: r =>
    match s.ptr k 1 (s.vmidOf vi va) dev l va with
    | some t => s.walk1 k vi dev va r t
    | none =>
      match s.ipaToPa k vi (isShared va) (table + 8 * pteIndex va l) with
      | .fault st i => .fault st i
      | .bad => .bad
      | .ok pa _ _ _ _ _ _ =>
        match readEntry 1 l (s.getNum pa 8) with
        | .invalid => .fault 1 0
        | .bad => .bad
        | .pointer t => s.walk1 k vi dev va r t
        | .leaf a sz w x k _ rem => .ok (a + va % 2 ^ sizeLog sz) sz w x k false rem

/-- The stage-1 root word of a context: entry g of ASIDTAB, an IPA (R300). -/
def State.rootWord (s : State) (k : Nat) (vi : BitVec 8) (asid : BitVec 16) : Stage × Nat :=
  match s.stage2 k vi (s.viField vi 0x10 8 + 16 * asid.toNat) with
  | .ok pa sz w x k o r => (.ok pa sz w x k o r, s.getNum pa 8)
  | f => (f, 0)
/-- POPT of a context (R374). -/
def State.popt (s : State) (vi : BitVec 8) (asid : BitVec 16) : Bool := (s.rootWord 48 vi asid).2.testBit 0
/-- The root word for an address: the shared range has one of its own (log 8). -/
def State.rootFor (s : State) (k : Nat) (vi : BitVec 8) (asid : BitVec 16) (va : Nat) : Stage × Nat :=
  if isShared va then (.ok 0 3 true true 0 false none, Config.sharedRoot) else s.rootWord k vi asid

/-- The stronger of two kinds: SO over RC over UO (R290). -/
def strongerKind (a b : Nat) : Nat := if a = 1 || b = 1 then 1 else if a = 0 || b = 0 then 0 else 2

/-- The station of a request, or the next unfenced one (R293, R381). -/
def State.stationOf (s : State) (dev va : Nat) : Nat :=
  let z := (va / 2 ^ 21) % 2 ^ 31 ^^^ (dev * 2 ^ 15)
  let k := z % 48
  (((List.range 48).map (fun i => (k + i) % 48)).find? (fun i => !(s.station i).fenced)).getD k

/-- A combined walk of both stages for an address (R290); the answer's `pa` is the byte's. -/
def State.walk (s : State) (vi : BitVec 8) (asid : BitVec 16) (va : Nat) : Stage :=
  let sh := isShared va
  let dev := s.tagAsid vi asid va
  let k := s.stationOf dev va
  match s.rootFor k vi asid va with
  | (.fault st i, _) => .fault st i
  | (.bad, _) => .bad
  | (.ok .., r) =>
    match s.walk1 k vi dev va [0, 1, 2, 3] (r / 256 * 256) with
    | .ok ipa sz w x kd _ (some rem) => .ok ipa sz w x kd false (some rem)
    | .ok ipa sz w x kd _ none =>
      match s.ipaToPa k vi sh ipa with
      | .ok pa sz2 w2 x2 k2 o _ =>
        .ok pa (Nat.min sz sz2) (w && w2) (x && x2) (strongerKind kd k2) o none
      | f => f
    | f => f

/-- What a walk did at one level: the entry it read in memory, and the pointer it took from there or from the station. -/
structure Hop where
  pa  : Option Nat
  ptr : Option Ptr

/-- The levels of stage 2 that `walk2` goes through. -/
def State.hops2 (s : State) (k vmid ipa : Nat) (levels : List Nat) (table : Nat) : List Hop :=
  match levels with
  | [] => []
  | l :: r =>
    let p := fun t => some ({ stage := 2, vmid := vmid, asid := 0, lvl := l, page := ipa / 2 ^ lvlShift l, table := t } : Ptr)
    match s.ptr k 2 vmid 0 l ipa with
    | some t => { pa := none, ptr := p t } :: s.hops2 k vmid ipa r t
    | none =>
      let pa := table + 8 * pteIndex ipa l
      match readEntry 2 l (s.getNum pa 8) with
      | .pointer t => { pa := some pa, ptr := p t } :: s.hops2 k vmid ipa r t
      | _ => [{ pa := some pa, ptr := none }]
/-- Those of an intermediate address, where stage 2 is not the identity. -/
def State.hopsOf (s : State) (k : Nat) (vi : BitVec 8) (shared : Bool) (ipa : Nat) : List Hop :=
  if shared || s.viField vi 8 8 = 0 then [] else s.hops2 k (s.viVmid vi) ipa [0, 1, 2, 3] (s.viField vi 8 8)
/-- The levels of stage 1 that `walk1` goes through, with those of stage 2 before each read. -/
def State.hops1 (s : State) (k : Nat) (vi : BitVec 8) (dev va : Nat) (levels : List Nat) (table : Nat) : List Hop :=
  match levels with
  | [] => []
  | l :: r =>
    let p := fun t => some ({ stage := 1, vmid := s.vmidOf vi va, asid := dev, lvl := l, page := va / 2 ^ lvlShift l,
                              table := t } : Ptr)
    match s.ptr k 1 (s.vmidOf vi va) dev l va with
    | some t => { pa := none, ptr := p t } :: s.hops1 k vi dev va r t
    | none =>
      let ipa := table + 8 * pteIndex va l
      s.hopsOf k vi (isShared va) ipa ++
        match s.ipaToPa k vi (isShared va) ipa with
        | .ok pa .. =>
          match readEntry 1 l (s.getNum pa 8) with
          | .pointer t => { pa := some pa, ptr := p t } :: s.hops1 k vi dev va r t
          | .leaf a sz _ _ _ _ none =>
            { pa := some pa, ptr := none } :: s.hopsOf k vi (isShared va) (a + va % 2 ^ sizeLog sz)
          | _ => [{ pa := some pa, ptr := none }]
        | _ => []
/-- All that a walk goes through, from the root word on. -/
def State.hops (s : State) (vi : BitVec 8) (asid : BitVec 16) (va : Nat) : List Hop :=
  let dev := s.tagAsid vi asid va
  let k := s.stationOf dev va
  let root := if isShared va then [] else
    s.hopsOf k vi false (s.viField vi 0x10 8 + 16 * asid.toNat) ++
      match s.stage2 k vi (s.viField vi 0x10 8 + 16 * asid.toNat) with
      | .ok pa .. => [{ pa := some pa, ptr := none }]
      | _ => []
  root ++ match s.rootFor k vi asid va with
    | (.ok .., r) => s.hops1 k vi dev va [0, 1, 2, 3] (r / 256 * 256)
    | _ => []

/-- Whether a controller holds the address (R291). Log 13 (DESIGN CHOICE). -/
def hasMemory (pa : Nat) : Bool := pa < 0x6000000000

/-- Bytes that a die's controllers move for a virtual interface (R301). -/
def State.meter (s : State) (pa n : Nat) (vi : BitVec 8) : State :=
  s.modDie (pa / 0x200000000 / 12) (fun d => { d with band := tabPut d.band vi.toNat (tabGet d.band vi.toNat 0 + n) })

/-- A pointer entry kept, or used again, as the last of at most 256 (R294). -/
def Station.keep (x : Station) (p : Ptr) : Station :=
  let rest := x.ptrs.filter (fun q => !q.covers p.stage p.vmid p.asid p.lvl (p.page * 2 ^ lvlShift p.lvl))
  { x with ptrs := (if rest.length < 256 then rest else rest.drop 1) ++ [p] }
/-- What a walk leaves: its reads metered for the interface, 8 bytes each, and its pointers in the station (R294, R301).
Log 33 (DEDUCED). -/
def State.walked (s : State) (vi : BitVec 8) (asid : BitVec 16) (va : Nat) : State :=
  let k := s.stationOf (s.tagAsid vi asid va) va
  (s.hops vi asid va).foldl (fun s h =>
    let s := match h.pa with
      | some pa => if hasMemory pa then s.meter pa 8 vi else s
      | none => s
    match h.ptr with
    | some p => s.modStation k (fun x => x.keep p)
    | none => s) s

/-- Whether a buffered translation covers an address. -/
def Tlb.covers (t : Tlb) (vmid dev va : Nat) : Bool :=
  t.vmid == vmid && t.asid == dev && t.page == va / 2 ^ sizeLog t.size * 2 ^ sizeLog t.size

/-- A translation in its station, if one stands there (R294). -/
def State.tlbFind (s : State) (vi : BitVec 8) (asid : BitVec 16) (va : Nat) : Option Tlb :=
  let dev := s.tagAsid vi asid va
  (s.station (s.stationOf dev va)).tlb.find? (fun t => t.covers (s.vmidOf vi va) dev va)
/-- It has been used (R294). -/
def State.tlbTouch (s : State) (vi : BitVec 8) (asid : BitVec 16) (va : Nat) : State :=
  let dev := s.tagAsid vi asid va
  s.modStation (s.stationOf dev va) (fun x => { x with tlb := x.tlb.map (fun t =>
    if t.covers (s.vmidOf vi va) dev va then { t with used := s.clk } else t) })
/-- An interface may write a page that its tables make writable; in the shared range its SHW must be set too (R290). -/
def State.mayWrite (s : State) (vi : BitVec 8) (va : Nat) (w : Bool) : Bool := w && (!isShared va || s.viBit vi 2)

/-- A walked translation as a station keeps it. -/
def State.mkTlb (s : State) (vi : BitVec 8) (asid : BitVec 16) (va : Nat) (pa sz : Nat) (w x : Bool) (k : Nat) (o : Bool)
    (rem : Option (Nat × Nat)) : Tlb :=
  let n := 2 ^ sizeLog sz
  { pa := pa / n * n, size := sz, w := w, x := x, kind := BitVec.ofNat 2 k, ochk := o, remote := rem,
    vmid := s.vmidOf vi va, asid := s.tagAsid vi asid va, page := va / n * n, used := s.clk }

/-- A translation enters its station; the least recently used of 16,384 leaves (R294). -/
def State.tlbPut (s : State) (va : Nat) (t : Tlb) : State :=
  s.modStation (s.stationOf t.asid va) (fun st =>
    let oldest := st.tlb.foldl (fun m x => Nat.min m x.used) s.clk
    let kept := if st.tlb.length < 16384 then st.tlb else st.tlb.eraseP (fun x => x.used == oldest)
    { st with tlb := kept ++ [t] })

/-- A translation with what it left in its station: buffered, or walked. -/
inductive Trans where
  | ok (s : State) (t : Tlb)
  | fault (s : State) (stage ipa : Nat)
  | bad (s : State)

def State.translate (s : State) (vi : BitVec 8) (asid : BitVec 16) (va : Nat) : Trans :=
  match s.tlbFind vi asid va with
  | some t => .ok (s.tlbTouch vi asid va) t
  | none =>
    match s.walk vi asid va with
    | .ok pa sz w x k o rem =>
      let t := s.mkTlb vi asid va pa sz w x k o rem
      .ok ((s.walked vi asid va).tlbPut va t) t
    | .fault st i => .fault (s.walked vi asid va) st i
    | .bad => .bad (s.walked vi asid va)

/-- The physical byte a translation gives for an address. -/
def Tlb.at (t : Tlb) (va : Nat) : Nat := t.pa + va % 2 ^ sizeLog t.size

/-- Owner of a frame in its controller's table; the table's own frames are device-reserved (R291, R292).
Log 3 (DESIGN CHOICE). -/
def State.fot (s : State) (pa : Nat) : Nat :=
  if 0x200000000 - 0x40000 ≤ pa % 0x200000000 then 0xFFFF
  else s.getNum (pa / 0x200000000 * 0x200000000 + (0x200000000 - 0x40000) + 2 * (pa % 0x200000000 / 0x10000)) 2
/-- The check of a fill (R292). -/
def State.fillOk (s : State) (vi : BitVec 8) (ochk : Bool) (pa : Nat) : Bool :=
  hasMemory pa && (s.fot pa == s.viOwner vi || (s.fot pa == 0 && !ochk))
/-- The check of a write-back (R292). -/
def State.backOk (s : State) (vi : BitVec 8) (dev pa : Nat) : Bool :=
  hasMemory pa && (if dev = 0 then s.fot pa == 0 else s.fot pa == s.viOwner vi)

/-- The Choxia's own writes at a physical address reach memory, and no device-reserved frame: the table's own frames change only
through FOTSET (R292). Log 3 (DESIGN CHOICE). -/
def State.ownOk (s : State) (pa : Nat) : Bool := hasMemory pa && s.fot pa != 0xFFFF
/-- Who waits on a fault. -/
inductive Waiter where
  | agent (a : Agent)
  | step (i : Instr)

/-- The virtual interface whose CTL.HYP is set in a partition (R302). -/
def State.hypOf (s : State) (part : Nat) : BitVec 8 :=
  BitVec.ofNat 8 (((s.mgmt.used.map (·.1)).find? (fun v =>
    s.viBit (BitVec.ofNat 8 v) 3 && s.viPart (BitVec.ofNat 8 v) == part)).getD 0)

/-- A fault: it joins an outstanding one of the same page, or gets a token and a record in the ring of its stage (R298).
A guest's record names its agent as the guest sees it (R282). `flags` are [0] read, [1] write, [2] fetch, [3] engine, [4] permission. -/
def State.raise (s : State) (vi : BitVec 8) (asid : BitVec 16) (va stage ipa flags : Nat) (name : List Byte) (w : Waiter) :
    State × Nat :=
  let join := fun (f : FaultRec) => match w with
    | .agent a => { f with
        splits := if f.splits.any (fun x => x.1 == a) then f.splits else f.splits ++ [(a, BitVec.ofNat 64 va)] }
    | .step i => { f with steps := if f.steps.contains i then f.steps else f.steps ++ [i] }
  let page := if stage = 2 then ipa / 65536 else va / 65536
  match s.faults.find? (fun p => p.2.vi == vi && p.2.stage == stage && p.2.page == page
      && (stage == 2 || isShared va || p.2.asid == asid)) with
  | some (tok, _) => ({ s with faults := tabMod s.faults tok join }, tok)
  | none =>
    let tok := s.nextToken
    let bytes := toBytes va 8 ++ toBytes asid.toNat 2 ++ toBytes stage 1 ++ toBytes flags 1 ++ toBytes tok 4 ++
      toBytes (if stage = 2 then ipa else 0) 8 ++ toBytes s.time 8 ++ (if stage = 2 then name else s.guestName vi name)
    let f := join { vi := vi, stage := stage, page := page, asid := asid, va := BitVec.ofNat 64 va, splits := [], steps := [],
                    told := true, bytes := bytes }
    let ring := if stage = 2 then ringFault (s.hypOf (s.viPart vi)) else ringFault vi
    (({ s with faults := tabPut s.faults tok f, nextToken := (tok + 1) % 2 ^ 32 } : State).enqueue ring bytes, tok)

end Sys2Proof.Machine
end

