-- ==== Sys2Proof/Machine/Cache.lean ====
section
/-!
DEFINITION. The caches (spec/05_memory.md R81 to R88, spec/16_memory_model.md R244, R245, R249, R251): the device-wide L2 by
homes, the write-back of its lines under the frame ownership check, the L1 of each vector core with its sectors, stream
tags and region-dirty data, held lines (spec/30_errors_memory.md R376), and the commit of a region.
-/

namespace Sys2Proof.Machine

/-- Key of a line: device ASID and VA[51:7] (R81). -/
def lineKey (dev va : Nat) : Nat := dev * 2 ^ 45 + va % 2 ^ 52 / 128
/-- Key of a region-dirty line of a local window, by its storage (R78). -/
def localKey (a : Nat) : Nat := 2 ^ 62 + a / 128
def isLocalKey (k : Nat) : Bool := 2 ^ 62 ≤ k
/-- Address of a key's line: a virtual address, or the storage of a local window. -/
def keyAddr (k : Nat) : Nat := if isLocalKey k then (k - 2 ^ 62) * 128 else k % 2 ^ 45 * 128
/-- Device ASID of a key. -/
def keyDev (k : Nat) : Nat := k / 2 ^ 45 % 2 ^ 16

/-- The home die of a line (R85). -/
def homeDie (dev va : Nat) : Nat :=
  let y := (va % 2 ^ 52 / 128) ^^^ dev
  (List.range 23).foldl (fun h j => h ^^^ bits y (2 * j) 2) 0

def State.l2 (s : State) (key : Nat) : Option L2Line :=
  tabFind (s.die (homeDie (keyDev key) (keyAddr key))).l2 key
def State.setL2 (s : State) (key : Nat) (l : L2Line) : State :=
  s.modDie (homeDie (keyDev key) (keyAddr key)) (fun d => { d with l2 := tabPut d.l2 key l })
def State.dropL2 (s : State) (key : Nat) : State :=
  s.modDie (homeDie (keyDev key) (keyAddr key)) (fun d => { d with l2 := tabDel d.l2 key })

/-- The first encoding of R86 that represents a line: 0 ZERO, 1 REP8, 2 B8D1, 3 B4D1, 4 B8D2, 5 RAW. -/
def encodingOf (bs : List Byte) : Nat :=
  let fits := fun (w d : Nat) =>
    let base := field bs 0 w
    (List.range (128 / w)).all (fun i =>
      let x := (field bs (w * i) w + 2 ^ (8 * w) - base) % 2 ^ (8 * w)
      x < 2 ^ (8 * d - 1) || 2 ^ (8 * w) - 2 ^ (8 * d - 1) ≤ x)
  if bs.all (fun b => b == 0) then 0
  else if (List.range 16).all (fun i => field bs (8 * i) 8 == field bs 0 8) then 1
  else if fits 8 1 then 2 else if fits 4 1 then 3 else if fits 8 2 then 4 else 5

/-- Lines of a die held compressed and held raw (R87). -/
def Die.lines (d : Die) : Nat × Nat :=
  let raw := (d.l2.filter (fun p => encodingOf p.2.bytes == 5)).length
  (d.l2.length - raw, raw)

/-- A dirty line written back to its recorded frame, sector by sector; one that fails the ownership check is dropped with a
record (R85, R292, R378). -/
def State.writeBack (s : State) (key : Nat) : State :=
  match s.l2 key with
  | none => s
  | some l =>
    if l.dirty = 0 then s
    else if s.backOk l.vi (keyDev key) l.frame then
      let s := (List.range 8).foldl (fun s i =>
        if l.dirty.getLsbD i then
          let s := s.putBytes (l.frame + 16 * i) ((l.bytes.drop (16 * i)).take 16)
          if l.poison.getLsbD i then s.addPoison (l.frame + 16 * i) else s
        else s) s
      (s.meter l.frame 128 l.vi).setL2 key { l with dirty := 0 }
    else
      (s.report 3 1 (unitWord 6 (l.frame / 0x200000000)) (l.vi, BitVec.ofNat 16 (keyDev key - s.viField l.vi 0x18 2))
        l.frame 0 2 0x42 noName).setL2 key { l with dirty := 0 }

/-- Half ways that a line takes: two while it is held raw, one compressed (R86). -/
def halves (bs : List Byte) : Nat := if encodingOf bs == 5 then 2 else 1
/-- The set of a line in its slice (R81). -/
def l2SetOf (key : Nat) : Nat := Config.l2Set key % 196608
/-- Lines of a set leave it, the least recently used first, until a line of `need` half ways has room among the 16 ways that are
not disabled (R81, R86, R357). -/
def State.trimSet (s : State) (die key need fuel : Nat) : State :=
  match fuel with
  | 0 => s
  | f + 1 =>
    let d := s.die die
    let set := d.l2.filter (fun p => l2SetOf p.1 == l2SetOf key && p.1 != key)
    if (set.map (fun p => halves p.2.bytes)).sum + need ≤ 32 - 2 * tabGet d.l2off (l2SetOf key) 0 then s
    else
      let oldest := set.foldl (fun m p => Nat.min m p.2.used) s.clk
      match set.find? (fun p => p.2.used == oldest) with
      | none => s
      | some (k, _) => ((s.writeBack k).dropL2 k).trimSet die key need f
/-- Room for a line with these bytes in its set; a slice of fewer than 16 lines has it everywhere (R81). -/
def State.makeRoom (s : State) (key : Nat) (bs : List Byte) : State :=
  let die := homeDie (keyDev key) (keyAddr key)
  let d := s.die die
  if d.l2off.isEmpty && d.l2.length < 16 then s else s.trimSet die key (halves bs) d.l2.length

/-- A line read from memory by a translation and put into its home; none where the ownership check refuses it (R292). -/
def State.fill (s : State) (vi : BitVec 8) (va : Nat) (t : Tlb) : Option State :=
  let pa := t.at (va / 128 * 128)
  if !s.fillOk vi t.ochk pa then none
  else
    let key := lineKey t.asid va
    let s := s.makeRoom key (s.getBytes pa 128)
    let poison := (List.range 8).foldl (fun (m : BitVec 8) i => if s.isPoison (pa + 16 * i) then m ||| 1 <<< i else m) 0
    let line : L2Line := { bytes := s.getBytes pa 128, w := t.w, x := t.x, kind := t.kind, frame := pa, dirty := 0,
                           poison := poison, used := s.clk, vi := vi }
    some ((s.meter pa 128 vi).setL2 key line)

/-- What reaching a line's home gives. -/
inductive Home where
  | ok (s : State)
  | fault (stage ipa : Nat) (perm : Bool)
  | malformed
  | owner
  | remote (dev rva : Nat)

/-- The stage that withholds a right, with the IPA for stage 2 (R290, R298). -/
def State.permStage (s : State) (vi : BitVec 8) (asid : BitVec 16) (va : Nat) (write : Bool) : Nat × Nat :=
  let dev := s.tagAsid vi asid va
  let k := s.stationOf dev va
  match s.rootFor k vi asid va with
  | (.ok .., r) =>
    match s.walk1 k vi dev va [0, 1, 2, 3] (r / 256 * 256) with
    | .ok ipa _ w x _ _ _ =>
      if (if write then w else x) then
        match s.ipaToPa k vi (isShared va) ipa with
        | .ok _ _ w2 x2 _ _ _ => if (if write then w2 else x2) then (1, 0) else (2, ipa)
        | _ => (1, 0)
      else (1, 0)
    | _ => (1, 0)
  | _ => (1, 0)

/-- Rights of an access against the recorded or translated attributes. -/
def State.rights (s : State) (vi : BitVec 8) (asid : BitVec 16) (va : Nat) (write fetch w x : Bool) : Option Home :=
  if write && !s.mayWrite vi va w then some (.fault (s.permStage vi asid va true).1 (s.permStage vi asid va true).2 true)
  else if fetch && !x then some (.fault (s.permStage vi asid va false).1 (s.permStage vi asid va false).2 true)
  else none

/-- The line at its home, translated and filled where it is missing (R85, R290): what an access does that waits for nothing
in between. -/
def State.home (s : State) (vi : BitVec 8) (asid : BitVec 16) (va : Nat) (write fetch : Bool) : Home :=
  let key := lineKey (s.tagAsid vi asid va) va
  match s.l2 key with
  | some l =>
    match s.rights vi asid va write fetch l.w l.x with
    | some h => h
    | none => .ok (s.setL2 key { l with used := s.clk })
  | none =>
    match s.translate vi asid va with
    | .fault _ st i => .fault st i false
    | .bad _ => .malformed
    | .ok s t =>
      match t.remote with
      | some (d, rva) => .remote d (rva + va % 2 ^ sizeLog t.size)
      | none =>
        match s.rights vi asid va write fetch t.w t.x with
        | some h => h
        | none =>
          match s.fill vi va t with
          | some s => .ok s
          | none => .owner

/-- KIND of an address as a line or a table gives it, without touching either: 0 RC where none is known (R241).
Log 20 (DEDUCED). -/
def State.kindAt (s : State) (vi : BitVec 8) (asid : BitVec 16) (va : Nat) : Nat :=
  match s.l2 (lineKey (s.tagAsid vi asid va) va) with
  | some l => l.kind.toNat
  | none =>
    match s.tlbFind vi asid va with
    | some t => t.kind.toNat
    | none =>
      match s.walk vi asid va with
      | .ok _ _ _ _ k _ _ => k
      | _ => 0

/-- The bytes of an access at its home, with the poisoned sectors it touches (addresses). -/
def State.homeBytes (s : State) (key va n : Nat) : List Byte × Bool :=
  match s.l2 key with
  | none => (List.replicate n 0, false)
  | some l =>
    let o := va % 128
    ((l.bytes.drop o).take n,
      (List.range 8).any (fun i => l.poison.getLsbD i && decide (16 * i < o + n) && decide (o < 16 * i + 16)))

/-- Bytes stored at the home of a present line: the sectors become dirty; a sector covered whole loses its poison, one
written with poisoned data is poisoned (R373). -/
def State.homePut (s : State) (key va : Nat) (bs : List Byte) (bad : Bool) : State :=
  match s.l2 key with
  | none => s
  | some l =>
    let o := va % 128
    let n := bs.length
    let hit := fun (i : Nat) => decide (16 * i < o + n) && decide (o < 16 * i + 16)
    let full := fun (i : Nat) => decide (o ≤ 16 * i) && decide (16 * i + 16 ≤ o + n)
    let dirty := (List.range 8).foldl (fun (m : BitVec 8) i => if hit i then m ||| 1 <<< i else m) l.dirty
    let poison := (List.range 8).foldl (fun (m : BitVec 8) i =>
      if hit i && bad then m ||| 1 <<< i else if full i then m &&& ~~~((1 : BitVec 8) <<< i) else m) l.poison
    let new := patch l.bytes o bs
    (s.makeRoom key new).setL2 key { l with bytes := new, dirty := dirty, poison := poison, used := s.clk }

/-- A trap that an agent takes before its next issue (R376). -/
def State.queueTrap (s : State) (a : Agent) (code : BitVec 8) (val : Word) : State :=
  if s.alive a then s.modStrand a (fun x => { x with traps := x.traps ++ [(code, val)] }) else s

/-- A blank access of an agent, for line operations and held lines. -/
def Access.blank (a : Agent) (vi : BitVec 8) (asid : BitVec 16) (wg : Nat) : Access :=
  { agent := a, what := 4, op := 0, stream := 0, st := Stream.ofBits 0, release := false, acquire := false, vi := vi,
    asid := asid, wg := wg, core := a.unit, lanes := [], dest := (0, 0, 0, 0), cas := [], mask := 0, got := [], token := none,
    bad := false, block := 0, held := false, via := false, buf := false, tags := 0, brought := [], popped := [], act := none }

/-- The agent that takes a trap for a write that nothing waits for: the writer, or the split that it has merged into; none where
its workgroup or its program has gone (R376). -/
def State.writerOf (s : State) (a : Agent) (vi : BitVec 8) (asid : BitVec 16) (wg : Nat) : Option Agent :=
  let b := s.heir a
  if s.alive b && s.ctxOf b == (vi, asid) && (s.wgOf b).getD 0 == wg then some b else none
/-- The launch of a workgroup, or, after its end, the one that waits for the held write `id` (R376). -/
def State.launchOf (s : State) (wg id : Nat) : Option Nat :=
  match tabFind s.wgs wg with
  | some w => some w.launch
  | none => (s.monarch.launches.find? (fun l => l.2.held.contains id)).map (·.1)
/-- A write that nothing waits for has failed: its writer traps; where it has ended, the launch's completion object names the record
`word` (R376). Log 137 (DEDUCED). -/
def State.failWrite (s : State) (x : Access) (id va : Nat) (code : BitVec 8) (word : Word) : State :=
  match s.writerOf x.agent x.vi x.asid x.wg, s.launchOf x.wg id with
  | some a, _ => s.queueTrap a code (BitVec.ofNat 64 va)
  | none, some k => s.modLaunch k (fun l => { l with error := if l.error = 0 then word else l.error })
  | none, none => s

/-- A held line of a home: at most 64 a slice; one that finds no room is dropped, with CODE 0x43, and its writer takes
PAGE_NONREPLAY (R376). -/
def State.hold (s : State) (x : Access) (id va stage ipa : Nat) (perm : Bool) : State :=
  let die := homeDie (s.tagAsid x.vi x.asid va) va
  if 64 ≤ (s.die die).held.length && !(s.die die).held.contains id then
    let word := s.nextRecord 0x43 3
    let s := s.report 3 1 (unitWord 4 die) (x.vi, x.asid) (va / 128 * 128) 0 1 0x43 (s.joined x.agent)
    let s := s.failWrite x id va 0x05 word
    { s with accesses := tabDel s.accesses id }
  else
    let (s, tok) := s.raise x.vi x.asid va stage ipa (2 + if perm then 16 else 0) (s.joined x.agent)
      (.step (.storePerformed id .none))
    let s := { s with accesses := tabPut s.accesses id { x with what := 4, token := some tok } }
    s.modDie die (fun d => { d with held := if d.held.contains id then d.held else id :: d.held })

/-- A held write's access. -/
def heldAccess (a : Agent) (vi : BitVec 8) (asid : BitVec 16) (wg va : Nat) (tags : BitVec 16) (bs : List Byte) (bad : Bool) :
    Access :=
  { Access.blank a vi asid wg with lanes := [(0, BitVec.ofNat 64 va, bs)], bad := bad, tags := tags }
/-- Such a write that its home refuses (R378): the trap writes the record; without a writer the record stands for itself. -/
def State.refuseWrite (s : State) (x : Access) (va : Nat) (code : BitVec 8) : State :=
  let word := s.nextRecord code.toNat 3
  let s := if (s.writerOf x.agent x.vi x.asid x.wg).isSome then s
    else s.report 3 1 (unitWord 4 (homeDie (s.tagAsid x.vi x.asid va) va)) (x.vi, x.asid) va 0 1 code.toNat (s.joined x.agent)
  s.failWrite x s.nextId va code word
/-- A write that no instruction waits for: at the home at once, or held, or dropped with its record (R376, R378). `tags`: the
streams whose dirty bytes it carries. -/
def State.putHome (s : State) (a : Agent) (vi : BitVec 8) (asid : BitVec 16) (wg va : Nat) (tags : BitVec 16) (bs : List Byte)
    (bad : Bool) : State :=
  match s.home vi asid va true false with
  | .ok s => s.homePut (lineKey (s.tagAsid vi asid va) va) va bs bad
  | .fault st i p => ({ s with nextId := s.nextId + 1 } : State).hold (heldAccess a vi asid wg va tags bs bad) s.nextId va st i p
  | .malformed =>
    let word := s.nextRecord 0x40 3
    (s.report 3 1 (unitWord 7 (s.stationOf (s.tagAsid vi asid va) va)) (vi, asid) va 0 1 0x40 (s.joined a)).failWrite
      (heldAccess a vi asid wg va tags bs bad) s.nextId va 0x06 word
  | .owner => s.refuseWrite (heldAccess a vi asid wg va tags bs bad) va 0x07
  | .remote _ _ => s.refuseWrite (heldAccess a vi asid wg va tags bs bad) va 0x04
/-- The token of a line that is held: a later write to it waits behind it (R376). -/
def State.heldOn (s : State) (vi : BitVec 8) (asid : BitVec 16) (va : Nat) : Option Nat :=
  (s.accesses.findSome? (fun p => if p.2.what == 4 && p.2.lanes.any (fun l =>
    lineKey (s.tagAsid p.2.vi p.2.asid l.2.1.toNat) l.2.1.toNat == lineKey (s.tagAsid vi asid va) va) then some p.2.token
    else none)).join
/-- Sectors of a run at the home that a store covers whole, in as many elements as it has, lose their poison (R373). -/
def State.homeWhole (s : State) (key va n : Nat) (covers : Nat → Bool) : State :=
  match s.l2 key with
  | none => s
  | some l =>
    if l.poison = 0 then s
    else s.setL2 key { l with poison := (List.range ((va % 16 + n + 15) / 16)).foldl (fun (m : BitVec 8) j =>
      if covers (va / 16 + j) then m &&& ~~~((1 : BitVec 8) <<< ((va / 16 + j) % 8)) else m) l.poison }
/-- The same behind the held writes of its line. -/
def State.mergeHome (s : State) (a : Agent) (vi : BitVec 8) (asid : BitVec 16) (wg va : Nat) (tags : BitVec 16) (bs : List Byte)
    (bad : Bool) : State :=
  match s.heldOn vi asid va with
  | none => s.putHome a vi asid wg va tags bs bad
  | some tok =>
    { s with
      accesses := tabPut s.accesses s.nextId { heldAccess a vi asid wg va tags bs bad with token := some tok }
      faults := tabMod s.faults tok (fun f => { f with steps := f.steps ++ [.storePerformed s.nextId .none] })
      nextId := s.nextId + 1 }

/-- Runs of dirty bytes of a sector: (offset, bytes). -/
def dirtyRuns (x : Sector) : List (Nat × List Byte) :=
  if x.dirty = BitVec.allOnes 16 then [(0, x.bytes)]
  else ((List.range 16).filter (fun i => x.dirty.getLsbD i)).map (fun i => (i, [x.bytes.getD i 0]))

def State.l1 (s : State) (core key : Nat) : Option L1Line := tabFind (s.core core).l1 key
def State.setL1 (s : State) (core key : Nat) (l : L1Line) : State :=
  s.modCore core (fun c => { c with l1 := if l.sectors.isEmpty then tabDel c.l1 key else tabPut c.l1 key l })

/-! ### Sectors -/

def Sector.blank : Sector :=
  { bytes := List.replicate 16 0, have_ := 0, dirty := 0, tags := 0, fill := 0, poison := false, wgs := [], writer := none,
    layers := [] }
/-- Bytes laid over others where a mask has them. -/
def overBytes (old : List Byte) (m : BitVec 16) (new : List Byte) : List Byte :=
  (List.range 16).map (fun j => if m.getLsbD j then new.getD j 0 else old.getD j 0)
/-- An ordinary store joins the sector's ordinary bytes: the sector is dirty and gains the store's tags; one that a store covers whole loses
its poison (R83, R245, R373). -/
def Sector.join (x : Sector) (l : Layer) : Sector :=
  { x with
    bytes := overBytes x.bytes l.mask l.bytes
    have_ := x.have_ ||| l.mask
    dirty := x.dirty ||| l.mask
    tags := x.tags ||| l.tags
    poison := (x.poison && !l.whole) || l.bad
    wgs := l.wg :: x.wgs.filter (· != l.wg)
    writer := some l.writer }
/-- The oldest layers join as far as they are ordinary. -/
def Sector.joinFirst (x : Sector) : List Layer → Sector
  | [] => { x with layers := [] }
  | l :: r => if l.region then { x with layers := l :: r } else (x.join l).joinFirst r
/-- Every ordinary layer joins; the region-dirty ones stay. -/
def Sector.settle (x : Sector) : Sector :=
  (x.layers.filter (fun l => !l.region)).foldl Sector.join { x with layers := x.layers.filter (·.region) }
/-- A store: into the newest layer where that is its own, else above it. -/
def Sector.push (x : Sector) (l : Layer) : Sector :=
  let same := match x.layers.getLast? with
    | some t => t.region == l.region && t.wg == l.wg && t.policy == l.policy
    | none => false
  let ls := match same, x.layers.getLast? with
    | true, some t => x.layers.dropLast ++ [{ l with mask := t.mask ||| l.mask, bytes := overBytes t.bytes l.mask l.bytes,
                                                     tags := t.tags ||| l.tags
                                                     whole := t.whole || l.whole
                                                     bad := t.bad && !l.whole }]
    | _, _ => x.layers ++ [l]
  x.joinFirst ls
/-- A byte as the groups of the core see it, with whether it is poisoned (R53, R373). -/
def Sector.seen (x : Sector) (j : Nat) : Option (Byte × Bool) :=
  match x.layers.reverse.find? (fun l => l.mask.getLsbD j) with
  | some l => some (l.bytes.getD j 0, l.bad || (x.poison && !x.layers.any (·.whole)))
  | none => if x.have_.getLsbD j then some (x.bytes.getD j 0, x.poison) else none
/-- Ordinary bytes of it are dirty; bytes are region-dirty; neither (R83). -/
def Sector.isDirty (x : Sector) : Bool := x.dirty != 0 || x.layers.any (fun l => !l.region)
def Sector.isRegion (x : Sector) : Bool := x.layers.any (·.region)
def Sector.clean (x : Sector) : Bool := x.dirty == 0 && x.layers.isEmpty
/-- Nothing is left in it. -/
def Sector.empty (x : Sector) : Bool := x.have_ == 0 && x.layers.isEmpty
/-- A workgroup's region-dirty layers, changed or dropped, with what can join then. -/
def Sector.mapRegion (x : Sector) (w : Nat) (f : Layer → Option Layer) : Sector :=
  x.joinFirst (x.layers.filterMap (fun l => if l.region && l.wg == w then f l else some l))

/-- One dirty sector of an L1 written back to its home (or, of a local window, to its storage). It stays clean with the tags
it was filled with, one that was never filled with those of its stores; one that `leaves` leaves the L1, its region-dirty
bytes apart (R78, R83, R84, R245). Log 9 (DEDUCED). -/
def State.backSector (s : State) (core key i : Nat) (leaves : Bool) : State :=
  match s.l1 core key with
  | none => s
  | some l =>
    match tabFind l.sectors i with
    | none => s
    | some x =>
      let x := x.settle
      if x.dirty = 0 then s
      else
        let base := keyAddr key + 16 * i
        let w := x.wgs.headD 0
        let wg := s.wg w
        let s := (dirtyRuns x).foldl (fun s r =>
          if isLocalKey key then s.putBytes (base + r.1) r.2
          else s.mergeHome (x.writer.getD .device) wg.vi wg.asid w (base + r.1) x.tags r.2 x.poison) s
        let y := if leaves || isLocalKey key then { Sector.blank with layers := x.layers }
          else { x with dirty := 0, wgs := [], tags := if x.fill = 0 then x.tags else x.fill }
        s.setL1 core key { l with sectors := if y.empty then tabDel l.sectors i else tabPut l.sectors i y }

/-- The dirty sectors of one L1 that a condition picks, written back in order of key and sector. -/
def State.backWhere (s : State) (core : Nat) (p : Nat → Sector → Bool) : State :=
  let picks := (s.core core).l1.flatMap (fun l =>
    (l.2.sectors.filter (fun x => x.2.isDirty && p l.1 x.2.settle)).map (fun x => (l.1, x.1)))
  picks.foldl (fun s x => s.backSector core x.1 x.2 false) s
/-- Every sector of one L1 changed; those that are left empty leave, and their lines. -/
def State.mapL1 (s : State) (core : Nat) (f : Nat → L1Line → Sector → Option Sector) : State :=
  let line := fun (key : Nat) (l : L1Line) =>
    { l with sectors := l.sectors.filterMap (fun x => ((f key l x.2).filter (fun y => !y.empty)).map (fun y => (x.1, y))) }
  s.modCore core (fun c => { c with l1 := (tabMap c.l1 line).filter (fun p => !p.2.sectors.isEmpty) })

/-- The cores on which a workgroup has had groups since its placement (R41, R46). -/
def Workgroup.cores (w : Workgroup) : List Nat := (w.keys.map (· / 32)).eraseDups
/-- The cores on which it has groups now (R304). -/
def Workgroup.liveCores (w : Workgroup) : List Nat := ((w.groups.filterMap id).map (· / 32)).eraseDups

/-- The workgroup that holds an entry. -/
def QEntry.holder (e : QEntry) : Option Nat := e.held.map (·.1)
/-- Held pops of a workgroup are freed: their entries leave the queues (R233). -/
def State.freeHeld (s : State) (w : Nat) : State :=
  s.modCluster (s.wg w).cluster (fun c => { c with
    queue := tabMap c.queue (fun _ q => q.filter (fun e => e.holder != some w)) })

/-- The place of a line in its home after an access under a policy: STREAM leaves it least recently used, BYPASS does not leave a
line that it brought (R84). -/
def State.settleL2 (s : State) (key : Nat) (policy : BitVec 2) (fresh : Bool) : State :=
  if policy = 3 && fresh then (s.writeBack key).dropL2 key
  else if policy = 1 && fresh then match s.l2 key with
    | some l => s.setL2 key { l with used := 0 }
    | none => s
  else s
/-- The policies of a workgroup's region-dirty bytes in a sector (R84). -/
def Sector.policies (x : Sector) (w : Nat) : List (BitVec 2) := (x.layers.filter (fun l => l.region && l.wg == w)).filterMap (·.policy)
/-- One sector whose region-dirty bytes of a workgroup have become ordinary (R78, R84, R251): it goes to its home, or its storage,
under a policy that does not allocate, for a local window, and in a CLUSTER-bound workgroup. -/
def State.commitSector (s : State) (core key i : Nat) (wide : Bool) (ps : List (BitVec 2)) : State :=
  let fresh := (s.l2 key).isNone
  let s := if !ps.isEmpty || wide || isLocalKey key then s.backSector core key i (!ps.isEmpty) else s
  match ps with
  | [] => s
  | p :: r => if isLocalKey key then s else s.settleL2 key (r.foldl (fun m q => if q < m then q else m) p) fresh
/-- The workgroup's region-dirty stores become ordinary dirty sectors, and the commit acts as a release at WORKGROUP scope:
a CLUSTER-bound workgroup's go to their homes, as do stores under a policy that does not allocate, and buffered bytes of a
local window go to their storage (R53, R78, R84, R251). A store of the region that is still to be performed will be an ordinary
one. -/
def State.commitStores (s : State) (w : Nat) : State :=
  let wide := (s.wg w).wide
  let s := (s.wg w).cores.foldl (fun s c =>
    let picks := (s.core c).l1.flatMap (fun l => (l.2.sectors.filter (fun x => x.2.layers.any (fun y => y.region && y.wg == w))).map
      (fun x => (l.1, x.1, x.2.policies w)))
    let s := s.mapL1 c (fun _ _ x => some (x.mapRegion w (fun l => some { l with region := false })))
    picks.foldl (fun s p => s.commitSector c p.1 p.2.1 wide p.2.2) s) s
  let s := { s with accesses := tabMap s.accesses (fun _ x => if x.wg == w then { x with buf := false } else x) }
  s.freeHeld w

/-- An implicit or early commit (R53): the workgroup is non-discardable and buffers nothing until its next REGION. -/
def State.commitRegion (s : State) (w : Nat) : State :=
  if (s.wg w).buffers then
    ((s.commitStores w).modWg w (fun x => { x with buffers := false })).traceWg w 1 (s.wg w).resume
  else s

/-- The commit before an instruction with effects beyond the workgroup's buffered stores (R53), by a group or by the control
program of the workgroup (R205). Log 63 (DEDUCED). -/
def State.implicitCommit (s : State) (a : Agent) : State :=
  match s.wgOf a with
  | some w => s.commitRegion w
  | none => s

/-- A line leaves an L1: a region-dirty line first makes its workgroup commit, dirty sectors are written back (R53, R81). -/
def State.evictL1 (s : State) (core key : Nat) : State :=
  match s.l1 core key with
  | none => s
  | some l =>
    let s := (l.sectors.flatMap (fun x => (x.2.layers.filter (·.region)).map (·.wg))).foldl State.commitRegion s
    let s := s.backWhere core (fun k _ => k == key)
    s.modCore core (fun c => { c with l1 := tabDel c.l1 key })

/-- Room for a line in its set of twelve ways, less those that are disabled: the least recently used line leaves (R81). -/
def State.roomL1 (s : State) (core key : Nat) : State :=
  match s.l1 core key with
  | some _ => s
  | none =>
    let set := (s.core core).l1.filter (fun p => p.1 % 1024 == key % 1024)
    if set.length < 12 - tabGet (s.core core).l1off (key % 1024) 0 then s
    else
      match set with
      | [] => s
      | h :: r => s.evictL1 core (r.foldl (fun m p => if p.2.used < m.2.used then p else m) h).1

/-- The next stamp of recent use in a set. -/
def State.stampL1 (s : State) (core key : Nat) : Nat :=
  ((s.core core).l1.filter (fun p => p.1 % 1024 == key % 1024)).foldl (fun m p => Nat.max m (p.2.used + 1)) 1

def L1Line.blank : L1Line := { sectors := [], w := true, x := false, kind := 0, filled := false, used := 0 }

/-- A line filled from its home into an L1, tagged with a stream; bytes written here stay (R83, R245). -/
def State.fillL1 (s : State) (core key stream : Nat) : State :=
  match s.l2 key with
  | none => s
  | some h =>
    let s := s.roomL1 core key
    let l := (s.l1 core key).getD L1Line.blank
    let tag : BitVec 16 := 1 <<< stream
    let sec := fun (i : Nat) =>
      let x := tabGet l.sectors i Sector.blank
      if x.have_ = BitVec.allOnes 16 then { x with tags := if x.clean then x.tags ||| tag else x.tags }
      else { x with
        bytes := (List.range 16).map (fun j => if x.have_.getLsbD j then x.bytes.getD j 0 else h.bytes.getD (16 * i + j) 0)
        have_ := BitVec.allOnes 16, tags := x.tags ||| tag, fill := tag, poison := x.poison || h.poison.getLsbD i }
    s.setL1 core key { l with sectors := (List.range 8).map (fun i => (i, sec i)), w := h.w, x := h.x, kind := h.kind, filled := true,
                              used := s.stampL1 core key }

/-- The bytes of an access in an L1, where it holds them all, with whether they are poisoned (R83). -/
def State.readL1 (s : State) (core key va n : Nat) : Option (List Byte × Bool) :=
  match s.l1 core key with
  | none => none
  | some l =>
    let o := va % 128
    let bs := (List.range n).filterMap (fun j => (tabGet l.sectors ((o + j) / 16) Sector.blank).seen ((o + j) % 16))
    if bs.length = n then some (bs.map (·.1), bs.any (·.2)) else none

/-- A hit adds the stream to the tags of the line's clean sectors and renews its use (R245). -/
def State.touchL1 (s : State) (core key stream : Nat) : State :=
  match s.l1 core key with
  | none => s
  | some l => s.setL1 core key { l with
      sectors := tabMap l.sectors (fun _ x => if x.clean then { x with tags := x.tags ||| 1 <<< stream } else x)
      used := s.stampL1 core key }

/-- Bytes of an access that an L1 holds laid over bytes from the home (R83). -/
def State.overlayL1 (s : State) (core key va : Nat) (bs : List Byte) : List Byte :=
  match s.l1 core key with
  | none => bs
  | some l =>
    let o := va % 128
    (List.range bs.length).map (fun j =>
      match (tabGet l.sectors ((o + j) / 16) Sector.blank).seen ((o + j) % 16) with
      | some (b, _) => b
      | none => bs.getD j 0)

/-- Bytes written into an L1 within one line: the sectors become dirty, or region-dirty, and gain the stream's tag (R83,
R245). `covers` says which sectors, by address over 16, the whole store covers (R373). -/
def State.writeL1 (s : State) (core key va stream wg : Nat) (a : Agent) (region : Bool) (policy : Option (BitVec 2))
    (covers : Nat → Bool) (bs : List Byte) : State :=
  let w := s.wg wg
  let l := (s.l1 core key).getD { L1Line.blank with
    kind := if isLocalKey key then 0 else BitVec.ofNat 2 (s.kindAt w.vi w.asid va) }
  let o := va % 128
  let n := bs.length
  let sec := fun (l : Tab Sector) (i : Nat) =>
    let in_ := fun (j : Nat) => decide (o ≤ 16 * i + j) && decide (16 * i + j < o + n)
    let m := (List.range 16).foldl (fun (m : BitVec 16) j => if in_ j then m ||| 1 <<< j else m) 0
    if m = 0 then l
    else tabPut l i ((tabGet l i Sector.blank).push {
      region := region
      wg := wg
      writer := a
      mask := m
      bytes := (List.range 16).map (fun j => if in_ j then bs.getD (16 * i + j - o) 0 else 0)
      tags := 1 <<< stream
      policy := policy
      whole := covers (va / 128 * 8 + i)
      bad := false })
  s.setL1 core key { l with sectors := (List.range 8).foldl sec l.sectors, used := s.stampL1 core key }

/-- An acquire: the core's clean sectors that carry a tag of the mask leave the L1; dirty ones stay (R161, R245). -/
def State.invalidate (s : State) (core : Nat) (streams : BitVec 16) : State :=
  s.mapL1 core (fun _ _ x => if !x.clean || x.tags &&& streams == 0 then some x else none)

/-- Whether a scope takes a release of an agent's workgroup to the L2 homes (R244). -/
def State.beyondCore (s : State) (a : Agent) (scope : BitVec 3) : Bool :=
  2 ≤ scope.toNat || (scope = 1 && match s.wgOf a with
    | some w => (s.wg w).wide
    | none => false)

/-- A release: every dirty sector of the core that carries a tag of the mask goes to its home, where the scope takes it there
(R244, R245). -/
def State.releaseL1 (s : State) (a : Agent) (streams : BitVec 16) (scope : BitVec 3) : State :=
  match a with
  | .thread _ => s
  | .split g _ =>
    if s.beyondCore a scope then s.backWhere (g / 32) (fun _ x => x.tags &&& streams != 0) else s
/-- A write-back that a release waits for is held on a fault (R161, R376). -/
def State.backHeld (s : State) (a : Agent) (streams : BitVec 16) (scope : BitVec 3) : Bool :=
  match a with
  | .thread _ => false
  | .split g _ => s.beyondCore a scope && s.accesses.any (fun p => p.2.what == 4 && p.2.core == g / 32 && p.2.tags &&& streams != 0)

end Sys2Proof.Machine
end

