-- ==== Sys2Proof/Machine/Reach.lean ====
section
/-!
DEFINITION. How an agent or an engine reaches bytes by virtual address: local windows and their entitlement
(spec/05_memory.md R75 to R78), and runs of bytes at the L2 homes, line by line (spec/13_isa_engines.md R191).
-/

namespace Sys2Proof.Machine

/-- What reaching a run of bytes gives. -/
inductive Reach (α : Type) where
  | ok (s : State) (x : α)
  /-- A fault of translation: address, stage, IPA, whether a right is missing (R298). -/
  | fault (va stage ipa : Nat) (perm : Bool)
  /-- Not performed: the trap code and the lowest failing address (R377 to R379). -/
  | denied (code : BitVec 8) (va : Nat)
  /-- The page lies on another device (R290). -/
  | remote (va dev rva : Nat)

/-- The allocations of a launch hold each of `n` bytes of storage from `a` on; those that adjoin count together (R77). -/
def State.covered (s : State) (launch a n : Nat) : Nat → Bool
  | 0 => n == 0
  | f + 1 =>
    n == 0 || match s.allocs.find? (fun x => x.1 ≤ a && a < x.1 + x.2.1 && x.2.2.1 == launch && x.2.2.2.1 != 0) with
      | some x => let k := x.1 + x.2.1 - a; n ≤ k || s.covered launch (a + k) (n - k) f
      | none => false
def State.entitled (s : State) (launch a n : Nat) : Bool := s.covered launch a n (s.allocs.length + 1)

/-- Storage of the lane-private slice of a group's lane (R76, R77). -/
def State.sliceOf (s : State) (g lane o n : Nat) : Option Nat :=
  match s.allocs.find? (fun x => x.2.2.2.1 == 0 && x.2.2.2.2 == g) with
  | none => none
  | some (base, bytes, _) => if o + n ≤ bytes / 96 then some (base + bytes / 96 * lane + o) else none

/-- The storage an access of a local window reaches for a workgroup, where its launch is entitled to it (R76, R77): `lane` for
an access made lane by lane. -/
def State.localIn (s : State) (w : Option Nat) (a : Agent) (lane : Option Nat) (r : Region) (o n : Nat) : Option Nat :=
  let launch := match w with
    | some w => (s.wg w).launch
    | none => 0
  let ok := fun (x : Nat) => if s.entitled launch x n then some x else none
  match r with
  | .lane => match a, lane with
    | .split g _, some i => s.sliceOf g i o n
    | _, _ => none
  | .scratch => match a with
    | .split g _ => ok (scratchAt (g / 32) o)
    | .thread _ => none
  | .shared => if o / 0x40000 = (o + n - 1) / 0x40000 then ok (sliceAt (4 * a.cluster) o)
    else if s.entitled launch (sliceAt (4 * a.cluster) o) (0x40000 - o % 0x40000) &&
        s.entitled launch (sliceAt (4 * a.cluster) (o / 0x40000 * 0x40000 + 0x40000)) (o % 0x40000 + n - 0x40000) then
      some (sliceAt (4 * a.cluster) o)
    else none
  | .chipOwn => ok (chipAt a.die o)
  | .chip d => ok (chipAt d o)
  | .global => none
  | .none => none

/-- The same for the agent's own workgroup. -/
def State.localAt (s : State) (a : Agent) (lane : Option Nat) (r : Region) (o n : Nat) : Option Nat :=
  s.localIn (s.wgOf a) a lane r o n

/-- Runs of an access that each stand in one line: (address, bytes). -/
def lineRuns (va n : Nat) (fuel : Nat) : List (Nat × Nat) :=
  match fuel with
  | 0 => []
  | f + 1 =>
    if n = 0 then []
    else
      let k := Nat.min n (128 - va % 128)
      (va, k) :: lineRuns (va + k) (n - k) f

/-- What a home answers, as a failure of a run. -/
def Home.stop {α : Type} (h : Home) (va : Nat) : Reach α :=
  match h with
  | .ok s => .denied 0 (va + 0 * s.clk)
  | .fault st i p => .fault va st i p
  | .malformed => .denied 0x06 va
  | .owner => .denied 0x07 va
  | .remote d r => .remote va d r

/-- The runs of a context's read at the homes. -/
def State.readRuns (s : State) (vi : BitVec 8) (asid : BitVec 16) (acc : List Byte) (bad : Bool) (runs : List (Nat × Nat)) :
    Reach (List Byte × Bool) :=
  match runs with
  | [] => .ok s (acc, bad)
  | (va, n) :: r =>
    match s.home vi asid va false false with
    | .ok s =>
      let (bs, p) := s.homeBytes (lineKey (s.tagAsid vi asid va) va) va n
      s.readRuns vi asid (acc ++ bs) (bad || p) r
    | h => h.stop va

/-- The runs of a context's write at the homes: those before a failing one stand. -/
def State.writeRuns (s : State) (vi : BitVec 8) (asid : BitVec 16) (bs : List Byte) (bad : Bool) (runs : List (Nat × Nat)) :
    Reach Bool :=
  match runs with
  | [] => .ok s true
  | (va, n) :: r =>
    match s.home vi asid va true false with
    | .ok s =>
      let s := s.homePut (lineKey (s.tagAsid vi asid va) va) va (bs.take n) bad
      s.writeRuns vi asid (bs.drop n) bad r
    | h => h.stop va

/-- Bytes of global memory of a context, at the homes: what an engine, Monarch or a control thread reads (R191). -/
def State.readHome (s : State) (vi : BitVec 8) (asid : BitVec 16) (va n : Nat) : Reach (List Byte × Bool) :=
  if n = 0 then .ok s ([], false)
  else if (regionOf va n).1 = .global then s.readRuns vi asid [] false (lineRuns va n (n / 128 + 2)) else .denied 0x04 va
def State.writeHome (s : State) (vi : BitVec 8) (asid : BitVec 16) (va : Nat) (bs : List Byte) (bad : Bool) : Reach Bool :=
  if bs.length = 0 then .ok s true
  else if (regionOf va bs.length).1 = .global then
    s.writeRuns vi asid bs bad (lineRuns va bs.length (bs.length / 128 + 2))
  else .denied 0x04 va

/-- An engine's read for an agent: a local window directly, global memory at the homes (R191). -/
def State.readFor (s : State) (w : Option Nat) (a : Agent) (lane : Option Nat) (vi : BitVec 8) (asid : BitVec 16) (va n : Nat) :
    Reach (List Byte × Bool) :=
  if n = 0 then .ok s ([], false)
  else match regionOf va n with
    | (.global, _) => s.readHome vi asid va n
    | (r, o) =>
      match s.localIn w a lane r o n with
      | some p => .ok s (s.getBytes p n, !(s.poisonIn p n).isEmpty)
      | none => .denied 0x04 va
def State.writeFor (s : State) (w : Option Nat) (a : Agent) (lane : Option Nat) (vi : BitVec 8) (asid : BitVec 16) (va : Nat)
    (bs : List Byte) (bad : Bool) : Reach Bool :=
  if bs.length = 0 then .ok s true
  else match regionOf va bs.length with
    | (.global, _) => s.writeHome vi asid va bs bad
    | (r, o) =>
      match s.localIn w a lane r o bs.length with
      | some p =>
        let s := s.putBytes p bs
        .ok (if bad then (List.range ((p % 16 + bs.length + 15) / 16)).foldl (fun s i => s.addPoison (p / 16 * 16 + 16 * i)) s else s) true
      | none => .denied 0x04 va

/-- A write of the Choxia itself to a context's memory (a completion object, a queue head): it waits for no instruction, so a
fault holds its line (R376). -/
def State.writeOwn (s : State) (a : Agent) (vi : BitVec 8) (asid : BitVec 16) (wg va : Nat) (bs : List Byte) : State :=
  (lineRuns va bs.length (bs.length / 128 + 2)).foldl (fun s r =>
    if (regionOf r.1 r.2).1 = .global then s.mergeHome a vi asid wg r.1 0 ((bs.drop (r.1 - va)).take r.2) false else s) s

/-- A doubleword or word of a context's memory for Monarch or a unit that waits on nothing: 0 where it cannot be reached. -/
def State.peekNum (s : State) (vi : BitVec 8) (asid : BitVec 16) (va n : Nat) : State × Nat :=
  match s.readHome vi asid va n with
  | .ok s (bs, _) => (s, ofBytes bs)
  | _ => (s, 0)

/-- An intermediate address as a physical one (R288). -/
def State.ipa (s : State) (vi : BitVec 8) (a : Nat) : Option Nat :=
  match s.stage2 48 vi a with
  | .ok pa _ _ _ _ _ _ => some pa
  | _ => none

/-- Where the descriptor of a ring stands (R277, R298): in a context's space, or at a physical address. -/
inductive RingAt where
  | va (vi : BitVec 8) (asid : BitVec 16) (a : Nat)
  | ipa (vi : BitVec 8) (a : Nat)
  | pa (a : Nat)

def RingAt.read (r : RingAt) (s : State) (a n : Nat) : Option (State × Nat) :=
  match r with
  | .va vi asid _ => match s.readHome vi asid a n with
    | .ok s (bs, _) => some (s, ofBytes bs)
    | _ => none
  | .ipa vi _ => (s.ipa vi a).map (fun p => (s, s.getNum p n))
  | .pa _ => some (s, s.getNum a n)
def RingAt.write (r : RingAt) (s : State) (a : Nat) (bs : List Byte) : Option State :=
  match r with
  | .va vi asid _ => match s.writeHome vi asid a bs false with
    | .ok s _ => some s
    | _ => none
  | .ipa vi _ => match s.ipa vi a with
    | some p => if s.ownOk p then some (s.putBytes p bs) else none
    | none => none
  | .pa _ => if s.ownOk a then some (s.putBytes a bs) else none
def RingAt.base : RingAt → Nat
  | .va _ _ a => a
  | .ipa _ a => a
  | .pa a => a

/-- One record written at BASE + 64 × (TAIL mod SIZE), then TAIL advanced (R277, R298). None while the ring is full or not
reachable. -/
def RingAt.push (r : RingAt) (s : State) (rec : List Byte) : Option State := do
  let (s, base) ← r.read s r.base 8
  let (s, size) ← r.read s (r.base + 8) 4
  let (s, head) ← r.read s (r.base + 12) 4
  let (s, tail) ← r.read s (r.base + 16) 4
  if size = 0 || (tail + 2 ^ 32 - head) % 2 ^ 32 ≥ size then none
  else
    let s ← r.write s (base + 64 * (tail % size)) rec
    r.write s (r.base + 16) (toBytes ((tail + 1) % 2 ^ 32) 4)

/-- The descriptor of a ring key; none where its interface sets none. -/
def State.ringAt (s : State) (key : Nat) : Option RingAt :=
  if key = 0 then none
  else if key < 0x2000000 then
    let vi := BitVec.ofNat 8 ((key - 1) / 65536)
    let g := BitVec.ofNat 16 ((key - 1) % 65536)
    match s.ipa vi (s.viField vi 0x10 8 + 16 * g.toNat + 8) with
    | some pa => let d := s.getNum pa 8; if s.viRec vi = [] || d = 0 then none else some (.va vi g d)
    | none => none
  else if key < 0x3000000 then
    let d := s.viField (BitVec.ofNat 8 (key - 0x2000000)) 0x38 8
    if d = 0 then none else some (.pa d)
  else
    let vi := BitVec.ofNat 8 (key - 0x3000000)
    let d := s.viField vi 0x20 8
    if d = 0 then none else some (.ipa vi d)

/-- The records of one ring that find room in it, in order. -/
def RingAt.flush (r : RingAt) (s : State) (recs : List (Nat × List Byte)) : State × List (Nat × List Byte) :=
  match recs with
  | [] => (s, [])
  | x :: rest => match r.push s x.2 with
    | some s => r.flush s rest
    | none => (s, x :: rest)

/-- Every record that finds room enters its ring. The management controller keeps the records of its own ring (R277).
Log 22 (DESIGN CHOICE). -/
def State.flushRing (s : State) (key : Nat) : State :=
  let ring := tabGet s.mgmt.rings key { pend := [], recs := [] }
  if ring.pend = [] then s
  else
    let set := fun (s : State) (x : Ring) => { s with mgmt := { s.mgmt with rings := tabPut s.mgmt.rings key x } }
    if key = 0 then set s { pend := [], recs := ring.recs ++ ring.pend.map (·.2) }
    else match s.ringAt key with
      | none => set s { ring with pend := [] }
      | some r =>
        let (s, left) := r.flush s ring.pend
        set s { ring with pend := left }
def State.flushRings (s : State) : State := (s.mgmt.rings.map (·.1)).foldl State.flushRing s

end Sys2Proof.Machine
end

