-- ==== Sys2Proof/Machine/Accounts.lean ====
section
/-!
DEFINITION. Slot accounts (spec/19_accounting.md R271 to R281): the charge of a slot, the banks, the PC table and its drain
buffer, count and PC records, and the exit record.
-/

namespace Sys2Proof.Machine

/-- The code of a cause (R271). -/
def Cause.code : Cause → Nat
  | .issue => 0 | .depend => 1 | .loadwait => 2 | .pipe => 3 | .fetch => 4 | .barrier => 5 | .queue => 6 | .async => 7
  | .stack => 8 | .balance => 9 | .fault => 10 | .sync => 11 | .matrix => 12 | .trap => 13 | .restart => 14 | .empty => 15

def Bank.blank : Bank := { vi := 0, asid := 0, cur := [], base := [] }

/-- The bank of a context on a unit; bank 0 is context 0's (R275). -/
def CoreUnit.bankOf (u : CoreUnit) (vi : BitVec 8) (asid : BitVec 16) : Nat :=
  match u.banks.find? (fun b => b.2.vi == vi && b.2.asid == asid) with
  | some (n, _) => n
  | none => 0

/-- The bank to which an agent's slot goes: on a control core each thread has its own (R275). -/
def State.bankFor (s : State) (u : Nat) (vi : BitVec 8) (asid : BitVec 16) (a : Option Agent) : Nat :=
  match a with
  | some (.thread t) => match tabFind (s.unit u).banks (1 + t % 2) with
    | some b => if b.vi == vi && b.asid == asid then 1 + t % 2 else 0
    | none => 0
  | _ => (s.unit u).bankOf vi asid

/-- Sixteen counts of a bank, three bytes each; those that are off read zero (R278, R285). -/
def countBytes (cur : Tab Nat) (off : Nat → Bool) : List Byte :=
  (List.range 16).flatMap (fun n => toBytes (if off n then 0 else tabGet cur n 0) 3)

/-- A counter drain of a bank: a count record, then BASEn := BASEn + CURn and CURn := 0 (R277, R278). Log 112 (DEDUCED). -/
def State.drainCounters (s : State) (u bank reason : Nat) : State :=
  let b := tabGet (s.unit u).banks bank Bank.blank
  let mk := fun (core : Nat) (off : Nat → Bool) =>
    [1#8] ++ toBytes reason 1 ++ toBytes core 2 ++ toBytes (0x10000 * b.vi.toNat + b.asid.toNat) 4 ++ toBytes s.time 8 ++
      countBytes b.cur off
  let guest := if u < 384 then 4 * s.viCluster b.vi (u / 4) + u % 4 else 384 + s.viCluster b.vi (u - 384)
  let s := if bank = 0 then s
    else (List.range 16).foldl (fun s n => s.countEvent b.vi b.asid n (tabGet b.cur n 0)) s
  let s := if bank = 0 then s.enqueue ringMgmt (mk u (fun _ => false))
    else (s.enqueue (ringCtx b.vi b.asid) (mk guest (s.eventOff b.vi b.asid))).enqueue (ringHyp b.vi) (mk u (fun _ => false))
  s.modUnit u (fun x => { x with banks := tabMod x.banks bank (fun b => { b with
    base := (List.range 16).map (fun n => (n, tabGet b.base n 0 + BitVec.ofNat 64 (tabGet b.cur n 0))), cur := [] }) })

/-- PC records of a list of entries and an overflow count of one bank: three entries a record (R278). -/
def pcRecords (head : Nat → List Byte) (es : List (List Byte)) (fuel : Nat) : List (List Byte) :=
  match fuel with
  | 0 => []
  | f + 1 =>
    if es = [] then []
    else
      let three := es.take 3
      (head three.length ++ three.flatten ++ List.replicate (16 * (3 - three.length)) 0) :: pcRecords head (es.drop 3) f

def PcEntry.bytes (e : PcEntry) : List Byte := toBytes e.pc.toNat 8 ++ [e.cause] ++ toBytes 0 3 ++ toBytes e.count 4
/-- An overflow count as an entry. -/
def overflowBytes (n : Nat) : List Byte := List.replicate 8 0xFF ++ [0xFF] ++ toBytes 0 3 ++ toBytes n 4

/-- The PC records of one bank made from entries and an overflow count, into the rings (R276 to R278, R285): with TIME of this
clk; `from_` as `State.enqueueFrom` has it. -/
def State.pcOut (s : State) (from_ u bank : Nat) (es : List PcEntry) (extra : Nat) : State :=
  let b := tabGet (s.unit u).banks bank Bank.blank
  let all := es.map PcEntry.bytes ++ if extra = 0 then [] else [overflowBytes extra]
  let guest := if u < 384 then 4 * s.viCluster b.vi (u / 4) + u % 4 else 384 + s.viCluster b.vi (u - 384)
  let head := fun (n : Nat) =>
    [2#8] ++ toBytes n 1 ++ toBytes guest 2 ++ toBytes (0x10000 * b.vi.toNat + b.asid.toNat) 4 ++ toBytes s.time 8
  if bank = 0 || s.eventOff b.vi b.asid 16 then s
  else
    let rs := pcRecords head all (all.length + 1)
    rs.foldl (fun s r => s.enqueueFrom from_ (ringCtx b.vi b.asid) r) (s.countEvent b.vi b.asid 16 rs.length)

/-- The records of a unit's drain buffer that find room in their rings leave it (R276, R277). -/
def State.drainTable (s : State) (u : Nat) : State :=
  ((s.mgmt.rings.filter (fun r => r.2.pend.any (fun p => p.1 == u + 1))).map Prod.fst).foldl State.flushRing s

/-- The PC table is copied whole into the free drain buffer, in order of bank, with the overflow counts that stand, and emptied
(R276). -/
def State.copyTable (s : State) (u : Nat) : State :=
  let x := s.unit u
  let s := (x.banks.map (·.1)).foldl (fun s b =>
    s.pcOut (u + 1) u b (x.pcs.filter (fun e => e.bank == b)) (tabGet x.ovf b 0)) s
  (s.modUnit u (fun x => { x with pcs := [], ovf := [] })).soon (.tableDrain u)

/-- A charge in the PC table; one that would need the drain buffer while it holds an earlier copy counts as overflow (R276,
R277). -/
def State.chargePc (s : State) (u bank : Nat) (pc : Word) (c : Cause) : State :=
  let x := s.unit u
  let cause := BitVec.ofNat 8 c.code
  let same := fun (e : PcEntry) => e.bank == bank && e.pc == pc && e.cause == cause
  let entry : PcEntry := { bank := bank, pc := pc, cause := cause, count := 1 }
  let busy := s.draining u
  match x.pcs.find? same with
  | some e =>
    if busy && e.count + 1 = 2 ^ 20 then s.modUnit u (fun x => { x with ovf := tabPut x.ovf bank (tabGet x.ovf bank 0 + 1) })
    else
      let s := s.modUnit u (fun x => { x with pcs := x.pcs.map (fun e => if same e then { e with count := e.count + 1 } else e) })
      if e.count + 1 = 2 ^ 20 then s.copyTable u else s
  | none =>
    if x.pcs.length < 64 then s.modUnit u (fun x => { x with pcs := x.pcs ++ [entry] })
    else if busy then s.modUnit u (fun x => { x with ovf := tabPut x.ovf bank (tabGet x.ovf bank 0 + 1) })
    else (s.copyTable u).modUnit u (fun x => { x with pcs := [entry] })

/-- The name in a charge: its agent's, or that of the unit and the context (R282). -/
def State.chargeName (s : State) (u : Nat) (vi : BitVec 8) (asid : BitVec 16) : Option Agent → List Byte
  | some a => s.joined a
  | none => s.nameOf vi asid Launch.blank
      (if u < 384 then Agent.split (32 * u) 0 else Agent.thread (2 * (u - 384))).place 0

/-- One slot of a unit charged to a context, a PC and a cause, and to its workgroup's totals (R272, R275, R276, R281). -/
def State.charge (s : State) (u : Nat) (vi : BitVec 8) (asid : BitVec 16) (pc : Word) (c : Cause) (a : Option Agent)
    (w : Option Nat) : State :=
  let bank := s.bankFor u vi asid a
  let s := s.modUnit u (fun x => { x with
    banks := tabMod x.banks bank (fun b => { b with cur := tabPut b.cur c.code (tabGet b.cur c.code 0 + 1) })
    charged := some { vi := if bank = 0 then 0 else vi, asid := if bank = 0 then 0 else asid, pc := pc, cause := c, agent := a,
                      name := s.chargeName u vi asid a } })
  let s := match w with
    | some w => s.modWg w (fun g => { g with totals := tabPut g.totals c.code (tabGet g.totals c.code 0 + 1) })
    | none => s
  let s := if tabGet (tabGet (s.unit u).banks bank Bank.blank).cur c.code 0 = 2 ^ 20 then s.soon (.limitDrain u bank) else s
  if bank = 0 then s else s.chargePc u bank pc c

/-- A bank opens for a context. -/
def State.newBank (s : State) (u bank : Nat) (vi : BitVec 8) (asid : BitVec 16) : State :=
  if (vi, asid) = (0, 0) then s
  else s.modUnit u (fun x => { x with banks := tabPut x.banks bank { vi := vi, asid := asid, cur := [], base := [] } })
/-- A bank opens for a context that has none on a vector core (R275). -/
def State.openBank (s : State) (u : Nat) (vi : BitVec 8) (asid : BitVec 16) : State :=
  if (vi, asid) = (0, 0) || (s.unit u).bankOf vi asid != 0 then s
  else
    let n := ((List.range 9).map (· + 1)).find? (fun n => (tabFind (s.unit u).banks n).isNone)
    s.newBank u (n.getD 9) vi asid

/-- A bank closes: its counters and its PC entries are drained, reason LEAVE (R275, R277, R279). -/
def State.closeBankNo (s : State) (u bank : Nat) : State :=
  if bank = 0 || (tabFind (s.unit u).banks bank).isNone then s
  else
    let s := s.drainCounters u bank 1
    let x := s.unit u
    let s := s.pcOut 0 u bank (x.pcs.filter (fun e => e.bank == bank)) (tabGet x.ovf bank 0)
    s.modUnit u (fun x => { x with banks := tabDel x.banks bank, pcs := x.pcs.filter (fun e => e.bank != bank),
                                   ovf := tabDel x.ovf bank })
def State.closeBank (s : State) (u : Nat) (vi : BitVec 8) (asid : BitVec 16) : State :=
  s.closeBankNo u ((s.unit u).bankOf vi asid)
/-- The bank of a control thread closes (R275). -/
def State.closeThread (s : State) (t : Nat) : State := s.closeBankNo (384 + t / 2) (1 + t % 2)
/-- It opens for the context that the thread takes; that of a context it had closes first. Context 0 has bank 0 (R275). -/
def State.openThread (s : State) (t : Nat) (vi : BitVec 8) (asid : BitVec 16) : State :=
  let u := 384 + t / 2
  match tabFind (s.unit u).banks (1 + t % 2) with
  | some b => if b.vi == vi && b.asid == asid then s else (s.closeThread t).newBank u (1 + t % 2) vi asid
  | none => s.newBank u (1 + t % 2) vi asid
/-- Banks of control threads that have left their contexts close (R274). -/
def State.closeLeft (s : State) : State :=
  (s.clusters.flatMap (fun (p : Nat × Cluster) => [2 * p.1, 2 * p.1 + 1])).foldl (fun s t =>
    match tabFind (s.unit (384 + t / 2)).banks (1 + t % 2) with
    | some b => if (s.thread t).ctx = some (b.vi, b.asid) then s else s.closeThread t
    | none => s) s

/-- The groups that stand on a core. -/
def State.groupsOn (s : State) (core : Nat) : List (Nat × Group) := s.groups.filter (fun p => p.1 / 32 == core)

/-- The context's bank on a core closes when no group of it is left there (R275). -/
def State.leaveCore (s : State) (core : Nat) (vi : BitVec 8) (asid : BitVec 16) : State :=
  if (s.groupsOn core).any (fun p => (s.wg p.2.wg).vi == vi && (s.wg p.2.wg).asid == asid) then s
  else s.closeBank core vi asid

/-- A counter of a group's GSTALL bank rises (R280). -/
def State.stallUp (s : State) (g : Nat) (c : Cause) : State :=
  s.modGroup g (fun x => { x with gstall := tabPut x.gstall c.code (tabGet x.gstall c.code 0 + 1) })

/-- Sixteen 8-byte counts as two records. -/
def countPair (t : Tab Word) (off : Nat → Bool) : List (List Byte) :=
  [(List.range 8).flatMap (fun n => toBytes (if off n then 0 else (tabGet t n 0).toNat) 8),
   (List.range 8).flatMap (fun n => toBytes (if off (n + 8) then 0 else (tabGet t (n + 8) 0).toNat) 8)]

/-- The exit record of a workgroup, 3 + 2G records into its context's ring (R281). -/
def State.exitRecord (s : State) (w : Nat) : State :=
  let wg := s.wg w
  let off := s.eventOff wg.vi wg.asid
  let head := [3#8, 0#8] ++ toBytes wg.groups.length 2 ++ toBytes (0x10000 * wg.vi.toNat + wg.asid.toNat) 4 ++
    toBytes s.time 8 ++ toBytes (s.launch wg.launch).id.toNat 4 ++ toBytes wg.num 4 ++ List.replicate 40 0
  let gs := (List.range wg.groups.length).flatMap (fun i =>
    countPair (match wg.groups.getD i none with
      | some g => (s.group g).gstall
      | none => tabGet wg.stalls i []) off)
  ([head] ++ countPair wg.totals off ++ gs).foldl (fun s r => s.enqueue (ringCtx wg.vi wg.asid) r) s

end Sys2Proof.Machine
end

