-- ==== Sys2Proof/Machine/Flags.lean ====
section
/-!
DEFINITION. FPFLAGS and FMT of a split (spec/02_formats.md R19, R20, R22, R23): the sticky flags, the rounding mode in force,
and the writes of both registers.
-/

namespace Sys2Proof.Machine

/-- Flags: NV [4], DZ [3], OF [2], UF [1], NX [0] (R22). -/
abbrev FFlags := BitVec 5
def flagNV : FFlags := 16
def flagDZ : FFlags := 8
def flagOF : FFlags := 4
def flagUF : FFlags := 2
def flagNX : FFlags := 1

/-- Rounding modes (R19). -/
inductive Rnd where
  | ne | tz | up | dn | na
deriving DecidableEq, Repr

/-- FMT of a split. -/
def State.fmt (s : State) : Agent → BitVec 9
  | .split g k => (s.splitOf g k).fmt
  | .thread _ => 0
def fmtIsat (f : BitVec 9) : Bool := f.getLsbD 8
def fmtFtz (f : BitVec 9) : Bool := f.getLsbD 7
def fmtNarrow (f : BitVec 9) : Nat := (f.extractLsb' 4 3).toNat
def fmtSxw (f : BitVec 9) : Nat := (f.extractLsb' 2 2).toNat
/-- Magnitude bits of an SX width code: 2, 4, 7 (R23, R27). -/
def sxBits (w : Nat) : Nat := if w = 0 then 2 else if w = 1 then 4 else 7
/-- The default rounding of FMT (R19). -/
def fmtRnd (f : BitVec 9) : Rnd :=
  match (f.extractLsb' 0 2).toNat with
  | 0 => .ne
  | 1 => .tz
  | 2 => .up
  | _ => .dn
/-- A write of FMT: reserved codes of NARROW and SXW leave their field as it was (R23). -/
def fmtWrite (old : BitVec 9) (v : Word) : BitVec 9 :=
  let narrow := if 4 ≤ (v.extractLsb' 4 3).toNat then old.extractLsb' 4 3 else v.extractLsb' 4 3
  let sxw := if v.extractLsb' 2 2 = 3 then old.extractLsb' 2 2 else v.extractLsb' 2 2
  v.extractLsb' 7 2 ++ narrow ++ sxw ++ v.extractLsb' 0 2
def State.setFmt (s : State) (a : Agent) (v : Word) : State :=
  match a with
  | .split g k => s.modSplit g k (fun x => { x with fmt := fmtWrite x.fmt v })
  | .thread _ => s

/-- Flags raised: a set flag is never cleared by an instruction (R22). -/
def State.raiseFlags (s : State) (a : Agent) (f : FFlags) : State :=
  match a with
  | .split g k => s.modSplit g k (fun x => { x with flags := x.flags ||| f })
  | .thread _ => s
def State.setFlags (s : State) (a : Agent) (f : FFlags) : State :=
  match a with
  | .split g k => s.modSplit g k (fun x => { x with flags := f })
  | .thread _ => s
def State.flags (s : State) : Agent → FFlags
  | .split g k => (s.splitOf g k).flags
  | .thread _ => 0

end Sys2Proof.Machine
end

