-- ==== Sys2Proof/Machine/Float.lean ====
section
/-!
DEFINITION. Floating arithmetic (spec/02_formats.md R18 to R26): FP32, FP16 and BF16 as IEEE 754 binary formats, exact results
rounded once, NaN handling, FTZ, and conversions.
-/

namespace Sys2Proof.Machine

/-- A binary format: exponent bits and fraction bits (R18). -/
structure FFmt where
  ebits : Nat
  fbits : Nat
deriving DecidableEq, Repr
def fp32 : FFmt := { ebits := 8, fbits := 23 }
def fp16 : FFmt := { ebits := 5, fbits := 10 }
def bf16 : FFmt := { ebits := 8, fbits := 7 }
def FFmt.width (f : FFmt) : Nat := 1 + f.ebits + f.fbits
def FFmt.bias (f : FFmt) : Nat := 2 ^ (f.ebits - 1) - 1
/-- The exponent of the last place of the smallest subnormal. -/
def FFmt.qmin (f : FFmt) : Int := 1 - (f.bias : Int) - (f.fbits : Int)
def FFmt.nan (f : FFmt) : Nat := (2 ^ f.ebits - 1) * 2 ^ f.fbits + 2 ^ (f.fbits - 1)
def FFmt.inf (f : FFmt) (neg : Bool) : Nat := (2 ^ f.ebits - 1) * 2 ^ f.fbits + if neg then 2 ^ (f.ebits + f.fbits) else 0
def FFmt.max (f : FFmt) (neg : Bool) : Nat := f.inf neg - 1
def FFmt.zero (f : FFmt) (neg : Bool) : Nat := if neg then 2 ^ (f.ebits + f.fbits) else 0

/-- A value: (−1)^neg × m × 2^e for a number. -/
inductive FVal where
  | nan (sig : Bool)
  | inf (neg : Bool)
  | num (neg : Bool) (m : Nat) (e : Int)
deriving DecidableEq, Repr

/-- The value of a bit pattern; FTZ takes a subnormal as a zero of its sign (R18, R20). -/
def FFmt.val (f : FFmt) (ftz : Bool) (x : Nat) : FVal :=
  let neg := x.testBit (f.ebits + f.fbits)
  let ex := x / 2 ^ f.fbits % 2 ^ f.ebits
  let fr := x % 2 ^ f.fbits
  if ex = 2 ^ f.ebits - 1 then
    if fr = 0 then .inf neg else .nan (!fr.testBit (f.fbits - 1))
  else if ex = 0 then .num neg (if ftz then 0 else fr) f.qmin
  else .num neg (fr + 2 ^ f.fbits) (f.qmin + (ex : Int) - 1)

/-- Whether a magnitude whose discarded part is `r` of `2^sh` rounds away from zero. -/
def roundsUp (rm : Rnd) (neg odd : Bool) (r sh : Nat) : Bool :=
  match rm with
  | .ne => decide (2 ^ sh < 2 * r) || (2 * r == 2 ^ sh && odd)
  | .na => decide (2 ^ sh ≤ 2 * r) && r != 0
  | .tz => false
  | .up => !neg && r != 0
  | .dn => neg && r != 0

/-- m × 2^e as an integer multiple of 2^q, rounded: the multiple and whether it is inexact. -/
def roundAt (rm : Rnd) (neg : Bool) (m : Nat) (e q : Int) : Nat × Bool :=
  if q ≤ e then (m * 2 ^ (e - q).toNat, false)
  else
    let sh := (q - e).toNat
    let k := m / 2 ^ sh
    let r := m % 2 ^ sh
    (if roundsUp rm neg (k % 2 == 1) r sh then k + 1 else k, r != 0)

/-- RoundF of an exact nonzero magnitude to a format (R3, R19, R20): the bits and the flags. Log 26 (DEDUCED). -/
def FFmt.round (f : FFmt) (rm : Rnd) (ftz neg : Bool) (m : Nat) (e : Int) : Nat × FFlags :=
  if m = 0 then (f.zero neg, 0)
  else
    let top := e + (Nat.log2 m : Int)
    let free := top - (f.fbits : Int)
    let q := if free < f.qmin then f.qmin else free
    let (k, inexact) := roundAt rm neg m e q
    let bits := (q - f.qmin).toNat * 2 ^ f.fbits + k
    let maxed := (2 ^ f.ebits - 1) * 2 ^ f.fbits
    let sign := if neg then 2 ^ (f.ebits + f.fbits) else 0
    if maxed ≤ bits then
      let toInf := match rm with
        | .ne => true
        | .na => true
        | .tz => false
        | .up => !neg
        | .dn => neg
      (if toInf then f.inf neg else f.max neg, flagOF ||| flagNX)
    else if ftz && bits < 2 ^ f.fbits && bits != 0 then (sign, flagUF ||| flagNX)
    else
      let (k2, _) := roundAt rm neg m e free
      let tiny := decide (free < f.qmin) && decide (k2 < 2 ^ (f.fbits + 1) ∨ free + 1 < f.qmin)
      (sign + bits, if inexact then (if tiny then flagUF ||| flagNX else flagNX) else 0)

/-- An exact sum of signed magnitudes, as a signed magnitude. -/
def addExact (n1 : Bool) (m1 : Nat) (e1 : Int) (n2 : Bool) (m2 : Nat) (e2 : Int) : Int × Int :=
  let e := if e1 ≤ e2 then e1 else e2
  let a : Int := m1 * 2 ^ (e1 - e).toNat
  let b : Int := m2 * 2 ^ (e2 - e).toNat
  ((if n1 then -a else a) + (if n2 then -b else b), e)

/-- A signed exact result rounded; an exact zero of unlike signs is +0, but −0 under RDN (R19). -/
def FFmt.roundSum (f : FFmt) (rm : Rnd) (ftz zneg : Bool) (v : Int × Int) : Nat × FFlags :=
  if v.1 = 0 then (f.zero zneg, 0) else f.round rm ftz (decide (v.1 < 0)) v.1.natAbs v.2

/-- NV when an operand is a signaling NaN (R21). -/
def sigFlag (xs : List FVal) : FFlags := if xs.any (fun x => x == .nan true) then flagNV else 0
def isNan : FVal → Bool
  | .nan _ => true
  | _ => false

/-- x + y, rounded once (R19, R21). -/
def FFmt.addV (f : FFmt) (rm : Rnd) (ftz : Bool) (x y : FVal) : Nat × FFlags :=
  if isNan x || isNan y then (f.nan, sigFlag [x, y])
  else match x, y with
    | .inf a, .inf b => if a = b then (f.inf a, 0) else (f.nan, flagNV)
    | .inf a, _ => (f.inf a, 0)
    | _, .inf b => (f.inf b, 0)
    | .num a m e, .num b n d =>
      f.roundSum rm ftz (if m = 0 && n = 0 then (if a = b then a else rm = .dn) else rm = .dn) (addExact a m e b n d)
    | _, _ => (f.nan, 0)
def negV : FVal → FVal
  | .nan s => .nan s
  | .inf n => .inf (!n)
  | .num n m e => .num (!n) m e

/-- x × y + z, with the product and the sum exact and one rounding (R3). Log 24 (DEDUCED). -/
def FFmt.fmaV (f : FFmt) (rm : Rnd) (ftz : Bool) (x y z : FVal) : Nat × FFlags :=
  let bad := match x, y with
    | .inf _, .num _ 0 _ => true
    | .num _ 0 _, .inf _ => true
    | _, _ => false
  if isNan x || isNan y || isNan z || bad then (f.nan, sigFlag [x, y, z] ||| if bad then flagNV else 0)
  else
    let prod := match x, y with
      | .inf a, .inf b => FVal.inf (a != b)
      | .inf a, .num b _ _ => .inf (a != b)
      | .num a _ _, .inf b => .inf (a != b)
      | .num a m e, .num b n d => .num (a != b) (m * n) (e + d)
      | _, _ => .nan false
    f.addV rm ftz prod z

/-- x × y, rounded once. -/
def FFmt.mulV (f : FFmt) (rm : Rnd) (ftz : Bool) (x y : FVal) : Nat × FFlags :=
  match x, y with
  | .num a m e, .num b n d => if m * n = 0 then (f.zero (a != b), 0) else f.round rm ftz (a != b) (m * n) (e + d)
  | _, _ =>
    if isNan x || isNan y then (f.nan, sigFlag [x, y])
    else match x, y with
      | .inf a, .inf b => (f.inf (a != b), 0)
      | .inf a, .num b n _ => if n = 0 then (f.nan, flagNV) else (f.inf (a != b), 0)
      | .num a m _, .inf b => if m = 0 then (f.nan, flagNV) else (f.inf (a != b), 0)
      | _, _ => (f.nan, 0)

/-- The order of two numbers or infinities: x < y; −0 and +0 equal. -/
def ltV (x y : FVal) : Bool :=
  match x, y with
  | .inf a, .inf b => a && !b
  | .inf a, .num .. => a
  | .num .., .inf b => !b
  | .num a m e, .num b n d => decide ((addExact a m e (!b) n d).1 < 0)
  | _, _ => false
def eqV (x y : FVal) : Bool :=
  match x, y with
  | .inf a, .inf b => a == b
  | .num a m e, .num b n d => decide ((addExact a m e (!b) n d).1 = 0)
  | _, _ => false
def negOf : FVal → Bool
  | .nan _ => false
  | .inf n => n
  | .num n _ _ => n
/-- The bits of a value that a format holds exactly. -/
def FFmt.ofVal (f : FFmt) (x : FVal) : Nat :=
  match x with
  | .nan _ => f.nan
  | .inf n => f.inf n
  | .num n m e => (f.round .tz false n m e).1
/-- FMIN or FMAX: a number beats a NaN, −0 stands below +0 (R21). -/
def FFmt.minmaxV (f : FFmt) (mx : Bool) (x y : FVal) : Nat × FFlags :=
  let fl := sigFlag [x, y]
  if isNan x && isNan y then (f.nan, fl)
  else if isNan x then (f.ofVal y, fl)
  else if isNan y then (f.ofVal x, fl)
  else
    let less := ltV x y || (eqV x y && negOf x && !negOf y)
    (f.ofVal (if less != mx then x else y), fl)
/-- FABS, FNEG, FCPYSGN: a NaN gives the canonical NaN (R21); `g` makes the sign. -/
def FFmt.signV (f : FFmt) (x : FVal) (neg : Bool) : Nat × FFlags :=
  match x with
  | .nan s => (f.nan, if s then flagNV else 0)
  | .inf _ => (f.inf neg, 0)
  | .num _ m e => ((f.round .tz false neg m e).1, 0)

/-- A conversion between floating formats (R25). -/
def convF (src dst : FFmt) (rm : Rnd) (ftz : Bool) (x : Nat) : Nat × FFlags :=
  match src.val ftz x with
  | .nan s => (dst.nan, if s then flagNV else 0)
  | .inf n => (dst.inf n, 0)
  | .num n m e => if m = 0 then (dst.zero n, 0) else dst.round rm ftz n m e

/-- An integer as FP32 (R25). -/
def ofIntF (rm : Rnd) (v : Int) : Nat × FFlags :=
  if v = 0 then (0, 0) else fp32.round rm false (decide (v < 0)) v.natAbs 0

/-- FP32 as a 32-bit integer (R26). -/
def toIntF (rm : Rnd) (isat signed : Bool) (x : Nat) : Lane × FFlags :=
  let indef : Lane := if signed then 0x80000000 else 0xFFFFFFFF
  match fp32.val false x with
  | .nan _ => (if isat then 0 else indef, flagNV)
  | .inf n => (if isat then (if signed then (if n then 0x80000000 else 0x7FFFFFFF) else (if n then 0 else 0xFFFFFFFF))
      else indef, flagNV)
  | .num n m e =>
    let (k, inexact) := roundAt rm n m e 0
    let v : Int := if n then -(k : Int) else k
    let lo : Int := if signed then -2147483648 else 0
    let hi : Int := if signed then 2147483647 else 4294967295
    if hi < v then (if isat then BitVec.ofInt 32 hi else indef, flagNV)
    else if v < lo then (if isat then BitVec.ofInt 32 lo else indef, flagNV)
    else (BitVec.ofInt 32 v, if inexact then flagNX else 0)

end Sys2Proof.Machine
end

