-- ==== Sys2Proof/Machine/Atomic.lean ====
section
/-!
DEFINITION. What an atomic computes (spec/11_isa_memory.md R165, R166). An operation is named by its code: 0 to 7 VATOM, 8 to 14
VATOMF, 16 to 23 SATOM.
-/

namespace Sys2Proof.Machine

/-- Bits of the word that an atomic works on (R165, R166). -/
def atomWidth (op : Nat) : Nat := if op < 16 then 32 else 64

/-- The value of a word as a signed number. -/
def signedOf (w x : Nat) : Int := if x < 2 ^ (w - 1) then (x : Int) else (x : Int) - (2 : Int) ^ w

/-- The new value of the word; none where a CAS writes nothing (R165, R166). `y2` is the second operand of CAS. -/
def atomNew (op old y y2 : Nat) : Option Nat :=
  let w := atomWidth op
  match op with
  | 8 => some (fp32.addV .ne false (fp32.val false old) (fp32.val false y)).1
  | 9 => some (fp32.minmaxV false (fp32.val false old) (fp32.val false y)).1
  | 10 => some (fp32.minmaxV true (fp32.val false old) (fp32.val false y)).1
  | 11 => some (Nat.min old y)
  | 12 => some (Nat.max old y)
  | 13 => some (if y ≤ old then 0 else old + 1)
  | 14 => some (if old = 0 || y < old then y else old - 1)
  | _ =>
    match op % 8 with
    | 0 => some ((old + y) % 2 ^ w)
    | 1 => some (old &&& y)
    | 2 => some (old ||| y)
    | 3 => some (old ^^^ y)
    | 4 => some (if signedOf w y < signedOf w old then y else old)
    | 5 => some (if signedOf w old < signedOf w y then y else old)
    | 6 => some y
    | _ => if old = y then some y2 else none

end Sys2Proof.Machine
end

