-- ==== Sys2Proof/Machine/Perform.lean ====
section
/-!
DEFINITION. Stores: where a store goes when it issues (spec/05_memory.md R78, R84; spec/03_execution.md R53), and how a store
that has left its split is performed at the homes, in what order (spec/11_isa_memory.md R155, R161; spec/16_memory_model.md
R241, R246), or held (R376).
-/

namespace Sys2Proof.Machine

/-- Two agents whose accesses to one byte are performed in issue order: splits of one group, or one thread (R155). -/
def Agent.sameOwner : Agent → Agent → Bool
  | .split g _, .split h _ => g == h
  | .thread t, .thread u => t == u
  | _, _ => false

/-- The page kinds that the bytes of an access lie on: 0 RC, 1 SO, 2 UO; a local window acts as RC (R241, R242). An access that
straddles pages has the kinds of each. -/
def State.kindsAt (s : State) (vi : BitVec 8) (asid : BitVec 16) (va n : Nat) : List Nat :=
  if (regionOf va n).1 = .global then (lineRuns va n 3).map (fun r => s.kindAt vi asid r.1) else [0]
/-- Every byte of an access lies on UO pages; some byte lies on an SO page (R161, R241). -/
def State.onlyUo (s : State) (x : Access) : Bool :=
  x.lanes.all (fun l => (s.kindsAt x.vi x.asid l.2.1.toNat l.2.2.length).all (· == 2))
def State.someSo (s : State) (x : Access) : Bool :=
  x.lanes.any (fun l => (s.kindsAt x.vi x.asid l.2.1.toNat l.2.2.length).contains 1)

/-- The address that an engine operation may write on another device. -/
def EngineOp.far : EngineOp → Option Nat
  | .cadd va _ => some va.toNat
  | .cset va _ => some va.toNat
  | .rcopy dst _ _ => some (dst.getD 0 0).toNat
  | _ => none
/-- An engine operation that is to write on another device (R215, R290). -/
def State.goesFar (s : State) (e : Engine) : Bool :=
  !e.xids.isEmpty || match e.op.far with
    | none => false
    | some va => match s.home e.vi e.asid va false false with
      | .remote _ _ => true
      | _ => false
/-- Every REMOTE write of the agent's stream has been acknowledged (R203, R231, R244). -/
def State.remoteQuiet (s : State) (a : Agent) (streams : BitVec 16) : Bool :=
  s.engines.all (fun e => !(e.2.agent == a && streams.getLsbD e.2.stream && s.goesFar e.2))

/-- Whether the release step of a store waits (R244: SYSTEM scope). -/
def State.releaseWaits (s : State) (x : Access) : Bool :=
  x.release && x.st.scope == 4 && !s.remoteQuiet x.agent (1 <<< x.stream)

/-- Whether bytes that stand at the given places cover a 16-byte sector whole. Log 138 (DEDUCED). -/
def coversSector (ls : List (Nat × Nat)) (q : Nat) : Bool :=
  (List.range 16).all (fun j => ls.any (fun l => decide (l.1 ≤ 16 * q + j) && decide (16 * q + j < l.1 + l.2)))
/-- The sectors of global memory that a store covers whole (R373). -/
def Access.covers (x : Access) (q : Nat) : Bool := coversSector (x.lanes.map (fun l => (l.2.1.toNat, l.2.2.length))) q
/-- The lanes of a store at their homes, in lane order; a lane that faults holds the rest (R155, R376). -/
def State.storeLanes (s : State) (x : Access) (id : Nat) (ls : List (Nat × Word × List Byte)) : State :=
  match ls with
  | [] => { s with accesses := tabDel s.accesses id }
  | (i, va, bs) :: r =>
    match lineRuns va.toNat bs.length 3 with
    | [] => s.storeLanes x id r
    | runs =>
      match runs.find? (fun n => match s.home x.vi x.asid n.1 true false with
        | .fault .. => true
        | _ => false) with
      | some n =>
        match s.home x.vi x.asid n.1 true false with
        | .fault st ipa p => s.hold { x with lanes := (i, va, bs) :: r, release := false } id n.1 st ipa p
        | _ => s
      | none =>
        (runs.foldl (fun s n =>
          let part := (bs.drop (n.1 - va.toNat)).take n.2
          let key := lineKey (s.tagAsid x.vi x.asid n.1) n.1
          if x.what = 4 then (s.putHome x.agent x.vi x.asid x.wg n.1 0 part x.bad).homeWhole key n.1 n.2 x.covers
          else
            let t := s.mergeHome x.agent x.vi x.asid x.wg n.1 0 part x.bad
            if (s.heldOn x.vi x.asid n.1).isNone then t.homeWhole key n.1 n.2 x.covers else t) s).storeLanes x id r

/-- The held line of an access leaves its slice's list (R376). -/
def State.unhold (s : State) (id : Nat) : State :=
  { s with dies := tabMap s.dies (fun _ d => { d with held := d.held.filter (fun h => h != id) }) }

/-- The release step of an access: dirty sectors of its stream go to their homes as far as its scope takes them, unless it lies
wholly on UO pages (R161, R241, R244). The answer says whether they are there. -/
def State.releaseStep (s : State) (x : Access) : State × Bool :=
  if x.release && !s.onlyUo x then
    let s := s.releaseL1 x.agent (1 <<< x.stream) x.st.scope
    (s, !s.backHeld x.agent (1 <<< x.stream) x.st.scope)
  else (s, true)
/-- A store performed at the homes (R84, R161, R241). -/
def State.storeOne (s : State) (id : Nat) : State :=
  match tabFind s.accesses id with
  | none => s
  | some x =>
    if x.via then s
    else
      let (s, ok) := s.releaseStep x
      if !ok then s
      else
        let fresh := (x.lanes.map (fun l => lineKey (s.tagAsid x.vi x.asid l.2.1.toNat) l.2.1.toNat)).filter (fun k => (s.l2 k).isNone)
        let s := (s.unhold id).storeLanes x id x.lanes
        fresh.foldl (fun s k => s.settleL2 k x.st.policy true) s

/-- Why an access is not performed. -/
inductive Stop where
  | fault (va stage ipa : Nat) (perm : Bool)
  | denied (code : BitVec 8) (va : Nat)

def Reach.toStop {α : Type} : Reach α → Stop
  | .ok _ _ => .denied 0 0
  | .fault va st i p => .fault va st i p
  | .denied c va => .denied c va
  | .remote va _ _ => .denied 0x04 va

/-- What one element of a load or atomic comes to: the bytes read, whether they are poisoned, and the lines it left. -/
inductive Got where
  | ok (s : State) (bs : List Byte) (bad : Bool)
  | stop (w : Stop)

/-- Bytes of a local window for a core: data that its L1 buffers in a region comes first (R78). -/
def State.localBytes (s : State) (a : Agent) (at_ n : Nat) : List Byte × Bool :=
  let bs := s.getBytes at_ n
  let bs := match a with
    | .split g _ => (lineRuns at_ n 3).flatMap (fun r =>
        s.overlayL1 (g / 32) (localKey r.1) r.1 ((bs.drop (r.1 - at_)).take r.2))
    | .thread _ => bs
  (bs, !(s.poisonIn at_ n).isEmpty)

/-- A line that an access has brought into its home, or brings now (R84). -/
def State.freshFor (s : State) (x : Access) (key : Nat) : Bool := (s.l2 key).isNone || x.brought.contains key
/-- One line's part of a load: a hit in the core's L1, or the home with the bytes the L1 holds laid over, filled into the L1 under
NORMAL; a control thread's at the home (R83, R84, R162, R241, R245). -/
def State.loadLine (s : State) (x : Access) (core : Option Nat) (va n : Nat) : Got :=
  let key := lineKey (s.tagAsid x.vi x.asid va) va
  match core.bind (fun c => s.readL1 c key va n), core with
  | some (bs, bad), some c => .ok (s.touchL1 c key x.stream) bs bad
  | _, _ =>
    let fresh := s.freshFor x key
    match s.home x.vi x.asid va false false with
    | .ok s =>
      let (bs, bad) := s.homeBytes key va n
      let so := match s.l2 key with
        | some l => l.kind == 1
        | none => false
      match core with
      | some c =>
        let bs := s.overlayL1 c key va bs
        let s := if x.st.policy = 0 && !so then s.fillL1 c key x.stream else s
        .ok (s.settleL2 key x.st.policy fresh) bs bad
      | none => .ok (s.settleL2 key x.st.policy fresh) bs bad
    | h => .stop (h.stop (α := Unit) va).toStop

/-- The line runs of a load element. -/
def State.loadRuns (s : State) (x : Access) (core : Option Nat) (acc : List Byte) (bad : Bool) (runs : List (Nat × Nat)) : Got :=
  match runs with
  | [] => .ok s acc bad
  | (va, n) :: r =>
    match s.loadLine x core va n with
    | .ok s bs b => s.loadRuns x core (acc ++ bs) (bad || b) r
    | w => w

/-- The lane whose private slice an element reaches: an SX block's is the one its address is formed for (R76, R159). -/
def Access.laneOf (x : Access) (i : Nat) : Option Nat :=
  if x.dest.1 != 0 then none else some (if x.dest.2.2.1 = 5 && 3 ≤ x.dest.2.2.2 then 16 * i else i)
/-- An element of a load (R78, R81, R84). -/
def State.loadElem (s : State) (x : Access) (i va n : Nat) : Got :=
  match regionOf va n with
  | (.global, _) => s.loadRuns x (match x.agent with
      | .split g _ => some (g / 32)
      | .thread _ => none) [] false (lineRuns va n 3)
  | (r, o) =>
    match s.localAt x.agent (x.laneOf i) r o n with
    | some p => .ok s (s.localBytes x.agent p n).1 (s.localBytes x.agent p n).2
    | none => .stop (.denied 0x04 va)

/-- Whether an atomic on global memory is performed in the issuing core's L1 (R164; an SO line stands in no L1, R241).
Log 19 (DEDUCED). -/
def State.atomicInL1 (s : State) (x : Access) (va : Nat) : Bool :=
  match x.agent with
  | .thread _ => false
  | .split _ _ => !s.beyondCore x.agent x.st.scope && s.kindAt x.vi x.asid va != 1

/-- An element of an atomic: the value read, and the new one stored at the place of performance; a poisoned word stays as it
was (R164 to R166, R374). -/
def State.atomicElem (s : State) (x : Access) (i va : Nat) (y y2 : List Byte) : Got :=
  let n := atomWidth x.op / 8
  let new := fun (bs : List Byte) => (atomNew x.op (ofBytes bs) (ofBytes y) (ofBytes y2)).map (fun v => toBytes v n)
  match regionOf va n with
  | (.global, _) =>
    let key := lineKey (s.tagAsid x.vi x.asid va) va
    if s.atomicInL1 x va then
      let core := x.agent.unit
      let fill := match s.readL1 core key va n with
        | some _ => Reach.ok s ()
        | none => match s.home x.vi x.asid va true false with
          | .ok s => .ok (s.fillL1 core key x.stream) ()
          | h => h.stop va
      match fill with
      | .ok s _ =>
        match s.readL1 core key va n with
        | some (bs, true) => .ok s bs true
        | some (bs, false) => match new bs with
          | some v => .ok (s.writeL1 core key va x.stream x.wg x.agent false none (fun _ => false) v) bs false
          | none => .ok s bs false
        | none => .stop (.denied 0x04 va)
      | w => .stop w.toStop
    else
      let fresh := s.freshFor x key
      match s.home x.vi x.asid va true false with
      | .ok s =>
        let s := match x.agent with
          | .split g _ => if (s.l1 (g / 32) key).isSome then s.evictL1 (g / 32) key else s
          | .thread _ => s
        let (bs, bad) := s.homeBytes key va n
        if bad then .ok s bs true
        else match new bs with
          | some v => .ok ((s.homePut key va v false).settleL2 key x.st.policy fresh) bs false
          | none => .ok (s.settleL2 key x.st.policy fresh) bs false
      | h => .stop (h.stop (α := Unit) va).toStop
  | (r, o) =>
    match s.localAt x.agent (x.laneOf i) r o n with
    | some p =>
      let bs := s.getBytes p n
      if !(s.poisonIn p n).isEmpty then .ok s bs true
      else match new bs with
        | some v => .ok (s.putBytes p v) bs false
        | none => .ok s bs false
    | none => .stop (.denied 0x04 va)

/-- The lanes of a load or atomic that have not been performed, in ascending order, up to one that cannot be (R155, R163,
R164). -/
def State.performLanes (s : State) (x : Access) (ls : List ((Nat × Word × List Byte) × List Byte)) :
    State × Access × Option Stop :=
  match ls with
  | [] => (s, x, none)
  | ((i, va, y), y2) :: r =>
    if (tabFind x.got i).isSome then s.performLanes x r
    else
      match if x.what = 2 then s.atomicElem x i va.toNat y y2 else s.loadElem x i va.toNat y.length with
      | .ok s bs bad => s.performLanes { x with got := tabPut x.got i bs, bad := x.bad || bad } r
      | .stop w => (s, x, some w)

/-- Every lane of a load or atomic has been performed. -/
def Access.performed (x : Access) : Bool := x.lanes.all (fun l => (tabFind x.got l.1).isSome)

/-- Whether a lane that is still to be performed would stop (R163). -/
def State.stopsNow (s : State) (x : Access) : Bool :=
  (x.lanes.filter (fun l => (tabFind x.got l.1).isNone)).any (fun l =>
    (regionOf l.2.1.toNat l.2.2.length).1 == .global && (lineRuns l.2.1.toNat l.2.2.length 3).any (fun r =>
      match s.home x.vi x.asid r.1 (x.what == 2) false with
      | .ok _ => false
      | _ => true))
/-- A load or atomic performed as far as it goes; an atomic with REL takes its release step with its last lane (R163, R164). -/
def State.performOne (s : State) (id : Nat) : State × Option Stop :=
  match tabFind s.accesses id with
  | none => (s, none)
  | some x =>
    let s := if x.release && !s.stopsNow x then (s.releaseStep x).1 else s
    let (s, x, w) := s.performLanes x (x.lanes.zip (x.cas ++ List.replicate x.lanes.length []))
    ({ s with accesses := tabPut s.accesses id x }, w)
/-- A write-back that the access's release waits for is held (R161, R376): none of its lanes is performed yet. -/
def State.releaseHeld (s : State) (x : Access) : Bool :=
  x.release && !s.onlyUo x && s.backHeld x.agent (1 <<< x.stream) x.st.scope

/-- An access still to be performed; one that is held is (R376). -/
def Access.open (x : Access) : Bool := x.what = 1 || x.what = 4 || ((x.what = 0 || x.what = 2) && !x.performed)

/-- Whether an earlier access of the owner that is still to be performed touches a byte of an access. -/
def State.overlaps (s : State) (a : Agent) (upto va n : Nat) : Bool :=
  s.accesses.any (fun p => p.2.agent.sameOwner a && p.2.open && p.1 < upto &&
    p.2.lanes.any (fun l => l.2.1.toNat < va + n && va < l.2.1.toNat + l.2.2.length))

/-- Whether access `id` must still wait for an earlier one (R155, R161, R164, R230, R241, R246); what follows a release of every
stream waits for every earlier one (R194, R233, R236). -/
def State.mustWait (s : State) (id : Nat) (x : Access) : Bool :=
  x.lanes.any (fun l => s.overlaps x.agent id l.2.1.toNat l.2.2.length) ||
    s.accesses.any (fun p => p.1 < id && p.2.agent == x.agent &&
      (x.what == 5 && (p.2.open || p.2.what == 5) ||
        p.2.open && (p.2.block.getLsbD x.stream && !s.onlyUo x ||
          p.2.stream == x.stream && (x.release && !s.onlyUo x && !s.onlyUo p.2 || (s.someSo p.2 && s.someSo x)))))

/-- What a store does in its core for one element; what must still go to its home is left over. -/
structure Put where
  s    : State
  left : List (Nat × Word × List Byte)

/-- The policy under which a store of global memory leaves the core; none where the L1 takes it (R84, R241). -/
def State.outPolicy (s : State) (st : Stream) (vi : BitVec 8) (asid : BitVec 16) (va : Nat) : Option (BitVec 2) :=
  if st.policy != 0 then some st.policy else if s.kindAt vi asid va = 1 then some 2 else none
/-- The sectors of storage behind a local window, by place, that a store covers whole (R373). -/
def State.coversAt (s : State) (x : Access) (q : Nat) : Bool :=
  coversSector (x.lanes.filterMap (fun l => match regionOf l.2.1.toNat l.2.2.length with
    | (.global, _) => none
    | (r, o) => (s.localAt x.agent (x.laneOf l.1) r o l.2.2.length).map (fun p => (p, l.2.2.length)))) q
/-- Sectors of storage that a store covers whole lose their poison. -/
def State.wholeBytes (s : State) (a n : Nat) (covers : Nat → Bool) : State :=
  { s with poison := s.poison.filter (fun q => !(decide (a < 16 * q + 16) && decide (16 * q < a + n) && covers q)) }
/-- One element of a store in its core (R53, R78, R84, R241): buffered in the L1 while the region buffers; into the
storage of a local window; into the L1 under NORMAL; else to its home, after the line has left the L1. A release beyond the core
goes there under every policy. -/
def State.storeElem (p : Put) (x : Access) (i va : Nat) (bs : List Byte) : Put :=
  let buffers := fun (s : State) => x.buf && (s.wg x.wg).buffers
  match regionOf va bs.length with
  | (.global, _) =>
    match x.agent with
    | .thread _ => { p with left := p.left ++ [(i, BitVec.ofNat 64 va, bs)] }
    | .split g _ =>
      let core := g / 32
      (lineRuns va bs.length 3).foldl (fun p n =>
        let part := (bs.drop (n.1 - va)).take n.2
        let key := lineKey (p.s.tagAsid x.vi x.asid n.1) n.1
        let out := p.s.outPolicy x.st x.vi x.asid n.1
        let out := if x.release && p.s.beyondCore x.agent x.st.scope then some (out.getD 0) else out
        let s := if buffers p.s || out.isNone then p.s.roomL1 core key else p.s
        if buffers s then { p with s := s.writeL1 core key n.1 x.stream x.wg x.agent true out x.covers part }
        else if out.isSome then
          { s := if (s.l1 core key).isSome then s.evictL1 core key else s
            left := p.left ++ [(i, BitVec.ofNat 64 n.1, part)] }
        else { p with s := s.writeL1 core key n.1 x.stream x.wg x.agent false none x.covers part }) p
  | (r, o) =>
    match p.s.localAt x.agent (x.laneOf i) r o bs.length with
    | none => p
    | some at_ =>
      match x.agent with
      | .split g _ =>
        if buffers p.s then
          (lineRuns at_ bs.length 3).foldl (fun p n =>
            let s := p.s.roomL1 (g / 32) (localKey n.1)
            let part := (bs.drop (n.1 - at_)).take n.2
            if buffers s then { p with s := s.writeL1 (g / 32) (localKey n.1) n.1 x.stream x.wg x.agent true none (s.coversAt x) part }
            else { p with s := (s.putBytes n.1 part).wholeBytes n.1 n.2 (s.coversAt x) }) p
        else { p with s := (p.s.putBytes at_ bs).wholeBytes at_ bs.length (p.s.coversAt x) }
      | .thread _ => { p with s := (p.s.putBytes at_ bs).wholeBytes at_ bs.length (p.s.coversAt x) }

/-- A store performed in its core; what goes to the homes is performed there later (R84, R161). -/
def State.storeVia (s : State) (id : Nat) : State :=
  match tabFind s.accesses id with
  | none => s
  | some x =>
    if !x.via then s
    else
      let (s, ok) := if x.lanes.all (fun l => (regionOf l.2.1.toNat l.2.2.length).1 == .global) && s.beyondCore x.agent x.st.scope
        then (s, true) else s.releaseStep x
      if !ok then s
      else
        let p : Put := x.lanes.foldl (fun p l => State.storeElem p x l.1 l.2.1.toNat l.2.2) { s := s, left := [] }
        if p.left.isEmpty then { p.s with accesses := tabDel p.s.accesses id }
        else ({ p.s with accesses := tabPut p.s.accesses id { x with via := false, buf := false, lanes := p.left } } : State).later 1
          (.storePerformed id .none)

/-- The first address of an access that no cache on its way holds (R85); atomics performed in the core's L1 look there too. -/
def State.missing (s : State) (x : Access) : Option Nat :=
  let runs := (x.lanes.filter (fun l => (tabFind x.got l.1).isNone)).flatMap (fun l =>
    if (regionOf l.2.1.toNat l.2.2.length).1 = .global then lineRuns l.2.1.toNat l.2.2.length 3 else [])
  (runs.find? (fun r =>
    let key := lineKey (s.tagAsid x.vi x.asid r.1) r.1
    let hit := match x.agent with
      | .split g _ => (x.what == 0 || (x.what == 2 && s.atomicInL1 x r.1)) && (s.readL1 (g / 32) key r.1 r.2).isSome
      | .thread _ => false
    !hit && (s.l2 key).isNone)).map (·.1)

/-- The pending accesses of an owner, in issue order: each that need not wait, and whose lines are
there, is performed as far as it goes. -/
def State.flushIds (s : State) (ids : List Nat) : State :=
  match ids with
  | [] => s
  | i :: r =>
    match tabFind s.accesses i with
    | none => s.flushIds r
    | some x =>
      if x.what ≥ 3 || s.mustWait i x || s.releaseWaits x then s.flushIds r
      else if x.what = 1 then
        let s := s.storeVia i
        match tabFind s.accesses i with
        | some y => if (s.missing y).isSome then s.flushIds r else (s.storeOne i).flushIds r
        | none => s.flushIds r
      else if s.releaseHeld x || (s.missing x).isSome then s.flushIds r
      else (s.performOne i).1.flushIds r
/-- The accesses that an agent and its group issued before number `upto`, performed where nothing holds them back. -/
def State.flush (s : State) (a : Agent) (upto : Nat) : State :=
  s.flushIds ((s.accesses.filter (fun p => p.2.agent.sameOwner a && p.2.what < 3 && p.1 < upto)).map (·.1))
/-- The agent's accesses before number `upto` have been performed, and what followed its releases has come about; the
write-backs of its core are at their homes (R161, R194, R376). -/
def State.quiet (s : State) (a : Agent) (upto : Nat) (streams : BitVec 16) (scope : BitVec 3) : Bool :=
  s.accesses.all (fun p => !(p.1 < upto && p.2.agent == a && (p.2.open || p.2.what == 5))) && !s.backHeld a streams scope
/-- A release of every stream at a scope, by what is not itself an access: the earlier accesses of the agent, then the dirty
sectors of its core. The answer says whether it has been performed (R161, R194, R233, R236). -/
def State.releaseEvery (s : State) (a : Agent) (upto : Nat) (scope : BitVec 3) : State × Bool :=
  let s := (s.flush a upto).releaseL1 a (BitVec.allOnes 16) scope
  (s, s.quiet a upto (BitVec.allOnes 16) scope)

/-- Earlier accesses of the same owner to a byte of an access are performed before it (R155). -/
def State.settle (s : State) (a : Agent) (upto va n : Nat) : State :=
  if s.overlaps a upto va n then s.flush a upto else s

/-- What follows a release of every stream, when that has not been performed at its issue: it comes about later (R194, R233,
R236). -/
def State.after (s : State) (a : Agent) (act : After) : State :=
  let (vi, asid) := s.ctxOf a
  let x := { Access.blank a vi asid ((s.wgOf a).getD 0) with what := 5, act := some act }
  { s with accesses := tabPut s.accesses s.nextId x, nextId := s.nextId + 1 }

end Sys2Proof.Machine
end

