-- ==== Sys2Proof/Machine/Residency.lean ====
section
/-!
DEFINITION. How residency ends: accumulator release and spills by the context engine (spec/12_isa_matrix.md R171, R186, R187;
spec/21_preemption.md R304, R308 to R312; spec/32_errors_context.md R395), the end of a group, a workgroup and a launch
(spec/03_execution.md R39, R46; spec/18_scheduling.md R263), the discard (R304) and the system trap's path (R363).
-/

namespace Sys2Proof.Machine

/-- VALID, THREAD and TAG of ACCOWNER (R172). -/
def accValid (w : Word) : Bool := w.getLsbD 2
def accThread (w : Word) : Nat := (w.extractLsb' 0 1).toNat
def accTag (w : Word) : BitVec 32 := w.extractLsb' 32 32
def accWord (tag : BitVec 32) (valid : Bool) (thread : Nat) : Word :=
  (tag ++ (0 : BitVec 29) ++ (if valid then 1#1 else 0#1) ++ (0 : BitVec 1) ++ BitVec.ofNat 1 thread : BitVec 64)
/-- The hardware tag of a context (R187). -/
def hwTag (vi : BitVec 8) (asid : BitVec 16) : BitVec 32 := BitVec.ofNat 32 (0x80000000 + 0x10000 * vi.toNat + asid.toNat)

/-- A tile of +0.0. -/
def zeroTile : List Lane := List.replicate 1024 0
def State.tile (s : State) (c n : Nat) : List Lane := tabGet (s.cluster c).acc n zeroTile
def State.setTile (s : State) (c n : Nat) (v : List Lane) (bad : Bool) : State :=
  s.modCluster c (fun k => { k with acc := tabPut k.acc n v,
                                    accPoison := if bad then n :: k.accPoison.filter (· != n) else k.accPoison.filter (· != n) })
/-- ACCREL's effect on one tile: +0.0, live bit clear (R185). -/
def State.relTile (s : State) (c n : Nat) : State :=
  s.modCluster c (fun k => { k with acc := tabDel k.acc n, accPoison := k.accPoison.filter (· != n),
                                    acclive := k.acclive &&& ~~~((1 : BitVec 128) <<< n) })
/-- The live tiles of a cluster. -/
def State.liveTiles (s : State) (c : Nat) : List Nat := (List.range 128).filter (fun n => (s.cluster c).acclive.getLsbD n)
/-- Every live tile released as ACCREL does (R186, R395). -/
def State.relAll (s : State) (c : Nat) : State := (s.liveTiles c).foldl (fun s n => s.relTile c n) s

/-- ACCOWNER holds the accumulators for the control program of a workgroup (R186). -/
def State.holdsAcc (s : State) (w : Nat) : Bool :=
  let wg := s.wg w
  match wg.ctl with
  | none => false
  | some t =>
    let o := (s.cluster (t / 2)).accowner
    accThread o == t % 2 && (accValid o || accTag o == hwTag wg.vi wg.asid)

/-- The save area of a context, where its registration stands and a frame of it passes the check of R292 (R308, R395). -/
def State.areaByte (s : State) (vi : BitVec 8) (asid : BitVec 16) (off : Nat) : Option Nat :=
  match tabFind s.mgmt.saves (ringCtx vi asid) with
  | none => none
  | some a => if hasMemory (a.pa + off) && s.fot (a.pa + off) == s.viOwner vi then some (a.pa + off) else none

/-- Bytes of a tile in the layout of R185. -/
def tileBytes (v : List Lane) : List Byte := v.flatMap (fun x => toBytes x.toNat 4)
def bytesTile (bs : List Byte) : List Lane := (List.range 1024).map (fun i => BitVec.ofNat 32 (field bs (4 * i) 4))

/-- Tiles spilled to a context's area until a write fails: the tiles that were stored, and the failing offset (R308, R395). -/
def State.spillTiles (s : State) (c : Nat) (vi : BitVec 8) (asid : BitVec 16) (ns : List Nat) (done : BitVec 128) :
    State × BitVec 128 × Option Nat :=
  match ns with
  | [] => (s, done, none)
  | n :: r =>
    match s.areaByte vi asid (0x10000 + 0x1000 * n) with
    | none => (s, done, some (0x10000 + 0x1000 * n))
    | some pa =>
      let bad := (s.cluster c).accPoison.contains n
      let s := s.putBytes pa (tileBytes (s.tile c n))
      let s := if bad then (List.range 256).foldl (fun s i => s.addPoison (pa + 16 * i)) s else s
      (s.relTile c n).spillTiles c vi asid r (done ||| (1 : BitVec 128) <<< n)

/-- The record and the consequences of a lost save: CODE 0x86 to the hypervisor's ring, tiles released, ACCOWNER 0 (R395). -/
def State.lostSave (s : State) (c : Nat) (vi : BitVec 8) (asid : BitVec 16) (off : Nat) (name : List Byte) : State :=
  let pa := match tabFind s.mgmt.saves (ringCtx vi asid) with
    | some a => a.pa + off
    | none => 0
  let s := s.report 7 1 (unitWord 10 (c / 24)) (vi, asid) pa 0 2 0x86 name
  (s.relAll c).modCluster c (fun k => { k with accowner := 0 })

/-- Every live tile spilled to an area, SPILLED written (R187, R304, R311, R312); the answer says whether the save stood. With
no tile live nothing is needed. -/
def State.spillAll (s : State) (c : Nat) (vi : BitVec 8) (asid : BitVec 16) (name : List Byte) : State × Bool :=
  match s.liveTiles c with
  | [] => (s, true)
  | ns =>
    match s.spillTiles c vi asid ns 0 with
    | (s, done, none) =>
      match s.areaByte vi asid 0x660 with
      | some pa => (s.putNum pa 16 done.toNat, true)
      | none => (s.lostSave c vi asid 0x660 name, false)
    | (s, _, some off) => (s.lostSave c vi asid off name, false)

/-- The barrier bytes of a control block (R308), and the barrier they give back. -/
def barBytes (b : Bar) : List Byte :=
  toBytes ((if b.phase then 1 else 0) + (if b.poison then 2 else 0) + (if b.opened then 4 else 0)) 1 ++
    toBytes b.expa 1 ++ toBytes b.penda.toNat 2 ++ toBytes (b.expb % 2 ^ 48).toNat 6 ++ toBytes (b.pendb % 2 ^ 48).toNat 6
def signed48 (n : Nat) : Int := if n < 2 ^ 47 then n else (n : Int) - 2 ^ 48
def bytesBar (bs : List Byte) : Bar :=
  { Bar.reset with
    phase := (field bs 0 1).testBit 0
    poison := (field bs 0 1).testBit 1
    opened := (field bs 0 1).testBit 2
    expa := field bs 1 1
    penda := field bs 2 2
    expb := signed48 (field bs 4 6)
    pendb := signed48 (field bs 10 6) }
/-- The state of a control thread that has been stopped, as a control block (R308, R309). -/
def ctlBlock (s : State) (x : Thread) : List Byte :=
  let regs := (List.range 64).flatMap (fun r => toBytes (if r = 0 then 0 else (tabGet x.s r 0).toNat) 8)
  let aw := match x.strand.park.bind (·.aw) with
    | some tok => 16 + if tok then 32 else 0
    | none => 0
  let flags := (if x.sup then 1 else 0) + (if x.strand.handler then 2 else 0) + 4 + aw
  let seq := match x.seqr with
    | none => List.replicate 32 0
    | some q => toBytes q.word.toNat 4 ++ toBytes 0 4 ++ toBytes q.geom.toNat 8 ++ toBytes q.kk 2 ++ toBytes q.ij 1 ++
        toBytes (q.cfg.toNat + 128) 1 ++ toBytes 0 12
  let bregs := match x.wg with
    | some w => (s.wg w).b
    | none => x.b
  regs ++ toBytes x.strand.pc.toNat 8 ++ toBytes flags 8 ++ toBytes x.tvec.toNat 8 ++ toBytes x.tcause.toNat 8 ++
    toBytes x.tpc.toNat 8 ++ toBytes x.tval.toNat 8 ++ toBytes x.mcfg.toNat 8 ++ toBytes x.strand.delay 8 ++
    (List.range 16).flatMap (fun n => toBytes (tabGet x.st n 0).toNat 8) ++
    (List.range 16).flatMap (fun n => (tWords x.t n).flatMap (fun v => toBytes v.toNat 8)) ++
    (List.range 16).flatMap (fun n => barBytes (tabGet bregs n Bar.reset)) ++ seq

/-- A thread that a control block gives back to a context, stopped as the save left it (R308, R309). -/
def blockThread (bs : List Byte) (vi : BitVec 8) (asid : BitVec 16) : Thread :=
  let word := fun (o : Nat) => BitVec.ofNat 64 (field bs o 8)
  let flags := field bs 0x208 8
  let q := 0x640
  { Thread.reset with
    strand := { Strand.start (word 0x200) 0 with
      handler := flags.testBit 1
      delay := field bs 0x238 4
      park := if flags.testBit 4 then
          some { mask := 0, token := none, ready := true, popped := [], aw := some (flags.testBit 5) }
        else none }
    s := (List.range 63).map (fun i => (i + 1, word (8 * (i + 1))))
    sup := flags.testBit 0
    tvec := word 0x210
    tcause := word 0x218
    tpc := word 0x220
    tval := word 0x228
    mcfg := BitVec.ofNat 2 (field bs 0x230 8)
    st := (List.range 16).map (fun n => (n, BitVec.ofNat 7 (field bs (0x240 + 8 * n) 8)))
    t := (List.range 80).map (fun i => (i, (0, word (0x2C0 + 8 * i))))
    b := (List.range 16).map (fun n => (n, bytesBar ((bs.drop (0x540 + 16 * n)).take 16)))
    seqr := if (field bs (q + 19) 1).testBit 7 then
        some { word := BitVec.ofNat 32 (field bs q 4), geom := word (q + 8), kk := field bs (q + 16) 2, ij := field bs (q + 18) 1,
               cfg := BitVec.ofNat 2 (field bs (q + 19) 1), node := none, at_ := 0 }
      else none
    ctx := some (vi, asid) }

/-- A thread after the context engine has stopped it: what waits is not issued and issues again at restore, but for a BAR.AW
whose arrival stands; a delay keeps the clks still to run, counted from 0 (R309). -/
def State.frozen (s : State) (x : Thread) : Thread :=
  { x with
    strand := { x.strand with
      delay := x.strand.delay - s.clk
      wait := none
      park := match x.strand.wait with
        | some (.barrier _ tok _ true) => some { mask := 0, token := none, ready := true, popped := [], aw := some tok }
        | _ => match x.strand.park with
          | some p => if p.ready && p.aw.isSome then some p else none
          | none => none
      kept := none }
    pend := []
    spill := false
    acc := none }

/-- ACCOWNER keeps its tag and is no longer valid for a thread that leaves its context (R186, R311). -/
def State.disown (s : State) (t : Nat) : State :=
  s.modCluster (t / 2) (fun k => { k with accowner := if accThread k.accowner = t % 2 then k.accowner &&& ~~~(4 : Word) else k.accowner })
/-- A thread holds no context any more; its bank closes (R274, R275), and a suspended control program may take it (R394). -/
def State.freeThread (s : State) (t : Nat) : State :=
  let s := match (s.thread t).ctx with
    | none => s.modThread t (fun x => { x with wg := none })
    | some _ => ((s.modThread t (fun _ => Thread.reset)).closeThread t).disown t
  match s.wgs.find? (fun p => p.2.suspended.isSome && p.2.cluster == t / 2 && !s.monarch.closed.contains p.2.vi.toNat) with
  | some (w, _) => s.first (.suspendedRestore w)
  | none => s

/-- Operations of a thread that are queued or running in its cluster's matrix unit (R174, R186). -/
def State.matBusy (s : State) (t : Nat) : Bool :=
  let c := s.cluster (t / 2)
  c.mq.any (fun q => q.2.any (fun o => o.thread == t)) || c.run.any (fun o => o.thread == t)

/-- A control context saved into the area of its context (R309, R313); where the area does not take it, the loss, and, as far as its
first frame takes it, a control block that is not valid (R308, R395). -/
def State.saveContext (s : State) (t : Nat) : State :=
  let x := s.thread t
  match x.ctx with
  | none => s
  | some (vi, asid) =>
    match s.areaByte vi asid 0 with
    | some pa => (s.putBytes pa (ctlBlock s (s.frozen x))).freeThread t
    | none => (s.lostSave (t / 2) vi asid 0 (s.joined (.thread t))).freeThread t
/-- The tiles of a context that a switch to another virtual interface would move are spilled to its area, and it is saved (R311,
R313): a lost spill leaves a block with VALID 0 and SAVE_LOST 1 (R395). -/
def State.sliceOut (s : State) (t : Nat) : State :=
  let x := s.thread t
  let (vi, asid) := x.ctx.getD (0, 0)
  let o := (s.cluster (t / 2)).accowner
  if x.ctx.isSome && accThread o == t % 2 && accTag o == hwTag vi asid then
    match s.spillAll (t / 2) vi asid (s.joined (.thread t)) with
    | (s, true) => (s.modCluster (t / 2) (fun k => { k with accowner := 0 })).saveContext t
    | (s, false) =>
      let s := match s.areaByte vi asid 0 with
        | some pa => (s.putBytes pa (ctlBlock s (s.frozen x))).putNum (pa + 0x208) 8 8
        | none => s
      s.freeThread t
  else s.saveContext t

/-- Queues that the workgroup's set names are emptied when no other resident workgroup of the cluster names them (R232). -/
def queueSet (r : List Byte) : List Nat :=
  ((List.range 8).map (fun q => field r (0xC0 + q) 1)).filterMap (fun b => if b < 128 then none else some (b % 32))
def State.emptyQueues (s : State) (w : Nat) : State :=
  let c := (s.wg w).cluster
  let mine := queueSet (s.record w)
  let others := (s.wgs.filter (fun p => p.1 != w && p.2.cluster == c)).flatMap (fun p => queueSet (s.record p.1))
  s.modCluster c (fun k => { k with queue := k.queue.filter (fun q => others.contains q.1 || !mine.contains q.1) })

/-- Held pops of a discarded workgroup return to the head of their queues, as they were popped (R233). Log 106 (DEDUCED). -/
def State.returnHeld (s : State) (w : Nat) : State :=
  s.modCluster (s.wg w).cluster (fun k => { k with queue := tabMap k.queue (fun _ q =>
    (sortBy (fun x y => decide ((x.held.getD (0, 0)).2 < (y.held.getD (0, 0)).2)) (q.filter (fun e => e.holder == some w))).map
      (fun e => { e with held := none }) ++ q.filter (fun e => e.holder != some w)) })

/-- A split ends or leaves: its draw still counts in the window (R64); where it has a STACK trap that it has not taken, the record
is written (R369). -/
def State.stackLost (s : State) (g : Nat) (p : Nat × Split) : State :=
  let a := Agent.split g p.1
  let x : Ended := { slot := g % 32, split := p.1, draw := p.2.draw, next := p.2.drawNext, vi := (s.ctxOf a).1, asid := (s.ctxOf a).2,
                     pc := p.2.strand.pc, name := s.joined a }
  let s := if x.draw + x.next = 0 then s else s.modCore (g / 32) (fun c => { c with ended := c.ended ++ [x] })
  if p.2.strand.traps.any (fun t => t.1 == 0x09) then
    s.report 1 1 (unitWord 0 (g / 32)) (s.ctxOf a) p.2.strand.pc.toNat 0 1 0x09 (s.joined a)
  else s
/-- The groups of a workgroup leave their cores: GSTALL banks are kept, banks close (R275, R280). -/
def State.dropGroups (s : State) (w : Nat) : State :=
  let wg := s.wg w
  let s := (List.range wg.groups.length).foldl (fun s i =>
    match wg.groups.getD i none with
    | none => s
    | some g =>
      let bank := (s.group g).gstall
      let s := (s.group g).splits.foldl (fun s p => s.stackLost g p) s
      let s := s.modWg w (fun x => { x with stalls := tabPut x.stalls i bank, groups := x.groups.set i none })
      { s with groups := tabDel s.groups g
               allocs := s.allocs.filter (fun a => !(a.2.2.2.1 == 0 && a.2.2.2.2 == g)) }) s
  wg.cores.foldl (fun s c => s.leaveCore c wg.vi wg.asid) s

/-- The unit of level `n` that a workgroup's flat number lies in (R42): the count of workgroups in one such unit divides it. -/
def unitOfLevel (r : List Byte) (n num : Nat) : Nat :=
  num / ((List.range (n - 1)).map (fun i => recExtent r (i + 1))).foldl (· * ·) 1

/-- The unit number of storage that a reservation of a graph holds while no workgroup uses it (R49). -/
def ghostUnit : Nat := 2 ^ 40
/-- The reservation that a workgroup uses: its graph and node (R49). Log 62 (DEDUCED). -/
def State.resvOf (s : State) (w : Nat) : Option (Nat × Nat) :=
  match (s.launch (s.wg w).launch).graph with
  | none => none
  | some (gid, n) =>
    match tabFind s.monarch.graphs gid with
    | none => none
    | some g =>
      match tabFind g.resv n with
      | some (_, _, some x) => if x = w then some (gid, n) else none
      | _ => none

/-- Allocations of level units whose last workgroup has ended are freed (R43): none of the unit is placed, waiting or still to
place. -/
def State.freeUnits (s : State) (w : Nat) : State :=
  let wg := s.wg w
  let l := s.launch wg.launch
  let left := fun (n u : Nat) =>
    s.wgs.any (fun p => p.1 != w && p.2.launch == wg.launch && unitOfLevel l.record n p.2.num == u) ||
      l.wait.any (fun p => unitOfLevel l.record n p.1 == u) ||
      (!l.dead && decide (u * ((List.range (n - 1)).map (fun i => recExtent l.record (i + 1))).foldl (· * ·) 1 +
        ((List.range (n - 1)).map (fun i => recExtent l.record (i + 1))).foldl (· * ·) 1 > l.next))
  let gone := fun (a : Nat × Nat × Nat × Nat × Nat) => a.2.2.1 == wg.launch && a.2.2.2.1 != 0 &&
    a.2.2.2.2 == unitOfLevel l.record a.2.2.2.1 wg.num && !left a.2.2.2.1 a.2.2.2.2
  match s.resvOf w with
  | none => { s with allocs := s.allocs.filter (fun a => !gone a) }
  | some (gid, n) =>
    let back := fun (x : Nat × Nat × Option Nat) => ((x.1, x.2.1, none) : Nat × Nat × Option Nat)
    { s with
      allocs := s.allocs.map (fun a => if gone a then (a.1, a.2.1, a.2.2.1, a.2.2.2.1, ghostUnit) else a)
      monarch := { s.monarch with graphs := tabMod s.monarch.graphs gid (fun g => { g with resv := tabMod g.resv n back }) } }

/-- The completion object of a launch or graph: WGS, ENDTIME, RECORD, then STATE 1 (R263); Monarch then checks what waits on
completion objects. -/
def State.complete (s : State) (vi : BitVec 8) (asid : BitVec 16) (done wgs : Nat) (record : Word) : State :=
  let s := if done = 0 then s
    else
      let s := s.writeOwn .device vi asid 0 (done + 4) (toBytes wgs 4 ++ toBytes s.time 8 ++ toBytes record.toNat 8)
      s.writeOwn .device vi asid 0 done (toBytes 1 4)
  s.soon .eligibilityCheck

/-- Workgroups of a launch in all (R42). -/
def launchSize (r : List Byte) : Nat := ((List.range 7).map (fun i => recExtent r (i + 1))).foldl (· * ·) 1

/-- Records of a context still wait for its ring: what a completion object follows is not all written (R263, R281). -/
def State.recordsHeld (s : State) (vi : BitVec 8) (asid : BitVec 16) : Bool := s.ringPend (ringCtx vi asid) != []
/-- Written-back lines of a launch's workgroups are held at their homes (R263, R376). -/
def State.linesHeld (s : State) (k : Nat) : Bool := (s.launch k).held.any (fun id => (tabFind s.accesses id).isSome)
/-- A launch ends: it writes its completion object, once the exit records of its workgroups stand in their ring and what they wrote
stands at its homes, and completes the command-graph node that submitted it; a node kernel's workgroups end with their graph (R46, R48, R206, R263, R281, R387). -/
def State.endLaunch (s : State) (k : Nat) : State :=
  let l := s.launch k
  match l.graph with
  | some _ => s
  | none =>
    let s := s.flushRing (ringCtx l.vi l.asid)
    if s.recordsHeld l.vi l.asid || s.linesHeld k then s.modLaunch k (fun l => { l with ending := true })
    else
      let s := match l.node with
        | some (c, n) =>
          (s.modCluster c (fun x => { x with node := tabMod x.node n (fun y => { y with
            error := if y.error = 0 then l.error else y.error }) })).soon (.nodeComplete c n)
        | none => s
      let s := s.complete l.vi l.asid (field l.record 0x18 8) l.ended l.error
      { s with monarch := { s.monarch with launches := tabDel s.monarch.launches k } }

/-- A graph ends with the RECORD of its completion object, in the same way (R48, R263, R281). -/
def State.endGraph (s : State) (gid : Nat) (record : Word) : State :=
  match tabFind s.monarch.graphs gid with
  | none => s
  | some g =>
    let mine := g.launches.map (·.2)
    let s := s.flushRing (ringCtx g.vi g.asid)
    if s.recordsHeld g.vi g.asid || mine.any s.linesHeld then
      { s with monarch := { s.monarch with graphs := tabMod s.monarch.graphs gid (fun g => { g with ending := some record }) } }
    else
      let record := if record = 0 then ((mine.map (fun k => (s.launch k).error)).find? (· != 0)).getD 0 else record
      let s := s.complete g.vi g.asid (field g.record 0x18 8) g.ended record
      { s with
        allocs := s.allocs.filter (fun a => !mine.contains a.2.2.1)
        monarch := { s.monarch with graphs := tabDel s.monarch.graphs gid,
                                    launches := s.monarch.launches.filter (fun p => !mine.contains p.1) } }
/-- Launches and graphs whose last records have found their ring, and whose held lines have been served, end. -/
def State.endHeld (s : State) : State :=
  let s := ((s.monarch.launches.filter (fun l => l.2.ending)).map Prod.fst).foldl State.endLaunch s
  (s.monarch.graphs.filterMap (fun g => g.2.ending.map (fun r => (g.1, r)))).foldl (fun s g => s.endGraph g.1 g.2) s

/-- A graph ends when every queue is empty and none of its workgroups remains (R48). -/
def State.graphCheck (s : State) (gid : Nat) : State :=
  match tabFind s.monarch.graphs gid with
  | none => s
  | some g =>
    let mine := g.launches.map (·.2)
    let busy := s.wgs.any (fun p => mine.contains p.2.launch) ||
      mine.any (fun k => (s.launch k).next < (s.launch k).batches.length || !(s.launch k).wait.isEmpty)
    if !g.active || g.ending.isSome || busy || g.queues.any (fun q => !q.2.isEmpty) || g.spilled.any (fun q => q.2.2 != 0) then s else s.endGraph gid 0

/-- A workgroup's residency is freed: slots, storage, control thread (R46, R265). -/
def State.freeWg (s : State) (w : Nat) : State :=
  let wg := s.wg w
  let s := s.dropGroups w
  let s := s.freeUnits w
  let s := match wg.ctl with
    | some t => s.freeThread t
    | none => s
  { s with wgs := tabDel s.wgs w }

/-- The accesses that a workgroup's agents still have under way are performed, in issue order; a store goes on to its home. -/
def State.performWg (s : State) (w : Nat) (which : Agent → Bool) : State :=
  (s.accesses.filter (fun p => p.2.wg == w && p.2.what < 3 && which p.2.agent)).foldl (fun s p =>
    if p.2.what = 1 then (s.storeVia p.1).storeOne p.1 else (s.performOne p.1).1) s
/-- Accesses that the agents of a workgroup still have under way are performed; every dirty sector that its groups made goes to its
home, whoever wrote to it last (R46). -/
def State.drainWg (s : State) (w : Nat) : State :=
  let s := s.performWg w (fun _ => true)
  (s.wg w).cores.foldl (fun s c => s.backWhere c (fun _ x => x.wgs.contains w)) s

/-- The launch of a workgroup that ends waits for its held lines (R263, R376). -/
def State.noteHeld (s : State) (w : Nat) : State :=
  let ids := (s.accesses.filter (fun p => p.2.wg == w && p.2.what == 4)).map (·.1)
  s.modLaunch (s.wg w).launch (fun l => { l with held := l.held ++ ids })
/-- The end of a workgroup: commit, write-back, exit record, accumulators, residency, and its part in the launch (R46, R186,
R228, R263). -/
def State.endWg (s : State) (w : Nat) : State :=
  let wg := s.wg w
  let s := if wg.buffers then (s.commitStores w).traceWg w 1 wg.resume else s
  let s := (s.drainWg w).noteHeld w
  let s := s.exitRecord w
  let s := s.traceWg w 4 wg.resume
  let s := if s.holdsAcc w then
      (s.relAll wg.cluster).modCluster wg.cluster (fun k => { k with accowner := k.accowner &&& ~~~(4 : Word) })
    else s
  let s := (s.emptyQueues w).freeWg w
  let s := s.modLaunch wg.launch (fun l => { l with ended := l.ended + 1 })
  let l := s.launch wg.launch
  match l.graph with
  | some (gid, _) =>
    let s := { s with monarch := { s.monarch with
      graphs := tabMod s.monarch.graphs gid (fun g => { g with ended := g.ended + 1 }) } }
    (s.soon .eligibilityCheck).graphCheck gid
  | none => if l.ended = launchSize l.record then s.endLaunch wg.launch else s

/-- An engine operation of the workgroup is under way. -/
def State.enginesOf (s : State) (w : Nat) : Bool := s.engines.any (fun e => e.2.wg == some w)

/-- A workgroup whose last group has ended, whose control program has exited and whose engines have posted ends (R46).
Log 21 (DEDUCED). -/
def State.wgCheck (s : State) (w : Nat) : State :=
  match tabFind s.wgs w with
  | none => s
  | some x =>
    if x.groups.all (·.isNone) && (x.ctl.isNone || x.ctlDone) && !s.enginesOf w && x.discard.isNone && !x.dead then s.endWg w
    else s

/-- The groups and the control program of a workgroup, a suspended one too, stop before their next sequences, or go on (R283).
Log 61 (DEDUCED). -/
def State.setStopped (s : State) (w : Nat) (b : Bool) : State :=
  let wg := s.wg w
  let s := (wg.groups.filterMap id).foldl (fun s g => s.modGroup g (fun x => { x with
    splits := tabMap x.splits (fun _ y => { y with strand := { y.strand with stopped := b } }) })) s
  let s := s.modWg w (fun x => { x with suspended := x.suspended.map (fun y => { y with strand := { y.strand with stopped := b } }) })
  match wg.ctl with
  | some t => s.modThread t (fun x => { x with strand := { x.strand with stopped := b } })
  | none => s
/-- A workgroup stops at a sequence boundary; it is stopped until a replay (R283). -/
def State.stopWg (s : State) (w : Nat) (pc : Word) : State :=
  ((s.modWg w (fun x => { x with stopped := true })).setStopped w true).traceWg w 5 pc

/-- After a REGION the groups and the control program of a workgroup see all its descriptor writes (R198). -/
def State.shareViews (s : State) (w : Nat) : State :=
  let wg := s.wg w
  let as_ := (wg.groups.filterMap id).map (fun g => Agent.split g 0) ++ (wg.ctl.map Agent.thread).toList
  let all := as_.foldl (fun v a => mergeViews v (s.tview a)) []
  as_.foldl (fun s a => s.setTview a all) s
/-- The collective step of REGION and RCLOSE, once every live group has arrived (R52, R235): the commit, and the region that
opens with its resume PC and live masks, and the descriptors that all see then (R198). Waiters go on in the next clk. -/
def State.regionCheck (s : State) (w : Nat) : State :=
  let wg := s.wg w
  let live := (List.range wg.groups.length).filter (fun i => (wg.groups.getD i none).isSome)
  if wg.arrived = [] || live.any (fun i => !wg.arrived.contains i) then s
  else
    let s := if wg.buffers then (s.commitStores w).traceWg w 1 wg.resume else s.commitStores w
    let s := s.modWg w (fun x => { x with
      resume := wg.nextPc
      buffers := wg.nextBuffers
      arrived := []
      live := wg.groups.map (fun g => match g with
        | some k => ((s.group k).splits.map (fun y => y.2.ex)).foldl (fun m e => m ||| e) 0
        | none => 0) })
    let s := s.shareViews w
    if wg.stopped && wg.nextBuffers then s.stopWg w wg.nextPc else s

/-- A group ends: its GSTALL bank stays with the workgroup (R46, R280). The end of the last group commits the open region (R228). -/
def State.endGroup (s : State) (g : Nat) : State :=
  let x := s.group g
  let s := s.modWg x.wg (fun w => { w with stalls := tabPut w.stalls x.idx x.gstall, groups := w.groups.set x.idx none })
  let s := { s with groups := tabDel s.groups g, allocs := s.allocs.filter (fun a => !(a.2.2.2.1 == 0 && a.2.2.2.2 == g)) }
  let s := (s.leaveCore (g / 32) (s.wg x.wg).vi (s.wg x.wg).asid).regionCheck x.wg
  (if (s.wg x.wg).groups.all (·.isNone) then s.commitRegion x.wg else s).wgCheck x.wg

/-- A split ends: every record in another split that names it is marked ended; the group ends with its last lane (R39, R46,
R128), or with its last split where lanes that a write of EXEC has put out of it never execute EXIT. Log 128 (DESIGN CHOICE). -/
def State.endSplit (s : State) (g k : Nat) : State :=
  let s := s.stackLost g (k, s.splitOf g k)
  let s := s.modGroup g (fun x => { x with splits := tabMap (tabDel x.splits k) (fun _ y => { y with
    nest := y.nest.map (fun n => match n with
      | .link j sib f e => .link j sib f (e || sib == k)
      | p => p) }) })
  if (s.group g).retired = allOnes96 || (s.group g).splits = [] then s.endGroup g else s

/-- Region-dirty data of a workgroup is dropped, with the stores of the region that are still to be performed (R251, R304). -/
def State.dropRegion (s : State) (w : Nat) : State :=
  let s := (s.wg w).cores.foldl (fun s c => s.mapL1 c (fun _ _ x => some (x.mapRegion w (fun _ => none)))) s
  { s with accesses := s.accesses.filter (fun p => !(p.2.wg == w && p.2.what == 1 && p.2.buf)) }

/-- The discard of a workgroup begins (R303, R304): for four clks the cores that hold its groups issue nothing; its region-dirty lines
are dropped and its held pops return; the rest follows from the fifth clk. What its groups still have under way is performed; the
control program goes on. -/
def State.discard (s : State) (w : Nat) : State :=
  let wg := s.wg w
  let own := fun (a : Agent) => !a.isThread
  let s := s.dropRegion w
  let s := s.returnHeld w
  let s := s.modWg w (fun x => { x with discard := some (s.clk + 4), preempt := false, grace := none })
  let s := wg.liveCores.foldl (fun s c => s.modCore c (fun k => { k with discard := some (s.clk + 4, w) })) s
  let s := s.performWg w own
  let s := { s with accesses := s.accesses.filter (fun p =>
    !(p.2.wg == w && own p.2.agent && (p.2.what == 0 || p.2.what == 2))) }
  let s := s.traceWg w 2 wg.resume
  s.inClk 4 (.discardComplete w)

/-- The path of a system trap in a launch (R363): each placed workgroup stops, drops its region, writes its exit record, writes
its dirty sectors back and leaves; the launch places nothing more and completes with the record. -/
def State.killWg (s : State) (w : Nat) : State :=
  let wg := s.wg w
  let s := s.modWg w (fun x => { x with dead := true, buffers := false })
  let s := s.dropRegion w
  let s := s.returnHeld w
  let s := s.exitRecord w
  let s := s.traceWg w 4 wg.resume
  let s := s.drainWg w
  let s := ({ s with accesses := s.accesses.filter (fun p => p.2.wg != w || p.2.what == 4) } : State).noteHeld w
  let s := { s with engines := tabMap s.engines (fun _ e => if e.wg == some w then { e with wg := none } else e) }
  let rest := fun (_ : Nat) (f : FaultRec) => { f with splits := f.splits.filter (fun a => s.wgOf a.1 != some w) }
  let s := { s with faults := tabMap s.faults rest }
  let s := if s.holdsAcc w then
      (s.relAll wg.cluster).modCluster wg.cluster (fun k => { k with accowner := k.accowner &&& ~~~(4 : Word) })
    else s
  ((s.emptyQueues w).freeWg w).modLaunch wg.launch (fun l => { l with ended := l.ended + 1 })

/-- A launch is ended by an error: every placed workgroup in the same way, then its completion object (R363). -/
def State.killLaunch (s : State) (k : Nat) (record : Word) : State :=
  let s := s.modLaunch k (fun l => { l with dead := true, error := if l.error = 0 then record else l.error, wait := [] })
  let mine := (s.wgs.filter (fun p => p.2.launch == k)).map (·.1)
  let s := mine.foldl State.killWg s
  let l := s.launch k
  match l.graph with
  | none => s.endLaunch k
  | some (gid, _) =>
    match tabFind s.monarch.graphs gid with
    | none => s
    | some g =>
      let s := (g.launches.map (·.2)).foldl (fun s j =>
        ((s.wgs.filter (fun p => p.2.launch == j)).map (·.1)).foldl State.killWg s) s
      s.endGraph gid record

end Sys2Proof.Machine
end

