-- ==== Sys2Proof/Machine/Ops.lean ====
section
/-!
DEFINITION. What every sequence shares: taking a trap and returning from one (spec/00_scope.md R3, spec/07_assembly.md R108,
spec/29_errors_execution.md R358 to R363), queue ports (R105, R232, R233), the waits before an issue (R118, R154, R266, R270),
the draw of an issue (spec/04_stacks.md R59, R60), its charge (R272, R273), and what an issue leaves.
-/

namespace Sys2Proof.Machine

/-- The class of a trap's record; 0 for None (R359). -/
def trapClass (code : BitVec 8) : Nat :=
  if code = 0x01 || code = 0x02 || code = 0x03 || code = 0x09 || code = 0x0B || code = 0x0C || code = 0x11 || code = 0x12 then 1
  else if 0x04 ≤ code.toNat && code.toNat ≤ 0x07 then 3
  else if code = 0x08 || code = 0x10 then 2
  else 0
/-- Codes that are system traps wherever they are taken (R374, R376, R378, R363). -/
def alwaysSystem (code : BitVec 8) : Bool := code = 0x05 || code = 0x07 || code = 0x08
/-- TVAL of an ILLEGAL trap: subcode in [63:56], value in [47:0] (R360). -/
def illegalVal (sub : Nat) (v : Nat) : Word := BitVec.ofNat 64 (sub * 2 ^ 56 + v % 2 ^ 48)

/-- UNIT of an agent's core (R355). -/
def Agent.unitWord : Agent → Nat
  | .split g _ => Sys2Proof.Machine.unitWord 0 (g / 32)
  | .thread t => Sys2Proof.Machine.unitWord 1 (t / 2)

/-- The unit on which an agent is still to try. -/
def Turn.runsOn : Turn → Option Nat
  | .run a => some a.unit
  | _ => none

/-- The slot of the agent's unit is used: no other sequence issues there in this clk; a control core's turn passes to the other
thread (R267, R269, R272). -/
def State.useSlot (s : State) (a : Agent) (pc : Word) (c : Cause) : State :=
  let (vi, asid) := s.ctxOf a
  let s := s.charge a.unit vi asid pc c (some a) (s.wgOf a)
  let s := s.modUnit a.unit (fun u => { u with issued := true })
  let s := s.modStrand a (fun x => { x with last := s.clk, why := .issue, queued := false })
  let s := { s with turn := s.turn.filter (fun b => b.runsOn != some a.unit) }
  match a with
  | .split g _ => s.modCore (g / 32) (fun k => { k with lastIssue := some s.clk })
  | .thread t => s.modCluster (t / 2) (fun k => { k with turn := t % 2 == 0 })

/-- An agent that did not issue at its attempt, and why. -/
def State.block (s : State) (a : Agent) (c : Cause) : State :=
  s.modStrand a (fun x => { x with why := c })

/-- A trap has to wait: another split of the agent's group is in its handler, or a lower one has waited as long (R108). -/
def State.trapWaits (s : State) : Agent → Bool
  | .split g k => (s.group g).splits.any (fun p => p.1 != k && (p.2.strand.handler ||
      ((s.splitOf g k).strand.queued && p.2.strand.queued && decide (p.1 < k))))
  | .thread _ => false
/-- It waits, charged to TRAP (R108). -/
def State.awaitTrap (s : State) (a : Agent) : State := s.modStrand a (fun x => { x with why := .trap, queued := true })

/-- Control thread in supervisor privilege. -/
def State.sup (s : State) : Agent → Bool
  | .split _ _ => false
  | .thread t => (s.thread t).sup

/-- A system trap (R363): the record, its copy for the hypervisor, and the end of the launch; another context of a control
thread is saved, its control block marked with the record's SEQ in TVAL. -/
def State.systemTrap (s : State) (a : Agent) (code : BitVec 8) (pc : Word) : State :=
  let cls := if trapClass code = 0 then 1 else trapClass code
  let word := s.nextRecord code.toNat cls
  let seq := s.mgmt.errSeq
  let s := s.report cls 1 a.unitWord (s.ctxOf a) pc.toNat 0 1 code.toNat (s.joined a)
  match s.wgOf a with
  | some w => s.killLaunch (s.wg w).launch word
  | none => match a with
    | .thread t => (s.modThread t (fun x => { x with tval := seq.setWidth 64 })).saveContext t
    | .split _ _ => s

/-- The context engine answers ACCOWN of a thread, or makes it a system trap (R187). -/
def State.engineAnswers (s : State) (t : Nat) : Bool :=
  let o := (s.cluster (t / 2)).accowner
  let (vi, asid) := s.ctxOf (.thread t)
  (accTag o = hwTag vi asid && accThread o = t % 2) || (accTag o).getLsbD 31 || (s.liveTiles (t / 2)) = []
/-- It needs to move a tile: what is queued or runs on the tiles comes first (R175). -/
def State.engineMoves (s : State) (t : Nat) : Bool :=
  let o := (s.cluster (t / 2)).accowner
  let (vi, asid) := s.ctxOf (.thread t)
  !(accTag o = hwTag vi asid && accThread o = t % 2)
/-- What the context engine does in place of a supervisor (R187). After a step that takes R395's course the later ones still run.
Log 120 (DESIGN CHOICE). -/
def State.engineOwner (s : State) (t : Nat) : State :=
  let c := t / 2
  let o := (s.cluster c).accowner
  let (vi, asid) := s.ctxOf (.thread t)
  let mine := hwTag vi asid
  let set := fun (s : State) => s.modCluster c (fun k => { k with accowner := accWord mine true (t % 2) })
  if !s.engineMoves t then s.modCluster c (fun k => { k with accowner := accWord (accTag o) true (t % 2) })
  else
    let ovi := (accTag o).extractLsb' 16 8
    let oas := (accTag o).extractLsb' 0 16
    let (s, _) := s.spillAll c ovi oas (s.joined (.thread t))
    match s.areaByte vi asid 0x660 with
    | none => set s
    | some pa =>
      let mask := s.getNum pa 16
      let ns := (List.range 128).filter (fun n => mask.testBit n)
      match ns.find? (fun n => (s.areaByte vi asid (0x10000 + 0x1000 * n)).isNone) with
      | some n => set (s.lostSave c vi asid (0x10000 + 0x1000 * n) (s.joined (.thread t)))
      | none =>
        let s := ns.foldl (fun s n =>
          match s.areaByte vi asid (0x10000 + 0x1000 * n) with
          | some p => (s.setTile c n (bytesTile (s.getBytes p 4096)) (!(s.poisonIn p 4096).isEmpty)).modCluster c
              (fun k => { k with acclive := k.acclive ||| (1 : BitVec 128) <<< n })
          | none => s) s
        set (if mask = 0 then s else s.putNum pa 16 0)

/-- TAKING A TRAP (R3, R108, R226, R358, R363). The agent's sequence has no effect; its slot is charged TRAP; TCAUSE, TVAL and
TPC are written, the agent is in its handler, a control thread enters supervisor privilege, and the agent continues at TVEC. A
split whose sibling is in its handler waits. Without a usable handler the trap, its registers written (R3), is a system trap; ACCOWN
of a user thread without a handler is the context engine's and writes none (R187). `system`: a rule makes this one a system trap. -/
def State.takeTrapAs (s : State) (a : Agent) (system : Bool) (code : BitVec 8) (val : Word) : State :=
  let x := s.strand a
  let pc := x.pc
  if s.trapWaits a then s.awaitTrap a
  else
    let s := s.useSlot a pc .trap
    let s := s.traceOf a 0 code.toNat pc
    let engine := code = 0x0A && a.isThread && !s.sup a && s.tvec a = 0
    if engine then
      if s.engineAnswers a.threadNo then s.modStrand a (fun x => { x with wait := some (.owner none) })
      else (s.setTrap a (code.setWidth 64) pc val).systemTrap a code pc
    else if system || alwaysSystem code || s.tvec a = 0 || x.handler || s.sup a then
      (s.setTrap a (code.setWidth 64) pc val).systemTrap a code pc
    else
      let s := if trapClass code = 0 then s
        else s.report (trapClass code) 1 a.unitWord (s.ctxOf a) pc.toNat 0 1 code.toNat (s.joined a)
      let s := s.setTrap a (code.setWidth 64) pc val
      let s := s.modStrand a (fun x => { x with
        pc := s.tvec a &&& ~~~(1 : Word), handler := true, park := none
        kept := match x.park with
          | some p => some (pc, p)
          | none => x.kept })
      match a with
      | .split _ _ => s
      | .thread t => s.modThread t (fun x => { x with sup := true })

def State.takeTrap (s : State) (a : Agent) (code : BitVec 8) (val : Word) : State := s.takeTrapAs a false code val

/-- RETURNING FROM A TRAP (R226, R358): PC := TPC, the handler ends, a control thread enters user privilege; lanes that were
kept of the sequence at TPC are the ones it replays, with what its ports had popped. Log 27 (DEDUCED). -/
def State.returnTrap (s : State) (a : Agent) : State :=
  let pc := s.tpc a &&& ~~~(1 : Word)
  let s := s.modStrand a (fun x => { x with
    pc := pc, handler := false
    park := match x.kept with
      | some (p, k) => if p = pc then some { k with token := none, ready := true } else none
      | none => none
    kept := none })
  match a with
  | .split _ _ => s
  | .thread t => s.modThread t (fun x => { x with sup := false })

/-- A port register (R105). -/
def isPort (r : Nat) : Bool := 48 ≤ r && r ≤ 55
/-- The hardware queue a port is bound to (R105). -/
def State.boundQueue (s : State) (a : Agent) (r : Nat) : Option Nat :=
  match a with
  | .split g _ => (tabFind (s.group g).port (r - 48)).map BitVec.toNat
  | .thread t => (tabFind (s.thread t).port (r - 48)).map BitVec.toNat
def State.queue (s : State) (c q : Nat) : List QEntry := tabGet (s.cluster c).queue q []
def State.setQueue (s : State) (c q : Nat) (l : List QEntry) : State :=
  s.modCluster c (fun k => { k with queue := tabPut k.queue q l })
/-- The first poppable entry of a port's queue (R233). -/
def State.front (s : State) (a : Agent) (r : Nat) : Option Word :=
  match s.boundQueue a r with
  | none => none
  | some q => ((s.queue a.cluster q).find? (fun e => e.held.isNone)).map (·.val)
/-- A pop: an acquire of every stream at DIE scope; inside an open region of a discardable workgroup the entry is held until
the commit (R233). -/
def State.pop (s : State) (a : Agent) (r : Nat) : State :=
  match s.boundQueue a r with
  | none => s
  | some q =>
    let keep := match a with
      | .split g _ => if (s.wg (s.group g).wg).buffers then some (s.group g).wg else none
      | .thread _ => none
    let es := s.queue a.cluster q
    let number := (es.map (fun e => (e.held.getD (0, 0)).2)).foldl Nat.max 0 + 1
    let rec take : List QEntry → List QEntry
      | [] => []
      | e :: rest => if e.held.isNone then (match keep with
          | some w => { e with held := some (w, number) } :: rest
          | none => rest) else e :: take rest
    let s := s.setQueue a.cluster q (take es)
    match a with
    | .split g _ => s.invalidate (g / 32) (BitVec.allOnes 16)
    | .thread _ => s
/-- The ports of a sequence pop one after the other, in the order of its operands; none where one finds nothing (R105).
Log 18 (DESIGN CHOICE). -/
def State.popAll (s : State) (a : Agent) (ports : List Nat) : Option (State × List (Nat × Word)) :=
  match ports with
  | [] => some (s, [])
  | r :: rest =>
    match s.front a r with
    | none => none
    | some v => ((s.pop a r).popAll a rest).map (fun p => (p.1, (r, v) :: p.2))
/-- Pushes to a queue whose release has not been performed, or whose value is still to come. -/
def State.pushing (s : State) (c q : Nat) : Nat :=
  (s.accesses.filter (fun x => match x.2.act with
    | some (.push d p _) => d == c && p == q
    | _ => false)).length
/-- Room for a push through each of several ports, of 16 entries (R232). -/
def State.roomFor (s : State) (a : Agent) (ports : List Nat) : Bool :=
  ports.all (fun r => match s.boundQueue a r with
    | none => false
    | some q => decide ((s.queue a.cluster q).length + s.pushing a.cluster q +
        (ports.filter (fun p => s.boundQueue a p == some q)).length ≤ 16))
/-- An entry at the end of a queue. -/
def State.pushEntry (s : State) (c q : Nat) (v : Word) : State := s.setQueue c q (s.queue c q ++ [{ val := v, held := none }])
/-- A push: a release of every stream at DIE scope, and once it has been performed the entry; the pushes of one split enter in
issue order (R233). -/
def State.push (s : State) (a : Agent) (r : Nat) (v : Word) : State :=
  match s.boundQueue a r with
  | none => s
  | some q =>
    let (s, ok) := s.releaseEvery a s.nextId 2
    if ok then s.pushEntry a.cluster q v else s.after a (.push a.cluster q (some v))

/-- A scalar destination written: a port pushes (R105). -/
def State.sset (s : State) (a : Agent) (r : Nat) (v : Word) : State := if isPort r then s.push a r v else s.sput a r v

/-- Draw classes (R59). -/
inductive Draw where
  | none | scalar | vint | vfp | fma | sfu | mem | burn (n : Nat)
deriving DecidableEq, Repr

/-- The du of a beat with `a` active lanes (R59). -/
def Draw.beat (d : Draw) (a : Nat) : Nat :=
  if a = 0 then 0
  else match d with
    | .vint => 1 + a / 8
    | .vfp => 2 + a / 4
    | .fma => 2 + a / 2
    | .sfu => 3 + a / 2
    | .mem => 2 + a / 4
    | _ => 0
/-- Active lanes of a beat. -/
def beatLanes (m : Mask) (b : Nat) : Nat := popc (m.extractLsb' (32 * b) 32)
/-- The du an issue adds to the window of its clk and to the next: beats enter in clks t, t + 1, t + 2 (R60). -/
def Draw.split (d : Draw) (m : Mask) (clk : Nat) : Nat × Nat :=
  let beat := fun b => d.beat (beatLanes m b)
  match d with
  | .none => (0, 0)
  | .scalar => (1, 0)
  | .burn n => (n, 0)
  | _ =>
    if clk % 64 = 63 then (beat 0, beat 1 + beat 2)
    else if clk % 64 = 62 then (beat 0 + beat 1, beat 2)
    else (beat 0 + beat 1 + beat 2, 0)
/-- An issue's draw joins its layer's counts and its split's (R59, R60, R64). -/
def State.drawn (s : State) (a : Agent) (d : Draw) (m : Mask) : State :=
  match a with
  | .thread _ => s
  | .split g k =>
    let (now, next) := d.split m s.clk
    let s := match d with
      | .burn n => s.modCore (g / 32) (fun c => { c with burned := c.burned + n })
      | _ => s.modCore (g / 32) (fun c => { c with draw := c.draw + now, drawNext := c.drawNext + next })
    s.modSplit g k (fun x => { x with draw := x.draw + now, drawNext := x.drawNext + next })

/-- What a sequence needs before it issues, and what its issue holds afterwards. -/
structure Need where
  /-- Scalar sources and destinations, ports among them. -/
  src  : List Nat := []
  dst  : List Nat := []
  vsrc : List Nat := []
  vdst : List Nat := []
  ksrc : List Nat := []
  /-- The mask register of the prefix (R98): it limits the active lanes. -/
  kpfx : Nat := 0
  kdst : List Nat := []
  /-- Vector registers that must stand below the declared count; registers that must be even, or multiples of 4 (R93). -/
  lim  : List Nat := []
  even : List Nat := []
  quad : List Nat := []
  /-- Tile descriptors that it reads and writes (R270). -/
  tsrc : List Nat := []
  tdst : List Nat := []
  /-- It reads EXEC (R270). -/
  exec : Bool := false
  /-- The kinds of core it may run on (R93, check 5). -/
  vec  : Bool := true
  ctl  : Bool := true
  /-- The vector pipe it enters, and for how many clks it holds it (R34, R132). -/
  pipe : Option Nat := none
  hold : Nat := 3
  div  : Bool := false
  draw : Draw := .scalar
  /-- Latency of its destinations, and the cause their dependents are charged; a load's come when its data does (R119, R156). -/
  lat  : Nat := 1
  kind : Cause := .depend
  /-- Bytes of the sequence, and whether its words are parcels. -/
  len  : Nat := 4
  /-- The cause of its slot (R273). -/
  cause : Cause := .issue
  /-- It frees nothing until a later step: its destinations stay pending (R156). -/
  open_ : Bool := false
  /-- The ILLEGAL or PRIV trap that its operands and the state call for, before a port or a memory access (R362). -/
  pre : State → Agent → Option (BitVec 8 × Word) := fun _ _ => none
  /-- A wait of its own that is charged before its registers' traps: a later access of a stream waits on an acquire or a
  FENCE.X of it (R161, R230). -/
  waits : State → Agent → Option Cause := fun _ _ => none

/-- What a meaning works with once its sequence may issue: the agent, its address and the next one, what its ports popped, its
active lanes (those of the replay, after a park). -/
structure Ctx where
  a      : Agent
  pc     : Word
  next   : Word
  popped : List (Nat × Word)
  mask   : Mask
  /-- Active(i) of R3: those lanes under the prefix's mask. -/
  act    : Mask
  replay : Bool

/-- A scalar source: the value a port popped, or the register. -/
def Ctx.get (c : Ctx) (s : State) (r : Nat) : Word :=
  match c.popped.find? (fun p => p.1 == r) with
  | some (_, v) => v
  | none => s.sget c.a r

/-- The answer of the waits and checks before an issue. -/
inductive Gate where
  | block (c : Cause)
  | trap (code : BitVec 8) (val : Word)
  | go (c : Ctx) (s : State)

/-- The scoreboard name of a scalar register: s60 to s62 of a group are a split's own (R270). -/
def regS (a : Agent) (r : Nat) : Reg :=
  match a with
  | .split _ k => if 60 ≤ r ∧ r ≤ 62 then .bank k r else .s r
  | .thread _ => .s r
/-- Registers a sequence waits for; one of vector or mask operands reads EXEC too (R270). -/
def Need.regs (n : Need) (a : Agent) : List Reg :=
  ((n.src ++ n.dst).filter (fun r => r != 0 && !isPort r)).map (regS a) ++ (n.vsrc ++ n.vdst).map Reg.v ++
    ((n.kpfx :: n.ksrc ++ n.kdst).filter (· != 0)).map Reg.k ++
    (n.tsrc ++ n.tdst).map Reg.t ++
    if a.isThread || (!n.exec && (n.vsrc ++ n.vdst ++ n.ksrc ++ n.kdst).isEmpty) then []
    else [regS a 60, regS a 61, regS a 62]
/-- The scoreboards that hold an agent back: its group's or thread's, and its workgroup's (R270). -/
def State.pending (s : State) (a : Agent) : List Pending :=
  (match a with
    | .split g _ => (s.group g).pend
    | .thread t => (s.thread t).pend) ++ match s.wgOf a with
    | some w => (s.wg w).pend
    | none => []

/-- The word of the instruction proper and the parcels, for a trap's value (R360), are read at the sequence's address by the
fetch; meanings that trap with an instruction word take it from here. -/
def State.wordAt (s : State) (a : Agent) (pc : Word) (n : Nat) : Nat :=
  let (vi, asid) := s.ctxOf a
  let byte := fun (i : Nat) =>
    let va := (pc.toNat + i) % 2 ^ 52
    match tabFind (s.unit a.unit).icache (lineKey (s.tagAsid vi asid va) va) with
    | some l => l.bytes.getD (va % 128) 0
    | none => 0
  ofBytes ((List.range n).map byte)
/-- The instruction word of a sequence of `len` bytes: its last word, or its parcel. -/
def State.insnWord (s : State) (a : Agent) (pc : Word) (len : Nat) : Nat :=
  if len = 2 then s.wordAt a pc 2 else s.wordAt a (pc + BitVec.ofNat 64 (len - 4)) 4

/-- Checks 4 and 5 of R93, made at issue: the subcode that fails. -/
def Need.illegal (n : Need) (s : State) (a : Agent) : Option Nat :=
  let nreg := match a with
    | .split g _ => (s.group g).nreg
    | .thread _ => 64
  if n.lim.any (fun r => nreg ≤ r) || n.even.any (fun r => r % 2 != 0) || n.quad.any (fun r => r % 4 != 0) then some 4
  else if (a.isThread && !n.ctl) || (!a.isThread && !n.vec) then some 5
  else none

/-- The distinct ports among registers. -/
def portsOf (rs : List Nat) : List Nat := (rs.filter isPort).eraseDups

/-- What stands before an issue, in the order of R362 and of the wait tables of R118, R133 and R154: checks 4 and 5; pending
registers, of loads first, then those charged to ASYNC; the misuses of its own; an unbound port (R367); an empty or a full queue; a
busy divider or pipe. When nothing does, the ports pop; a replay has popped already (R154). Log 121 (DESIGN CHOICE). -/
def gate (n : Need) (a : Agent) (s : State) : Gate :=
  let x := s.strand a
  let ports := portsOf (n.src ++ n.dst)
  let regs := n.regs a
  let held := (s.pending a).filter (fun p => s.clk < p.at_ && regs.contains p.reg)
  match n.illegal s a with
  | some sub => .trap 0x01 (illegalVal sub (s.insnWord a x.pc n.len))
  | none =>
    if held.any (fun p => p.cause == .loadwait) then .block .loadwait
    else if n.waits s a = some .loadwait then .block .loadwait
    else if held.any (fun p => p.cause == .async) then .block .async
    else if held != [] then .block .depend
    else match n.pre s a with
    | some t => .trap t.1 t.2
    | none =>
      match ports.find? (fun r => (s.boundQueue a r).isNone) with
      | some r => .trap 0x0B (BitVec.ofNat 64 r)
      | none =>
        let got := match x.park with
          | some p => some (s, p.popped)
          | none => s.popAll a (portsOf n.src)
        match got with
        | none => .block .queue
        | some (s1, popped) =>
          if !s1.roomFor a (portsOf n.dst) then .block .queue
          else if n.div && s.clk < (s.unit a.unit).divider then .block .pipe
          else if (match n.pipe with
            | some p => decide (s.clk < (s.unit a.unit).pipes.getD p 0)
            | none => false) then .block .pipe
          else
            let mask := match x.park with
              | some p => p.mask
              | none => s.exMask a
            let c : Ctx := {
              a := a
              pc := x.pc
              next := x.pc + BitVec.ofNat 64 n.len
              popped := popped
              mask := mask
              act := match a with
                | .split g _ => mask &&& s.kget g n.kpfx
                | .thread _ => mask
              replay := x.park.isSome }
            .go c (if (portsOf n.dst).isEmpty then s1 else s1.implicitCommit a)

/-- What a meaning answers. -/
inductive Act where
  /-- Its effect; the agent goes on behind it. -/
  | done (s : State)
  | jump (s : State) (pc : Word)
  /-- It cannot issue in this clk. -/
  | wait (c : Cause)
  | trap (code : BitVec 8) (val : Word)
  /-- A trap on a state that the sequence has changed, where a rule says so. -/
  | trapOn (s : State) (code : BitVec 8) (val : Word)
  /-- A trap with a side that stands: made on the state before the issue. -/
  | trapAnd (f : State → State) (code : BitVec 8) (val : Word)
  /-- A trap that a rule makes a system trap (R363). -/
  | sys (code : BitVec 8) (val : Word)
  /-- The sequence parks for lanes on a fault token (R163). -/
  | park (s : State) (mask : Mask) (token : Nat)
  /-- The agent does not go on at all: it has ended, or its place is set. -/
  | gone (s : State)

/-- Boundary marks of the parcels of an issued sequence: words of four bytes, or one parcel (R361); its lines have been
used (R81). -/
def State.markParcels (s : State) (a : Agent) (pc : Word) (len : Nat) : State :=
  let (vi, asid) := s.ctxOf a
  (List.range (len / 2)).foldl (fun s i =>
    let va := (pc.toNat + 2 * i) % 2 ^ 52
    s.modUnit a.unit (fun u => { u with icache := tabMod u.icache (lineKey (s.tagAsid vi asid va) va) (fun l =>
      { l with marks := tabPut l.marks (va % 128 / 2) (if i % 2 = 0 then 1 else 2), used := s.clk }) })) s

/-- Writes of tile descriptors pending in the scoreboard of the workgroup, or of a thread that runs no control program (R270). -/
def State.tPend (s : State) (a : Agent) (new : List Pending) : State :=
  if new.isEmpty then s
  else
    let upd := fun (old : List Pending) => (old.filter (fun p => s.clk < p.at_)) ++ new
    match s.wgOf a with
    | some w => s.modWg w (fun x => { x with pend := upd x.pend })
    | none => match a with
      | .thread t => s.modThread t (fun x => { x with pend := upd x.pend })
      | .split _ _ => s
/-- What an issue leaves (R59, R119, R272, R361): its slot charged, its draw, its destinations pending, its pipe and divider
held, its parcels marked, the agent at its next address. -/
def State.retire (s : State) (n : Need) (c : Ctx) (pc : Word) : State :=
  let a := c.a
  let s := s.markParcels a c.pc n.len
  let s := s.useSlot a c.pc n.cause
  let s := s.drawn a n.draw c.act
  let until_ := if n.open_ then 2 ^ 64 else s.clk + n.lat
  let new := (((n.dst.filter (fun r => r != 0 && !isPort r)).map (regS a) ++ n.vdst.map Reg.v ++
    (n.kdst.filter (· != 0)).map Reg.k).map (fun r => ({ reg := r, at_ := until_, cause := n.kind } : Pending)))
  let upd := fun (old : List Pending) => (old.filter (fun p => s.clk < p.at_)) ++ new
  let s := match a with
    | .split g _ => s.modGroup g (fun x => { x with pend := upd x.pend })
    | .thread t => s.modThread t (fun x => { x with pend := upd x.pend })
  let s := s.tPend a (n.tdst.map (fun r => { reg := .t r, at_ := until_, cause := n.kind }))
  let s := s.modUnit a.unit (fun u => { u with
    divider := if n.div then s.clk + 32 else u.divider
    pipes := match n.pipe with
      | some p => u.pipes.set p (s.clk + n.hold)
      | none => u.pipes })
  s.modStrand a (fun x => { x with pc := pc, park := none })

/-- An agent waits in the sequence at `pc`, and goes on at `next` (R272). -/
def State.waitIn (s : State) (a : Agent) (next : Word) (w : Wait) : State :=
  s.modStrand a (fun x => { x with wait := some w, resume := next })
/-- Its wait has ended. -/
def State.endWait (s : State) (a : Agent) : State :=
  s.modStrand a (fun x => { x with wait := none, pc := x.resume })
/-- A split parked for lanes on a token, with what its ports popped; its next issue is the replay (R163). -/
def State.parkAt (s : State) (a : Agent) (mask : Mask) (token : Nat) (popped : List (Nat × Word)) : State :=
  s.modStrand a (fun x => { x with park := some { mask := mask, token := some token, ready := false, popped := popped } })

/-- An agent that cannot issue, with the draw that its sequence would add (R267). -/
def State.blockNeed (s : State) (a : Agent) (n : Need) (c : Cause) : State :=
  let m := match a with
    | .split g _ => s.exMask a &&& s.kget g n.kpfx
    | .thread _ => 0
  let d := n.draw.split m s.clk
  (s.block a c).modStrand a (fun x => { x with adds := d.1 + d.2 })

/-- ONE SEQUENCE ISSUED: the gate, then the meaning's body, then what the issue leaves. Log 30 (DEDUCED). -/
def issue (n : Need) (body : Ctx → State → Act) (s : State) : Host.Outcome State Fault Refusal :=
  match s.cur with
  | none => .fault .noAgent
  | some a =>
    if !s.alive a then .fault .noAgent
    else match gate n a s with
      | .block c => .next (s.blockNeed a n c)
      | .trap code val => .next (s.takeTrap a code val)
      | .go c s1 =>
        match body c s1 with
        | .done t => .next (t.retire n c c.next)
        | .jump t pc => .next (t.retire n c pc)
        | .wait w => .next (s.blockNeed a n w)
        | .trap code val => .next (s.takeTrap a code val)
        | .trapOn t code val => .next (t.takeTrap a code val)
        | .trapAnd f code val => .next ((f s).takeTrap a code val)
        | .sys code val => .next (s.takeTrapAs a true code val)
        | .park t mask tok => .next ((t.block a .fault).parkAt a mask tok c.popped)
        | .gone t => .next t

/-- Lengths of sequences (R92): with an extension, with a prefix, with both. -/
def lenX (x : Option (BitVec 25)) : Nat := if x.isSome then 8 else 4
def lenP (p : Option Prefix) : Nat := if p.isSome then 8 else 4
def lenPX (p : Option Prefix) (x : Option (BitVec 25)) : Nat := lenP p + if x.isSome then 4 else 0

end Sys2Proof.Machine
end

