-- ==== Sys2Proof/Machine/Operands.lean ====
section
/-!
DEFINITION. Operand forms: immediates and displacements (spec/06_encoding.md R97), lane patterns (R100), the active lanes of a
prefixed instruction and its writes (R98, R99, spec/00_scope.md R3), and addresses of format M (R101).
-/

namespace Sys2Proof.Machine

/-- SignExtend of the immediate that a sequence holds: the field alone, or the payload above it (R97). -/
def immValue {n : Nat} (f : BitVec n) (x : Option (BitVec 25)) : Word :=
  match x with
  | some p => (p ++ f).signExtend 64
  | none => f.signExtend 64
/-- The displacement of format M (R97). -/
def dispValue (x : Option (BitVec 25)) : Word :=
  match x with
  | some p => p.signExtend 64
  | none => 0
/-- A branch target: the sequence address and twice the offset (R123). -/
def target {n : Nat} (pc : Word) (o : BitVec n) (x : Option (BitVec 25)) : Word := pc + 2 * immValue o x

/-- The source lane of a lane under a pattern, with the lane permutations of its group (R100). -/
def patternLane (lp : Nat → BitVec 24) (pat : BitVec 6) (i : Nat) : Nat :=
  let j := i % 32
  let base := 32 * (i / 32)
  let kind := pat.toNat / 16
  let p := pat.toNat % 16
  let n := p % 8
  base + (
    if kind = 0 then j ^^^ (2 ^ p - 1)
    else if kind = 1 then (if p < 8 then (j + 2 ^ n) % 32 else (j + 32 - 2 ^ n % 32) % 32)
    else if kind = 2 then
      (if p < 8 then j ^^^ n else 8 * (j / 8) + ((lp n).extractLsb' (3 * (j % 8)) 3).toNat)
    else if p = 15 then 31 else p)

/-- LPn of a group; its reset value is the identity (R111). -/
def State.lpget (s : State) (g n : Nat) : BitVec 24 := tabGet (s.group g).lp n 0xFAC688
/-- Src(v, pattern, i) of R3: a vector register read under a pattern. -/
def State.vsrc (s : State) (g r : Nat) (pat : BitVec 6) : List Lane :=
  let v := s.vget g r
  if pat = 0 then v else lanes (fun i => lane v (patternLane (s.lpget g) pat i))

/-- Fields of an optional prefix; without one every field is neutral (R98). -/
def pfxA (p : Option Prefix) : BitVec 6 := match p with | some q => q.pa | none => 0
def pfxB (p : Option Prefix) : BitVec 6 := match p with | some q => q.pb | none => 0
def pfxRm (p : Option Prefix) : BitVec 3 := match p with | some q => q.rm | none => 0
def pfxZ (p : Option Prefix) : Bool := match p with | some q => q.z | none => false
def pfxK (p : Option Prefix) : Nat := match p with | some q => q.k.toNat | none => 0
/-- The addend of VFMA: v[c] under a prefix, the destination without one (R98). -/
def pfxC (p : Option Prefix) (d : Nat) : Nat := match p with | some q => q.c.toNat | none => d

/-- The mode in force: a prefix's, or FMT's default (R19). -/
def modeOf (f : BitVec 9) (p : Option Prefix) : Rnd :=
  match (pfxRm p).toNat with
  | 1 => .ne
  | 2 => .tz
  | 3 => .up
  | 4 => .dn
  | 5 => .na
  | _ => fmtRnd f

/-- The group an agent belongs to. -/
def Agent.groupNo : Agent → Nat
  | .split g _ => g
  | .thread _ => 0
/-- A vector destination written in the active lanes, with the flags that they raise; the other lanes keep their value, or are
zeroed (R3, R22, R36, R98, R131). -/
def State.vwrite (s : State) (a : Agent) (d : Nat) (act : Mask) (z : Bool) (f : Nat → Lane × FFlags) : State :=
  let old := s.vget a.groupNo d
  let xs := (List.range 96).map (fun i =>
    if act.getLsbD i then f i else (if z then 0 else lane old i, (0 : FFlags)))
  (s.vput a.groupNo d (xs.map (·.1))).raiseFlags a (xs.foldl (fun m x => m ||| x.2) 0)
/-- The same for a move, which raises nothing. -/
def State.vmove (s : State) (a : Agent) (d : Nat) (act : Mask) (z : Bool) (f : Nat → Lane) : State :=
  let old := s.vget a.groupNo d
  s.vput a.groupNo d (lanes (fun i => if act.getLsbD i then f i else if z then 0 else lane old i))
/-- Mask destination bits written likewise (R99). -/
def State.kwrite (s : State) (g d : Nat) (act : Mask) (z : Bool) (m : Mask) : State :=
  s.kput g d ((m &&& act) ||| (if z then 0 else s.kget g d &&& ~~~act))

/-- The address of a scalar memory operand: s[base] + s[idx] + disp (R101, R162). -/
def Ctx.addrS (c : Ctx) (s : State) (base idx : Nat) (x : Option (BitVec 25)) : Word :=
  c.get s base + c.get s idx + dispValue x
/-- The address of a lane: lane-contiguous for idx 63, else indexed (R101, R157). -/
def Ctx.addrV (c : Ctx) (s : State) (base idx : Nat) (size : Nat) (x : Option (BitVec 25)) (i : Nat) : Word :=
  if idx = 63 then c.get s base + BitVec.ofNat 64 (i * size) + dispValue x
  else c.get s base + (lane (s.vget c.a.groupNo idx) i).setWidth 64 + dispValue x

end Sys2Proof.Machine
end

