-- ==== Sys2Proof/Machine/MatState.lean ====
section
/-!
DEFINITION. What the matrix unit holds of work that is under way (spec/12_isa_matrix.md R174, R175, R181): the operations of the
queues and the cells, the passes that a sequencer has still to enqueue, and the tiles they write.
-/

namespace Sys2Proof.Machine

/-- The word of an MMAB (R181). -/
def mmabWord (n m k b : Nat) : Nat :=
  0x67 + (n % 64) * 2 ^ 7 + (m + 16 * (k / 64)) * 2 ^ 13 + b * 2 ^ 19 + 2 ^ 25 + (n / 64 + 2 * (k / 8 % 8)) * 2 ^ 28
/-- n, m and k of that word. -/
def mmabN (w : Nat) : Nat := bits w 7 6 + 64 * bits w 28 1
def mmabM (w : Nat) : Nat := bits w 13 4
def mmabK (w : Nat) : Nat := 64 * bits w 17 2 + 8 * bits w 29 3
/-- MT, NT and KT of a geometry word (R181). -/
def geomMT (g : Word) : Nat := bits g.toNat 0 2 + 1
def geomNT (g : Word) : Nat := bits g.toNat 2 2 + 1
def geomKT (g : Word) : Nat := bits g.toNat 4 12 + 1

/-- Accumulator, slot and handle of a sequencer's pass (R181). -/
def Sequencer.pass (q : Sequencer) (kk ij : Nat) : Nat × Nat × Nat :=
  let w := q.word.toNat
  let nt := geomNT q.geom
  (mmabN w + ij, (mmabM w + geomMT q.geom * kk + ij / nt) % 16, mmabK w + nt * kk + ij % nt)
/-- The (kk, ij) that a sequencer has still to enqueue. -/
def Sequencer.left (q : Sequencer) : List (Nat × Nat) :=
  let per := geomMT q.geom * geomNT q.geom
  ((List.range (geomKT q.geom * per)).filter (fun x => q.kk * per + q.ij ≤ x)).map (fun x => (x / per, x % per))

/-- Whether an operation whose first tile is `n`, `w` tiles wide, writes a tile (R175, R178). -/
def covers (n w t : Nat) : Bool := n ≤ t && (t - n) % 16 == 0 && (t - n) / 16 < w
/-- The operations of a cluster that are queued or not complete. -/
def Cluster.ops (c : Cluster) : List MatOp := c.mq.flatMap (·.2) ++ c.run

/-- An operation on a tile has been enqueued and is not complete (R175); passes of an MMAB count from its issue. -/
def State.tileBusy (s : State) (c t : Nat) : Bool :=
  (s.cluster c).ops.any (fun o => covers o.n (if o.zero then 1 else o.w) t) ||
    [2 * c, 2 * c + 1].any (fun th => match (s.thread th).seqr with
      | none => false
      | some q => q.left.any (fun p => covers (q.pass p.1 p.2).1 8 t))
/-- An operation that reads a handle has not finished its pass (R175). -/
def State.handleBusy (s : State) (c k : Nat) : Bool :=
  (s.cluster c).ops.any (fun o => !o.zero && o.k == k && (match o.start with
    | some t => decide (s.clk < t + 32)
    | none => true)) ||
    [2 * c, 2 * c + 1].any (fun th => match (s.thread th).seqr with
      | none => false
      | some q => q.left.any (fun p => (q.pass p.1 p.2).2.2 == k))
/-- Every operation of a thread and its sequencer has completed (R185, R186). -/
def State.threadIdle (s : State) (t : Nat) : Bool := !s.matBusy t && (s.thread t).seqr.isNone
/-- The matrix queues hold no operation (R186). -/
def Cluster.queuesEmpty (c : Cluster) : Bool := c.mq.all (fun q => q.2.isEmpty)

/-- Bits set in a field of at most 16 bits. -/
def popNat (n : Nat) : Nat := ((List.range 16).filter (fun i => n.testBit i)).length
/-- togX of the rows of an operand: what changes from each row to the next, from zeros on (R73). -/
def togRows (prev : List Nat) (rows : List (List Nat)) : Nat :=
  match rows with
  | [] => 0
  | r :: rest => ((List.range r.length).map (fun i => popNat (r.getD i 0 ^^^ prev.getD i 0))).sum + togRows r rest
/-- Row `r` of a feed slot: a row that nothing has written is all zero (R169). -/
def Feed.row (f : Feed) (r : Nat) : List Nat := tabGet f.rows r (List.replicate 32 0)
/-- togA: the columns of the A tile enter the cell one after another (R73). -/
def Feed.togA (f : Feed) : Nat :=
  togRows [] ((List.range 32).map (fun k => (List.range 32).map (fun m => (f.row m).getD k 0)))
/-- A released slot: every field and header zero, READY 0; FMT stays (R169). -/
def Feed.release (f : Feed) : Feed := { Feed.reset with fmt := f.fmt }
/-- A slot sealed: READY, with its togA (R169, R176). -/
def Feed.seal (f : Feed) : Feed := { f with ready := true, tog := f.togA }

def Cluster.feedOf (c : Cluster) (m : Nat) : Feed := tabGet c.feed m Feed.reset
def State.setFeed (s : State) (c m : Nat) (f : Feed) : State := s.modCluster c (fun k => { k with feed := tabPut k.feed m f })
def Cluster.handleOf (c : Cluster) (k : Nat) : Handle := tabGet c.handle k Handle.reset
def State.setHandle (s : State) (c k : Nat) (h : Handle) : State :=
  s.modCluster c (fun x => { x with handle := tabPut x.handle k h })

/-- Magnitude bits of an SX format's elements; 0 for the others (R27, R176). -/
def feedSx : FeedFmt → Nat
  | .bf16 => 0
  | .fp16 => 0
  | .sx2 => 2
  | .sx4 => 4
  | .sx7 => 7
/-- Width of the accumulator group of a format: 1, 1, 8, 4, 2 (R178). -/
def feedW : FeedFmt → Nat
  | .bf16 => 1
  | .fp16 => 1
  | .sx2 => 8
  | .sx4 => 4
  | .sx7 => 2
/-- The format of a code (R176, R183). -/
def feedFmt (n : Nat) : Option FeedFmt :=
  match n with
  | 0 => some .bf16
  | 1 => some .fp16
  | 2 => some .sx2
  | 3 => some .sx4
  | 4 => some .sx7
  | _ => none

end Sys2Proof.Machine
end

