-- ==== Sys2Proof/Machine/System.lean ====
section
/-!
DEFINITION. System registers, traps and ends, fences, queues, regions, ranges and the stack instructions
(spec/15_isa_system.md, spec/07_assembly.md R104 to R111), with the steps that a register write or a trap is made of.
-/

namespace Sys2Proof.Machine

/-! ### System registers -/

/-- What an agent may do with a register number (R107): nothing, read it, or read and write it. -/
inductive Right where
  | none | ro | rw
deriving DecidableEq, Repr

/-- Rights on a vector core. -/
def rightV (n : Nat) : Right :=
  if n = 1 || n = 2 || (8 ≤ n && n ≤ 0x0B) || n = 0x11 || (0x20 ≤ n && n ≤ 0x37) then .rw
  else if n = 0 || n = 3 || n = 4 || n = 0x10 || n = 0x12 || (0x40 ≤ n && n ≤ 0x4F) || (0x51 ≤ n && n ≤ 0x57) ||
    (0x100 ≤ n && n ≤ 0x11F) || n = 0x200 || n = 0x201 || (0x300 ≤ n && n ≤ 0x302) then .ro
  else .none
/-- Rights on a control thread, in supervisor privilege or not (R107, R225). -/
def rightC (sup : Bool) (n : Nat) : Right :=
  if 0x20 ≤ n && n ≤ 0x2F then .rw
  else if (8 ≤ n && n ≤ 0x0B) || n = 0x200 || (0x210 ≤ n && n ≤ 0x212) || n = 0x300 then (if sup then .rw else .ro)
  else if n = 0 || n = 3 || n = 4 || (0x40 ≤ n && n ≤ 0x4F) || (0x51 ≤ n && n ≤ 0x57) || (0x100 ≤ n && n ≤ 0x10F) ||
    n = 0x201 || n = 0x301 || n = 0x302 then .ro
  else .none
def State.right (s : State) (a : Agent) (n : Nat) : Right := if a.isThread then rightC (s.sup a) n else rightV n

/-- LVLIDXn, LVLEXTn, LVLBASEn of a reader (R42, R107). -/
def State.lvlIdx (s : State) (a : Agent) (n : Nat) : Nat :=
  match s.wgOf a with
  | none => 0
  | some w =>
    if n = 0 then (match a with
      | .split g _ => (s.group g).idx
      | .thread _ => 0)
    else unitOfLevel (s.record w) n (s.wg w).num % recExtent (s.record w) n
def State.lvlExt (s : State) (a : Agent) (n : Nat) : Nat :=
  match s.wgOf a with
  | none => 0
  | some w => recExtent (s.record w) n
/-- LVLBASE: the base of level n of an agent (R42, R109). Log 52 (DEDUCED). -/
def State.lvlBase (s : State) (a : Agent) (n : Nat) : Word :=
  match s.wgOf a with
  | none => 0
  | some w => (s.wg w).bases.getD (n - 1) 0

/-- IDENT (R109). -/
def State.ident (s : State) (a : Agent) : Nat :=
  let c := s.viCluster (s.ctxOf a).1 a.cluster
  let place := c / 24 % 4 * 2 ^ 14 + c % 128 * 2 ^ 7
  match a with
  | .split g _ => place + g / 32 % 4 * 32 + g % 32
  | .thread t => 2 ^ 16 + place + t % 2
/-- CHRYCFG of a die (R79). -/
def Die.chrycfg (d : Die) : Nat :=
  d.nslot + ((List.range 16).map (fun j => if (tabFind d.slots j).isSome then 2 ^ (5 + j) else 0)).sum
/-- ACCTn: BASEn + CURn of the reader's bank (R275). -/
def State.acct (s : State) (a : Agent) (n : Nat) : Word :=
  let (vi, asid) := s.ctxOf a
  let u := s.unit a.unit
  let b := tabGet u.banks (s.bankFor a.unit vi asid (some a)) Bank.blank
  tabGet b.base n 0 + BitVec.ofNat 64 (tabGet b.cur n 0)
/-- MISM, sign-extended (R62). -/
def mismOf (mis : Word) : Word := (mis.extractLsb' 0 16).signExtend 64

/-- The value of a system register (R107). -/
def State.sysRead (s : State) (a : Agent) (n : Nat) : Word :=
  let (vi, asid) := s.ctxOf a
  let nat := fun (x : Nat) => BitVec.ofNat 64 x
  match a, n with
  | _, 0 => nat (s.ident a)
  | .split g k, 1 => (s.splitOf g k).fmt.setWidth 64
  | .split g k, 2 => (s.splitOf g k).flags.setWidth 64
  | _, 3 => nat s.clk
  | _, 4 => nat s.time
  | _, 8 => s.tvec a
  | .split g _, 9 => (s.group g).tcause
  | .thread t, 9 => (s.thread t).tcause
  | _, 10 => s.tpc a
  | .split g _, 11 => (s.group g).tval
  | .thread t, 11 => (s.thread t).tval
  | .split g _, 0x10 => (s.core (g / 32)).mis
  | .split g _, 0x11 => (s.group g).drawcls.setWidth 64
  | .split g _, 0x12 => if recAutobal (s.record (s.group g).wg) then 1 else 0
  | _, 0x200 => (s.cluster a.cluster).stkcfg
  | _, 0x201 => (s.cluster a.cluster).shuntloss
  | _, 0x210 => (s.cluster a.cluster).accowner
  | _, 0x211 => (s.cluster a.cluster).acclive.extractLsb' 0 64
  | _, 0x212 => (s.cluster a.cluster).acclive.extractLsb' 64 64
  | _, 0x300 => nat (s.die a.die).chrycfg
  | _, 0x301 => nat (s.die a.die).lines.1
  | _, 0x302 => nat (s.die a.die).lines.2
  | _, _ =>
    if 0x20 ≤ n && n ≤ 0x2F then (s.stget a (n - 0x20)).setWidth 64
    else if 0x30 ≤ n && n ≤ 0x37 then (s.lpget a.groupNo (n - 0x30)).setWidth 64
    else if 0x40 ≤ n && n ≤ 0x47 then nat (s.lvlIdx a (n - 0x40))
    else if 0x48 ≤ n && n ≤ 0x4F then nat (s.lvlExt a (n - 0x48))
    else if 0x51 ≤ n && n ≤ 0x57 then s.lvlBase a (n - 0x50)
    else if 0x100 ≤ n && n ≤ 0x10F then (if s.eventOff vi asid (n - 0x100) then 0 else s.acct a (n - 0x100))
    else if 0x110 ≤ n && n ≤ 0x11F then
      (if s.eventOff vi asid (n - 0x110) then 0 else tabGet (s.group a.groupNo).gstall (n - 0x110) 0)
    else 0

/-- A write of a system register that the agent may write (R107 to R111, R225). STKCFG takes effect at the next window (R65);
the other shared registers have steps of their own. -/
def State.sysWrite (s : State) (a : Agent) (n : Nat) (v : Word) : State :=
  match a, n with
  | .split _ _, 1 => s.setFmt a v
  | .split _ _, 2 => s.setFlags a (v.extractLsb' 0 5)
  | .split g _, 8 => s.modGroup g (fun x => { x with tvec := v &&& ~~~(1 : Word) })
  | .thread t, 8 => s.modThread t (fun x => { x with tvec := v &&& ~~~(1 : Word) })
  | .split g _, 9 => s.modGroup g (fun x => { x with tcause := v &&& 0xFF })
  | .thread t, 9 => s.modThread t (fun x => { x with tcause := v &&& 0xFF })
  | .split g _, 10 => s.modGroup g (fun x => { x with tpc := v })
  | .thread t, 10 => s.modThread t (fun x => { x with tpc := v })
  | .split g _, 11 => s.modGroup g (fun x => { x with tval := v })
  | .thread t, 11 => s.modThread t (fun x => { x with tval := v })
  | .split g _, 0x11 => s.modGroup g (fun x => { x with drawcls := v.extractLsb' 0 2 })
  | _, 0x200 => { s with agenda := s.agenda ++ [((s.clk / 64 + 1) * 64, .stkcfgWrite a.cluster v)] }
  | _, 0x210 => s.soon (.accownerWrite a.cluster v)
  | _, 0x211 => s.soon (.accliveWrite a.cluster 0 v)
  | _, 0x212 => s.soon (.accliveWrite a.cluster 1 v)
  | _, 0x300 => match a.die with
    | 0 => s.soon (.chrycfgWrite 0 v)
    | 1 => s.soon (.chrycfgWrite 1 v)
    | 2 => s.soon (.chrycfgWrite 2 v)
    | _ => s.soon (.chrycfgWrite 3 v)
  | .split g _, _ =>
    if 0x20 ≤ n && n ≤ 0x2F then s.stput a (n - 0x20) (v.extractLsb' 0 7)
    else if 0x30 ≤ n && n ≤ 0x37 then s.modGroup g (fun x => { x with lp := tabPut x.lp (n - 0x30) (v.extractLsb' 0 24) })
    else s
  | .thread _, _ => if 0x20 ≤ n && n ≤ 0x2F then s.stput a (n - 0x20) (v.extractLsb' 0 7) else s

/-- STKCFG_WRITE: the new thresholds, capacity and budget at the start of a window (R65). Log 109 (DEDUCED). -/
def execStkcfgWrite (c : Nat) (v : BitVec 64) (s : State) : Host.Outcome State Fault Refusal :=
  .next (s.modCluster c (fun k => { k with stkcfg := v, budget := bits v.toNat 48 16 }))

/-- Whether a write of ACCOWNER must wait: it changes THREAD or TAG while the queues or the old thread's sequencer hold an
operation (R186). -/
def State.ownerWaits (s : State) (c : Nat) (v : Word) : Bool :=
  let o := (s.cluster c).accowner
  (accThread v != accThread o || accTag v != accTag o) &&
    (!(s.cluster c).queuesEmpty || (s.thread (2 * c + accThread o)).seqr.isSome)
/-- ACCOWNER_WRITE (R172, R186). -/
def execAccownerWrite (c : Nat) (v : BitVec 64) (s : State) : Host.Outcome State Fault Refusal :=
  if s.ownerWaits c v then .next (s.inClk 1 (.accownerWrite c v))
  else .next (s.modCluster c (fun k => { k with accowner := accWord (accTag v) (accValid v) (accThread v) }))

/-- The tiles whose live bit a write of ACCLIVE0 or ACCLIVE1 clears (R171). -/
def State.liveCleared (s : State) (c h : Nat) (v : Word) : List Nat :=
  ((List.range 64).map (fun i => 64 * h + i)).filter (fun n => (s.cluster c).acclive.getLsbD n && !v.getLsbD (n - 64 * h))
/-- ACCLIVE_WRITE (R171, R175): the tiles it clears are released, the bits it sets are set. -/
def execAccliveWrite (c : Nat) (h : BitVec 1) (v : BitVec 64) (s : State) : Host.Outcome State Fault Refusal :=
  let gone := s.liveCleared c h.toNat v
  if gone.any (s.tileBusy c) then .next (s.inClk 1 (.accliveWrite c h v))
  else
    let s := gone.foldl (fun s n => s.relTile c n) s
    .next (s.modCluster c (fun k => { k with acclive := k.acclive ||| (v.setWidth 128 <<< (64 * h.toNat)) }))

/-- CHRYCFG_WRITE (R79, R80): the whole write, or nothing. -/
def execChrycfgWrite (die : Fin 4) (v : BitVec 64) (s : State) : Host.Outcome State Fault Refusal :=
  let d := s.die die
  let n := v.toNat % 32
  let top := chipAt die (0x4000000 - 0x200000 * d.nslot)
  let low := chipAt die (0x4000000 - 0x200000 * n)
  let busy := (List.range 16).any (fun j => n ≤ j && j < d.nslot && (tabFind d.slots j).isSome)
  let used := s.allocs.any (fun a => n > d.nslot && low < a.1 + a.2.1 && a.1 < top)
  if 16 < n || busy || used then .next s
  else
    let s := if d.nslot < n then { s with mem := memZero s.mem low (top - low) } else s
    .next (s.modDie die (fun d => { d with nslot := n }))

/-- The misuses of SRD and SWR: a number that is reserved or out of reach, a write without the right (R360, R364). -/
def srdPre (n : Nat) (s : State) (a : Agent) : Option (BitVec 8 × Word) :=
  if s.right a n = .none then some (0x01, illegalVal 10 n) else none
def swrPre (n : Nat) (s : State) (a : Agent) : Option (BitVec 8 × Word) :=
  match s.right a n with
  | .none => some (0x01, illegalVal 10 n)
  | .ro => some (0x02, BitVec.ofNat 64 n)
  | .rw => none
/-- The event that an account register counts (R285). -/
def eventOf (n : Nat) : Option Nat := if 0x100 ≤ n && n ≤ 0x11F then some (n % 16) else none

/-- SRD (R107, R225, R285, R396). -/
def srdNeed (d : SReg) (n : BitVec 12) : Need := { dst := [d.toNat], pre := srdPre n.toNat }
def execSrd (d : SReg) (n : BitVec 12) (s : State) : Host.Outcome State Fault Refusal :=
  issue (srdNeed d n) (fun c s =>
    let (vi, asid) := s.ctxOf c.a
    match eventOf n.toNat with
    | some e => if s.eventOff vi asid e && s.viBit vi 1 then .sys 0x06 (BitVec.ofNat 64 e)
      else .done (s.sset c.a d.toNat (s.sysRead c.a n.toNat))
    | none => .done (s.sset c.a d.toNat (s.sysRead c.a n.toNat))) s

/-- A write of ACCOWNER or ACCLIVE that waits, charged to MATRIX (R171, R186). -/
def State.swrWaits (s : State) (a : Agent) (n : Nat) (v : Word) : Bool :=
  if n = 0x210 then s.ownerWaits a.cluster v
  else if n = 0x211 then (s.liveCleared a.cluster 0 v).any (s.tileBusy a.cluster)
  else if n = 0x212 then (s.liveCleared a.cluster 1 v).any (s.tileBusy a.cluster)
  else false
/-- SWR (R107, R225). -/
def swrNeed (n : BitVec 12) (a : SReg) : Need := { src := [a.toNat], pre := swrPre n.toNat }
def execSwr (n : BitVec 12) (a : SReg) (s : State) : Host.Outcome State Fault Refusal :=
  issue (swrNeed n a) (fun c s =>
    let v := c.get s a.toNat
    if s.swrWaits c.a n.toNat v then .wait .matrix else .done (s.sysWrite c.a n.toNat v)) s

/-! ### Traps and ends -/

/-- NOP (R224). -/
def nopNeed : Need := {}
def execNop (s : State) : Host.Outcome State Fault Refusal := issue nopNeed (fun _ s => .done s) s

/-- TRAP: Trap(0x0F, s[a]) (R226). -/
def trapNeed (a : SReg) : Need := { src := [a.toNat] }
def execTrap (a : SReg) (s : State) : Host.Outcome State Fault Refusal :=
  issue (trapNeed a) (fun c s => .trap 0x0F (c.get s a.toNat)) s

/-- A debugger has claimed the context (R226, R283). Log 117 (DESIGN CHOICE). -/
def State.claimed (s : State) (a : Agent) : Bool := s.mgmt.claims.contains (s.ctxOf a)
/-- BKPT: Trap(0x0D, 0), or the stop of its workgroup with the BKPT not issued (R226, R283). -/
def execBkpt (s : State) : Host.Outcome State Fault Refusal :=
  issue nopNeed (fun c s =>
    if s.claimed c.a then
      match s.wgOf c.a with
      | some w => .gone ((s.stopWg w c.pc).block c.a .trap)
      | none => .gone ((s.modStrand c.a (fun x => { x with stopped := true })).block c.a .trap)
    else .trap 0x0D 0) s

/-- ERET (R108, R226, R364). -/
def eretNeed : Need :=
  { pre := fun s a => if (s.strand a).handler then none else some (0x01, illegalVal 11 0) }
def execEret (s : State) : Host.Outcome State Fault Refusal :=
  issue eretNeed (fun c s => .gone ((s.retire eretNeed c c.next).returnTrap c.a)) s

/-- YIELD: not ready for the next 64 clk (R227). -/
def execYield (s : State) : Host.Outcome State Fault Refusal :=
  issue nopNeed (fun c s => .done (s.modStrand c.a (fun x => { x with delay := s.clk + 65 }))) s
/-- WAITCYC: not ready for s[a][31:0] clk (R227). -/
def execWaitcyc (a : SReg) (s : State) : Host.Outcome State Fault Refusal :=
  issue (trapNeed a) (fun c s =>
    .done (s.modStrand c.a (fun x => { x with delay := s.clk + 1 + (c.get s a.toNat).toNat % 2 ^ 32 }))) s

/-- A control thread has executed EXIT: it holds no context from the next clk on, when its bank closes, and, for a control program,
its part in R46 has ended (R184, R228, R274). -/
def State.exitThread (s : State) (t : Nat) : State :=
  let x := s.thread t
  let s := s.modThread t (fun x => { x with ctx := none, exited := true })
  match x.wg with
  | some w => (s.modWg w (fun g => { g with ctlDone := true })).wgCheck w
  | none => s.freeThread t
/-- EXIT retires the active lanes; a split without record or entry ends, a group ends with its last lane (R39, R46, R228). -/
def State.exitSplit (s : State) (g k : Nat) : State :=
  let ex := (s.splitOf g k).ex
  let s := s.modGroup g (fun x => { x with
    retired := x.retired ||| ex
    splits := tabMod x.splits k (fun y => { y with ex := 0 }) })
  if (s.splitOf g k).nest = [] || (s.group g).retired = allOnes96 then s.endSplit g k else s
/-- EXIT reads EXEC (R228, R270). -/
def exitNeed : Need := { exec := true }
/-- EXIT (R186, R228). -/
def execExit (s : State) : Host.Outcome State Fault Refusal :=
  issue exitNeed (fun c s =>
    match c.a with
    | .split g k => .gone ((s.retire exitNeed c c.next).exitSplit g k)
    | .thread t =>
      if s.threadIdle t then .gone ((s.retire exitNeed c c.next).exitThread t) else .wait .matrix) s

/-- SETFMT: the old FMT, then the new one (R229). -/
def setfmtNeed (d a : SReg) : Need := { src := [a.toNat], dst := [d.toNat], ctl := false }
def execSetfmt (d a : SReg) (s : State) : Host.Outcome State Fault Refusal :=
  issue (setfmtNeed d a) (fun c s =>
    .done ((s.setFmt c.a (c.get s a.toNat)).sset c.a d.toNat ((s.fmt c.a).setWidth 64))) s
/-- SCFG: eight stream table entries (R229). -/
def execScfg (a : SReg) (h : BitVec 1) (s : State) : Host.Outcome State Fault Refusal :=
  issue (trapNeed a) (fun c s =>
    let v := c.get s a.toNat
    .done ((List.range 8).foldl (fun s m => s.stput c.a (8 * h.toNat + m) (v.extractLsb' (8 * m) 7)) s)) s

/-- ILLEGAL_SEQUENCE: Trap(0x01) with its subcode and value (R93, R360). -/
def execIllegalSequence (sub : BitVec 8) (val : BitVec 48) (s : State) : Host.Outcome State Fault Refusal :=
  match s.cur with
  | none => .fault .noAgent
  | some a => .next (s.takeTrap a 0x01 (illegalVal sub.toNat val.toNat))
/-- STACK_TRAP: the queued trap in place of the next issue; while a sibling is in its handler it stays queued (R64, R108, R369). -/
def execStackTrap (s : State) : Host.Outcome State Fault Refusal :=
  match s.cur with
  | none => .fault .noAgent
  | some a => match (s.strand a).traps with
    | [] => .next s
    | (code, val) :: r =>
      if s.trapWaits a then .next (s.awaitTrap a)
      else .next ((s.modStrand a (fun x => { x with traps := r })).takeTrap a code val)

/-! ### Fences -/

/-- The streams of a fence: all sixteen for s0 (R230). -/
def fenceMask (c : Ctx) (s : State) (a : SReg) : BitVec 16 :=
  if a.toNat = 0 then BitVec.allOnes 16 else (c.get s a.toNat).extractLsb' 0 16
/-- Tags that meet a mask take it in. -/
def widenTags (m t : BitVec 16) : BitVec 16 := if t &&& m != 0 then t ||| m else t
def Sector.widen (x : Sector) (m : BitVec 16) : Sector :=
  { x with tags := widenTags m x.tags, layers := x.layers.map (fun (y : Layer) => { y with tags := widenTags m y.tags }) }
/-- FENCE.X widens tags, and later accesses of its streams follow the earlier ones; it leaves what lies on UO pages alone (R230). -/
def State.widen (s : State) (a : Agent) (m : BitVec 16) : State :=
  let s := match a with
    | .split g _ => s.mapL1 (g / 32) (fun _ l x => some (if l.kind == 2 then x else x.widen m))
    | .thread _ => s
  { s with accesses := tabMap s.accesses (fun _ x =>
      if x.agent == a && m.getLsbD x.stream && !s.onlyUo x then { x with block := x.block ||| m } else x) }
/-- FENCE.X joins the streams of the mask (R230). Log 32 (DEDUCED). -/
def execFenceX (a : SReg) (s : State) : Host.Outcome State Fault Refusal :=
  issue (trapNeed a) (fun c s => .done (s.widen c.a (fenceMask c s a))) s

/-- What FENCE.S waits for: accesses, held ones too, write-backs of its streams, counter updates and, at SYSTEM scope, REMOTE
acknowledgements (R231, R376). -/
def State.fenceReady (s : State) (a : Agent) (m : BitVec 16) (scope : BitVec 3) : Bool :=
  s.accesses.all (fun p => !(p.2.agent == a && m.getLsbD p.2.stream && p.2.open)) && !s.backHeld a m scope &&
    s.engines.all (fun e => !(e.2.agent == a && m.getLsbD e.2.stream && match e.2.op with
      | .cadd .. => e.2.phase == 0 || scope == 4
      | .cset .. => e.2.phase == 0 || scope == 4
      | _ => false)) &&
    (scope != 4 || s.remoteQuiet a m)
/-- Its own accesses performed as far as they go, and the dirty sectors of its streams written back (R231, R244). -/
def State.fenceWork (s : State) (a : Agent) (m : BitVec 16) (scope : BitVec 3) : State :=
  (s.flush a s.nextId).releaseL1 a m scope
/-- Its last step: clean sectors of its streams leave the L1 (R231). -/
def State.fenceEnd (s : State) (a : Agent) (m : BitVec 16) : State :=
  match a with
  | .split g _ => s.invalidate (g / 32) m
  | .thread _ => s
/-- The code of a scope (R110). -/
def scopeCode : ScopeCode → BitVec 3
  | .group => 0
  | .workgroup => 1
  | .die => 2
  | .device => 3
  | .system => 4
def execFenceS (a : SReg) (sc : ScopeCode) (s : State) : Host.Outcome State Fault Refusal :=
  issue (trapNeed a) (fun c s =>
    let m := fenceMask c s a
    let scope := scopeCode sc
    let s := if s.beyondCore c.a scope then s.implicitCommit c.a else s
    let s := s.fenceWork c.a m scope
    if s.fenceReady c.a m scope then .done (s.fenceEnd c.a m)
    else .jump (s.waitIn c.a c.next (.fence m scope)) c.pc) s

/-! ### Hardware queues -/

/-- A binding that is refused: a queue outside the workgroup's set, or held by another context (R232, R367). -/
def State.queueRefused (s : State) (a : Agent) (q : Nat) : Bool :=
  let outside := match s.wgOf a with
    | some w => !(queueSet (s.record w)).contains q
    | none => false
  outside || s.wgs.any (fun p => p.2.cluster == a.cluster && (p.2.vi, p.2.asid) != s.ctxOf a &&
    (queueSet (s.record p.1)).contains q)
/-- A port bound or unbound (R105, R234). -/
def State.bindPort (s : State) (a : Agent) (p : Nat) (q : Option (BitVec 5)) : State :=
  let set := fun (t : Tab (BitVec 5)) => match q with
    | some v => tabPut t (p - 48) v
    | none => tabDel t (p - 48)
  match a with
  | .split g _ => s.modGroup g (fun x => { x with port := set x.port })
  | .thread t => s.modThread t (fun x => { x with port := set x.port })
/-- QBIND (R234, R367). -/
def execQbind (p : SReg) (a : SReg) (s : State) : Host.Outcome State Fault Refusal :=
  issue (trapNeed a) (fun c s =>
    let v := c.get s a.toNat
    let q := v.toNat % 32
    if !v.getLsbD 7 then .done (s.bindPort c.a p.toNat none)
    else if s.queueRefused c.a q then .trap 0x0B (BitVec.ofNat 64 (0x100 + q))
    else .done (s.bindPort c.a p.toNat (some (BitVec.ofNat 5 q)))) s
/-- QTRY (R233, R234, R367). -/
def qtryNeed (d : SReg) (p : SReg) : Need :=
  { dst := [d.toNat, d.toNat + 1], even := [d.toNat],
    pre := fun s a => if (s.boundQueue a p.toNat).isNone then some (0x0B, BitVec.ofNat 64 p.toNat) else none }
def execQtry (d : SReg) (p : SReg) (s : State) : Host.Outcome State Fault Refusal :=
  issue (qtryNeed d p) (fun c s =>
    match s.front c.a p.toNat with
    | some v => .done (((s.pop c.a p.toNat).sset c.a (d.toNat + 1) v).sset c.a d.toNat 1)
    | none => .done (s.sset c.a d.toNat 0)) s
/-- The status word of a port (R234). -/
def State.portStatus (s : State) (a : Agent) (r : Nat) : Word :=
  match s.boundQueue a r with
  | none => 0
  | some q =>
    let es := s.queue a.cluster q
    let held := (es.filter (fun e => e.held.isSome)).length
    BitVec.ofNat 64 (2 ^ 31 + q * 2 ^ 16 + held * 2 ^ 8 + (es.length - held))
/-- QSTAT (R234). -/
def execQstat (d : SReg) (p : SReg) (s : State) : Host.Outcome State Fault Refusal :=
  issue { dst := [d.toNat] } (fun c s => .done (s.sset c.a d.toNat (s.portStatus c.a p.toNat))) s

/-! ### Regions -/

/-- REGION and RCLOSE by a split that is not its group's only one, or with a reconvergence stack (R368). -/
def regionNeed : Need :=
  { pre := fun s a => match a with
      | .thread _ => none
      | .split g k =>
        if (s.group g).splits.length > 1 then some (0x12, 1)
        else if (s.splitOf g k).nest.any (fun n => match n with
          | .pend .. => true
          | .link .. => false) then some (0x12, 2)
        else none }
/-- A group arrives at REGION or RCLOSE (R52, R235). -/
def regionBody (buffers : Bool) (c : Ctx) (s : State) : Act :=
  match c.a with
  | .thread _ => .done s
  | .split g _ =>
    let w := (s.group g).wg
    let s := s.waitIn c.a c.next .region
    let s := s.modWg w (fun x => { x with
      arrived := (s.group g).idx :: x.arrived, nextPc := c.next, nextBuffers := buffers })
    .jump (s.regionCheck w) c.pc
def execRegion (s : State) : Host.Outcome State Fault Refusal := issue regionNeed (regionBody true) s
def execRclose (s : State) : Host.Outcome State Fault Refusal := issue regionNeed (regionBody false) s

/-! ### Skipper ranges -/

def Range.blank : Range := { next := 0, state := 0, owner := 0 }
/-- R, MINCHUNK, P and F of a range's word (R237). -/
def rangeR (w : Word) : Nat := bits w.toNat 0 32
def rangeMin (w : Word) : Nat := bits w.toNat 32 16
def rangeP (w : Word) : Nat := bits w.toNat 48 12
def rangeF (w : Word) : Nat := bits w.toNat 60 3 + 1
/-- The count of a GRAB (R51). -/
def grabCount (w : Word) : Nat :=
  let fp := rangeF w * rangeP w
  if rangeR w = 0 then 0 else Nat.min (rangeR w) (Nat.max (rangeMin w) ((rangeR w + fp - 1) / fp))
/-- A range of another virtual interface (R237, R364). -/
def State.rangePriv (s : State) (a : Agent) (r : Nat) : Bool :=
  match tabFind s.ranges r with
  | some x => x.owner != (s.ctxOf a).1
  | none => false
def rangePre (r : RangeNo) (s : State) (a : Agent) : Option (BitVec 8 × Word) :=
  if s.rangePriv a r.toNat then some (0x02, BitVec.ofNat 64 r.toNat) else none
/-- A result that Skipper answers: at a clk that no rule fixes, and until then its dependents are charged ASYNC (R224). -/
def rangeNeed (d : SReg) (r : RangeNo) (s : State) : Need :=
  { dst := [d.toNat, d.toNat + 1], even := [d.toNat], kind := .async, lat := 1 + s.delay, pre := rangePre r }
/-- GRAB; a range that no RSET has set is empty and stays nobody's (R51, R53, R237). Log 31 (DESIGN CHOICE). -/
def execGrab (d : SReg) (b : RangeNo) (s : State) : Host.Outcome State Fault Refusal :=
  issue (rangeNeed d b s) (fun c s =>
    let x := tabGet s.ranges b.toNat Range.blank
    let n := grabCount x.state
    let s := (s.implicitCommit c.a).spend
    let s := { s with ranges := tabMod s.ranges b.toNat (fun x => { x with
      next := x.next + BitVec.ofNat 64 n, state := x.state - BitVec.ofNat 64 n }) }
    .done ((s.sset c.a d.toNat x.next).sset c.a (d.toNat + 1) (BitVec.ofNat 64 n))) s
/-- The misuses of RSET that its registers show before a port is popped (R364). -/
def rsetPre (r : RangeNo) (b : SReg) (s : State) (a : Agent) : Option (BitVec 8 × Word) :=
  let w := s.sget a b.toNat
  if !isPort b.toNat && (rangeP w = 0 || rangeMin w = 0) then some (0x01, illegalVal 12 w.toNat)
  else match tabFind s.ranges r.toNat with
    | some x => if x.owner != (s.ctxOf a).1 && rangeR x.state != 0 then some (0x02, BitVec.ofNat 64 r.toNat) else none
    | none => none
def rsetNeed (r : RangeNo) (a b : SReg) : Need := { src := [a.toNat, b.toNat], pre := rsetPre r b }
/-- RSET (R51, R237, R364). -/
def execRset (d : RangeNo) (a b : SReg) (s : State) : Host.Outcome State Fault Refusal :=
  issue (rsetNeed d a b) (fun c s =>
    let w := c.get s b.toNat
    if rangeP w = 0 || rangeMin w = 0 then .trap 0x01 (illegalVal 12 w.toNat)
    else
      let s := s.implicitCommit c.a
      .done { s with ranges := tabPut s.ranges d.toNat {
        next := c.get s a.toNat, state := w &&& 0x7FFFFFFFFFFFFFFF, owner := (s.ctxOf c.a).1 } }) s
/-- RSTAT (R237). -/
def execRstat (d : SReg) (b : RangeNo) (s : State) : Host.Outcome State Fault Refusal :=
  issue (rangeNeed d b s) (fun c s =>
    let x := tabGet s.ranges b.toNat Range.blank
    .done (((s.sset c.a d.toNat x.next).sset c.a (d.toNat + 1) x.state).spend)) s

/-! ### Stack instructions -/

/-- BURN: min(s[a], 4,095 − b) du (R66, R238). -/
def burnNeed (a : SReg) : Need := { src := [a.toNat], ctl := false, draw := .none, cause := .balance }
def execBurn (a : SReg) (s : State) : Host.Outcome State Fault Refusal :=
  issue (burnNeed a) (fun c s =>
    .done (s.drawn c.a (.burn (Nat.min (c.get s a.toNat).toNat (4095 - (s.core c.a.unit).burned))) 0)) s
/-- SHUNT: a grant of the balancer's capacity (R67, R238). -/
def shuntNeed (d a : SReg) : Need := { src := [a.toNat], dst := [d.toNat], ctl := false, lat := 2, cause := .balance }
def execShunt (d a : SReg) (s : State) : Host.Outcome State Fault Refusal :=
  issue (shuntNeed d a) (fun c s =>
    let k := s.cluster c.a.cluster
    let n := Nat.min (c.get s a.toNat).toNat (bits k.stkcfg.toNat 32 16 - k.granted)
    let s := s.modCluster c.a.cluster (fun k => { k with
      granted := k.granted + n, shuntloss := k.shuntloss + BitVec.ofNat 64 n })
    let s := s.modCore c.a.unit (fun x => { x with shunt := x.shunt + n })
    .done (s.sset c.a d.toNat (BitVec.ofNat 64 n))) s
/-- RDMIS (R62, R238). -/
def rdmisNeed (d : SReg) : Need := { dst := [d.toNat], ctl := false }
def execRdmis (d : SReg) (s : State) : Host.Outcome State Fault Refusal :=
  issue (rdmisNeed d) (fun c s => .done (s.sset c.a d.toNat (mismOf (s.core c.a.unit).mis))) s
/-- DCLS (R68, R238). -/
def dclsNeed (a : SReg) : Need := { src := [a.toNat], ctl := false }
def execDcls (a : SReg) (s : State) : Host.Outcome State Fault Refusal :=
  issue (dclsNeed a) (fun c s =>
    .done (s.modGroup c.a.groupNo (fun x => { x with drawcls := (c.get s a.toNat).extractLsb' 0 2 }))) s

end Sys2Proof.Machine
end

