-- ==== Sys2Proof/Machine/Barriers.lean ====
section
/-!
DEFINITION. Named barriers (spec/13_isa_engines.md R192 to R195; spec/29_errors_execution.md R365; spec/31_errors_engines.md
R384) and tile descriptors (R197, R198).
-/

namespace Sys2Proof.Machine

/-- A barrier of an agent: its workgroup's, or its control context's own (R192). -/
def State.bar (s : State) (a : Agent) (n : Nat) : Bar := s.bget (s.wgOf a) a.threadNo n
def State.setBar (s : State) (a : Agent) (n : Nat) (b : Bar) : State := s.bput (s.wgOf a) a.threadNo n b

/-- A barrier misuse: ILLEGAL 13 with the barrier's number (R365). -/
def barTrap (n : Nat) : BitVec 8 × Word := (0x01, illegalVal 13 n)
/-- An instruction that registers on a barrier whose EXPA is 0 (R365). -/
def regPre (n : Nat) (s : State) (a : Agent) : Option (BitVec 8 × Word) :=
  if (s.bar a n).expa = 0 then some (barTrap n) else none
/-- Arrivals that have issued at a barrier and do not count yet: their release has not been performed (R194). -/
def State.arriving (s : State) (a : Agent) (n : Nat) : Nat :=
  (s.accesses.filter (fun x => x.2.act == some (.arrive (s.wgOf a) a.threadNo n))).length
/-- An arrival at a barrier whose EXPA is 0, or that would take PENDA below 0 (R365). -/
def arrivePre (n : Nat) (s : State) (a : Agent) : Option (BitVec 8 × Word) :=
  if (s.bar a n).expa = 0 || (s.bar a n).penda < 1 + (s.arriving a n : Int) then some (barTrap n) else none

/-- The implicit commit of a release of every stream at WORKGROUP scope, in a CLUSTER-bound workgroup (R53, R161, R194). -/
def State.commitWide (s : State) (a : Agent) : State := if s.beyondCore a 1 then s.implicitCommit a else s
/-- An acquire of every stream, with the descriptors that the members of the completed phase had seen (R194, R198). -/
def State.acquireAll (s : State) (a : Agent) (n : Nat) : State :=
  (s.setTview a (mergeViews (s.tview a) (s.bar a n).seen)).fenceEnd a (BitVec.allOnes 16)

/-- The status word of a barrier's last completed phase (R384). -/
def Bar.word (b : Bar) : Word := if b.status = 0 then 0 else BitVec.ofNat 64 (b.status.toNat + 2 ^ 32 * b.seq.toNat)
/-- A wait whose phase was poisoned, in a context that has opted in: it takes POISON, once (R384). -/
def State.barPoisons (s : State) (a : Agent) (n : Nat) : Bool :=
  (s.bar a n).status == 1 && s.popt (s.ctxOf a).1 (s.ctxOf a).2
/-- A sequence whose next issue is known to follow its own trap: a replay of no lanes. -/
def State.markReplay (s : State) (a : Agent) : State :=
  s.modStrand a (fun x => { x with park := some { mask := 0, token := none, ready := true, popped := [] } })

/-- A wait that completes in its issue clk (R193, R194, R384). -/
def barDone (c : Ctx) (s : State) (d : SReg) (n : BarNo) : Act :=
  if s.barPoisons c.a n.toNat && !c.replay then .trapOn (s.markReplay c.a) 0x10 0
  else .done ((s.acquireAll c.a n.toNat).sset c.a d.toNat (s.bar c.a n.toNat).word)

/-- BAR.INIT (R193, R195, R365). -/
def execBarInit (n : BarNo) (a : SReg) (s : State) : Host.Outcome State Fault Refusal :=
  issue (trapNeed a) (fun c s =>
    let v := c.get s a.toNat
    let b := s.bar c.a n.toNat
    if v = 0 || 255 < v.toNat || b.opened then .trap (barTrap n.toNat).1 (barTrap n.toNat).2
    else .done (s.setBar c.a n.toNat { b with
      expa := v.toNat, penda := v.toNat, expb := 0, pendb := 0, poison := false, seq := 0 })) s

/-- An arrival counts: PENDA falls by 1 (R193). -/
def State.arriveAt (s : State) (w : Option Nat) (t n : Nat) : State :=
  let b := s.bget w t n
  s.bput w t n { b with penda := b.penda - 1, opened := true }
/-- A posting of bytes counts (R193, R194). -/
def State.postAt (s : State) (w : Option Nat) (t n : Nat) (bytes : Int) : State :=
  let b := s.bget w t n
  s.bput w t n { b with pendb := b.pendb - bytes, opened := true }
/-- The barrier's phase will carry what an agent has seen of the descriptors (R198). -/
def State.publish (s : State) (a : Agent) (n : Nat) : State :=
  let b := s.bar a n
  s.setBar a n { b with pub := mergeViews b.pub (s.tview a) }
/-- An arrival as its instruction issues: a relaxed one counts at once; another is a release of every stream at WORKGROUP scope, and
counts once that has been performed (R193, R194). -/
def State.arrive (s : State) (a : Agent) (n : Nat) (rlx : Bool) : State :=
  if rlx then s.arriveAt (s.wgOf a) a.threadNo n
  else
    let (s, ok) := ((s.commitWide a).publish a n).releaseEvery a s.nextId 1
    if ok then s.arriveAt (s.wgOf a) a.threadNo n else s.after a (.arrive (s.wgOf a) a.threadNo n)
/-- What follows a release that has been performed comes about; an EMIT's records are Monarch's (R236). -/
def State.enact (s : State) : After → State
  | .arrive w t n => s.arriveAt w t n
  | .post w t n bytes => s.postAt w t n bytes
  | .push c q (some v) => s.pushEntry c q v
  | .push _ _ none => s
  | .emit .. => s
/-- The scope of the release before it: DIE for a push, DEVICE for an EMIT, WORKGROUP at a barrier (R194, R233, R236). -/
def After.scope : After → BitVec 3
  | .push .. => 2
  | .emit .. => 3
  | _ => 1
/-- It is to come about, as far as the agent's earlier accesses let it: they are performed first where they can be. -/
def State.afterDue (s : State) (id : Nat) (x : Access) (act : After) : State × Bool :=
  let s := (s.flush x.agent id).releaseL1 x.agent (BitVec.allOnes 16) act.scope
  let known := match act with
    | .push _ _ none => false
    | _ => true
  (s, known && !s.mustWait id x && !s.backHeld x.agent (BitVec.allOnes 16) act.scope)

def arriveNeed (d : SReg) (n : BarNo) : Need := { dst := [d.toNat], pre := arrivePre n.toNat }
/-- BAR.ARRIVE (R193, R194). -/
def execBarArrive (d : SReg) (n : BarNo) (rlx : Bool) (s : State) : Host.Outcome State Fault Refusal :=
  issue (arriveNeed d n) (fun c s =>
    .done ((s.arrive c.a n.toNat rlx).sset c.a d.toNat (if (s.bar c.a n.toNat).phase then 1 else 0))) s

def barWaitNeed (d : SReg) (a : SReg) : Need := { src := [a.toNat], dst := [d.toNat] }
/-- BAR.WAIT (R193, R194). -/
def execBarWait (d : SReg) (n : BarNo) (a : SReg) (s : State) : Host.Outcome State Fault Refusal :=
  issue (barWaitNeed d a) (fun c s =>
    let tok := (c.get s a.toNat).getLsbD 0
    if c.replay || (s.bar c.a n.toNat).phase != tok then barDone c s d n
    else .jump (s.waitIn c.a c.next (.barrier n.toNat tok d false)) c.pc) s

/-- The misuses of BAR.AW; a replay after its own POISON trap does not arrive again. -/
def awPre (n : Nat) (s : State) (a : Agent) : Option (BitVec 8 × Word) :=
  if (s.strand a).park.isSome then none else arrivePre n s a
def awNeed (d : SReg) (n : BarNo) : Need := { dst := [d.toNat], pre := awPre n.toNat }
/-- BAR.AW (R193, R194); one that a restore brings back with its arrival standing waits only (R309). -/
def execBarAw (d : SReg) (n : BarNo) (rlx : Bool) (s : State) : Host.Outcome State Fault Refusal :=
  issue (awNeed d n) (fun c s =>
    match (s.strand c.a).park with
    | some p => match p.aw with
      | some tok => if (s.bar c.a n.toNat).phase != tok then barDone c s d n
        else .jump (s.waitIn c.a c.next (.barrier n.toNat tok d true)) c.pc
      | none => barDone c s d n
    | none =>
      let tok := (s.bar c.a n.toNat).phase
      .jump ((s.arrive c.a n.toNat rlx).waitIn c.a c.next (.barrier n.toNat tok d true)) c.pc) s

/-- BAR.TEST (R193, R194). -/
def execBarTest (d : SReg) (n : BarNo) (a : SReg) (s : State) : Host.Outcome State Fault Refusal :=
  issue (barWaitNeed d a) (fun c s =>
    if (s.bar c.a n.toNat).phase != (c.get s a.toNat).getLsbD 0 then .done ((s.acquireAll c.a n.toNat).sset c.a d.toNat 1)
    else .done (s.sset c.a d.toNat 0)) s

/-- Whether a count of bytes stands in its 48 bits (R192). -/
def bytesFit (x : Int) : Bool := decide (-(2 : Int) ^ 47 ≤ x) && decide (x < (2 : Int) ^ 47)
def expectNeed (n : BarNo) (a : SReg) : Need := { src := [a.toNat], pre := regPre n.toNat }
/-- BAR.EXPECT and BAR.EXPECT.POST (R193 to R195, R365). -/
def execBarExpect (n : BarNo) (a : SReg) (post : Bool) (s : State) : Host.Outcome State Fault Refusal :=
  issue (expectNeed n a) (fun c s =>
    let v := (c.get s a.toNat).toInt
    let b := s.bar c.a n.toNat
    if post then
      if !bytesFit (b.pendb - v) then .trap (barTrap n.toNat).1 (barTrap n.toNat).2
      else
        let (s, ok) := (s.commitWide c.a).releaseEvery c.a s.nextId 1
        .done (if ok then s.postAt (s.wgOf c.a) c.a.threadNo n.toNat v
          else s.after c.a (.post (s.wgOf c.a) c.a.threadNo n.toNat v))
    else if !bytesFit (b.expb + v) || !bytesFit (b.pendb + v) then .trap (barTrap n.toNat).1 (barTrap n.toNat).2
    else .done (s.setBar c.a n.toNat { b with expb := b.expb + v, pendb := b.pendb + v, opened := true })) s

/-- An engine registers on a barrier (R194). -/
def Bar.register (b : Bar) (bytes : Nat) : Bar :=
  { b with penda := b.penda + 1, expb := b.expb + bytes, pendb := b.pendb + bytes, opened := true }
/-- An engine posts; a failed one poisons the barrier and leaves its record's SEQ with it (R194, R383). -/
def Bar.post (b : Bar) (bytes : Nat) (error : Option (BitVec 32)) : Bar :=
  let b := { b with penda := b.penda - 1, pendb := b.pendb - bytes, opened := true }
  match error with
  | some q => { b with poison := true, seq := if b.poison then b.seq else q }
  | none => b

/-- The end of a phase at the end of a clk: PHASE flips with its status (R194, R365, R384). Log 40 (DEDUCED). -/
def Bar.flip (b : Bar) (seq : BitVec 32) : Bar :=
  { b with
    phase := !b.phase
    penda := b.expa
    expb := 0
    pendb := 0
    opened := false
    pub := []
    seen := b.pub
    status := if b.poison then 1 else if b.pendb < 0 then 2 else 0
    seq := if b.poison then b.seq else if b.pendb < 0 then seq else 0 }
/-- Whether a phase completes (R194). -/
def Bar.complete (b : Bar) : Bool := b.expa != 0 && b.opened && b.penda == 0 && decide (b.pendb ≤ 0)

/-- The phase test of one barrier, of a workgroup or of a thread (R194, R365). -/
def State.testBar (s : State) (w : Option Nat) (t n : Nat) : State :=
  let b := s.bget w t n
  if !b.complete then s
  else
    let seq := s.mgmt.errSeq
    let s := if b.pendb < 0 then
        match w with
        | some w => s.report 1 1 (unitWord 0 (s.wg w).core) ((s.wg w).vi, (s.wg w).asid) n 0 0 0x21 (s.joinedWg w)
        | none => s.report 1 1 (unitWord 1 (t / 2)) (s.ctxOf (.thread t)) n 0 0 0x21 (s.joined (.thread t))
      else s
    s.bput w t n (b.flip seq)

/-- Every agent of the machine that exists. -/
def State.agents (s : State) : List Agent :=
  s.groups.flatMap (fun p => p.2.splits.map (fun q => Agent.split p.1 q.1)) ++
    (s.threads.filter (fun p => p.2.ctx.isSome)).map (fun p => Agent.thread p.1)

/-- A wait whose phase has completed ends: an acquire, the status word, or the POISON trap at its own address (R194, R384). -/
def State.barWake (s : State) (a : Agent) (n : Nat) (tok : Bool) (d : SReg) : State :=
  if (s.bar a n).phase = tok || (isPort d.toNat && !s.roomFor a [d.toNat]) then s
  else if s.barPoisons a n then
    ((s.modStrand a (fun x => { x with wait := none })).markReplay a).queueTrap a 0x10 0
  else ((s.acquireAll a n).sset a d.toNat (s.bar a n).word).endWait a
/-- All barriers at the end of a clk: phases complete, and waiters go on from the next clk (R194). -/
def State.testBars (s : State) : State :=
  let s := (s.wgs.map (·.1)).foldl (fun s w => ((s.wg w).b.map (·.1)).foldl (fun s n => s.testBar (some w) 0 n) s) s
  let s := ((s.threads.filter (fun p => p.2.wg.isNone)).map (·.1)).foldl (fun s t =>
    ((s.thread t).b.map (·.1)).foldl (fun s n => s.testBar none t n) s) s
  s.agents.foldl (fun s a => match (s.strand a).wait with
    | some (.barrier n tok d _) => s.barWake a n tok d
    | _ => s) s

/-! ### Tile descriptors -/

/-- TSET: a reserved field is written as given and TGET gives it back, though R1 has reserved fields read as zero elsewhere: the word
of R198 is the whole word (R1, R198). Log 34 (DEDUCED). -/
def tsetNeed (n : TReg) (a : SReg) : Need := { src := [a.toNat], tdst := [n.toNat] }
/-- TSET writes word w of tn as given (R198). Log 34 (DEDUCED). -/
def execTset (n : TReg) (wd : Fin 5) (a : SReg) (s : State) : Host.Outcome State Fault Refusal :=
  issue (tsetNeed n a) (fun c s => .done (s.tput c.a n.toNat wd (c.get s a.toNat))) s
/-- TGET: the whole word, reserved fields as TSET wrote them (R198). Log 34 (DEDUCED). -/
def tgetNeed (d : SReg) (n : TReg) : Need := { dst := [d.toNat], tsrc := [n.toNat] }
/-- TGET gives word w of tn, reserved fields as they were written, though R1 reads a reserved field as 0 (R198). Log 34 (DEDUCED). -/
def execTget (d : SReg) (n : TReg) (wd : Fin 5) (s : State) : Host.Outcome State Fault Refusal :=
  issue (tgetNeed d n) (fun c s => .done (s.sset c.a d.toNat ((s.tget c.a n.toNat).getD wd 0))) s
/-- TCOPY (R198). -/
def tcopyNeed (d a : TReg) : Need := { tsrc := [a.toNat], tdst := [d.toNat] }
def execTcopy (d a : TReg) (s : State) : Host.Outcome State Fault Refusal :=
  issue (tcopyNeed d a) (fun c s =>
    let ws := s.tget c.a a.toNat
    .done ((List.range 5).foldl (fun s w => s.tput c.a d.toNat w (ws.getD w 0)) s)) s

end Sys2Proof.Machine
end

