-- ==== Sys2Proof/Machine/Sx.lean ====
section
/-!
DEFINITION. The SX block formats (spec/02_formats.md R27 to R30): packing sixteen FP32 values and the value of an element.
-/

namespace Sys2Proof.Machine

/-- A block: shared exponent, micro-exponents of the four quads, sixteen element fields (R27). -/
structure SxBlock where
  e  : Nat
  u  : List Nat
  xs : List Nat
deriving DecidableEq, Repr

/-- The value of an element of width m in a block of exponent e under the micro-exponent u (R28). -/
def sxVal (m e u x : Nat) : FVal :=
  let q := x % 2 ^ m
  let s := x.testBit m
  if e = 255 || (s && q = 0) then .nan false else .num s q ((e : Int) - 127 - (u : Int) - ((m : Int) - 1))
/-- Element j of a block. -/
def SxBlock.val (b : SxBlock) (m j : Nat) : FVal := sxVal m b.e (b.u.getD (j / 4) 0) (b.xs.getD j 0)
/-- Bytes of a block of width m (R27). -/
def sxBytes (m : Nat) : Nat := 2 * (m + 2)
/-- The bit string of a block (R27). -/
def SxBlock.toNat (b : SxBlock) (m : Nat) : Nat :=
  b.e + ((List.range 4).map (fun g => b.u.getD g 0 * 2 ^ (8 + 2 * g))).sum +
    ((List.range 16).map (fun j => b.xs.getD j 0 * 2 ^ (16 + (m + 1) * j))).sum
def SxBlock.ofNat (m v : Nat) : SxBlock :=
  { e := bits v 0 8
    u := (List.range 4).map (fun g => bits v (8 + 2 * g) 2)
    xs := (List.range 16).map (fun j => bits v (16 + (m + 1) * j) (m + 1)) }

/-- y ÷ 2^(e − 127 − u − (m − 1)) rounded to an integer: the magnitude and whether it is inexact (R29). -/
def sxQ (m : Nat) (rm : Rnd) (y : FVal) (e u : Nat) : Nat × Bool :=
  match y with
  | .num n k x => roundAt rm n k x ((e : Int) - 127 - (u : Int) - ((m : Int) - 1))
  | _ => (0, false)

/-- Packing under a rounding mode, with the flags it raises (R29). A quad that no micro-exponent fits, where E = 254 and a finite element
overflows, takes u = 0. Log 134 (DESIGN CHOICE). -/
def sxPack (m : Nat) (rm : Rnd) (xs : List Lane) : SxBlock × FFlags :=
  let qmax := 2 ^ m - 1
  let vs := (List.range 16).map (fun j => fp32.val false (xs.getD j 0).toNat)
  let y := vs.map (fun v => match v with
    | .nan _ => FVal.num false 0 0
    | .inf n => .num n qmax (127 - ((m : Int) - 1))
    | x => x)
  let fits := fun (e u : Nat) (l : List FVal) => l.all (fun v => (sxQ m rm v e u).1 ≤ qmax)
  let e := ((List.range 255).find? (fun e => fits e 0 y)).getD 254
  let u := (List.range 4).map (fun g => ([3, 2, 1].find? (fun v => fits e v ((y.drop (4 * g)).take 4))).getD 0)
  let el := fun (j : Nat) =>
    match vs.getD j (.nan false) with
    | .nan s => (2 ^ m, if s then flagNV else (0 : FFlags))
    | v =>
      let (n, inexact) := sxQ m rm (y.getD j (.num false 0 0)) e (u.getD (j / 4) 0)
      let q := Nat.min n qmax
      let fl : FFlags := match v with
        | .inf _ => 0
        | _ => if qmax < n then flagOF ||| flagNX else if inexact then flagNX else 0
      (q + (if negOf v && q != 0 then 2 ^ m else 0), fl)
  let els := (List.range 16).map el
  ({ e := e, u := u, xs := els.map (·.1) }, els.foldl (fun f x => f ||| x.2) 0)

/-- F32.SX of one element: exact, the canonical NaN for a NaN element, never −0.0 (R28). -/
def sxUnpack (m e u x : Nat) : Lane :=
  match sxVal m e u x with
  | .num n q k => if q = 0 then 0 else BitVec.ofNat 32 (fp32.round .ne false n q k).1
  | _ => BitVec.ofNat 32 fp32.nan

end Sys2Proof.Machine
end

