-- ==== Sys2Proof/Machine/Memory.lean ====
section
/-!
DEFINITION. Memory and atomic instructions as they issue (spec/11_isa_memory.md): the accesses that a sequence makes, the checks
that come before any effect (R155, R377 to R380), loads and atomics (R156 to R166), stores (R157 to R162) and CACHE (R167).
What happens to an access that is performed later stands in Complete.lean.
-/

namespace Sys2Proof.Machine

/-- A memory instruction as its fields name it (R101): vector or scalar; 0 load, 1 store, 2 atomic with its code; registers,
stream, size code; whether its own form, or the stream's ORD, makes it an acquire or a release. -/
structure MemForm where
  vec  : Bool
  what : Nat
  op   : Nat := 0
  d    : Nat
  base : Nat
  idx  : Nat
  st   : Nat
  sz   : Nat
  acquire : Bool := false
  release : Bool := false
  x    : Option (BitVec 25)

/-- One access: the lane, the SX block, or 0 for a scalar form; the lane whose private slice it reaches, for a block the one its
address is formed for (R76, R159); its address, bytes and alignment. -/
structure Elem where
  key : Nat
  own : Option Nat
  va  : Nat
  n   : Nat
  al  : Nat
deriving DecidableEq, Repr

/-- The conversion of sz 5: 0 FP32, 1 BF16, 2 FP16, 3 and up SX of the width code (R158). -/
def State.conv (s : State) (a : Agent) : Nat :=
  let f := s.fmt a
  if fmtNarrow f = 3 then 3 + fmtSxw f else fmtNarrow f
/-- Bytes of an access of a size code under a conversion (R157, R158). -/
def sizeBytes (sz conv : Nat) : Nat :=
  if sz < 5 then 2 ^ sz else if conv = 0 then 4 else if conv < 3 then 2 else sxBytes (sxBits (conv - 3))
/-- Its alignment (R155, R158). -/
def sizeAlign (sz conv : Nat) : Nat := if sz < 5 then 2 ^ sz else if conv = 0 then 4 else 2
/-- Registers that a size takes, and the lane words of an access. -/
def sizeRegs (sz : Nat) : Nat := if sz = 3 then 2 else if sz = 4 then 4 else 1

/-- The size code in force: atomics name 4 or 8 bytes. -/
def MemForm.size (f : MemForm) : Nat := if f.what = 2 then (if f.vec then 2 else 3) else f.sz

/-- The accesses of a sequence, in ascending lane order (R157, R159, R162). -/
def MemForm.elems (f : MemForm) (c : Ctx) (s : State) : List Elem :=
  let conv := s.conv c.a
  let n := sizeBytes f.size conv
  let al := sizeAlign f.size conv
  if !f.vec then [{ key := 0, own := none, va := (c.addrS s f.base f.idx f.x).toNat, n := n, al := al }]
  else if f.size = 5 && 3 ≤ conv then
    ((List.range 6).filter (fun g => c.act.extractLsb' (16 * g) 16 != 0)).map (fun g =>
      { key := g, own := some (16 * g), va := (c.addrV s f.base f.idx n f.x (if f.idx = 63 then g else 16 * g)).toNat, n := n, al := al })
  else
    ((List.range 96).filter (fun i => c.act.getLsbD i)).map (fun i =>
      { key := i, own := some i, va := (c.addrV s f.base f.idx n f.x i).toNat, n := n, al := al })

/-- The lanes that an access stands for (R163). -/
def MemForm.lanesOf (f : MemForm) (c : Ctx) (s : State) (key : Nat) : Mask :=
  if !f.vec then 1
  else if f.size = 5 && 3 ≤ s.conv c.a then c.act &&& ((0xFFFF : Mask) <<< (16 * key))
  else (1 : Mask) <<< key

/-- Whether an address leads to a REMOTE page. -/
def State.isRemote (s : State) (a : Agent) (va : Nat) : Bool :=
  match s.home (s.ctxOf a).1 (s.ctxOf a).2 va false false with
  | .remote _ _ => true
  | _ => false
/-- An access that WINDOW stops (R75, R77, R290, R379). -/
def State.windowFails (s : State) (a : Agent) (e : Elem) : Bool :=
  match regionOf e.va e.n with
  | (.none, _) => true
  | (.global, _) => (lineRuns e.va e.n 3).any (fun r => s.isRemote a r.1)
  | (r, o) => (s.localAt a e.own r o e.n).isNone

/-- What the home of an access answers before it is performed: the worst of its runs. A run that an L1 serves is fine. -/
inductive Probe where
  | ok | poison (va : Nat) | fault (va stage ipa : Nat) (perm : Bool) | malformed | owner
deriving DecidableEq, Repr

/-- The poisoned sector of lowest address among a run's bytes. -/
def sectorOf (va : Nat) : Nat := va / 16 * 16

/-- One run of a load or atomic. -/
def State.probeRun (s : State) (a : Agent) (write : Bool) (va n : Nat) : Probe :=
  let (vi, asid) := s.ctxOf a
  let key := lineKey (s.tagAsid vi asid va) va
  let first := fun (s : State) => Probe.poison (sectorOf ((((List.range n).map (fun j => va + j)).find? (fun v =>
    (s.homeBytes key v 1).2)).getD va))
  let atHome : Probe :=
    match s.home vi asid va write false with
    | .ok t => if (t.homeBytes key va n).2 then first t else .ok
    | .fault st i p => .fault va st i p
    | .malformed => .malformed
    | .owner => .owner
    | .remote _ _ => .ok
  match a with
  | .thread _ => atHome
  | .split g _ =>
    match s.readL1 (g / 32) key va n with
    | some (_, bad) => if bad then .poison (sectorOf va) else if write then atHome else .ok
    | none => atHome

/-- An access's probe: the first of its runs that is not fine. -/
def State.probe (s : State) (a : Agent) (write : Bool) (e : Elem) : Probe :=
  match regionOf e.va e.n with
  | (.global, _) => (((lineRuns e.va e.n 3).map (fun r => s.probeRun a write r.1 r.2)).find? (fun p => p != .ok)).getD .ok
  | (r, o) =>
    match s.localAt a e.own r o e.n with
    | none => .ok
    | some p => match s.poisonIn p e.n with
      | [] => .ok
      | q :: _ => .poison (e.va - e.va % 16 + (q - p / 16 * 16))

/-- An acquire of a stream by the agent is still under way (R161). -/
def State.acquiring (s : State) (a : Agent) (st : Nat) : Bool :=
  s.accesses.any (fun p => p.2.agent == a && p.2.what < 3 && p.2.acquire && p.2.stream == st)
/-- A sequence of a stream waits while an acquire of it is under way (R161). -/
def acqWaits (st : StreamNo) (s : State) (g : Agent) : Option Cause :=
  if s.acquiring g st.toNat then some .loadwait else none
/-- Whether every access lies on UO pages (R161, R164, R241). -/
def State.allUo (s : State) (a : Agent) (es : List Elem) : Bool :=
  es.all (fun e => (s.kindsAt (s.ctxOf a).1 (s.ctxOf a).2 e.va e.n).all (· == 2))
/-- What a sequence would work with if it issued now, for a wait that looks at its addresses. -/
def State.wouldBe (s : State) (a : Agent) (ports : List Nat) : Ctx :=
  let x := s.strand a
  let mask := match x.park with
    | some p => p.mask
    | none => s.exMask a
  { a := a, pc := x.pc, next := x.pc, popped := match x.park with
      | some p => p.popped
      | none => ((s.popAll a ports).map (·.2)).getD []
    mask := mask, act := mask, replay := x.park.isSome }
/-- A later access of a stream waits while an acquire of it is under way, unless it lies on UO pages (R161, R241). -/
def MemForm.streamWait (f : MemForm) (s : State) (a : Agent) : Option Cause :=
  if s.acquiring a f.st && !s.allUo a (f.elems (s.wouldBe a (portsOf [f.base, f.idx])) s) then some .loadwait else none

/-- Registers that hold the data of a form, in order. -/
def MemForm.dataRegs (f : MemForm) : List Nat :=
  if f.what = 2 then (if f.op % 8 = 7 && f.op != 15 && (f.op < 8 || 16 ≤ f.op) then [f.d, f.d + 1] else [f.d])
  else if f.vec then (List.range (sizeRegs f.sz)).map (fun j => f.d + j)
  else if f.sz = 4 then [f.d, f.d + 1] else [f.d]

/-- What a memory instruction needs (R93, R154, R165). -/
def MemForm.need (f : MemForm) : Need :=
  let data := f.dataRegs
  let isLoad := f.what != 1
  let reads := f.what != 0
  let dst := if f.what = 2 then [f.d] else data
  if f.vec then
    { src := [f.base]
      vsrc := (if f.idx = 63 then [] else [f.idx]) ++ (if reads then data else [])
      vdst := if isLoad then dst else []
      lim := data ++ (if f.idx = 63 then [] else [f.idx])
      even := if data.length = 2 then [f.d] else []
      quad := if data.length = 4 then [f.d] else []
      ctl := false
      pipe := some 2
      draw := .mem
      kind := .loadwait
      len := lenX f.x
      waits := f.streamWait }
  else
    { src := [f.base, f.idx] ++ (if reads then data else [])
      dst := if isLoad then dst else []
      even := if data.length = 2 then [f.d] else []
      kind := .loadwait
      len := lenX f.x
      waits := f.streamWait }

/-- The traps that an access takes before any effect, in the order of R362 and R380: MISALIGN, WINDOW, ACCESS, OWNER, then
WATCH; `probes` says what the homes answer. -/
def State.memTrap (s : State) (a : Agent) (es : List Elem) (probes : List Probe) (early : Bool) :
    Option (BitVec 8 × Nat) :=
  let (vi, asid) := s.ctxOf a
  let at_ := fun (p : Probe) => ((es.zip probes).find? (fun x => x.2 == p)).map (fun x => x.1.va)
  match es.find? (fun e => e.va % e.al != 0) with
  | some e => some (0x03, e.va)
  | none =>
    match es.find? (fun e => s.windowFails a e) with
    | some e => some (0x04, e.va)
    | none =>
      match if early then at_ .malformed else none with
      | some va => some (0x06, va)
      | none =>
        match if early then at_ .owner else none with
        | some va => some (0x07, va)
        | none =>
          if s.claimed a && probes.all (fun p => p == .ok) then
            (es.find? (fun e => s.mgmt.watches.any (fun w => w.1 == vi && w.2.1 == asid &&
              decide (BitVec.toNat w.2.2.1 < e.va + e.n) && decide (e.va < BitVec.toNat w.2.2.2)))).map (fun e => (0x0E, e.va))
          else none

/-- The record of a malformed table entry (R377). -/
def State.malformedAt (s : State) (a : Agent) (vi : BitVec 8) (asid : BitVec 16) (va : Nat) : State :=
  s.report 3 1 (unitWord 7 (s.stationOf (s.tagAsid vi asid va) va)) (vi, asid) va 0 1 0x40 (s.joined a)

/-- The clks after which the data of an access that waits on nothing is written (R156); none where that depends on timing. -/
def State.elemLat (s : State) (a : Agent) (e : Elem) : Option Nat :=
  let (vi, asid) := s.ctxOf a
  match regionOf e.va e.n with
  | (.lane, _) => some 10
  | (.scratch, _) => some 10
  | (.shared, o) => match a with
    | .split g _ => some (if o / 0x40000 = g / 32 % 4 then 16 else 24)
    | .thread _ => some 24
  | (.global, _) => match a with
    | .split g _ =>
      if (lineRuns e.va e.n 3).all (fun r => (s.readL1 (g / 32) (lineKey (s.tagAsid vi asid r.1) r.1) r.1 r.2).isSome)
      then some 16 else none
    | .thread _ => none
  | _ => none
/-- The latency of a load all of whose accesses wait on nothing. -/
def State.loadLat (s : State) (a : Agent) (es : List Elem) : Option Nat :=
  es.foldl (fun m e => match m, s.elemLat a e with
    | some x, some y => some (Nat.max x y)
    | _, _ => none) (some 10)
/-- What a conversion adds (R156). -/
def convExtra (sz conv : Nat) : Nat := if sz < 5 || conv = 0 then 0 else if conv < 3 then 2 else 4

/-! ### What a load writes -/

/-- The value of a narrow element as a lane, with its flags (R158). -/
def widen1 (conv x : Nat) : Lane × FFlags :=
  if conv = 0 then (BitVec.ofNat 32 x, 0)
  else
    let (v, f) := convF (if conv = 1 then bf16 else fp16) fp32 .ne false x
    (BitVec.ofNat 32 v, f)
/-- Element i mod 16 of a block's bytes (R159). -/
def sxLane (conv : Nat) (bs : List Byte) (i : Nat) : Lane :=
  let m := sxBits (conv - 3)
  let b := SxBlock.ofNat m (ofBytes bs)
  sxUnpack m b.e (b.u.getD (i % 16 / 4) 0) (b.xs.getD (i % 16) 0)

/-- The push that a load's port destination will make keeps its place among the pushes of the split (R233): it is entered at the
issue, and takes its value from the load's data. -/
def State.reservePush (s : State) (a : Agent) (id r : Nat) : State :=
  match isPort r, s.boundQueue a r with
  | true, some q =>
    let (vi, asid) := s.ctxOf a
    let x := { Access.blank a vi asid ((s.wgOf a).getD 0) with
      what := 5, op := id, dest := (1, r, 0, 0), act := some (.push a.cluster q none) }
    { s with accesses := tabPut s.accesses s.nextId x, nextId := s.nextId + 1 }
  | _, _ => s
/-- Such a push will not be made: its load has not been performed. -/
def State.dropPush (s : State) (id : Nat) : State :=
  { s with accesses := s.accesses.filter (fun p => !(p.2.what == 5 && p.2.op == id)) }
/-- A scalar destination of a load: a register, or the value of the push that it holds. -/
def State.loadSet (s : State) (id : Nat) (a : Agent) (r : Nat) (v : Word) : State :=
  match s.accesses.find? (fun p => p.2.what == 5 && p.2.op == id && p.2.dest.2.1 == r) with
  | some (k, _) => { s with accesses := tabMod s.accesses k (fun x => { x with
      op := 0
      act := match x.act with
        | some (.push c q _) => some (.push c q (some v))
        | y => y }) }
  | none => s.sset a r v

/-- The lanes that a load or atomic has got are written (R157 to R159, R162, R165). -/
def State.deliver (s : State) (id : Nat) (x : Access) : State :=
  let (file, d, sz, conv) := x.dest
  if file = 1 then
    match tabFind x.got 0 with
    | none => s
    | some bs =>
      if sz = 4 then
        (s.loadSet id x.agent d (BitVec.ofNat 64 (field bs 0 8))).loadSet id x.agent (d + 1) (BitVec.ofNat 64 (field bs 8 8))
      else s.loadSet id x.agent d (BitVec.ofNat 64 (ofBytes bs))
  else if sz < 5 then
    (List.range (sizeRegs sz)).foldl (fun s j =>
      let old := s.vget x.agent.groupNo (d + j)
      s.vput x.agent.groupNo (d + j) (lanes (fun i => match tabFind x.got i with
        | some bs => BitVec.ofNat 32 (field bs (4 * j) 4)
        | none => lane old i))) s
  else if conv < 3 then
    let old := s.vget x.agent.groupNo d
    let ws := (List.range 96).map (fun i => match tabFind x.got i with
      | some bs => widen1 conv (ofBytes bs)
      | none => (lane old i, (0 : FFlags)))
    (s.vput x.agent.groupNo d (ws.map (·.1))).raiseFlags x.agent (ws.foldl (fun m w => m ||| w.2) 0)
  else
    let old := s.vget x.agent.groupNo d
    s.vput x.agent.groupNo d (lanes (fun i => match tabFind x.got (i / 16) with
      | some bs => if x.mask.getLsbD i then sxLane conv bs i else lane old i
      | none => lane old i))

/-! ### Loads and atomics -/

/-- The data operand of an access of an atomic: y, or the second operand of CAS. -/
def MemForm.operand (f : MemForm) (c : Ctx) (s : State) (reg key : Nat) : List Byte :=
  if f.vec then toBytes (lane (s.vget c.a.groupNo reg) key).toNat 4 else toBytes (c.get s reg).toNat 8

/-- The access record of a load or atomic. -/
def MemForm.access (f : MemForm) (c : Ctx) (s : State) (es : List Elem) (acq rel held : Bool) : Access :=
  let (vi, asid) := s.ctxOf c.a
  let conv := s.conv c.a
  { Access.blank c.a vi asid ((s.wgOf c.a).getD 0) with
    what := f.what
    op := f.op
    stream := f.st
    st := s.stream c.a f.st
    acquire := acq
    release := rel
    lanes := es.map (fun e => (e.key, BitVec.ofNat 64 e.va,
      if f.what = 2 then f.operand c s f.d e.key else List.replicate e.n 0))
    dest := (if f.vec then 0 else 1, f.d, f.size, conv)
    cas := if f.what = 2 && f.dataRegs.length = 2 then es.map (fun e => f.operand c s (f.d + 1) e.key) else []
    mask := if f.vec then c.act else 1
    block := if acq then 1 <<< f.st else 0
    held := held
    popped := c.popped }
/-- All 64 outstanding-access slots of a core are in use: each is held from an issue until the last lane has been performed
(R154). -/
def State.slotsFull (s : State) (u : Nat) : Bool :=
  decide (64 ≤ (s.accesses.filter (fun p => p.2.core == u && (p.2.what == 3 || (p.2.what < 3 && p.2.open)))).length)

/-- A load or atomic as its sequence issues (R155, R156, R161, R164, R377 to R380). -/
def loadBody (f : MemForm) (c : Ctx) (s : State) : Act :=
  let es := f.elems c s
  let probes := es.map (fun e => s.probe c.a (f.what == 2) e)
  match s.memTrap c.a es probes false with
  | some (code, va) => .trap code (BitVec.ofNat 64 va)
  | none =>
    if s.slotsFull c.a.unit then .wait .pipe
    else
      let uo := s.allUo c.a es
      let ord := (s.stream c.a f.st).ord
      let acq := !uo && (f.acquire || (f.what == 2 && ord.getLsbD 0))
      let rel := !uo && f.what == 2 && ord.getLsbD 1
      let t := es.foldl (fun s e => s.settle c.a s.nextId e.va e.n) s
      let t := if f.what = 2 then t.implicitCommit c.a else t
      let id := t.nextId
      let held := probes.any (fun p => p != .ok)
      let x := f.access c s es acq rel held
      let t := { t with accesses := tabPut t.accesses id x, nextId := id + 1 }
      let lat := if held || f.what = 2 || t.mustWait id x then none else t.loadLat c.a es
      let hold := fun (t : State) => f.need.dst.foldl (fun t r => t.reservePush c.a id r) t
      match lat, acq with
      | some l, false =>
        let t := (t.performOne id).1
        let y := (tabFind t.accesses id).getD x
        let t := ({ t with accesses := tabDel t.accesses id } : State).deliver id y
        .gone (t.retire { f.need with lat := l + convExtra f.size (s.conv c.a) } c c.next)
      | some l, true =>
        .gone (((hold t).inClk l (.loadComplete id .none)).retire { f.need with open_ := true } c c.next)
      | none, _ =>
        let t := (hold t).later 16 (.loadComplete id .none)
        if held then
          .gone ((t.retire { f.need with open_ := true } c c.pc).modStrand c.a (fun x =>
            { x with wait := some (.access id), resume := c.next }))
        else .gone (t.retire { f.need with open_ := true } c c.next)

/-! ### Stores -/

/-- The bytes of one access of a store, with the flags that a narrowing raises (R157 to R159, R162). -/
def MemForm.data (f : MemForm) (c : Ctx) (s : State) (e : Elem) : List Byte × FFlags :=
  if !f.vec then
    if f.sz = 4 then (toBytes (c.get s f.d).toNat 8 ++ toBytes (c.get s (f.d + 1)).toNat 8, 0)
    else (toBytes (c.get s f.d).toNat e.n, 0)
  else
    let v := s.vget c.a.groupNo f.d
    let conv := s.conv c.a
    let rm := fmtRnd (s.fmt c.a)
    if f.sz < 3 then (toBytes (lane v e.key).toNat e.n, 0)
    else if f.sz < 5 then
      ((List.range (sizeRegs f.sz)).flatMap (fun j => toBytes (lane (s.vget c.a.groupNo (f.d + j)) e.key).toNat 4), 0)
    else if conv = 0 then (toBytes (lane v e.key).toNat 4, 0)
    else if conv < 3 then
      let (x, fl) := convF fp32 (if conv = 1 then bf16 else fp16) rm false (lane v e.key).toNat
      (toBytes x 2, fl)
    else
      let m := sxBits (conv - 3)
      let xs := (List.range 16).map (fun j =>
        let i := 16 * e.key + j
        if c.act.getLsbD i then lane v i else 0)
      let (b, fl) := sxPack m rm xs
      (toBytes (b.toNat m) e.n, fl)

/-- What the home of a store's access answers where the store goes there at once; a store that an L1 takes asks only the
rights of a line that a translation has filled (R83, R163). -/
def State.storeProbe (s : State) (a : Agent) (st : Stream) (beyond buffers : Bool) (e : Elem) : Probe :=
  let (vi, asid) := s.ctxOf a
  match regionOf e.va e.n with
  | (.global, _) =>
    (((lineRuns e.va e.n 3).map (fun r =>
      let out := a.isThread || (!buffers && (beyond || st.policy != 0 || s.kindAt vi asid r.1 == 1))
      if out then
        match s.home vi asid r.1 true false with
        | .ok _ => Probe.ok
        | .fault st i p => .fault r.1 st i p
        | .malformed => .malformed
        | .owner => .owner
        | .remote _ _ => .ok
      else match s.l1 a.unit (lineKey (s.tagAsid vi asid r.1) r.1) with
        | some l =>
          if l.filled && !s.mayWrite vi r.1 l.w then
            let (stage, ipa) := s.permStage vi asid r.1 true
            .fault r.1 stage ipa true
          else .ok
        | none => .ok)).find? (fun p => p != .ok)).getD .ok
  | _ => .ok

/-- The access record of a store: the lanes that do not fault; with one that does, the release waits for its replay (R163). -/
def MemForm.store (f : MemForm) (c : Ctx) (s : State) (good : List Elem) (data : Elem → List Byte) (release buffers : Bool) : Access :=
  let (vi, asid) := s.ctxOf c.a
  { Access.blank c.a vi asid ((s.wgOf c.a).getD 0) with
    what := 1
    stream := f.st
    st := s.stream c.a f.st
    release := release
    lanes := good.map (fun e => (e.key, BitVec.ofNat 64 e.va, data e))
    dest := (if f.vec then 0 else 1, 0, f.size, s.conv c.a)
    mask := if f.vec then c.act else 1
    via := true
    buf := buffers }
/-- A store as its sequence issues (R53, R84, R155, R161 to R163, R376 to R380). Lanes that fault park; the others are performed, in
the core at once where nothing earlier holds them back. The split does not wait. -/
def storeOf (f : MemForm) (es : List Elem) (data : Elem → List Byte × FFlags) (c : Ctx) (s : State) : Act :=
  let (vi, asid) := s.ctxOf c.a
  let st := s.stream c.a f.st
  let rel := f.release && !s.allUo c.a es
  let beyond := rel && s.beyondCore c.a st.scope
  let buffers := (s.wg ((s.wgOf c.a).getD 0)).buffers && !c.a.isThread && !beyond
  let probes := es.map (fun e => s.storeProbe c.a st beyond buffers e)
  match s.memTrap c.a es probes true with
  | some (code, va) =>
    if code = 0x06 then .trapAnd (fun s => s.malformedAt c.a vi asid va) code (BitVec.ofNat 64 va) else .trap code (BitVec.ofNat 64 va)
  | none =>
    if s.slotsFull c.a.unit then .wait .pipe
    else
      let good := ((es.zip probes).filter (fun x => x.2 == .ok)).map (·.1)
      let bad := (es.zip probes).filter (fun x => x.2 != .ok)
      let t := if beyond then s.implicitCommit c.a else s
      let t := if rel then t.flush c.a t.nextId else good.foldl (fun s e => s.settle c.a s.nextId e.va e.n) t
      let t := t.raiseFlags c.a (good.foldl (fun m e => m ||| (data e).2) 0)
      let id := t.nextId
      let x := f.store c s good (fun e => (data e).1) (rel && bad.isEmpty) buffers
      let t := if good.isEmpty then t
        else
          let t : State := { t with accesses := tabPut t.accesses id x, nextId := id + 1 }
          let t := if t.mustWait id x || t.releaseWaits x then t else t.storeVia id
          match tabFind t.accesses id with
          | some y => if y.via then t.later 1 (.storePerformed id .none) else t
          | none => t
      match bad with
      | [] => .done t
      | (_, .fault va stage ipa perm) :: _ =>
        let (t, tok) := t.raise vi asid va stage ipa (2 + if perm then 16 else 0) (s.joined c.a) (.agent c.a)
        let m := bad.foldl (fun m x => m ||| f.lanesOf c s x.1.key) 0
        .gone ((t.retire f.need c c.pc).parkAt c.a m tok c.popped)
      | _ => .done t

def storeBody (f : MemForm) (c : Ctx) (s : State) : Act := storeOf f (f.elems c s) (f.data c s) c s

/-- A memory instruction. -/
def memIssue (f : MemForm) (s : State) : Host.Outcome State Fault Refusal :=
  issue f.need (if f.what = 1 then storeBody f else loadBody f) s

/-- What a sequence that must read a run of bytes at its issue does with the answer, as a load would (R163, R374, R377 to R379):
goes on, traps, or parks on the fault. Log 17 (DEDUCED). -/
def loadFate (c : Ctx) (s : State) (va : Nat) (r : Reach (List Byte × Bool)) (go : State → List Byte → Act) : Act :=
  let (vi, asid) := s.ctxOf c.a
  match r with
  | .ok t (bs, bad) =>
    if bad then .trap (if s.popt vi asid then 0x10 else 0x08) (BitVec.ofNat 64 va) else go t bs
  | .fault va stg ipa p =>
    let (t, tok) := s.raise vi asid va stg ipa (1 + if p then 16 else 0) (s.joined c.a) (.agent c.a)
    .park t 0 tok
  | .denied code va =>
    if code = 0x06 then .trapAnd (fun s => s.malformedAt c.a vi asid va) code (BitVec.ofNat 64 va)
    else .trap code (BitVec.ofNat 64 va)
  | .remote va _ _ => .trap 0x04 (BitVec.ofNat 64 va)

end Sys2Proof.Machine
end

