-- ==== Sys2Proof/Machine/Complete.lean ====
section
/-!
DEFINITION. Steps beyond the core: what check bits show (spec/30_errors_memory.md R371 to R375), a missing line's way through
its station and back (spec/05_memory.md R85, R86; spec/20_vm.md R290 to R294, R298), the completion of loads and atomics
(spec/11_isa_memory.md R156, R163), stores that are performed (R161, R376), and fetches (R89).
-/

namespace Sys2Proof.Machine

/-! ### Check bits -/

/-- Where the bytes that a step reads stand. -/
inductive Place where
  | l1 (core key : Nat) | l2 (key : Nat) | row (p : Nat) | code (unit key : Nat)
deriving DecidableEq, Repr

/-- UNIT, ADDR and ADDRK of a place (R355, R370); a tag's offset is its line's. -/
def Place.unit : Place → Nat
  | .l1 c _ => unitWord 0 c
  | .l2 k => unitWord 4 (homeDie (keyDev k) (keyAddr k))
  | .row p =>
    if 0x400030000000 ≤ p then unitWord 0 ((p - 0x400030000000) / 0x18000 / 32)
    else if p < 0x400010000000 then unitWord 0 (p % 0x8000000 / 0x40000)
    else unitWord 5 ((p - 0x400010000000) / 0x4000000)
  | .code u _ => if u < 384 then unitWord 0 u else unitWord 1 (u - 384)
def Place.addr : Place → Nat × Nat
  | .l1 _ k => (keyAddr k, 1)
  | .l2 k => (keyAddr k, 1)
  | .code _ k => (keyAddr k, 1)
  | .row p =>
    (if 0x400030000000 ≤ p then (p - 0x400030000000) % 0x18000
      else if p < 0x400010000000 then p % 0x40000 else p % 0x4000000, 3)

/-- A lasting error takes a way from its set (R357, R371). -/
def State.loseWay (s : State) (p : Place) : State :=
  match p with
  | .l1 c k => s.modCore c (fun x => { x with l1off := tabPut x.l1off (k % 1024) (Nat.min 11 (tabGet x.l1off (k % 1024) 0 + 1)) })
  | .l2 k => s.modDie (homeDie (keyDev k) (keyAddr k)) (fun d => { d with
      l2off := tabPut d.l2off (l2SetOf k) (Nat.min 15 (tabGet d.l2off (l2SetOf k) 0 + 1)) })
  | .code u k => s.modUnit u (fun x => { x with iways := tabPut x.iways (k % 64) (Nat.min 7 (tabGet x.iways (k % 64) 0 + 1)) })
  | .row _ => s
/-- The fence of a row that is to be retired (R372). -/
def State.fenceRow (s : State) (p : Place) : State :=
  match p with
  | .l1 c _ => s.modCore c (fun x => { x with fenced := true })
  | .l2 _ => s.loseWay p
  | .code .. => s.loseWay p
  | .row a =>
    if 0x400030000000 ≤ a then s.modCore ((a - 0x400030000000) / 0x18000 / 32) (fun x => { x with fenced := true })
    else if a < 0x400010000000 then s.modCore (a % 0x8000000 / 0x40000) (fun x => { x with fenced := true })
    else s.modDie ((a - 0x400010000000) / 0x4000000) (fun d => { d with bad := a % 0x4000000 / 0x10000 :: d.bad })
/-- The clean copy leaves, so that the read is served from the next place (R371). -/
def State.refetch (s : State) (p : Place) : State :=
  match p with
  | .l1 c k => s.mapL1 c (fun key _ x => if key == k && x.clean then none else some x)
  | .l2 k => match s.l2 k with
    | some l => s.setL2 k { l with bytes := (List.range 8).flatMap (fun i =>
        if l.dirty.getLsbD i then (l.bytes.drop (16 * i)).take 16 else s.getBytes (l.frame + 16 * i) 16) }
    | none => s
  | .code u k => s.modUnit u (fun x => { x with icache := tabDel x.icache k })
  | .row _ => s
/-- Whether the place holds bytes that stand nowhere else. -/
def State.dirtyAt (s : State) (p : Place) : Bool :=
  match p with
  | .l1 c k => match s.l1 c k with
    | some l => l.sectors.any (fun x => !x.2.clean)
    | none => false
  | .l2 k => match s.l2 k with
    | some l => l.dirty != 0
    | none => false
  | .code .. => false
  | .row _ => true
/-- The sector at an address carries parity there, not SEC-DED: a clean one of a cache (R88). -/
def State.parityAt (s : State) (p : Place) (va : Nat) : Bool :=
  match p with
  | .l1 c k => match s.l1 c k with
    | some l => (tabGet l.sectors (va % 128 / 16) Sector.blank).clean
    | none => false
  | .l2 k => match s.l2 k with
    | some l => !l.dirty.getLsbD (va % 128 / 16)
    | none => false
  | .code u k => (tabFind (s.unit u).icache k).isSome
  | .row _ => false
/-- Whether SEC-DED covers the sector (R88). -/
def State.secdedAt (s : State) (p : Place) (va : Nat) : Bool :=
  match p with
  | .l1 c k => match s.l1 c k with
    | some l => !(tabGet l.sectors (va % 128 / 16) Sector.blank).clean
    | none => false
  | .l2 k => match s.l2 k with
    | some l => l.dirty.getLsbD (va % 128 / 16)
    | none => false
  | .code .. => false
  | .row _ => true
/-- The sector that holds an address is poisoned in place (R373). -/
def State.poisonAt (s : State) (p : Place) (va : Nat) : State :=
  match p with
  | .l1 c k => s.modCore c (fun y => { y with
      l1 := tabMod y.l1 k (fun l => { l with sectors := tabMod l.sectors (va % 128 / 16) (fun x =>
        { x with poison := true, layers := x.layers.map (fun l => { l with bad := true }) }) }) })
  | .l2 k => match s.l2 k with
    | some l => s.setL2 k { l with poison := l.poison ||| 1 <<< (va % 128 / 16) }
    | none => s
  | .code .. => s
  | .row a => s.addPoison a

/-- The resource that a place stands for in R354: the line of a cache, the row of an array. -/
def Place.resource (p : Place) : Nat × Nat := (p.unit, p.addr.1 / 16)
/-- What a step finds in the check bits of a place, as far as the place has them (R88, R353, R354, R371 to R373). -/
def State.upset (s : State) (p : Place) (va : Nat) (ctx : BitVec 8 × BitVec 16) (name : List Byte) (u : Upset) : State :=
  let (addr, kind) := p.addr
  let rec_ := fun (s : State) (sev retry kind code : Nat) =>
    s.findError p.resource (fun s => s.report 2 sev p.unit ctx addr retry kind code name)
  match u with
  | .none => s
  | .parity again =>
    if !s.parityAt p va then s
    else if again then (rec_ (s.refetch p) 2 2 kind 0x20).loseWay p
    else rec_ (s.refetch p) 0 1 kind 0x20
  | .tag again =>
    if !again then rec_ s 0 1 3 0x21
    else if s.dirtyAt p then rec_ s 3 2 3 0x21
    else (rec_ (s.refetch p) 2 2 3 0x21).loseWay p
  | .single again =>
    if !s.secdedAt p va then s
    else if s.mgmt.rows.contains p.resource then (rec_ s 2 0 kind 0x22).fenceRow p
    else if again then ((rec_ s 2 2 kind 0x22).fenceRow p).awaitRow p.resource else rec_ s 0 1 kind 0x22
  | .double => if !s.secdedAt p va then s else (rec_ s 1 0 kind 0x23).poisonAt p va

/-- The place that an access reads first. -/
def State.placeOf (s : State) (x : Access) : Option (Place × Nat) :=
  match x.lanes with
  | [] => none
  | (i, va, bs) :: _ =>
    match regionOf va.toNat bs.length with
    | (.global, _) =>
      let key := lineKey (s.tagAsid x.vi x.asid va.toNat) va.toNat
      let l1 := match x.agent with
        | .split g _ => if (s.l1 (g / 32) key).isSome then some (Place.l1 (g / 32) key) else none
        | .thread _ => none
      some (l1.getD (.l2 key), va.toNat)
    | (r, o) => (s.localAt x.agent (x.laneOf i) r o bs.length).map (fun p => (.row p, p))
def State.upsetFor (s : State) (x : Access) (u : Upset) : State :=
  match s.placeOf x with
  | some (p, va) => s.upset p va (x.vi, x.asid) (s.joined x.agent) u
  | none => s

/-! ### Missing lines -/

/-- A step that needs a line: it joins the request of the same line and context, or a new one goes to its station (R85,
R293). -/
def State.request (s : State) (vi : BitVec 8) (asid : BitVec 16) (va : Nat) (write fetch : Bool) (w : Instr) : State :=
  let line := va / 128 * 128
  match s.requests.find? (fun p => p.2.vi == vi && p.2.asid == asid && p.2.line == line) with
  | some (id, _) => { s with requests := tabMod s.requests id (fun r => { r with
      write := r.write || write
      waiters := if r.waiters.contains w then r.waiters else r.waiters ++ [w] }) }
  | none =>
    let r : Request := {
      asid := asid
      vi := vi
      line := line
      write := write
      fetch := fetch
      waiters := [w]
      token := none
      tlb := none
      walk := none }
    ({ s with requests := tabPut s.requests s.nextId r, nextId := s.nextId + 1 } : State).soon (.translate s.nextId)

/-! ### Loads and atomics -/

/-- The registers that an access writes. -/
def Access.regs (x : Access) : List Reg :=
  let (file, d, sz, _) := x.dest
  if file = 0 then (if x.what = 2 then [Reg.v d] else (List.range (sizeRegs sz)).map (fun j => Reg.v (d + j)))
  else ((if sz = 4 then [d, d + 1] else [d])).map (regS x.agent)
/-- Its destinations become available. -/
def State.settlePend (s : State) (x : Access) (at_ : Nat) : State :=
  let upd := fun (l : List Pending) => l.map (fun p => if p.at_ = 2 ^ 64 && x.regs.contains p.reg then { p with at_ := at_ } else p)
  match x.agent with
  | .split g _ => s.modGroup g (fun y => { y with pend := upd y.pend })
  | .thread t => s.modThread t (fun y => { y with pend := upd y.pend })

/-- The owner of an access has gone: its group or its context. -/
def State.orphan (s : State) (x : Access) : Bool :=
  match x.agent with
  | .split g _ => match tabFind s.groups g with
    | some y => y.wg != x.wg
    | none => true
  | .thread t => (s.thread t).ctx != some (x.vi, x.asid)

/-- A load or atomic whose sequence traps (R358, R374). A held one traps at its own address, with its lanes kept, and what its ports
popped. -/
def State.trapLoad (s : State) (id : Nat) (x : Access) (code : BitVec 8) (va : Nat) : State :=
  let s := ((s.settlePend x s.clk).dropPush id)
  let s := { s with accesses := tabDel s.accesses id }
  let a := s.heir x.agent
  let s := if x.held then s.modStrand a (fun y => { y with
      wait := none
      park := if (x.dest.1 = 0 && x.mask != s.exMask a) || !x.popped.isEmpty then
          some { mask := if x.dest.1 = 0 then x.mask else s.exMask a, token := none, ready := true, popped := x.popped }
        else none })
    else s
  s.queueTrap a code (BitVec.ofNat 64 va)

/-- Every lane has been performed: registers, the acquire's invalidation, and the split goes on (R156, R161). -/
def State.endLoad (s : State) (id : Nat) (x : Access) : State :=
  let s := s.deliver id x
  let s := s.settlePend x (s.clk + convExtra x.dest.2.2.1 x.dest.2.2.2)
  let s := if x.acquire then s.fenceEnd x.agent (1 <<< x.stream) else s
  let s := { s with accesses := tabDel s.accesses id }
  if (s.strand x.agent).wait = some (.access id) then s.endWait x.agent else s

/-- The lanes of a load or atomic that are still to be performed. -/
def Access.restMask (x : Access) : Mask :=
  (x.lanes.filter (fun l => (tabFind x.got l.1).isNone)).foldl (fun (m : Mask) l =>
    let own : Mask := if x.dest.1 = 1 then 1
      else if x.dest.2.2.1 = 5 && 3 ≤ x.dest.2.2.2 then x.mask &&& ((0xFFFF : Mask) <<< (16 * l.1))
      else (1 : Mask) <<< l.1
    m ||| own) 0

/-- The trap that the lanes of an access which are still to be performed meet at the homes, before any of them is written: ACCESS,
OWNER, then UNCORRECTABLE or POISON at the lowest poisoned sector (R374, R377, R378, R380). -/
def State.lateTrap (s : State) (x : Access) : Option (BitVec 8 × Nat) :=
  let ps := (x.lanes.filter (fun l => (tabFind x.got l.1).isNone)).map (fun l => (l.2.1.toNat, s.probe x.agent (x.what == 2)
    { key := l.1, own := x.laneOf l.1, va := l.2.1.toNat, n := l.2.2.length, al := 1 }))
  match ps.find? (fun p => p.2 == .malformed), ps.find? (fun p => p.2 == .owner) with
  | some (va, _), _ => some (0x06, va)
  | none, some (va, _) => some (0x07, va)
  | none, none => (ps.filterMap (fun p => match p.2 with
      | .poison va => some va
      | _ => none)).head?.map (fun va => (if s.popt x.vi x.asid then 0x10 else 0x08, va))

/-- A load or atomic performed with what the homes answer now: completed, trapped, or waiting on a fault (R163, R298,
R374). One whose split has gone on behind it keeps the fault's token, and the split issues nothing before it has been performed. -/
def State.finishLoad (s : State) (id : Nat) : State :=
  match tabFind s.accesses id with
  | none => s
  | some x =>
    let s := { s with accesses := tabMod s.accesses id (fun x => { x with token := none }) }
    match s.lateTrap x with
    | some (code, va) => (if code = 0x06 then s.malformedAt x.agent x.vi x.asid va else s).trapLoad id x code va
    | none =>
      let (s, w) := s.performOne id
      let x := (tabFind s.accesses id).getD x
      match w with
      | none => s.endLoad id x
      | some (.fault va stage ipa perm) =>
        let flags := (if x.what = 2 then 2 else 1) + if perm then 16 else 0
        if x.held then
          let (s, tok) := s.raise x.vi x.asid va stage ipa flags (s.joined x.agent) (.agent x.agent)
          let s := (((s.deliver id x).settlePend x s.clk).dropPush id)
          let s := { s with accesses := tabDel s.accesses id }
          (s.modStrand x.agent (fun y => { y with wait := none })).parkAt x.agent
            (if x.dest.1 = 0 then x.restMask else s.exMask x.agent) tok x.popped
        else
          let (s, tok) := s.raise x.vi x.asid va stage ipa flags (s.joined x.agent) (.step (.loadComplete id .none))
          { s with accesses := tabMod s.accesses id (fun x => { x with token := some tok }) }
      | some (.denied code va) =>
        let s := if code = 0x06 then s.malformedAt x.agent x.vi x.asid va else s
        s.trapLoad id x code va

/-- The step of an access. -/
def Access.step (x : Access) (id : Nat) : Instr :=
  if x.what = 0 || x.what = 2 then .loadComplete id .none else .storePerformed id .none
/-- A missing line of an access is asked for; what it brings itself, it settles under its policy (R84, R85). -/
def State.bring (s : State) (id : Nat) (x : Access) (va : Nat) : State :=
  let key := lineKey (s.tagAsid x.vi x.asid va) va
  let first := !s.requests.any (fun p => lineKey (s.tagAsid p.2.vi p.2.asid p.2.line) p.2.line == key)
  let s := if first then { s with accesses := tabMod s.accesses id (fun y => { y with brought := key :: y.brought }) } else s
  s.request x.vi x.asid va (x.what != 0) false (x.step id)

/-- LOAD_COMPLETE (R155, R156, R161, R163, R164). Log 7 (DESIGN CHOICE). -/
def execLoadComplete (id : Nat) (u : Upset) (s : State) : Host.Outcome State Fault Refusal :=
  match tabFind s.accesses id with
  | none => .next s
  | some x =>
    if x.what != 0 && x.what != 2 then .next s
    else
      let s := s.upsetFor x u
      if s.orphan x then
        let s := if x.what = 2 then (s.performOne id).1 else s
        .next { s with accesses := tabDel s.accesses id }
      else
        let s := if s.mustWait id x then s.flush x.agent id else s
        if s.mustWait id x || s.releaseWaits x || s.releaseHeld x then .next (s.inClk 1 (.loadComplete id .none))
        else
          match s.missing ((tabFind s.accesses id).getD x) with
          | some va => .next (s.bring id x va)
          | none => .next (s.finishLoad id)

/-! ### Stores -/

/-- A store performed at the homes as far as it goes; one that a release of its own still holds back tries again. -/
def State.finishStore (s : State) (id : Nat) : State :=
  let s := s.storeOne id
  match tabFind s.accesses id with
  | some y => if y.what = 1 then s.inClk 1 (.storePerformed id .none) else s
  | none => s
/-- STORE_PERFORMED (R161, R241, R244, R376). -/
def execStorePerformed (id : Nat) (u : Upset) (s : State) : Host.Outcome State Fault Refusal :=
  match tabFind s.accesses id with
  | none => .next s
  | some x =>
    if x.what != 1 && x.what != 4 then .next s
    else
      let s := s.upsetFor x u
      let home := fun (s : State) => match s.missing x with
        | some va => s.bring id x va
        | none => s.finishStore id
      if x.what = 4 then .next (home s)
      else
        let s := if s.mustWait id x then s.flush x.agent id else s
        match tabFind s.accesses id with
        | none => .next s
        | some y =>
          if s.mustWait id y || s.releaseWaits y then .next (s.inClk 1 (.storePerformed id .none))
          else if y.via then
            let s := s.storeVia id
            match tabFind s.accesses id with
            | some z => .next (if z.via then s.inClk 1 (.storePerformed id .none) else s)
            | none => .next s
          else .next (home s)

/-! ### Fetches -/

/-- The kernel that an agent runs: context and CODE of its launch, or CTLPC (R89). -/
def State.kernelOf (s : State) (a : Agent) : Kernel :=
  let r := match s.wgOf a with
    | some w => s.record w
    | none => []
  { vi := (s.ctxOf a).1, asid := (s.ctxOf a).2, code := if a.isThread then field r 0x20 8 else field r 8 8, ctl := a.isThread }
/-- The units of a die on which a group or thread runs a kernel (R89). -/
def State.kernelUnits (s : State) (die : Nat) (k : Kernel) : List Nat :=
  if k.ctl then (s.threads.filter (fun p => p.1 / 2 / 24 == die && p.2.ctx.isSome && s.kernelOf (.thread p.1) == k)).map
    (fun p => 384 + p.1 / 2)
  else (s.groups.filter (fun p => p.1 / 128 / 24 == die && s.kernelOf (.split p.1 0) == k)).map (fun p => p.1 / 32)

/-- FETCH_MISS: the agent waits, and its miss goes to Admiral or joins a fill in flight (R89); or the parity of a line in an
instruction cache fails, and it is refetched through Admiral (R371). Log 46 (DESIGN CHOICE). -/
def execFetchMiss (m : CodeMiss) (s : State) : Host.Outcome State Fault Refusal :=
  let va := m.va
  match m.check with
  | .parity unit vi asid again =>
    let vi := BitVec.ofNat 8 vi
    let asid := BitVec.ofNat 16 asid
    .next (s.upset (.code unit (lineKey (s.tagAsid vi asid va.toNat) va.toNat)) va.toNat (vi, asid) noName (.parity again))
  | .none =>
    match s.cur with
    | none => .next s
    | some a =>
      let (vi, asid) := s.ctxOf a
      let line := va.toNat / 128 * 128
      let tag := s.tagAsid vi asid line
      let k := s.kernelOf a
      let s := s.block a .fetch
      match s.fetches.find? (fun p => p.2.die == a.die && s.tagAsid p.2.vi p.2.asid line == tag && p.2.line == line) with
      | some (id, _) => .next { s with fetches := tabMod s.fetches id (fun f => { f with
          kernels := if f.kernels.contains k then f.kernels else f.kernels ++ [k] }) }
      | none =>
        let f : Fetch := { die := a.die, asid := asid, vi := vi, line := line, kernels := [k], agent := a }
        .next (({ s with fetches := tabPut s.fetches s.nextId f, nextId := s.nextId + 1 } : State).later 1
          (.fetchFill s.nextId .none))

/-- A line installed in an instruction cache of 8 ways and 64 sets, where the least recently used leaves; a unit that holds it
ignores it (R81, R89). -/
def State.installLine (s : State) (u key : Nat) (l : ILine) : State :=
  s.modUnit u (fun x =>
    if (tabFind x.icache key).isSome then x
    else
      let set := x.icache.filter (fun p => p.1 % 64 == key % 64)
      let oldest := set.foldl (fun m p => Nat.min m p.2.used) s.clk
      let kept := if set.length < 8 - tabGet x.iways (key % 64) 0 then x.icache
        else match set.find? (fun p => p.2.used == oldest) with
          | some (k, _) => tabDel x.icache k
          | none => x.icache
      { x with icache := tabPut kept key { l with used := s.clk } })

/-- A fetch with what the home answers now (R89, R298, R374, R377 to R379). Its agent parks on a fault, before its sequence or
before the replay of one; a park of no lanes stands for the whole sequence. Log 96 (DEDUCED). -/
def State.finishFetch (s : State) (id : Nat) : State :=
  match tabFind s.fetches id with
  | none => s
  | some f =>
    let s := { s with fetches := tabDel s.fetches id }
    let va := BitVec.ofNat 64 f.line
    match s.home f.vi f.asid f.line false true with
    | .ok s =>
      let key := lineKey (s.tagAsid f.vi f.asid f.line) f.line
      let (bs, bad) := s.homeBytes key f.line 128
      ((f.kernels.flatMap (s.kernelUnits f.die)).eraseDups).foldl (fun s u =>
        s.installLine u key { bytes := bs, marks := [], used := 0, bad := bad }) s
    | .fault st ipa p =>
      if !s.alive f.agent then s
      else
        let (s, tok) := s.raise f.vi f.asid f.line st ipa (4 + if p then 16 else 0) (s.joined f.agent) (.agent f.agent)
        s.modStrand f.agent (fun x => { x with park := some (match x.park with
          | some p => { p with token := some tok, ready := false }
          | none => { mask := 0, token := some tok, ready := false, popped := [] }) })
    | .malformed => (s.malformedAt f.agent f.vi f.asid f.line).queueTrap f.agent 0x06 va
    | .owner => s.queueTrap f.agent 0x07 va
    | .remote _ _ => s.queueTrap f.agent 0x04 va

/-- FETCH_FILL: the line from its home, in one multicast (R89, R371). -/
def execFetchFill (id : Nat) (u : Upset) (s : State) : Host.Outcome State Fault Refusal :=
  match tabFind s.fetches id with
  | none => .next s
  | some f =>
    let key := lineKey (s.tagAsid f.vi f.asid f.line) f.line
    let s := s.upset (.l2 key) f.line (f.vi, f.asid) (s.joined f.agent) u
    if (s.l2 key).isNone then .next (s.request f.vi f.asid f.line false true (.fetchFill id .none))
    else .next (s.finishFetch id)

/-! ### Stations -/

/-- A waiter of a line that does not come: it is performed as far as it goes, and meets what stops it (R298, R377, R378). -/
def State.wake (s : State) (w : Instr) : State :=
  match w with
  | .loadComplete id _ => s.finishLoad id
  | .storePerformed id _ => s.finishStore id
  | .fetchFill id _ => s.finishFetch id
  | i => s.soon i
/-- A request that ends: its waiters go on, or meet the failure. -/
def State.endRequest (s : State) (id : Nat) (ok : Bool) : State :=
  match tabFind s.requests id with
  | none => s
  | some r =>
    let s := { s with requests := tabDel s.requests id }
    r.waiters.foldl (fun s w => if ok then s.soon w else s.wake w) s
/-- A translation in hand: the request goes to its controller, or ends where a right is missing or the page is REMOTE (R290,
R291). -/
def State.translated (s : State) (id : Nat) (r : Request) (t : Tlb) : State :=
  if (r.write && !s.mayWrite r.vi r.line t.w) || (r.fetch && !t.x) || t.remote.isSome then s.endRequest id false
  else ({ s with requests := tabPut s.requests id { r with tlb := some t } } : State).later 1 (.l2Fill id .none)

/-- The page that a request names at its station: VMID, device ASID and 64 KiB page (R294). -/
def State.pageOf (s : State) (r : Request) : Nat × Nat × Nat × Nat :=
  let dev := s.tagAsid r.vi r.asid r.line
  (s.stationOf dev r.line, s.vmidOf r.vi r.line, dev, r.line / 65536)
/-- A virtual interface is at its ceiling on a die in this window (R301). -/
def State.atCeiling (s : State) (vi : BitVec 8) (die : Nat) : Bool :=
  let bw := s.viField vi 0x90 8
  let n := tabGet (s.die die).band vi.toNat 0
  bits bw 16 16 != 0 && decide (bits bw 0 16 * 1000 ≤ n) && decide (bits bw 16 16 * 1000 ≤ n)
/-- A step that waits for the next bandwidth window (R301). -/
def State.nextWindow (s : State) (i : Instr) : State := { s with agenda := s.agenda ++ [((s.clk / 1200 + 1) * 1200, i)] }

/-- TRANSLATE (R293, R294): a translation that the station holds, the walk of its page that is in progress, or a walk of its own
among 16. -/
def execTranslate (id : Nat) (s : State) : Host.Outcome State Fault Refusal :=
  match tabFind s.requests id with
  | none => .next s
  | some r =>
    match s.tlbFind r.vi r.asid r.line with
    | some t => .next ((s.tlbTouch r.vi r.asid r.line).translated id r t)
    | none =>
      let set := fun (n : Nat) => { s with requests := tabPut s.requests id { r with walk := some n } }
      let walks := s.requests.filter (fun p => p.2.walk == some p.1)
      match walks.find? (fun p => s.pageOf p.2 == s.pageOf r) with
      | some (n, _) => .next (set n)
      | none =>
        if 16 ≤ (walks.filter (fun p => (s.pageOf p.2).1 == (s.pageOf r).1)).length then .next (s.inClk 1 (.translate id))
        else .next ((set id).later 1 (.walkComplete id))

/-- The answer of a walk for one of the requests that wait for it. -/
def State.walkAnswer (s : State) (t : Option Tlb) (id : Nat) : State :=
  match tabFind s.requests id with
  | none => s
  | some r =>
    let r := { r with walk := none }
    let s := { s with requests := tabPut s.requests id r }
    match t with
    | some t => s.translated id r t
    | none => s.endRequest id false
/-- WALK_COMPLETE (R290, R294, R298, R301, R377): the walk's reads wait at the ceiling, as every read of memory does. -/
def execWalkComplete (id : Nat) (s : State) : Host.Outcome State Fault Refusal :=
  match tabFind s.requests id with
  | none => .next s
  | some r =>
    if (s.hops r.vi r.asid r.line).any (fun h => match h.pa with
      | some pa => hasMemory pa && s.atCeiling r.vi (pa / 0x200000000 / 12)
      | none => false) then .next (s.nextWindow (.walkComplete id))
    else
      let ids := (s.requests.filter (fun p => p.2.walk == some id)).map (·.1)
      match s.translate r.vi r.asid r.line with
      | .ok s t => .next (ids.foldl (fun s i => s.walkAnswer (some t) i) s)
      | .fault s _ _ => .next (ids.foldl (fun s i => s.walkAnswer none i) s)
      | .bad s => .next (ids.foldl (fun s i => s.walkAnswer none i) s)

/-- A frame reported for retirement (R357, R375). Log 23 (DEDUCED). -/
def State.retireFrame (s : State) (pa : Nat) : State :=
  { s with mgmt := { s.mgmt with retire := if s.mgmt.retire.contains (pa / 65536) then s.mgmt.retire
                                           else s.mgmt.retire ++ [pa / 65536] } }
/-- The frames that a controller's full poison table makes delivered poisoned, each reported for retirement once (R373).
Log 135 (DESIGN CHOICE). -/
def State.reportFrames (s : State) : State :=
  (s.poisonFrames.reverse.filter (fun f => !s.mgmt.retire.contains f)).foldl (fun s f =>
    (s.report 2 2 (unitWord 6 (f * 65536 / 0x200000000)) (0, 0) (f * 65536) 0 2 0x23 noName).retireFrame (f * 65536)) s

/-- What a burst shows (R353, R354, R375): the answer says whether a read's sectors are poisoned. A frame that awaits retirement is
not retried. Of a failed write, the controller enters the sectors in its poison table. -/
def State.burst (s : State) (vi : BitVec 8) (asid : BitVec 16) (pa : Nat) (g : GddrReport) (gone : List (Nat × BitVec 8)) :
    State × Bool :=
  let rec_ := fun (s : State) (pa sev retry code : Nat) => s.findError (unitWord 6 (pa / 0x200000000), pa / 16)
    (fun s => s.report 4 sev (unitWord 6 (pa / 0x200000000)) (vi, asid) pa retry 2 code noName)
  let link := fun (s : State) (pa : Nat) (again : Bool) =>
    let old := s.mgmt.retire.contains (pa / 65536)
    if again || old then ((rec_ s pa 2 (if old then 0 else 2) 0x30).retireFrame pa, true) else (rec_ s pa 0 1 0x30, false)
  match g with
  | .none => (s, false)
  | .link again => link s pa again
  | .wrote again =>
    (gone.foldl (fun s f =>
      let (s, bad) := link s f.1 again
      if bad then ((List.range 8).filter (fun i => f.2.getLsbD i)).foldl (fun s i => s.addPoison (f.1 + 16 * i)) s else s) s, false)
  | .corrected =>
    let recent := (s.mgmt.ecc.filter (fun e => decide (s.time < e.2 + 1000000000))) ++ [(pa / 65536, s.time)]
    let full := 8 ≤ (recent.filter (fun e => e.1 == pa / 65536)).length
    let s := rec_ { s with mgmt := { s.mgmt with ecc := if full then recent.filter (fun e => e.1 != pa / 65536) else recent } }
      pa 0 0 0x31
    (if full then s.retireFrame pa else s, false)
  | .uncorrected => (rec_ s pa 1 0 0x32, true)

/-- The lines, by frame, with their dirty sectors, that went to memory between two states (R81). -/
def State.wroteBack (s v : State) : List (Nat × BitVec 8) :=
  s.dies.flatMap (fun d => (d.2.l2.filter (fun l => l.2.dirty != 0 && (v.l2 l.1).isNone)).map (fun l => (l.2.frame, l.2.dirty)))
/-- L2_FILL: the line into its home under the ownership check; a request at its ceiling waits for the next
window (R85, R86, R292, R301, R375, R378). -/
def execL2Fill (id : Nat) (g : GddrReport) (s : State) : Host.Outcome State Fault Refusal :=
  match tabFind s.requests id with
  | none => .next s
  | some r =>
    match r.tlb with
    | none => .next (s.soon (.translate id))
    | some t =>
      let key := lineKey t.asid r.line
      if (s.l2 key).isSome then .next (s.endRequest id true)
      else if s.atCeiling r.vi (t.at r.line / 0x200000000 / 12) then
        .next (s.nextWindow (.l2Fill id g))
      else
        match s.fill r.vi r.line t with
        | none => .next (s.endRequest id false)
        | some v =>
          let (s, bad) := v.burst r.vi r.asid (t.at r.line) g (s.wroteBack v)
          let s := match bad, s.l2 key with
            | true, some l => s.setL2 key { l with poison := BitVec.allOnes 8 }
            | _, _ => s
          .next (s.endRequest id true)

end Sys2Proof.Machine
end

