-- ==== Sys2Proof/Machine/Fabric.lean ====
section
/-!
DEFINITION. Sending over the fabric (spec/22_system.md R319 to R327; spec/33_errors_system.md R400): headers, keys, routing, the
flits of a port, packets that cannot be delivered, and what a source waits for.
-/

namespace Sys2Proof.Machine

/-- Fields of a key table entry (R326). -/
def keyKey (e : BitVec 128) : BitVec 16 := e.extractLsb' 112 16
def keyPorts (e : BitVec 128) : BitVec 24 := e.extractLsb' 88 24
def keyV (e : BitVec 128) : Bool := e.getLsbD 87
def keyLocal (e : BitVec 128) : Bool := e.getLsbD 86
def keyVi (e : BitVec 128) : BitVec 8 := e.extractLsb' 78 8
def keyAsid (e : BitVec 128) : BitVec 16 := e.extractLsb' 62 16

/-- The key a context sends with: that of the entry that binds it (R326). -/
def State.sendKey (s : State) (vi : BitVec 8) (asid : BitVec 16) : BitVec 16 :=
  match s.fabric.keys.find? (fun p => keyV p.2 && keyVi p.2 == vi && keyAsid p.2 == asid) with
  | some (_, e) => keyKey e
  | none => 0

/-- FLOW: the fold of the source ASID and the destination RVA[51:16] to 12 bits (R320). -/
def flowOf (asid rva : Nat) : BitVec 12 :=
  let x := rva / 65536 % 2 ^ 36
  BitVec.ofNat 12 (asid ^^^ (asid / 4096) ^^^ x ^^^ (x / 4096) ^^^ (x / 2 ^ 24))

/-- The 16 bytes of a header (R320). -/
def hdrNat (h : PktHdr) : Nat :=
  h.dest.toNat + 2 ^ 17 * h.src.toNat + 2 ^ 34 * h.pkey.toNat + (if h.unordered then 2 ^ 50 else 0) +
    (if h.mgmt then 2 ^ 51 else 0) + 2 ^ 52 * h.flow.toNat + 2 ^ 64 * h.rsv.toNat + 2 ^ 88 * h.oseq.toNat +
    2 ^ 104 * h.op.toNat + 2 ^ 112 * h.len.toNat
def hdrBytes (h : PktHdr) : List Byte := toBytes (hdrNat h) 16
/-- The header in 128 bits. -/
def hdrOf (v : Nat) : PktHdr :=
  { len := BitVec.ofNat 16 (bits v 112 16), op := BitVec.ofNat 8 (bits v 104 8), oseq := BitVec.ofNat 16 (bits v 88 16),
    rsv := BitVec.ofNat 24 (bits v 64 24), flow := BitVec.ofNat 12 (bits v 52 12), mgmt := v.testBit 51,
    unordered := v.testBit 50, pkey := BitVec.ofNat 16 (bits v 34 16), src := BitVec.ofNat 17 (bits v 17 17),
    dest := BitVec.ofNat 17 (bits v 0 17) }

/-- Where a packet's XID stands in its payload; 0 for a packet that has none (R321). -/
def xidOf (h : PktHdr) (p : List Byte) : Nat :=
  match h.op.toNat with
  | 1 => field p 8 4
  | 2 => field p 16 4
  | 3 => field p 16 4
  | 4 => field p 16 4
  | 5 => field p 0 4
  | _ => 0

/-- The flits that a port holds or will hold: those that are not acknowledged, and those of the packets that wait (R319). -/
def Port.flits (x : Port) : Nat := x.unacked.length + ((x.queue.map (fun q => 16 + q.2.length)).sum + 239) / 240
/-- The route of a packet: a port, or the REASON why there is none (R323, R400). -/
def State.route (s : State) (h : PktHdr) : Nat ⊕ Nat :=
  let e := (tabGet s.fabric.active h.dest.toNat 0).toNat
  let up := fun (p : Nat) => p < 24 && (s.port p).up
  let fixed := if h.flow.getLsbD 0 then bits e 5 5 else bits e 0 5
  let adapt := (List.range 24).filter (fun p => e.testBit (10 + p) && up p)
  let free := fun (p : Nat) => 1024 - (s.port p).flits
  let best := adapt.foldl (fun (m : Option Nat) p => match m with
    | none => some p
    | some q => if free q < free p then some p else some q) none
  if !e.testBit 63 then .inr 0
  else match h.unordered, best with
    | true, some p => .inl p
    | _, _ => if up fixed then .inl fixed else .inr 3

/-- Bytes cut into payloads of 240, the last filled with zeros (R319). -/
def flitsOf (bs : List Byte) : Nat → List (List Byte)
  | 0 => []
  | f + 1 => if bs = [] then [] else (bs.take 240 ++ List.replicate (240 - bs.length) 0) :: flitsOf (bs.drop 240) f

/-- A packet enters a port (R319). -/
def State.toPort (s : State) (p : Nat) (h : PktHdr) (pay : List Byte) : State :=
  s.modPort p (fun x => { x with queue := x.queue ++ [(h, pay)] })
/-- A packet put behind others in a stream of payload bytes (R320). Where fewer than 16 bytes of a flit are left and the header's bytes
there would all be 0, it begins with the next flit: such a rest is filling. Log 39 (DESIGN CHOICE). -/
def putPacket (stream : List Byte) (h : PktHdr) (pay : List Byte) : List Byte :=
  let left := (240 - stream.length % 240) % 240
  let gap := if left < 16 && ((hdrBytes h).take left).all (· == 0) then left else 0
  stream ++ List.replicate gap 0 ++ hdrBytes h ++ pay
/-- The packets at the head of a port's queue that find room, back to back, each with the end of its bytes in the stream (R319, R320). -/
def packFlits (room : Nat) : List (PktHdr × List Byte) → List Byte → List (Nat × PktHdr × List Byte) →
    List Byte × List (Nat × PktHdr × List Byte) × List (PktHdr × List Byte)
  | [], stream, done => (stream, done, [])
  | (h, pay) :: rest, stream, done =>
    let next := putPacket stream h pay
    if room < (next.length + 239) / 240 then (stream, done, (h, pay) :: rest)
    else packFlits room rest next (done ++ [(next.length, h, pay)])
/-- A port at the end of a clk: its packets run back to back through flits, at most 1,024 of which wait for their acknowledgement; all
of them, and the answer that it owes, go out (R319, R320). -/
def Port.pump (x : Port) : Port :=
  if !x.up then x
  else
    let (stream, done, rest) := packFlits (1024 - x.unacked.length) x.queue [] []
    let fs := flitsOf stream (stream.length / 240 + 1)
    let unacked := x.unacked ++ (List.range fs.length).map (fun i => ((x.txSeq + i) % 4096, fs.getD i []))
    { x with
      queue := rest
      unacked := unacked
      next := unacked.length
      said := none
      out := x.out ++ done.map (fun d => ((x.txSeq + (d.1 - 1) / 240) % 4096, d.2))
      txSeq := (x.txSeq + fs.length) % 4096 }
def State.pumpPorts (s : State) : State := { s with fabric := { s.fabric with ports := tabMap s.fabric.ports (fun _ x => x.pump) } }

/-- A packet has passed ingress: its step is to come (R326). -/
def State.passIn (s : State) (port : Nat) (h : PktHdr) : State :=
  { s with fabric := { s.fabric with passed := s.fabric.passed ++ [(port, h)] } }

/-- A packet that terminates here becomes its step (R321, R322). -/
def arriveStep (port : Fin 24) (h : PktHdr) (p : List Byte) : Option Instr :=
  let w := fun (o n : Nat) => field p o n
  let d128 := BitVec.ofNat 128 (w 16 16)
  let idx := BitVec.ofNat 32 (w 4 4)
  let rid := BitVec.ofNat 64 (w 8 8)
  match h.op.toNat with
  | 1 => some (.write port h (BitVec.ofNat 64 (w 0 8)) (BitVec.ofNat 32 (w 8 4)) (p.getD 12 0) (p.drop 16))
  | 2 => some (.caddPacket port h (BitVec.ofNat 64 (w 0 8)) (BitVec.ofNat 64 (w 8 8)) (BitVec.ofNat 32 (w 16 4)))
  | 3 => some (.csetPacket port h (BitVec.ofNat 64 (w 0 8)) (BitVec.ofNat 64 (w 8 8)) (BitVec.ofNat 32 (w 16 4)))
  | 4 => some (.cmax port h (BitVec.ofNat 64 (w 0 8)) (BitVec.ofNat 64 (w 8 8)) (BitVec.ofNat 32 (w 16 4)))
  | 5 => some (.ack port h (BitVec.ofNat 32 (w 0 4)) (p.getD 4 0))
  | 6 => some (.undeliv port h (BitVec.ofNat 128 (w 0 16)) (BitVec.ofNat 32 (w 16 4)) (p.getD 20 0) (BitVec.ofNat 64 (w 24 8)))
  | 7 => some (.linkdown port h (BitVec.ofNat 17 (w 0 4)) (p.getD 4 0) (p.getD 5 0) (BitVec.ofNat 64 (w 8 8)))
  | 8 => match w 0 1 with
    | 1 => some (.rtwrite port h idx rid d128)
    | 2 => some (.rtread port h idx rid d128)
    | 3 => some (.rtreada port h idx rid d128)
    | 4 => some (.keywrite port h idx rid d128)
    | 5 => some (.keyread port h idx rid d128)
    | 6 => some (.commit port h idx rid d128)
    | 7 => some (.subwrite port h idx rid d128)
    | 8 => some (.subread port h idx rid d128)
    | 9 => some (.portdown port h idx rid d128)
    | _ => none
  | _ => none

/-- A packet on its way without a notice for what is lost: a notice or an answer that cannot be sent is dropped (R400,
R402). -/
def State.transmit0 (s : State) (h : PktHdr) (pay : List Byte) : State :=
  if h.dest = s.fabric.self then match arriveStep 0 h pay with
    | some i => s.soon i
    | none => s
  else match s.route h with
    | .inl p => s.toPort p h pay
    | .inr _ => s

/-- RVA of a packet; 0 for one that has none (R321). -/
def rvaOf (h : PktHdr) (p : List Byte) : Nat := if 1 ≤ h.op.toNat && h.op.toNat ≤ 4 then field p 0 8 else 0
/-- The record of a packet that a device drops, and its notice to the source (R400). The source writes its own when it declares
the packet undeliverable. Log 87 (DEDUCED). -/
def State.undeliverable (s : State) (unit : Nat) (h : PktHdr) (pay : List Byte) (reason : Nat) : State :=
  let s := if h.src = s.fabric.self then s else s.report 8 1 unit (0, 0) (rvaOf h pay) 0 1 0x92 noName
  let body := hdrBytes h ++ toBytes (xidOf h pay) 4 ++ toBytes reason 1 ++ toBytes 0 3 ++ toBytes s.time 8
  let key := h.src.toNat * 4096 + h.flow.toNat
  let n : PktHdr := { h with len := 32, op := 6, oseq := BitVec.ofNat 16 (tabGet s.fabric.oseqTx key 0), mgmt := false
                             unordered := false, src := s.fabric.self, dest := h.src }
  let s := { s with fabric := { s.fabric with oseqTx := tabPut s.fabric.oseqTx key ((tabGet s.fabric.oseqTx key 0 + 1) % 65536) } }
  s.transmit0 n body
/-- A packet on its way (R323, R400). -/
def State.transmit (s : State) (unit : Nat) (h : PktHdr) (pay : List Byte) : State :=
  if h.dest = s.fabric.self then s.transmit0 h pay
  else match s.route h with
    | .inl p => s.toPort p h pay
    | .inr r => s.undeliverable unit h pay r

/-- A packet of an engine or a driver, with its header made (R320, R321, R325): an ORDERED one takes the next OSEQ of its
flow. -/
def State.sendPacket (s : State) (unit : Nat) (vi : BitVec 8) (asid : BitVec 16) (op dest rva : Nat) (pay : List Byte) : State :=
  let flow := flowOf asid.toNat rva
  let un := op = 1 || op = 5
  let key := dest * 4096 + flow.toNat
  let q := tabGet s.fabric.oseqTx key 0
  let s := if un then s
    else { s with fabric := { s.fabric with oseqTx := tabPut s.fabric.oseqTx key ((q + 1) % 65536) } }
  let h : PktHdr := { len := BitVec.ofNat 16 pay.length, op := BitVec.ofNat 8 op, oseq := if un then 0 else BitVec.ofNat 16 q,
                      rsv := 0, flow := flow, mgmt := false, unordered := un, pkey := s.sendKey vi asid,
                      src := s.fabric.self, dest := BitVec.ofNat 17 dest }
  s.transmit unit h pay

/-- An operation that is acknowledged: its XID, what waits for it, and the timeout of 1 ms (R321, R400). -/
def State.sendOp (s : State) (unit : Nat) (vi : BitVec 8) (asid : BitVec 16) (op dest rva va : Nat) (pay : BitVec 32 → List Byte)
    (engine coll : Option Nat) : State × BitVec 32 :=
  let xid := s.fabric.nextXid
  let hdr : PktHdr := { len := 0, op := BitVec.ofNat 8 op, oseq := 0, rsv := 0, flow := flowOf asid.toNat rva, mgmt := false,
                        unordered := op = 1, pkey := 0, src := s.fabric.self, dest := BitVec.ofNat 17 dest }
  let x : Sent := { xid := xid, hdr := hdr, rva := BitVec.ofNat 64 rva, va := BitVec.ofNat 64 va, engine := engine, coll := coll }
  let s := { s with fabric := { s.fabric with nextXid := xid + 1, sent := s.fabric.sent ++ [x] } }
  ((s.sendPacket unit vi asid op dest rva (pay xid)).inClk 1200000 (.undeliverableTimeout xid), xid)
/-- A WRITE of data (R321). -/
def State.sendWrite (s : State) (unit : Nat) (vi : BitVec 8) (asid : BitVec 16) (dest rva va : Nat) (bad : Bool) (data : List Byte)
    (engine coll : Option Nat) : State × BitVec 32 :=
  s.sendOp unit vi asid 1 dest rva va (fun x =>
    toBytes rva 8 ++ toBytes x.toNat 4 ++ toBytes (if bad then 1 else 0) 1 ++ toBytes 0 3 ++ data) engine coll
/-- A counter operation: 2 CADD, 3 CSET, 4 CMAX (R321). -/
def State.sendCounter (s : State) (unit : Nat) (vi : BitVec 8) (asid : BitVec 16) (op dest rva va : Nat) (v : Word)
    (engine coll : Option Nat) : State × BitVec 32 :=
  s.sendOp unit vi asid op dest rva va (fun x =>
    toBytes rva 8 ++ toBytes v.toNat 8 ++ toBytes x.toNat 4 ++ toBytes 0 4) engine coll

end Sys2Proof.Machine
end

