-- ==== Sys2Proof/Machine/Engines.lean ====
section
/-!
DEFINITION. Engine operations (spec/13_isa_engines.md R190 to R203; spec/12_isa_matrix.md R183; spec/14_isa_collectives.md R215;
spec/31_errors_engines.md R382 to R386): descriptors, the work each does at its completion, failures, posting, and the
instructions that fork them.
-/

namespace Sys2Proof.Machine

/-! ### Tile descriptors as the engines read them -/

/-- The fields of a descriptor (R197). -/
structure Desc where
  base : Nat
  fill : Nat
  pitch : Nat
  rows : Nat
  cols : Nat
  space : Nat
  fmt  : Nat
  orgr : Int
  orgc : Int
  extr : Nat
  extc : Nat

def descOf (ws : List Word) : Desc :=
  let w := fun (i : Nat) => (ws.getD i 0)
  { base := (w 0).toNat, fill := bits (w 1).toNat 32 32, pitch := bits (w 1).toNat 0 32, rows := bits (w 2).toNat 0 16,
    cols := bits (w 2).toNat 16 16, space := bits (w 3).toNat 4 4, fmt := bits (w 3).toNat 0 4,
    orgr := ((w 4).extractLsb' 32 16).toInt, orgc := ((w 4).extractLsb' 48 16).toInt, extr := bits (w 4).toNat 0 16,
    extc := bits (w 4).toNat 16 16 }

/-- Magnitude bits of an SX format code (R197). -/
def descM (f : Nat) : Nat := if f = 4 then 2 else if f = 5 then 4 else 7
/-- Bytes of an element, or of an SX block, and the columns it stands for. -/
def descUnit (f : Nat) : Nat := if f = 0 then 4 else if f < 3 then 2 else if f = 3 then 1 else sxBytes (descM f)
def descCols (f : Nat) : Nat := if 4 ≤ f then 16 else 1
def descAlign (f : Nat) : Nat := if f = 0 then 4 else if f = 3 then 1 else 2
/-- Units of a tile row, and bytes of a tile (R200). -/
def Desc.units (d : Desc) : Nat := d.cols / descCols d.fmt
def Desc.bytes (d : Desc) : Nat := d.rows * d.units * descUnit d.fmt
/-- Address of a unit of a row (R197). -/
def Desc.addr (d : Desc) (r u : Int) : Nat :=
  (((d.base : Int) + r * d.pitch + u * descUnit d.fmt) % 2 ^ 64).toNat
/-- Address of a tensor unit of the tile, and whether it is in bounds (R199). -/
def Desc.tensor (d : Desc) (y x : Nat) : Nat × Bool :=
  let r := d.orgr + y
  let c := d.orgc + x * descCols d.fmt
  (d.addr r (c / descCols d.fmt), decide (0 ≤ r) && decide (r < d.extr) && decide (0 ≤ c) && decide (c < d.extc))
/-- The fill pattern of a unit (R197). -/
def Desc.fillBytes (d : Desc) : List Byte :=
  if d.fmt < 4 then toBytes d.fill (descUnit d.fmt)
  else
    let m := descM d.fmt
    let b : SxBlock := { e := bits d.fill 0 8, u := (List.range 4).map (fun g => bits d.fill (8 + 2 * g) 2),
                         xs := List.replicate 16 (bits d.fill 16 (m + 1)) }
    toBytes (b.toNat m) (descUnit d.fmt)
/-- The feed format of a descriptor format (R200). -/
def descFeed (f : Nat) : Option FeedFmt :=
  match f with
  | 1 => some .bf16
  | 2 => some .fp16
  | 4 => some .sx2
  | 5 => some .sx4
  | 6 => some .sx7
  | _ => none

/-- The first word of a descriptor that a capture refuses (R364): reserved fields, ROWS or COLS outside 1-256 (R197; DEDUCED), a space that its side cannot have, a FEED side
of another shape, SX columns that are no multiples of 16. Log 113 (DEDUCED). -/
def descBad (ws : List Word) (feedOk : Bool) : Option Word :=
  let d := descOf ws
  let w := fun (i : Nat) => ws.getD i 0
  if (w 2).extractLsb' 32 32 != 0 || d.rows = 0 || 256 < d.rows || d.cols = 0 || 256 < d.cols then some (w 2)
  else if (w 3).extractLsb' 8 56 != 0 || 2 ≤ d.space || 7 ≤ d.fmt || (d.space = 1 && !feedOk) then some (w 3)
  else if d.space = 1 && (w 0).extractLsb' 4 60 != 0 then some (w 0)
  else if d.space = 1 && (d.rows != 32 || d.cols != 32) then some (w 2)
  else if d.space = 1 && (descFeed d.fmt).isNone then some (w 3)
  else if 4 ≤ d.fmt && d.cols % 16 != 0 then some (w 2)
  else if 4 ≤ d.fmt && (d.orgc % 16 != 0 || d.extc % 16 != 0) then some (w 4)
  else none
/-- The two sides of a transfer (R199, R364). -/
def sidesBad (tensor tile : List Word) (feedOk : Bool) : Option Word :=
  match descBad tensor false with
  | some w => some w
  | none =>
    match descBad tile feedOk with
    | some w => some w
    | none =>
      if (descOf tensor).rows != (descOf tile).rows || (descOf tensor).cols != (descOf tile).cols then some (tile.getD 2 0)
      else if (descOf tensor).fmt != (descOf tile).fmt then some (tile.getD 3 0)
      else none
/-- ILLEGAL 12 with the word that fails (R360). -/
def wordTrap (w : Option Word) : Option (BitVec 8 × Word) := w.map (fun x => (0x01, illegalVal 12 x.toNat))

/-! ### The work of an engine -/

/-- An operation at work: the state, its first failure (CODE and address), whether it has stopped, and a fault it waits on
(address, stage, IPA, permission, write). -/
structure Work where
  s    : State
  err  : Option (Nat × Nat)
  stop : Bool
  flt  : Option (Nat × Nat × Nat × Bool × Bool)

def Work.start (s : State) : Work := { s := s, err := none, stop := false, flt := none }
/-- A failure: the first one of an operation counts (R383). -/
def Work.fail (g : Work) (code va : Nat) (stop : Bool) : Work :=
  { g with
    err := g.err.or (some (code, va))
    stop := g.stop || stop }
def Work.halted (g : Work) : Bool := g.stop || g.flt.isSome

/-- CODE of an access that is not performed (R382). -/
def engineCode (trap : BitVec 8) : Nat := if trap = 0x04 then 0x51 else if trap = 0x07 then 0x53 else 0x52
/-- An access that did not come about. -/
def Work.stopped {α : Type} (g : Work) (e : Engine) (write : Bool) (r : Reach α) : Work :=
  match r with
  | .ok _ _ => g
  | .fault va st i p => if e.denied then g.fail 0x52 va true else { g with flt := some (va, st, i, p, write) }
  | .denied c va =>
    let g : Work := g.fail (engineCode c) va true
    if c = 0x06 then ({ g with s := g.s.malformedAt e.agent e.vi e.asid va } : Work) else g
  | .remote va _ _ => g.fail 0x51 va true

/-- The cores on which the issuing workgroup has groups (R191). -/
def State.engineCores (s : State) (e : Engine) : List Nat :=
  match e.wg with
  | some w => (s.wg w).cores
  | none => []
/-- A line of global memory holds a byte of a run of a context. -/
def State.lineIn (s : State) (e : Engine) (va n key : Nat) : Bool :=
  decide (va < keyAddr key + 128) && decide (keyAddr key < va + n) && decide ((regionOf va n).1 = .global) &&
    key == lineKey (s.tagAsid e.vi e.asid (keyAddr key)) (keyAddr key)
/-- The dirty sectors of the lines of a run go to their homes from a core (R191). -/
def State.backLines (s : State) (core : Nat) (e : Engine) (va n : Nat) : State := s.backWhere core (fun k _ => s.lineIn e va n k)
/-- Every copy of the lines leaves a core's L1, region-dirty bytes apart (R191). -/
def State.dropLines (s : State) (core : Nat) (e : Engine) (va n : Nat) : State :=
  s.mapL1 core (fun k _ x => some (if s.lineIn e va n k then { Sector.blank with layers := x.layers } else x))

/-- A read of an engine at the homes and storages; zeros and no more work after a stop (R191, R373). -/
def Work.read (g : Work) (e : Engine) (lane : Option Nat) (va n : Nat) : Work × List Byte × Bool :=
  let none_ := (List.replicate n (0 : Byte), false)
  if g.halted then (g, none_)
  else
    match g.s.readFor e.wg e.agent lane e.vi e.asid va n with
    | .ok s (bs, bad) =>
      let g : Work := { g with s := s }
      (if bad then g.fail 0x54 va false else g, bs, bad)
    | r => (g.stopped e false r, none_)
/-- A write of an engine, in the three steps of R191. -/
def Work.write (g : Work) (e : Engine) (lane : Option Nat) (va : Nat) (bs : List Byte) (bad : Bool) : Work :=
  if g.halted then g
  else
    let cores := g.s.engineCores e
    let s := cores.foldl (fun s c => s.backLines c e va bs.length) g.s
    match s.writeFor e.wg e.agent lane e.vi e.asid va bs bad with
    | .ok s _ => { g with s := cores.foldl (fun s c => s.dropLines c e va bs.length) s }
    | r => g.stopped e true r

/-- The first address of a list that breaks an alignment (R382). -/
def misaligned (al : Nat) (vas : List Nat) : Option Nat := vas.find? (fun v => v % al != 0)
def Work.aligned (g : Work) (al : Nat) (vas : List Nat) : Work :=
  match misaligned al vas with
  | some v => g.fail 0x50 v true
  | none => g

/-- CPYL: every source read before any write (R196). -/
def cpylWork (e : Engine) (size : Nat) (ls : List (Nat × Word × Word)) (s : State) : Work :=
  let g := (Work.start s).aligned size (ls.flatMap (fun l => [l.2.1.toNat, l.2.2.toNat]))
  let (g, data) := ls.foldl (fun (p : Work × List (Nat × Word × List Byte × Bool)) l =>
    let (g, bs, bad) := p.1.read e (some l.1) l.2.2.toNat size
    (g, p.2 ++ [(l.1, l.2.1, bs, bad)])) (g, [])
  data.foldl (fun g l => g.write e (some l.1) l.2.1.toNat l.2.2.1 l.2.2.2) g

/-- A tile row of a tensor side: each unit's bytes and poison; units out of bounds take the fill pattern (R199, R200). -/
def Work.readRow (g : Work) (e : Engine) (d : Desc) (y : Nat) : Work × List (List Byte × Bool) :=
  (List.range d.units).foldl (fun p x =>
    let (va, in_) := d.tensor y x
    if in_ then
      let (g, bs, bad) := p.1.read e none va (descUnit d.fmt)
      (g, p.2 ++ [(bs, bad)])
    else (p.1, p.2 ++ [(d.fillBytes, false)])) (g, [])

/-- A row of a feed slot from the units of a tile row (R169, R200). -/
def feedRow (f : Feed) (fmt r : Nat) (us : List (List Byte)) : Feed :=
  if fmt < 4 then { f with rows := tabPut f.rows r (us.map ofBytes) }
  else
    let m := descM fmt
    { f with
      rows := tabPut f.rows r (us.flatMap (fun b => (SxBlock.ofNat m (ofBytes b)).xs))
      heads := tabPut f.heads r (us.map (fun b => (field b 0 1, field b 1 1))) }

/-- The addresses whose alignment a side needs: its rows' first units (R382). -/
def Desc.rowAddrs (d : Desc) : List Nat := if d.space = 1 then [] else (List.range d.rows).map (fun (y : Nat) => d.addr y 0)

/-- The slot a FEED side names: each row is written as it comes; after a failure the rest is poisoned, and the slot is sealed
(R200, R385). -/
def feedWork (e : Engine) (d : Desc) (row : Work → Nat → Work × List (List Byte × Bool)) (g : Work) : Work :=
  let m := d.base % 16
  let f0 : Feed := { (g.s.cluster e.cluster).feedOf m with fmt := (descFeed d.fmt).getD .bf16, wrote := descFeed d.fmt }
  let (g, f) := (List.range 32).foldl (fun (p : Work × Feed) y =>
    let (g, us) := row p.1 y
    let bad := us.any (fun u => u.2) || g.stop
    (g, { feedRow p.2 d.fmt y (us.map (·.1)) with poison := p.2.poison || bad })) (g, f0)
  if g.flt.isSome then g else { g with s := g.s.setFeed e.cluster m f.seal }

/-- TLD, and the data of RCOPY where it stays on the device (R199, R200). -/
def tldWork (e : Engine) (dst src : List Word) (s : State) : Work :=
  let t := descOf src
  let d := descOf dst
  let g := (Work.start s).aligned (descAlign t.fmt) (t.rowAddrs ++ d.rowAddrs)
  if d.space = 1 then feedWork e d (fun g y => g.readRow e t y) g
  else (List.range t.rows).foldl (fun g y =>
    let (g, us) := g.readRow e t y
    (List.range us.length).foldl (fun g (x : Nat) =>
      g.write e none (d.addr y x) (us.getD x ([], false)).1 (us.getD x ([], false)).2) g) g
/-- TST (R199, R200). -/
def tstWork (e : Engine) (dst src : List Word) (s : State) : Work :=
  let t := descOf dst
  let d := descOf src
  let g := (Work.start s).aligned (descAlign t.fmt) (t.rowAddrs ++ d.rowAddrs)
  (List.range t.rows).foldl (fun g y =>
    let xs := (List.range t.units).filter (fun x => (t.tensor y x).2)
    let (g, us) := xs.foldl (fun (p : Work × List (Nat × List Byte × Bool)) (x : Nat) =>
      let (g, bs, bad) := p.1.read e none (d.addr y x) (descUnit d.fmt)
      (g, p.2 ++ [(x, bs, bad)])) (g, [])
    us.foldl (fun g u => g.write e none (t.tensor y u.1).1 u.2.1 u.2.2) g) g
/-- TZFILL (R199, R200). -/
def tzfillWork (e : Engine) (dst : List Word) (s : State) : Work :=
  let t := descOf dst
  let g := (Work.start s).aligned (descAlign t.fmt) t.rowAddrs
  if t.space = 1 then feedWork e t (fun g _ => (g, List.replicate t.units (t.fillBytes, false))) g
  else (List.range t.rows).foldl (fun g y => (List.range t.units).foldl (fun g x =>
    if (t.tensor y x).2 then g.write e none (t.tensor y x).1 t.fillBytes false else g) g) g

/-- The row records of a weight image: fields and headers of 32 rows, where the records are exactly the bytes (R183, R386). -/
def parseRows (fmt : FeedFmt) (v len off : Nat) : Nat → Option (List (List Nat) × List (List (Nat × Nat)))
  | 0 => if off = len then some ([], []) else none
  | n + 1 =>
    let w := feedW fmt
    let m := feedSx fmt
    let width := if m = 0 then 16 else m + 1
    let mask := bits v (8 * off) (32 * w)
    let h := if m = 0 then 0 else 4 * w
    let start := off + 4 * w + h
    let set := (List.range (32 * w)).filter (fun c => mask.testBit c)
    let row := (List.range (32 * w)).map (fun c =>
      if mask.testBit c then bits v (8 * start + width * (set.filter (· < c)).length) width else 0)
    let heads := if m = 0 then [] else (List.range (2 * w)).map (fun i =>
      (bits v (8 * (off + 4 * w) + 16 * i) 8, bits v (8 * (off + 4 * w) + 16 * i + 8) 8))
    let next := start + (set.length * width + 7) / 8
    if len < next then none
    else (parseRows fmt v len next n).map (fun p => (row :: p.1, heads :: p.2))

/-- A weight image read into a handle; none of it is malformed (R183, R386). -/
def parseImage (head : Nat) (body : List Byte) : Option Handle :=
  match feedFmt (bits head 0 8) with
  | none => none
  | some f =>
    if bits head 8 8 != 0 || bits head 32 32 != 0 || 8184 < bits head 16 16 then none
    else
      match parseRows f (ofBytes body) (bits head 16 16) 0 32 with
      | none => none
      | some (rows, heads) =>
        some { valid := true, fmt := f, tog := togRows [] rows, failed := false, poison := false, rows := rows, heads := heads }
/-- TLDW (R183, R386): the header first; a malformed image or a failure leaves the handle failed. -/
def tldwWork (e : Engine) (k : Nat) (va : Word) (s : State) : Work :=
  let g := (Work.start s).aligned 8 [va.toNat]
  let (g, head, _) := g.read e none va.toNat 8
  let len := field head 2 2
  let (g, body, _) := if len ≤ 8184 then g.read e none (va.toNat + 8) len else (g, [], false)
  if g.flt.isSome then g
  else
    let old := (g.s.cluster e.cluster).handleOf k
    let failed := { g with s := g.s.setHandle e.cluster k { old with valid := false, failed := true } }
    if g.err.isSome then failed
    else match parseImage (ofBytes head) body with
      | some h => { g with s := g.s.setHandle e.cluster k h }
      | none => failed.fail 0x56 va.toNat true

/-- One token of BINSC (R202). -/
def binToken (e : Engine) (tb : Nat) (hd : List Byte) (lane : Nat × Lane × Lane) (g : Work) : Work :=
  let id := lane.2.1.toNat
  let j := lane.2.2.toNat
  let cap := field hd 4 4
  let tokb := field hd 0x1C 4
  if g.halted then g
  else if field hd 0 4 ≤ id then g.fail 0x55 (tb + 0x40 + 4 * id) false
  else
    let (g, cb, bad) := g.read e none (tb + 0x40 + 4 * id) 4
    let k := ofBytes cb
    let g := g.write e none (tb + 0x40 + 4 * id) (toBytes ((k + 1) % 2 ^ 32) 4) bad
    let src := field hd 0x10 8 + j * field hd 0x18 4
    if k < cap then
      let (g, tok, bad) := g.read e none (src % 2 ^ 64) tokb
      g.write e none ((field hd 8 8 + (id * cap + k) * tokb) % 2 ^ 64) tok bad
    else
      let (g, ob, obad) := g.read e none (tb + 0x30) 8
      let o := ofBytes ob
      let g := g.write e none (tb + 0x30) (toBytes ((o + 1) % 2 ^ 64) 8) obad
      if o < field hd 0x28 4 then
        let (g, tok, bad) := g.read e none (src % 2 ^ 64) tokb
        let at_ := (field hd 0x20 8 + o * (16 + tokb)) % 2 ^ 64
        (g.write e none at_ (toBytes id 4 ++ toBytes j 4 ++ toBytes 0 8) false).write e none ((at_ + 16) % 2 ^ 64) tok bad
      else g
/-- BINSC (R201, R202). Log 36 (DESIGN CHOICE). -/
def binscWork (e : Engine) (table : Word) (ls : List (Nat × Lane × Lane)) (s : State) : Work :=
  let g := (Work.start s).aligned 64 [table.toNat]
  let (g, hd, _) := g.read e none table.toNat 64
  let g := g.aligned 16 [field hd 8 8, field hd 0x10 8, field hd 0x18 4, field hd 0x1C 4, field hd 0x20 8]
  ls.foldl (fun g l => binToken e table.toNat hd l g) g
/-- BINRST (R202). -/
def binrstWork (e : Engine) (table : Word) (s : State) : Work :=
  let g := (Work.start s).aligned 64 [table.toNat]
  let (g, nb, _) := g.read e none table.toNat 4
  let g := g.write e none (table.toNat + 0x40) (List.replicate (4 * ofBytes nb) 0) false
  g.write e none (table.toNat + 0x30) (toBytes 0 8) false

/-- The remote page an address leads to: the device and RVA (R203, R215). -/
def State.remoteOf (s : State) (vi : BitVec 8) (asid : BitVec 16) (va : Nat) : Option (Nat × Nat) :=
  if (regionOf va 8).1 = .global then
    match s.home vi asid va false false with
    | .remote d r => some (d, r)
    | _ => none
  else none

/-- One indivisible update of a counter on this device (R203). -/
def Work.counter (g : Work) (e : Engine) (va : Nat) (f : Nat → Nat) : Work :=
  let g := g.aligned 8 [va]
  let (g, bs, bad) := g.read e none va 8
  if bad then { g with stop := true } else g.write e none va (toBytes (f (ofBytes bs) % 2 ^ 64) 8) false

/-- The element of a merge tile at (row, col), widened (R219). -/
def widenUnit (fmt : Nat) (bs : List Byte) : Lane := (widen1 (if fmt = 0 then 0 else 1) (ofBytes bs)).1
/-- A tile of 1,024 elements as the merge reads it: the elements, and whether one is poisoned (R219). -/
def Work.mergeTile (g : Work) (e : Engine) (d : Desc) : Work × List Lane × Bool :=
  (List.range d.rows).foldl (fun (p : Work × List Lane × Bool) y =>
    let (g, us) := p.1.readRow e d y
    (g, p.2.1 ++ us.map (fun u => widenUnit d.fmt u.1), p.2.2 || us.any (·.2))) (g, [], false)
/-- BMSTAGE: the slot is reached only while it is held for a merge of the issuing context (R218, R219, R390). A handle with other
bits set names no slot. Log 124 (DESIGN CHOICE). -/
def stageWork (e : Engine) (handle : Word) (tile : List Word) (s : State) : Work :=
  let d := descOf tile
  let die := bits handle.toNat 8 2
  let p := bits handle.toNat 16 9
  let whole := handle.toNat = handle.toNat % 16 + 0x100 * die + 0x10000 * p
  let g := (Work.start s).aligned (descAlign d.fmt) d.rowAddrs
  match if whole then tabFind (s.die die).slots (handle.toNat % 16) else none with
  | none => (Work.start s).fail 0x62 d.base true
  | some x =>
    let ntile := (s.peekNum x.vi x.asid (x.record.toNat + 0xE) 2).2
    if (x.vi, x.asid) != (e.vi, e.asid) || x.closed || ntile ≤ p then (Work.start s).fail 0x62 d.base true
    else
      let (g, els, bad) := g.mergeTile e d
      if g.halted then g
      else { g with s := g.s.modDie die (fun k => { k with slots := tabMod k.slots (handle.toNat % 16) (fun y =>
        { y with tiles := tabPut y.tiles p els, poison := y.poison || bad }) }) }

/-- The work that an operation does on this device at its completion. -/
def engineWork (e : Engine) (s : State) : Work :=
  match e.op with
  | .cpyl size ls => cpylWork e size ls s
  | .tld dst src => tldWork e dst src s
  | .tst dst src => tstWork e dst src s
  | .tzfill dst => tzfillWork e dst s
  | .tldw k va => tldwWork e k va s
  | .binsc t ls => binscWork e t ls s
  | .binrst t => binrstWork e t s
  | .cadd va v => (Work.start s).counter e va.toNat (fun x => x + v.toNat)
  | .cset va v => (Work.start s).counter e va.toNat (fun _ => v.toNat)
  | .rcopy _ _ c => (Work.start s).counter e c.toNat (fun x => x + 1)
  | .stage h t => stageWork e h t s

/-! ### Completion -/

/-- The record of a failed operation (R382, R390): COLLECTIVE for a stage that no slot takes. -/
def State.engineRecord (s : State) (e : Engine) (code va : Nat) : State :=
  s.report (if code = 0x62 then 6 else 5) 1 e.agent.unitWord (e.vi, e.asid) va 0 1 code
    (match e.wg with
      | some w => if s.alive e.agent then s.joined e.agent else s.joinedWg w
      | none => if s.alive e.agent then s.joined e.agent else noName)

/-- The barrier an operation registered on, where it still stands (R190, R194). -/
def State.postBar (s : State) (e : Engine) (bytes : Nat) : State :=
  match e.bar with
  | none => s
  | some n =>
    let there := match e.wg, e.agent with
      | some w, _ => (tabFind s.wgs w).isSome
      | none, .thread t => (s.thread t).ctx == some (e.vi, e.asid) && (s.thread t).wg.isNone
      | none, .split _ _ => false
    if there then s.bput e.wg e.agent.threadNo n ((s.bget e.wg e.agent.threadNo n).post bytes e.error) else s
/-- An operation posts and is gone; its node completes, and its workgroup may end (R46, R194, R206). -/
def State.endEngine (s : State) (id : Nat) (e : Engine) : State :=
  let s := s.postBar e e.bytes
  let s := { s with engines := tabDel s.engines id }
  let s := match e.node with
    | none => s
    | some n => s.soon (.nodeComplete e.cluster n)
  match e.wg with
  | some w => s.wgCheck w
  | none => s

/-- The first failure of an operation: its record, and the word that names it on its node (R383, R387). -/
def State.failEngine (s : State) (id : Nat) (e : Engine) (code va : Nat) : State :=
  if e.error.isSome then s
  else
    let seq := s.mgmt.errSeq
    let word := s.nextRecord code (if code = 0x62 then 6 else 5)
    let s := s.engineRecord e code va
    let s := { s with engines := tabMod s.engines id (fun x => { x with error := some seq }) }
    match e.node with
    | none => s
    | some n => s.modCluster e.cluster (fun c => { c with node := tabMod c.node n (fun x => { x with error := word }) })

/-- The counter that an operation updates. -/
def EngineOp.counter? : EngineOp → Option Word
  | .cadd va _ => some va
  | .cset va _ => some va
  | _ => none
/-- Whether an access touches a byte of runs. -/
def Access.meets (x : Access) (spans : List (Nat × Nat)) : Bool :=
  x.lanes.any (fun l => spans.any (fun r => l.2.1.toNat < r.1 + r.2 && r.1 < l.2.1.toNat + l.2.2.length))
/-- Whether an operation must still wait for what comes before it: earlier accesses of its stream, or to the bytes it names, or that
hold its stream back (R191, R230); write-backs of the issuing core that are held (R376); earlier updates of its
counter by the same split (R203); and, at SYSTEM scope, REMOTE acknowledgements (R244). -/
def State.engineWaits (s : State) (id : Nat) (e : Engine) : Bool :=
  s.accesses.any (fun p => p.1 < id && p.2.agent == e.agent && p.2.open && p.2.what != 4 &&
      (p.2.stream == e.stream || p.2.block.getLsbD e.stream || p.2.meets e.spans)) ||
    s.accesses.any (fun p => p.1 < id && p.2.what == 4 && p.2.core == e.unit &&
      (p.2.tags.getLsbD e.stream || p.2.meets e.spans)) ||
    s.engines.any (fun p => p.1 < id && p.2.agent == e.agent && p.2.phase == 0 && p.2.op.counter?.isSome &&
      p.2.op.counter? == e.op.counter?) ||
    (e.st.scope == 4 && s.engines.any (fun p => p.1 < id && p.2.agent == e.agent && p.2.stream == e.stream &&
      !p.2.xids.isEmpty))
/-- The feed slot that an operation fills. -/
def EngineOp.slot : EngineOp → Option Nat
  | .tld d _ => if (descOf d).space = 1 then some ((descOf d).base % 16) else none
  | .tzfill d => if (descOf d).space = 1 then some ((descOf d).base % 16) else none
  | _ => none

/-- Bytes with their poison, cut where the sectors of their destination end (R321). -/
def cutSectors (va : Nat) (bs : List (Byte × Bool)) : Nat → List (Nat × List Byte × Bool)
  | 0 => []
  | f + 1 =>
    if bs.isEmpty then []
    else
      let n := 16 - va % 16
      (va, (bs.take n).map (·.1), (bs.take n).any (·.2)) :: cutSectors (va + n) (bs.drop n) f
/-- What one WRITE carries (R321): whole sectors of one kind on one page, at most 255. A part of a sector goes by itself, and its LEN
and RVA name its bytes alone. Log 123 (DESIGN CHOICE). -/
def packetRuns (ps : List (Nat × List Byte × Bool)) : List (Nat × List Byte × Bool) :=
  (ps.foldl (fun (acc : List (Nat × List Byte × Bool)) p =>
    match acc with
    | r :: rest =>
      if r.2.2 == p.2.2 && r.1 % 16 == 0 && r.2.1.length % 16 == 0 && p.2.1.length == 16 && decide (r.2.1.length < 4080) &&
          r.1 / 65536 == p.1 / 65536 then (r.1, r.2.1 ++ p.2.1, r.2.2) :: rest
      else p :: acc
    | [] => [p]) []).reverse
/-- Rows of data, each at its address, on their way to where their pages lie: WRITEs to another device, writes here (R215, R289,
R321). Every page is translated before the first byte goes out, so that a fault sends nothing. Log 37 (DEDUCED). -/
def Work.sendRows (g : Work) (e : Engine) (rows : List (Nat × List (Byte × Bool))) (engine coll : Option Nat) :
    Work × List (BitVec 32) :=
  let runs := rows.flatMap (fun r => packetRuns (cutSectors r.1 r.2 (r.2.length / 16 + 2)))
  let g := runs.foldl (fun (g : Work) r =>
    if g.halted || (regionOf r.1 r.2.1.length).1 != .global then g
    else match g.s.home e.vi e.asid r.1 true false with
      | .ok s => { g with s := s }
      | .remote _ _ => g
      | h => g.stopped e true (h.stop (α := Unit) r.1)) g
  if g.halted then (g, [])
  else runs.foldl (fun (p : Work × List (BitVec 32)) r =>
    match p.1.s.remoteOf e.vi e.asid r.1 with
    | some (dev, rva) =>
      let (s, x) := p.1.s.sendWrite e.agent.unitWord e.vi e.asid dev rva r.1 r.2.2 r.2.1 engine coll
      ({ p.1 with s := s }, p.2 ++ [x])
    | none => (p.1.write e none r.1 r.2.1 r.2.2, p.2)) (g, [])
/-- The bytes of units with the poison of each. -/
def unitBytes (us : List (List Byte × Bool)) : List (Byte × Bool) := us.flatMap (fun u => u.1.map (fun b => (b, u.2)))
/-- The data of an RCOPY: the source read as TLD reads it, then on its way (R215). -/
def State.sendTile (s : State) (id : Nat) (e : Engine) (dst src : List Word) : Work × List (BitVec 32) :=
  let t := descOf src
  let d := descOf dst
  let g := (Work.start s).aligned (descAlign t.fmt) (t.rowAddrs ++ d.rowAddrs)
  let (g, rows) := (List.range t.rows).foldl (fun (p : Work × List (Nat × List (Byte × Bool))) (y : Nat) =>
    let (g, us) := p.1.readRow e t y
    (g, p.2 ++ [(d.addr y 0, unitBytes us)])) (g, [])
  if g.halted then (g, []) else g.sendRows e rows (some id) none

/-- Where the counter that an operation updates in its phase lies on another device: the device and RVA. -/
def State.engineRemote (s : State) (e : Engine) : Option (Nat × Nat) :=
  match e.op with
  | .cadd va _ => s.remoteOf e.vi e.asid va.toNat
  | .cset va _ => s.remoteOf e.vi e.asid va.toNat
  | .rcopy _ _ c => s.remoteOf e.vi e.asid c.toNat
  | _ => none
/-- The packet of a counter's update (R203, R215). -/
def State.engineSend (s : State) (id : Nat) (e : Engine) (dev rva : Nat) : Work × List (BitVec 32) :=
  let one := fun (op : Nat) (va : Nat) (v : Word) =>
    match misaligned 8 [va] with
    | some x => ((Work.start s).fail 0x50 x true, ([] : List (BitVec 32)))
    | none =>
      let (t, x) := s.sendCounter e.agent.unitWord e.vi e.asid op dev rva va v (some id) none
      (Work.start t, [x])
  match e.op with
  | .cadd va v => one 2 va.toNat v
  | .cset va v => one 3 va.toNat v
  | .rcopy _ _ c => one 2 c.toNat 1
  | _ => (Work.start s, [])
/-- The work of an operation's phase, here or over the fabric, with the packets that it waits for. -/
def State.engineRun (s : State) (id : Nat) (e : Engine) : Work × List (BitVec 32) :=
  match e.op, e.phase with
  | .rcopy dst src _, 0 => s.sendTile id e dst src
  | _, _ => match s.engineRemote e with
    | some (dev, rva) => s.engineSend id e dev rva
    | none => (engineWork e s, [])

/-- What is left of an operation after a phase: an RCOPY raises its counter after its data; the others post. -/
def EngineOp.nextPhase (o : EngineOp) (phase : Nat) : Nat :=
  match o with
  | .rcopy .. => if phase ≤ 1 then 2 else 3
  | _ => 3

/-- The outcome of a piece of work: it waits on a fault, or fails, or goes on to its next phase (R190, R298, R382, R383). -/
def State.settleWork (s : State) (id : Nat) (e : Engine) (g : Work) (xids : List (BitVec 32)) : State :=
  match g.flt with
  | some (va, st, ipa, perm, write) =>
    (s.raise e.vi e.asid va st ipa (8 + (if write then 2 else 1) + if perm then 16 else 0)
      (if s.alive e.agent then s.joined e.agent else noName) (.step (.engineComplete id))).1
  | none =>
    let t := match g.err with
      | some (code, va) => g.s.failEngine id e code va
      | none => g.s
    let fin := g.stop || xids.isEmpty
    let phase := if g.stop then 3 else if xids.isEmpty then e.op.nextPhase e.phase else if e.phase = 0 then 1 else 2
    let t := { t with engines := tabMod t.engines id (fun x => { x with
      phase := phase, xids := x.xids ++ xids, stopped := x.stopped || g.stop }) }
    if fin then t.soon (.engineComplete id) else t

/-- ENGINE_COMPLETE (R190, R194, R200, R203, R215, R383): the operation's work, in its order, then its post.
Log 35 (DEDUCED). -/
def execEngineComplete (id : Nat) (s : State) : Host.Outcome State Fault Refusal :=
  match tabFind s.engines id with
  | none => .next s
  | some e =>
    if !e.xids.isEmpty then .next s
    else if e.phase = 3 || e.stopped then .next (s.endEngine id e)
    else
      let s := s.flush e.agent id
      let slotBusy := match e.op.slot with
        | some m => ((s.cluster e.cluster).feedOf m).ready
        | none => false
      if s.engineWaits id e || slotBusy then .next (s.inClk 1 (.engineComplete id))
      else .next (s.settleWork id e (s.engineRun id e).1 (s.engineRun id e).2)

/-- A packet of an operation is acknowledged or lost (R321, R400): with the last of a phase the operation goes on. -/
def State.engineAck (s : State) (id : Nat) (xid : BitVec 32) : State :=
  match tabFind s.engines id with
  | none => s
  | some e =>
    let left := e.xids.filter (fun x => x != xid)
    let phase := if left.isEmpty then (if e.stopped then 3 else e.op.nextPhase e.phase) else e.phase
    let s := { s with engines := tabMod s.engines id (fun x => { x with xids := left, phase := phase }) }
    if left.isEmpty then s.soon (.engineComplete id) else s

/-! ### Engine issues -/

/-- The bytes of a tensor side's units in bounds, row by row (R197, R199). -/
def Desc.tensorRuns (d : Desc) : List (Nat × Nat) :=
  (List.range d.rows).filterMap (fun y =>
    let xs := (List.range d.units).filter (fun x => (d.tensor y x).2)
    match xs.head?, xs.getLast? with
    | some x0, some x1 => some ((d.tensor y x0).1, (x1 - x0 + 1) * descUnit d.fmt)
    | _, _ => none)
/-- The bytes of a tile side's rows. -/
def Desc.tileRuns (d : Desc) : List (Nat × Nat) := d.rowAddrs.map (fun a => (a, d.units * descUnit d.fmt))
/-- What an agent's engines read at an address: its own window, or the home. -/
def State.see (s : State) (a : Agent) (va n : Nat) : List Byte :=
  match s.readFor (s.wgOf a) a none (s.ctxOf a).1 (s.ctxOf a).2 va n with
  | .ok _ (bs, _) => bs
  | _ => List.replicate n 0
/-- The runs that a BINSC reads or may write: its table, its counts, its tokens, their bins and the overflow area (R201, R202). -/
def binRuns (t : Nat) (hd : List Byte) (ls : List (Nat × Lane × Lane)) : List (Nat × Nat) :=
  let tokb := field hd 0x1C 4
  let cap := field hd 4 4
  (t, 64) :: (field hd 0x20 8, field hd 0x28 4 * (16 + tokb)) :: ls.flatMap (fun l =>
    [(t + 0x40 + 4 * l.2.1.toNat, 4), (field hd 0x10 8 + l.2.2.toNat * field hd 0x18 4, tokb),
     (field hd 8 8 + l.2.1.toNat * cap * tokb, cap * tokb)])
/-- Runs of bytes that an operation reads or writes, as its issue knows them (R191); those that a table or header in memory gives
are read there. -/
def EngineOp.spans (o : EngineOp) (s : State) (a : Agent) : List (Nat × Nat) :=
  match o with
  | .cpyl size ls => ls.flatMap (fun l => [(l.2.1.toNat, size), (l.2.2.toNat, size)])
  | .tld dst src => (descOf dst).tileRuns ++ (descOf src).tensorRuns
  | .tst dst src => (descOf dst).tensorRuns ++ (descOf src).tileRuns
  | .tzfill dst => (descOf dst).tensorRuns
  | .tldw _ va => [(va.toNat, 8 + field (s.see a va.toNat 8) 2 2)]
  | .binsc t ls => binRuns t.toNat (s.see a t.toNat 64) ls
  | .binrst t => [(t.toNat, 64 + 4 * field (s.see a t.toNat 4) 0 4)]
  | .cadd va _ => [(va.toNat, 8)]
  | .cset va _ => [(va.toNat, 8)]
  | .rcopy dst src c => (c.toNat, 8) :: (descOf dst).tileRuns ++ (descOf src).tensorRuns
  | .stage _ t => (descOf t).tensorRuns
/-- The table or header that an operation's runs depend on. -/
def EngineOp.head : EngineOp → List (Nat × Nat)
  | .tldw _ va => [(va.toNat, 8)]
  | .binsc t _ => [(t.toNat, 64)]
  | .binrst t => [(t.toNat, 64)]
  | _ => []

/-- Free engine slots of a unit (R190): operations under way, the groups of a collective, and merge members that wait for their
answer take one each. -/
def State.engineSlots (s : State) (u : Nat) : Nat :=
  let colls := s.wgs.flatMap (fun p => match p.2.coll with
    | none => []
    | some q => q.issued.filter (fun i => (if p.2.wide then 4 * p.2.cluster + i % 4 else p.2.core) == u))
  let waits := s.agents.filter (fun a => a.unit == u && match (s.strand a).wait with
    | some (.answer ..) => true
    | _ => false)
  16 - (s.engines.filter (fun e => e.2.unit == u)).length - colls.length - waits.length

/-- An operation of an agent before it has captured anything. -/
def Engine.start (a : Agent) (ctx : BitVec 8 × BitVec 16) (wg : Option Nat) (op : EngineOp) (st : Nat) (sc : Stream) (clk : Nat) :
    Engine :=
  { op := op
    agent := a
    wg := wg
    unit := a.unit
    cluster := a.cluster
    vi := ctx.1
    asid := ctx.2
    stream := st
    st := sc
    bar := none
    bytes := 0
    node := none
    token := none
    error := none
    xids := []
    phase := 0
    denied := false
    stopped := false
    spans := []
    issue := clk }
/-- The dirty sectors of runs go home from the issuing core (R191). -/
def State.backSpans (s : State) (e : Engine) (spans : List (Nat × Nat)) : State :=
  match e.agent with
  | .split g _ => spans.foldl (fun (s : State) (r : Nat × Nat) => s.backLines (g / 32) e r.1 r.2) s
  | .thread _ => s
/-- What comes before the accesses of an engine issue (R53, R191): the commit, the earlier accesses that nothing holds back, the
write-backs of the runs it names from the issuing core, and the release. -/
def State.engineEdge (s : State) (e : Engine) (spans : List (Nat × Nat)) : State :=
  let s := match e.wg with
    | some w => s.commitRegion w
    | none => s
  ((s.flush e.agent s.nextId).backSpans e spans).releaseL1 e.agent (1 <<< e.stream) e.st.scope
/-- An engine issue for a context and workgroup (R190, R191, R194): what comes before it, registration, and the operation under
way. `bytes`: what it registers, where a table gives that as it stands then. -/
def State.forkAs (s : State) (a : Agent) (ctx : BitVec 8 × BitVec 16) (wg : Option Nat) (st : Nat) (sc : Stream)
    (bar : Option Nat) (bytes : State → Nat) (op : EngineOp) (node : Option Nat) : State :=
  let e := { Engine.start a ctx wg op st sc s.clk with bar := bar, node := node }
  let s := s.engineEdge e op.head
  let spans := op.spans s a
  let s := s.backSpans e spans
  let e := { e with bytes := bytes s, spans := spans }
  let s := match bar with
    | some n => s.bput wg a.threadNo n ((s.bget wg a.threadNo n).register e.bytes)
    | none => s
  let id := s.nextId
  ({ s with engines := tabPut s.engines id e, nextId := id + 1 } : State).later 1 (.engineComplete id)
/-- A sequence that cannot go on yet after its edge has been made: what its ports popped stays with it. -/
def waitOn (c : Ctx) (s : State) (w : Cause) : Act :=
  .gone ((s.block c.a w).modStrand c.a (fun x => { x with
    park := some { mask := c.mask, token := none, ready := true, popped := c.popped } }))
/-- A member that its split performs itself, as an engine would (R191): the edge, then what it waits for, then its work. -/
def engineHere (c : Ctx) (s : State) (st : StreamNo) (spans : List (Nat × Nat)) (go : Engine → State → Act) : Act :=
  let e := { Engine.start c.a (s.ctxOf c.a) (s.wgOf c.a) (.binrst 0) st.toNat (s.stream c.a st.toNat) s.clk with spans := spans }
  if s.engineSlots c.a.unit = 0 then .wait .async
  else
    let t := s.engineEdge e spans
    if t.engineWaits t.nextId e then waitOn c t .async else go e t

/-- An engine issue of an agent. -/
def State.fork (s : State) (a : Agent) (st : Nat) (sc : Stream) (bar : Option Nat) (bytes : State → Nat) (op : EngineOp)
    (node : Option Nat) : State :=
  s.forkAs a (s.ctxOf a) (s.wgOf a) st sc bar bytes op node

/-- What an engine issue does once its operands are known: a free slot, then the fork (R190). -/
def forkBody (c : Ctx) (s : State) (st : StreamNo) (bar : Option Nat) (bytes : State → Nat) (op : EngineOp) : Act :=
  if s.engineSlots c.a.unit = 0 then .wait .async
  else .done (s.fork c.a st.toNat (s.stream c.a st.toNat) bar bytes op none)

/-- What CPYL and BINSC need: pairs of vector registers, the load/store pipe (R190, R196, R202). -/
def laneNeed (pairs : List Nat) (src : List Nat) (n : BarNo) : Need :=
  let regs := pairs.flatMap (fun r => [r, r + 1])
  { src := src, vsrc := regs, lim := regs, even := pairs, ctl := false, pipe := some 2, draw := .mem, pre := regPre n.toNat }

/-- Bytes of a CPYL access (R196). -/
def cpBytes : CpSize → Nat
  | .w => 4
  | .d => 8
  | .q => 16
/-- The address that a lane's pair of registers holds (R196). -/
def State.pairAddr (s : State) (a : Agent) (r i : Nat) : Word :=
  (lane (s.vget a.groupNo (r + 1)) i ++ lane (s.vget a.groupNo r) i : BitVec 64)
/-- CPYL (R196). -/
def execCpyl (a b : VReg) (n : BarNo) (z : CpSize) (st : StreamNo) (s : State) : Host.Outcome State Fault Refusal :=
  issue (laneNeed [a.toNat, b.toNat] [] n) (fun c s =>
    let act := (List.range 96).filter (fun i => c.act.getLsbD i)
    let ls := act.map (fun i => (i, s.pairAddr c.a a.toNat i, s.pairAddr c.a b.toNat i))
    forkBody c s st (some n.toNat) (fun _ => cpBytes z * act.length) (.cpyl (cpBytes z) ls)) s

/-- What a TDMA member needs (R190, R199, R364). -/
def tdmaNeed (n : BarNo) (ts : List Nat) (bad : State → Agent → Option Word) : Need :=
  { tsrc := ts
    pre := fun s a => match wordTrap (bad s a) with
      | some t => some t
      | none => regPre n.toNat s a }
/-- TLD (R199, R200). -/
def tldNeed (d a : TReg) (n : BarNo) : Need :=
  tdmaNeed n [d.toNat, a.toNat] (fun s g => sidesBad (s.tget g a.toNat) (s.tget g d.toNat) true)
def execTld (d a : TReg) (n : BarNo) (st : StreamNo) (s : State) : Host.Outcome State Fault Refusal :=
  issue (tldNeed d a n) (fun c s =>
    forkBody c s st (some n.toNat) (fun _ => (descOf (s.tget c.a a.toNat)).bytes) (.tld (s.tget c.a d.toNat) (s.tget c.a a.toNat))) s
/-- TST (R199, R200). -/
def tstNeed (d a : TReg) (n : BarNo) : Need :=
  tdmaNeed n [d.toNat, a.toNat] (fun s g => sidesBad (s.tget g d.toNat) (s.tget g a.toNat) false)
def execTst (d a : TReg) (n : BarNo) (st : StreamNo) (s : State) : Host.Outcome State Fault Refusal :=
  issue (tstNeed d a n) (fun c s =>
    forkBody c s st (some n.toNat) (fun _ => (descOf (s.tget c.a d.toNat)).bytes) (.tst (s.tget c.a d.toNat) (s.tget c.a a.toNat))) s
/-- TZFILL (R199, R200). -/
def tzfillNeed (d : TReg) (n : BarNo) : Need := tdmaNeed n [d.toNat] (fun s g => descBad (s.tget g d.toNat) true)
def execTzfill (d : TReg) (n : BarNo) (st : StreamNo) (s : State) : Host.Outcome State Fault Refusal :=
  issue (tzfillNeed d n) (fun c s =>
    forkBody c s st (some n.toNat) (fun _ => (descOf (s.tget c.a d.toNat)).bytes) (.tzfill (s.tget c.a d.toNat))) s

/-- TLDW: VALID falls at issue; it waits for the operations that read the handle (R175, R183, R386). -/
def State.tldwStart (s : State) (c k : Nat) : State :=
  s.setHandle c k { (s.cluster c).handleOf k with valid := false, failed := false }
def execTldw (k : HandleNo) (a : SReg) (st : StreamNo) (s : State) : Host.Outcome State Fault Refusal :=
  issue (trapNeed a) (fun c s =>
    if s.handleBusy c.a.cluster k.toNat then .wait .matrix
    else if s.engineSlots c.a.unit = 0 then .wait .async
    else
      let s := s.fork c.a st.toNat (s.stream c.a st.toNat) none (fun _ => 0) (.tldw k.toNat (c.get s a.toNat)) none
      .done (s.tldwStart c.a.cluster k.toNat)) s

/-- BINSC (R201, R202): the bytes it registers are those its table gives once the issuing core's stores to it are home. -/
def execBinsc (n : BarNo) (a : VReg) (b : SReg) (st : StreamNo) (s : State) : Host.Outcome State Fault Refusal :=
  issue (laneNeed [a.toNat] [b.toNat] n) (fun c s =>
    let t := c.get s b.toNat
    let act := (List.range 96).filter (fun i => c.act.getLsbD i)
    let ls := act.map (fun i => (i, lane (s.vget c.a.groupNo a.toNat) i, lane (s.vget c.a.groupNo (a.toNat + 1)) i))
    forkBody c s st (some n.toNat) (fun s => field (s.see c.a (t.toNat + 0x1C) 4) 0 4 * act.length) (.binsc t ls)) s
/-- BINRST (R202). -/
def binrstNeed (n : BarNo) (b : SReg) : Need :=
  { src := [b.toNat], ctl := false, pipe := some 2, draw := .mem, pre := regPre n.toNat }
def execBinrst (n : BarNo) (b : SReg) (st : StreamNo) (s : State) : Host.Outcome State Fault Refusal :=
  issue (binrstNeed n b) (fun c s =>
    let t := c.get s b.toNat
    forkBody c s st (some n.toNat) (fun s => 4 * field (s.see c.a t.toNat 4) 0 4 + 8) (.binrst t)) s

/-! ### Counters -/

def cntNeed (a b : SReg) : Need := { src := [a.toNat, b.toNat] }
/-- CADD (R203). -/
def execCadd (a b : SReg) (st : StreamNo) (s : State) : Host.Outcome State Fault Refusal :=
  issue (cntNeed a b) (fun c s => forkBody c s st none (fun _ => 0) (.cadd (c.get s a.toNat) (c.get s b.toNat))) s
/-- CSET (R203). -/
def execCset (a b : SReg) (st : StreamNo) (s : State) : Host.Outcome State Fault Refusal :=
  issue (cntNeed a b) (fun c s => forkBody c s st none (fun _ => 0) (.cset (c.get s a.toNat) (c.get s b.toNat))) s

/-- A counter as CWAIT and CTEST see it: at its home or storage. -/
def State.seeCounter (s : State) (a : Agent) (va : Nat) : Reach (List Byte × Bool) :=
  let (vi, asid) := s.ctxOf a
  s.readFor (s.wgOf a) a none vi asid va 8
/-- The trap that a counter's address takes: MISALIGN, WINDOW, or what its home answers (R203, R377 to R380). -/
def State.counterTrap (s : State) (a : Agent) (va : Nat) : Option (BitVec 8) :=
  let (vi, asid) := s.ctxOf a
  if va % 8 != 0 then some 0x03
  else match s.seeCounter a va with
    | .ok _ (_, bad) => if bad then some (if s.popt vi asid then 0x10 else 0x08) else none
    | .fault .. => none
    | .denied code _ => some code
    | .remote .. => some 0x04
/-- The end of a CWAIT or of a CTEST that answers 1: an acquire of the stream at its scope (R203, R241). -/
def State.cntAcquire (s : State) (a : Agent) (st : Nat) : State := s.fenceEnd a (1 <<< st)

/-- It waits while an acquire of its stream is under way, unless the counter lies on a UO page (R161, R241). -/
def cwaitWaits (a b : SReg) (st : StreamNo) (s : State) (g : Agent) : Option Cause :=
  let va := (s.wouldBe g (portsOf [a.toNat, b.toNat])).get s a.toNat
  if s.acquiring g st.toNat && !(s.kindsAt (s.ctxOf g).1 (s.ctxOf g).2 va.toNat 8).all (· == 2) then some .loadwait else none
def cwaitNeed (d a b : SReg) (st : StreamNo) : Need :=
  { src := [a.toNat, b.toNat], dst := [d.toNat], waits := cwaitWaits a b st }
/-- CWAIT (R203). A counter whose page faults parks its split (R163). -/
def execCwait (d a b : SReg) (st : StreamNo) (s : State) : Host.Outcome State Fault Refusal :=
  issue (cwaitNeed d a b st) (fun c s =>
    let va := c.get s a.toNat
    let v := c.get s b.toNat
    let (vi, asid) := s.ctxOf c.a
    match s.counterTrap c.a va.toNat with
    | some code => .trap code va
    | none =>
      match s.seeCounter c.a va.toNat with
      | .fault va st i p =>
        let (t, tok) := s.raise vi asid va st i (1 + if p then 16 else 0) (s.joined c.a) (.agent c.a)
        .park t 0 tok
      | .ok t (bs, _) =>
        if v.toNat ≤ ofBytes bs then .done ((t.cntAcquire c.a st.toNat).sset c.a d.toNat (BitVec.ofNat 64 (ofBytes bs)))
        else .jump (t.waitIn c.a c.next (.counter va v st.toNat (s.stream c.a st.toNat) d c.popped)) c.pc
      | _ => .wait .async) s
/-- CTEST (R203). -/
def execCtest (d a b : SReg) (st : StreamNo) (s : State) : Host.Outcome State Fault Refusal :=
  issue (cwaitNeed d a b st) (fun c s =>
    let va := c.get s a.toNat
    let v := c.get s b.toNat
    let (vi, asid) := s.ctxOf c.a
    match s.counterTrap c.a va.toNat with
    | some code => .trap code va
    | none =>
      match s.seeCounter c.a va.toNat with
      | .fault va st i p =>
        let (t, tok) := s.raise vi asid va st i (1 + if p then 16 else 0) (s.joined c.a) (.agent c.a)
        .park t 0 tok
      | .ok t (bs, _) =>
        if v.toNat ≤ ofBytes bs then .done ((t.cntAcquire c.a st.toNat).sset c.a d.toNat 1)
        else .done (t.sset c.a d.toNat 0)
      | _ => .wait .async) s

/-- A CWAIT looks at its counter again, at the end of a clk (R203): it ends, goes on waiting, traps, or parks. -/
def State.pollCounter (s : State) (a : Agent) (va v : Word) (st : Nat) (d : SReg) (popped : List (Nat × Word)) : State :=
  let (vi, asid) := s.ctxOf a
  match s.counterTrap a va.toNat with
  | some code => (s.modStrand a (fun x => { x with wait := none })).queueTrap a code va
  | none =>
    match s.seeCounter a va.toNat with
    | .ok t (bs, _) =>
      if v.toNat ≤ ofBytes bs && s.roomFor a (portsOf [d.toNat]) then
        ((t.cntAcquire a st).sset a d.toNat (BitVec.ofNat 64 (ofBytes bs))).endWait a
      else s
    | .fault va st i p =>
      let (t, tok) := s.raise vi asid va st i (1 + if p then 16 else 0) (s.joined a) (.agent a)
      (t.modStrand a (fun x => { x with wait := none })).parkAt a 0 tok popped
    | _ => s

/-! ### RCOPY -/

/-- RCOPY (R215): its destination is a tile side with SPACE MEMORY. -/
def rcopyNeed (d a : TReg) (b : SReg) (n : BarNo) : Need :=
  { tdmaNeed n [d.toNat, a.toNat] (fun s g => sidesBad (s.tget g a.toNat) (s.tget g d.toNat) false) with src := [b.toNat], ctl := false }
def execRcopy (d a : TReg) (b : SReg) (n : BarNo) (st : StreamNo) (s : State) : Host.Outcome State Fault Refusal :=
  issue (rcopyNeed d a b n) (fun c s =>
    forkBody c s st (some n.toNat) (fun _ => (descOf (s.tget c.a a.toNat)).bytes)
      (.rcopy (s.tget c.a d.toNat) (s.tget c.a a.toNat) (c.get s b.toNat))) s

end Sys2Proof.Machine
end

