-- ==== Sys2Proof/WellFormed.lean ====
section
/-!
DEFINITION. Well-formed instructions: those whose bits pass the checks of R93 that the bits alone decide
(spec/06_encoding.md R93, R98, R99, R100), and that have an encoding.
-/

namespace Sys2Proof

/-- Majors of formats I, L, B, J, K and M, which may carry XIMM (R92, R97, R102). -/
def takesExt (major : Nat) : Bool :=
  major = 0x02 ∨ major = 0x03 ∨ major = 0x04 ∨ major = 0x05 ∨ major = 0x06 ∨ major = 0x09 ∨ major = 0x15 ∨
    (0x1C ≤ major ∧ major ≤ 0x27)

/-- Majors that may carry VPFX (R92). -/
def takesPrefix (major : Nat) : Bool :=
  (0x10 ≤ major ∧ major ≤ 0x1B) ∨ major = 0x31 ∨ major = 0x32

/-- Which rounding codes of a prefix a member uses (R99). -/
inductive RmUse where
  | no | std | rna
deriving DecidableEq, Repr

/-- Which fields of a prefix a member uses (R99, and the member's own statement). -/
structure PrefixUse where
  k  : Bool
  z  : Bool
  rm : RmUse
  c  : Bool
  pa : Bool
  pb : Bool
deriving DecidableEq, Repr

/-- Lane patterns that are not reserved (R100). -/
def patternOk (q : BitVec 6) : Bool :=
  if q.extractLsb' 4 2 = 0#2 then decide ((q.extractLsb' 0 4).toNat ≤ 5)
  else if q.extractLsb' 4 2 = 1#2 then decide ((q.extractLsb' 0 3).toNat ≤ 4)
  else true

/-- Whether a prefix may stand before a member with the given use (R99): a field that is not used is zero. -/
def PrefixUse.allows (u : PrefixUse) (p : Prefix) : Bool :=
  (u.k || p.k == 0#3) && (u.z || !p.z) &&
  (match u.rm with
    | .no => p.rm == 0#3
    | .std => decide (p.rm.toNat ≤ 4)
    | .rna => decide (p.rm.toNat ≤ 5)) &&
  (u.c || p.c == 0#6) &&
  (if u.pa then patternOk p.pa else p.pa == 0#6) && (if u.pb then patternOk p.pb else p.pb == 0#6)

/-- The prefix fields of each member that may carry a prefix (R99). -/
def prefixUse : Instr → PrefixUse
  | .vfpFadd _ _ _ _ _ => ⟨true, true, .std, false, true, true⟩
  | .vfpFsub _ _ _ _ _ => ⟨true, true, .std, false, true, true⟩
  | .vfpFmul _ _ _ _ _ => ⟨true, true, .std, false, true, true⟩
  | .vfpFmin _ _ _ _ _ => ⟨true, true, .std, false, true, true⟩
  | .vfpFmax _ _ _ _ _ => ⟨true, true, .std, false, true, true⟩
  | .vfpFabs _ _ _ _ => ⟨true, true, .std, false, true, false⟩
  | .vfpFneg _ _ _ _ => ⟨true, true, .std, false, true, false⟩
  | .vfpFcpysgn _ _ _ _ _ => ⟨true, true, .std, false, true, true⟩
  | .fma _ _ _ _ _ => ⟨true, true, .std, true, true, true⟩
  | .fms _ _ _ _ _ => ⟨true, true, .std, true, true, true⟩
  | .nfma _ _ _ _ _ => ⟨true, true, .std, true, true, true⟩
  | .nfms _ _ _ _ _ => ⟨true, true, .std, true, true, true⟩
  | .vfpsFadd _ _ _ _ _ => ⟨true, true, .std, false, true, false⟩
  | .vfpsFsub _ _ _ _ _ => ⟨true, true, .std, false, true, false⟩
  | .vfpsFmul _ _ _ _ _ => ⟨true, true, .std, false, true, false⟩
  | .vfpsFmin _ _ _ _ _ => ⟨true, true, .std, false, true, false⟩
  | .vfpsFmax _ _ _ _ _ => ⟨true, true, .std, false, true, false⟩
  | .vfpsFcpysgn _ _ _ _ _ => ⟨true, true, .std, false, true, false⟩
  | .vintAdd _ _ _ _ => ⟨true, true, .no, false, true, true⟩
  | .vintSub _ _ _ _ => ⟨true, true, .no, false, true, true⟩
  | .vintMullo _ _ _ _ => ⟨true, true, .no, false, true, true⟩
  | .vintMulhiS _ _ _ _ => ⟨true, true, .no, false, true, true⟩
  | .vintMulhiU _ _ _ _ => ⟨true, true, .no, false, true, true⟩
  | .vintAnd _ _ _ _ => ⟨true, true, .no, false, true, true⟩
  | .vintOr _ _ _ _ => ⟨true, true, .no, false, true, true⟩
  | .vintXor _ _ _ _ => ⟨true, true, .no, false, true, true⟩
  | .vintAndn _ _ _ _ => ⟨true, true, .no, false, true, true⟩
  | .vintShl _ _ _ _ => ⟨true, true, .no, false, true, true⟩
  | .vintShr _ _ _ _ => ⟨true, true, .no, false, true, true⟩
  | .vintSra _ _ _ _ => ⟨true, true, .no, false, true, true⟩
  | .vintMinS _ _ _ _ => ⟨true, true, .no, false, true, true⟩
  | .vintMaxS _ _ _ _ => ⟨true, true, .no, false, true, true⟩
  | .vintMinU _ _ _ _ => ⟨true, true, .no, false, true, true⟩
  | .vintMaxU _ _ _ _ => ⟨true, true, .no, false, true, true⟩
  | .vintAbs _ _ _ => ⟨true, true, .no, false, true, false⟩
  | .vintClz _ _ _ => ⟨true, true, .no, false, true, false⟩
  | .vintPopc _ _ _ => ⟨true, true, .no, false, true, false⟩
  | .vintBrev _ _ _ => ⟨true, true, .no, false, true, false⟩
  | .vintsAdd _ _ _ _ => ⟨true, true, .no, false, true, false⟩
  | .vintsSub _ _ _ _ => ⟨true, true, .no, false, true, false⟩
  | .vintsMullo _ _ _ _ => ⟨true, true, .no, false, true, false⟩
  | .vintsMulhiS _ _ _ _ => ⟨true, true, .no, false, true, false⟩
  | .vintsMulhiU _ _ _ _ => ⟨true, true, .no, false, true, false⟩
  | .vintsAnd _ _ _ _ => ⟨true, true, .no, false, true, false⟩
  | .vintsOr _ _ _ _ => ⟨true, true, .no, false, true, false⟩
  | .vintsXor _ _ _ _ => ⟨true, true, .no, false, true, false⟩
  | .vintsAndn _ _ _ _ => ⟨true, true, .no, false, true, false⟩
  | .vintsShl _ _ _ _ => ⟨true, true, .no, false, true, false⟩
  | .vintsShr _ _ _ _ => ⟨true, true, .no, false, true, false⟩
  | .vintsSra _ _ _ _ => ⟨true, true, .no, false, true, false⟩
  | .vintsMinS _ _ _ _ => ⟨true, true, .no, false, true, false⟩
  | .vintsMaxS _ _ _ _ => ⟨true, true, .no, false, true, false⟩
  | .vintsMinU _ _ _ _ => ⟨true, true, .no, false, true, false⟩
  | .vintsMaxU _ _ _ _ => ⟨true, true, .no, false, true, false⟩
  | .vintiAddi _ _ _ _ _ => ⟨true, true, .no, false, true, false⟩
  | .vintiAndi _ _ _ _ _ => ⟨true, true, .no, false, true, false⟩
  | .vintiOri _ _ _ _ _ => ⟨true, true, .no, false, true, false⟩
  | .vintiXori _ _ _ _ _ => ⟨true, true, .no, false, true, false⟩
  | .vintiShli _ _ _ _ _ => ⟨true, true, .no, false, true, false⟩
  | .vintiShri _ _ _ _ _ => ⟨true, true, .no, false, true, false⟩
  | .vintiSrai _ _ _ _ _ => ⟨true, true, .no, false, true, false⟩
  | .vintiMuli _ _ _ _ _ => ⟨true, true, .no, false, true, false⟩
  | .vcmpEqS32 _ _ _ _ => ⟨true, true, .no, false, true, true⟩
  | .vcmpNeS32 _ _ _ _ => ⟨true, true, .no, false, true, true⟩
  | .vcmpLtS32 _ _ _ _ => ⟨true, true, .no, false, true, true⟩
  | .vcmpLeS32 _ _ _ _ => ⟨true, true, .no, false, true, true⟩
  | .vcmpGtS32 _ _ _ _ => ⟨true, true, .no, false, true, true⟩
  | .vcmpGeS32 _ _ _ _ => ⟨true, true, .no, false, true, true⟩
  | .vcmpEqU32 _ _ _ _ => ⟨true, true, .no, false, true, true⟩
  | .vcmpNeU32 _ _ _ _ => ⟨true, true, .no, false, true, true⟩
  | .vcmpLtU32 _ _ _ _ => ⟨true, true, .no, false, true, true⟩
  | .vcmpLeU32 _ _ _ _ => ⟨true, true, .no, false, true, true⟩
  | .vcmpGtU32 _ _ _ _ => ⟨true, true, .no, false, true, true⟩
  | .vcmpGeU32 _ _ _ _ => ⟨true, true, .no, false, true, true⟩
  | .vcmpEqF32 _ _ _ _ => ⟨true, true, .no, false, true, true⟩
  | .vcmpNeF32 _ _ _ _ => ⟨true, true, .no, false, true, true⟩
  | .vcmpLtF32 _ _ _ _ => ⟨true, true, .no, false, true, true⟩
  | .vcmpLeF32 _ _ _ _ => ⟨true, true, .no, false, true, true⟩
  | .vcmpGtF32 _ _ _ _ => ⟨true, true, .no, false, true, true⟩
  | .vcmpGeF32 _ _ _ _ => ⟨true, true, .no, false, true, true⟩
  | .vcmpUnord _ _ _ _ => ⟨true, true, .no, false, true, true⟩
  | .rcp _ _ _ => ⟨true, true, .std, false, true, false⟩
  | .rsq _ _ _ => ⟨true, true, .std, false, true, false⟩
  | .sqrt _ _ _ => ⟨true, true, .std, false, true, false⟩
  | .ex2 _ _ _ => ⟨true, true, .std, false, true, false⟩
  | .lg2 _ _ _ => ⟨true, true, .std, false, true, false⟩
  | .sin _ _ _ => ⟨true, true, .std, false, true, false⟩
  | .cos _ _ _ => ⟨true, true, .std, false, true, false⟩
  | .tanh _ _ _ => ⟨true, true, .std, false, true, false⟩
  | .vcvtF32S32 _ _ _ => ⟨true, true, .rna, false, true, false⟩
  | .vcvtF32U32 _ _ _ => ⟨true, true, .rna, false, true, false⟩
  | .vcvtS32F32 _ _ _ => ⟨true, true, .rna, false, true, false⟩
  | .vcvtU32F32 _ _ _ => ⟨true, true, .rna, false, true, false⟩
  | .vcvtBf16F32 _ _ _ _ => ⟨true, true, .rna, false, true, false⟩
  | .vcvtF16F32 _ _ _ _ => ⟨true, true, .rna, false, true, false⟩
  | .vcvtF32Bf16 _ _ _ _ => ⟨true, true, .rna, false, true, false⟩
  | .vcvtF32F16 _ _ _ _ => ⟨true, true, .rna, false, true, false⟩
  | .vcvtSxF32 _ _ _ => ⟨true, true, .rna, false, true, false⟩
  | .vcvtF32Sx _ _ _ => ⟨true, true, .rna, false, false, false⟩
  | .vredFadd _ _ _ => ⟨true, false, .std, false, true, false⟩
  | .vredFmin _ _ _ => ⟨true, false, .no, false, true, false⟩
  | .vredFmax _ _ _ => ⟨true, false, .no, false, true, false⟩
  | .vredIadd _ _ _ => ⟨true, false, .no, false, true, false⟩
  | .vredIminS _ _ _ => ⟨true, false, .no, false, true, false⟩
  | .vredImaxS _ _ _ => ⟨true, false, .no, false, true, false⟩
  | .vscanFadd _ _ _ _ => ⟨true, true, .std, false, true, false⟩
  | .vscanIadd _ _ _ _ => ⟨true, true, .no, false, true, false⟩
  | .vcompact _ _ _ _ => ⟨true, false, .no, false, true, false⟩
  | .vexpand _ _ _ => ⟨true, true, .no, false, true, false⟩
  | .vsel _ _ _ _ => ⟨true, false, .no, false, true, true⟩
  | .vperm _ _ _ _ => ⟨true, true, .no, false, true, true⟩
  | .kand _ _ _ _ => ⟨true, true, .no, false, false, false⟩
  | .kor _ _ _ _ => ⟨true, true, .no, false, false, false⟩
  | .kxor _ _ _ _ => ⟨true, true, .no, false, false, false⟩
  | .kandn _ _ _ _ => ⟨true, true, .no, false, false, false⟩
  | .knot _ _ _ => ⟨true, true, .no, false, false, false⟩
  | .kmov _ _ _ => ⟨true, true, .no, false, false, false⟩
  | .k2s _ _ _ _ => ⟨false, false, .no, false, false, false⟩
  | .s2k _ _ _ _ => ⟨true, true, .no, false, false, false⟩
  | .kpopc _ _ _ => ⟨true, false, .no, false, false, false⟩
  | .kfirst _ _ _ => ⟨true, false, .no, false, false, false⟩
  | .vmov _ _ _ => ⟨true, true, .no, false, true, false⟩
  | .vsplat _ _ _ => ⟨true, true, .no, false, false, false⟩
  | .vext _ _ _ _ => ⟨false, false, .no, false, true, false⟩
  | .vins _ _ _ _ => ⟨true, false, .no, false, false, false⟩
  | .vlaneid _ _ => ⟨true, true, .no, false, false, false⟩
  | .viota _ _ => ⟨true, true, .no, false, false, false⟩
  | .tfeed _ _ _ _ _ _ => ⟨true, false, .std, false, true, false⟩
  | .tdrain _ _ _ _ => ⟨true, true, .no, false, false, false⟩
  | _ => ⟨false, false, .no, false, false, false⟩

/-- A scalar register number that is a queue port, qp0 to qp7 (R105). -/
def isPort (r : SReg) : Bool := decide (48 ≤ r.toNat ∧ r.toNat ≤ 55)

/-- Check 1 of R93 on the fields whose reserved values their types do not already exclude: join10 = 0 (R96), a QOP port
field outside 48 to 55 (R234), an ACCREL beyond a127 (R185), an RSET that reads its state from a queue port (R239). -/
def Instr.fieldsOk : Instr → Bool
  | .vbr _ _ j => j != 0#10
  | .vbrN _ _ j => j != 0#10
  | .qbind p _ => isPort p
  | .qtry _ p => isPort p
  | .qstat _ p => isPort p
  | .accrel n c => decide (n.toNat + c.toNat ≤ 127)
  | .rset _ _ b => !isPort b
  | _ => true

/-- Whether an instruction has an encoding and passes the checks of R93 that its bits alone decide. -/
def Instr.wf : Instr → Bool
  | .vaddF32Compact d b => !(d == 0#6 && b == 0#5)
  | .nodeL _ _ b _ => b != 0#6
  | .stackTrap => false
  | .reconvergence => false
  | .loadComplete _ _ => false
  | .l2Fill _ _ => false
  | .translate _ => false
  | .walkComplete _ => false
  | .fetchMiss .. => false
  | .fetchFill _ _ => false
  | .dbell .. => false
  | .launchArrival _ _ => false
  | .eligibilityCheck => false
  | .graphActivate _ => false
  | .placementDecision _ => false
  | .discardComplete _ => false
  | .graceExpiry _ => false
  | .suspendedRestore _ => false
  | .nodeFlush _ _ => false
  | .windowEvaluation _ => false
  | .keepingEnd _ => false
  | .matrixAdmit _ => false
  | .passEnd _ _ => false
  | .mmaComplete _ _ _ => false
  | .sequencerEnqueue _ => false
  | .engineComplete _ => false
  | .nodeFire _ _ => false
  | .nodeComplete _ _ => false
  | .collStep _ => false
  | .collAbort _ _ => false
  | .mergeCommit _ => false
  | .stkcfgWrite _ _ => false
  | .chrycfgWrite _ _ => false
  | .accownerWrite _ _ => false
  | .accliveWrite _ _ _ => false
  | .preempt _ _ _ _ => false
  | .savereg _ _ _ _ _ => false
  | .vienable _ _ _ _ => false
  | .stop _ _ _ => false
  | .replay _ _ _ => false
  | .setgrace _ _ _ => false
  | .vminread _ _ _ _ _ => false
  | .viwrite _ _ _ _ => false
  | .viread _ _ _ _ => false
  | .reservedCommand _ _ _ => false
  | .sessionOpen _ _ => false
  | .purge _ _ => false
  | .resume _ _ => false
  | .fotset _ _ => false
  | .sample _ => false
  | .limitDrain _ _ => false
  | .tableDrain _ => false
  | .dataFlit _ _ => false
  | .ackFlit _ _ => false
  | .nakFlit _ _ => false
  | .idleFlit _ _ => false
  | .write _ _ _ _ _ _ => false
  | .caddPacket _ _ _ _ _ => false
  | .csetPacket _ _ _ _ _ => false
  | .cmax _ _ _ _ _ => false
  | .ack _ _ _ _ => false
  | .undeliv _ _ _ _ _ _ => false
  | .linkdown _ _ _ _ _ _ => false
  | .rtwrite _ _ _ _ _ => false
  | .rtread _ _ _ _ _ => false
  | .rtreada _ _ _ _ _ => false
  | .keywrite _ _ _ _ _ => false
  | .keyread _ _ _ _ _ => false
  | .commit _ _ _ _ _ => false
  | .subwrite _ _ _ _ _ => false
  | .subread _ _ _ _ _ => false
  | .portdown _ _ _ _ _ => false
  | .portDown _ _ => false
  | .undeliverableTimeout _ => false
  | .orderedHoldExpiry _ _ => false
  | .undervoltage _ _ _ => false
  | .regulatorFault _ _ _ => false
  | .deviceReset => false
  | .verify => false
  | .memtrain _ => false
  | .lanemap _ => false
  | .firmwareUpdate _ => false
  | .partitionMapWrite _ => false
  | .illegalSequence _ _ => false
  | .clk => false
  | .storePerformed _ _ => false
  | .ringHeadAdvance _ _ => false
  | .bandwidthWindow _ => false
  | .voltageMinimum _ _ _ => false
  | i => i.fieldsOk && (match i.pfx with | some p => (prefixUse i).allows p | none => true)

end Sys2Proof
end

