-- ==== Sys2Proof/Decode.lean ====
section
/-!
DEFINITION. Decoding and encoding (spec/06_encoding.md R91 to R103). `decode` reads one sequence from the bytes at its
address, or rejects it by the name of the check of R93 that it fails; `encode` writes the bytes of a sequence. The checks
4 and 5 of R93 depend on the issuing group and core and are made at issue.
-/

namespace Sys2Proof

/-- Why bytes are not a sequence (R93, R360). -/
inductive Reject where
  /-- The bytes end before the sequence does. -/
  | short
  /-- Subcode 1: a reserved major opcode. -/
  | reservedMajor (w : BitVec 32)
  /-- Subcode 2: a reserved member, or a reserved value of a field that the member uses. -/
  | reservedMember (w : BitVec 32)
  /-- A parcel that names no compact operation (none exists: the sixteen codes are all given). -/
  | parcelMember (h : BitVec 16)
  /-- Subcode 3: a field or a bit that the member does not use is not zero. -/
  | unusedField (w : BitVec 32)
  /-- Subcode 6: the sequence breaks R92; the first word, and the instruction behind the prefix if it is one. -/
  | badSequence (first : BitVec 32) (inner : Option Instr)
  /-- Subcode 7: the prefix holds what R99 does not allow; the VPFX word and the instruction. -/
  | badPrefix (pfx : BitVec 32) (inner : Instr)
  /-- Subcode 8: the parcel 0x0000. -/
  | zeroParcel
deriving DecidableEq, Repr

/-- The ILLEGAL subcode of a rejection (R360). -/
def Reject.sub : Reject → BitVec 8
  | .short => 0
  | .reservedMajor _ => 1
  | .reservedMember _ => 2
  | .parcelMember _ => 2
  | .unusedField _ => 3
  | .badSequence _ _ => 6
  | .badPrefix _ _ => 7
  | .zeroParcel => 8

/-- The value field of TVAL for a rejection (R360). -/
def Reject.value : Reject → BitVec 48
  | .short => 0
  | .reservedMajor w => w.zeroExtend 48
  | .reservedMember w => w.zeroExtend 48
  | .parcelMember h => h.zeroExtend 48
  | .unusedField w => w.zeroExtend 48
  | .badSequence w _ => w.zeroExtend 48
  | .badPrefix w _ => w.zeroExtend 48
  | .zeroParcel => 0

/-- The instruction behind a rejected prefix or extension: checks 4 and 5 apply to it and come first (R360). -/
def Reject.inner : Reject → Option Instr
  | .badSequence _ i => i
  | .badPrefix _ i => some i
  | _ => none

noncomputable section

/-- Check 1 before check 3 (R360): the member with its operands, or none when a field holds a reserved value; then every
bit outside its fields must be zero. -/
def row (w unused : BitVec 32) (i : Option Instr) : Except Reject Instr :=
  match i with
  | none => .error (.reservedMember w)
  | some i => if w &&& unused = 0#32 then .ok i else .error (.unusedField w)

/-- A six-bit field that holds 0 or 1. -/
def bit6 (f : BitVec 6) : Option (BitVec 1) :=
  if f = 0#6 then some 0#1 else if f = 1#6 then some 1#1 else none
/-- A six-bit field that holds 0 to 2. -/
def fin3 (f : BitVec 6) : Option (Fin 3) :=
  if h : f.toNat < 3 then some ⟨f.toNat, h⟩ else none
/-- A six-bit field that holds 0 to 4. -/
def fin5 (f : BitVec 6) : Option (Fin 5) :=
  if h : f.toNat < 5 then some ⟨f.toNat, h⟩ else none

/-- The code of a floating type (R102). -/
def FType.enc : FType → BitVec 2
  | .f32 => 0
  | .bf16x2 => 1
  | .f16x2 => 2

/-- The floating type (R102) a code names; reserved codes name none. -/
def FType.dec (c : BitVec 2) : Option FType :=
  match c.toNat with
  | 0 => some .f32
  | 1 => some .bf16x2
  | 2 => some .f16x2
  | _ => none

/-- The code of a vector access size (R101). -/
def MemSize.enc : MemSize → BitVec 3
  | .b => 0
  | .h => 1
  | .w => 2
  | .d => 3
  | .q => 4
  | .n => 5

/-- The vector access size (R101) a code names; reserved codes name none. -/
def MemSize.dec (c : BitVec 3) : Option MemSize :=
  match c.toNat with
  | 0 => some .b
  | 1 => some .h
  | 2 => some .w
  | 3 => some .d
  | 4 => some .q
  | 5 => some .n
  | _ => none

/-- The code of a scalar access size (R162). -/
def SMemSize.enc : SMemSize → BitVec 3
  | .b => 0
  | .h => 1
  | .w => 2
  | .d => 3
  | .q => 4

/-- The scalar access size (R162) a code names; reserved codes name none. -/
def SMemSize.dec (c : BitVec 3) : Option SMemSize :=
  match c.toNat with
  | 0 => some .b
  | 1 => some .h
  | 2 => some .w
  | 3 => some .d
  | 4 => some .q
  | _ => none

/-- The code of a feed format (R176). -/
def FeedFmt.enc : FeedFmt → BitVec 3
  | .bf16 => 0
  | .fp16 => 1
  | .sx2 => 2
  | .sx4 => 3
  | .sx7 => 4

/-- The feed format (R176) a code names; reserved codes name none. -/
def FeedFmt.dec (c : BitVec 3) : Option FeedFmt :=
  match c.toNat with
  | 0 => some .bf16
  | 1 => some .fp16
  | 2 => some .sx2
  | 3 => some .sx4
  | 4 => some .sx7
  | _ => none

/-- The code of a scope (R110). -/
def ScopeCode.enc : ScopeCode → BitVec 3
  | .group => 0
  | .workgroup => 1
  | .die => 2
  | .device => 3
  | .system => 4

/-- The scope (R110) a code names; reserved codes name none. -/
def ScopeCode.dec (c : BitVec 3) : Option ScopeCode :=
  match c.toNat with
  | 0 => some .group
  | 1 => some .workgroup
  | 2 => some .die
  | 3 => some .device
  | 4 => some .system
  | _ => none

/-- The code of a copy size (R196). -/
def CpSize.enc : CpSize → BitVec 2
  | .w => 0
  | .d => 1
  | .q => 2

/-- The copy size (R196) a code names; reserved codes name none. -/
def CpSize.dec (c : BitVec 2) : Option CpSize :=
  match c.toNat with
  | 0 => some .w
  | 1 => some .d
  | 2 => some .q
  | _ => none

/-- Major 0x01, SALU (R102). -/
def decSalu (w : BitVec 32) : Except Reject Instr :=
  match (w.extractLsb' 25 7).toNat with
  | 0 => row w 0x00000000#32 (some (Instr.add (w.extractLsb' 7 6) (w.extractLsb' 13 6) (w.extractLsb' 19 6)))
  | 1 => row w 0x00000000#32 (some (Instr.sub (w.extractLsb' 7 6) (w.extractLsb' 13 6) (w.extractLsb' 19 6)))
  | 2 => row w 0x00000000#32 (some (Instr.and (w.extractLsb' 7 6) (w.extractLsb' 13 6) (w.extractLsb' 19 6)))
  | 3 => row w 0x00000000#32 (some (Instr.or (w.extractLsb' 7 6) (w.extractLsb' 13 6) (w.extractLsb' 19 6)))
  | 4 => row w 0x00000000#32 (some (Instr.xor (w.extractLsb' 7 6) (w.extractLsb' 13 6) (w.extractLsb' 19 6)))
  | 5 => row w 0x00000000#32 (some (Instr.shl (w.extractLsb' 7 6) (w.extractLsb' 13 6) (w.extractLsb' 19 6)))
  | 6 => row w 0x00000000#32 (some (Instr.shr (w.extractLsb' 7 6) (w.extractLsb' 13 6) (w.extractLsb' 19 6)))
  | 7 => row w 0x00000000#32 (some (Instr.sra (w.extractLsb' 7 6) (w.extractLsb' 13 6) (w.extractLsb' 19 6)))
  | 8 => row w 0x00000000#32 (some (Instr.min (w.extractLsb' 7 6) (w.extractLsb' 13 6) (w.extractLsb' 19 6)))
  | 9 => row w 0x00000000#32 (some (Instr.max (w.extractLsb' 7 6) (w.extractLsb' 13 6) (w.extractLsb' 19 6)))
  | 10 => row w 0x00000000#32 (some (Instr.minu (w.extractLsb' 7 6) (w.extractLsb' 13 6) (w.extractLsb' 19 6)))
  | 11 => row w 0x00000000#32 (some (Instr.maxu (w.extractLsb' 7 6) (w.extractLsb' 13 6) (w.extractLsb' 19 6)))
  | 12 => row w 0x00000000#32 (some (Instr.slt (w.extractLsb' 7 6) (w.extractLsb' 13 6) (w.extractLsb' 19 6)))
  | 13 => row w 0x00000000#32 (some (Instr.sltu (w.extractLsb' 7 6) (w.extractLsb' 13 6) (w.extractLsb' 19 6)))
  | 14 => row w 0x00000000#32 (some (Instr.seq (w.extractLsb' 7 6) (w.extractLsb' 13 6) (w.extractLsb' 19 6)))
  | 15 => row w 0x00000000#32 (some (Instr.sne (w.extractLsb' 7 6) (w.extractLsb' 13 6) (w.extractLsb' 19 6)))
  | 16 => row w 0x00000000#32 (some (Instr.mul (w.extractLsb' 7 6) (w.extractLsb' 13 6) (w.extractLsb' 19 6)))
  | 17 => row w 0x00000000#32 (some (Instr.mulh (w.extractLsb' 7 6) (w.extractLsb' 13 6) (w.extractLsb' 19 6)))
  | 18 => row w 0x00000000#32 (some (Instr.mulhu (w.extractLsb' 7 6) (w.extractLsb' 13 6) (w.extractLsb' 19 6)))
  | 19 => row w 0x00000000#32 (some (Instr.div (w.extractLsb' 7 6) (w.extractLsb' 13 6) (w.extractLsb' 19 6)))
  | 20 => row w 0x00000000#32 (some (Instr.divu (w.extractLsb' 7 6) (w.extractLsb' 13 6) (w.extractLsb' 19 6)))
  | 21 => row w 0x00000000#32 (some (Instr.rem (w.extractLsb' 7 6) (w.extractLsb' 13 6) (w.extractLsb' 19 6)))
  | 22 => row w 0x00000000#32 (some (Instr.remu (w.extractLsb' 7 6) (w.extractLsb' 13 6) (w.extractLsb' 19 6)))
  | 23 => row w 0x01F80000#32 (some (Instr.clz (w.extractLsb' 7 6) (w.extractLsb' 13 6)))
  | 24 => row w 0x01F80000#32 (some (Instr.popc (w.extractLsb' 7 6) (w.extractLsb' 13 6)))
  | _ => .error (.reservedMember w)

/-- Major 0x02, SALUI (R102). -/
def decSalui (w : BitVec 32) (x : Option (BitVec 25)) : Except Reject Instr :=
  match (w.extractLsb' 19 3).toNat with
  | 0 => row w 0x00000000#32 (some (Instr.addi (w.extractLsb' 7 6) (w.extractLsb' 13 6) (w.extractLsb' 22 10) x))
  | 1 => row w 0x00000000#32 (some (Instr.andi (w.extractLsb' 7 6) (w.extractLsb' 13 6) (w.extractLsb' 22 10) x))
  | 2 => row w 0x00000000#32 (some (Instr.ori (w.extractLsb' 7 6) (w.extractLsb' 13 6) (w.extractLsb' 22 10) x))
  | 3 => row w 0x00000000#32 (some (Instr.xori (w.extractLsb' 7 6) (w.extractLsb' 13 6) (w.extractLsb' 22 10) x))
  | 4 => row w 0x00000000#32 (some (Instr.shli (w.extractLsb' 7 6) (w.extractLsb' 13 6) (w.extractLsb' 22 10) x))
  | 5 => row w 0x00000000#32 (some (Instr.shri (w.extractLsb' 7 6) (w.extractLsb' 13 6) (w.extractLsb' 22 10) x))
  | 6 => row w 0x00000000#32 (some (Instr.srai (w.extractLsb' 7 6) (w.extractLsb' 13 6) (w.extractLsb' 22 10) x))
  | 7 => row w 0x00000000#32 (some (Instr.slti (w.extractLsb' 7 6) (w.extractLsb' 13 6) (w.extractLsb' 22 10) x))
  | _ => .error (.reservedMember w)

/-- Major 0x03, SLI (R102). -/
def decSli (w : BitVec 32) (x : Option (BitVec 25)) : Except Reject Instr :=
  row w 0x00000000#32 (some (Instr.sli (w.extractLsb' 7 6) (w.extractLsb' 13 19) x))

/-- Major 0x04, BR (R102). -/
def decBr (w : BitVec 32) (x : Option (BitVec 25)) : Except Reject Instr :=
  match (w.extractLsb' 13 3).toNat with
  | 0 => row w 0x00000000#32 (some (Instr.brEqz (w.extractLsb' 7 6) (w.extractLsb' 16 16) x))
  | 1 => row w 0x00000000#32 (some (Instr.brNez (w.extractLsb' 7 6) (w.extractLsb' 16 16) x))
  | 2 => row w 0x00000000#32 (some (Instr.brLtz (w.extractLsb' 7 6) (w.extractLsb' 16 16) x))
  | 3 => row w 0x00000000#32 (some (Instr.brGez (w.extractLsb' 7 6) (w.extractLsb' 16 16) x))
  | 4 => row w 0x00000000#32 (some (Instr.brGtz (w.extractLsb' 7 6) (w.extractLsb' 16 16) x))
  | 5 => row w 0x00000000#32 (some (Instr.brLez (w.extractLsb' 7 6) (w.extractLsb' 16 16) x))
  | _ => .error (.reservedMember w)

/-- Major 0x05, JMP (R102). -/
def decJmp (w : BitVec 32) (x : Option (BitVec 25)) : Except Reject Instr :=
  row w 0x00000000#32 (some (Instr.jmp (w.extractLsb' 7 25) x))

/-- Major 0x06, CALL (R102). -/
def decCall (w : BitVec 32) (x : Option (BitVec 25)) : Except Reject Instr :=
  row w 0x00000000#32 (some (Instr.call (w.extractLsb' 7 25) x))

/-- Major 0x07, JR (R102). -/
def decJr (w : BitVec 32) : Except Reject Instr :=
  match (w.extractLsb' 25 7).toNat with
  | 0 => row w 0x01F81F80#32 (some (Instr.jr (w.extractLsb' 13 6)))
  | 1 => row w 0x01F81F80#32 (some (Instr.callr (w.extractLsb' 13 6)))
  | 2 => row w 0x01FFFF80#32 (some .ret)
  | _ => .error (.reservedMember w)

/-- Major 0x08, VBR (R102). -/
def decVbr (w : BitVec 32) : Except Reject Instr :=
  match (w.extractLsb' 10 1).toNat with
  | 0 => row w 0x00000000#32 (some (Instr.vbr (w.extractLsb' 7 3) (w.extractLsb' 21 11) (w.extractLsb' 11 10)))
  | 1 => row w 0x00000000#32 (some (Instr.vbrN (w.extractLsb' 7 3) (w.extractLsb' 21 11) (w.extractLsb' 11 10)))
  | _ => .error (.reservedMember w)

/-- Major 0x09, KBR (R102). -/
def decKbr (w : BitVec 32) (x : Option (BitVec 25)) : Except Reject Instr :=
  match (w.extractLsb' 10 2).toNat with
  | 0 => row w 0x00000000#32 (some (Instr.kbrAny (w.extractLsb' 7 3) (w.extractLsb' 12 20) x))
  | 1 => row w 0x00000000#32 (some (Instr.kbrAll (w.extractLsb' 7 3) (w.extractLsb' 12 20) x))
  | 2 => row w 0x00000000#32 (some (Instr.kbrNone (w.extractLsb' 7 3) (w.extractLsb' 12 20) x))
  | _ => .error (.reservedMember w)

/-- Major 0x0A, SYS (R102). -/
def decSys (w : BitVec 32) : Except Reject Instr :=
  match (w.extractLsb' 25 7).toNat with
  | 0 => row w 0x01FFFF80#32 (some .nop)
  | 1 => row w 0x00000000#32 (some (Instr.srd (w.extractLsb' 7 6) (w.extractLsb' 19 6 ++ w.extractLsb' 13 6)))
  | 2 => row w 0x00000000#32 (some (Instr.swr (w.extractLsb' 19 6 ++ w.extractLsb' 7 6) (w.extractLsb' 13 6)))
  | 3 => row w 0x01F81F80#32 (some (Instr.trap (w.extractLsb' 13 6)))
  | 4 => row w 0x01FFFF80#32 (some .eret)
  | 5 => row w 0x01FFFF80#32 (some .bkpt)
  | 6 => row w 0x01FFFF80#32 (some .yield)
  | 7 => row w 0x01FFFF80#32 (some .exit)
  | 8 => row w 0x01F80000#32 (some (Instr.setfmt (w.extractLsb' 7 6) (w.extractLsb' 13 6)))
  | 9 => row w 0x00001F80#32 ((bit6 (w.extractLsb' 19 6)).map fun h => Instr.scfg (w.extractLsb' 13 6) h)
  | 10 => row w 0x01F81F80#32 (some (Instr.waitcyc (w.extractLsb' 13 6)))
  | _ => .error (.reservedMember w)

/-- Major 0x0B, SYNC (R102). -/
def decSync (w : BitVec 32) : Except Reject Instr :=
  match (w.extractLsb' 25 3).toNat with
  | 0 => row w 0xF1801F80#32 (some (Instr.barInit (w.extractLsb' 19 4) (w.extractLsb' 13 6)))
  | 1 => row w 0xE187E000#32 (some (Instr.barArrive (w.extractLsb' 7 6) (w.extractLsb' 19 4) (w.extractLsb' 28 1 == 1#1)))
  | 2 => row w 0xF1800000#32 (some (Instr.barWait (w.extractLsb' 7 6) (w.extractLsb' 19 4) (w.extractLsb' 13 6)))
  | 3 => row w 0xE187E000#32 (some (Instr.barAw (w.extractLsb' 7 6) (w.extractLsb' 19 4) (w.extractLsb' 28 1 == 1#1)))
  | 4 => row w 0xF1800000#32 (some (Instr.barTest (w.extractLsb' 7 6) (w.extractLsb' 19 4) (w.extractLsb' 13 6)))
  | 5 => row w 0xD1801F80#32 (some (Instr.barExpect (w.extractLsb' 19 4) (w.extractLsb' 13 6) (w.extractLsb' 29 1 == 1#1)))
  | 6 => row w 0xF1F81F80#32 (some (Instr.fenceX (w.extractLsb' 13 6)))
  | 7 => row w 0x81F81F80#32 ((ScopeCode.dec (w.extractLsb' 28 3)).map fun sc => Instr.fenceS (w.extractLsb' 13 6) sc)
  | _ => .error (.reservedMember w)

/-- Major 0x0C, QOP (R102). -/
def decQop (w : BitVec 32) : Except Reject Instr :=
  match (w.extractLsb' 25 7).toNat with
  | 0 => row w 0x01F80000#32 (some (Instr.qbind (w.extractLsb' 7 6) (w.extractLsb' 13 6)))
  | 1 => row w 0x01F80000#32 (some (Instr.qtry (w.extractLsb' 7 6) (w.extractLsb' 13 6)))
  | 2 => row w 0x01F80000#32 (some (Instr.qstat (w.extractLsb' 7 6) (w.extractLsb' 13 6)))
  | _ => .error (.reservedMember w)

/-- Major 0x0D, REGION (R102). -/
def decRegion (w : BitVec 32) : Except Reject Instr :=
  match (w.extractLsb' 25 7).toNat with
  | 0 => row w 0x01FFFF80#32 (some .region)
  | 1 => row w 0x01FFFF80#32 (some .rclose)
  | _ => .error (.reservedMember w)

/-- Major 0x10, VFP (R102). -/
def decVfp (w : BitVec 32) (p : Option Prefix) : Except Reject Instr :=
  match (w.extractLsb' 27 5).toNat with
  | 0 => row w 0x00000000#32 ((FType.dec (w.extractLsb' 25 2)).map fun t => Instr.vfpFadd t (w.extractLsb' 7 6) (w.extractLsb' 13 6) (w.extractLsb' 19 6) p)
  | 1 => row w 0x00000000#32 ((FType.dec (w.extractLsb' 25 2)).map fun t => Instr.vfpFsub t (w.extractLsb' 7 6) (w.extractLsb' 13 6) (w.extractLsb' 19 6) p)
  | 2 => row w 0x00000000#32 ((FType.dec (w.extractLsb' 25 2)).map fun t => Instr.vfpFmul t (w.extractLsb' 7 6) (w.extractLsb' 13 6) (w.extractLsb' 19 6) p)
  | 3 => row w 0x00000000#32 ((FType.dec (w.extractLsb' 25 2)).map fun t => Instr.vfpFmin t (w.extractLsb' 7 6) (w.extractLsb' 13 6) (w.extractLsb' 19 6) p)
  | 4 => row w 0x00000000#32 ((FType.dec (w.extractLsb' 25 2)).map fun t => Instr.vfpFmax t (w.extractLsb' 7 6) (w.extractLsb' 13 6) (w.extractLsb' 19 6) p)
  | 5 => row w 0x01F80000#32 ((FType.dec (w.extractLsb' 25 2)).map fun t => Instr.vfpFabs t (w.extractLsb' 7 6) (w.extractLsb' 13 6) p)
  | 6 => row w 0x01F80000#32 ((FType.dec (w.extractLsb' 25 2)).map fun t => Instr.vfpFneg t (w.extractLsb' 7 6) (w.extractLsb' 13 6) p)
  | 7 => row w 0x00000000#32 ((FType.dec (w.extractLsb' 25 2)).map fun t => Instr.vfpFcpysgn t (w.extractLsb' 7 6) (w.extractLsb' 13 6) (w.extractLsb' 19 6) p)
  | _ => .error (.reservedMember w)

/-- Major 0x11, VFMA (R102). -/
def decVfma (w : BitVec 32) (p : Option Prefix) : Except Reject Instr :=
  match (w.extractLsb' 27 5).toNat with
  | 0 => row w 0x00000000#32 ((FType.dec (w.extractLsb' 25 2)).map fun t => Instr.fma t (w.extractLsb' 7 6) (w.extractLsb' 13 6) (w.extractLsb' 19 6) p)
  | 1 => row w 0x00000000#32 ((FType.dec (w.extractLsb' 25 2)).map fun t => Instr.fms t (w.extractLsb' 7 6) (w.extractLsb' 13 6) (w.extractLsb' 19 6) p)
  | 2 => row w 0x00000000#32 ((FType.dec (w.extractLsb' 25 2)).map fun t => Instr.nfma t (w.extractLsb' 7 6) (w.extractLsb' 13 6) (w.extractLsb' 19 6) p)
  | 3 => row w 0x00000000#32 ((FType.dec (w.extractLsb' 25 2)).map fun t => Instr.nfms t (w.extractLsb' 7 6) (w.extractLsb' 13 6) (w.extractLsb' 19 6) p)
  | _ => .error (.reservedMember w)

/-- Major 0x12, VFPS (R102). -/
def decVfps (w : BitVec 32) (p : Option Prefix) : Except Reject Instr :=
  match (w.extractLsb' 27 5).toNat with
  | 0 => row w 0x00000000#32 ((FType.dec (w.extractLsb' 25 2)).map fun t => Instr.vfpsFadd t (w.extractLsb' 7 6) (w.extractLsb' 13 6) (w.extractLsb' 19 6) p)
  | 1 => row w 0x00000000#32 ((FType.dec (w.extractLsb' 25 2)).map fun t => Instr.vfpsFsub t (w.extractLsb' 7 6) (w.extractLsb' 13 6) (w.extractLsb' 19 6) p)
  | 2 => row w 0x00000000#32 ((FType.dec (w.extractLsb' 25 2)).map fun t => Instr.vfpsFmul t (w.extractLsb' 7 6) (w.extractLsb' 13 6) (w.extractLsb' 19 6) p)
  | 3 => row w 0x00000000#32 ((FType.dec (w.extractLsb' 25 2)).map fun t => Instr.vfpsFmin t (w.extractLsb' 7 6) (w.extractLsb' 13 6) (w.extractLsb' 19 6) p)
  | 4 => row w 0x00000000#32 ((FType.dec (w.extractLsb' 25 2)).map fun t => Instr.vfpsFmax t (w.extractLsb' 7 6) (w.extractLsb' 13 6) (w.extractLsb' 19 6) p)
  | 7 => row w 0x00000000#32 ((FType.dec (w.extractLsb' 25 2)).map fun t => Instr.vfpsFcpysgn t (w.extractLsb' 7 6) (w.extractLsb' 13 6) (w.extractLsb' 19 6) p)
  | _ => .error (.reservedMember w)

/-- Major 0x13, VINT (R102). -/
def decVint (w : BitVec 32) (p : Option Prefix) : Except Reject Instr :=
  match (w.extractLsb' 25 7).toNat with
  | 0 => row w 0x00000000#32 (some (Instr.vintAdd (w.extractLsb' 7 6) (w.extractLsb' 13 6) (w.extractLsb' 19 6) p))
  | 1 => row w 0x00000000#32 (some (Instr.vintSub (w.extractLsb' 7 6) (w.extractLsb' 13 6) (w.extractLsb' 19 6) p))
  | 2 => row w 0x00000000#32 (some (Instr.vintMullo (w.extractLsb' 7 6) (w.extractLsb' 13 6) (w.extractLsb' 19 6) p))
  | 3 => row w 0x00000000#32 (some (Instr.vintMulhiS (w.extractLsb' 7 6) (w.extractLsb' 13 6) (w.extractLsb' 19 6) p))
  | 4 => row w 0x00000000#32 (some (Instr.vintMulhiU (w.extractLsb' 7 6) (w.extractLsb' 13 6) (w.extractLsb' 19 6) p))
  | 5 => row w 0x00000000#32 (some (Instr.vintAnd (w.extractLsb' 7 6) (w.extractLsb' 13 6) (w.extractLsb' 19 6) p))
  | 6 => row w 0x00000000#32 (some (Instr.vintOr (w.extractLsb' 7 6) (w.extractLsb' 13 6) (w.extractLsb' 19 6) p))
  | 7 => row w 0x00000000#32 (some (Instr.vintXor (w.extractLsb' 7 6) (w.extractLsb' 13 6) (w.extractLsb' 19 6) p))
  | 8 => row w 0x00000000#32 (some (Instr.vintAndn (w.extractLsb' 7 6) (w.extractLsb' 13 6) (w.extractLsb' 19 6) p))
  | 9 => row w 0x00000000#32 (some (Instr.vintShl (w.extractLsb' 7 6) (w.extractLsb' 13 6) (w.extractLsb' 19 6) p))
  | 10 => row w 0x00000000#32 (some (Instr.vintShr (w.extractLsb' 7 6) (w.extractLsb' 13 6) (w.extractLsb' 19 6) p))
  | 11 => row w 0x00000000#32 (some (Instr.vintSra (w.extractLsb' 7 6) (w.extractLsb' 13 6) (w.extractLsb' 19 6) p))
  | 12 => row w 0x00000000#32 (some (Instr.vintMinS (w.extractLsb' 7 6) (w.extractLsb' 13 6) (w.extractLsb' 19 6) p))
  | 13 => row w 0x00000000#32 (some (Instr.vintMaxS (w.extractLsb' 7 6) (w.extractLsb' 13 6) (w.extractLsb' 19 6) p))
  | 14 => row w 0x00000000#32 (some (Instr.vintMinU (w.extractLsb' 7 6) (w.extractLsb' 13 6) (w.extractLsb' 19 6) p))
  | 15 => row w 0x00000000#32 (some (Instr.vintMaxU (w.extractLsb' 7 6) (w.extractLsb' 13 6) (w.extractLsb' 19 6) p))
  | 16 => row w 0x01F80000#32 (some (Instr.vintAbs (w.extractLsb' 7 6) (w.extractLsb' 13 6) p))
  | 17 => row w 0x01F80000#32 (some (Instr.vintClz (w.extractLsb' 7 6) (w.extractLsb' 13 6) p))
  | 18 => row w 0x01F80000#32 (some (Instr.vintPopc (w.extractLsb' 7 6) (w.extractLsb' 13 6) p))
  | 19 => row w 0x01F80000#32 (some (Instr.vintBrev (w.extractLsb' 7 6) (w.extractLsb' 13 6) p))
  | _ => .error (.reservedMember w)

/-- Major 0x14, VINTS (R102). -/
def decVints (w : BitVec 32) (p : Option Prefix) : Except Reject Instr :=
  match (w.extractLsb' 25 7).toNat with
  | 0 => row w 0x00000000#32 (some (Instr.vintsAdd (w.extractLsb' 7 6) (w.extractLsb' 13 6) (w.extractLsb' 19 6) p))
  | 1 => row w 0x00000000#32 (some (Instr.vintsSub (w.extractLsb' 7 6) (w.extractLsb' 13 6) (w.extractLsb' 19 6) p))
  | 2 => row w 0x00000000#32 (some (Instr.vintsMullo (w.extractLsb' 7 6) (w.extractLsb' 13 6) (w.extractLsb' 19 6) p))
  | 3 => row w 0x00000000#32 (some (Instr.vintsMulhiS (w.extractLsb' 7 6) (w.extractLsb' 13 6) (w.extractLsb' 19 6) p))
  | 4 => row w 0x00000000#32 (some (Instr.vintsMulhiU (w.extractLsb' 7 6) (w.extractLsb' 13 6) (w.extractLsb' 19 6) p))
  | 5 => row w 0x00000000#32 (some (Instr.vintsAnd (w.extractLsb' 7 6) (w.extractLsb' 13 6) (w.extractLsb' 19 6) p))
  | 6 => row w 0x00000000#32 (some (Instr.vintsOr (w.extractLsb' 7 6) (w.extractLsb' 13 6) (w.extractLsb' 19 6) p))
  | 7 => row w 0x00000000#32 (some (Instr.vintsXor (w.extractLsb' 7 6) (w.extractLsb' 13 6) (w.extractLsb' 19 6) p))
  | 8 => row w 0x00000000#32 (some (Instr.vintsAndn (w.extractLsb' 7 6) (w.extractLsb' 13 6) (w.extractLsb' 19 6) p))
  | 9 => row w 0x00000000#32 (some (Instr.vintsShl (w.extractLsb' 7 6) (w.extractLsb' 13 6) (w.extractLsb' 19 6) p))
  | 10 => row w 0x00000000#32 (some (Instr.vintsShr (w.extractLsb' 7 6) (w.extractLsb' 13 6) (w.extractLsb' 19 6) p))
  | 11 => row w 0x00000000#32 (some (Instr.vintsSra (w.extractLsb' 7 6) (w.extractLsb' 13 6) (w.extractLsb' 19 6) p))
  | 12 => row w 0x00000000#32 (some (Instr.vintsMinS (w.extractLsb' 7 6) (w.extractLsb' 13 6) (w.extractLsb' 19 6) p))
  | 13 => row w 0x00000000#32 (some (Instr.vintsMaxS (w.extractLsb' 7 6) (w.extractLsb' 13 6) (w.extractLsb' 19 6) p))
  | 14 => row w 0x00000000#32 (some (Instr.vintsMinU (w.extractLsb' 7 6) (w.extractLsb' 13 6) (w.extractLsb' 19 6) p))
  | 15 => row w 0x00000000#32 (some (Instr.vintsMaxU (w.extractLsb' 7 6) (w.extractLsb' 13 6) (w.extractLsb' 19 6) p))
  | _ => .error (.reservedMember w)

/-- Major 0x15, VINTI (R102). -/
def decVinti (w : BitVec 32) (p : Option Prefix) (x : Option (BitVec 25)) : Except Reject Instr :=
  match (w.extractLsb' 19 3).toNat with
  | 0 => row w 0x00000000#32 (some (Instr.vintiAddi (w.extractLsb' 7 6) (w.extractLsb' 13 6) (w.extractLsb' 22 10) p x))
  | 1 => row w 0x00000000#32 (some (Instr.vintiAndi (w.extractLsb' 7 6) (w.extractLsb' 13 6) (w.extractLsb' 22 10) p x))
  | 2 => row w 0x00000000#32 (some (Instr.vintiOri (w.extractLsb' 7 6) (w.extractLsb' 13 6) (w.extractLsb' 22 10) p x))
  | 3 => row w 0x00000000#32 (some (Instr.vintiXori (w.extractLsb' 7 6) (w.extractLsb' 13 6) (w.extractLsb' 22 10) p x))
  | 4 => row w 0x00000000#32 (some (Instr.vintiShli (w.extractLsb' 7 6) (w.extractLsb' 13 6) (w.extractLsb' 22 10) p x))
  | 5 => row w 0x00000000#32 (some (Instr.vintiShri (w.extractLsb' 7 6) (w.extractLsb' 13 6) (w.extractLsb' 22 10) p x))
  | 6 => row w 0x00000000#32 (some (Instr.vintiSrai (w.extractLsb' 7 6) (w.extractLsb' 13 6) (w.extractLsb' 22 10) p x))
  | 7 => row w 0x00000000#32 (some (Instr.vintiMuli (w.extractLsb' 7 6) (w.extractLsb' 13 6) (w.extractLsb' 22 10) p x))
  | _ => .error (.reservedMember w)

/-- Major 0x16, VCMP (R102). -/
def decVcmp (w : BitVec 32) (p : Option Prefix) : Except Reject Instr :=
  match (w.extractLsb' 25 7).toNat with
  | 0 => row w 0x00001C00#32 (some (Instr.vcmpEqS32 (w.extractLsb' 7 3) (w.extractLsb' 13 6) (w.extractLsb' 19 6) p))
  | 1 => row w 0x00001C00#32 (some (Instr.vcmpNeS32 (w.extractLsb' 7 3) (w.extractLsb' 13 6) (w.extractLsb' 19 6) p))
  | 2 => row w 0x00001C00#32 (some (Instr.vcmpLtS32 (w.extractLsb' 7 3) (w.extractLsb' 13 6) (w.extractLsb' 19 6) p))
  | 3 => row w 0x00001C00#32 (some (Instr.vcmpLeS32 (w.extractLsb' 7 3) (w.extractLsb' 13 6) (w.extractLsb' 19 6) p))
  | 4 => row w 0x00001C00#32 (some (Instr.vcmpGtS32 (w.extractLsb' 7 3) (w.extractLsb' 13 6) (w.extractLsb' 19 6) p))
  | 5 => row w 0x00001C00#32 (some (Instr.vcmpGeS32 (w.extractLsb' 7 3) (w.extractLsb' 13 6) (w.extractLsb' 19 6) p))
  | 6 => row w 0x00001C00#32 (some (Instr.vcmpEqU32 (w.extractLsb' 7 3) (w.extractLsb' 13 6) (w.extractLsb' 19 6) p))
  | 7 => row w 0x00001C00#32 (some (Instr.vcmpNeU32 (w.extractLsb' 7 3) (w.extractLsb' 13 6) (w.extractLsb' 19 6) p))
  | 8 => row w 0x00001C00#32 (some (Instr.vcmpLtU32 (w.extractLsb' 7 3) (w.extractLsb' 13 6) (w.extractLsb' 19 6) p))
  | 9 => row w 0x00001C00#32 (some (Instr.vcmpLeU32 (w.extractLsb' 7 3) (w.extractLsb' 13 6) (w.extractLsb' 19 6) p))
  | 10 => row w 0x00001C00#32 (some (Instr.vcmpGtU32 (w.extractLsb' 7 3) (w.extractLsb' 13 6) (w.extractLsb' 19 6) p))
  | 11 => row w 0x00001C00#32 (some (Instr.vcmpGeU32 (w.extractLsb' 7 3) (w.extractLsb' 13 6) (w.extractLsb' 19 6) p))
  | 12 => row w 0x00001C00#32 (some (Instr.vcmpEqF32 (w.extractLsb' 7 3) (w.extractLsb' 13 6) (w.extractLsb' 19 6) p))
  | 13 => row w 0x00001C00#32 (some (Instr.vcmpNeF32 (w.extractLsb' 7 3) (w.extractLsb' 13 6) (w.extractLsb' 19 6) p))
  | 14 => row w 0x00001C00#32 (some (Instr.vcmpLtF32 (w.extractLsb' 7 3) (w.extractLsb' 13 6) (w.extractLsb' 19 6) p))
  | 15 => row w 0x00001C00#32 (some (Instr.vcmpLeF32 (w.extractLsb' 7 3) (w.extractLsb' 13 6) (w.extractLsb' 19 6) p))
  | 16 => row w 0x00001C00#32 (some (Instr.vcmpGtF32 (w.extractLsb' 7 3) (w.extractLsb' 13 6) (w.extractLsb' 19 6) p))
  | 17 => row w 0x00001C00#32 (some (Instr.vcmpGeF32 (w.extractLsb' 7 3) (w.extractLsb' 13 6) (w.extractLsb' 19 6) p))
  | 18 => row w 0x00001C00#32 (some (Instr.vcmpUnord (w.extractLsb' 7 3) (w.extractLsb' 13 6) (w.extractLsb' 19 6) p))
  | _ => .error (.reservedMember w)

/-- Major 0x17, VSFU (R102). -/
def decVsfu (w : BitVec 32) (p : Option Prefix) : Except Reject Instr :=
  match (w.extractLsb' 25 7).toNat with
  | 0 => row w 0x01F80000#32 (some (Instr.rcp (w.extractLsb' 7 6) (w.extractLsb' 13 6) p))
  | 1 => row w 0x01F80000#32 (some (Instr.rsq (w.extractLsb' 7 6) (w.extractLsb' 13 6) p))
  | 2 => row w 0x01F80000#32 (some (Instr.sqrt (w.extractLsb' 7 6) (w.extractLsb' 13 6) p))
  | 3 => row w 0x01F80000#32 (some (Instr.ex2 (w.extractLsb' 7 6) (w.extractLsb' 13 6) p))
  | 4 => row w 0x01F80000#32 (some (Instr.lg2 (w.extractLsb' 7 6) (w.extractLsb' 13 6) p))
  | 5 => row w 0x01F80000#32 (some (Instr.sin (w.extractLsb' 7 6) (w.extractLsb' 13 6) p))
  | 6 => row w 0x01F80000#32 (some (Instr.cos (w.extractLsb' 7 6) (w.extractLsb' 13 6) p))
  | 7 => row w 0x01F80000#32 (some (Instr.tanh (w.extractLsb' 7 6) (w.extractLsb' 13 6) p))
  | _ => .error (.reservedMember w)

/-- Major 0x18, VCVT (R102). -/
def decVcvt (w : BitVec 32) (p : Option Prefix) : Except Reject Instr :=
  match (w.extractLsb' 25 7).toNat with
  | 0 => row w 0x01F80000#32 (some (Instr.vcvtF32S32 (w.extractLsb' 7 6) (w.extractLsb' 13 6) p))
  | 1 => row w 0x01F80000#32 (some (Instr.vcvtF32U32 (w.extractLsb' 7 6) (w.extractLsb' 13 6) p))
  | 2 => row w 0x01F80000#32 (some (Instr.vcvtS32F32 (w.extractLsb' 7 6) (w.extractLsb' 13 6) p))
  | 3 => row w 0x01F80000#32 (some (Instr.vcvtU32F32 (w.extractLsb' 7 6) (w.extractLsb' 13 6) p))
  | 4 => row w 0x00000000#32 (some (Instr.vcvtBf16F32 (w.extractLsb' 7 6) (w.extractLsb' 13 6) (w.extractLsb' 19 6) p))
  | 5 => row w 0x00000000#32 (some (Instr.vcvtF16F32 (w.extractLsb' 7 6) (w.extractLsb' 13 6) (w.extractLsb' 19 6) p))
  | 6 => row w 0x00000000#32 ((bit6 (w.extractLsb' 19 6)).map fun e => Instr.vcvtF32Bf16 (w.extractLsb' 7 6) (w.extractLsb' 13 6) e p)
  | 7 => row w 0x00000000#32 ((bit6 (w.extractLsb' 19 6)).map fun e => Instr.vcvtF32F16 (w.extractLsb' 7 6) (w.extractLsb' 13 6) e p)
  | 8 => row w 0x01F80000#32 (some (Instr.vcvtSxF32 (w.extractLsb' 7 6) (w.extractLsb' 13 6) p))
  | 9 => row w 0x01F80000#32 (some (Instr.vcvtF32Sx (w.extractLsb' 7 6) (w.extractLsb' 13 6) p))
  | _ => .error (.reservedMember w)

/-- Major 0x19, VLANE (R102). -/
def decVlane (w : BitVec 32) (p : Option Prefix) : Except Reject Instr :=
  match (w.extractLsb' 25 7).toNat with
  | 0 => row w 0x01F80000#32 (some (Instr.vredFadd (w.extractLsb' 7 6) (w.extractLsb' 13 6) p))
  | 1 => row w 0x01F80000#32 (some (Instr.vredFmin (w.extractLsb' 7 6) (w.extractLsb' 13 6) p))
  | 2 => row w 0x01F80000#32 (some (Instr.vredFmax (w.extractLsb' 7 6) (w.extractLsb' 13 6) p))
  | 3 => row w 0x01F80000#32 (some (Instr.vredIadd (w.extractLsb' 7 6) (w.extractLsb' 13 6) p))
  | 4 => row w 0x01F80000#32 (some (Instr.vredIminS (w.extractLsb' 7 6) (w.extractLsb' 13 6) p))
  | 5 => row w 0x01F80000#32 (some (Instr.vredImaxS (w.extractLsb' 7 6) (w.extractLsb' 13 6) p))
  | 6 => row w 0x00000000#32 (some (Instr.vscanFadd (w.extractLsb' 7 6) (w.extractLsb' 13 6) (w.extractLsb' 19 6) p))
  | 7 => row w 0x00000000#32 (some (Instr.vscanIadd (w.extractLsb' 7 6) (w.extractLsb' 13 6) (w.extractLsb' 19 6) p))
  | 8 => row w 0x00000000#32 (some (Instr.vcompact (w.extractLsb' 7 6) (w.extractLsb' 13 6) (w.extractLsb' 19 6) p))
  | 9 => row w 0x01F80000#32 (some (Instr.vexpand (w.extractLsb' 7 6) (w.extractLsb' 13 6) p))
  | 10 => row w 0x00000000#32 (some (Instr.vsel (w.extractLsb' 7 6) (w.extractLsb' 13 6) (w.extractLsb' 19 6) p))
  | 11 => row w 0x00000000#32 (some (Instr.vperm (w.extractLsb' 7 6) (w.extractLsb' 13 6) (w.extractLsb' 19 6) p))
  | _ => .error (.reservedMember w)

/-- Major 0x1A, KOP (R102). -/
def decKop (w : BitVec 32) (p : Option Prefix) : Except Reject Instr :=
  match (w.extractLsb' 25 7).toNat with
  | 0 => row w 0x01C71C00#32 (some (Instr.kand (w.extractLsb' 7 3) (w.extractLsb' 13 3) (w.extractLsb' 19 3) p))
  | 1 => row w 0x01C71C00#32 (some (Instr.kor (w.extractLsb' 7 3) (w.extractLsb' 13 3) (w.extractLsb' 19 3) p))
  | 2 => row w 0x01C71C00#32 (some (Instr.kxor (w.extractLsb' 7 3) (w.extractLsb' 13 3) (w.extractLsb' 19 3) p))
  | 3 => row w 0x01C71C00#32 (some (Instr.kandn (w.extractLsb' 7 3) (w.extractLsb' 13 3) (w.extractLsb' 19 3) p))
  | 4 => row w 0x01FF1C00#32 (some (Instr.knot (w.extractLsb' 7 3) (w.extractLsb' 13 3) p))
  | 5 => row w 0x01FF1C00#32 (some (Instr.kmov (w.extractLsb' 7 3) (w.extractLsb' 13 3) p))
  | 6 => row w 0x00070000#32 ((fin3 (w.extractLsb' 19 6)).map fun n => Instr.k2s (w.extractLsb' 7 6) (w.extractLsb' 13 3) n p)
  | 7 => row w 0x00001C00#32 ((fin3 (w.extractLsb' 19 6)).map fun n => Instr.s2k (w.extractLsb' 7 3) (w.extractLsb' 13 6) n p)
  | 8 => row w 0x01FF0000#32 (some (Instr.kpopc (w.extractLsb' 7 6) (w.extractLsb' 13 3) p))
  | 9 => row w 0x01FF0000#32 (some (Instr.kfirst (w.extractLsb' 7 6) (w.extractLsb' 13 3) p))
  | _ => .error (.reservedMember w)

/-- Major 0x1B, VMOV (R102). -/
def decVmov (w : BitVec 32) (p : Option Prefix) : Except Reject Instr :=
  match (w.extractLsb' 25 7).toNat with
  | 0 => row w 0x01F80000#32 (some (Instr.vmov (w.extractLsb' 7 6) (w.extractLsb' 13 6) p))
  | 1 => row w 0x01F80000#32 (some (Instr.vsplat (w.extractLsb' 7 6) (w.extractLsb' 13 6) p))
  | 2 => row w 0x00000000#32 (some (Instr.vext (w.extractLsb' 7 6) (w.extractLsb' 13 6) (w.extractLsb' 19 6) p))
  | 3 => row w 0x00000000#32 (some (Instr.vins (w.extractLsb' 7 6) (w.extractLsb' 13 6) (w.extractLsb' 19 6) p))
  | 4 => row w 0x01FFE000#32 (some (Instr.vlaneid (w.extractLsb' 7 6) p))
  | 5 => row w 0x01FFE000#32 (some (Instr.viota (w.extractLsb' 7 6) p))
  | _ => .error (.reservedMember w)

/-- Major 0x1C, VLD (R102). -/
def decVld (w : BitVec 32) (x : Option (BitVec 25)) : Except Reject Instr :=
  row w 0x00000000#32 ((MemSize.dec (w.extractLsb' 29 3)).map fun z => Instr.vld (w.extractLsb' 7 6) (w.extractLsb' 13 6) (w.extractLsb' 19 6) (w.extractLsb' 25 4) z x)

/-- Major 0x1D, VST (R102). -/
def decVst (w : BitVec 32) (x : Option (BitVec 25)) : Except Reject Instr :=
  row w 0x00000000#32 ((MemSize.dec (w.extractLsb' 29 3)).map fun z => Instr.vst (w.extractLsb' 7 6) (w.extractLsb' 13 6) (w.extractLsb' 19 6) (w.extractLsb' 25 4) z x)

/-- Major 0x1E, VLDA (R102). -/
def decVlda (w : BitVec 32) (x : Option (BitVec 25)) : Except Reject Instr :=
  row w 0x00000000#32 ((MemSize.dec (w.extractLsb' 29 3)).map fun z => Instr.vlda (w.extractLsb' 7 6) (w.extractLsb' 13 6) (w.extractLsb' 19 6) (w.extractLsb' 25 4) z x)

/-- Major 0x1F, VSTR (R102). -/
def decVstr (w : BitVec 32) (x : Option (BitVec 25)) : Except Reject Instr :=
  row w 0x00000000#32 ((MemSize.dec (w.extractLsb' 29 3)).map fun z => Instr.vstr (w.extractLsb' 7 6) (w.extractLsb' 13 6) (w.extractLsb' 19 6) (w.extractLsb' 25 4) z x)

/-- Major 0x20, SLD (R102). -/
def decSld (w : BitVec 32) (x : Option (BitVec 25)) : Except Reject Instr :=
  row w 0x00000000#32 ((SMemSize.dec (w.extractLsb' 29 3)).map fun z => Instr.sld (w.extractLsb' 7 6) (w.extractLsb' 13 6) (w.extractLsb' 19 6) (w.extractLsb' 25 4) z x)

/-- Major 0x21, SST (R102). -/
def decSst (w : BitVec 32) (x : Option (BitVec 25)) : Except Reject Instr :=
  row w 0x00000000#32 ((SMemSize.dec (w.extractLsb' 29 3)).map fun z => Instr.sst (w.extractLsb' 7 6) (w.extractLsb' 13 6) (w.extractLsb' 19 6) (w.extractLsb' 25 4) z x)

/-- Major 0x22, SLDA (R102). -/
def decSlda (w : BitVec 32) (x : Option (BitVec 25)) : Except Reject Instr :=
  row w 0x00000000#32 ((SMemSize.dec (w.extractLsb' 29 3)).map fun z => Instr.slda (w.extractLsb' 7 6) (w.extractLsb' 13 6) (w.extractLsb' 19 6) (w.extractLsb' 25 4) z x)

/-- Major 0x23, SSTR (R102). -/
def decSstr (w : BitVec 32) (x : Option (BitVec 25)) : Except Reject Instr :=
  row w 0x00000000#32 ((SMemSize.dec (w.extractLsb' 29 3)).map fun z => Instr.sstr (w.extractLsb' 7 6) (w.extractLsb' 13 6) (w.extractLsb' 19 6) (w.extractLsb' 25 4) z x)

/-- Major 0x24, VATOM (R102). -/
def decVatom (w : BitVec 32) (x : Option (BitVec 25)) : Except Reject Instr :=
  match (w.extractLsb' 29 3).toNat with
  | 0 => row w 0x00000000#32 (some (Instr.vatomAdd (w.extractLsb' 7 6) (w.extractLsb' 13 6) (w.extractLsb' 19 6) (w.extractLsb' 25 4) x))
  | 1 => row w 0x00000000#32 (some (Instr.vatomAnd (w.extractLsb' 7 6) (w.extractLsb' 13 6) (w.extractLsb' 19 6) (w.extractLsb' 25 4) x))
  | 2 => row w 0x00000000#32 (some (Instr.vatomOr (w.extractLsb' 7 6) (w.extractLsb' 13 6) (w.extractLsb' 19 6) (w.extractLsb' 25 4) x))
  | 3 => row w 0x00000000#32 (some (Instr.vatomXor (w.extractLsb' 7 6) (w.extractLsb' 13 6) (w.extractLsb' 19 6) (w.extractLsb' 25 4) x))
  | 4 => row w 0x00000000#32 (some (Instr.vatomMinS (w.extractLsb' 7 6) (w.extractLsb' 13 6) (w.extractLsb' 19 6) (w.extractLsb' 25 4) x))
  | 5 => row w 0x00000000#32 (some (Instr.vatomMaxS (w.extractLsb' 7 6) (w.extractLsb' 13 6) (w.extractLsb' 19 6) (w.extractLsb' 25 4) x))
  | 6 => row w 0x00000000#32 (some (Instr.vatomXchg (w.extractLsb' 7 6) (w.extractLsb' 13 6) (w.extractLsb' 19 6) (w.extractLsb' 25 4) x))
  | 7 => row w 0x00000000#32 (some (Instr.vatomCas (w.extractLsb' 7 6) (w.extractLsb' 13 6) (w.extractLsb' 19 6) (w.extractLsb' 25 4) x))
  | _ => .error (.reservedMember w)

/-- Major 0x25, VATOMF (R102). -/
def decVatomf (w : BitVec 32) (x : Option (BitVec 25)) : Except Reject Instr :=
  match (w.extractLsb' 29 3).toNat with
  | 0 => row w 0x00000000#32 (some (Instr.vatomfFadd (w.extractLsb' 7 6) (w.extractLsb' 13 6) (w.extractLsb' 19 6) (w.extractLsb' 25 4) x))
  | 1 => row w 0x00000000#32 (some (Instr.vatomfFmin (w.extractLsb' 7 6) (w.extractLsb' 13 6) (w.extractLsb' 19 6) (w.extractLsb' 25 4) x))
  | 2 => row w 0x00000000#32 (some (Instr.vatomfFmax (w.extractLsb' 7 6) (w.extractLsb' 13 6) (w.extractLsb' 19 6) (w.extractLsb' 25 4) x))
  | 3 => row w 0x00000000#32 (some (Instr.vatomfMinU (w.extractLsb' 7 6) (w.extractLsb' 13 6) (w.extractLsb' 19 6) (w.extractLsb' 25 4) x))
  | 4 => row w 0x00000000#32 (some (Instr.vatomfMaxU (w.extractLsb' 7 6) (w.extractLsb' 13 6) (w.extractLsb' 19 6) (w.extractLsb' 25 4) x))
  | 5 => row w 0x00000000#32 (some (Instr.vatomfIncw (w.extractLsb' 7 6) (w.extractLsb' 13 6) (w.extractLsb' 19 6) (w.extractLsb' 25 4) x))
  | 6 => row w 0x00000000#32 (some (Instr.vatomfDecw (w.extractLsb' 7 6) (w.extractLsb' 13 6) (w.extractLsb' 19 6) (w.extractLsb' 25 4) x))
  | _ => .error (.reservedMember w)

/-- Major 0x26, SATOM (R102). -/
def decSatom (w : BitVec 32) (x : Option (BitVec 25)) : Except Reject Instr :=
  match (w.extractLsb' 29 3).toNat with
  | 0 => row w 0x00000000#32 (some (Instr.satomAdd (w.extractLsb' 7 6) (w.extractLsb' 13 6) (w.extractLsb' 19 6) (w.extractLsb' 25 4) x))
  | 1 => row w 0x00000000#32 (some (Instr.satomAnd (w.extractLsb' 7 6) (w.extractLsb' 13 6) (w.extractLsb' 19 6) (w.extractLsb' 25 4) x))
  | 2 => row w 0x00000000#32 (some (Instr.satomOr (w.extractLsb' 7 6) (w.extractLsb' 13 6) (w.extractLsb' 19 6) (w.extractLsb' 25 4) x))
  | 3 => row w 0x00000000#32 (some (Instr.satomXor (w.extractLsb' 7 6) (w.extractLsb' 13 6) (w.extractLsb' 19 6) (w.extractLsb' 25 4) x))
  | 4 => row w 0x00000000#32 (some (Instr.satomMinS (w.extractLsb' 7 6) (w.extractLsb' 13 6) (w.extractLsb' 19 6) (w.extractLsb' 25 4) x))
  | 5 => row w 0x00000000#32 (some (Instr.satomMaxS (w.extractLsb' 7 6) (w.extractLsb' 13 6) (w.extractLsb' 19 6) (w.extractLsb' 25 4) x))
  | 6 => row w 0x00000000#32 (some (Instr.satomXchg (w.extractLsb' 7 6) (w.extractLsb' 13 6) (w.extractLsb' 19 6) (w.extractLsb' 25 4) x))
  | 7 => row w 0x00000000#32 (some (Instr.satomCas (w.extractLsb' 7 6) (w.extractLsb' 13 6) (w.extractLsb' 19 6) (w.extractLsb' 25 4) x))
  | _ => .error (.reservedMember w)

/-- Major 0x27, CACHE (R102). -/
def decCache (w : BitVec 32) (x : Option (BitVec 25)) : Except Reject Instr :=
  match (w.extractLsb' 29 3).toNat with
  | 0 => row w 0x00001F80#32 (some (Instr.cachePfl1 (w.extractLsb' 13 6) (w.extractLsb' 19 6) (w.extractLsb' 25 4) x))
  | 1 => row w 0x00001F80#32 (some (Instr.cachePfl2 (w.extractLsb' 13 6) (w.extractLsb' 19 6) (w.extractLsb' 25 4) x))
  | 2 => row w 0x00001F80#32 (some (Instr.cacheWback (w.extractLsb' 13 6) (w.extractLsb' 19 6) (w.extractLsb' 25 4) x))
  | 3 => row w 0x00001F80#32 (some (Instr.cacheInval (w.extractLsb' 13 6) (w.extractLsb' 19 6) (w.extractLsb' 25 4) x))
  | 4 => row w 0x00001F80#32 (some (Instr.cacheWbinv (w.extractLsb' 13 6) (w.extractLsb' 19 6) (w.extractLsb' 25 4) x))
  | 5 => row w 0x00001F80#32 (some (Instr.cacheZline (w.extractLsb' 13 6) (w.extractLsb' 19 6) (w.extractLsb' 25 4) x))
  | _ => .error (.reservedMember w)

/-- Major 0x28, CPYL (R102). -/
def decCpyl (w : BitVec 32) : Except Reject Instr :=
  match (w.extractLsb' 25 3).toNat with
  | 0 => row w 0x00000000#32 ((CpSize.dec (w.extractLsb' 11 2)).map fun z => Instr.cpyl (w.extractLsb' 13 6) (w.extractLsb' 19 6) (w.extractLsb' 7 4) z (w.extractLsb' 28 4))
  | _ => .error (.reservedMember w)

/-- Major 0x29, TDMA (R102). -/
def decTdma (w : BitVec 32) : Except Reject Instr :=
  match (w.extractLsb' 25 3).toNat with
  | 0 => row w 0x01861800#32 (some (Instr.tld (w.extractLsb' 7 4) (w.extractLsb' 13 4) (w.extractLsb' 19 4) (w.extractLsb' 28 4)))
  | 1 => row w 0x01861800#32 (some (Instr.tst (w.extractLsb' 7 4) (w.extractLsb' 13 4) (w.extractLsb' 19 4) (w.extractLsb' 28 4)))
  | 2 => row w 0x01E00000#32 (some (Instr.tldw (w.extractLsb' 19 2 ++ w.extractLsb' 7 6) (w.extractLsb' 13 6) (w.extractLsb' 28 4)))
  | 3 => row w 0x0187F800#32 (some (Instr.tzfill (w.extractLsb' 7 4) (w.extractLsb' 19 4) (w.extractLsb' 28 4)))
  | _ => .error (.reservedMember w)

/-- Major 0x2A, BINS (R102). -/
def decBins (w : BitVec 32) : Except Reject Instr :=
  match (w.extractLsb' 25 3).toNat with
  | 0 => row w 0x00001800#32 (some (Instr.binsc (w.extractLsb' 7 4) (w.extractLsb' 13 6) (w.extractLsb' 19 6) (w.extractLsb' 28 4)))
  | 1 => row w 0x0007F800#32 (some (Instr.binrst (w.extractLsb' 7 4) (w.extractLsb' 19 6) (w.extractLsb' 28 4)))
  | _ => .error (.reservedMember w)

/-- Major 0x2B, CNT (R102). -/
def decCnt (w : BitVec 32) : Except Reject Instr :=
  match (w.extractLsb' 25 3).toNat with
  | 0 => row w 0x00000000#32 (some (Instr.cwait (w.extractLsb' 7 6) (w.extractLsb' 13 6) (w.extractLsb' 19 6) (w.extractLsb' 28 4)))
  | 1 => row w 0x00001F80#32 (some (Instr.cadd (w.extractLsb' 13 6) (w.extractLsb' 19 6) (w.extractLsb' 28 4)))
  | 2 => row w 0x00001F80#32 (some (Instr.cset (w.extractLsb' 13 6) (w.extractLsb' 19 6) (w.extractLsb' 28 4)))
  | 3 => row w 0x00000000#32 (some (Instr.ctest (w.extractLsb' 7 6) (w.extractLsb' 13 6) (w.extractLsb' 19 6) (w.extractLsb' 28 4)))
  | _ => .error (.reservedMember w)

/-- Major 0x2C, COLL (R102). -/
def decColl (w : BitVec 32) : Except Reject Instr :=
  match (w.extractLsb' 25 3).toNat with
  | 0 => row w 0x01801800#32 (some (Instr.allred (w.extractLsb' 7 4) (w.extractLsb' 13 6) (w.extractLsb' 19 4) (w.extractLsb' 28 4)))
  | 1 => row w 0x01801800#32 (some (Instr.redsc (w.extractLsb' 7 4) (w.extractLsb' 13 6) (w.extractLsb' 19 4) (w.extractLsb' 28 4)))
  | 2 => row w 0x01801800#32 (some (Instr.allgat (w.extractLsb' 7 4) (w.extractLsb' 13 6) (w.extractLsb' 19 4) (w.extractLsb' 28 4)))
  | 3 => row w 0x01801800#32 (some (Instr.bcast (w.extractLsb' 7 4) (w.extractLsb' 13 6) (w.extractLsb' 19 4) (w.extractLsb' 28 4)))
  | 4 => row w 0x00000000#32 (some (Instr.rcopy (w.extractLsb' 7 4) (w.extractLsb' 13 4) (w.extractLsb' 19 6) (w.extractLsb' 11 2 ++ w.extractLsb' 17 2) (w.extractLsb' 28 4)))
  | _ => .error (.reservedMember w)

/-- Major 0x2D, BMRG (R102). -/
def decBmrg (w : BitVec 32) : Except Reject Instr :=
  match (w.extractLsb' 25 3).toNat with
  | 0 => row w 0x00000000#32 (some (Instr.bmopen (w.extractLsb' 7 6) (w.extractLsb' 13 6) (w.extractLsb' 19 6) (w.extractLsb' 28 4)))
  | 1 => row w 0x01801800#32 (some (Instr.bmstage (w.extractLsb' 7 4) (w.extractLsb' 13 6) (w.extractLsb' 19 4) (w.extractLsb' 28 4)))
  | 2 => row w 0x00000000#32 (some (Instr.bmclose (w.extractLsb' 7 6) (w.extractLsb' 13 6) (w.extractLsb' 19 6) (w.extractLsb' 28 4)))
  | 3 => row w 0x00060000#32 (some (Instr.bmnorm (w.extractLsb' 7 6) (w.extractLsb' 13 4) (w.extractLsb' 19 6) (w.extractLsb' 28 4)))
  | 4 => row w 0x00061800#32 (some (Instr.bmadd (w.extractLsb' 7 4) (w.extractLsb' 13 4) (w.extractLsb' 19 6) (w.extractLsb' 28 4)))
  | 5 => row w 0x01F80000#32 (some (Instr.bmstat (w.extractLsb' 7 6) (w.extractLsb' 13 6) (w.extractLsb' 28 4)))
  | _ => .error (.reservedMember w)

/-- Major 0x2E, GRAPH (R102). -/
def decGraph (w : BitVec 32) : Except Reject Instr :=
  match (w.extractLsb' 25 3).toNat with
  | 0 => row w 0x01E00000#32 (some (Instr.emit (w.extractLsb' 7 6) (w.extractLsb' 13 6) (w.extractLsb' 19 2) (w.extractLsb' 28 4)))
  | 1 => if w.extractLsb' 19 6 = 0#6 then row w 0xF1F80000#32 (some (Instr.node (w.extractLsb' 7 6) (w.extractLsb' 13 6)))
         else row w 0x00000000#32 (some (Instr.nodeL (w.extractLsb' 7 6) (w.extractLsb' 13 6) (w.extractLsb' 19 6) (w.extractLsb' 28 4)))
  | 2 => row w 0xF1F80000#32 (some (Instr.nedge (w.extractLsb' 7 6) (w.extractLsb' 13 6)))
  | 3 => row w 0xF1F80000#32 (some (Instr.nwait (w.extractLsb' 7 6) (w.extractLsb' 13 6)))
  | _ => .error (.reservedMember w)

/-- Major 0x2F, RANGE (R102). -/
def decRange (w : BitVec 32) : Except Reject Instr :=
  match (w.extractLsb' 25 3).toNat with
  | 0 => row w 0xF007E000#32 (some (Instr.grab (w.extractLsb' 7 6) (w.extractLsb' 19 6)))
  | 1 => row w 0xF0000000#32 (some (Instr.rset (w.extractLsb' 7 6) (w.extractLsb' 13 6) (w.extractLsb' 19 6)))
  | 2 => row w 0xF007E000#32 (some (Instr.rstat (w.extractLsb' 7 6) (w.extractLsb' 19 6)))
  | _ => .error (.reservedMember w)

/-- Major 0x30, STACK (R102). -/
def decStack (w : BitVec 32) : Except Reject Instr :=
  match (w.extractLsb' 25 3).toNat with
  | 0 => row w 0xF1F81F80#32 (some (Instr.burn (w.extractLsb' 13 6)))
  | 1 => row w 0xF1F80000#32 (some (Instr.shunt (w.extractLsb' 7 6) (w.extractLsb' 13 6)))
  | 2 => row w 0xF1FFE000#32 (some (Instr.rdmis (w.extractLsb' 7 6)))
  | 3 => row w 0xF1F81F80#32 (some (Instr.dcls (w.extractLsb' 13 6)))
  | _ => .error (.reservedMember w)

/-- Major 0x31, TFEED (R102). -/
def decTfeed (w : BitVec 32) (p : Option Prefix) : Except Reject Instr :=
  match (w.extractLsb' 25 3).toNat with
  | 0 => row w 0x00001800#32 ((FeedFmt.dec (w.extractLsb' 28 3)).map fun f => Instr.tfeed (w.extractLsb' 7 4) (w.extractLsb' 13 6) (w.extractLsb' 19 6) f (w.extractLsb' 31 1 == 1#1) p)
  | _ => .error (.reservedMember w)

/-- Major 0x32, TDRAIN (R102). -/
def decTdrain (w : BitVec 32) (p : Option Prefix) : Except Reject Instr :=
  match (w.extractLsb' 25 3).toNat with
  | 0 => row w 0xE0000000#32 (some (Instr.tdrain (w.extractLsb' 7 6) (w.extractLsb' 28 1 ++ w.extractLsb' 13 6) (w.extractLsb' 19 6) p))
  | _ => .error (.reservedMember w)

/-- Major 0x33, MMA (R102). -/
def decMma (w : BitVec 32) : Except Reject Instr :=
  match (w.extractLsb' 25 3).toNat with
  | 0 => row w 0x20060000#32 (some (Instr.mma (w.extractLsb' 28 1 ++ w.extractLsb' 7 6) (w.extractLsb' 13 4) (w.extractLsb' 30 2 ++ w.extractLsb' 19 6)))
  | 1 => row w 0x00000000#32 (some (Instr.mmab (w.extractLsb' 28 1 ++ w.extractLsb' 7 6) (w.extractLsb' 13 4) (w.extractLsb' 17 2 ++ w.extractLsb' 29 3) (w.extractLsb' 19 6)))
  | 2 => row w 0xE1FFE000#32 (some (Instr.tzero (w.extractLsb' 28 1 ++ w.extractLsb' 7 6)))
  | 3 => row w 0xF1F80000#32 (some (Instr.tcfg (w.extractLsb' 7 6) (w.extractLsb' 13 6)))
  | _ => .error (.reservedMember w)

/-- Major 0x34, ACC (R102). -/
def decAcc (w : BitVec 32) : Except Reject Instr :=
  match (w.extractLsb' 25 3).toNat with
  | 0 => row w 0xE1800000#32 (some (Instr.accspill (w.extractLsb' 28 1 ++ w.extractLsb' 7 6) (w.extractLsb' 13 6) (w.extractLsb' 19 4)))
  | 1 => row w 0xE1800000#32 (some (Instr.accfill (w.extractLsb' 28 1 ++ w.extractLsb' 7 6) (w.extractLsb' 13 6) (w.extractLsb' 19 4)))
  | 2 => row w 0xE007E000#32 (some (Instr.accrel (w.extractLsb' 28 1 ++ w.extractLsb' 7 6) (w.extractLsb' 19 6)))
  | 3 => row w 0xF007E000#32 ((bit6 (w.extractLsb' 19 6)).map fun h => Instr.acclive (w.extractLsb' 7 6) h)
  | _ => .error (.reservedMember w)

/-- Major 0x35, TDESC (R102). -/
def decTdesc (w : BitVec 32) : Except Reject Instr :=
  match (w.extractLsb' 25 7).toNat with
  | 0 => row w 0x00001800#32 ((fin5 (w.extractLsb' 19 6)).map fun wd => Instr.tset (w.extractLsb' 7 4) wd (w.extractLsb' 13 6))
  | 1 => row w 0x00060000#32 ((fin5 (w.extractLsb' 19 6)).map fun wd => Instr.tget (w.extractLsb' 7 6) (w.extractLsb' 13 4) wd)
  | 2 => row w 0x01FE1800#32 (some (Instr.tcopy (w.extractLsb' 7 4) (w.extractLsb' 13 4)))
  | _ => .error (.reservedMember w)

/-- The instruction a 32-bit word holds, under the prefix and the payload its sequence carries (R102): the major
opcode is [6:1]. -/
def decodeWord (w : BitVec 32) (p : Option Prefix) (x : Option (BitVec 25)) : Except Reject Instr :=
  match (w.extractLsb' 1 6).toNat with
  | 0x01 => decSalu w
  | 0x02 => decSalui w x
  | 0x03 => decSli w x
  | 0x04 => decBr w x
  | 0x05 => decJmp w x
  | 0x06 => decCall w x
  | 0x07 => decJr w
  | 0x08 => decVbr w
  | 0x09 => decKbr w x
  | 0x0A => decSys w
  | 0x0B => decSync w
  | 0x0C => decQop w
  | 0x0D => decRegion w
  | 0x10 => decVfp w p
  | 0x11 => decVfma w p
  | 0x12 => decVfps w p
  | 0x13 => decVint w p
  | 0x14 => decVints w p
  | 0x15 => decVinti w p x
  | 0x16 => decVcmp w p
  | 0x17 => decVsfu w p
  | 0x18 => decVcvt w p
  | 0x19 => decVlane w p
  | 0x1A => decKop w p
  | 0x1B => decVmov w p
  | 0x1C => decVld w x
  | 0x1D => decVst w x
  | 0x1E => decVlda w x
  | 0x1F => decVstr w x
  | 0x20 => decSld w x
  | 0x21 => decSst w x
  | 0x22 => decSlda w x
  | 0x23 => decSstr w x
  | 0x24 => decVatom w x
  | 0x25 => decVatomf w x
  | 0x26 => decSatom w x
  | 0x27 => decCache w x
  | 0x28 => decCpyl w
  | 0x29 => decTdma w
  | 0x2A => decBins w
  | 0x2B => decCnt w
  | 0x2C => decColl w
  | 0x2D => decBmrg w
  | 0x2E => decGraph w
  | 0x2F => decRange w
  | 0x30 => decStack w
  | 0x31 => decTfeed w p
  | 0x32 => decTdrain w p
  | 0x33 => decMma w
  | 0x34 => decAcc w
  | 0x35 => decTdesc w
  | _ => .error (.reservedMajor w)

/-- The instruction a 16-bit parcel holds (R94): op [4:1], vd [10:5], vb [15:11]. -/
def decodeCompact (h : BitVec 16) : Except Reject Instr :=
  let d := h.extractLsb' 5 6
  let b := h.extractLsb' 11 5
  if h = 0#16 then .error .zeroParcel else
  match (h.extractLsb' 1 4).toNat with
  | 0 => .ok (.vaddF32Compact d b)
  | 1 => .ok (.vsubF32Compact d b)
  | 2 => .ok (.vmulF32Compact d b)
  | 3 => .ok (.vmaxF32Compact d b)
  | 4 => .ok (.vminF32Compact d b)
  | 5 => .ok (.vaddI32Compact d b)
  | 6 => .ok (.vsubI32Compact d b)
  | 7 => .ok (.vandCompact d b)
  | 8 => .ok (.vorCompact d b)
  | 9 => .ok (.vxorCompact d b)
  | 10 => .ok (.vshlCompact d b)
  | 11 => .ok (.vshrU32Compact d b)
  | 12 => .ok (.vmulLoCompact d b)
  | 13 => .ok (.vmaxS32Compact d b)
  | 14 => .ok (.vminS32Compact d b)
  | 15 => .ok (.vmovCompact d b)
  | _ => .error (.parcelMember h)

/-- A 16-bit parcel or a 32-bit word (R91). -/
inductive Code where
  | parcel (h : BitVec 16)
  | word (w : BitVec 32)
deriving DecidableEq, Repr

/-- The first parcel or word of a byte list, little-endian, and the bytes behind it (R91): bit 0 of the first parcel
gives the length. -/
def code : List Byte → Option (Code × List Byte)
  | b0 :: b1 :: r =>
    if b0.extractLsb' 0 1 = 0#1 then some (.parcel (b1 ++ b0), r)
    else match r with
      | b2 :: b3 :: r' => some (.word (b3 ++ b2 ++ b1 ++ b0), r')
      | _ => none
  | _ => none

/-- The fields of a VPFX word (R98). -/
def prefixOf (w : BitVec 32) : Prefix :=
  { pb := w.extractLsb' 26 6, pa := w.extractLsb' 20 6, c := w.extractLsb' 14 6, rm := w.extractLsb' 11 3,
    z := w.extractLsb' 10 1 == 1#1, k := w.extractLsb' 7 3 }

/-- The major opcode of a word (R95). -/
def majorOf (w : BitVec 32) : Nat := (w.extractLsb' 1 6).toNat

/-- The word or parcel of an instruction without its prefix and extension (R94, R95, R102). A step of the machine has
none. -/
def encodeUnit : Instr → Option Code
  | .add d a b => some (.word (0#7 ++ b ++ a ++ d ++ 3#7))
  | .sub d a b => some (.word (1#7 ++ b ++ a ++ d ++ 3#7))
  | .and d a b => some (.word (2#7 ++ b ++ a ++ d ++ 3#7))
  | .or d a b => some (.word (3#7 ++ b ++ a ++ d ++ 3#7))
  | .xor d a b => some (.word (4#7 ++ b ++ a ++ d ++ 3#7))
  | .shl d a b => some (.word (5#7 ++ b ++ a ++ d ++ 3#7))
  | .shr d a b => some (.word (6#7 ++ b ++ a ++ d ++ 3#7))
  | .sra d a b => some (.word (7#7 ++ b ++ a ++ d ++ 3#7))
  | .min d a b => some (.word (8#7 ++ b ++ a ++ d ++ 3#7))
  | .max d a b => some (.word (9#7 ++ b ++ a ++ d ++ 3#7))
  | .minu d a b => some (.word (10#7 ++ b ++ a ++ d ++ 3#7))
  | .maxu d a b => some (.word (11#7 ++ b ++ a ++ d ++ 3#7))
  | .slt d a b => some (.word (12#7 ++ b ++ a ++ d ++ 3#7))
  | .sltu d a b => some (.word (13#7 ++ b ++ a ++ d ++ 3#7))
  | .seq d a b => some (.word (14#7 ++ b ++ a ++ d ++ 3#7))
  | .sne d a b => some (.word (15#7 ++ b ++ a ++ d ++ 3#7))
  | .mul d a b => some (.word (16#7 ++ b ++ a ++ d ++ 3#7))
  | .mulh d a b => some (.word (17#7 ++ b ++ a ++ d ++ 3#7))
  | .mulhu d a b => some (.word (18#7 ++ b ++ a ++ d ++ 3#7))
  | .div d a b => some (.word (19#7 ++ b ++ a ++ d ++ 3#7))
  | .divu d a b => some (.word (20#7 ++ b ++ a ++ d ++ 3#7))
  | .rem d a b => some (.word (21#7 ++ b ++ a ++ d ++ 3#7))
  | .remu d a b => some (.word (22#7 ++ b ++ a ++ d ++ 3#7))
  | .clz d a => some (.word (1472#13 ++ a ++ d ++ 3#7))
  | .popc d a => some (.word (1536#13 ++ a ++ d ++ 3#7))
  | .addi d a i _ => some (.word (i ++ 0#3 ++ a ++ d ++ 5#7))
  | .andi d a i _ => some (.word (i ++ 1#3 ++ a ++ d ++ 5#7))
  | .ori d a i _ => some (.word (i ++ 2#3 ++ a ++ d ++ 5#7))
  | .xori d a i _ => some (.word (i ++ 3#3 ++ a ++ d ++ 5#7))
  | .shli d a i _ => some (.word (i ++ 4#3 ++ a ++ d ++ 5#7))
  | .shri d a i _ => some (.word (i ++ 5#3 ++ a ++ d ++ 5#7))
  | .srai d a i _ => some (.word (i ++ 6#3 ++ a ++ d ++ 5#7))
  | .slti d a i _ => some (.word (i ++ 7#3 ++ a ++ d ++ 5#7))
  | .sli d i _ => some (.word (i ++ d ++ 7#7))
  | .brEqz a o _ => some (.word (o ++ 0#3 ++ a ++ 9#7))
  | .brNez a o _ => some (.word (o ++ 1#3 ++ a ++ 9#7))
  | .brLtz a o _ => some (.word (o ++ 2#3 ++ a ++ 9#7))
  | .brGez a o _ => some (.word (o ++ 3#3 ++ a ++ 9#7))
  | .brGtz a o _ => some (.word (o ++ 4#3 ++ a ++ 9#7))
  | .brLez a o _ => some (.word (o ++ 5#3 ++ a ++ 9#7))
  | .jmp o _ => some (.word (o ++ 11#7))
  | .call o _ => some (.word (o ++ 13#7))
  | .jr a => some (.word (0#13 ++ a ++ 15#13))
  | .callr a => some (.word (64#13 ++ a ++ 15#13))
  | .ret => some (.word (67108879#32))
  | .vbr k t j => some (.word (t ++ j ++ 0#1 ++ k ++ 17#7))
  | .vbrN k t j => some (.word (t ++ j ++ 1#1 ++ k ++ 17#7))
  | .kbrAny k o _ => some (.word (o ++ 0#2 ++ k ++ 19#7))
  | .kbrAll k o _ => some (.word (o ++ 1#2 ++ k ++ 19#7))
  | .kbrNone k o _ => some (.word (o ++ 2#2 ++ k ++ 19#7))
  | .nop => some (.word (21#32))
  | .srd d n => some (.word (1#7 ++ (n.extractLsb' 6 6) ++ (n.extractLsb' 0 6) ++ d ++ 21#7))
  | .swr n a => some (.word (2#7 ++ (n.extractLsb' 6 6) ++ a ++ (n.extractLsb' 0 6) ++ 21#7))
  | .trap a => some (.word (192#13 ++ a ++ 21#13))
  | .eret => some (.word (134217749#32))
  | .bkpt => some (.word (167772181#32))
  | .yield => some (.word (201326613#32))
  | .exit => some (.word (234881045#32))
  | .setfmt d a => some (.word (512#13 ++ a ++ d ++ 21#7))
  | .scfg a h => some (.word (9#7 ++ (0#5 ++ h) ++ a ++ 21#13))
  | .waitcyc a => some (.word (640#13 ++ a ++ 21#13))
  | .barInit n a => some (.word (0#9 ++ n ++ a ++ 23#13))
  | .barArrive d n rlx => some (.word (0#3 ++ (BitVec.ofBool rlx) ++ 4#5 ++ n ++ 0#6 ++ d ++ 23#7))
  | .barWait d n a => some (.word (8#9 ++ n ++ a ++ d ++ 23#7))
  | .barAw d n rlx => some (.word (0#3 ++ (BitVec.ofBool rlx) ++ 12#5 ++ n ++ 0#6 ++ d ++ 23#7))
  | .barTest d n a => some (.word (16#9 ++ n ++ a ++ d ++ 23#7))
  | .barExpect n a post => some (.word (0#2 ++ (BitVec.ofBool post) ++ 20#6 ++ n ++ a ++ 23#13))
  | .fenceX a => some (.word (384#13 ++ a ++ 23#13))
  | .fenceS a sc => some (.word (0#1 ++ (ScopeCode.enc sc) ++ 448#9 ++ a ++ 23#13))
  | .qbind p a => some (.word (0#13 ++ a ++ p ++ 25#7))
  | .qtry d p => some (.word (64#13 ++ p ++ d ++ 25#7))
  | .qstat d p => some (.word (128#13 ++ p ++ d ++ 25#7))
  | .region => some (.word (27#32))
  | .rclose => some (.word (33554459#32))
  | .vfpFadd t d a b _ => some (.word (0#5 ++ (FType.enc t) ++ b ++ a ++ d ++ 33#7))
  | .vfpFsub t d a b _ => some (.word (1#5 ++ (FType.enc t) ++ b ++ a ++ d ++ 33#7))
  | .vfpFmul t d a b _ => some (.word (2#5 ++ (FType.enc t) ++ b ++ a ++ d ++ 33#7))
  | .vfpFmin t d a b _ => some (.word (3#5 ++ (FType.enc t) ++ b ++ a ++ d ++ 33#7))
  | .vfpFmax t d a b _ => some (.word (4#5 ++ (FType.enc t) ++ b ++ a ++ d ++ 33#7))
  | .vfpFabs t d a _ => some (.word (5#5 ++ (FType.enc t) ++ 0#6 ++ a ++ d ++ 33#7))
  | .vfpFneg t d a _ => some (.word (6#5 ++ (FType.enc t) ++ 0#6 ++ a ++ d ++ 33#7))
  | .vfpFcpysgn t d a b _ => some (.word (7#5 ++ (FType.enc t) ++ b ++ a ++ d ++ 33#7))
  | .fma t d a b _ => some (.word (0#5 ++ (FType.enc t) ++ b ++ a ++ d ++ 35#7))
  | .fms t d a b _ => some (.word (1#5 ++ (FType.enc t) ++ b ++ a ++ d ++ 35#7))
  | .nfma t d a b _ => some (.word (2#5 ++ (FType.enc t) ++ b ++ a ++ d ++ 35#7))
  | .nfms t d a b _ => some (.word (3#5 ++ (FType.enc t) ++ b ++ a ++ d ++ 35#7))
  | .vfpsFadd t d a b _ => some (.word (0#5 ++ (FType.enc t) ++ b ++ a ++ d ++ 37#7))
  | .vfpsFsub t d a b _ => some (.word (1#5 ++ (FType.enc t) ++ b ++ a ++ d ++ 37#7))
  | .vfpsFmul t d a b _ => some (.word (2#5 ++ (FType.enc t) ++ b ++ a ++ d ++ 37#7))
  | .vfpsFmin t d a b _ => some (.word (3#5 ++ (FType.enc t) ++ b ++ a ++ d ++ 37#7))
  | .vfpsFmax t d a b _ => some (.word (4#5 ++ (FType.enc t) ++ b ++ a ++ d ++ 37#7))
  | .vfpsFcpysgn t d a b _ => some (.word (7#5 ++ (FType.enc t) ++ b ++ a ++ d ++ 37#7))
  | .vintAdd d a b _ => some (.word (0#7 ++ b ++ a ++ d ++ 39#7))
  | .vintSub d a b _ => some (.word (1#7 ++ b ++ a ++ d ++ 39#7))
  | .vintMullo d a b _ => some (.word (2#7 ++ b ++ a ++ d ++ 39#7))
  | .vintMulhiS d a b _ => some (.word (3#7 ++ b ++ a ++ d ++ 39#7))
  | .vintMulhiU d a b _ => some (.word (4#7 ++ b ++ a ++ d ++ 39#7))
  | .vintAnd d a b _ => some (.word (5#7 ++ b ++ a ++ d ++ 39#7))
  | .vintOr d a b _ => some (.word (6#7 ++ b ++ a ++ d ++ 39#7))
  | .vintXor d a b _ => some (.word (7#7 ++ b ++ a ++ d ++ 39#7))
  | .vintAndn d a b _ => some (.word (8#7 ++ b ++ a ++ d ++ 39#7))
  | .vintShl d a b _ => some (.word (9#7 ++ b ++ a ++ d ++ 39#7))
  | .vintShr d a b _ => some (.word (10#7 ++ b ++ a ++ d ++ 39#7))
  | .vintSra d a b _ => some (.word (11#7 ++ b ++ a ++ d ++ 39#7))
  | .vintMinS d a b _ => some (.word (12#7 ++ b ++ a ++ d ++ 39#7))
  | .vintMaxS d a b _ => some (.word (13#7 ++ b ++ a ++ d ++ 39#7))
  | .vintMinU d a b _ => some (.word (14#7 ++ b ++ a ++ d ++ 39#7))
  | .vintMaxU d a b _ => some (.word (15#7 ++ b ++ a ++ d ++ 39#7))
  | .vintAbs d a _ => some (.word (1024#13 ++ a ++ d ++ 39#7))
  | .vintClz d a _ => some (.word (1088#13 ++ a ++ d ++ 39#7))
  | .vintPopc d a _ => some (.word (1152#13 ++ a ++ d ++ 39#7))
  | .vintBrev d a _ => some (.word (1216#13 ++ a ++ d ++ 39#7))
  | .vintsAdd d a b _ => some (.word (0#7 ++ b ++ a ++ d ++ 41#7))
  | .vintsSub d a b _ => some (.word (1#7 ++ b ++ a ++ d ++ 41#7))
  | .vintsMullo d a b _ => some (.word (2#7 ++ b ++ a ++ d ++ 41#7))
  | .vintsMulhiS d a b _ => some (.word (3#7 ++ b ++ a ++ d ++ 41#7))
  | .vintsMulhiU d a b _ => some (.word (4#7 ++ b ++ a ++ d ++ 41#7))
  | .vintsAnd d a b _ => some (.word (5#7 ++ b ++ a ++ d ++ 41#7))
  | .vintsOr d a b _ => some (.word (6#7 ++ b ++ a ++ d ++ 41#7))
  | .vintsXor d a b _ => some (.word (7#7 ++ b ++ a ++ d ++ 41#7))
  | .vintsAndn d a b _ => some (.word (8#7 ++ b ++ a ++ d ++ 41#7))
  | .vintsShl d a b _ => some (.word (9#7 ++ b ++ a ++ d ++ 41#7))
  | .vintsShr d a b _ => some (.word (10#7 ++ b ++ a ++ d ++ 41#7))
  | .vintsSra d a b _ => some (.word (11#7 ++ b ++ a ++ d ++ 41#7))
  | .vintsMinS d a b _ => some (.word (12#7 ++ b ++ a ++ d ++ 41#7))
  | .vintsMaxS d a b _ => some (.word (13#7 ++ b ++ a ++ d ++ 41#7))
  | .vintsMinU d a b _ => some (.word (14#7 ++ b ++ a ++ d ++ 41#7))
  | .vintsMaxU d a b _ => some (.word (15#7 ++ b ++ a ++ d ++ 41#7))
  | .vintiAddi d a i _ _ => some (.word (i ++ 0#3 ++ a ++ d ++ 43#7))
  | .vintiAndi d a i _ _ => some (.word (i ++ 1#3 ++ a ++ d ++ 43#7))
  | .vintiOri d a i _ _ => some (.word (i ++ 2#3 ++ a ++ d ++ 43#7))
  | .vintiXori d a i _ _ => some (.word (i ++ 3#3 ++ a ++ d ++ 43#7))
  | .vintiShli d a i _ _ => some (.word (i ++ 4#3 ++ a ++ d ++ 43#7))
  | .vintiShri d a i _ _ => some (.word (i ++ 5#3 ++ a ++ d ++ 43#7))
  | .vintiSrai d a i _ _ => some (.word (i ++ 6#3 ++ a ++ d ++ 43#7))
  | .vintiMuli d a i _ _ => some (.word (i ++ 7#3 ++ a ++ d ++ 43#7))
  | .vcmpEqS32 d a b _ => some (.word (0#7 ++ b ++ a ++ 0#3 ++ d ++ 45#7))
  | .vcmpNeS32 d a b _ => some (.word (1#7 ++ b ++ a ++ 0#3 ++ d ++ 45#7))
  | .vcmpLtS32 d a b _ => some (.word (2#7 ++ b ++ a ++ 0#3 ++ d ++ 45#7))
  | .vcmpLeS32 d a b _ => some (.word (3#7 ++ b ++ a ++ 0#3 ++ d ++ 45#7))
  | .vcmpGtS32 d a b _ => some (.word (4#7 ++ b ++ a ++ 0#3 ++ d ++ 45#7))
  | .vcmpGeS32 d a b _ => some (.word (5#7 ++ b ++ a ++ 0#3 ++ d ++ 45#7))
  | .vcmpEqU32 d a b _ => some (.word (6#7 ++ b ++ a ++ 0#3 ++ d ++ 45#7))
  | .vcmpNeU32 d a b _ => some (.word (7#7 ++ b ++ a ++ 0#3 ++ d ++ 45#7))
  | .vcmpLtU32 d a b _ => some (.word (8#7 ++ b ++ a ++ 0#3 ++ d ++ 45#7))
  | .vcmpLeU32 d a b _ => some (.word (9#7 ++ b ++ a ++ 0#3 ++ d ++ 45#7))
  | .vcmpGtU32 d a b _ => some (.word (10#7 ++ b ++ a ++ 0#3 ++ d ++ 45#7))
  | .vcmpGeU32 d a b _ => some (.word (11#7 ++ b ++ a ++ 0#3 ++ d ++ 45#7))
  | .vcmpEqF32 d a b _ => some (.word (12#7 ++ b ++ a ++ 0#3 ++ d ++ 45#7))
  | .vcmpNeF32 d a b _ => some (.word (13#7 ++ b ++ a ++ 0#3 ++ d ++ 45#7))
  | .vcmpLtF32 d a b _ => some (.word (14#7 ++ b ++ a ++ 0#3 ++ d ++ 45#7))
  | .vcmpLeF32 d a b _ => some (.word (15#7 ++ b ++ a ++ 0#3 ++ d ++ 45#7))
  | .vcmpGtF32 d a b _ => some (.word (16#7 ++ b ++ a ++ 0#3 ++ d ++ 45#7))
  | .vcmpGeF32 d a b _ => some (.word (17#7 ++ b ++ a ++ 0#3 ++ d ++ 45#7))
  | .vcmpUnord d a b _ => some (.word (18#7 ++ b ++ a ++ 0#3 ++ d ++ 45#7))
  | .rcp d a _ => some (.word (0#13 ++ a ++ d ++ 47#7))
  | .rsq d a _ => some (.word (64#13 ++ a ++ d ++ 47#7))
  | .sqrt d a _ => some (.word (128#13 ++ a ++ d ++ 47#7))
  | .ex2 d a _ => some (.word (192#13 ++ a ++ d ++ 47#7))
  | .lg2 d a _ => some (.word (256#13 ++ a ++ d ++ 47#7))
  | .sin d a _ => some (.word (320#13 ++ a ++ d ++ 47#7))
  | .cos d a _ => some (.word (384#13 ++ a ++ d ++ 47#7))
  | .tanh d a _ => some (.word (448#13 ++ a ++ d ++ 47#7))
  | .vcvtF32S32 d a _ => some (.word (0#13 ++ a ++ d ++ 49#7))
  | .vcvtF32U32 d a _ => some (.word (64#13 ++ a ++ d ++ 49#7))
  | .vcvtS32F32 d a _ => some (.word (128#13 ++ a ++ d ++ 49#7))
  | .vcvtU32F32 d a _ => some (.word (192#13 ++ a ++ d ++ 49#7))
  | .vcvtBf16F32 d a b _ => some (.word (4#7 ++ b ++ a ++ d ++ 49#7))
  | .vcvtF16F32 d a b _ => some (.word (5#7 ++ b ++ a ++ d ++ 49#7))
  | .vcvtF32Bf16 d a e _ => some (.word (6#7 ++ (0#5 ++ e) ++ a ++ d ++ 49#7))
  | .vcvtF32F16 d a e _ => some (.word (7#7 ++ (0#5 ++ e) ++ a ++ d ++ 49#7))
  | .vcvtSxF32 d a _ => some (.word (512#13 ++ a ++ d ++ 49#7))
  | .vcvtF32Sx d a _ => some (.word (576#13 ++ a ++ d ++ 49#7))
  | .vredFadd d a _ => some (.word (0#13 ++ a ++ d ++ 51#7))
  | .vredFmin d a _ => some (.word (64#13 ++ a ++ d ++ 51#7))
  | .vredFmax d a _ => some (.word (128#13 ++ a ++ d ++ 51#7))
  | .vredIadd d a _ => some (.word (192#13 ++ a ++ d ++ 51#7))
  | .vredIminS d a _ => some (.word (256#13 ++ a ++ d ++ 51#7))
  | .vredImaxS d a _ => some (.word (320#13 ++ a ++ d ++ 51#7))
  | .vscanFadd d a b _ => some (.word (6#7 ++ b ++ a ++ d ++ 51#7))
  | .vscanIadd d a b _ => some (.word (7#7 ++ b ++ a ++ d ++ 51#7))
  | .vcompact d a b _ => some (.word (8#7 ++ b ++ a ++ d ++ 51#7))
  | .vexpand d a _ => some (.word (576#13 ++ a ++ d ++ 51#7))
  | .vsel d a b _ => some (.word (10#7 ++ b ++ a ++ d ++ 51#7))
  | .vperm d a b _ => some (.word (11#7 ++ b ++ a ++ d ++ 51#7))
  | .kand d a b _ => some (.word (0#10 ++ b ++ 0#3 ++ a ++ 0#3 ++ d ++ 53#7))
  | .kor d a b _ => some (.word (8#10 ++ b ++ 0#3 ++ a ++ 0#3 ++ d ++ 53#7))
  | .kxor d a b _ => some (.word (16#10 ++ b ++ 0#3 ++ a ++ 0#3 ++ d ++ 53#7))
  | .kandn d a b _ => some (.word (24#10 ++ b ++ 0#3 ++ a ++ 0#3 ++ d ++ 53#7))
  | .knot d a _ => some (.word (2048#16 ++ a ++ 0#3 ++ d ++ 53#7))
  | .kmov d a _ => some (.word (2560#16 ++ a ++ 0#3 ++ d ++ 53#7))
  | .k2s d a n _ => some (.word (6#7 ++ (BitVec.ofNat 6 n.val) ++ 0#3 ++ a ++ d ++ 53#7))
  | .s2k d a n _ => some (.word (7#7 ++ (BitVec.ofNat 6 n.val) ++ a ++ 0#3 ++ d ++ 53#7))
  | .kpopc d a _ => some (.word (4096#16 ++ a ++ d ++ 53#7))
  | .kfirst d a _ => some (.word (4608#16 ++ a ++ d ++ 53#7))
  | .vmov d a _ => some (.word (0#13 ++ a ++ d ++ 55#7))
  | .vsplat d a _ => some (.word (64#13 ++ a ++ d ++ 55#7))
  | .vext d a b _ => some (.word (2#7 ++ b ++ a ++ d ++ 55#7))
  | .vins d a b _ => some (.word (3#7 ++ b ++ a ++ d ++ 55#7))
  | .vlaneid d _ => some (.word (16384#19 ++ d ++ 55#7))
  | .viota d _ => some (.word (20480#19 ++ d ++ 55#7))
  | .vaddF32Compact d b => some (.parcel (b ++ d ++ 0#5))
  | .vsubF32Compact d b => some (.parcel (b ++ d ++ 2#5))
  | .vmulF32Compact d b => some (.parcel (b ++ d ++ 4#5))
  | .vmaxF32Compact d b => some (.parcel (b ++ d ++ 6#5))
  | .vminF32Compact d b => some (.parcel (b ++ d ++ 8#5))
  | .vaddI32Compact d b => some (.parcel (b ++ d ++ 10#5))
  | .vsubI32Compact d b => some (.parcel (b ++ d ++ 12#5))
  | .vandCompact d b => some (.parcel (b ++ d ++ 14#5))
  | .vorCompact d b => some (.parcel (b ++ d ++ 16#5))
  | .vxorCompact d b => some (.parcel (b ++ d ++ 18#5))
  | .vshlCompact d b => some (.parcel (b ++ d ++ 20#5))
  | .vshrU32Compact d b => some (.parcel (b ++ d ++ 22#5))
  | .vmulLoCompact d b => some (.parcel (b ++ d ++ 24#5))
  | .vmaxS32Compact d b => some (.parcel (b ++ d ++ 26#5))
  | .vminS32Compact d b => some (.parcel (b ++ d ++ 28#5))
  | .vmovCompact d b => some (.parcel (b ++ d ++ 30#5))
  | .vld d r x st z _ => some (.word ((MemSize.enc z) ++ st ++ x ++ r ++ d ++ 57#7))
  | .vst d r x st z _ => some (.word ((MemSize.enc z) ++ st ++ x ++ r ++ d ++ 59#7))
  | .vlda d r x st z _ => some (.word ((MemSize.enc z) ++ st ++ x ++ r ++ d ++ 61#7))
  | .vstr d r x st z _ => some (.word ((MemSize.enc z) ++ st ++ x ++ r ++ d ++ 63#7))
  | .sld d r x st z _ => some (.word ((SMemSize.enc z) ++ st ++ x ++ r ++ d ++ 65#7))
  | .sst d r x st z _ => some (.word ((SMemSize.enc z) ++ st ++ x ++ r ++ d ++ 67#7))
  | .slda d r x st z _ => some (.word ((SMemSize.enc z) ++ st ++ x ++ r ++ d ++ 69#7))
  | .sstr d r x st z _ => some (.word ((SMemSize.enc z) ++ st ++ x ++ r ++ d ++ 71#7))
  | .vatomAdd d r x st _ => some (.word (0#3 ++ st ++ x ++ r ++ d ++ 73#7))
  | .vatomAnd d r x st _ => some (.word (1#3 ++ st ++ x ++ r ++ d ++ 73#7))
  | .vatomOr d r x st _ => some (.word (2#3 ++ st ++ x ++ r ++ d ++ 73#7))
  | .vatomXor d r x st _ => some (.word (3#3 ++ st ++ x ++ r ++ d ++ 73#7))
  | .vatomMinS d r x st _ => some (.word (4#3 ++ st ++ x ++ r ++ d ++ 73#7))
  | .vatomMaxS d r x st _ => some (.word (5#3 ++ st ++ x ++ r ++ d ++ 73#7))
  | .vatomXchg d r x st _ => some (.word (6#3 ++ st ++ x ++ r ++ d ++ 73#7))
  | .vatomCas d r x st _ => some (.word (7#3 ++ st ++ x ++ r ++ d ++ 73#7))
  | .vatomfFadd d r x st _ => some (.word (0#3 ++ st ++ x ++ r ++ d ++ 75#7))
  | .vatomfFmin d r x st _ => some (.word (1#3 ++ st ++ x ++ r ++ d ++ 75#7))
  | .vatomfFmax d r x st _ => some (.word (2#3 ++ st ++ x ++ r ++ d ++ 75#7))
  | .vatomfMinU d r x st _ => some (.word (3#3 ++ st ++ x ++ r ++ d ++ 75#7))
  | .vatomfMaxU d r x st _ => some (.word (4#3 ++ st ++ x ++ r ++ d ++ 75#7))
  | .vatomfIncw d r x st _ => some (.word (5#3 ++ st ++ x ++ r ++ d ++ 75#7))
  | .vatomfDecw d r x st _ => some (.word (6#3 ++ st ++ x ++ r ++ d ++ 75#7))
  | .satomAdd d r x st _ => some (.word (0#3 ++ st ++ x ++ r ++ d ++ 77#7))
  | .satomAnd d r x st _ => some (.word (1#3 ++ st ++ x ++ r ++ d ++ 77#7))
  | .satomOr d r x st _ => some (.word (2#3 ++ st ++ x ++ r ++ d ++ 77#7))
  | .satomXor d r x st _ => some (.word (3#3 ++ st ++ x ++ r ++ d ++ 77#7))
  | .satomMinS d r x st _ => some (.word (4#3 ++ st ++ x ++ r ++ d ++ 77#7))
  | .satomMaxS d r x st _ => some (.word (5#3 ++ st ++ x ++ r ++ d ++ 77#7))
  | .satomXchg d r x st _ => some (.word (6#3 ++ st ++ x ++ r ++ d ++ 77#7))
  | .satomCas d r x st _ => some (.word (7#3 ++ st ++ x ++ r ++ d ++ 77#7))
  | .cachePfl1 r x st _ => some (.word (0#3 ++ st ++ x ++ r ++ 79#13))
  | .cachePfl2 r x st _ => some (.word (1#3 ++ st ++ x ++ r ++ 79#13))
  | .cacheWback r x st _ => some (.word (2#3 ++ st ++ x ++ r ++ 79#13))
  | .cacheInval r x st _ => some (.word (3#3 ++ st ++ x ++ r ++ 79#13))
  | .cacheWbinv r x st _ => some (.word (4#3 ++ st ++ x ++ r ++ 79#13))
  | .cacheZline r x st _ => some (.word (5#3 ++ st ++ x ++ r ++ 79#13))
  | .cpyl a b n z st => some (.word (st ++ 0#3 ++ b ++ a ++ (CpSize.enc z) ++ n ++ 81#7))
  | .tld d a n st => some (.word (st ++ 0#5 ++ n ++ 0#2 ++ a ++ 0#2 ++ d ++ 83#7))
  | .tst d a n st => some (.word (st ++ 4#5 ++ n ++ 0#2 ++ a ++ 0#2 ++ d ++ 83#7))
  | .tldw k a st => some (.word (st ++ 32#7 ++ (k.extractLsb' 6 2) ++ a ++ (k.extractLsb' 0 6) ++ 83#7))
  | .tzfill d n st => some (.word (st ++ 12#5 ++ n ++ 0#8 ++ d ++ 83#7))
  | .binsc n a b st => some (.word (st ++ 0#3 ++ b ++ a ++ 0#2 ++ n ++ 85#7))
  | .binrst n b st => some (.word (st ++ 1#3 ++ b ++ 0#8 ++ n ++ 85#7))
  | .cwait d a b st => some (.word (st ++ 0#3 ++ b ++ a ++ d ++ 87#7))
  | .cadd a b st => some (.word (st ++ 1#3 ++ b ++ a ++ 87#13))
  | .cset a b st => some (.word (st ++ 2#3 ++ b ++ a ++ 87#13))
  | .ctest d a b st => some (.word (st ++ 3#3 ++ b ++ a ++ d ++ 87#7))
  | .allred t a n st => some (.word (st ++ 0#5 ++ n ++ a ++ 0#2 ++ t ++ 89#7))
  | .redsc t a n st => some (.word (st ++ 4#5 ++ n ++ a ++ 0#2 ++ t ++ 89#7))
  | .allgat t a n st => some (.word (st ++ 8#5 ++ n ++ a ++ 0#2 ++ t ++ 89#7))
  | .bcast t a n st => some (.word (st ++ 12#5 ++ n ++ a ++ 0#2 ++ t ++ 89#7))
  | .rcopy d a b n st => some (.word (st ++ 4#3 ++ b ++ (n.extractLsb' 0 2) ++ a ++ (n.extractLsb' 2 2) ++ d ++ 89#7))
  | .bmopen d a b st => some (.word (st ++ 0#3 ++ b ++ a ++ d ++ 91#7))
  | .bmstage t a n st => some (.word (st ++ 4#5 ++ n ++ a ++ 0#2 ++ t ++ 91#7))
  | .bmclose d a b st => some (.word (st ++ 2#3 ++ b ++ a ++ d ++ 91#7))
  | .bmnorm d t b st => some (.word (st ++ 3#3 ++ b ++ 0#2 ++ t ++ d ++ 91#7))
  | .bmadd d a b st => some (.word (st ++ 4#3 ++ b ++ 0#2 ++ a ++ 0#2 ++ d ++ 91#7))
  | .bmstat d a st => some (.word (st ++ 320#9 ++ a ++ d ++ 91#7))
  | .emit d a n st => some (.word (st ++ 0#7 ++ n ++ a ++ d ++ 93#7))
  | .node d c => some (.word (64#13 ++ c ++ d ++ 93#7))
  | .nodeL d c b st => some (.word (st ++ 1#3 ++ b ++ c ++ d ++ 93#7))
  | .nedge d a => some (.word (128#13 ++ a ++ d ++ 93#7))
  | .nwait d a => some (.word (192#13 ++ a ++ d ++ 93#7))
  | .grab d b => some (.word (0#7 ++ b ++ 0#6 ++ d ++ 95#7))
  | .rset d a b => some (.word (1#7 ++ b ++ a ++ d ++ 95#7))
  | .rstat d b => some (.word (2#7 ++ b ++ 0#6 ++ d ++ 95#7))
  | .burn a => some (.word (0#13 ++ a ++ 97#13))
  | .shunt d a => some (.word (64#13 ++ a ++ d ++ 97#7))
  | .rdmis d => some (.word (8192#19 ++ d ++ 97#7))
  | .dcls a => some (.word (192#13 ++ a ++ 97#13))
  | .tfeed m a b f sl _ => some (.word ((BitVec.ofBool sl) ++ (FeedFmt.enc f) ++ 0#3 ++ b ++ a ++ 0#2 ++ m ++ 99#7))
  | .tdrain d n b _ => some (.word (0#3 ++ (n.extractLsb' 6 1) ++ 0#3 ++ b ++ (n.extractLsb' 0 6) ++ d ++ 101#7))
  | .mma n m k => some (.word ((k.extractLsb' 6 2) ++ 0#1 ++ (n.extractLsb' 6 1) ++ 0#3 ++ (k.extractLsb' 0 6) ++ 0#2 ++ m ++ (n.extractLsb' 0 6) ++ 103#7))
  | .mmab n m k b => some (.word ((k.extractLsb' 0 3) ++ (n.extractLsb' 6 1) ++ 1#3 ++ b ++ (k.extractLsb' 3 2) ++ m ++ (n.extractLsb' 0 6) ++ 103#7))
  | .tzero n => some (.word (0#3 ++ (n.extractLsb' 6 1) ++ 8192#15 ++ (n.extractLsb' 0 6) ++ 103#7))
  | .tcfg d a => some (.word (192#13 ++ a ++ d ++ 103#7))
  | .accspill n a st => some (.word (0#3 ++ (n.extractLsb' 6 1) ++ 0#5 ++ st ++ a ++ (n.extractLsb' 0 6) ++ 105#7))
  | .accfill n a st => some (.word (0#3 ++ (n.extractLsb' 6 1) ++ 4#5 ++ st ++ a ++ (n.extractLsb' 0 6) ++ 105#7))
  | .accrel n c => some (.word (0#3 ++ (n.extractLsb' 6 1) ++ 2#3 ++ c ++ 0#6 ++ (n.extractLsb' 0 6) ++ 105#7))
  | .acclive d h => some (.word (3#7 ++ (0#5 ++ h) ++ 0#6 ++ d ++ 105#7))
  | .tset n wd a => some (.word (0#7 ++ (BitVec.ofNat 6 wd.val) ++ a ++ 0#2 ++ n ++ 107#7))
  | .tget d n wd => some (.word (1#7 ++ (BitVec.ofNat 6 wd.val) ++ 0#2 ++ n ++ d ++ 107#7))
  | .tcopy d a => some (.word (512#15 ++ a ++ 0#2 ++ d ++ 107#7))
  | _ => none

/-- A VPFX word (R98). -/
def Prefix.word (p : Prefix) : BitVec 32 :=
  p.pb ++ p.pa ++ p.c ++ p.rm ++ BitVec.ofBool p.z ++ p.k ++ 0x7D#7

/-- An XIMM word (R97). -/
def ximmWord (x : BitVec 25) : BitVec 32 := x ++ 0x7F#7

/-- Little-endian bytes of a word. -/
def bytes32 (w : BitVec 32) : List Byte :=
  [w.extractLsb' 0 8, w.extractLsb' 8 8, w.extractLsb' 16 8, w.extractLsb' 24 8]

/-- Little-endian bytes of a parcel or word. -/
def Code.bytes : Code → List Byte
  | .parcel h => [h.extractLsb' 0 8, h.extractLsb' 8 8]
  | .word w => bytes32 w

/-- The bytes of a sequence (R92): its prefix, its extension and its instruction. A step of the machine has none. -/
def encode (i : Instr) : List Byte :=
  match encodeUnit i with
  | none => []
  | some c =>
    (match i.pfx with | some p => bytes32 p.word | none => []) ++
    (match i.ext with | some x => bytes32 (ximmWord x) | none => []) ++ c.bytes

/-- Length of a sequence in bytes (R92). -/
def Instr.len (i : Instr) : Nat :=
  (match i.pfx with | some _ => 4 | none => 0) + (match i.ext with | some _ => 4 | none => 0) +
  (match encodeUnit i with | some (.parcel _) => 2 | some (.word _) => 4 | none => 0)

/-- The instruction behind a prefix or extension, without it, for the checks that come before check 2 of R93. -/
def plainOf : Code → Except Reject Instr
  | .parcel h => decodeCompact h
  | .word w => decodeWord w none none

/-- Checks 1 and 3 of the fields that bits alone fix (R93), after the member is known. -/
def fieldsOk (w : BitVec 32) (i : Instr) : Except Reject Instr :=
  if i.fieldsOk then .ok i else .error (.reservedMember w)

/-- A word of a sequence with what stands before it; `first` is the first word of the sequence. The lowest failing
subcode is reported (R360): an instruction that fails its own checks first, then the sequence, then the prefix. -/
def decodeUnder (first : BitVec 32) (pw : Option (BitVec 32)) (x : Option (BitVec 25)) (c : Code) :
    Except Reject Instr :=
  match c with
  | .parcel h =>
    match decodeCompact h with
    | .error e => .error e
    | .ok i => .error (.badSequence first (some i))
  | .word w =>
    if majorOf w = 0x3E ∨ majorOf w = 0x3F then .error (.badSequence first none) else
    match decodeWord w (pw.map prefixOf) x with
    | .error e => .error e
    | .ok i =>
      match fieldsOk w i with
      | .error e => .error e
      | .ok i =>
        if x.isSome ∧ ¬ takesExt (majorOf w) then .error (.badSequence first (some i)) else
        match pw with
        | none => .ok i
        | some v =>
          if ¬ takesPrefix (majorOf w) then .error (.badSequence first (some i)) else
          if (prefixUse i).allows (prefixOf v) then .ok i else .error (.badPrefix v i)

/-- One sequence (R92) and the bytes behind it. -/
def decode (bs : List Byte) : Except Reject (Instr × List Byte) :=
  match code bs with
  | none => .error .short
  | some (.parcel h, r) => (decodeCompact h).map (·, r)
  | some (.word w, r) =>
    if majorOf w = 0x3E then
      match code r with
      | none => .error .short
      | some (.word v, r2) =>
        if majorOf v = 0x3F then
          match code r2 with
          | none => .error .short
          | some (c, r3) => (decodeUnder w (some w) (some (v.extractLsb' 7 25)) c).map (·, r3)
        else (decodeUnder w (some w) none (.word v)).map (·, r2)
      | some (c, r2) => (decodeUnder w (some w) none c).map (·, r2)
    else if majorOf w = 0x3F then
      match code r with
      | none => .error .short
      | some (c, r2) => (decodeUnder w none (some (w.extractLsb' 7 25)) c).map (·, r2)
    else ((decodeWord w none none).bind (fieldsOk w)).map (·, r)

/-- The instruction the decoder reads from an instruction whose bits are `w` (bit 0 the least significant bit of the
first word), with zeros above its `nbits` bits. Log 15 (DEDUCED), 16 (DEDUCED). -/
def decodeTableWord (nbits w : Nat) : Option Instr :=
  match decode ((List.range (nbits / 8)).map (fun k => BitVec.ofNat 8 (w / 256 ^ k)) ++ List.replicate 12 0#8) with
  | .ok (i, _) => some i
  | .error _ => none

end

end Sys2Proof
end

