-- ==== Sys2Proof/Machine/Special.lean ====
section
/-!
DEFINITION. The special functions of VSFU, correctly rounded (spec/09_isa_vector.md R140, R141). RCP, SQRT and RSQ round an
exact quotient or root with a sticky bit. The transcendental functions are evaluated in fixed point of `p` fraction bits, with
an error below 2^16 units of the last place; where the two ends of that error round apart, `p` doubles (log 10).
-/

namespace Sys2Proof.Machine

/-- An inexact magnitude close above k × 2^e, rounded. -/
def stickyUp (rm : Rnd) (ftz neg : Bool) (k : Nat) (e : Int) : Nat × FFlags := fp32.round rm ftz neg (2 * k + 1) (e - 1)
/-- An inexact magnitude close below k × 2^e, by less than 2^−60 of it. -/
def stickyDown (rm : Rnd) (ftz neg : Bool) (k : Nat) (e : Int) : Nat × FFlags :=
  fp32.round rm ftz neg (k * 2 ^ 60 - 1) (e - 60)

/-- floor(√n), bit by bit from bit `b` − 1 down. -/
def rootBits (n r : Nat) : Nat → Nat
  | 0 => r
  | b + 1 => rootBits n (if (r + 2 ^ b) * (r + 2 ^ b) ≤ n then r + 2 ^ b else r) b

/-- 1 ÷ (m × 2^e). -/
def rcpR (rm : Rnd) (ftz neg : Bool) (m : Nat) (e : Int) : Nat × FFlags :=
  let q := 2 ^ 80 / m
  if 2 ^ 80 % m = 0 then fp32.round rm ftz neg q (-e - 80) else stickyUp rm ftz neg q (-e - 80)
/-- √(m × 2^e). -/
def sqrtR (rm : Rnd) (ftz : Bool) (m : Nat) (e : Int) : Nat × FFlags :=
  let (m, e) := if e % 2 = 0 then (m, e) else (2 * m, e - 1)
  let n := m * 2 ^ 64
  let r := rootBits n 0 48
  if r * r = n then fp32.round rm ftz false r (e / 2 - 32) else stickyUp rm ftz false r (e / 2 - 32)
/-- 1 ÷ √(m × 2^e). -/
def rsqR (rm : Rnd) (ftz : Bool) (m : Nat) (e : Int) : Nat × FFlags :=
  let (m, e) := if e % 2 = 0 then (m, e) else (2 * m, e - 1)
  let r := rootBits (2 ^ 120 / m) 0 61
  if r * r * m = 2 ^ 120 then fp32.round rm ftz false r (-(e / 2) - 60) else stickyUp rm ftz false r (-(e / 2) - 60)

/-- Σ over k of x^(2k+1) ÷ (2k+1), or with alternating signs, of a power series from a term on (fixed point). -/
def oddSum (alt : Bool) (sq den : Nat) (fuel k : Nat) (t : Nat) : Int :=
  match fuel with
  | 0 => 0
  | f + 1 =>
    if t = 0 then 0
    else
      let x : Int := t / (2 * k + 1)
      (if alt && k % 2 = 1 then -x else x) + oddSum alt sq den f (k + 1) (t * sq / den)
/-- atan(1 ÷ n) at `p` bits. -/
def atanInv (n p : Nat) : Int := oddSum true 1 (n * n) p 0 (2 ^ p / n)
/-- π at `p` bits (Machin). -/
def piFix (p : Nat) : Nat := (16 * atanInv 5 p - 4 * atanInv 239 p).toNat
/-- ln 2 at `p` bits: 2 atanh(1/3). -/
def ln2Fix (p : Nat) : Nat := (2 * oddSum false 1 9 p 0 (2 ^ p / 3)).toNat
/-- exp(r) for 0 ≤ r < 1 at `p` bits: the sum of the terms from `t` on. -/
def expSum (r p : Nat) (fuel k t : Nat) : Nat :=
  match fuel with
  | 0 => 0
  | f + 1 => if t = 0 then 0 else t + expSum r p f (k + 1) (t * r / 2 ^ p / (k + 1))
def expFix (r p : Nat) : Nat := expSum r p p 0 (2 ^ p)
/-- Alternating Taylor sum of sine (from k = 1) or cosine (from k = 0) in steps of two. -/
def trigSum (r p : Nat) (fuel k : Nat) (neg : Bool) (t : Nat) : Int :=
  match fuel with
  | 0 => 0
  | f + 1 =>
    if t = 0 then 0
    else (if neg then -(t : Int) else t) + trigSum r p f (k + 2) (!neg) (t * r / 2 ^ p * r / 2 ^ p / ((k + 1) * (k + 2)))
def sinFix (r p : Nat) : Nat := (trigSum r p p 1 false r).toNat
def cosFix (r p : Nat) : Nat := (trigSum r p p 0 false (2 ^ p)).toNat

/-- A magnitude f(p) ÷ 2^p × 2^e that is irrational, rounded once: the precision doubles until the error bound rounds one
way. -/
def zivRound (rm : Rnd) (ftz : Bool) (neg : Bool) (e : Int) (f : Nat → Nat) (p : Nat) : Nat → Nat × FFlags
  | 0 => stickyUp rm ftz neg (f p) (e - p)
  | fuel + 1 =>
    let q := f p
    let lo := stickyUp rm ftz neg (q - 65536) (e - p)
    let hi := stickyUp rm ftz neg (q + 65536) (e - p)
    if lo = hi then lo else zivRound rm ftz neg e f (2 * p) fuel

/-- m × 2^e at `p` bits, for a value the bits hold. -/
def fixOf (m : Nat) (e : Int) (p : Nat) : Nat := if 0 ≤ e + p then m * 2 ^ (e + p).toNat else m / 2 ^ (-(e + p)).toNat
/-- Whether m × 2^e lies below 2^t. -/
def below (m : Nat) (e t : Int) : Bool := decide (e + (Nat.log2 m : Int) < t)

/-- 2^(±m × 2^e), the argument not zero. -/
def ex2R (rm : Rnd) (ftz neg : Bool) (m : Nat) (e : Int) : Nat × FFlags :=
  if below m e (-30) then (if neg then stickyDown rm ftz false 1 0 else stickyUp rm ftz false (2 ^ 40) (-40))
  else if !below m e 10 then stickyUp rm ftz false 1 (if neg then -1000 else 1000)
  else
    let x := fixOf m e 60
    let n : Int := if neg then -((x + 2 ^ 60 - 1) / 2 ^ 60 : Nat) else (x / 2 ^ 60 : Nat)
    let fr := if neg then (2 ^ 60 - x % 2 ^ 60) % 2 ^ 60 else x % 2 ^ 60
    if fr = 0 then fp32.round rm ftz false 1 n
    else zivRound rm ftz false n (fun p => expFix (fr * ln2Fix p / 2 ^ 60) p) 160 4

/-- log2(m × 2^e): powers of two are exact; else k plus the logarithm of a significand between 3/4 and 3/2. -/
def lg2R (rm : Rnd) (ftz : Bool) (m : Nat) (e : Int) : Nat × FFlags :=
  let top := Nat.log2 m
  let k : Int := e + top
  if m = 2 ^ top then (if k = 0 then (0, 0) else fp32.round rm ftz (decide (k < 0)) k.natAbs 0)
  else
    let up := 3 * 2 ^ top < 2 * m
    let k := if up then k + 1 else k
    let den : Nat := if up then 2 ^ (top + 1) else 2 ^ top
    let f := fun (p : Nat) =>
      let d : Int := (m : Int) - den
      let z : Nat := d.natAbs * 2 ^ p / (m + den)
      let ln := oddSum false (z * z / 2 ^ p) (2 ^ p) p 0 z
      let lg := 2 * ln * 2 ^ p / (ln2Fix p : Int)
      k * 2 ^ p + if d < 0 then -lg else lg
    zivRound rm ftz (decide (f 160 < 0)) 0 (fun p => (f p).natAbs) 160 4

/-- The argument m × 2^e less a multiple of π ÷ 2, at `p` bits, with the multiple modulo 4. -/
def reduce (m : Nat) (e : Int) (p : Nat) : Nat × Nat :=
  let w := p + 170
  let half := piFix w / 2
  let x := fixOf m e w
  (x % half / 2 ^ 170, x / half % 4)
/-- sin or cos of m × 2^e, the argument not zero; `shift` 1 makes it the cosine. -/
def trigR (rm : Rnd) (ftz neg : Bool) (shift m : Nat) (e : Int) : Nat × FFlags :=
  if below m e (-13) then
    (if shift = 0 then stickyDown rm ftz neg m e else stickyDown rm ftz false 1 0)
  else
    let n := ((reduce m e 160).2 + shift) % 4
    zivRound rm ftz ((2 ≤ n) != (neg && shift = 0)) 0 (fun p =>
      let (r, _) := reduce m e p
      if n % 2 = 0 then sinFix r p else cosFix r p) 160 4
/-- tanh(±m × 2^e), the argument not zero. -/
def tanhR (rm : Rnd) (ftz neg : Bool) (m : Nat) (e : Int) : Nat × FFlags :=
  if below m e (-13) then stickyDown rm ftz neg m e
  else if !below m e 4 then stickyDown rm ftz neg 1 0
  else zivRound rm ftz neg 0 (fun p =>
    let sq := fun (y : Nat) => y * y / 2 ^ p
    let ex := sq (sq (sq (sq (sq (sq (expFix (fixOf m e p / 32) p))))))
    (ex - 2 ^ p) * 2 ^ p / (ex + 2 ^ p)) 160 4

/-- The eight members (R140). -/
inductive Sfu where
  | rcp | rsq | sqrt | ex2 | lg2 | sin | cos | tanh
deriving DecidableEq, Repr

/-- A member at an FP32 operand: the special operands of R141, else the rounded exact value. Log 10 (DEDUCED). -/
def sfu (f : Sfu) (rm : Rnd) (ftz : Bool) (x : Nat) : Nat × FFlags :=
  let one := 0x3F800000
  match fp32.val ftz x with
  | .nan s => (fp32.nan, if s then flagNV else 0)
  | .inf n => match f with
    | .rcp => (fp32.zero n, 0)
    | .rsq => if n then (fp32.nan, flagNV) else (0, 0)
    | .sqrt => if n then (fp32.nan, flagNV) else (fp32.inf false, 0)
    | .ex2 => if n then (0, 0) else (fp32.inf false, 0)
    | .lg2 => if n then (fp32.nan, flagNV) else (fp32.inf false, 0)
    | .sin => (fp32.nan, flagNV)
    | .cos => (fp32.nan, flagNV)
    | .tanh => (one + fp32.zero n, 0)
  | .num n m e =>
    if m = 0 then match f with
      | .rcp => (fp32.inf n, flagDZ)
      | .rsq => (fp32.inf n, flagDZ)
      | .sqrt => (fp32.zero n, 0)
      | .ex2 => (one, 0)
      | .lg2 => (fp32.inf true, flagDZ)
      | .sin => (fp32.zero n, 0)
      | .cos => (one, 0)
      | .tanh => (fp32.zero n, 0)
    else match f with
      | .rcp => rcpR rm ftz n m e
      | .rsq => if n then (fp32.nan, flagNV) else rsqR rm ftz m e
      | .sqrt => if n then (fp32.nan, flagNV) else sqrtR rm ftz m e
      | .ex2 => ex2R rm ftz n m e
      | .lg2 => if n then (fp32.nan, flagNV) else lg2R rm ftz m e
      | .sin => trigR rm ftz n 0 m e
      | .cos => trigR rm ftz n 1 m e
      | .tanh => tanhR rm ftz n m e

end Sys2Proof.Machine
end

