-- ==== Sys2Proof/Machine/Merge.lean ====
section
/-!
DEFINITION. The bounded-influence merge (spec/14_isa_collectives.md R216 to R222; spec/31_errors_engines.md R390): merge records,
slots, the six BMRG members and the commits of a die's merge unit.
-/

namespace Sys2Proof.Machine

/-! ### Arithmetic -/

/-- x ÷ y rounded once, without flags (R219). -/
def divF (x y : Nat) : Nat :=
  match fp32.val false x, fp32.val false y with
  | .num a m e, .num b n d =>
    if n = 0 then (if m = 0 then fp32.nan else fp32.inf (a != b))
    else if m = 0 then fp32.zero (a != b)
    else
      let q := m * 2 ^ 64 / n
      (fp32.round .ne false (a != b) (2 * q + if m * 2 ^ 64 % n = 0 then 0 else 1) (e - d - 65)).1
  | .inf a, .num b _ _ => fp32.inf (a != b)
  | .num a _ _, .inf b => fp32.zero (a != b)
  | _, _ => fp32.nan
/-- √x rounded once. -/
def rootF (x : Nat) : Nat := (sfu .sqrt .ne false x).1
/-- A running sum of squares over elements, one fused step each (R219). -/
def sumSq (acc : Nat) (xs : List Lane) : Nat :=
  xs.foldl (fun acc x => (fp32.fmaV .ne false (fp32.val false x.toNat) (fp32.val false x.toNat) (fp32.val false acc)).1) acc
/-- A finite number. -/
def finiteF (x : Nat) : Bool := match fp32.val false x with
  | .num .. => true
  | _ => false
/-- x ≤ y. -/
def leF (x y : Nat) : Bool :=
  ltV (fp32.val false x) (fp32.val false y) || eqV (fp32.val false x) (fp32.val false y)
def oneF : Nat := 0x3F800000
/-- The scale for a norm under a limit (R219). -/
def scaleF (norm limit : Nat) : Nat := if leF norm limit then oneF else divF limit norm
/-- RoundF32(total + RoundF32(x × scale)) (R220). -/
def addScaled (total x scale : Nat) : Nat :=
  (fp32.addV .ne false (fp32.val false total)
    (fp32.val false (fp32.mulV .ne false (fp32.val false x) (fp32.val false scale)).1)).1

/-! ### Records and slots -/

/-- Fields of a merge record (R216). -/
def mrTotal (r : List Byte) : Nat := field r 0 8
def mrLimit (r : List Byte) : Nat := field r 8 4
def mrCont (r : List Byte) : Nat := field r 0xC 2
def mrTile (r : List Byte) : Nat := field r 0xE 2
def mrNext (r : List Byte) : Nat := field r 0x18 4
def mrRejected (r : List Byte) : Nat := field r 0x1C 4
def mrDie (r : List Byte) : Nat := field r 0x20 1 % 4
/-- A record keeps R216. Log 71 (DEDUCED). -/
def mergeOk (va : Nat) (r : List Byte) : Bool :=
  va % 64 = 0 && mrTotal r % 16 = 0 && finiteF (mrLimit r) && (!(mrLimit r).testBit 31 || mrLimit r = 2 ^ 31) &&
    decide (1 ≤ mrCont r) && decide (mrCont r ≤ 4096) && decide (1 ≤ mrTile r) && decide (mrTile r ≤ 512) &&
    decide (field r 0x20 1 < 4) && (r.drop 0x21).all (· == 0)

/-- Where contributor i of a merge stands (R219, R390). -/
inductive Contrib where
  | pending | opened (slot : Nat) | closed | committed
deriving DecidableEq, Repr

def Slot.mine (x : Slot) (vi : BitVec 8) (asid : BitVec 16) (va : Word) (i : Nat) : Bool :=
  x.vi == vi && x.asid == asid && x.record == va && x.index == i
def Absent.mine (x : Absent) (vi : BitVec 8) (asid : BitVec 16) (va : Word) (i : Nat) : Bool :=
  x.vi == vi && x.asid == asid && x.record == va && x.index == i
/-- The slot that a contributor holds. -/
def State.slotOf (s : State) (die : Nat) (vi : BitVec 8) (asid : BitVec 16) (va : Word) (i : Nat) : Option (Nat × Slot) :=
  (s.die die).slots.find? (fun p => p.2.mine vi asid va i)
def State.contrib (s : State) (vi : BitVec 8) (asid : BitVec 16) (va : Word) (r : List Byte) (i : Nat) : Contrib :=
  if i < mrNext r then .committed
  else match s.slotOf (mrDie r) vi asid va i with
    | some (j, x) => if x.closed then .closed else .opened j
    | none => if (s.die (mrDie r)).absent.any (fun x => x.mine vi asid va i) then .closed else .pending
/-- Free slots of a die, ascending (R217). -/
def Die.freeSlots (d : Die) : List Nat := (List.range d.nslot).filter (fun j => (tabFind d.slots j).isNone)
/-- The handle of a slot (R218). -/
def slotHandle (die j : Nat) : Word := BitVec.ofNat 64 (j + 0x100 * die)
def State.setSlot (s : State) (die j : Nat) (x : Slot) : State := s.modDie die (fun d => { d with slots := tabPut d.slots j x })
/-- A slot that holds zeros, granted or reopened (R219). -/
def newSlot (vi : BitVec 8) (asid : BitVec 16) (va : Word) (i : Nat) : Slot :=
  { vi := vi, asid := asid, record := va, index := i, closed := false, poison := false, tiles := [] }

/-- A record of the merge unit (R355, R390). -/
def State.mergeReport (s : State) (die : Nat) (vi : BitVec 8) (asid : BitVec 16) (code : Nat) (va : Word) (name : List Byte) :
    State :=
  s.report 6 1 (unitWord 5 die) (vi, asid) va.toNat 0 1 code name

/-- BMOPEN at the unit: the state and the answer (R217, R219, R390). -/
def State.mergeOpen (s : State) (a : Agent) (va : Word) (r : List Byte) (i : Nat) : State × Word :=
  let (vi, asid) := s.ctxOf a
  let die := mrDie r
  let refused := fun (code : Nat) => (s.mergeReport die vi asid code va (s.joined a), (1 : Word) <<< 62)
  let free := (s.die die).freeSlots
  let grant := fun (j : Nat) => (s.setSlot die j (newSlot vi asid va i), slotHandle die j)
  if !mergeOk va.toNat r then refused 0x65
  else if (s.die die).nslot = 0 || mrCont r ≤ i then refused 0x64
  else match s.contrib vi asid va r i with
    | .committed => refused 0x64
    | .closed => refused 0x64
    | .opened j => grant j
    | .pending =>
      match free with
      | [] => (s, (1 : Word) <<< 63)
      | j :: rest =>
        if i = mrNext r || rest != [] || (s.slotOf die vi asid va (mrNext r)).isSome then grant j else (s, (1 : Word) <<< 63)
/-- BMCLOSE at the unit: the state and the status (R219, R390). -/
def State.mergeClose (s : State) (a : Agent) (va : Word) (r : List Byte) (i : Nat) (absent : Bool) : State × Word :=
  let (vi, asid) := s.ctxOf a
  let die := mrDie r
  let no := fun (code : Nat) (v : Word) => (s.mergeReport die vi asid code va (s.joined a), v)
  let commit := fun (s : State) => match die with
    | 0 => s.later 1 (.mergeCommit 0)
    | 1 => s.later 1 (.mergeCommit 1)
    | 2 => s.later 1 (.mergeCommit 2)
    | _ => s.later 1 (.mergeCommit 3)
  let gone := fun (s : State) => s.modDie die (fun d => { d with
    slots := d.slots.filter (fun p => !p.2.mine vi asid va i)
    absent := d.absent ++ [{ asid := asid, record := va, index := i, vi := vi }] })
  if !mergeOk va.toNat r then no 0x65 3
  else if mrCont r ≤ i then no 0x64 4
  else match s.contrib vi asid va r i with
    | .committed => no 0x63 2
    | .closed => no 0x63 2
    | .pending => if absent then (commit (gone s), 0) else no 0x63 1
    | .opened j =>
      if absent then (commit (gone s), 0)
      else (commit (s.modDie die (fun d => { d with slots := tabMod d.slots j (fun x => { x with closed := true }) })), 0)

/-! ### Members -/

/-- What the members that read a record need (R218). -/
def bmNeed (d a : SReg) (b : List Nat) (st : StreamNo) : Need :=
  { src := a.toNat :: b, dst := [d.toNat], ctl := false, kind := .async, waits := acqWaits st }
/-- An engine issue that reads the record at `va`: it waits for a slot and for the earlier accesses of its stream, then the edge
of R191 and the record. -/
def bmRecord (c : Ctx) (s : State) (st : StreamNo) (va : Word) (go : State → List Byte → Act) : Act :=
  engineHere c s st [(va.toNat, 64)] (fun e t => loadFate c t va.toNat (t.readFor e.wg c.a none e.vi e.asid va.toNat 64) go)
/-- The split waits for the unit's answer, charged to ASYNC, at a clk that no rule fixes (R218, R221). -/
def bmAnswer (c : Ctx) (s : State) (out : List (SReg × Word)) : Act :=
  .jump (s.waitIn c.a c.next (.answer (s.clk + 1 + s.delay) out)).spend c.pc
/-- The answer has come: its registers are written, and the split goes on. -/
def State.takeAnswer (s : State) (a : Agent) (out : List (SReg × Word)) : State :=
  if !s.roomFor a (portsOf (out.map (·.1.toNat))) then s
  else (out.foldl (fun s p => s.sset a p.1.toNat p.2) s).endWait a

/-- BMOPEN (R217 to R219, R390). -/
def execBmopen (d a b : SReg) (st : StreamNo) (s : State) : Host.Outcome State Fault Refusal :=
  issue (bmNeed d a [b.toNat] st) (fun c s =>
    let va := c.get s a.toNat
    bmRecord c s st va (fun t r =>
      let (t, v) := t.mergeOpen c.a va r ((c.get s b.toNat).toNat % 4096)
      bmAnswer c t [(d, v)])) s

/-- Stages of an agent that have not reached a slot yet (R219). -/
def State.stagesOf (s : State) (a : Agent) (die j : Nat) : Bool :=
  s.engines.any (fun p => p.2.agent == a && match p.2.op with
    | .stage h _ => bits h.toNat 8 2 == die && h.toNat % 16 == j
    | _ => false)
/-- BMCLOSE (R219, R390). Log 73 (DEDUCED). -/
def bmcloseNeed (d a b : SReg) (st : StreamNo) (s : State) : Need := { bmNeed d a [b.toNat] st with lat := 1 + s.delay }
def execBmclose (d a b : SReg) (st : StreamNo) (s : State) : Host.Outcome State Fault Refusal :=
  issue (bmcloseNeed d a b st s) (fun c s =>
    let va := c.get s a.toNat
    let v := c.get s b.toNat
    let i := v.toNat % 4096
    let (vi, asid) := s.ctxOf c.a
    bmRecord c s st va (fun t r =>
      let staging := match t.slotOf (mrDie r) vi asid va i with
        | some (j, _) => t.stagesOf c.a (mrDie r) j
        | none => false
      if staging then .wait .async
      else
        let (t, x) := t.mergeClose c.a va r i (v.getLsbD 63)
        .done (t.spend.sset c.a d.toNat x))) s

/-- A tile that the merge reads: 32 × 32, FP32 or BF16, a tensor side in memory (R219, R364). -/
def mergeTileBad (ws : List Word) : Option Word :=
  let d := descOf ws
  match descBad ws false with
  | some w => some w
  | none => if d.rows != 32 || d.cols != 32 then some (ws.getD 2 0) else if 2 ≤ d.fmt then some (ws.getD 3 0) else none
/-- BMSTAGE (R218, R219, R390). -/
def bmstageNeed (t : TReg) (a : SReg) (n : BarNo) : Need :=
  { tdmaNeed n [t.toNat] (fun s g => mergeTileBad (s.tget g t.toNat)) with src := [a.toNat], ctl := false }
def execBmstage (t : TReg) (a : SReg) (n : BarNo) (st : StreamNo) (s : State) : Host.Outcome State Fault Refusal :=
  issue (bmstageNeed t a n) (fun c s =>
    forkBody c s st (some n.toNat) (fun _ => 4096) (.stage (c.get s a.toNat) (s.tget c.a t.toNat))) s

/-- The trap a load would take for an engine's failure (R382, R390). -/
def loadTrap (s : State) (c : Ctx) (code : Nat) : BitVec 8 :=
  let (vi, asid) := s.ctxOf c.a
  if code = 0x50 then 0x03
  else if code = 0x51 then 0x04
  else if code = 0x53 then 0x07
  else if code = 0x54 then (if s.popt vi asid then 0x10 else 0x08)
  else 0x06
/-- Work of a member that its split waits for: performed whole, or the trap or park of a load (R221, R390). -/
def bmWork (c : Ctx) (s : State) (st : StreamNo) (spans : List (Nat × Nat)) (work : Engine → State → Work)
    (go : State → Act) : Act :=
  let (vi, asid) := s.ctxOf c.a
  engineHere c s st spans (fun e t =>
    let g := work e t
    match g.flt, g.err with
    | some (va, stg, ipa, p, write), _ =>
      let (t, tok) := s.raise vi asid va stg ipa ((if write then 2 else 1) + if p then 16 else 0) (s.joined c.a) (.agent c.a)
      .park t 0 tok
    | none, some (code, va) =>
      if loadTrap s c code = 0x06 then .trapAnd (fun s => s.malformedAt c.a vi asid va) 0x06 (BitVec.ofNat 64 va)
      else .trap (loadTrap s c code) (BitVec.ofNat 64 va)
    | none, none => go g.s)

/-- BMNORM (R219, R221): the tile is read at the issue. Log 74 (DEDUCED). -/
def bmnormNeed (d : SReg) (t : TReg) (b : SReg) (st : StreamNo) : Need :=
  { src := [b.toNat]
    dst := [d.toNat, d.toNat + 1]
    even := [d.toNat]
    ctl := false
    kind := .async
    tsrc := [t.toNat]
    pre := fun s a => wordTrap (mergeTileBad (s.tget a t.toNat))
    waits := acqWaits st }
def execBmnorm (d : SReg) (t : TReg) (b : SReg) (st : StreamNo) (s : State) : Host.Outcome State Fault Refusal :=
  issue (bmnormNeed d t b st) (fun c s =>
    let v := c.get s b.toNat
    let ws := s.tget c.a t.toNat
    let dsc := descOf ws
    let read := fun (e : Engine) (s : State) =>
      ((Work.start s).aligned (descAlign dsc.fmt) dsc.rowAddrs).mergeTile e dsc
    let e := { Engine.start c.a (s.ctxOf c.a) (s.wgOf c.a) (.binrst 0) st.toNat (s.stream c.a st.toNat) s.clk with
      spans := dsc.tensorRuns }
    let xs := (read e (s.engineEdge e dsc.tensorRuns)).2.1
    bmWork c s st dsc.tensorRuns (fun e s => (read e s).1) (fun t =>
      let limit := v.toNat / 2 ^ 32
      let sq := sumSq (v.toNat % 2 ^ 32) xs
      let norm := rootF sq
      let scale := if finiteF norm then scaleF norm limit else fp32.nan
      bmAnswer c t [(d, BitVec.ofNat 64 (limit * 2 ^ 32 + sq)), (d + 1, BitVec.ofNat 64 (norm * 2 ^ 32 + scale))])) s

/-- The total of a BMADD: an FP32 tensor side of the source's ROWS and COLS (R221). -/
def addBad (dst src : List Word) : Option Word :=
  match mergeTileBad src with
  | some w => some w
  | none =>
    match descBad dst false with
    | some w => some w
    | none =>
      if (descOf dst).rows != (descOf src).rows || (descOf dst).cols != (descOf src).cols then some (dst.getD 2 0)
      else if (descOf dst).fmt != 0 then some (dst.getD 3 0)
      else none
/-- The additions of a BMADD, element by element, in bounds only (R220, R221). -/
def addWork (e : Engine) (dst src : List Word) (scale : Nat) (s : State) : Work :=
  let d := descOf dst
  let t := descOf src
  let g := ((Work.start s).aligned (descAlign t.fmt) t.rowAddrs).aligned 4 d.rowAddrs
  let (g, xs, _) := g.mergeTile e t
  (List.range 1024).foldl (fun g i =>
    let (va, in_) := d.tensor (i / 32) (i % 32)
    if !in_ then g
    else
      let (g, bs, bad) := g.read e none va 4
      g.write e none va (toBytes (addScaled (ofBytes bs) (xs.getD i 0).toNat scale) 4) bad) g
/-- BMADD (R221). -/
def bmaddNeed (d a : TReg) (b : SReg) (st : StreamNo) : Need :=
  { src := [b.toNat]
    ctl := false
    tsrc := [d.toNat, a.toNat]
    pre := fun s g => wordTrap (addBad (s.tget g d.toNat) (s.tget g a.toNat))
    waits := acqWaits st }
def execBmadd (d a : TReg) (b : SReg) (st : StreamNo) (s : State) : Host.Outcome State Fault Refusal :=
  issue (bmaddNeed d a b st) (fun c s =>
    let dst := s.tget c.a d.toNat
    let src := s.tget c.a a.toNat
    let scale := (c.get s b.toNat).toNat % 2 ^ 32
    bmWork c s st ((descOf dst).tensorRuns ++ (descOf src).tensorRuns) (fun e s => addWork e dst src scale s) (fun t => bmAnswer c t [])) s

/-- BMSTAT (R222). -/
def bmstatNeed (d a : SReg) (st : StreamNo) (s : State) : Need := { bmNeed d a [] st with lat := 1 + s.delay }
def execBmstat (d a : SReg) (st : StreamNo) (s : State) : Host.Outcome State Fault Refusal :=
  issue (bmstatNeed d a st s) (fun c s =>
    bmRecord c s st (c.get s a.toNat) (fun t r =>
      let free := (t.die (mrDie r)).freeSlots.length
      .done (t.spend.sset c.a d.toNat
        (BitVec.ofNat 64 (free * 2 ^ 32 + mrRejected r % 8192 * 2 ^ 16 + mrNext r % 8192))))) s

/-! ### Commits -/

/-- A contributor that waits to commit: its merge, its index, and its slot unless it is absent. -/
structure Ready where
  vi : BitVec 8
  asid : BitVec 16
  va : Word
  index : Nat
  slot : Option (Nat × Slot)

def Die.ready (d : Die) : List Ready :=
  (d.slots.filter (fun p => p.2.closed)).map (fun p =>
    { vi := p.2.vi, asid := p.2.asid, va := p.2.record, index := p.2.index, slot := some p }) ++
    d.absent.map (fun x => { vi := x.vi, asid := x.asid, va := x.record, index := x.index, slot := none })

/-- The sectors of a slot added to TOTAL at its home, in position order; a poisoned sector stays poisoned (R220, R373, R390). -/
def addSlot (e : Engine) (r : List Byte) (x : Slot) (scale : Nat) (s : State) : Work :=
  (List.range (256 * mrTile r)).foldl (fun g i =>
    let tile := tabGet x.tiles (i / 256) zeroTile
    let va := mrTotal r + 16 * i
    let (g, bs, bad) := g.read e none va 16
    let new := (List.range 4).flatMap (fun j =>
      toBytes (addScaled (field bs (4 * j) 4) (tile.getD (4 * (i % 256) + j) 0).toNat scale) 4)
    g.write e none va new bad) (Work.start s)

/-- A commit of one contributor (R220, R390): the state after it, or the fault it waits on. A merge whose memory the unit may not
reach stays as it is. Log 72 (DEDUCED). -/
def State.commitOne (s : State) (die : Nat) (x : Ready) (r : List Byte) : State × Option (Nat × Nat × Nat × Bool × Bool) :=
  let e := Engine.start .device (x.vi, x.asid) none (.binrst x.va) 0 (Stream.ofBits 0) s.clk
  let tiles := match x.slot with
    | some (_, y) => (List.range (mrTile r)).map (fun p => tabGet y.tiles p zeroTile)
    | none => []
  let norm := rootF (tiles.foldl sumSq 0)
  let bad := match x.slot with
    | some (_, y) => y.poison
    | none => false
  let (state, g) := match x.slot with
    | none => (4, Work.start s)
    | some (_, y) =>
      if bad || !finiteF norm then (3, Work.start (s.mergeReport die x.vi x.asid (if bad then 0x61 else 0x60) x.va noName))
      else
        let scale := scaleF norm (mrLimit r)
        (if scale = oneF then 1 else 2, addSlot e r y scale s)
  let rej := mrRejected r + if state = 3 then 1 else 0
  let va := x.va.toNat
  let g := g.write e none (va + 0x40 + 8 * x.index)
    (toBytes ((if x.slot.isSome then norm else 0) + state * 2 ^ 32) 8) false
  let g := g.write e none (va + 0x18) (toBytes ((mrNext r + 1) % 2 ^ 32) 4 ++ toBytes (rej % 2 ^ 32) 4) false
  let g := g.write e none (va + 0x10) (toBytes ((field r 0x10 8 + 1) % 2 ^ 64) 8) false
  match g.flt with
  | some f => (s, some f)
  | none =>
    if g.stop then (s, none)
    else (g.s.modDie die (fun d => { d with
        slots := match x.slot with
          | some (j, _) => tabDel d.slots j
          | none => d.slots
        absent := if x.slot.isSome then d.absent else d.absent.filter (fun y => !y.mine x.vi x.asid x.va x.index) }), none)

/-- Commits of a die's merge unit, until none is at its merge's NEXT (R220). -/
def State.commitAll (s : State) (die : Fin 4) : Nat → State
  | 0 => s
  | f + 1 =>
    let fault := fun (s : State) (x : Ready) (va st ipa : Nat) (p write : Bool) =>
      (s.raise x.vi x.asid va st ipa (8 + (if write then 2 else 1) + if p then 16 else 0) noName (.step (.mergeCommit die))).1
    let next := (s.die die).ready.filterMap (fun x => match s.readHome x.vi x.asid x.va.toNat 64 with
      | .ok _ (r, _) => if mrNext r = x.index && mergeOk x.va.toNat r then some (x, r) else none
      | _ => none)
    let out := (s.die die).ready.foldl (fun s x => match s.readHome x.vi x.asid x.va.toNat 64 with
      | .fault va st ipa p => fault s x va st ipa p false
      | _ => s) s
    match next with
    | [] => out
    | (x, r) :: _ =>
      match s.commitOne die x r with
      | (s, some (va, st, ipa, p, write)) => fault s x va st ipa p write
      | (t, none) => if (t.die die).ready.length < (s.die die).ready.length then t.commitAll die f else t
/-- MERGE_COMMIT (R220, R390). -/
def execMergeCommit (die : Fin 4) (s : State) : Host.Outcome State Fault Refusal :=
  .next (s.commitAll die ((s.die die).ready.length + 1))

end Sys2Proof.Machine
end

