-- ==== Sys2Proof/Machine/Collective.lean ====
section
/-!
DEFINITION. The collectives (spec/14_isa_collectives.md R208 to R214; spec/31_errors_engines.md R388, R389): their issue by every
group of a workgroup, the driver's steps, and its abort.
-/

namespace Sys2Proof.Machine

/-! ### Communicators -/

/-- Fields of a communicator record (R208). -/
def crP (r : List Byte) : Nat := field r 0 4
def crRank (r : List Byte) : Nat := field r 4 4
def crNext (r : List Byte) : Nat := field r 8 8
def crStage (r : List Byte) : Nat := field r 0x10 8
def crArrive (r : List Byte) : Nat := field r 0x18 8
def crSeq (r : List Byte) : Nat := field r 0x20 8
def crRows (r : List Byte) : Nat := field r 0x28 4
def crRoot (r : List Byte) : Nat := field r 0x2C 4
def crHand (r : List Byte) : Option Nat := if 128 ≤ field r 0x30 1 then some (field r 0x30 1 % 16) else none

/-- Members of the op field (R210): 0 ALLRED, 1 REDSC, 2 ALLGAT, 3 BCAST. -/
def Coll.reduces (q : Coll) : Bool := q.op.toNat < 2
def Coll.gathers (q : Coll) : Bool := q.op != 1
def Coll.p (q : Coll) : Nat := crP q.record
def Coll.rank (q : Coll) : Nat := crRank q.record
/-- Ring position of chunk c from rank h (R209). -/
def Coll.pos_ (q : Coll) (h : Nat) : Nat := (q.rank + q.p - h % q.p) % q.p
/-- o(c), f(c), and the head of a chunk's gather (R209, R212). -/
def Coll.owner (q : Coll) (c : Nat) : Nat := c % q.p
def Coll.last (q : Coll) (c : Nat) : Nat := (c % q.p + q.p - 1) % q.p
def Coll.head (q : Coll) (c : Nat) : Nat := if q.op = 0 then q.last c else if q.op = 2 then q.owner c else crRoot q.record
/-- The driver's steps in order (R212): 0 the addition of a chunk, 1 the send of its STAGE, 2 its gather wait, 3 the send of its
buffer. -/
def Coll.steps (q : Coll) : List (Nat × Nat) :=
  let cs := List.range q.chunks
  (if q.reduces then cs.flatMap (fun c => (0, c) :: if q.pos_ (q.owner c) + 1 < q.p then [(1, c)] else []) else []) ++
    if q.gathers then cs.flatMap (fun c => (2, c) :: if q.pos_ (q.head c) + 1 < q.p then [(3, c)] else []) else []
/-- A step of a kind on a chunk has been taken. -/
def Coll.did (q : Coll) (kind c : Nat) : Bool := (q.steps.take q.pos).contains (kind, c)
/-- Tile rows of a chunk (R209). -/
def Coll.rows (q : Coll) (c : Nat) : List Nat :=
  let n := crRows q.record
  (List.range (Nat.min n ((descOf q.tile).rows - n * c))).map (fun i => n * c + i)
/-- The reduce counter (0) and the gather counter (1) of a chunk (R208). -/
def Coll.counter (q : Coll) (c which : Nat) : Nat := (crArrive q.record + 16 * c + 8 * which) % 2 ^ 64
/-- A row of the staging area (R208). -/
def Coll.stageRow (q : Coll) (y : Nat) : Nat := (crStage q.record + 4 * (descOf q.tile).cols * y) % 2 ^ 64
def Coll.rowBytes (q : Coll) : Nat := (descOf q.tile).units * descUnit (descOf q.tile).fmt

/-- The engine of a collective, as its accesses see it (R212). -/
def State.collEngine (s : State) (w : Nat) (q : Coll) : Engine :=
  Engine.start (q.agent.getD .device) ((s.wg w).vi, (s.wg w).asid) (some w) (.binrst 0) q.stream q.st s.clk
def State.setColl (s : State) (w : Nat) (q : Option Coll) : State := s.modWg w (fun x => { x with coll := q })

/-! ### Steps -/

/-- An FP32 sum of two elements (R212, R214). -/
def addLane (x y : Lane) : Lane := BitVec.ofNat 32 (fp32.addV .ne false (fp32.val false x.toNat) (fp32.val false y.toNat)).1
/-- The elements of a row in its format, widened, and back (R211). -/
def rowLanes (fmt : Nat) (bs : List Byte) : List Lane :=
  let n := descUnit fmt
  (List.range (bs.length / n)).map (fun i => widenUnit fmt ((bs.drop (n * i)).take n))
def lanesRow (fmt : Nat) (xs : List Lane) : List Byte :=
  xs.flatMap (fun x => if fmt = 0 then toBytes x.toNat 4 else toBytes (convF fp32 bf16 .ne false x.toNat).1 2)

/-- The addition of a chunk (R212): every row is read before one is written. -/
def collAdd (e : Engine) (q : Coll) (c : Nat) (s : State) : Work :=
  let d := descOf q.tile
  let first := q.pos_ (q.owner c) = 0
  let ys := q.rows c
  let g := (Work.start s).aligned (descAlign d.fmt) (ys.map (fun (y : Nat) => d.addr y 0))
  let g := g.aligned 4 (ys.map q.stageRow)
  let (g, rows) := ys.foldl (fun (p : Work × List (Nat × List Lane)) (y : Nat) =>
    let (g, bs, _) := p.1.read e none (d.addr y 0) q.rowBytes
    let xs := rowLanes d.fmt bs
    if first then (g, p.2 ++ [(y, xs)])
    else
      let (g, st, _) := g.read e none (q.stageRow y) (4 * d.cols)
      (g, p.2 ++ [(y, (List.range xs.length).map (fun i => addLane ((rowLanes 0 st).getD i 0) (xs.getD i 0)))])) (g, [])
  if g.err.isSome then g
  else rows.foldl (fun g r =>
    let g := g.write e none (q.stageRow r.1) (lanesRow 0 r.2) false
    if first then g else g.write e none (d.addr r.1 0) (lanesRow d.fmt r.2) false) g

/-- A run of bytes cut where pages may differ (R290). -/
def pageRuns (va n : Nat) : Nat → List (Nat × Nat)
  | 0 => []
  | f + 1 => if n = 0 then [] else
    let k := Nat.min n (0x10000 - va % 0x10000)
    (va, k) :: pageRuns (va + k) (n - k) f
/-- Runs that must lie on another device: the first that does not (0x51), or that faults, stops the step (R208, R298). -/
def Work.allFar (g : Work) (e : Engine) (runs : List (Nat × Nat)) : Work :=
  (runs.flatMap (fun r => pageRuns r.1 r.2 (r.2 / 0x10000 + 2))).foldl (fun (g : Work) r =>
    if g.halted then g
    else match g.s.home e.vi e.asid r.1 true false with
      | .remote _ _ => g
      | .ok _ => g.fail 0x51 r.1 true
      | h => g.stopped e true (h.stop (α := Unit) r.1)) g
/-- A chunk sent from STAGE (kind 1) or from the buffer (kind 3) (R212): its packets, and the raise that follows. A page of the next
rank that faults holds the step before its first byte. -/
def collSend (e : Engine) (w : Nat) (q : Coll) (kind c : Nat) (s : State) : Work × Send :=
  let d := descOf q.tile
  let n := if kind = 1 then 4 * d.cols else q.rowBytes
  let at_ := fun (y : Nat) => if kind = 1 then q.stageRow y else d.addr y 0
  let next := fun (va : Nat) => (va + crNext q.record) % 2 ^ 64
  let ys := q.rows c
  let cnt := next (q.counter c (if kind = 1 then 0 else 1))
  let g := (Work.start s).aligned 8 [cnt]
  let (g, rows) := ys.foldl (fun (p : Work × List (Nat × List (Byte × Bool))) (y : Nat) =>
    let (g, bs, bad) := p.1.read e none (at_ y) n
    (g, p.2 ++ [(next (at_ y), bs.map (fun b => (b, bad)))])) (g, [])
  let g := g.allFar e ((cnt, 8) :: rows.map (fun r => (r.1, n)))
  if g.halted || g.err.isSome then (g, { xids := [], raise := none })
  else
    let (g, xs) := g.sendRows e rows none (some w)
    (g, { xids := xs, raise := (g.s.remoteOf e.vi e.asid cnt).map (fun p => (p.1, p.2, BitVec.ofNat 64 (crSeq q.record + 1))) })

/-- Sends whose data has been acknowledged raise their counter; finished ones are gone (R212). -/
def State.pumpSends (s : State) (w : Nat) (e : Engine) (xs : List Send) : State × List Send :=
  xs.foldl (fun (p : State × List Send) x =>
    if !x.xids.isEmpty then (p.1, p.2 ++ [x])
    else match x.raise with
      | none => p
      | some (dev, rva, v) =>
        let (s, id) := p.1.sendCounter e.agent.unitWord e.vi e.asid 4 dev rva rva v none (some w)
        (s, p.2 ++ [{ xids := [id], raise := none }])) (s, [])
def State.pumpColl (s : State) (w : Nat) : State :=
  match (s.wg w).coll with
  | none => s
  | some q =>
    let (s, xs) := s.pumpSends w (s.collEngine w q) q.sends
    s.modWg w (fun x => { x with coll := x.coll.map (fun q => { q with sends := xs }) })

/-- An abort begins (R388, R389): its record, then its steps. -/
def State.abortColl (s : State) (w : Nat) (code va : Nat) : State :=
  match (s.wg w).coll with
  | none => s
  | some q =>
    if q.abort.isSome || !q.started then s
    else
      let seq := s.mgmt.errSeq
      let a := q.agent.getD .device
      let s := s.report 6 1 a.unitWord ((s.wg w).vi, (s.wg w).asid) va 0 1 code
        (if s.alive a then s.joined a else s.joinedWg w)
      (s.setColl w (some { q with abort := some (BitVec.ofNat 8 code, seq) })).soon (.collAbort w 0)

/-- An acknowledged packet of a driver (R212, R321). -/
def State.collAck (s : State) (w : Nat) (xid : BitVec 32) : State :=
  let s := s.modWg w (fun x => { x with coll := x.coll.map (fun q => { q with
    sends := q.sends.map (fun y => { y with xids := y.xids.filter (· != xid) }) }) })
  s.pumpColl w
/-- A packet of a driver that is refused or cannot be delivered: its send makes no raise, and the collective aborts under 0x70 or
0x72 (R388). -/
def State.collLost (s : State) (w : Nat) (xid : BitVec 32) (code va : Nat) : State :=
  let drop := fun (y : Send) => if y.xids.contains xid then { xids := y.xids.filter (· != xid), raise := none } else y
  let s := s.modWg w (fun x => { x with coll := x.coll.map (fun q => { q with sends := q.sends.map drop }) })
  (s.abortColl w code va).pumpColl w

/-- What the driver finds of a counter (R212, R389): reached, not yet, an abort raise, or why it cannot be read. -/
inductive Arrival where
  | ready | waits | aborted | fails (code va : Nat) | faults (va stage ipa : Nat) (perm : Bool)
def State.arrival (s : State) (e : Engine) (q : Coll) (c which : Nat) : Arrival :=
  let va := q.counter c which
  let g := (Work.start s).aligned 8 [va]
  let (g, bs, _) := g.read e none va 8
  match g.flt, g.err with
  | some (va, st, i, p, _), _ => .faults va st i p
  | none, some (code, va) => .fails code va
  | none, none =>
    if 2 ^ 63 ≤ ofBytes bs then .aborted else if crSeq q.record + 1 ≤ ofBytes bs then .ready else .waits

/-- A step waits on a fault of translation (R190, R298). -/
def State.collFault (s : State) (w : Nat) (a : Agent) (va st ipa : Nat) (p write : Bool) : State :=
  ((s.raise (s.wg w).vi (s.wg w).asid va st ipa (8 + (if write then 2 else 1) + if p then 16 else 0) (s.joined a)
    (.step (.collStep w))).1).block a .async
/-- The driver's slot for one step: ISSUE at the COLL's PC, and 1 du (R212). -/
def State.collSlot (s : State) (a : Agent) : State := (s.useSlot a (s.strand a).pc .issue).drawn a .scalar 0
/-- The outcome of a step (R388): it moves the driver on, waits on a fault, or aborts. -/
def State.collSettle (s : State) (w : Nat) (a : Agent) (q : Coll) (g : Work) (out : Option Send) : State :=
  match g.flt, g.err with
  | some (va, st, i, p, write), _ => s.collFault w a va st i p write
  | none, some (_, va) => (s.collSlot a).abortColl w 0x70 va
  | none, none =>
    let t := g.s.setColl w (some { q with
      pos := q.pos + 1
      sends := match out with
        | some x => q.sends ++ [x]
        | none => q.sends })
    (t.collSlot a).pumpColl w

/-- A chunk becomes final after this step (R213): an addition of REDSC at the last position, or a gather wait. -/
def Coll.finals (q : Coll) (kind c : Nat) : Bool := (q.op = 1 && kind = 0 && q.rank == q.last c) || kind = 2
/-- The trap that the driver's arrival on HAND would take (R365, R388). Log 79 (DEDUCED). -/
def State.handTrap (s : State) (a : Agent) (q : Coll) : Option (BitVec 8 × Word) :=
  match crHand q.record with
  | none => none
  | some n => arrivePre n s a
/-- The driver's arrival on HAND, with its release (R213). -/
def State.handArrive (s : State) (a : Agent) (q : Coll) : State :=
  match crHand q.record with
  | none => s
  | some n => s.arrive a n false

/-- The last step has completed (R212): SEQ, the post, and the communication group goes on. -/
def State.collEnd (s : State) (w : Nat) (a : Agent) (q : Coll) : State :=
  let e := s.collEngine w q
  let g := (Work.start s).write e none (q.va.toNat + 0x20) (toBytes ((crSeq q.record + 1) % 2 ^ 64) 8) false
  match g.flt, g.err with
  | some (va, st, i, p, write), _ => s.collFault w a va st i p write
  | none, some (_, va) => (s.abortColl w 0x70 va).block a .async
  | none, none =>
    let t := g.s.bput (some w) 0 q.bar ((g.s.bget (some w) 0 q.bar).post 0 none)
    ((t.setColl w none).endWait a).block a .async

/-- THE DRIVER'S ATTEMPT in a clk (R212, R213): gather waits that have ended, then one step, or a wait. -/
def State.drive (s : State) (w : Nat) : Nat → State
  | 0 => s
  | f + 1 =>
    match (s.wg w).coll with
    | none => s
    | some q =>
      match q.agent with
      | none => s
      | some a =>
        if !q.started then s.block a .sync
        else if q.abort.isSome then s.block a .async
        else
          let e := s.collEngine w q
          match q.steps[q.pos]? with
          | none => if q.sends.isEmpty then s.collEnd w a q else s.block a .async
          | some (kind, c) =>
            let waits := (kind = 0 && q.pos_ (q.owner c) != 0) || (kind = 2 && q.pos_ (q.head c) != 0)
            match if waits then s.arrival e q c (if kind = 0 then 0 else 1) else .ready with
            | .waits => s.block a .async
            | .aborted => (s.abortColl w 0x73 (q.counter c (if kind = 0 then 0 else 1))).block a .async
            | .fails _ va => (s.abortColl w 0x70 va).block a .async
            | .faults va st i p => s.collFault w a va st i p false
            | .ready =>
              match if q.finals kind c then s.handTrap a q else none with
              | some (code, v) => (s.modStrand a (fun x => { x with wait := none })).takeTrap a code v
              | none =>
                if kind = 2 then
                  ((s.handArrive a q).setColl w (some { q with pos := q.pos + 1 })).drive w f
                else if kind = 0 then
                  let t := s.collSettle w a q (collAdd e q c s) none
                  if q.finals 0 c && ((t.wg w).coll.map (·.pos)) == some (q.pos + 1) then t.handArrive a q else t
                else
                  let (g, x) := collSend e w q kind c s
                  s.collSettle w a q g (some x)
/-- The driver's attempt, with room for every chunk of the collective. -/
def State.driveColl (s : State) (w : Nat) : State :=
  match (s.wg w).coll with
  | none => s
  | some q => s.drive w (q.steps.length + 2)

/-- COLL_STEP (R212): the communication group drives one step, where its core has issued nothing in this clk. -/
def execCollStep (wg : Nat) (s : State) : Host.Outcome State Fault Refusal :=
  match (s.wg wg).coll with
  | none => .next s
  | some q =>
    match q.agent with
    | none => .next s
    | some a => if (s.unit a.unit).issued || (s.strand a).wait != some .coll then .next s else .next (s.driveColl wg)

/-! ### Abort -/

/-- A chunk's fate at an abort (R389): 0 ORIGINAL, 1 PREFIX, 2 FINAL, 3 MIXED. Log 78 (DEDUCED). -/
def Coll.fate (q : Coll) (c : Nat) : Nat :=
  if q.reduces then
    if q.did 2 c || (q.did 0 c && q.rank == q.last c) then 2
    else if !q.did 0 c || q.pos_ (q.owner c) = 0 then 0
    else 1
  else if q.did 2 c || q.pos_ (q.head c) = 0 then 2 else 3
/-- Step 2: every counter of the next rank is raised (R389). -/
def State.abortRaise (s : State) (w : Nat) (q : Coll) : State :=
  let e := s.collEngine w q
  let v := BitVec.ofNat 64 (2 ^ 63 + crSeq q.record + 1)
  (List.range (2 * q.chunks)).foldl (fun s i =>
    let va := (q.counter (i / 2) (i % 2) + crNext q.record) % 2 ^ 64
    match s.remoteOf e.vi e.asid va with
    | none => s
    | some (dev, rva) =>
      let (s, id) := s.sendCounter e.agent.unitWord e.vi e.asid 4 dev rva va v none (some w)
      s.modWg w (fun x => { x with coll := x.coll.map (fun q => { q with sends := q.sends ++ [{ xids := [id], raise := none }] }) })) s
/-- Step 3: the previous rank's abort raise has reached every counter of this rank, or the fabric has reported that rank
(R389). -/
def State.abortHeard (s : State) (w : Nat) (q : Coll) : Bool :=
  q.told || q.p ≤ 1 || (List.range (2 * q.chunks)).all (fun i => match s.arrival (s.collEngine w q) q (i / 2) (i % 2) with
    | .aborted => true
    | _ => false)
/-- A write of the abort that cannot be made is left out. -/
def tryWrite (e : Engine) (s : State) (va : Nat) (bs : List Byte) : State :=
  let g := (Work.start s).write e none va bs false
  if g.flt.isSome then s else g.s
/-- Steps 4 to 6 (R389): chunks restored from STAGE, their states, and the poisoned post. -/
def State.abortEnd (s : State) (w : Nat) (q : Coll) : State :=
  let e := s.collEngine w q
  let d := descOf q.tile
  let back := fun (s : State) (c : Nat) =>
    if q.did 0 c && !q.did 2 c then
      (q.rows c).foldl (fun s y =>
        let (g, bs, _) := (Work.start s).read e none (q.stageRow y) (4 * d.cols)
        if g.halted then s else tryWrite e g.s (d.addr y 0) (lanesRow d.fmt (rowLanes 0 bs))) s
    else s
  let cs := List.range q.chunks
  let s := cs.foldl back s
  let s := cs.foldl (fun s c => tryWrite e s (q.counter c 1)
    (toBytes (2 ^ 63 + q.fate c * 2 ^ 32 + (crSeq q.record + 1) % 2 ^ 32) 8)) s
  let s := s.bput (some w) 0 q.bar ((s.bget (some w) 0 q.bar).post 0 (q.abort.map (·.2)))
  let s := s.setColl w none
  match q.agent with
  | some a => if (s.strand a).wait == some .coll then s.endWait a else s
  | none => s
/-- COLL_ABORT (R388, R389): the outside world begins one with its CODE (a send's header that differs, 0x71), or reports the
previous rank as unreachable to one that waits (0x72); the other steps run on by themselves. Log 77 (DEDUCED). -/
def execCollAbort (wg : Nat) (reason : BitVec 8) (s : State) : Host.Outcome State Fault Refusal :=
  match (s.wg wg).coll with
  | none => .next s
  | some q =>
    if q.abort.isNone then .next (if reason = 0 then s else s.abortColl wg reason.toNat q.va.toNat)
    else
      let q := { q with told := q.told || reason = 0x72 }
      let s := s.setColl wg (some q)
      let again := fun (s : State) => if reason = 0 then s.inClk 1 (.collAbort wg 0) else s
      if q.phase = 0 then
        if !q.sends.isEmpty then .next (again s)
        else .next (again ((s.setColl wg (some { q with phase := 1 })).abortRaise wg { q with phase := 1 }))
      else if s.abortHeard wg q then .next (s.abortEnd wg q)
      else .next (again s)

/-! ### Issue -/

/-- The misuse of a descriptor or launch (R210, R364, R388): the word that fails. -/
def collBad (op : Nat) (t : TReg) (s : State) (a : Agent) : Option Word :=
  let ws := s.tget a t.toNat
  let d := descOf ws
  let shape := match s.wgOf a with
    | some w => recShape (s.record w)
    | none => 0
  if (ws.getD 2 0).extractLsb' 32 32 != 0 then some (ws.getD 2 0)
  else if (ws.getD 3 0).extractLsb' 8 56 != 0 || d.space != 0 || 7 ≤ d.fmt || (op < 2 && 2 ≤ d.fmt) then some (ws.getD 3 0)
  else if 4 ≤ d.fmt && d.cols % 16 != 0 then some (ws.getD 2 0)
  else if !shape.testBit 15 then some (BitVec.ofNat 64 shape)
  else none
/-- The misuse of a communicator record (R388). -/
def recordBad (n : Nat) (s : State) (a : Agent) (comm : Bool) (r : List Byte) : Option Word :=
  if crP r = 0 || crP r ≤ crRank r then some (BitVec.ofNat 64 (field r 0 8))
  else match crHand r with
    | none => none
    | some h => if h = n || (comm && (s.bar a h).expa = 0) then some (BitVec.ofNat 64 (field r 0x30 8)) else none
/-- Chunks of a tile (R209); the spec gives no count for CHROWS 0. -/
def State.chunksOf (s : State) (rows chrows : Nat) : Nat :=
  if chrows = 0 then Config.pick s.free else (rows + chrows - 1) / chrows

/-- What the issue of a collective needs (R212). Log 76 (DEDUCED). -/
def collNeed (op : Nat) (t : TReg) (a : SReg) (n : BarNo) : Need :=
  { src := [a.toNat]
    ctl := false
    tsrc := [t.toNat]
    pre := fun s g => match wordTrap (collBad op t s g) with
      | some x => some x
      | none => if isPort a.toNat then regPre n.toNat s g else none }
/-- A group's issue of a collective on a record that it has read (R191, R212). -/
def collJoin (op : Nat) (t : TReg) (n : BarNo) (st : StreamNo) (va : Word) (c : Ctx) (s : State) (w : Nat) (r : List Byte) : Act :=
  let idx := (s.group c.a.groupNo).idx
  let wg := s.wg w
  let comm := recComm (s.record w) == some idx
  let blank : Coll := {
    op := BitVec.ofNat 2 op
    record := []
    va := 0
    tile := []
    bar := n.toNat
    stream := st.toNat
    st := s.stream c.a st.toNat
    agent := none
    issued := []
    started := false
    chunks := 0
    pos := 0
    sends := []
    abort := none
    phase := 0
    told := false }
  let q := wg.coll.getD blank
  let mine := q.issued.contains idx
  if mine && comm && q.agent == some c.a then .jump (s.waitIn c.a c.next .coll) c.pc
  else if mine || q.started then .wait .async
  else
    let ws := s.tget c.a t.toNat
    let d := descOf ws
    let chunks := s.chunksOf d.rows (crRows r)
    let stage := if op < 2 then [(crStage r, 4 * d.rows * d.cols)] else []
    engineHere c s st ((va.toNat, 64) :: (crArrive r, 16 * chunks) :: stage ++ d.tileRuns) (fun e s =>
    let q := { q with issued := q.issued ++ [idx] }
    let q := if comm then { q with
        op := BitVec.ofNat 2 op
        record := r
        va := va
        tile := ws
        bar := n.toNat
        stream := st.toNat
        st := e.st
        agent := some c.a
        chunks := chunks } else q
    let all := (List.range wg.groups.length).all (fun i => q.issued.contains i)
    let q := { q with started := all }
    let s := s.setColl w (some q)
    let s := if comm && crRows r = 0 then s.spend else s
    let s := if all then s.bput (some w) 0 q.bar ((s.bget (some w) 0 q.bar).register 0) else s
    if comm then .jump (s.waitIn c.a c.next .coll) c.pc else .done s)
/-- A COLL (R208 to R212, R388). The record is read by each group at its issue. Log 75 (DEDUCED). -/
def coll (op : Nat) (t : TReg) (a : SReg) (n : BarNo) (st : StreamNo) (s : State) : Host.Outcome State Fault Refusal :=
  issue (collNeed op t a n) (fun c s =>
    let va := c.get s a.toNat
    let (vi, asid) := s.ctxOf c.a
    let w := (s.wgOf c.a).getD 0
    let comm := recComm (s.record w) == some (s.group c.a.groupNo).idx
    let r := s.readFor (s.wgOf c.a) c.a none vi asid va.toNat 64
    let bad := match r with
      | .ok _ (bs, false) => wordTrap (recordBad n.toNat s c.a comm bs)
      | _ => none
    match bad.or (regPre n.toNat s c.a) with
    | some (code, v) => .trap code v
    | none =>
      if va.toNat % 64 != 0 then .trap 0x03 va
      else loadFate c s va.toNat r (fun t' bs => collJoin op t n st va c t' w bs)) s

/-- ALLRED, REDSC, ALLGAT and BCAST (R210, R211). -/
def execAllred (t : TReg) (a : SReg) (n : BarNo) (st : StreamNo) (s : State) : Host.Outcome State Fault Refusal := coll 0 t a n st s
def execRedsc (t : TReg) (a : SReg) (n : BarNo) (st : StreamNo) (s : State) : Host.Outcome State Fault Refusal := coll 1 t a n st s
def execAllgat (t : TReg) (a : SReg) (n : BarNo) (st : StreamNo) (s : State) : Host.Outcome State Fault Refusal := coll 2 t a n st s
def execBcast (t : TReg) (a : SReg) (n : BarNo) (st : StreamNo) (s : State) : Host.Outcome State Fault Refusal := coll 3 t a n st s

end Sys2Proof.Machine
end

