-- ==== Sys2Proof/Machine/Divergence.lean ====
section
/-!
DEFINITION. Divergence and reconvergence (spec/03_execution.md R36 to R39, spec/08_isa_scalar.md R126 to R129): VBR, KBR, and
the step RECONVERGENCE.
-/

namespace Sys2Proof.Machine

/-- The join PC of a record or entry. -/
def Nest.join : Nest → Word
  | .pend j .. => j
  | .link j .. => j
def Nest.isLink : Nest → Bool
  | .pend .. => false
  | .link .. => true
/-- Join records of a split's chain, and entries of its reconvergence stack (R36). -/
def chainDepth (n : List Nest) : Nat := (n.filter Nest.isLink).length
def stackDepth (n : List Nest) : Nat := (n.filter (fun x => !x.isLink)).length

/-- A split stands in a clk at the join of its innermost record or entry, or resolves it because its EXEC is zero (R38, R39). It
resolves one a clk (R128). -/
def Split.atJoin (y : Split) (clk : Nat) : Bool :=
  match y.nest with
  | [] => false
  | n :: _ => y.strand.wait.isNone && y.strand.park.isNone && decide (y.strand.delay ≤ clk) && (y.strand.pc == n.join || y.ex == 0)
/-- The sibling waits at the join of the record that names `k` (R38, R127). -/
def waitsFor (y : Split) (clk k : Nat) (join : Word) : Bool :=
  match y.nest with
  | .link j sib _ false :: _ => j == join && sib == k && y.atJoin clk
  | _ => false

/-- The folding rule (R127). Log 29 (DEDUCED). -/
def foldable (s : State) (g k : Nat) (tgt join : Word) : Bool :=
  match (s.splitOf g k).nest with
  | [] => false
  | .pend j .. :: _ => tgt == join && j == join
  | .link j sib _ e :: _ => tgt == join && j == join && !e && waitsFor (s.splitOf g sib) s.clk k join &&
      (s.splitOf g sib).strand.pc == join

/-- The lowest free split number of a group (R37). -/
def freeSplit (x : Group) : Option Nat := [0, 1, 2, 3].find? (fun n => (tabFind x.splits n).isNone)

/-- VBR: T is the set of active lanes that take the branch (R126 to R128). -/
def divergeOn (c : Ctx) (s : State) (T : Mask) (tgt join : Word) : Act :=
  match c.a with
  | .thread _ => .jump s c.next
  | .split g k =>
    let y := s.splitOf g k
    let X := y.ex
    let N := X &&& ~~~T
    let fall := fun (s : State) => s.modSplit g k (fun y => { y with ex := N })
    if T = X then .jump s tgt
    else if T = 0 then .jump s c.next
    else if foldable s g k tgt join then
      match y.nest with
      | .link _ sib _ _ :: _ => .jump (fall (s.modSplit g sib (fun z => { z with ex := z.ex ||| T }))) c.next
      | _ => .jump (fall s) c.next
    else
      match freeSplit (s.group g) with
      | some n =>
        if chainDepth y.nest < 16 then
          let strand := { Strand.start tgt s.clk with handler := y.strand.handler }
          let z : Split := { strand := strand, ex := T, fmt := y.fmt, flags := y.flags, nest := [.link join k y.fmt false],
                             draw := 0, drawNext := 0 }
          let s := s.modSplit g k (fun y => { y with ex := N, nest := .link join n y.fmt false :: y.nest })
          .jump (s.modGroup g (fun x => { x with splits := tabPut x.splits n z })) c.next
        else if stackDepth y.nest < 16 then
          .jump (s.modSplit g k (fun y => { y with ex := N, nest := .pend join X tgt T y.fmt false :: y.nest })) c.next
        else .trap 0x0C join
      | none =>
        if stackDepth y.nest < 16 then
          .jump (s.modSplit g k (fun y => { y with ex := N, nest := .pend join X tgt T y.fmt false :: y.nest })) c.next
        else .trap 0x0C join

def vbrNeed (k : KReg) : Need := { ksrc := [k.toNat], ctl := false }
/-- VBR of either polarity (R126). -/
def diverge (pol : Bool) (k : KReg) (t : BitVec 11) (j : BitVec 10) (s : State) : Host.Outcome State Fault Refusal :=
  issue (vbrNeed k) (fun c s =>
    let m := s.kget c.a.groupNo k.toNat
    divergeOn c s (s.exMask c.a &&& (if pol then ~~~m else m)) (target c.pc t none) (c.pc + 2 * j.setWidth 64)) s
/-- VBR (R126). -/
def execVbr (k : KReg) (t : BitVec 11) (j : BitVec 10) (s : State) : Host.Outcome State Fault Refusal := diverge false k t j s
/-- VBR.N (R126). -/
def execVbrN (k : KReg) (t : BitVec 11) (j : BitVec 10) (s : State) : Host.Outcome State Fault Refusal := diverge true k t j s

def kbrNeed (k : KReg) (x : Option (BitVec 25)) : Need := { ksrc := [k.toNat], ctl := false, len := lenX x }
/-- KBR under a test of EXEC ∧ kn and EXEC (R129). -/
def maskBranch (test : Mask → Mask → Bool) (k : KReg) (o : BitVec 20) (x : Option (BitVec 25)) (s : State) :
    Host.Outcome State Fault Refusal :=
  issue (kbrNeed k x) (fun c s =>
    let ex := s.exMask c.a
    .jump s (if test (ex &&& s.kget c.a.groupNo k.toNat) ex then target c.pc o x else c.next)) s
/-- KBR.ANY (R129). -/
def execKbrAny (k : KReg) (o : BitVec 20) (x : Option (BitVec 25)) (s : State) : Host.Outcome State Fault Refusal :=
  maskBranch (fun m _ => m != 0) k o x s
/-- KBR.ALL (R129). -/
def execKbrAll (k : KReg) (o : BitVec 20) (x : Option (BitVec 25)) (s : State) : Host.Outcome State Fault Refusal :=
  maskBranch (fun m ex => m == ex) k o x s
/-- KBR.NONE (R129). -/
def execKbrNone (k : KReg) (o : BitVec 20) (x : Option (BitVec 25)) (s : State) : Host.Outcome State Fault Refusal :=
  maskBranch (fun m _ => m == 0) k o x s

/-- What a split has under way is another's from now on: its accesses, engine operations and faults (R38). -/
def State.renameAgent (s : State) (a b : Agent) : State :=
  { s with
    accesses := tabMap s.accesses (fun _ x => if x.agent = a then { x with agent := b } else x)
    engines := tabMap s.engines (fun _ e => if e.agent = a then { e with agent := b } else e)
    faults := tabMap s.faults (fun _ f => { f with splits := f.splits.map (fun x => if x.1 = a then (b, x.2) else x) }) }

/-- Two splits merge at their join into the lower number (R38, R22, R364: traps that wait move to the survivor). -/
def State.mergeSplits (s : State) (g k sib : Nat) (join : Word) (fmt : BitVec 9) : State :=
  let lo := Nat.min k sib
  let hi := Nat.max k sib
  let y := s.splitOf g lo
  let z := s.splitOf g hi
  let strand : Strand := { y.strand with
    pc := join
    handler := y.strand.handler || z.strand.handler
    kept := y.strand.kept.or z.strand.kept
    delay := Nat.max y.strand.delay z.strand.delay
    traps := y.strand.traps ++ z.strand.traps
    stopped := y.strand.stopped || z.strand.stopped }
  let m : Split := {
    strand := strand
    ex := y.ex ||| z.ex
    fmt := fmt
    flags := y.flags ||| z.flags
    nest := y.nest.drop 1 ++ z.nest.drop 1
    draw := y.draw + z.draw
    drawNext := y.drawNext + z.drawNext }
  let rename := fun (n : Nest) => match n with
    | .link j b f e => Nest.link j (if b = hi then lo else b) f e
    | p => p
  let s := s.modGroup g (fun x => { x with
    splits := tabPut (tabMap (tabDel x.splits hi) (fun i w => if i = lo then w else { w with nest := w.nest.map rename })) lo m })
  let s := s.renameAgent (.split g hi) (.split g lo)
  { s with turn := s.turn.filter (fun b => b != .run (.split g hi) && b != .look (.split g hi)) }
/-- The agent's resolution of this clk, which is charged to SYNC (R128). -/
def State.resolved (s : State) (a : Agent) : State :=
  s.modStrand a (fun x => { x with delay := Nat.max x.delay (s.clk + 1), why := .sync })

/-- One resolution of a split that stands at its join, or whose EXEC is zero (R38, R39); a split without record or entry and
with EXEC zero ends. A split whose sibling has ended keeps its FMT. Log 122 (DESIGN CHOICE). -/
def State.resolve (s : State) (g k : Nat) : State :=
  let y := s.splitOf g k
  let retired := (s.group g).retired
  match y.nest with
  | [] => if y.ex = 0 then s.endSplit g k else s
  | .pend j x t tm fmt false :: r =>
    (s.modSplit g k (fun y => { y with
      ex := tm &&& ~~~retired, fmt := fmt, nest := .pend j x t tm fmt true :: r, strand := { y.strand with pc := t } })).resolved
        (.split g k)
  | .pend j x _ _ fmt true :: r =>
    (s.modSplit g k (fun y => { y with
      ex := x &&& ~~~retired, fmt := fmt, nest := r, strand := { y.strand with pc := j } })).resolved (.split g k)
  | .link _ _ _ true :: r => (s.modSplit g k (fun y => { y with nest := r })).resolved (.split g k)
  | .link j sib fmt false :: _ =>
    if waitsFor (s.splitOf g sib) s.clk k j then (s.mergeSplits g k sib j fmt).resolved (.split g (Nat.min k sib))
    else s.block (.split g k) .sync

/-- RECONVERGENCE (R38, R39). Log 28 (DEDUCED). -/
def execReconvergence (s : State) : Host.Outcome State Fault Refusal :=
  match s.cur with
  | some (.split g k) => .next (s.resolve g k)
  | _ => .next s

end Sys2Proof.Machine
end

