-- ==== Sys2Proof/Machine/Fetch.lean ====
section
/-!
DEFINITION. What an agent does when the picker tries it: its waits (spec/18_scheduling.md R266, R272), its joins (R38), the
bytes of its next sequence in the instruction cache (spec/05_memory.md R89; spec/29_errors_execution.md R361;
spec/30_errors_memory.md R374, R379) and what they decode to.
-/

namespace Sys2Proof.Machine

/-- The cause under which a wait is charged (R271, R272). -/
def Wait.cause : Wait → Cause
  | .access .. => .loadwait
  | .barrier .. => .barrier
  | .counter .. => .async
  | .node .. => .async
  | .region => .sync
  | .fence .. => .sync
  | .coll => .sync
  | .answer .. => .async
  | .acc .. => .async
  | .owner .. => .trap

/-- The bytes of a sequence that its unit's instruction cache holds, up to the first line that is missing. -/
structure Fetched where
  bytes   : List Byte
  /-- The address of the first byte that is not there. -/
  missing : Option Nat
  bad     : Bool

/-- Up to `n` bytes from an address on, line by line. -/
def State.fetchFrom (s : State) (u : Nat) (vi : BitVec 8) (asid : BitVec 16) (va n : Nat) : Nat → Fetched
  | 0 => { bytes := [], missing := none, bad := false }
  | f + 1 =>
    if n = 0 then { bytes := [], missing := none, bad := false }
    else
      match tabFind (s.unit u).icache (lineKey (s.tagAsid vi asid va) va) with
      | none => { bytes := [], missing := some va, bad := false }
      | some l =>
        let here := Nat.min n (128 - va % 128)
        let r := s.fetchFrom u vi asid (va + here) (n - here) f
        { bytes := (l.bytes.drop (va % 128)).take here ++ r.bytes, missing := r.missing, bad := l.bad || r.bad }

/-- What an agent's attempt comes to. -/
inductive Pick where
  /-- Nothing issues: the state it leaves. -/
  | idle (s : State)
  /-- A step or sequence to run. -/
  | run (i : Instr) (s : State)
  /-- The bytes are no sequence: subcode and value, and the instruction whose checks 4 and 5 come first (R360). -/
  | reject (sub : BitVec 8) (val : BitVec 48) (inner : Option Instr) (s : State)

/-- A queued trap taken now, unless a sibling's handler makes it wait (R108). -/
def State.takeQueued (s : State) (a : Agent) (code : BitVec 8) (val : Word) : State :=
  if s.trapWaits a then s.awaitTrap a
  else (s.modStrand a (fun x => { x with traps := x.traps.erase (code, val) })).takeTrap a code val

/-- Whether a byte may be fetched: global memory below the local windows (R379). -/
def fetchable (va : Nat) : Bool := va < 2 ^ 52 && decide ((regionOf va 1).1 = .global)

/-- The parcel address at which a sequence's instruction proper stands (R360): behind its prefix and extension. -/
def properAt (bs : List Byte) : Nat → Nat
  | 0 => 0
  | f + 1 =>
    let m := (bs.getD 0 0).toNat / 2 % 64
    if (bs.getD 0 0).getLsbD 0 && (m = 0x3E || m = 0x3F) then 4 + properAt (bs.drop 4) f else 0
/-- The word or parcel there. -/
def properWord (bs : List Byte) : Nat :=
  let r := bs.drop (properAt bs 2)
  if (r.getD 0 0).getLsbD 0 then ofBytes (r.take 4) else ofBytes (r.take 2)

/-- A vector core in one of the four clks of a discard (R304). -/
def State.discarding (s : State) (u : Nat) : Bool :=
  u < 384 && match (s.core u).discard with
    | some (until_, _) => decide (s.clk < until_)
    | none => false

noncomputable section

/-- The sequence at an agent's PC. -/
def State.fetchSeq (s : State) (a : Agent) (pc : Word) : Pick :=
  let (vi, asid) := s.ctxOf a
  let va := pc.toNat
  if !fetchable va then .idle (s.takeTrap a 0x04 pc)
  else
    let f := s.fetchFrom a.unit vi asid va 12 13
    let miss := fun (m : Nat) => if !fetchable m then Pick.idle (s.takeTrap a 0x04 (BitVec.ofNat 64 m))
      else .run (.fetchMiss ⟨BitVec.ofNat 64 m, .none⟩) s
    let go := fun (r : Except Reject (Instr × List Byte)) =>
      if f.bad then
        .idle (s.takeTrap a (if s.popt vi asid then 0x10 else 0x08) (pc &&& ~~~(15 : Word)))
      else
        let second := match tabFind (s.unit a.unit).icache (lineKey (s.tagAsid vi asid va) va) with
          | some l => tabGet l.marks (va % 128 / 2) 0 == 2
          | none => false
        match r with
        | .error e => .reject e.sub e.value e.inner s
        | .ok (i, _) => if second then .reject 9 (BitVec.ofNat 48 (ofBytes (f.bytes.take 2))) (some i) s else .run i s
    match decode f.bytes, f.missing with
    | .error .short, some m => miss m
    | r, _ => go r

/-- A NODE or NODE.L with the sequence behind it, which is the body of a NODE (R205): the body's line may have to come first. -/
def State.latchBody (s : State) (a : Agent) (pc : Word) (i : Instr) : Pick :=
  let (vi, asid) := s.ctxOf a
  let f := s.fetchFrom a.unit vi asid (pc.toNat + 4) 12 13
  match decode f.bytes, f.missing with
  | .ok (b, _), _ => .run i { s with behind := some (b, b.len) }
  | .error .short, some m => if fetchable m then .run (.fetchMiss ⟨BitVec.ofNat 64 m, .none⟩) s else .run i { s with behind := none }
  | .error _, _ => .run i { s with behind := none }

/-- A load or atomic of the agent, behind which it had gone on, waits on a fault (R163). -/
def State.faulting (s : State) (a : Agent) : Bool :=
  s.accesses.any (fun p => p.2.agent == a && (p.2.what == 0 || p.2.what == 2) && p.2.token.isSome)
/-- The attempt of one agent: what holds it back first comes first (R272). -/
def State.attempt (s : State) (a : Agent) : Pick :=
  let s := { s with cur := some a, behind := none }
  let x := s.strand a
  let parked := match x.park with
    | some p => !p.ready
    | none => false
  let spilling := match a with
    | .split _ _ => false
    | .thread t => (s.thread t).spill
  if !s.alive a || s.discarding a.unit then .idle s
  else if parked || s.faulting a then .idle (s.block a .fault)
  else if x.stopped || s.halted a || spilling then .idle (s.block a .trap)
  else match x.wait with
    | some .coll => .idle (s.driveColl ((s.wgOf a).getD 0))
    | some w => .idle (s.block a w.cause)
    | none =>
      if s.clk < x.delay then .idle (s.block a .sync)
      else match x.traps.find? (fun t => t.1 != 0x09) with
        | some t => .idle (s.takeQueued a t.1 t.2)
        | none =>
          let joins := match a with
            | .split g k => (s.splitOf g k).atJoin s.clk || (s.splitOf g k).ex == 0
            | .thread _ => false
          if joins then .run .reconvergence s
          else match s.fetchSeq a x.pc with
            | .run (.node d c) t => t.latchBody a x.pc (.node d c)
            | p => p

/-- Code bytes at the homes, as far as they can be read. -/
def State.codeRuns (s : State) (vi : BitVec 8) (asid : BitVec 16) : List (Nat × Nat) → List Byte
  | [] => []
  | (va, n) :: r =>
    match s.home vi asid va false true with
    | .ok t =>
      let (bs, bad) := t.homeBytes (lineKey (s.tagAsid vi asid va) va) va n
      if bad then [] else bs ++ s.codeRuns vi asid r
    | _ => []
/-- The sequence at an agent's PC when its instruction cache misses: the waits that its operands call for are charged before
FETCH (R118, R133, R154). -/
def State.peekSeq (s : State) (a : Agent) : Option Instr :=
  let (vi, asid) := s.ctxOf a
  let f := s.fetchFrom a.unit vi asid (s.strand a).pc.toNat 12 13
  let rest := match f.missing with
    | some m => s.codeRuns vi asid (lineRuns m (12 - f.bytes.length) 3)
    | none => []
  match decode (f.bytes ++ rest) with
  | .ok (i, _) => some i
  | .error _ => none
/-- The causes that stand before FETCH in those tables. -/
def Cause.beforeFetch (c : Cause) : Bool := c == .loadwait || c == .depend || c == .queue || c == .pipe || c == .async

/-- The word or parcel of the instruction proper at an agent's PC (R360). -/
def State.properValue (s : State) (a : Agent) : BitVec 48 :=
  BitVec.ofNat 48 (properWord (s.fetchFrom a.unit (s.ctxOf a).1 (s.ctxOf a).2 (s.strand a).pc.toNat 12 13).bytes)

/-- A state in which the trap that an instruction's own checks 4 and 5 raise is plain to see (R360). -/
def State.probed (s : State) (a : Agent) : State :=
  let s := s.setTrap a 0 0 0
  let s := match a with
    | .split g _ => s.modGroup g (fun x => { x with
        tvec := 2, splits := tabMap x.splits (fun _ y => { y with strand := { y.strand with handler := false } }) })
    | .thread t => s.modThread t (fun x => { x with tvec := 2, sup := false, strand := { x.strand with handler := false } })
  s
/-- The subcode 4 or 5 that a probe took, if it did. -/
def State.probeSub (s : State) (a : Agent) : Option (BitVec 8) :=
  let (cause, val) := match a with
    | .split g _ => ((s.group g).tcause, (s.group g).tval)
    | .thread t => ((s.thread t).tcause, (s.thread t).tval)
  let sub := val.extractLsb' 56 8
  if cause = 1 && (sub = 4 || sub = 5) then some sub else none

end

end Sys2Proof.Machine
end

