-- ==== Sys2Proof/Machine/Matrix.lean ====
section
/-!
DEFINITION. The matrix unit (spec/12_isa_matrix.md R169 to R188; spec/04_stacks.md R73, R74; spec/29_errors_execution.md R364):
queues, the arbiter, passes and their results, the macro-op sequencer, feeding and draining, and the control core's accumulator
instructions.
-/

namespace Sys2Proof.Machine

/-! ### Queues -/

/-- The physical cell that runs the passes of a cell: itself, or the next one that is not fenced (R357). -/
def Cluster.cellFor (c : Cluster) (cell : Nat) : Nat :=
  (((List.range 16).map (fun i => (cell + i) % 16)).find? (fun x => !c.cellOff.contains x)).getD cell
/-- Room in the queue of a tile's cell (R174). -/
def Cluster.room (c : Cluster) (n : Nat) : Bool := (tabGet c.mq (n % 16) []).length < 8
/-- An operation enters the queue of its cell; its first tile is live (R171, R174). -/
def State.enqueueOp (s : State) (c : Nat) (o : MatOp) : State :=
  let s := s.modCluster c (fun k => { k with
    mq := tabPut k.mq (o.n % 16) (tabGet k.mq (o.n % 16) [] ++ [{ o with id := s.nextId }])
    acclive := k.acclive ||| (1 : BitVec 128) <<< o.n })
  { s with nextId := s.nextId + 1 }
/-- An operation as it is enqueued, with the thread's configuration (R174, R178). -/
def matOp (t : Nat) (zero : Bool) (n m k : Nat) (cfg : BitVec 2) (node : Option Nat) (clk : Nat) : MatOp :=
  { id := 0
    zero := zero
    n := n
    m := m
    k := k
    zfirst := cfg.getLsbD 0
    release := !cfg.getLsbD 1
    thread := t
    at_ := clk
    cand := none
    start := none
    node := node
    seqr := false
    w := 8
    a := none
    b := none
    passed := [] }

/-- An operation of a node is queued, running, or still with a sequencer (R206). -/
def State.nodeBusy (s : State) (c n : Nat) : Bool :=
  (s.cluster c).ops.any (fun o => o.node == some n) ||
    [2 * c, 2 * c + 1].any (fun t => match (s.thread t).seqr with
      | some q => q.node == some n
      | none => false)
/-- An operation of a node has gone: with the last one the node completes (R206, R387). Log 49 (DESIGN CHOICE). -/
def State.opGone (s : State) (c : Nat) (o : MatOp) : State :=
  match o.node with
  | none => s
  | some n => if s.nodeBusy c n then s else s.soon (.nodeComplete c n)

/-- The head of a queue leaves it. -/
def State.popOp (s : State) (c : Nat) (o : MatOp) : State :=
  let rest := (tabGet (s.cluster c).mq (o.n % 16) []).drop 1
  s.modCluster c (fun k => { k with mq := tabPut k.mq (o.n % 16) rest })
/-- A misuse at admission (R364, R386): the operation goes, its slot is released, its thread takes WEIGHT_FORMAT, an MMAB stops,
a node fails. `why`: 1 format mismatch, 2 range, 3 failed handle. -/
def State.refuseOp (s : State) (c : Nat) (o : MatOp) (why : Nat) : State :=
  let s := s.popOp c o
  let s := s.setFeed c o.m ((s.cluster c).feedOf o.m).release
  let s := if o.seqr then s.modThread o.thread (fun x => { x with seqr := none }) else s
  let s := match o.node with
    | none => s
    | some n =>
      let word := s.nextRecord 0x11 1
      s.modCluster c (fun k => { k with node := tabMod k.node n (fun x => { x with
        error := if x.error = 0 then word else x.error }) })
  let s := s.queueTrap (.thread o.thread) 0x11 (BitVec.ofNat 64 (o.n + 0x100 * o.m + 0x10000 * o.k + 0x1000000 * why))
  s.opGone c o

/-! ### The arbiter -/

/-- MBUDGET of STKCFG (R65). -/
def Cluster.mbudget (k : Cluster) : Nat := bits k.stkcfg.toNat 48 16
/-- D of an operation on a sealed slot and a valid handle (R73). -/
def Cluster.cost (k : Cluster) (o : MatOp) : Nat :=
  if o.zero then 0 else 512 + ((k.feedOf o.m).tog + (k.handleOf o.k).tog + 15) / 16
/-- An ACCSPILL or ACCFILL that issued before an operation's enqueue is parked on a tile the operation writes (R175). -/
def State.accBefore (s : State) (c : Nat) (o : MatOp) : Bool :=
  [2 * c, 2 * c + 1].any (fun t => match (s.thread t).acc with
    | some (n, at_, pc) => (s.thread t).strand.pc == pc && decide (at_ < o.at_) &&
        covers o.n (if o.zero then 1 else 8) n
    | none => false)
/-- The head of a queue may be admitted: its cell is free, its slot READY, its handle VALID, and no earlier access of its tiles is
parked (R174, R175). Log 41 (DEDUCED). -/
def State.eligibleOp (s : State) (c : Nat) (o : MatOp) : Bool :=
  let k := s.cluster c
  !s.accBefore c o &&
  decide (tabGet k.cellFree (k.cellFor (o.n % 16)) 0 ≤ s.clk) &&
    (o.zero || ((k.feedOf o.m).ready && (k.handleOf o.k).valid))
/-- Heads of the queues, in order of cell. -/
def Cluster.heads (k : Cluster) : List MatOp := (List.range 16).filterMap (fun cell => (tabGet k.mq cell []).head?)
/-- Heads with failed handles are removed (R386). Log 42 (DEDUCED). -/
def State.refuseFailed (s : State) (c : Nat) : State :=
  (s.cluster c).heads.foldl (fun s o => if !o.zero && ((s.cluster c).handleOf o.k).failed then s.refuseOp c o 3 else s) s
/-- A head that becomes a candidate has its D fixed then; each clk in which it is one again counts as waiting (R73, R74, R174). -/
def State.markCand (s : State) (c : Nat) : State :=
  (s.cluster c).heads.foldl (fun s o =>
    if s.eligibleOp c o then
      let o' := { o with cand := some (match o.cand with
        | some (d, n) => (d, n + 1)
        | none => ((s.cluster c).cost o, 0)) }
      s.modCluster c (fun k => { k with mq := tabPut k.mq (o.n % 16) (o' :: (tabGet k.mq (o.n % 16) []).drop 1) })
    else s) s
def MatOp.cost (o : MatOp) : Nat := match o.cand with
  | some (d, _) => d
  | none => 0
/-- Clks it has waited as a candidate. -/
def MatOp.waited (o : MatOp) : Nat := match o.cand with
  | some (_, n) => n
  | none => 0
/-- Candidates in an order, ties to the lower cell. -/
def sortOps (key : MatOp → Nat) (os : List MatOp) : List MatOp :=
  os.mergeSort (fun x y => key x < key y || (key x == key y && x.n % 16 ≤ y.n % 16))

/-- An operation admitted in this clk, its budget charged, or refused (R74, R171, R174, R178, R364). Log 43 (DEDUCED). -/
def State.admitOp (s : State) (c : Nat) (o : MatOp) : State :=
  let k := s.cluster c
  let cell := k.cellFor (o.n % 16)
  if s.clk < tabGet k.cellFree cell 0 then s
  else if o.zero then
    let s := s.popOp c o
    let s := s.modCluster c (fun k => { k with
      run := k.run ++ [{ o with start := some s.clk, w := 1 }]
      cellFree := tabPut k.cellFree cell (s.clk + 4) })
    s.inClk 4 (.mmaComplete c o.id .none)
  else
    let f := k.feedOf o.m
    let h := k.handleOf o.k
    let w := feedW h.fmt
    if f.fmt != h.fmt then s.refuseOp c o 1
    else if 127 < o.n + 16 * (w - 1) then s.refuseOp c o 2
    else
      let s := s.popOp c o
      let live := (List.range w).foldl (fun (m : BitVec 128) j => m ||| (1 : BitVec 128) <<< (o.n + 16 * j)) 0
      let s := s.modCluster c (fun k => { k with
        run := k.run ++ [{ o with start := some s.clk, w := w, a := some f, b := some h }]
        cellFree := tabPut k.cellFree cell (s.clk + 32)
        acclive := k.acclive ||| live
        budget := k.budget - o.cost })
      (s.inClk 32 (.passEnd c (o.n % 16))).inClk 40 (.mmaComplete c o.id .none)

/-- MATRIX_ADMIT (R74): promoted candidates at the first clk of a window, then the others while the budget lasts.
Log 115 (DEDUCED). -/
def execMatrixAdmit (c : Nat) (s : State) : Host.Outcome State Fault Refusal :=
  let s := (s.refuseFailed c).markCand c
  let cands := (s.cluster c).heads.filter (s.eligibleOp c)
  let max := (s.cluster c).mbudget
  let first := if s.clk % 64 = 0 then
      sortOps (fun o => s.clk - o.waited) (cands.filter (fun o => 128 ≤ o.waited || max < o.cost)) else []
  let s := first.foldl (fun s o => s.admitOp c o) s
  let rest := sortOps MatOp.cost (cands.filter (fun o => !first.any (fun x => x.id == o.id)))
  .next (rest.foldl (fun s o => if o.cost ≤ (s.cluster c).budget then s.admitOp c o else s) s)

/-! ### Passes -/

/-- PASS_END (R174): 32 clk after its admission, an operation without KEEPF releases its feed slot. -/
def execPassEnd (c cell : Nat) (s : State) : Host.Outcome State Fault Refusal :=
  match (s.cluster c).run.find? (fun o => !o.zero && o.release && o.n % 16 == cell && match o.start with
    | some t => decide (t + 32 ≤ s.clk)
    | none => false) with
  | none => .next s
  | some o =>
    let s := s.setFeed c o.m ((s.cluster c).feedOf o.m).release
    .next (s.modCluster c (fun k => { k with run := k.run.map (fun x => if x.id = o.id then { x with release := false } else x) }))

/-- An element of an operand: a field of its format under its block's header (R24, R28). -/
def operandVal (f : FeedFmt) (x : Nat) (head : Nat × Nat) (j : Nat) : FVal :=
  match f with
  | .bf16 => bf16.val false x
  | .fp16 => fp16.val false x
  | f => sxVal (feedSx f) head.1 (bits head.2 (2 * (j % 16 / 4)) 2) x
/-- A[m][k] of a feed slot. -/
def Feed.val (f : Feed) (m k : Nat) : FVal :=
  operandVal f.fmt ((f.row m).getD k 0) ((tabGet f.heads m []).getD (k / 16) (0, 0)) k
/-- B[k][c] of a handle. -/
def Handle.val (h : Handle) (k c : Nat) : FVal :=
  operandVal h.fmt ((h.rows.getD k []).getD c 0) ((h.heads.getD k []).getD (c / 16) (0, 0)) c
/-- One accumulator element over a pass: ascending k, one rounding a step (R31, R178). -/
def dot (f : Feed) (h : Handle) (m c : Nat) (acc : Lane) : Lane :=
  (List.range 32).foldl (fun acc k =>
    BitVec.ofNat 32 (fp32.fmaV .ne false (f.val m k) (h.val k c) (fp32.val false acc.toNat)).1) acc
/-- Tile j of an operation's group after its pass (R178). -/
def State.product (s : State) (c : Nat) (o : MatOp) (f : Feed) (h : Handle) (j : Nat) : List Lane :=
  let old := s.tile c (o.n + 16 * j)
  (List.range 1024).map (fun i => dot f h (i / 32) (32 * j + i % 32) (if o.zfirst then 0 else old.getD i 0))
/-- A pass writes its tiles; a poisoned operand poisons each (R373). -/
def State.writePass (s : State) (c : Nat) (o : MatOp) (f : Feed) (h : Handle) : State :=
  let old := !o.zfirst && (List.range o.w).any (fun j => (s.cluster c).accPoison.contains (o.n + 16 * j))
  ((List.range o.w).filter (fun j => !o.passed.contains (o.n + 16 * j))).foldl (fun s j =>
    s.setTile c (o.n + 16 * j) (s.product c o f h j) (f.poison || h.poison || old)) s
/-- A tile of +0.0 (R179). -/
def State.zeroAcc (s : State) (c n : Nat) : State :=
  s.modCluster c (fun k => { k with acc := tabDel k.acc n, accPoison := k.accPoison.filter (· != n) })

/-- Records of a cluster's matrix unit (R355, R370). -/
def State.matReport (s : State) (c : Nat) (o : MatOp) (sev retry code : Nat) : State :=
  s.findError (unitWord 3 c, 256 * o.n)
    (fun s => s.report 2 sev (unitWord 3 c) (s.ctxOf (.thread o.thread)) (4096 * o.n) retry 3 code (s.joined (.thread o.thread)))
/-- What a pass finds (R353, R354, R357, R372, R373): a parity error reruns it, a lasting one fences its cell; a single-bit error is
corrected; a double-bit error poisons its tile. The answer says whether the pass runs again. Log 48 (DEDUCED). -/
def State.matUpset (s : State) (c : Nat) (o : MatOp) (u : Upset) : State × Bool :=
  match u with
  | .none => (s, false)
  | .parity again =>
    let cell := (s.cluster c).cellFor (o.n % 16)
    let s := s.findError (unitWord 2 (16 * c + cell), 0) (fun s =>
      s.report 2 (if again then 2 else 0) (unitWord 2 (16 * c + cell)) (s.ctxOf (.thread o.thread)) 0
        (if again then 2 else 1) 0 0x20 (s.joined (.thread o.thread)))
    (if again then s.modCluster c (fun k => { k with cellOff := cell :: k.cellOff }) else s, true)
  | .tag _ => (s, false)
  | .single again =>
    let row := (unitWord 3 c, 256 * o.n)
    if again || s.mgmt.rows.contains row then
      (((s.matReport c o 2 (if s.mgmt.rows.contains row then 0 else 2) 0x22).awaitRow row).modCluster c
        (fun k => { k with fenced := true }), false)
    else (s.matReport c o 0 1 0x22, false)
  | .double => (s.matReport c o 1 0 0x23, false)

/-- The operations of a cell that were admitted before one and have not completed (R174). -/
def State.opsBefore (s : State) (c : Nat) (o : MatOp) : List MatOp :=
  ((s.cluster c).run.takeWhile (fun x => x.id != o.id)).filter (fun x => x.n % 16 == o.n % 16 && !x.zero)
/-- A TZERO: it follows the earlier operations on its tile, whose results may still be on their way (R174, R179).
Log 114 (DEDUCED). -/
def State.zeroOp (s : State) (c : Nat) (o : MatOp) : State :=
  let before := (s.opsBefore c o).map MatOp.id
  (s.zeroAcc c o.n).modCluster c (fun k => { k with
    run := k.run.map (fun x => if before.contains x.id then { x with passed := o.n :: x.passed } else x) })

/-- MMA_COMPLETE (R31, R174, R178, R179, R206). The results of a cell's passes are written in the order of the passes, also where
one is run again (R372). -/
def execMmaComplete (c op : Nat) (u : Upset) (s : State) : Host.Outcome State Fault Refusal :=
  match (s.cluster c).run.find? (fun o => o.id == op) with
  | none => .next s
  | some o =>
    if !o.zero && !(s.opsBefore c o).isEmpty then .next (s.inClk 1 (.mmaComplete c op u))
    else match s.matUpset c o u with
    | (s, true) => .next (s.inClk 32 (.mmaComplete c op .none))
    | (s, false) =>
      let s := match o.a, o.b with
        | some f, some h => s.writePass c o f h
        | _, _ => s.zeroOp c o
      let s := if u = .double && !o.passed.contains o.n then s.modCluster c (fun k => { k with accPoison := o.n :: k.accPoison.filter (· != o.n) }) else s
      let s := s.modCluster c (fun k => { k with run := k.run.filter (fun x => x.id != op) })
      .next (s.opGone c o)

/-! ### The macro-op sequencer -/

/-- SEQUENCER_ENQUEUE (R181, R182): the next pass, where its queue has room; one a clk. Log 47 (DEDUCED). -/
def execSequencerEnqueue (t : Nat) (s : State) : Host.Outcome State Fault Refusal :=
  match (s.thread t).seqr with
  | none => .next s
  | some q =>
    let c := t / 2
    let nt := geomNT q.geom
    let p := q.pass q.kk q.ij
    if (s.thread t).halt then .next s
    else if (s.thread t).spill || !(s.cluster c).room p.1 then .next (s.inClk 1 (.sequencerEnqueue t))
    else
      let o := { matOp t false p.1 p.2.1 p.2.2 q.cfg q.node q.at_ with
        zfirst := q.cfg.getLsbD 0 && q.kk == 0
        release := !q.cfg.getLsbD 1 && q.ij % nt == nt - 1
        seqr := true }
      let s := s.enqueueOp c o
      let last := q.ij + 1 = geomMT q.geom * nt
      let next := { q with kk := if last then q.kk + 1 else q.kk, ij := if last then 0 else q.ij + 1 }
      if next.kk = geomKT q.geom then .next (s.modThread t (fun x => { x with seqr := none }))
      else .next ((s.modThread t (fun x => { x with seqr := some next })).inClk 1 (.sequencerEnqueue t))

/-- Geometry that an MMAB may not have: reserved bits, or handles above 255 (R364). -/
def geomBad (k : Nat) (g : Word) : Bool := bits g.toNat 16 48 != 0 || decide (255 < k + geomNT g * geomKT g - 1)
/-- An MMAB that starts on a thread's free sequencer (R181). -/
def State.startSeq (s : State) (t : Nat) (word : BitVec 32) (g : Word) (cfg : BitVec 2) (node : Option Nat) : State :=
  (s.modThread t (fun x => { x with
    seqr := some { word := word, geom := g, kk := 0, ij := 0, cfg := cfg, node := node, at_ := s.clk } })).soon
    (.sequencerEnqueue t)

/-! ### Owner instructions -/

/-- An owner instruction may proceed: supervisor privilege, or ACCOWNER names the thread (R184). -/
def State.ownsAcc (s : State) (a : Agent) : Bool :=
  let o := (s.cluster a.cluster).accowner
  s.sup a || (accValid o && accThread o == a.threadNo % 2)
/-- ACCOWN: Trap(0x0A, n). -/
def accown (n : Nat) : Act := .trap 0x0A (BitVec.ofNat 64 n)

/-- MMA (R174, R178, R184). -/
def mmaNeed : Need := { vec := false }
def execMma (n : AccNo) (m : FeedNo) (k : HandleNo) (s : State) : Host.Outcome State Fault Refusal :=
  issue mmaNeed (fun c s =>
    let t := c.a.threadNo
    if !s.ownsAcc c.a then accown n.toNat
    else if !(s.cluster c.a.cluster).room n.toNat then .wait .matrix
    else .done (s.enqueueOp c.a.cluster (matOp t false n.toNat m.toNat k.toNat (s.thread t).mcfg none s.clk))) s
/-- TZERO (R179). -/
def execTzero (n : AccNo) (s : State) : Host.Outcome State Fault Refusal :=
  issue mmaNeed (fun c s =>
    let t := c.a.threadNo
    if !s.ownsAcc c.a then accown n.toNat
    else if !(s.cluster c.a.cluster).room n.toNat then .wait .matrix
    else .done (s.enqueueOp c.a.cluster (matOp t true n.toNat 0 0 0 none s.clk))) s
/-- TCFG (R180). -/
def tcfgNeed (d a : SReg) : Need := { src := [a.toNat], dst := [d.toNat], vec := false }
def execTcfg (d a : SReg) (s : State) : Host.Outcome State Fault Refusal :=
  issue (tcfgNeed d a) (fun c s =>
    let t := c.a.threadNo
    let old := (s.thread t).mcfg
    let s := s.modThread t (fun x => { x with mcfg := (c.get s a.toNat).extractLsb' 0 2 })
    .done (s.sset c.a d.toNat (old.setWidth 64))) s
/-- MMAB (R181, R184, R364). -/
def mmabNeed (b : SReg) : Need := { src := [b.toNat], vec := false }
def execMmab (n : AccNo) (m : FeedNo) (k : BitVec 5) (b : SReg) (s : State) : Host.Outcome State Fault Refusal :=
  issue (mmabNeed b) (fun c s =>
    let t := c.a.threadNo
    let g := c.get s b.toNat
    if geomBad (8 * k.toNat) g then .trap 0x01 (illegalVal 12 g.toNat)
    else if !s.ownsAcc c.a then accown n.toNat
    else if (s.thread t).seqr.isSome then .wait .matrix
    else .done (s.startSeq t (BitVec.ofNat 32 (mmabWord n.toNat m.toNat (8 * k.toNat) b.toNat)) g (s.thread t).mcfg none)) s

/-- Whether the tile's operations and an access of memory let an ACCSPILL or ACCFILL go on, after the traps of R362: what is in
its way, or nothing. Log 50 (DEDUCED). -/
def accFirst (c : Ctx) (s : State) (n st : Nat) {α : Type} (va : Nat) (r : Reach α) : Option Act :=
  let (vi, asid) := s.ctxOf c.a
  if va % 16 != 0 then some (.trap 0x03 (BitVec.ofNat 64 va))
  else match r with
    | .denied code va =>
      some (if code = 0x06 then .trapAnd (fun s => s.malformedAt c.a vi asid va) code (BitVec.ofNat 64 va)
        else .trap code (BitVec.ofNat 64 va))
    | .remote va _ _ => some (.trap 0x04 (BitVec.ofNat 64 va))
    | _ =>
      if !s.ownsAcc c.a then some (accown n)
      else if s.tileBusy c.a.cluster n then some (.wait .matrix)
      else if s.engineWaits s.nextId { Engine.start c.a (vi, asid) (s.wgOf c.a) (.binrst 0) st (s.stream c.a st) s.clk with
          spans := [(va, 4096)] } then some (.wait .async)
      else none
/-- The thread waits until its tile has moved (R185). -/
def accWait (c : Ctx) (s : State) : Act :=
  .jump ((s.waitIn c.a c.next (.acc (s.clk + 1 + s.delay))).spend.modThread c.a.threadNo (fun x => { x with acc := none })) c.pc
/-- A page of the tile faults: the thread parks and repeats the whole tile (R163, R175, R185). -/
def accPark (c : Ctx) (s : State) (n va st ipa : Nat) (perm write : Bool) : Act :=
  let (vi, asid) := s.ctxOf c.a
  let (t, tok) := s.raise vi asid va st ipa ((if write then 2 else 1) + if perm then 16 else 0) (s.joined c.a) (.agent c.a)
  .park (t.modThread c.a.threadNo (fun x => { x with acc := some (n, match x.acc with
    | some (m, at_, pc) => if m = n && pc = c.pc then at_ else s.clk
    | none => s.clk, c.pc) })) 0 tok

def accNeed (a : SReg) (st : StreamNo) : Need :=
  { src := [a.toNat], vec := false, waits := acqWaits st }
/-- ACCSPILL (R171, R175, R184, R185, R373). -/
def execAccspill (n : AccNo) (a : SReg) (st : StreamNo) (s : State) : Host.Outcome State Fault Refusal :=
  issue (accNeed a st) (fun c s =>
    let cl := c.a.cluster
    let va := (c.get s a.toNat).toNat
    let (vi, asid) := s.ctxOf c.a
    let t := s.flush c.a s.nextId
    let bad := (s.cluster cl).accPoison.contains n.toNat
    let r := t.writeFor (t.wgOf c.a) c.a none vi asid va (tileBytes (t.tile cl n.toNat)) bad
    match accFirst c t n.toNat st.toNat va r with
    | some x => x
    | none =>
      match r with
      | .ok t _ => accWait c (t.relTile cl n.toNat)
      | .fault va stg ipa p => accPark c t n.toNat va stg ipa p true
      | _ => .wait .async) s
/-- The lowest poisoned sector of a tile in memory (R374). -/
def State.badSector (s : State) (a : Agent) (vi : BitVec 8) (asid : BitVec 16) (va : Nat) : Nat :=
  ((List.range 256).map (fun i => va + 16 * i)).find? (fun x => match s.readFor (s.wgOf a) a none vi asid x 16 with
    | .ok _ (_, bad) => bad
    | _ => false) |>.getD va
/-- ACCFILL (R171, R175, R184, R185, R374). -/
def execAccfill (n : AccNo) (a : SReg) (st : StreamNo) (s : State) : Host.Outcome State Fault Refusal :=
  issue (accNeed a st) (fun c s =>
    let cl := c.a.cluster
    let va := (c.get s a.toNat).toNat
    let (vi, asid) := s.ctxOf c.a
    let t := s.flush c.a s.nextId
    let r := t.readFor (t.wgOf c.a) c.a none vi asid va 4096
    match accFirst c t n.toNat st.toNat va r with
    | some x => x
    | none =>
      match r with
      | .ok u (bs, bad) =>
        if bad then .trap (if s.popt vi asid then 0x10 else 0x08) (BitVec.ofNat 64 (s.badSector c.a vi asid va))
        else
          let u := u.setTile cl n.toNat (bytesTile bs) false
          accWait c (u.modCluster cl (fun k => { k with acclive := k.acclive ||| (1 : BitVec 128) <<< n.toNat }))
      | .fault va stg ipa p => accPark c t n.toNat va stg ipa p false
      | _ => .wait .async) s

/-- ACCREL (R171, R175, R184, R185). -/
def execAccrel (n : AccNo) (k : BitVec 6) (s : State) : Host.Outcome State Fault Refusal :=
  issue mmaNeed (fun c s =>
    let cl := c.a.cluster
    let ns := (List.range (k.toNat + 1)).map (fun i => n.toNat + i)
    if !s.ownsAcc c.a then accown n.toNat
    else if ns.any (s.tileBusy cl) then .wait .matrix
    else .done (ns.foldl (fun s i => s.relTile cl i) s)) s
/-- ACCLIVE (R184, R185). -/
def accliveNeed (d : SReg) : Need := { dst := [d.toNat], vec := false }
def execAcclive (d : SReg) (h : BitVec 1) (s : State) : Host.Outcome State Fault Refusal :=
  issue (accliveNeed d) (fun c s =>
    if !s.ownsAcc c.a then accown 0
    else if (List.range 64).any (fun i => s.tileBusy c.a.cluster (64 * h.toNat + i)) then .wait .matrix
    else .done (s.sset c.a d.toNat ((s.cluster c.a.cluster).acclive.extractLsb' (64 * h.toNat) 64))) s

/-! ### Feeding and draining -/

/-- The columns of a row that a TFEED of BF16 or FP16 writes, with the flags it raises (R25, R176). -/
def feedNarrow (f : FeedFmt) (rm : Rnd) (act : Mask) (src : List Lane) (b : Nat) (old : List Nat) : List Nat × FFlags :=
  let dst := if f = .bf16 then bf16 else fp16
  let xs := (List.range 32).map (fun c =>
    if act.getLsbD (32 * b + c) then convF fp32 dst rm false (lane src (32 * b + c)).toNat else (old.getD c 0, (0 : FFlags)))
  (xs.map (·.1), xs.foldl (fun m x => m ||| x.2) 0)
/-- The two blocks of a row that a TFEED of an SX width writes (R29, R176). -/
def feedBlocks (f : FeedFmt) (rm : Rnd) (act : Mask) (src : List Lane) (b : Nat) (old : List Nat) (heads : List (Nat × Nat)) :
    List Nat × List (Nat × Nat) × FFlags :=
  let half := fun (h : Nat) =>
    let at_ := fun (j : Nat) => 32 * b + 16 * h + j
    if (List.range 16).any (fun j => act.getLsbD (at_ j)) then
      let (blk, fl) := sxPack (feedSx f) rm ((List.range 16).map (fun j => if act.getLsbD (at_ j) then lane src (at_ j) else 0))
      (blk.xs, (blk.e, ((List.range 4).map (fun g => blk.u.getD g 0 * 2 ^ (2 * g))).sum), fl)
    else ((old.drop (16 * h)).take 16, heads.getD h (0, 0), (0 : FFlags))
  let p := half 0
  let q := half 1
  (p.1 ++ q.1, [p.2.1, q.2.1], p.2.2 ||| q.2.2)
/-- One of the three rows of a TFEED (R176). Rows of two formats stay so marked until the slot is released. Log 125 (DESIGN
CHOICE). -/
def Feed.put (x : Feed) (f : FeedFmt) (rm : Rnd) (act : Mask) (src : List Lane) (b row : Nat) : Feed × FFlags :=
  if 32 ≤ row || (act.extractLsb' (32 * b) 32) = 0 then (x, 0)
  else
    let y := { x with wrote := some f, mixed := x.mixed || (x.wrote.isSome && x.wrote != some f) }
    if feedSx f = 0 then
      let (r, fl) := feedNarrow f rm act src b (x.row row)
      ({ y with rows := tabPut y.rows row r }, fl)
    else
      let (r, hs, fl) := feedBlocks f rm act src b (x.row row) (tabGet x.heads row [])
      ({ y with rows := tabPut y.rows row r, heads := tabPut y.heads row hs }, fl)
/-- A sealing TFEED would seal rows of another format (R176, R364). -/
def Feed.clash (x : Feed) (f : FeedFmt) : Bool := x.mixed || (x.wrote.isSome && x.wrote != some f)

/-- TFEED (R99, R169, R175, R176, R364). -/
def tfeedNeed (a : VReg) (b : SReg) (p : Option Prefix) : Need :=
  { src := [b.toNat], vsrc := [a.toNat], lim := [a.toNat], ctl := false, pipe := some 2, draw := .mem, kpfx := pfxK p,
    len := lenP p }
/-- TFEED (R176). Log 44 (DEDUCED). -/
def execTfeed (m : FeedNo) (a : VReg) (b : SReg) (f : FeedFmt) (sl : Bool) (p : Option Prefix) (s : State) :
    Host.Outcome State Fault Refusal :=
  issue (tfeedNeed a b p) (fun c s =>
    let cl := c.a.cluster
    let x := (s.cluster cl).feedOf m.toNat
    if x.ready then .wait .matrix
    else if sl && x.clash f then .trapAnd (fun s => s.setFeed cl m.toNat x.release) 0x11 (BitVec.ofNat 64 m.toNat)
    else
      let row0 := (c.get s b.toNat).toNat
      let src := s.vsrc c.a.groupNo a.toNat (pfxA p)
      let rm := modeOf (s.fmt c.a) p
      let (y, fl) := (List.range 3).foldl (fun (q : Feed × FFlags) i =>
        let r := q.1.put f rm c.act src i (row0 + i)
        (r.1, q.2 ||| r.2)) (x, 0)
      let y := { y with fmt := f }
      .done ((s.setFeed cl m.toNat (if sl then y.seal else y)).raiseFlags c.a fl)) s

/-- The control thread of an agent's workgroup, and whether its program has exited (R184). -/
def State.ctlOf (s : State) (a : Agent) : Option Nat :=
  match s.wgOf a with
  | some w => (s.wg w).ctl
  | none => none
/-- ACCOWNER is VALID and names the thread of the workgroup's control program (R184). -/
def State.drainOwned (s : State) (a : Agent) : Bool :=
  let o := (s.cluster a.cluster).accowner
  match s.ctlOf a with
  | some t => accValid o && accThread o == t % 2
  | none => false
/-- TDRAIN's misuse (R364): no control program, or one that has exited without holding the accumulators. -/
def drainPre (n : Nat) (s : State) (a : Agent) : Option (BitVec 8 × Word) :=
  let exited := match s.wgOf a with
    | some w => (s.wg w).ctlDone
    | none => false
  let away := match s.wgOf a with
    | some w => (s.wg w).suspended.isSome || (s.wg w).saveLost
    | none => false
  if ((s.ctlOf a).isNone && !away) || (exited && !s.drainOwned a) then some (0x01, illegalVal 14 n) else none
/-- TDRAIN (R175, R177, R184, R374). Log 45 (DEDUCED). -/
def tdrainNeed (d : VReg) (n : AccNo) (b : SReg) (p : Option Prefix) : Need :=
  { src := [b.toNat], vdst := [d.toNat], lim := [d.toNat], ctl := false, pipe := some 2, draw := .mem, kpfx := pfxK p,
    lat := 8, len := lenP p, pre := drainPre n.toNat }
def execTdrain (d : VReg) (n : AccNo) (b : SReg) (p : Option Prefix) (s : State) : Host.Outcome State Fault Refusal :=
  issue (tdrainNeed d n b p) (fun c s =>
    let cl := c.a.cluster
    let (vi, asid) := s.ctxOf c.a
    if s.tileBusy cl n.toNat || !s.drainOwned c.a then .wait .matrix
    else
      let row0 := (c.get s b.toNat).toNat
      let act := maskOf (fun i => c.act.getLsbD i && decide (row0 + i / 32 < 32))
      if act != 0 && (s.cluster cl).accPoison.contains n.toNat then
        .trap (if s.popt vi asid then 0x10 else 0x08) (BitVec.ofNat 64 (4096 * n.toNat))
      else
        let t := s.tile cl n.toNat
        .done (s.vmove c.a d.toNat act (pfxZ p) (fun i => t.getD (32 * (row0 + i / 32) + i % 32) 0))) s

end Sys2Proof.Machine
end

