-- ==== Sys2Proof/Machine/Monarch.lean ====
section
/-!
DEFINITION. How work reaches Monarch: launch queues and doorbells, launch and graph records and their checks, eligibility
(spec/18_scheduling.md R259 to R263; spec/03_execution.md R43, R44, R47 to R49; spec/32_errors_context.md R391 to R393).
-/

namespace Sys2Proof.Machine

/-! ### Launch records -/

/-- Word 1 of a level, without its domain and scope (R44). -/
def recLevelRest (r : List Byte) (n : Nat) : Nat := field r (0x48 + 16 * n) 8 / 16
/-- The codes of domains and scopes rise from the widest to the narrowest (R43, R44). -/
def levelOk (r : List Byte) (n : Nat) : Bool :=
  let d := recDomain r n
  let sc := recScope r n
  let size := recSize r n
  recLevelRest r n = 0 && decide (1 ≤ recExtent r n) && size % 4096 = 0 && (sc != 0 || size = 0) &&
    (if n = 1 then decide (2 ≤ d) else decide (d ≤ 2) && decide (d ≤ recDomain r (n - 1))) && decide (sc ≤ d)
/-- Level 0: the groups of a workgroup, and its slices (R41, R44). -/
def groupsOk (r : List Byte) : Bool :=
  let e := recExtent r 0
  field r 0x48 8 = 0 && recSize r 0 % 16 = 0 && decide (recSize r 0 ≤ 1024) &&
    (if recDomain r 1 = 3 then decide (1 ≤ e) && decide (e ≤ 32) else decide (4 ≤ e) && decide (e ≤ 128) && e % 4 = 0)
/-- A launch record keeps R43 and R44, its reserved fields included (R392). -/
def recordOk (r : List Byte) : Bool :=
  field r 0 8 % 2 = 0 && recShape r / 0x10000 = 0 && groupsOk r &&
    ((List.range 7).all (fun i => levelOk r (i + 1))) &&
    ((List.range 8).all (fun q => field r (0xC0 + q) 1 / 32 % 4 = 0)) &&
    ((List.range 16).all (fun n => decide (field r (0xC8 + n) 1 < 128) && decide (field r (0xC8 + n) 1 % 8 < 5))) &&
    decide (field r 0xD8 8 < 512) && decide (bits (field r 0xD8 8) 4 3 < 4) && decide (bits (field r 0xD8 8) 2 2 < 3) &&
    ((r.drop 0xE0).take 160).all (· == 0)
/-- CLUSTER-bound (R41). -/
def recWide (r : List Byte) : Bool := recDomain r 1 = 2

/-! ### What R265 asks of a core and a cluster -/

/-- CTLPC is set (R44, R265). -/
def recCtl (r : List Byte) : Bool := field r 8 8 != 0
/-- Whether a workgroup needs a control thread (R265, R305). -/
def needsCtl (r : List Byte) (back : Option Restart) : Bool := recCtl r && !(back.map (·.ctlDone)).getD false
/-- A workgroup as it takes room: its record and context, its cluster, and its groups on each core. -/
structure Holder where
  record  : List Byte
  ctx     : BitVec 8 × BitVec 16
  cluster : Nat
  on      : List (Nat × Nat)

/-- The core of a group on a workgroup's place (R41). -/
def groupCore (r : List Byte) (cluster core i : Nat) : Nat := if recWide r then 4 * cluster + i % 4 else core
/-- Groups by core of a whole workgroup, or of what a restart record leaves of it (R41, R307). -/
def spread (r : List Byte) (cluster core : Nat) (back : Option Restart) : List (Nat × Nat) :=
  let live := (List.range (recExtent r 0)).filter (fun i => match back with
    | some b => b.live.getD i 0 != 0
    | none => true)
  ((live.map (groupCore r cluster core)).eraseDups).map (fun c => (c, (live.filter (fun i => groupCore r cluster core i == c)).length))
def Holder.groups (h : Holder) (c : Nat) : Nat := ((h.on.filter (fun p => p.1 == c)).map (·.2)).sum

/-- Everything that takes room: placed workgroups, and reservations that no workgroup uses (R49, R265). -/
def State.holders (s : State) : List Holder :=
  let placed := s.wgs.map (fun p =>
    { record := (s.launch p.2.launch).record
      ctx := (p.2.vi, p.2.asid)
      cluster := p.2.cluster
      on := p.2.keys.map (fun g => (g / 32, 1)) : Holder })
  let ghosts := s.monarch.graphs.flatMap (fun g => g.2.resv.filterMap (fun x =>
    match x.2.2.2, tabFind g.2.launches x.1 with
    | none, some k => some
      { record := (s.launch k).record
        ctx := (g.2.vi, g.2.asid)
        cluster := x.2.1
        on := spread (s.launch k).record x.2.1 x.2.2.1 none : Holder }
    | _, _ => none))
  placed ++ ghosts
/-- Control threads of a cluster that reservations hold for workgroups to come (R49, R265). -/
def State.ghostCtls (s : State) (cluster : Nat) : Nat :=
  (s.monarch.graphs.flatMap (fun g => g.2.resv.filter (fun x => match x.2.2.2, tabFind g.2.launches x.1 with
    | none, some k => x.2.1 == cluster && recCtl (s.launch k).record
    | _, _ => false))).length

/-- Bytes of scope memory that stand between two storage addresses. -/
def State.allocIn (s : State) (lo hi : Nat) : Nat :=
  ((s.allocs.filter (fun a => lo ≤ a.1 && a.1 < hi)).map (fun a => a.2.1)).sum
/-- A core can take more groups, with the scope memory that stands once they have theirs (R265). -/
def State.coreTakes (s : State) (hs : List Holder) (h : Holder) (c : Nat) : Bool :=
  let n := h.groups c
  let sum := fun (f : Holder → Nat) => (hs.map (fun x => x.groups c * f x)).sum + n * f h
  let units := s.allocIn (scratchAt c 0) (scratchAt (c + 1) 0)
  let ctxs := ((h :: hs).filter (fun x => x.groups c != 0)).map (fun x => x.ctx)
  n = 0 || (!(s.core c).fenced && decide (sum (fun _ => 1) ≤ 32) && decide (sum (fun x => recNreg x.record) ≤ 1024) &&
    decide (sum (fun x => 96 * recSize x.record 0) + units ≤ 0x40000) && decide (ctxs.eraseDups.length ≤ 8))
/-- The hardware queues of a record, on a cluster, against those that others hold or that are reserved there (R49, R232). -/
def queuesFree (hs : List Holder) (h : Holder) : Bool :=
  hs.all (fun x => x.cluster != h.cluster || x.ctx == h.ctx || (queueSet x.record).all (fun q => !(queueSet h.record).contains q))
/-- Control threads of a cluster that hold nothing, C0 first (R265). -/
def State.freeThreads (s : State) (cluster : Nat) : List Nat :=
  [2 * cluster, 2 * cluster + 1].filter (fun t => (s.thread t).wg.isNone && (s.thread t).ctx.isNone)

/-- The instance of a domain that a core and its cluster lie in: 3 CORE, 2 CLUSTER, 1 DIE, 0 DEVICE (R43). -/
def instanceOf (d cluster core : Nat) : Nat := if d = 3 then core else if d = 2 then cluster else if d = 1 then cluster / 24 else 0
/-- Level units of a workgroup that have memory. -/
def recUnits (r : List Byte) : List Nat := (List.range 7).map (· + 1) |>.filter (fun n => recScope r n != 0 && recSize r n != 0)
/-- The domains that a workgroup's level units are bound to agree with a place (R43). Level 1 binds only where its unit's memory
stands already (R305). -/
def State.domainsOk (s : State) (k num cluster core : Nat) : Bool :=
  let l := s.launch k
  (List.range 7).all (fun i =>
    let n := i + 1
    let u := unitOfLevel l.record n num
    (n = 1 && !s.allocs.any (fun a => a.2.2.1 == k && a.2.2.2.1 == n && a.2.2.2.2 == u)) ||
      l.homes.all (fun h => h.1 != n || h.2.1 != u || h.2.2 == instanceOf (recDomain l.record n) cluster core))

/-! ### Scope memory -/

/-- Offsets of a storage of `size` bytes from `base` on at which `n` bytes are free (R77, R265): multiples of 4 KiB. -/
def State.freeOffsets (s : State) (base size n : Nat) (bad : Nat → Bool) : List Nat :=
  ((List.range (size / 4096)).map (· * 4096)).filter (fun o => decide (o + n ≤ size) &&
    s.allocs.all (fun a => decide (a.1 + a.2.1 ≤ base + o) || decide (base + o + n ≤ a.1)) &&
    !(List.range ((n + 0xFFFF) / 0x10000 + 1)).any (fun i => bad ((o + 0x10000 * i) / 0x10000) &&
      decide ((o + 0x10000 * i) / 0x10000 * 0x10000 < o + n)))
/-- One of several choices that no rule makes. -/
def State.choose (s : State) (xs : List Nat) : Option (State × Nat) :=
  if xs = [] then none else some (s.spend, xs.getD (Config.pick s.free % xs.length) 0)
/-- Storage given to a unit: filled with zeros (R43). -/
def State.giveUnit (s : State) (parts : List Nat) (n k lvl u : Nat) : State :=
  parts.foldl (fun s base => { s with mem := memZero s.mem base n, allocs := s.allocs ++ [(base, n, k, lvl, u)] }) s
/-- The reservation of a launch's node: its graph and node, and where it stands (R49). -/
def State.resvPlace (s : State) (k : Nat) : Option (Nat × Nat × Nat × Nat) :=
  match (s.launch k).graph with
  | none => none
  | some (gid, n) =>
    match tabFind s.monarch.graphs gid with
    | none => none
    | some g => (tabFind g.resv n).map (fun v => (gid, n, v.1, v.2.1))
/-- A place is that of the launch's reservation. -/
def State.atResv (s : State) (k cluster core : Nat) : Bool :=
  match s.resvPlace k with
  | some (_, _, c, o) => c == cluster && (recWide (s.launch k).record || o == core)
  | none => false
/-- A free reservation of the launch's node taken into use by a workgroup on its place (R49). -/
def State.useResv (s : State) (k cluster core w : Nat) : State :=
  match s.resvPlace k with
  | some (gid, n, _, _) => if s.atResv k cluster core then
      { s with monarch := { s.monarch with graphs := tabMod s.monarch.graphs gid (fun g => { g with
          resv := tabMod g.resv n (fun v => if v.2.2.isNone then (v.1, v.2.1, some w) else v) }) } }
    else s
  | none => s
/-- The memory of a level unit, where it has none yet (R43, R79, R265): storage that a reservation holds for the launch on this
place first. Log 54 (DEDUCED). -/
def State.allocUnit (s : State) (k num cluster core lvl : Nat) : Option State :=
  let r := (s.launch k).record
  let u := unitOfLevel r lvl num
  let size := recSize r lvl
  if s.allocs.any (fun a => a.2.2.1 == k && a.2.2.2.1 == lvl && a.2.2.2.2 == u) then some s
  else if u != ghostUnit && s.atResv k cluster core && s.allocs.any (fun a => a.2.2.1 == k && a.2.2.2.1 == lvl && a.2.2.2.2 == ghostUnit) then
    let mine := fun (a : Nat × Nat × Nat × Nat × Nat) => a.2.2.1 == k && a.2.2.2.1 == lvl && a.2.2.2.2 == ghostUnit
    let cleared := (s.allocs.filter mine).foldl (fun m a => memZero m a.1 a.2.1) s.mem
    some { s with
      mem := cleared
      allocs := s.allocs.map (fun a => if mine a then (a.1, a.2.1, k, lvl, u) else a) }
  else
    match recScope r lvl with
    | 3 => match s.choose (s.freeOffsets (scratchAt core 0) 0x40000 size (fun _ => false)) with
      | none => none
      | some (s, o) => some (s.giveUnit [scratchAt core o] size k lvl u)
    | 2 =>
      if recWide r then
        let bases := (List.range 4).map (fun l => sliceAt (4 * cluster + l) 0)
        let all := bases.map (fun b => s.freeOffsets b 0x40000 (size / 4) (fun _ => false))
        match s.choose ((all.getD 0 []).filter (fun o => all.all (fun x => x.contains o))) with
        | none => none
        | some (s, o) => some (s.giveUnit (bases.map (· + o)) (size / 4) k lvl u)
      else match s.choose (s.freeOffsets (sliceAt core 0) 0x40000 size (fun _ => false)) with
        | none => none
        | some (s, o) => some (s.giveUnit [sliceAt core o] size k lvl u)
    | _ =>
      let d := cluster / 24
      match s.choose (s.freeOffsets (chipAt d 0) (0x4000000 - 0x200000 * (s.die d).nslot) size
          (fun p => (s.die d).bad.contains p)) with
      | none => none
      | some (s, o) => some (s.giveUnit [chipAt d o] size k lvl u)
/-- The memory of every level unit of a workgroup. -/
def State.allocUnits (s : State) (k num cluster core : Nat) (lvls : List Nat) : Option State :=
  match lvls with
  | [] => some s
  | n :: r => match s.allocUnit k num cluster core n with
    | none => none
    | some s => s.allocUnits k num cluster core r

/-- A workgroup, new or waiting for relaunch, fits on a core or cluster (R265); its node's reservation counts for it there (R49). -/
def State.fits (s : State) (k num cluster core : Nat) (back : Option Restart) : Bool :=
  let l := s.launch k
  let h : Holder := { record := l.record, ctx := (l.vi, l.asid), cluster := cluster, on := spread l.record cluster core back }
  let s := s.useResv k cluster core 0
  let hs := s.holders
  (s.viClusters l.vi).contains cluster && queuesFree hs h &&
    (!needsCtl l.record back ||
      (!(s.cluster cluster).fenced && decide (s.ghostCtls cluster < (s.freeThreads cluster).length))) &&
    s.domainsOk k num cluster core &&
    match s.allocUnits k num cluster core (recUnits l.record) with
    | none => false
    | some t => (h.on.map (·.1)).all (t.coreTakes hs h)
/-- Places of a workgroup on a cluster: one for a CLUSTER-bound one, else each of its cores. -/
def placesOn (r : List Byte) (cluster : Nat) : List (Nat × Nat) :=
  if recWide r then [(cluster, 4 * cluster)] else (List.range 4).map (fun l => (cluster, 4 * cluster + l))
/-- The Choxia with nothing placed and nothing reserved. -/
def State.emptied (s : State) : State :=
  { s with
    wgs := []
    groups := []
    threads := []
    allocs := []
    monarch := { s.monarch with graphs := [] } }
/-- One workgroup fits somewhere on the CLMAP with every other absent (R392). -/
def State.canRun (s : State) (k : Nat) : Bool :=
  let l := s.launch k
  let e := s.emptied
  (s.viClusters l.vi).any (fun c => (placesOn l.record c).any (fun p => e.fits k 0 p.1 p.2 none))

/-! ### Arrival -/

/-- Launches and graphs of a virtual interface that Monarch holds, and of all (R260). -/
def State.heldBy (s : State) (vi : BitVec 8) : Nat :=
  (s.monarch.launches.filter (fun l => l.2.vi == vi && l.2.graph.isNone)).length +
    (s.monarch.graphs.filter (fun g => g.2.vi == vi)).length
def State.heldAll (s : State) : Nat :=
  (s.monarch.launches.filter (fun l => l.2.graph.isNone)).length + s.monarch.graphs.length

/-- The next launch id of a virtual interface (R282). -/
def State.takeId (s : State) (vi : BitVec 8) : State × Nat :=
  let n := tabGet s.monarch.ids vi.toNat 1
  ({ s with monarch := { s.monarch with ids := tabPut s.monarch.ids vi.toNat (n + 1) } }, n)
/-- The arrival of a workgroup of a node kernel (R261). -/
def State.takeArrival (s : State) : State × Nat :=
  ({ s with monarch := { s.monarch with arrivals := s.monarch.arrivals + 1 } }, s.monarch.arrivals)
/-- A number for a launch or graph, and its arrival. -/
def State.takeKey (s : State) : State × Nat :=
  ({ s with monarch := { s.monarch with nextKey := s.monarch.nextKey + 1, arrivals := s.monarch.arrivals + 1 } },
    s.monarch.nextKey)
/-- A launch or graph is refused: its record under a code, then its completion object (R392). Log 55 (DEDUCED). -/
def State.refuseLaunch (s : State) (vi : BitVec 8) (asid : BitVec 16) (l : Launch) (code addr done : Nat) : State :=
  let word := s.nextRecord code 7
  let s := s.report 7 1 (unitWord 9 0) (vi, asid) addr 0 1 code (s.nameOf vi asid l 0 0)
  s.complete vi asid done l.ended word

/-- A launch as it stands at its arrival. -/
def newLaunch (s : State) (vi : BitVec 8) (asid : BitVec 16) (r : List Byte) (cap id : Nat) (kpid ktid : BitVec 32) : Launch :=
  { Launch.blank with
    cap := cap
    id := BitVec.ofNat 32 id
    vi := vi
    asid := asid
    record := r
    prio := Nat.min (recPrio r) cap
    arrival := s.monarch.arrivals
    kpid := kpid
    ktid := ktid }

/-- A launch submitted (R260, R261, R392): the checks, then it waits for its AFTER objects. A refused launch of a node tells its
node. -/
def State.submit (s : State) (vi : BitVec 8) (asid : BitVec 16) (r : List Byte) (addr maxPrio : Nat) (kpid ktid : BitVec 32)
    (node : Option (Nat × Nat)) : State :=
  let (s, id) := s.takeId vi
  let l := { newLaunch s vi asid r maxPrio id kpid ktid with node := node }
  let (s, k) := s.takeKey
  let fail := fun (s : State) (code : Nat) =>
    let word := s.nextRecord code 7
    let s := s.refuseLaunch vi asid l code addr (field r 0x18 8)
    match node with
    | none => s
    | some (c, n) => (s.modCluster c (fun x => { x with node := tabMod x.node n (fun y => { y with error := word }) })).soon
        (.nodeComplete c n)
  if !recordOk r then fail s 0x80
  else
    let t : State := { s with monarch := { s.monarch with launches := tabPut s.monarch.launches k l } }
    if !t.canRun k then fail s 0x83 else t.soon .eligibilityCheck

/-! ### Graphs -/

/-- Fields of a node entry (R47). -/
def nodeEntry (table : List Byte) (n : Nat) : List Byte := (table.drop (32 * n)).take 32
def nodeUsed (table : List Byte) (n : Nat) : Bool := field (nodeEntry table n) 0 8 != 0
def nodeRec (table : List Byte) (n : Nat) : Nat := field (nodeEntry table n) 0x14 2
def nodeCoal (table : List Byte) (n : Nat) : Nat := field (nodeEntry table n) 0x16 2
def nodeCap (table : List Byte) (n : Nat) : Nat := field (nodeEntry table n) 0x10 4
/-- Successor s of a node, where it is valid and used. -/
def nodeSucc (table : List Byte) (n s : Nat) : Option Nat :=
  let b := field (nodeEntry table n) (0x18 + s) 1
  if 128 ≤ b && nodeUsed table (b % 64) then some (b % 64) else none
/-- A used entry keeps R47. -/
def entryOk (table : List Byte) (n : Nat) : Bool :=
  let e := nodeEntry table n
  let r := nodeRec table n
  decide (4 ≤ r) && decide (r ≤ 64) && r % 4 = 0 && decide (1 ≤ nodeCoal table n) && decide (nodeCoal table n ≤ 96) &&
    ((List.range 4).all (fun i => field e (0x18 + i) 1 / 64 % 2 = 0)) && field e 0x1C 4 = 0
/-- A node kernel's record: level 1 in CORE or CLUSTER scope, with room for a batch (R47). -/
def kernelOk (table r : List Byte) (n : Nat) : Bool :=
  recordOk r && decide (2 ≤ recScope r 1) && decide (nodeRec table n * nodeCoal table n ≤ recSize r 1)

/-- Bytes of a context for Monarch; none where they cannot be reached. -/
def State.monRead (s : State) (vi : BitVec 8) (asid : BitVec 16) (va n : Nat) : Option (State × List Byte) :=
  match s.readHome vi asid va n with
  | .ok s (bs, _) => some (s, bs)
  | _ => none

/-- The first of several reads that meets a fault (R298). -/
def State.firstFault (s : State) (vi : BitVec 8) (asid : BitVec 16) (rs : List (Nat × Nat)) : Option (Nat × Nat × Nat × Bool) :=
  rs.findSome? (fun r => match s.readHome vi asid r.1 r.2 with
    | .fault va st ipa p => some (va, st, ipa, p)
    | _ => none)
/-- Monarch waits for a page (R298): a step goes on when the fault has been served. -/
def State.monWait (s : State) (vi : BitVec 8) (asid : BitVec 16) (f : Nat × Nat × Nat × Bool) (i : Instr) : State :=
  (s.raise vi asid f.1 f.2.1 f.2.2.1 (1 + if f.2.2.2 then 16 else 0) noName (.step i)).1

/-- The kernels of a graph's used nodes, as captured at its arrival: node, address and record (R261). -/
def State.kernels (s : State) (vi : BitVec 8) (asid : BitVec 16) (table : List Byte) : State × List (Nat × Nat × List Byte) :=
  ((List.range 64).filter (nodeUsed table)).foldl (fun (p : State × List (Nat × Nat × List Byte)) n =>
    let va := field (nodeEntry table n) 0 8
    match p.1.monRead vi asid va 512 with
    | some (s, bs) => (s, p.2 ++ [(n, va, bs)])
    | none => (p.1, p.2 ++ [(n, va, [])])) (s, [])

/-- What the arrival of a graph record reads: its table, and the records of its used nodes (R261, R262). -/
def State.graphReads (s : State) (vi : BitVec 8) (asid : BitVec 16) (r : List Byte) : List (Nat × Nat) :=
  let t := field r 0 8
  if t % 64 != 0 then []
  else (t, 2048) :: match s.monRead vi asid t 2048 with
    | some (_, table) => ((List.range 64).filter (nodeUsed table)).map (fun n => (field (nodeEntry table n) 0 8, 512))
    | none => []
/-- A graph record and everything it names are checked and captured (R261, R262, R392). A kernel's address need not be a multiple of
64 here, which the list of R392 does not check. Log 126 (DESIGN CHOICE). -/
def State.submitGraph (s : State) (vi : BitVec 8) (asid : BitVec 16) (r : List Byte) (addr maxPrio : Nat)
    (kpid ktid : BitVec 32) : State :=
  let (s, id) := s.takeId vi
  let name := newLaunch s vi asid r 0 id kpid ktid
  let (s, gid) := s.takeKey
  let fail := fun (s : State) (code at_ : Nat) => s.refuseLaunch vi asid name code at_ (field r 0x18 8)
  let table := match s.monRead vi asid (field r 0 8) 2048 with
    | some (_, bs) => bs
    | none => []
  let entry := field r 0x14 1
  let (s, ks) := s.kernels vi asid table
  if field r 0x15 3 != 0 || 64 ≤ entry || field r 0 8 % 64 != 0 || table = [] || !nodeUsed table entry then fail s 0x82 addr
  else match ks.find? (fun k => !entryOk table k.1 || !kernelOk table k.2.2 k.1) with
    | some (_, va, _) => fail s 0x80 va
    | none =>
      let g : Graph := {
        vi := vi
        asid := asid
        record := r
        prio := maxPrio
        arrival := s.monarch.arrivals
        active := false
        table := table
        queues := []
        spilled := []
        reported := []
        launches := []
        wgs := 0
        ended := 0
        ending := none
        kpid := kpid
        ktid := ktid
        resv := [] }
      let make := fun (p : State × Tab Nat) (k : Nat × Nat × List Byte) =>
        let (s, key) := p.1.takeKey
        let l := { newLaunch s vi asid k.2.2 maxPrio id kpid ktid with
          graph := some (gid, k.1), arrival := g.arrival }
        (({ s with monarch := { s.monarch with launches := tabPut s.monarch.launches key l } } : State), tabPut p.2 k.1 key)
      let (t, keys) := ks.foldl make (s, [])
      match ks.find? (fun k => !t.canRun (tabGet keys k.1 0)) with
      | some (_, va, _) => fail s 0x83 va
      | none => ({ t with monarch := { t.monarch with
          graphs := tabPut t.monarch.graphs gid { g with launches := keys } } } : State).soon .eligibilityCheck

/-! ### Queues -/

/-- The descriptor of a launch queue, its context, and its fields (R259, R300). -/
structure LaunchQueue where
  va    : Nat
  asid  : BitVec 16
  base  : Nat
  size  : Nat
  head  : Nat
  tail  : Nat
  prio  : Nat
  good  : Bool

def State.launchQueue (s : State) (vi : BitVec 8) (q : Nat) : Option (State × LaunchQueue) :=
  let va := s.viField vi (0x40 + 8 * q) 8
  let asid := BitVec.ofNat 16 (s.viField vi (0x80 + 2 * q) 2)
  match s.monRead vi asid va 64 with
  | none => none
  | some (s, d) =>
    let size := field d 8 4
    some (s, {
      va := va
      asid := asid
      base := field d 0 8
      size := size
      head := field d 0xC 4
      tail := field d 0x10 4
      prio := field d 0x14 1 % 8
      good := va % 64 = 0 && field d 0 8 % 64 = 0 && (List.range 13).any (fun i => size == 2 ^ (i + 4)) &&
        decide (field d 0x14 1 < 8) && (d.drop 0x15).all (· == 0) })
/-- Entries that wait in a queue. -/
def LaunchQueue.waiting (q : LaunchQueue) : Nat := (q.tail + 2 ^ 32 - q.head) % 2 ^ 32

/-- The key of a launch queue in the list of rung doorbells. Log 108 (DEDUCED). -/
def bellKey (vi : BitVec 8) (q : Nat) : Nat := 8 * vi.toNat + q
def State.setBells (s : State) (f : List Bell → List Bell) : State := { s with monarch := { s.monarch with bells := f s.monarch.bells } }
/-- A queue is no longer served. -/
def State.endBell (s : State) (key : Nat) : State := s.setBells (fun bs => bs.filter (fun b => b.key != key))
/-- The service of a queue goes on before anything else of its clk (R260). -/
def State.serve (s : State) (key : Nat) : State := s.first (.launchArrival (BitVec.ofNat 8 (key / 8)) (BitVec.ofNat 3 (key % 8)))
/-- CODE 0x81 (R391, R392). -/
def State.queueReport (s : State) (vi : BitVec 8) (asid : BitVec 16) (va : Nat) : State :=
  s.report 7 1 (unitWord 9 0) (vi, asid) va 0 1 0x81 noName

/-- A queue of which Monarch reads TAIL, for the names of a doorbell's writer (R260, R298, R392). One that holds more than its SIZE is
reported once. -/
def State.readTail (s : State) (vi : BitVec 8) (q : Nat) (kpid ktid : BitVec 32) : State :=
  let key := bellKey vi q
  let va := s.viField vi (0x40 + 8 * q) 8
  let asid := BitVec.ofNat 16 (s.viField vi (0x80 + 2 * q) 2)
  match s.firstFault vi asid [(va, 64)] with
  | some f =>
    let s := s.setBells (fun bs => bs.filter (fun b => b.key != key) ++
      [{ key := key, kpid := kpid, ktid := ktid, tail := 0, again := some (kpid, ktid) }])
    s.monWait vi asid f (.launchArrival vi (BitVec.ofNat 3 q))
  | none =>
    match s.launchQueue vi q with
    | none => (s.queueReport vi asid va).endBell key
    | some (s, d) =>
      if !d.good then (s.queueReport vi d.asid d.va).endBell key
      else if d.size < d.waiting then
        if s.monarch.ovf.contains key then s.endBell key
        else (({ s with monarch := { s.monarch with ovf := key :: s.monarch.ovf } } : State).queueReport vi d.asid d.va).endBell key
      else
        let s := { s with monarch := { s.monarch with ovf := s.monarch.ovf.filter (· != key) } }
        (s.setBells (fun bs => bs.filter (fun b => b.key != key) ++
          [{ key := key, kpid := kpid, ktid := ktid, tail := d.tail, again := none }])).serve key
/-- A doorbell of a launch queue (R260): Monarch serves the queue, or, while it is serving it, reads TAIL once more at the end. -/
def State.ringBell (s : State) (vi : BitVec 8) (q : Nat) (kpid ktid : BitVec 32) : State :=
  let key := bellKey vi q
  if !s.viBit vi 0 then s
  else if s.monarch.bells.any (fun b => b.key == key) then
    s.setBells (fun bs => bs.map (fun b => if b.key == key then { b with again := some (kpid, ktid) } else b))
  else s.readTail vi q kpid ktid

/-- The record of an entry is copied and checked (R259, R260, R392). -/
def State.takeEntry (s : State) (vi : BitVec 8) (d : LaunchQueue) (ent : Nat) (at_ : Nat) (kpid ktid : BitVec 32) : State :=
  let addr := ent / 64 * 64
  let n := if ent % 4 = 0 then 512 else 64
  if 2 ≤ ent % 4 || ent / 4 % 16 != 0 then s.queueReport vi d.asid at_
  else match s.monRead vi d.asid addr n with
    | none => s.report 7 1 (unitWord 9 0) (vi, d.asid) addr 0 1 (if ent % 4 = 0 then 0x80 else 0x82) noName
    | some (s, r) =>
      if ent % 4 = 0 then s.submit vi d.asid r addr d.prio kpid ktid none
      else s.submitGraph vi d.asid r addr d.prio kpid ktid

/-- What the next entry of a queue reads before it can be taken (R260 to R262). -/
def State.entryReads (s : State) (vi : BitVec 8) (d : LaunchQueue) (at_ : Nat) : List (Nat × Nat) :=
  match s.monRead vi d.asid at_ 8 with
  | none => [(at_, 8)]
  | some (_, bs) =>
    let ent := ofBytes bs
    let addr := ent / 64 * 64
    if 2 ≤ ent % 4 || ent / 4 % 16 != 0 then []
    else if ent % 4 = 0 then [(addr, 512)]
    else (addr, 64) :: match s.monRead vi d.asid addr 64 with
      | some (_, r) => s.graphReads vi d.asid r
      | none => []
/-- LAUNCH_ARRIVAL (R260): one entry, then HEAD; the queue goes on to the TAIL that was read, while there is room, and then to a TAIL
for a doorbell written since. A page that faults is waited for (R298). -/
def execLaunchArrival (vi : BitVec 8) (q : BitVec 3) (s : State) : Host.Outcome State Fault Refusal :=
  let key := bellKey vi q.toNat
  match s.monarch.bells.find? (fun b => b.key == key) with
  | none => .next s
  | some b =>
    let va := s.viField vi (0x40 + 8 * q.toNat) 8
    let asid := BitVec.ofNat 16 (s.viField vi (0x80 + 2 * q.toNat) 2)
    if s.monarch.closed.contains vi.toNat || 64 ≤ s.heldBy vi || 4096 ≤ s.heldAll then .next s
    else match s.firstFault vi asid [(va, 64)] with
    | some f => .next (s.monWait vi asid f (.launchArrival vi q))
    | none => match s.launchQueue vi q.toNat with
      | none => .next ((s.queueReport vi asid va).endBell key)
      | some (s, d) =>
        if d.head = b.tail then .next (match b.again with
          | some n => s.readTail vi q.toNat n.1 n.2
          | none => s.endBell key)
        else if d.size < d.waiting then
          .next ((({ s with monarch := { s.monarch with ovf := key :: s.monarch.ovf.filter (· != key) } } : State).queueReport vi
            d.asid d.va).endBell key)
        else
          let at_ := d.base + 8 * (d.head % d.size)
          match s.firstFault vi d.asid (s.entryReads vi d at_) with
          | some f => .next (s.monWait vi d.asid f (.launchArrival vi q))
          | none =>
            match s.monRead vi d.asid at_ 8 with
            | none => .next ((s.queueReport vi d.asid at_).endBell key)
            | some (s, bs) =>
              let s := s.takeEntry vi d (ofBytes bs) at_ b.kpid b.ktid
              let s := s.writeOwn .device vi d.asid 0 (d.va + 0xC) (toBytes ((d.head + 1) % 2 ^ 32) 4)
              .next (s.serve key)

/-! ### Records and batches of a work graph -/

def State.modGraph (s : State) (gid : Nat) (f : Graph → Graph) : State :=
  { s with monarch := { s.monarch with graphs := tabMod s.monarch.graphs gid f } }
def Graph.queue (g : Graph) (n : Nat) : List (List Byte) := tabGet g.queues n []
/-- Where a node's spill area stands, and the place in it of its i-th record (R47, R50): records of RECSIZE bytes, around SPILLCAP.
Log 56 (DESIGN CHOICE). -/
def spillAt (table : List Byte) (n i : Nat) : Nat :=
  field (nodeEntry table n) 8 8 + nodeRec table n * (i % nodeCap table n)
/-- Records in a node's spill area, and in its queue and area together. -/
def Graph.out (g : Graph) (n : Nat) : Nat × Nat := tabGet g.spilled n (0, 0)
def Graph.total (g : Graph) (n : Nat) : Nat := (g.queue n).length + (g.out n).2
/-- Records go to the end of a node's spill area (R50). -/
def State.spillRecs (s : State) (gid n : Nat) (recs : List (List Byte)) : State :=
  match tabFind s.monarch.graphs gid with
  | none => s
  | some g =>
    let (h, c) := g.out n
    let s := (recs.zip (List.range recs.length)).foldl (fun s r =>
      s.writeOwn .device g.vi g.asid 0 (spillAt g.table n (h + c + r.2)) r.1) s
    s.modGraph gid (fun g => { g with spilled := tabPut g.spilled n (h, c + recs.length) })
/-- The first records of a node's spill area; a page that faults is waited for (R298). -/
def State.unspill (s : State) (gid n count : Nat) : State × Option (List (List Byte)) :=
  match tabFind s.monarch.graphs gid with
  | none => (s, none)
  | some g =>
    let (h, c) := g.out n
    let at_ := (List.range count).map (fun i => spillAt g.table n (h + i))
    match s.firstFault g.vi g.asid (at_.map (fun a => (a, nodeRec g.table n))) with
    | some f => (s.monWait g.vi g.asid f (.nodeFlush gid n), none)
    | none =>
      let recs := at_.map (fun a => match s.monRead g.vi g.asid a (nodeRec g.table n) with
        | some (_, bs) => bs
        | none => List.replicate (nodeRec g.table n) 0)
      (s.modGraph gid (fun g => { g with spilled := tabPut g.spilled n (h + count, c - count) }), some recs)
/-- Records of the spill area take the places that are free in the queue on the die (R50). -/
def State.refill (s : State) (gid n : Nat) : State :=
  match tabFind s.monarch.graphs gid with
  | none => s
  | some g =>
    let k := Nat.min (g.out n).2 (Config.onDie - (g.queue n).length)
    if k = 0 then s
    else match s.unspill gid n k with
      | (s, some recs) => s.modGraph gid (fun g => { g with queues := tabPut g.queues n (g.queue n ++ recs) })
      | (s, none) => s
/-- A workgroup on a batch joins its node's launch, where the batch can be read (R48, R261); the answer says whether it could. -/
def State.addBatch (s : State) (gid n count : Nat) : State × Bool :=
  match tabFind s.monarch.graphs gid with
  | none => (s, false)
  | some g =>
    let here := (g.queue n).take count
    match (if here.length < count then s.unspill gid n (count - here.length) else (s, some [])) with
    | (s, none) => (s, false)
    | (s, some more) =>
      let k := tabGet g.launches n 0
      let s := s.modGraph gid (fun g => { g with queues := tabPut g.queues n ((g.queue n).drop count), wgs := g.wgs + 1 })
      let (s, at_) := s.takeArrival
      ((s.modLaunch k (fun l => { l with batches := tabPut l.batches l.batches.length (at_, here ++ more) })).refill gid n, true)
/-- Full batches leave a node's queue (R48). -/
def State.gather (s : State) (gid n : Nat) : Nat → State
  | 0 => s
  | f + 1 =>
    match tabFind s.monarch.graphs gid with
    | none => s
    | some g =>
      if nodeCoal g.table n = 0 || g.total n < nodeCoal g.table n then s
      else match s.addBatch gid n (nodeCoal g.table n) with
        | (s, true) => s.gather gid n f
        | (s, false) => s
/-- A node's queue and spill area take more records (R50). -/
def Graph.room (g : Graph) (n : Nat) : Nat := if (g.out n).2 = 0 then Config.onDie - (g.queue n).length else 0
def Graph.takes (g : Graph) (n count : Nat) : Bool := count ≤ g.room n + (nodeCap g.table n - (g.out n).2)
/-- Records that reach a node's queue in order, those beyond its capacity in the spill area (R48, R50); 0x84 may be reported again once
the spill area is half empty (R393). -/
def State.arrive_ (s : State) (gid n : Nat) (recs : List (List Byte)) : State :=
  match tabFind s.monarch.graphs gid with
  | none => s
  | some g =>
    let now := if g.takes n recs.length then recs.take (g.room n) else recs
    let s := s.modGraph gid (fun g => { g with queues := tabPut g.queues n (g.queue n ++ now) })
    let s := if now.length < recs.length then s.spillRecs gid n (recs.drop now.length) else s
    let s := s.gather gid n (recs.length + 1)
    s.modGraph gid (fun g =>
      if (g.out n).2 * 2 ≤ nodeCap g.table n then { g with reported := g.reported.filter (· != n) } else g)

/-- A workgroup of a node is placed, pending or waiting for relaunch (R48). -/
def State.nodeActive (s : State) (g : Graph) (n : Nat) : Bool :=
  match tabFind g.launches n with
  | none => false
  | some k => s.wgs.any (fun p => p.2.launch == k) || (s.launch k).next < (s.launch k).batches.length || !(s.launch k).wait.isEmpty
/-- A node is to be flushed (R48). -/
def State.flushes (s : State) (g : Graph) (n : Nat) : Bool :=
  let q := g.total n
  g.active && q != 0 && decide (q < nodeCoal g.table n) &&
    (List.range 64).all (fun m => !(List.range 4).any (fun i => nodeSucc g.table m i == some n) || !s.nodeActive g m)
/-- NODE_FLUSH (R48): batches that wait for a page of the spill area gather (R298); a node that is to be flushed launches on what is
left. -/
def execNodeFlush (graph node : Nat) (s : State) : Host.Outcome State Fault Refusal :=
  match tabFind s.monarch.graphs graph with
  | none => .next s
  | some g0 =>
    let s := (s.refill graph node).gather graph node (g0.total node + 1)
    match tabFind s.monarch.graphs graph with
    | none => .next s
    | some g => if s.flushes g node then .next (s.addBatch graph node (g.total node)).1 else .next s
/-- The flushes of a graph, in ascending node number. -/
def State.flushAll (s : State) : State :=
  s.monarch.graphs.foldl (fun s g =>
    ((List.range 64).filter (fun n => s.flushes g.2 n)).foldl (fun s n => s.soon (.nodeFlush g.1 n)) s) s

/-! ### Eligibility -/

/-- A completion object reads STATE 1; 0 names none (R263). -/
def State.afterDone (s : State) (vi : BitVec 8) (asid : BitVec 16) (va : Nat) : Bool :=
  va = 0 || (s.peekNum vi asid va 4).2 = 1
def State.afters (s : State) (vi : BitVec 8) (asid : BitVec 16) (r : List Byte) : Bool :=
  (List.range 4).all (fun i => s.afterDone vi asid (field r (0x20 + 8 * i) 8))
/-- A page of an AFTER object that faults is reported, and the check is made again when it has been served (R298). -/
def State.askAfters (s : State) (vi : BitVec 8) (asid : BitVec 16) (r : List Byte) : State :=
  (List.range 4).foldl (fun s i =>
    let va := field r (0x20 + 8 * i) 8
    if va = 0 then s
    else match s.firstFault vi asid [(va, 4)] with
      | some f => s.monWait vi asid f .eligibilityCheck
      | none => s) s
/-- Queues that wait for room are served again (R260). -/
def State.ringBells (s : State) : State :=
  s.monarch.bells.foldl (fun s b => s.soon (.launchArrival (BitVec.ofNat 8 (b.key / 8)) (BitVec.ofNat 3 (b.key % 8)))) s
/-- ELIGIBILITY_CHECK (R260, R262, R263, R298). -/
def execEligibilityCheck (s : State) : Host.Outcome State Fault Refusal :=
  let look := fun (_ : Nat) (l : Launch) =>
    if l.graph.isNone && !l.eligible && s.afters l.vi l.asid l.record then { l with eligible := true } else l
  let t : State := { s with monarch := { s.monarch with launches := tabMap s.monarch.launches look } }
  let active := (s.monarch.graphs.filter (fun g => g.2.active)).length
  let ready := s.monarch.graphs.filter (fun g => !g.2.active && s.afters g.2.vi g.2.asid g.2.record)
  let t := (ready.take (256 - active)).foldl (fun s g => s.soon (.graphActivate g.1)) t
  let asks := (t.monarch.launches.filter (fun l => l.2.graph.isNone && !l.2.eligible)).map (fun l => (l.2.vi, l.2.asid, l.2.record)) ++
    (t.monarch.graphs.filter (fun g => !g.2.active)).map (fun g => (g.2.vi, g.2.asid, g.2.record))
  let t := asks.foldl (fun s a => s.askAfters a.1 a.2.1 a.2.2) t
  .next ((t.ringBells).flushAll)

/-! ### Activation -/

/-- A reservation of one workgroup of a node's kernel, on the first place that fits it (R49). -/
def State.reserve (s : State) (gid n : Nat) : State :=
  match tabFind s.monarch.graphs gid with
  | none => s
  | some g =>
    let k := tabGet g.launches n 0
    let r := (s.launch k).record
    if (tabFind g.resv n).isSome then s
    else match ((s.viClusters g.vi).flatMap (placesOn r)).find? (fun p => s.fits k 0 p.1 p.2 none) with
      | none => s
      | some (cluster, core) =>
        let ghost := fun (o : Option State) (lvl : Nat) => match o with
          | none => none
          | some s => s.allocUnit k (ghostUnit * ((List.range (lvl - 1)).map (fun i => recExtent r (i + 1))).foldl (· * ·) 1)
              cluster core lvl
        match (recUnits r).foldl ghost (some s) with
        | none => s
        | some s => s.modGraph gid (fun g => { g with resv := tabPut g.resv n (cluster, core, none) })
/-- Every used node of a graph holds its reservation (R49). -/
def Graph.reserved (g : Graph) : Bool := g.launches.all (fun p => (tabFind g.resv p.1).isSome)
/-- GRAPH_ACTIVATE (R49, R262): reservations, the node table, then the initial records; reservations that are not held yet are
tried again, and a page that faults is waited for (R298). -/
def execGraphActivate (id : Nat) (s : State) : Host.Outcome State Fault Refusal :=
  match tabFind s.monarch.graphs id with
  | none => .next s
  | some g =>
    let nodes := g.launches.map (·.1)
    let t := nodes.foldl (fun s n => s.reserve id n) s
    let held := match tabFind t.monarch.graphs id with
      | some x => x.reserved
      | none => false
    let again := fun (s : State) => if held then s else s.inClk 1 (.graphActivate id)
    if g.active then .next (again t)
    else
      let at_ := field g.record 0 8
      let (t, table) := (t.monRead g.vi g.asid at_ 2048).getD (t, g.table)
      let entry := field g.record 0x14 1
      let size := nodeRec table entry
      let seeds := (List.range (field g.record 0x10 4)).map (fun i => field g.record 8 8 + size * i)
      match t.firstFault g.vi g.asid ((at_, 2048) :: seeds.map (fun a => (a, size))) with
      | some f => .next (t.monWait g.vi g.asid f (.graphActivate id))
      | none =>
        let recs := seeds.map (fun a => match t.monRead g.vi g.asid a size with
          | some (_, bs) => bs
          | none => List.replicate size 0)
        let t := t.modGraph id (fun x => { x with active := true, table := table })
        let t := (g.launches.map (·.2)).foldl (fun s k => s.modLaunch k (fun l => { l with eligible := true })) t
        .next (again (((t.arrive_ id entry recs).flushAll).graphCheck id))

end Sys2Proof.Machine
end

