-- ==== Sys2Proof/Machine/Placement.lean ====
section
/-!
DEFINITION. Placement and what takes work off a core again: the state of a launched or relaunched group and control program
(spec/03_execution.md R45; spec/25_prog_lazysave.md R345), Monarch's decisions (spec/18_scheduling.md R264, R265;
spec/04_stacks.md R70, R71), the discard, the grace period and the restart (spec/21_preemption.md R303 to R312;
spec/32_errors_context.md R393 to R395), and what a migration record brings (R307, R314, R397).
-/

namespace Sys2Proof.Machine

/-! ### Launch state -/

/-- STDEF as a stream table (R44, R45). -/
def recStreams (r : List Byte) : Tab (BitVec 7) := (List.range 16).map (fun n => (n, BitVec.ofNat 7 (field r (0xC8 + n) 1)))
/-- QBIND: the ports that are bound (R44, R105). -/
def recPorts (r : List Byte) : Tab (BitVec 5) :=
  (List.range 8).filterMap (fun q =>
    let b := field r (0xC0 + q) 1
    if 128 ≤ b then some (q, BitVec.ofNat 5 (b % 32)) else none)
/-- ARG0 to ARG15 in s1 to s16 (R45). -/
def recArgs (r : List Byte) : Tab Word := (List.range 16).map (fun i => (i + 1, BitVec.ofNat 64 (field r (0x180 + 8 * i) 8)))
/-- A split as a launch or relaunch makes it (R45). -/
def newSplit (r : List Byte) (pc : Word) (live : Mask) (clk : Nat) : Split :=
  { strand := Strand.start pc clk
    ex := live
    fmt := BitVec.ofNat 9 (field r 0xD8 8)
    flags := 0
    nest := []
    draw := 0
    drawNext := 0 }
/-- A group as a launch or relaunch makes it (R45); it can issue from the clk after (R265). Lanes outside the live mask count as
retired. Log 129 (DESIGN CHOICE). -/
def newGroup (r : List Byte) (w idx : Nat) (pc : Word) (live : Mask) (batch : Option (Word × Nat)) (stalls : Tab Word)
    (clk : Nat) : Group :=
  let extra := match batch with
    | some (va, n) => [(17, va), (18, BitVec.ofNat 64 n)]
    | none => []
  { Group.blank with
    nreg := recNreg r
    s := recArgs r ++ extra
    drawcls := BitVec.ofNat 2 (recDraw r)
    st := recStreams r
    gstall := stalls
    port := recPorts r
    splits := [(0, newSplit r pc live clk)]
    retired := ~~~live
    wg := w
    idx := idx
    from_ := clk + 1 }
/-- A control program at its start; CTLPC bit 0 of a hypervisor's launch starts it as a supervisor in its handler (R45, R345). -/
def State.newThread (s : State) (r : List Byte) (vi : BitVec 8) (asid : BitVec 16) (w : Nat) : Thread :=
  let pc := BitVec.ofNat 64 (field r 8 8)
  let hyp := pc.getLsbD 0 && s.viBit vi 3
  { Thread.reset with
    strand := { Strand.start (pc &&& ~~~(1 : Word)) s.clk with handler := hyp }
    s := recArgs r
    sup := hyp
    st := recStreams r
    port := recPorts r
    ctx := some (vi, asid)
    wg := some w }
/-- A saved program on a thread again: a delay runs from now (R305, R309), and a stopped workgroup's issues nothing (R283). A relaunch
shares the new descriptors of its workgroup (R305). -/
def State.thawed (s : State) (x : Thread) (w : Option Nat) (stopped fresh : Bool) : Thread :=
  let waits := x.strand.delay != 0
  { x with
    wg := w
    halt := false
    t := if fresh then [] else x.t
    strand := { x.strand with
      delay := if waits then s.clk + x.strand.delay else 0
      last := s.clk
      stopped := stopped
      why := if stopped then .trap else if waits then .sync else .fetch } }
/-- ACCOWNER names a context of another virtual interface (R311). -/
def State.foreignTag (s : State) (cluster : Nat) (vi : BitVec 8) : Bool :=
  let tag := accTag (s.cluster cluster).accowner
  tag.getLsbD 31 && tag.extractLsb' 16 8 != vi
/-- Operations of other programs on live tiles have not ended (R175). -/
def State.tilesInUse (s : State) (t : Nat) : Bool :=
  let o := s.modThread t (fun x => { x with seqr := none })
  (s.liveTiles (t / 2)).any (o.tileBusy (t / 2))
/-- Tiles that another virtual interface's context left are spilled before a thread takes a context, also where that context still runs
on the other thread (R311). Log 57 (DEDUCED). -/
def State.eagerSpill (s : State) (cluster : Nat) (vi : BitVec 8) : State :=
  if s.foreignTag cluster vi then
    let tag := accTag (s.cluster cluster).accowner
    ((s.spillAll cluster (tag.extractLsb' 16 8) (tag.extractLsb' 0 16) noName).1).modCluster cluster (fun k => { k with accowner := 0 })
  else s
/-- A thread that waits for that spill: it is made once the operations on the tiles have ended, as ACCSPILL's is (R175, R311). -/
def State.pollSpill (s : State) (t : Nat) : State :=
  if (s.thread t).spill && !s.tilesInUse t then
    (s.eagerSpill (t / 2) ((s.thread t).ctx.getD (0, 0)).1).modThread t (fun x => { x with spill := false })
  else s
/-- A context on a control thread, with its bank (R274, R275, R311); a sequencer goes on from its pass (R182).
Log 107 (DEDUCED). -/
def State.takeThread (s : State) (t : Nat) (x : Thread) : State :=
  let (vi, asid) := x.ctx.getD (0, 0)
  let s := ((s.openThread t vi asid).modThread t (fun _ => { x with spill := s.foreignTag (t / 2) vi })).pollSpill t
  if x.seqr.isSome then s.soon (.sequencerEnqueue t) else s

/-- LVLBASEn of a workgroup: the window address of its level-n unit's memory (R42). -/
def State.unitBase (s : State) (k num lvl : Nat) : Word :=
  let u := unitOfLevel (s.launch k).record lvl num
  match s.allocs.find? (fun a => a.2.2.1 == k && a.2.2.2.1 == lvl && a.2.2.2.2 == u) with
  | none => 0
  | some (a, _) =>
    if a < sliceAt 0 0 then BitVec.ofNat 64 (0xFFF1000000000 + a % 0x40000)
    else if a < chipAt 0 0 then BitVec.ofNat 64 (0xFFF2000000000 + (a - sliceAt 0 0) % 0x100000)
    else BitVec.ofNat 64 (0xFFF3000000000 + (a - chipAt 0 0) % 0x4000000)
/-- A batch copied to the start of a workgroup's level-1 memory, part by part (R48, R265). -/
def State.putBatch (s : State) (k num : Nat) (bs : List Byte) : State :=
  let parts := s.allocs.filter (fun a => a.2.2.1 == k && a.2.2.2.1 == 1 && a.2.2.2.2 == num)
  (parts.foldl (fun (p : State × List Byte) a =>
    (p.1.putBytes a.1 (p.2.take a.2.1), p.2.drop a.2.1)) (s, bs)).1

/-- When a launch begins, its context's lines leave the instruction caches of its dies (R90). -/
def State.beginLaunch (s : State) (k : Nat) : State :=
  let l := s.launch k
  let dev := s.devAsid l.vi l.asid
  let dies := (s.viClusters l.vi).map (fun c => c / 24)
  let drop := fun (u : CoreUnit) => { u with icache := u.icache.filter (fun p => keyDev p.1 != dev) }
  { s with
    cores := tabMap s.cores (fun c x => if dies.contains (c / 96) then { x with unit := drop x.unit } else x)
    clusters := tabMap s.clusters (fun c x => if dies.contains (c / 24) then { x with unit := drop x.unit } else x) }

/-- A free group slot on a core. -/
def State.freeSlot (s : State) (core : Nat) : Option (State × Nat) :=
  let held := s.wgs.flatMap (fun p => p.2.keys)
  s.choose ((List.range 32).map (32 * core + ·) |>.filter (fun g => !held.contains g && (tabFind s.groups g).isNone))
/-- Slots for the live groups of a workgroup, which is entered in the table so that no two take one. -/
def State.takeSlots (s : State) (w : Nat) (core : Nat → Nat) (live : List (Nat × Mask)) : State :=
  live.foldl (fun s p =>
    match s.freeSlot (core p.1) with
    | none => s
    | some (s, g) => s.modWg w (fun x => { x with groups := x.groups.set p.1 (some g), keys := x.keys ++ [g] })) s

/-- A workgroup placed on a cluster and core (R41, R43, R45, R264, R265, R305). What Monarch has acquired, and what an emitter
did before its EMIT, stands before its groups: their cores drop clean sectors, as an acquire does (R236, R263).
Log 69 (DEDUCED). -/
def State.place (s : State) (k num cluster core : Nat) (back : Option Restart) : State :=
  let l := s.launch k
  let r := l.record
  let s := if l.next = 0 && back.isNone then s.beginLaunch k else s
  match s.allocUnits k num cluster core (recUnits r) with
  | none => s
  | some s =>
    let w := s.monarch.placed + 1
    let code := BitVec.ofNat 64 (field r 0 8)
    let n := recExtent r 0
    let live := match back with
      | some b => (List.range n).map (fun i => b.live.getD i 0)
      | none => List.replicate n allOnes96
    let resume := match back with
      | some b => b.resume
      | none => code
    let got := tabFind l.batches num
    let base := s.unitBase k num 1
    let s := match got with
      | some (_, recs) => s.putBatch k num recs.flatten
      | none => s
    let x : Workgroup := { Workgroup.blank with
      launch := k
      num := num
      vi := l.vi
      asid := l.asid
      wide := recWide r
      cluster := cluster
      core := core
      groups := List.replicate n none
      stalls := (back.map (·.stalls)).getD []
      totals := (back.map (·.totals)).getD []
      ctlDone := (back.map (·.ctlDone)).getD false
      resume := resume
      buffers := true
      live := live
      bases := (List.range 7).map (fun i => s.unitBase k num (i + 1))
      batch := got
      stopped := (back.map (·.stopped)).getD false
      placed := w }
    let homes := ((List.range 7).map (· + 1)).map (fun i =>
      (i, unitOfLevel r i num, instanceOf (recDomain r i) cluster core))
    let keep := l.homes.filter (fun h => !homes.any (fun g => g.1 == h.1 && g.2.1 == h.2.1))
    let s : State := { s with
      wgs := tabPut s.wgs w x
      monarch := { s.monarch with placed := w } }
    let s := s.modLaunch k (fun l => { l with
      homes := homes ++ keep
      next := if back.isNone then num + 1 else l.next
      wait := l.wait.filter (fun p => p.1 != num) })
    let at_ := fun (i : Nat) => if recWide r then 4 * cluster + i % 4 else core
    let s := s.takeSlots w at_ (((List.range n).map (fun i => (i, live.getD i 0))).filter (fun p => p.2 != 0))
    let batch := got.map (fun b => (base, b.2.length))
    let put := fun (s : State) (i : Nat) =>
      match (s.wg w).groups.getD i none with
      | none => s
      | some g =>
        let grp := newGroup r w i resume (live.getD i 0) batch (tabGet x.stalls i []) s.clk
        let size := 96 * recSize r 0
        let s : State := { s with
          groups := tabPut s.groups g grp
          mem := memZero s.mem (laneAt g) size
          allocs := if size = 0 then s.allocs else s.allocs ++ [(laneAt g, size, k, 0, g)] }
        let s := s.invalidate (g / 32) (BitVec.allOnes 16)
        (s.openBank (g / 32) l.vi l.asid).modCore (g / 32) (fun c => { c with keeping := none })
    let s := (List.range n).foldl put s
    let s := s.useResv k cluster core w
    let s := match (if recCtl r && !x.ctlDone then s.freeThreads cluster else []) with
      | [] => s
      | t :: _ =>
        let thr := match back.bind (·.ctl) with
          | some y => s.thawed y (some w) x.stopped true
          | none => s.newThread r l.vi l.asid w
        (s.takeThread t thr).modWg w (fun x => { x with ctl := some t })
    let s := s.traceWg w 3 resume
    if x.stopped then s.setStopped w true else s

/-! ### Decisions -/

/-- The next workgroup of a launch: of those that wait for relaunch and the next new one, the lowest number (R265). -/
def Launch.candidate (l : Launch) : Option (Nat × Option Restart) :=
  let total := match l.graph with
    | some _ => l.batches.length
    | none => launchSize l.record
  let new := if l.next < total && !l.dead then some (l.next, none) else none
  match l.wait.mergeSort (fun a b => a.1 ≤ b.1), new with
  | (n, r) :: _, some (m, _) => if n < m then some (n, some r) else new
  | (n, r) :: _, none => some (n, some r)
  | [], x => x
/-- The arrival that ranks a launch: a node kernel's is that of its next workgroup, when its batch gathered or was flushed (R261). -/
def Launch.rank (l : Launch) : Nat :=
  match l.graph, l.candidate with
  | some _, some (num, _) => (tabGet l.batches num (l.arrival, [])).1
  | _, _ => l.arrival
/-- Eligible launches with something to place, in order (R264): priority, then arrival. Log 60 (DEDUCED). -/
def State.order (s : State) : List (Nat × Launch) :=
  (s.monarch.launches.filter (fun p => p.2.eligible && p.2.candidate.isSome && s.viBit p.2.vi 0 && (match p.2.graph with
    | some (gid, _) => (match tabFind s.monarch.graphs gid with
      | some g => g.reserved
      | none => false)
    | none => true))).mergeSort (fun a b => decide (b.2.prio < a.2.prio) || (a.2.prio == b.2.prio && a.2.rank ≤ b.2.rank))

/-- Rank of a core: the highest class of its groups, MATRIX as MID (R71). -/
def clsRank (c : Nat) : Nat := if c = 3 then 1 else c
def State.coreRank (s : State) (core : Nat) : Option Nat :=
  match (s.groupsOn core).map (fun p => clsRank p.2.drawcls.toNat) with
  | [] => none
  | x :: r => some (r.foldl Nat.max x)
/-- Spread of a cluster with one more workgroup of a class on a core (R71). -/
def State.spreadWith (s : State) (cluster core cls : Nat) : Nat :=
  let ranks := (List.range 4).filterMap (fun l =>
    let c := 4 * cluster + l
    if c = core then some (Nat.max (clsRank cls) ((s.coreRank c).getD 0)) else s.coreRank c)
  match ranks with
  | [] => 0
  | x :: r => r.foldl Nat.max x - r.foldl Nat.min x

/-- A level above 1 whose unit is bound to one cluster that is still to be chosen (R265). -/
def State.chooses (s : State) (k num : Nat) : Bool :=
  let l := s.launch k
  (List.range 6).any (fun i => recDomain l.record (i + 2) = 2 &&
    !l.homes.any (fun h => h.1 == i + 2 && h.2.1 == unitOfLevel l.record (i + 2) num))
/-- Where a workgroup goes on a die: by R71, the place of least spread; a CLUSTER-bound one, or one whose level unit chooses its
cluster, the lowest cluster (R71, R265). -/
def State.placeFor (s : State) (die k num : Nat) (back : Option Restart) : Option (Nat × Nat) :=
  let l := s.launch k
  let r := l.record
  let places := ((s.viClusters l.vi).filter (fun c => c / 24 == die)).mergeSort (· ≤ ·) |>.flatMap (placesOn r)
  let good := places.filter (fun p => s.fits k num p.1 p.2 back)
  match good with
  | [] => none
  | p :: _ =>
    if recWide r then some p
    else
      let good := if s.chooses k num then good.filter (fun q => q.1 == p.1) else good
      let score := fun (q : Nat × Nat) => s.spreadWith q.1 q.2 (recDraw r)
      some (good.foldl (fun best q => if score q < score best then q else best) p)

/-- The Choxia as it will be once a workgroup has left. -/
def State.without (s : State) (w : Nat) : State :=
  let x := s.wg w
  { s with
    wgs := tabDel s.wgs w
    groups := s.groups.filter (fun p => p.2.wg != w)
    threads := match x.ctl with
      | some t => tabPut s.threads t Thread.reset
      | none => s.threads
    allocs := s.allocs.filter (fun a => a.2.2.2.1 != 0 || !x.keys.contains a.2.2.2.2) }
def State.withoutAll (s : State) (ws : List Nat) : State := ws.foldl State.without s

/-- Discardable (R53, R54). -/
def State.discardable (s : State) (w : Nat) : Bool := (s.wg w).buffers
/-- Every split of a workgroup waits under BARRIER, QUEUE, ASYNC or SYNC (R393). -/
def State.allWait (s : State) (w : Nat) : Bool :=
  ((s.wg w).groups.filterMap id).all (fun g => (s.group g).splits.all (fun p =>
    match p.2.strand.wait with
    | some (.barrier ..) => true
    | some (.counter ..) => true
    | some (.node ..) => true
    | some .region => true
    | some (.fence ..) => true
    | some .coll => true
    | some (.answer ..) => true
    | some _ => false
    | none => p.2.strand.why == .queue || p.2.strand.why == .sync || p.2.strand.why == .async || p.2.strand.why == .barrier))
/-- A node kernel's workgroup whose batch has gathered, whose reservation is in use and that fits on no die (R393). -/
def State.crowded (s : State) (k num : Nat) (back : Option Restart) : Bool :=
  match (s.launch k).graph with
  | none => false
  | some (gid, n) => match tabFind s.monarch.graphs gid with
    | none => false
    | some g => (match tabFind g.resv n with
        | some (_, _, some _) => true
        | _ => false) && (List.range 4).all (fun d => (s.placeFor d k num back).isNone)
/-- Workgroups that a launch may displace: of lower priority; of its own graph, where they only wait and the launch may take them
(R264, R393). Log 59 (DEDUCED). -/
def State.victims (s : State) (l : Launch) (die : Nat) (crowded : Bool) : List Nat :=
  let same := fun (k : Nat) => crowded && match l.graph, (s.launch k).graph with
    | some (a, _), some (b, _) => a == b
    | _, _ => false
  ((s.wgs.filter (fun p => p.2.cluster / 24 == die && p.2.discard.isNone && !p.2.preempt && !p.2.dead &&
    (decide ((s.launch p.2.launch).prio < l.prio) || (same p.2.launch && s.discardable p.1 && s.allWait p.1)))).mergeSort
      (fun a b => decide ((s.launch a.2.launch).prio < (s.launch b.2.launch).prio) ||
        ((s.launch a.2.launch).prio == (s.launch b.2.launch).prio && b.2.placed ≤ a.2.placed))).map (·.1)
/-- Workgroups of a list that are not needed for a fit are spared, the last chosen first. -/
def State.prune (s : State) (ok : State → Bool) (take : List Nat) : List Nat :=
  take.reverse.foldl (fun keep w => let less := keep.filter (· != w); if ok (s.withoutAll less) then less else keep) take
/-- The shortest run of victims that makes a place fit (R264). -/
def State.cut (s : State) (ok : State → Bool) (vs : List Nat) : Option (List Nat) :=
  match (List.range (vs.length + 1)).find? (fun n => ok (s.withoutAll (vs.take n))) with
  | some n => some (s.prune ok (vs.take n))
  | none => none
/-- Of two lists of placement numbers, the later placed (R264). -/
def laterPlaced : List Nat → List Nat → Bool
  | x :: xs, y :: ys => decide (y < x) || (x == y && laterPlaced xs ys)
  | _ :: _, [] => true
  | [], _ => false
/-- Of two sets of victims: the lower highest priority, then the fewer, then the more recently placed (R264). -/
def State.betterSet (s : State) (a b : List Nat) : Bool :=
  let worst := fun (ws : List Nat) => (ws.map (fun w => (s.launch (s.wg w).launch).prio)).foldl Nat.max 0
  let recent := fun (ws : List Nat) => (ws.map (fun w => (s.wg w).placed)).mergeSort (fun x y => y ≤ x)
  decide (worst a < worst b) || (worst a == worst b && (decide (a.length < b.length) ||
    (a.length == b.length && laterPlaced (recent a) (recent b))))
/-- What a head that does not fit takes away on one core or cluster of the die (R264, step 2): discardable workgroups only where
that is enough; the set whose highest priority is lowest, then the smallest, then the most recently placed. -/
def State.displace (s : State) (die k num : Nat) (back : Option Restart) : List Nat :=
  let l := s.launch k
  let r := l.record
  let places := ((s.viClusters l.vi).filter (fun c => c / 24 == die)).mergeSort (· ≤ ·) |>.flatMap (placesOn r)
  let on := fun (p : Nat × Nat) (w : Nat) =>
    (s.wg w).cluster == p.1 && (recWide r || (s.wg w).wide || (s.wg w).core == p.2 || (needsCtl r back && (s.wg w).ctl.isSome) ||
      !recUnits r == [])
  let try_ := fun (vs : List Nat) =>
    match places.filterMap (fun p => s.cut (fun t => t.fits k num p.1 p.2 back) (vs.filter (on p))) with
    | [] => none
    | x :: rest => some (rest.foldl (fun best y => if s.betterSet y best then y else best) x)
  let vs := s.victims l die (s.crowded k num back)
  match try_ (vs.filter s.discardable) with
  | some ws => ws
  | none => (try_ vs).getD []
/-- Workgroups that are on their way out already: discarded, or pre-empted. -/
def State.leaving (s : State) : List Nat := (s.wgs.filter (fun p => p.2.discard.isSome || p.2.preempt)).map (·.1)

/-- A workgroup is pre-empted (R303, R304, R306): discarded in this clk, or at its next REGION. -/
def State.preemptWg (s : State) (w : Nat) : State :=
  let x := s.wg w
  if x.discard.isSome || x.dead then s
  else if x.buffers then s.discard w
  else s.modWg w (fun x => { x with preempt := true })
/-- A pending pre-emption of a workgroup that holds matrix state starts its grace timer when the incoming work needs its
cluster's control thread or accumulators (R312). -/
def State.startGrace (s : State) (w : Nat) : State :=
  let x := s.wg w
  let running := x.ctl.isSome && !x.ctlDone
  if x.preempt && x.grace.isNone && (running || s.holdsAcc w) then
    let p := s.viPart x.vi
    let n := tabGet s.mgmt.grace p 120000
    (s.modWg w (fun x => { x with grace := some (s.clk + n) })).inClk n (.graceExpiry w)
  else s
/-- The timers of the cluster where the head will stand, once what leaves has left (R312). -/
def State.startGraces (s : State) (die k num : Nat) (back : Option Restart) : State :=
  match (s.withoutAll s.leaving).placeFor die k num back with
  | none => s
  | some (cluster, _) =>
    if needsCtl (s.launch k).record back then
      (s.wgs.filter (fun p => p.2.cluster == cluster && p.2.preempt)).foldl (fun s p => s.startGrace p.1) s
    else s

/-! ### Restart records and migration -/

/-- FLAGS of a restart record (R307). -/
def Restart.flags (b : Restart) : Nat :=
  (if b.discardable then 1 else 0) + (if b.ctl.isSome then 2 else 0) + (if b.pending then 4 else 0) +
    (if b.suspended then 8 else 0) + (if b.saveLost then 16 else 0) + (if b.ctlDone then 32 else 0)
/-- The bytes of a restart record (R307). -/
def State.restartBytes (s : State) (l : Launch) (num : Nat) (b : Restart) : List Byte :=
  toBytes l.id.toNat 4 ++ toBytes num 4 ++ toBytes b.resume.toNat 8 ++ toBytes b.flags 1 ++ toBytes b.live.length 1 ++
    List.replicate 46 0 ++ b.live.flatMap (fun m => toBytes m.toNat 16) ++
    match b.ctl with
    | some x => ctlBlock s x
    | none => []
/-- A restart record read from its bytes, for a context (R307): WGNUM, and what it holds. Accounting totals are not in it. -/
def readRestart (bs : List Byte) (vi : BitVec 8) (asid : BitVec 16) : Nat × Restart :=
  let flags := field bs 0x10 1
  let n := field bs 0x11 1
  (field bs 4 4, {
    resume := BitVec.ofNat 64 (field bs 8 8)
    discardable := flags.testBit 0
    ctl := if flags.testBit 1 then some (blockThread (bs.drop (0x40 + 16 * n)) vi asid) else none
    pending := flags.testBit 2
    suspended := flags.testBit 3
    saveLost := flags.testBit 4
    ctlDone := flags.testBit 5
    live := (List.range n).map (fun g => BitVec.ofNat 96 (field bs (0x40 + 16 * g) 12))
    totals := []
    stalls := []
    batch := none
    stopped := false })
/-- What the restart record of a placed workgroup holds (R307). -/
def Workgroup.restart (x : Workgroup) : Restart :=
  { resume := x.resume
    discardable := x.buffers
    ctl := x.suspended
    pending := x.preempt
    suspended := x.suspended.isSome
    saveLost := x.saveLost
    ctlDone := x.ctlDone
    live := x.live
    totals := x.totals
    stalls := x.stalls
    batch := x.batch
    stopped := x.stopped }
/-- The restart records that Monarch keeps, as debuggers read them: of every placed workgroup, and of every one that waits for relaunch
(R307). Log 130 (DEDUCED). -/
def State.restartRecords (s : State) : List (List Byte) :=
  s.wgs.map (fun p => s.restartBytes (s.launch p.2.launch) p.2.num p.2.restart) ++
    s.monarch.launches.flatMap (fun p => p.2.wait.map (fun x => s.restartBytes p.2 x.1 x.2))

/-- A launch of a migration record (R314, R397): it goes on here, or ends, under 0x86 where a workgroup was not discarded, under 0x83
where it fits no cluster. Log 119 (DESIGN CHOICE). -/
def State.takeMoved (s : State) (vi : BitVec 8) (m : MovedLaunch) : State :=
  let backs := m.restarts.map (fun bs => readRestart bs vi m.asid)
  let l := { newLaunch s vi m.asid m.record m.cap m.id.toNat m.kpid m.ktid with
    eligible := true, next := m.next, ended := m.ended, wait := backs }
  let (s, k) := s.takeKey
  let t : State := { s with monarch := { s.monarch with
    launches := tabPut s.monarch.launches k l
    ids := tabPut s.monarch.ids vi.toNat (Nat.max (tabGet s.monarch.ids vi.toNat 1) (m.id.toNat + 1)) } }
  let fail := fun (code : Nat) => s.refuseLaunch vi m.asid l code 0 (field m.record 0x18 8)
  if backs.any (fun b => b.2.pending || b.2.suspended) then fail 0x86
  else if !t.canRun k then fail 0x83
  else t

/-! ### The decision -/

/-- The decision of a die (R264, R393). -/
def State.decide_ (s : State) (d : Nat) : State :=
  match s.order with
  | [] => s
  | (k, l) :: rest =>
    match l.candidate with
    | none => s
    | some (num, back) =>
      match s.placeFor d k num back with
      | some (cluster, core) => s.place k num cluster core back
      | none =>
        let soonFits := (s.withoutAll s.leaving).placeFor d k num back
        let s := if soonFits.isSome then s else (s.displace d k num back).foldl State.preemptWg s
        let s := s.startGraces d k num back
        let lower := rest.findSome? (fun p =>
          if p.2.prio < l.prio then
            match p.2.candidate with
            | none => none
            | some (n, b) => (s.placeFor d p.1 n b).map (fun q => (p.1, n, q, b))
          else none)
        match lower with
        | some (j, n, (cluster, core), b) => s.place j n cluster core b
        | none => s
/-- PLACEMENT_DECISION (R264, R393); with it come the launches of a migration record (R397). -/
def execPlacementDecision (p : Placing) (s : State) : Host.Outcome State Fault Refusal :=
  let s := match p.moved with
    | some m => if s.viBit m.vi 0 then m.launches.foldl (fun (s : State) l => s.takeMoved m.vi l) s else s
    | none => s
  .next (s.decide_ p.die.val)

/-! ### Saves -/

/-- FIRED nodes of a control context that must complete before a save: all but the one of an MMAB that the resume record holds
(R309). -/
def State.firedNodes (s : State) (t : Nat) : Bool :=
  (s.cluster (t / 2)).node.any (fun n => n.2.thread == t && n.2.state == .fired && (match (s.thread t).seqr with
    | some q => q.node != some n.1
    | none => true))
/-- An access of a thread that its waiting sequence has not performed: it is not issued, and issues again (R309). -/
def Access.undone (t : Nat) (x : Access) : Bool := x.agent == .thread t && (x.what == 0 || x.what == 2) && x.held && !x.performed
/-- A thread that the context engine has stopped may be saved (R309): its matrix work has ended (step 3), and so has what its issued
sequences still owe its registers. Log 105 (DEDUCED). -/
def State.saveReady (s : State) (t : Nat) : Bool :=
  !s.matBusy t && !s.firedNodes t &&
    !s.accesses.any (fun p => p.2.agent == .thread t && (p.2.what == 0 || p.2.what == 2) && !p.2.undone t) &&
    match (s.thread t).strand.wait with
    | some (.acc _) => false
    | _ => true
/-- The control program of a workgroup as it is saved, with the barriers that it shares (R308, R309). -/
def State.savedCtl (s : State) (t : Nat) : Thread :=
  let x := s.frozen (s.thread t)
  { x with
    halt := false
    wg := none
    b := match x.wg with
      | some w => (s.wg w).b
      | none => x.b }
/-- What a stopped thread had not issued is forgotten with it (R309). -/
def State.dropUndone (s : State) (t : Nat) : State :=
  { s with
    accesses := s.accesses.filter (fun p => !p.2.undone t)
    faults := tabMap s.faults (fun _ f => { f with splits := f.splits.filter (fun a => a.1 != .thread t) }) }
/-- The control program of a placed workgroup leaves its thread (R312, R394, R395): saved unless it has exited, its tiles spilled to its
own context's area. A program that has exited is not suspended; its tiles stand in the area. `keep` writes its block to the area too
(R313). Log 127 (DESIGN CHOICE). -/
def State.suspendWg (s : State) (w : Nat) (keep : Bool) : State :=
  let x := s.wg w
  match x.ctl with
  | none => s
  | some t =>
    let saved := s.savedCtl t
    let (s, ok) := if s.holdsAcc w then
        let (s, ok) := s.spillAll x.cluster x.vi x.asid (s.joinedWg w)
        (s.modCluster x.cluster (fun k => { k with accowner := 0 }), ok)
      else (s, true)
    let (s, ok) := if !keep || x.ctlDone || !ok then (s, ok) else match s.areaByte x.vi x.asid 0 with
      | some pa => (s.putBytes pa (ctlBlock s saved), true)
      | none => (s.lostSave x.cluster x.vi x.asid 0 (s.joinedWg w), false)
    let s := (s.dropUndone t).freeThread t
    s.modWg w (fun x => { x with
      ctl := none, grace := none, suspended := if ok && !x.ctlDone then some saved else none, saveLost := !ok })

/-- Step 5 of a discard (R304, R395): the saved program, and whether its save was lost. -/
def State.discardCtl (s : State) (w : Nat) : State × Option Thread × Bool :=
  let x := s.wg w
  match x.ctl with
  | none => (s, x.suspended, x.saveLost)
  | some t =>
    if x.ctlDone then
      (if s.holdsAcc w then
        (s.relAll x.cluster).modCluster x.cluster (fun k => { k with accowner := k.accowner &&& ~~~(4 : Word) })
      else s, none, false)
    else
      let saved := s.savedCtl t
      let s := s.dropUndone t
      if s.holdsAcc w then
        let (s, ok) := s.spillAll x.cluster x.vi x.asid (s.joinedWg w)
        (s.modCluster x.cluster (fun k => { k with accowner := 0 }), if ok then some saved else none, !ok)
      else (s, some saved, false)
/-- A core that a discard leaves without a group begins to keep (R70). -/
def State.beginKeeping (s : State) (c : Nat) : State :=
  if (s.groupsOn c).isEmpty then (s.modCore c (fun k => { k with keeping := some s.clk })).inClk 4096 (.keepingEnd c) else s
/-- DISCARD_COMPLETE (R70, R304 to R307, R395): from the fifth clk the groups are gone; then engines; then the control program is
stopped and saved; then write-backs, the accumulators, the restart record and the residency. -/
def execDiscardComplete (w : Nat) (s : State) : Host.Outcome State Fault Refusal :=
  match tabFind s.wgs w with
  | none => .next s
  | some x =>
    let s := x.liveCores.foldl State.beginKeeping (s.dropGroups w)
    let again := fun (s : State) => s.inClk 1 (.discardComplete w)
    if s.enginesOf w then .next (again s)
    else
      let s := match x.ctl with
        | some t => if x.ctlDone then s else s.modThread t (fun y => { y with halt := true })
        | none => s
      if match x.ctl with
        | some t => !x.ctlDone && !s.saveReady t
        | none => false
      then .next (again s)
      else
        let (s, ctl, lost) := (s.drainWg w).discardCtl w
        let b : Restart := { (s.wg w).restart with
          discardable := true, ctl := ctl, pending := false, suspended := false, saveLost := lost }
        .next ((s.modLaunch x.launch (fun l => { l with wait := l.wait ++ [(x.num, b)] })).freeWg w)

/-- GRACE_EXPIRY (R312, R394, R395): the program is saved, its tiles are spilled, and its thread is free. A workgroup that has
reached its REGION by now is left to R306. -/
def execGraceExpiry (w : Nat) (s : State) : Host.Outcome State Fault Refusal :=
  let x := s.wg w
  match x.grace, x.ctl with
  | some at_, some t =>
    if s.clk < at_ || !x.preempt || x.discard.isSome || (x.ctlDone && !s.holdsAcc w) then .next s
    else
      let s := s.modThread t (fun y => { y with halt := true })
      if !s.saveReady t then .next (s.inClk 1 (.graceExpiry w))
      else
        let pc := (s.thread t).strand.pc.toNat
        .next ((s.report 7 0 (unitWord 10 (x.cluster / 24)) (x.vi, x.asid) pc 0 1 0x85 (s.joinedWg w)).suspendWg w false)
  | _, _ => .next s

/-- SUSPENDED_RESTORE (R312, R394); the program of a tenant whose slice has ended waits until it is enabled again (R313). -/
def execSuspendedRestore (w : Nat) (s : State) : Host.Outcome State Fault Refusal :=
  let x := s.wg w
  match x.suspended, s.freeThreads x.cluster with
  | some y, t :: _ =>
    if s.monarch.closed.contains x.vi.toNat then .next s
    else .next ((s.takeThread t (s.thawed y (some w) x.stopped false)).modWg w (fun x => { x with ctl := some t, suspended := none }))
  | _, _ => .next s

end Sys2Proof.Machine
end

