-- ==== Sys2Proof/Machine/Graph.lean ====
section
/-!
DEFINITION. The command graph (spec/13_isa_engines.md R204 to R206; spec/31_errors_engines.md R387; spec/16_memory_model.md R241)
and EMIT of the work graph (spec/15_isa_system.md R236; spec/03_execution.md R48 to R50; spec/32_errors_context.md R393).
-/

namespace Sys2Proof.Machine

def State.node (s : State) (c n : Nat) : Node := tabGet (s.cluster c).node n Node.blank
def State.setNode (s : State) (c n : Nat) (x : Node) : State := s.modCluster c (fun k => { k with node := tabPut k.node n x })

/-! ### Nodes that fail -/

/-- The nodes that successor edges reach from a set of nodes. -/
def State.reachable (s : State) (c : Nat) (from_ : List Nat) : Nat → List Nat
  | 0 => from_
  | f + 1 =>
    let more := from_.flatMap (fun n => (s.node c n).succ)
    s.reachable c (from_ ++ more.filter (fun m => !from_.contains m)).eraseDups f

/-- The name of the thread of a node, where it still runs the context that defined it. -/
def State.nodeName (s : State) (x : Node) : List Byte :=
  if (s.thread x.thread).ctx == some (x.vi, x.asid) then s.joined (.thread x.thread) else noName
/-- A node cancelled by a failure (R387): DONE without firing, one record, and the DONE object of a launch. -/
def State.cancelNode (s : State) (c n : Nat) (word : Word) : State :=
  let x := s.node c n
  let s := s.report 5 1 (unitWord 1 c) (x.vi, x.asid) n 0 3 0x57 (s.nodeName x)
  let s := s.setNode c n { x with state := .done, error := word }
  match x.body with
  | some (.launch r _ _ _ _) => s.complete x.vi x.asid (field r 0x18 8) 0 word
  | _ => s
/-- The nodes of a set that have not fired are cancelled, in ascending node number (R387). -/
def State.cancelAll (s : State) (c : Nat) (ns : List Nat) (word : Word) : State :=
  ((List.range 64).filter (fun n => ns.contains n && (s.node c n).state == .armed)).foldl (fun s n => s.cancelNode c n word) s

/-! ### Firing and completion -/

/-- A node that has fired. -/
def State.fired (s : State) (c n : Nat) : State := s.setNode c n { s.node c n with state := .fired }
/-- The engine operation of a TDMA body: op 0 TLD, 1 TST, 2 TZFILL. -/
def tileOp (op : Nat) (dst src : List Word) : EngineOp :=
  if op = 0 then .tld dst src else if op = 1 then .tst dst src else .tzfill dst
/-- The bytes that it registers (R200). -/
def tileOpBytes (op : Nat) (dst src : List Word) : Nat := (descOf (if op = 0 then src else dst)).bytes

/-- NODE_FIRE (R206, R175, R183, R190): an engine issue of the node's thread, operations of the firing clk, a sequencer, or a
launch. A body that finds no slot, room or sequencer fires later. Log 67 (DEDUCED). -/
def execNodeFire (c n : Nat) (s : State) : Host.Outcome State Fault Refusal :=
  let x := s.node c n
  let a := Agent.thread x.thread
  let again := s.inClk 1 (.nodeFire c n)
  if x.state != .armed || x.count != 0 then .next s
  else match x.body with
    | none => .next s
    | some (.tile op dst src bar st sc) =>
      if s.engineSlots a.unit = 0 then .next again
      else .next ((s.forkAs a (x.vi, x.asid) x.wg st sc (some bar) (fun _ => tileOpBytes op dst src) (tileOp op dst src) (some n)).fired c n)
    | some (.weight k va st sc) =>
      if s.handleBusy c k || s.engineSlots a.unit = 0 then .next again
      else .next (((s.forkAs a (x.vi, x.asid) x.wg st sc none (fun _ => 0) (.tldw k va) (some n)).tldwStart c k).fired c n)
    | some (.mat zero i m k cfg) =>
      if !(s.cluster c).room i then .next again
      else .next ((s.enqueueOp c (matOp x.thread zero i m k cfg (some n) s.clk)).fired c n)
    | some (.macro_ word geom cfg) =>
      if (s.thread x.thread).seqr.isSome then .next again
      else .next ((s.startSeq x.thread word geom cfg (some n)).fired c n)
    | some (.launch r addr cap kpid ktid) =>
      .next ((s.fired c n).submit x.vi x.asid r addr cap kpid ktid (some (c, n)))

/-- A successor's count falls by 1; at 0 the node fires in the next clk (R206). -/
def State.release (s : State) (c n : Nat) : State :=
  let x := s.node c n
  if x.state == .armed && x.count != 0 then
    let s := s.setNode c n { x with count := x.count - 1 }
    if x.count = 1 then s.inClk 1 (.nodeFire c n) else s
  else s
/-- NODE_COMPLETE (R206, R387). -/
def execNodeComplete (c n : Nat) (s : State) : Host.Outcome State Fault Refusal :=
  let x := s.node c n
  if x.state != .fired then .next s
  else
    let s := s.setNode c n { x with state := .done }
    if x.error = 0 then .next (((List.range 64).flatMap (fun m => x.succ.filter (· == m))).foldl (fun s m => s.release c m) s)
    else .next (s.cancelAll c (s.reachable c x.succ 64) x.error)

/-! ### Definition -/

/-- What a body needs: its scalar sources, its descriptors, and its misuses (R205, R270, R364, R365). -/
structure BodyNeed where
  src  : List Nat := []
  tsrc : List Nat := []
  pre  : State → Agent → Option (BitVec 8 × Word) := fun _ _ => none
def bodyNeed (i : Option Instr) : BodyNeed :=
  match i with
  | some (.tld d a n _) => { tsrc := [d.toNat, a.toNat], pre := (tldNeed d a n).pre }
  | some (.tst d a n _) => { tsrc := [d.toNat, a.toNat], pre := (tstNeed d a n).pre }
  | some (.tzfill d n _) => { tsrc := [d.toNat], pre := (tzfillNeed d n).pre }
  | some (.tldw _ a _) => { src := [a.toNat] }
  | some (.mmab _ _ _ b) => { src := [b.toNat] }
  | _ => {}
/-- A body is one that a NODE may have (R205). -/
def bodyOk : Option Instr → Bool
  | some (.tld ..) => true
  | some (.tst ..) => true
  | some (.tzfill ..) => true
  | some (.tldw ..) => true
  | some (.mma ..) => true
  | some (.mmab ..) => true
  | some (.tzero ..) => true
  | _ => false
/-- The body captured at its NODE: operands, descriptors, streams, MCFG (R190, R205). -/
def captureBody (c : Ctx) (s : State) (i : Instr) : Option Body :=
  let a := c.a
  let cfg := (s.thread a.threadNo).mcfg
  match i with
  | .tld d t n st => some (.tile 0 (s.tget a d.toNat) (s.tget a t.toNat) n.toNat st.toNat (s.stream a st.toNat))
  | .tst d t n st => some (.tile 1 (s.tget a d.toNat) (s.tget a t.toNat) n.toNat st.toNat (s.stream a st.toNat))
  | .tzfill d n st => some (.tile 2 (s.tget a d.toNat) [] n.toNat st.toNat (s.stream a st.toNat))
  | .tldw k b st => some (.weight k.toNat (c.get s b.toNat) st.toNat (s.stream a st.toNat))
  | .mma n m k => some (.mat false n.toNat m.toNat k.toNat cfg)
  | .tzero n => some (.mat true n.toNat 0 0 cfg)
  | .mmab n m k b => some (.macro_ (BitVec.ofNat 32 (mmabWord n.toNat m.toNat (8 * k.toNat) b.toNat)) (c.get s b.toNat) cfg)
  | _ => none
/-- The trap that an MMA, MMAB or TZERO body takes at its NODE: its geometry, then its owner (R184, R205, R364). -/
def bodyTrap (c : Ctx) (s : State) (i : Instr) : Option Act :=
  let own := fun (n : Nat) => if s.ownsAcc c.a then none else some (accown n)
  match i with
  | .mma n _ _ => own n.toNat
  | .tzero n => own n.toNat
  | .mmab n _ k b =>
    if geomBad (8 * k.toNat) (c.get s b.toNat) then some (.trap 0x01 (illegalVal 12 (c.get s b.toNat).toNat)) else own n.toNat
  | _ => none
/-- A TDMA body commits the open region at its NODE (R205). -/
def bodyCommits : Instr → Bool
  | .tld .. => true
  | .tst .. => true
  | .tzfill .. => true
  | .tldw .. => true
  | _ => false

/-- A node defined (R205): a count of 0 fires it. -/
def State.define (s : State) (a : Agent) (n count : Nat) (b : Body) : State :=
  let (vi, asid) := s.ctxOf a
  let x : Node := {
    state := .armed
    count := count
    succ := []
    body := some b
    thread := a.threadNo
    vi := vi
    asid := asid
    wg := s.wgOf a
    error := 0 }
  let s := s.setNode a.cluster n x
  if count = 0 then s.soon (.nodeFire a.cluster n) else s
/-- A NODE on an ARMED or FIRED node waits (R205). -/
def State.nodeHeld (s : State) (c n : Nat) : Bool := (s.node c n).state == .armed || (s.node c n).state == .fired

/-- What a NODE needs: it runs on a control core, before a body that it may have, whose own needs are its own (R205, R207). -/
def nodeNeed (i : Option Instr) : Need :=
  { src := (bodyNeed i).src
    tsrc := (bodyNeed i).tsrc
    vec := false
    pre := fun s a => if bodyOk i then (bodyNeed i).pre s a else some (0x01, illegalVal 6 (s.insnWord a (s.strand a).pc 4)) }
/-- NODE (R205). -/
def execNode (d : NodeNo) (n : BitVec 6) (s : State) : Host.Outcome State Fault Refusal :=
  issue (nodeNeed (s.behind.map Prod.fst)) (fun c s =>
    match s.behind with
    | none => .wait .fetch
    | some (i, len) =>
      match bodyTrap c s i, captureBody c s i with
      | some t, _ => t
      | none, none => .wait .fetch
      | none, some b =>
        if s.nodeHeld c.a.cluster d.toNat then .wait .async
        else
          let s := if bodyCommits i then s.implicitCommit c.a else s
          .jump (s.define c.a d.toNat n.toNat b) (c.next + BitVec.ofNat 64 len)) s

/-- NODE.L (R205, R261): the record is captured, as any access of its stream would read it. Log 64 (DEDUCED). -/
def nodeLNeed (b : SReg) (st : StreamNo) : Need :=
  { src := [b.toNat], vec := false, waits := acqWaits st }
def execNodeL (d : NodeNo) (n : BitVec 6) (b : SReg) (st : StreamNo) (s : State) : Host.Outcome State Fault Refusal :=
  issue (nodeLNeed b st) (fun c s =>
    let va := (c.get s b.toNat).toNat
    let (vi, asid) := s.ctxOf c.a
    let t := s.flush c.a s.nextId
    if s.nodeHeld c.a.cluster d.toNat then .wait .async
    else if t.engineWaits t.nextId { Engine.start c.a (vi, asid) (s.wgOf c.a) (.binrst 0) st.toNat (s.stream c.a st.toNat) s.clk with
        spans := [(va, 512)] } then .wait .async
    else loadFate c t va (t.readFor (t.wgOf c.a) c.a none vi asid va 512) (fun t r =>
      let l := match s.wgOf c.a with
        | some w => s.launch (s.wg w).launch
        | none => Launch.blank
      .done (t.define c.a d.toNat n.toNat (.launch r va l.cap l.kpid l.ktid)))) s

/-- An edge added to a node that may take four (R204, R205); of a fifth the spec says nothing: it stands in place of one of the
four, or is lost. Log 65 (DESIGN CHOICE), 66 (DEDUCED). -/
def State.addEdge (s : State) (c a b : Nat) : State :=
  let x := s.node c a
  if x.succ.length < 4 then s.setNode c a { x with succ := x.succ ++ [b] }
  else (s.setNode c a { x with succ := x.succ.set (Config.pick s.free % 5) b }).spend
/-- NEDGE (R205, R206, R387). -/
def nedgeNeed : Need := { vec := false }
def execNedge (d a : NodeNo) (s : State) : Host.Outcome State Fault Refusal :=
  issue nedgeNeed (fun c s =>
    let k := c.a.cluster
    let x := s.node k d.toNat
    let y := s.node k a.toNat
    if y.state == .done && y.error != 0 then .done s
    else
    let s := s.addEdge k d.toNat a.toNat
    if x.state != .done then .done s
    else if x.error = 0 then .done (s.release k a.toNat)
    else .done (s.cancelAll k (s.reachable k [a.toNat] 64) x.error)) s

/-- NWAIT (R205, R206, R241, R387). Log 68 (DEDUCED). -/
def nwaitNeed (d : SReg) : Need := { dst := [d.toNat] }
/-- What the NWAIT of a DONE node leaves: an acquire of every stream, and its status. -/
def State.nwaitEnd (s : State) (a : Agent) (n : Nat) (d : SReg) : State :=
  (s.fenceEnd a (BitVec.allOnes 16)).sset a d.toNat (s.node a.cluster n).error
def execNwait (d : SReg) (a : NodeNo) (s : State) : Host.Outcome State Fault Refusal :=
  issue (nwaitNeed d) (fun c s =>
    if (s.node c.a.cluster a.toNat).state == .done then .done (s.nwaitEnd c.a a.toNat d)
    else .jump (s.waitIn c.a c.next (.node a.toNat d)) c.pc) s
/-- An NWAIT looks at its node again, at the end of a clk. -/
def State.pollNode (s : State) (a : Agent) (n : Nat) (d : SReg) : State :=
  if (s.node a.cluster n).state == .done && s.roomFor a (portsOf [d.toNat]) then (s.nwaitEnd a n d).endWait a else s

/-! ### EMIT -/

/-- The graph and the successor that an EMIT names (R236): none where it is not valid or the workgroup has no node. -/
def State.emitTo (s : State) (a : Agent) (n : Nat) : Option (Nat × Graph × Nat) :=
  match s.wgOf a with
  | none => none
  | some w =>
    match (s.launch (s.wg w).launch).graph with
    | none => none
    | some (gid, m) =>
      match tabFind s.monarch.graphs gid with
      | none => none
      | some g => (nodeSucc g.table m n).map (fun t => (gid, g, t))
/-- The registers that hold a record (R236). -/
def State.emitRegs (s : State) (a : Agent) (v n : Nat) : List Nat :=
  match s.emitTo a n with
  | none => []
  | some (_, g, t) => (List.range (nodeRec g.table t / 4)).map (fun w => v + w)
/-- The release of an EMIT can be performed at its issue (R236). -/
def State.emitsNow (s : State) (a : Agent) : Bool := ((s.implicitCommit a).releaseEvery a s.nextId 3).2
/-- What an EMIT needs (R236, R364). -/
def emitNeed (d : SReg) (v : VReg) (n : BitVec 2) (s : State) (a : Agent) : Need :=
  let regs := s.emitRegs a v.toNat n.toNat
  { dst := [d.toNat]
    vsrc := regs
    lim := v.toNat :: regs
    ctl := false
    pipe := some 2
    draw := .mem
    kind := .async
    lat := 1 + s.delay
    open_ := !s.emitsNow a
    pre := fun s a => if (s.emitTo a n.toNat).isNone then some (0x01, illegalVal 12 n.toNat) else none }
/-- A node's first answer of 1 since its spill area was half empty (R393). -/
def State.emitFull (s : State) (a : Agent) (gid : Nat) (g : Graph) (t : Nat) : State :=
  if g.reported.contains t then s
  else
    let (vi, asid) := s.ctxOf a
    let s := s.report 7 0 (unitWord 9 0) (vi, asid) (field (nodeEntry g.table t) 8 8) 0 1 0x84 (s.joined a)
    s.modGraph gid (fun x => { x with reported := t :: x.reported })
/-- The answer of a node's queue to an EMIT's records (R50, R236). -/
def State.emitAnswer (s : State) (a : Agent) (gid t : Nat) (recs : List (List Byte)) : State × Word :=
  match tabFind s.monarch.graphs gid with
  | none => (s, 0)
  | some g =>
    if recs = [] then (s, 0)
    else if g.takes t recs.length then (s.arrive_ gid t recs, 0)
    else (s.emitFull a gid g t, 1)
/-- The records of an EMIT whose release has been performed after its issue, and its status (R236). -/
def State.emitLate (s : State) (id : Nat) (x : Access) (gid t : Nat) (recs : List (List Byte)) (d : Nat) : State :=
  let (s, v) := s.emitAnswer x.agent gid t recs
  if s.orphan x then s
  else
    let s := if isPort d then s.loadSet id x.agent d v else s.sput (s.heir x.agent) d v
    s.settlePend x (s.clk + 1)
/-- What follows a release comes about once that has been performed (R194, R233, R236). -/
def State.runAfter (s : State) (id : Nat) : State :=
  match tabFind s.accesses id with
  | none => s
  | some x => match x.act with
    | none => s
    | some act => match s.afterDue id x act with
      | (s, false) => s
      | (s, true) =>
        let s := { s with accesses := tabDel s.accesses id }
        match act with
        | .emit gid t recs d => s.emitLate id x gid t recs d
        | act => s.enact act
/-- At the end of a clk, in the order of their issue. -/
def State.runAfters (s : State) : State := ((s.accesses.filter (fun p => p.2.what == 5)).map (·.1)).foldl State.runAfter s

/-- EMIT (R48, R50, R236): the records and the status follow the release. Log 70 (DEDUCED). -/
def execEmit (d : SReg) (a : VReg) (n : BitVec 2) (_st : StreamNo) (s : State) : Host.Outcome State Fault Refusal :=
  issue (emitNeed d a n s (s.cur.getD .device)) (fun c s =>
    match s.emitTo c.a n.toNat with
    | none => .wait .async
    | some (gid, _, t) =>
      let regs := s.emitRegs c.a a.toNat n.toNat
      let act := (List.range 96).filter (fun i => c.act.getLsbD i)
      let recs := act.map (fun i => regs.flatMap (fun r => toBytes (lane (s.vget c.a.groupNo r) i).toNat 4))
      match (s.implicitCommit c.a).releaseEvery c.a s.nextId 3 with
      | (s, true) =>
        let (s, v) := s.spend.emitAnswer c.a gid t recs
        .done (s.sset c.a d.toNat v)
      | (s, false) =>
        let id := s.nextId
        let s := s.after c.a (.emit gid t recs d.toNat)
        let s := { s with accesses := tabMod s.accesses id (fun x => { x with dest := (1, d.toNat, 0, 0) }) }
        .done (s.reservePush c.a id d.toNat)) s

end Sys2Proof.Machine
end

