-- ==== Sys2Proof/Machine/Packets.lean ====
section
/-!
DEFINITION. What reaches the device over the fabric (spec/22_system.md R319 to R327; spec/33_errors_system.md R398 to R402): flits
and ports, ingress, packets that terminate here, acknowledgements, notices, and what a source does without them.
-/

namespace Sys2Proof.Machine

/-! ### Ingress -/

/-- The header agrees with its OP in CLASS, MGMT and LEN, and no reserved bit is set (R320, R321, R402); a WRITE may carry a part of a
sector. Log 123 (DESIGN CHOICE). -/
def headerOk (h : PktHdr) : Bool :=
  let len := h.len.toNat
  h.rsv == 0 && match h.op.toNat with
    | 1 => h.unordered && !h.mgmt && decide (17 ≤ len) && decide (len ≤ 4096)
    | 2 => !h.unordered && !h.mgmt && len == 24
    | 3 => !h.unordered && !h.mgmt && len == 24
    | 4 => !h.unordered && !h.mgmt && len == 24
    | 5 => h.unordered && !h.mgmt && len == 16
    | 6 => !h.unordered && !h.mgmt && len == 32
    | 7 => !h.unordered && h.mgmt && len == 24
    | 8 => !h.unordered && h.mgmt && len == 32
    | 9 => !h.unordered && h.mgmt && len == 32
    | _ => false
/-- A local engine's packet enters through no port. -/
def State.fromHere (s : State) (h : PktHdr) : Bool := h.src == s.fabric.self
/-- The key table entry that passes a packet at a port; one that terminates needs LOCAL (R326). -/
def State.keyFor (s : State) (port : Nat) (h : PktHdr) (ends : Bool) : Option (BitVec 128) :=
  (s.fabric.keys.find? (fun e => keyV e.2 && keyKey e.2 == h.pkey && (s.fromHere h || (keyPorts e.2).getLsbD port) &&
    (!ends || keyLocal e.2))).map (·.2)
/-- A packet passes ingress: a MGMT packet under MKEY, any other under its key (R324, R326, R402). Log 80 (DEDUCED). -/
def State.passes (s : State) (port : Nat) (h : PktHdr) (ends : Bool) : Bool :=
  headerOk h && if h.mgmt then h.pkey == s.fabric.mkey else (s.keyFor port h ends).isSome
/-- A packet refused at ingress: at most one record for a port in 2^20 units of TIME (R402). -/
def State.refusePacket (s : State) (port : Nat) (src : Nat) : State :=
  let recent := match (s.port port).told with
    | some t => decide (s.time < t + 2 ^ 20)
    | none => false
  if recent then s
  else (s.modPort port (fun p => { p with told := some s.time })).report 8 0 (unitWord 11 port) (0, 0) src 0 3 0x93 noName

/-! ### Answers -/

/-- An ACK (R321), under the request's key. -/
def State.ackTo (s : State) (port : Nat) (h : PktHdr) (xid : BitVec 32) (status : Nat) : State :=
  let a : PktHdr := {
    len := 16
    op := 5
    oseq := 0
    rsv := 0
    flow := h.flow
    mgmt := false
    unordered := true
    pkey := h.pkey
    src := s.fabric.self
    dest := h.src }
  s.transmit (unitWord 11 port) a (toBytes xid.toNat 4 ++ toBytes status 1 ++ toBytes 0 11)
/-- An ORDERED MGMT packet of the device under MKEY, with the next OSEQ of its flow (R322, R324, R325, R327). -/
def State.sendMgmt (s : State) (unit op : Nat) (dest : BitVec 17) (flow : BitVec 12) (pay : List Byte) : State :=
  let key := dest.toNat * 4096 + flow.toNat
  let q := tabGet s.fabric.oseqTx key 0
  let h : PktHdr := {
    len := BitVec.ofNat 16 pay.length
    op := BitVec.ofNat 8 op
    oseq := BitVec.ofNat 16 q
    rsv := 0
    flow := flow
    mgmt := true
    unordered := false
    pkey := s.fabric.mkey
    src := s.fabric.self
    dest := dest }
  ({ s with fabric := { s.fabric with oseqTx := tabPut s.fabric.oseqTx key ((q + 1) % 65536) } } : State).transmit unit h pay
/-- The MRSP of an MREQ (R322). -/
def State.answer (s : State) (port : Nat) (h : PktHdr) (mop status : Nat) (index : BitVec 32) (rid : BitVec 64)
    (data : BitVec 128) : State :=
  s.sendMgmt (unitWord 11 port) 9 h.src h.flow (toBytes mop 1 ++ toBytes status 1 ++ toBytes 0 2 ++ toBytes index.toNat 4 ++
    toBytes rid.toNat 8 ++ toBytes data.toNat 16)

/-! ### Order -/

def flowKey (src : BitVec 17) (flow : BitVec 12) : Nat := src.toNat * 4096 + flow.toNat
def State.expected (s : State) (k : Nat) : Nat := tabGet s.fabric.oseqRx k 0
def State.expect (s : State) (k q : Nat) : State := { s with fabric := { s.fabric with oseqRx := tabPut s.fabric.oseqRx k (q % 65536) } }
/-- A held packet of a flow. -/
def heldOf (k : Nat) (p : Nat × Nat × PktHdr × List Byte) : Bool := flowKey p.2.2.1.src p.2.2.1.flow == k
/-- The packet of a flow that is next leaves the hold; its step follows. One without a step of its own is answered here: a
reserved MOP with STATUS 1; an MRSP has no effect (R322, R325). -/
def State.release_ (s : State) (k : Nat) : Nat → State
  | 0 => s
  | f + 1 =>
    match s.fabric.hold.find? (fun p => heldOf k p && p.2.2.1.oseq.toNat == s.expected k) with
    | none => s
    | some (port, at_, h, pay) =>
      let s := { s with fabric := { s.fabric with hold := s.fabric.hold.filter (fun p => p != (port, at_, h, pay)) } }
      match arriveStep (Fin.ofNat 24 port) h pay with
      | some i => (s.passIn port h).soon i
      | none =>
        let s := if h.op = 8 then s.answer port h (field pay 0 1) 1 (BitVec.ofNat 32 (field pay 4 4))
          (BitVec.ofNat 64 (field pay 8 8)) 0 else s
        (s.expect k (s.expected k + 1)).release_ k f
/-- An ORDERED packet that has passed ingress (R325, R401): in its turn `f` performs it, and says whether it is done; an early one
is held for at most 100 µs; one behind what the flow has delivered is dropped. Log 85 (DEDUCED). -/
def State.inOrder (s : State) (port : Nat) (h : PktHdr) (pay : List Byte) (f : State → State × Bool) : State :=
  let k := flowKey h.src h.flow
  let ahead := (h.oseq.toNat + 65536 - s.expected k) % 65536
  if ahead = 0 then
    match f s with
    | (t, true) => (t.expect k (t.expected k + 1)).release_ k (t.fabric.hold.length + 1)
    | (t, false) => t
  else if ahead < 32768 then
    if s.fabric.hold.any (fun p => p.1 == port && p.2.2 == (h, pay)) then s
    else ({ s with fabric := { s.fabric with hold := s.fabric.hold ++ [(port, s.clk, h, pay)] } } : State).inClk 120000
      (.orderedHoldExpiry h.src h.flow)
  else s.undeliverable (unitWord 11 port) h pay 2
/-- Its step has come. -/
def State.unpass (s : State) (port : Nat) (h : PktHdr) : State :=
  { s with fabric := { s.fabric with passed := s.fabric.passed.erase (port, h) } }
/-- A packet at its step: it terminates here, where it has passed ingress, or where its port is up and it passes now. -/
def State.terminate (s : State) (port : Nat) (h : PktHdr) (f : State → State) : State :=
  if s.fabric.passed.contains (port, h) then f (s.unpass port h)
  else if !s.fromHere h && !(s.port port).up then s
  else if s.passes port h true then f s else s.refusePacket port h.src.toNat
/-- The same in the order of its flow. -/
def State.terminateIn (s : State) (port : Nat) (h : PktHdr) (pay : List Byte) (f : State → State × Bool) : State :=
  s.terminate port h (fun s => s.inOrder port h pay f)

/-! ### Data and counters -/

/-- The answer to a remote access: performed, refused with a STATUS, or waiting on a fault (R298, R321, R377, R378). -/
inductive Remote where
  | ok (s : State)
  | refused (s : State) (status : Nat)
  | waits (s : State)
/-- What stops a remote access under a key's context, with the step that a RESUME repeats. Log 86 (DEDUCED). -/
def State.remoteStop {α : Type} (s : State) (vi : BitVec 8) (asid : BitVec 16) (r : Reach α) (i : Instr) : Remote :=
  match r with
  | .ok t _ => .ok t
  | .fault va st ipa perm => if perm then .refused s 3 else .waits (s.raise vi asid va st ipa (8 + 2) noName (.step i)).1
  | .denied code va =>
    if code = 0x06 then
      .refused (s.report 3 1 (unitWord 7 (s.stationOf (s.tagAsid vi asid va) va)) (vi, asid) va 0 1 0x40 noName) 1
    else if code = 0x07 then .refused s 2 else .refused s 3
  | .remote _ _ _ => .refused s 3
/-- Bytes of remote ingress count toward the bandwidth of the virtual interface that its key binds (R301). -/
def State.meterIn (s : State) (vi : BitVec 8) (asid : BitVec 16) (va n : Nat) : State :=
  match s.l2 (lineKey (s.tagAsid vi asid va) va) with
  | some l => s.meter l.frame n vi
  | none => s
/-- The data of a WRITE (R321, R326, R373). -/
def State.remoteWrite (s : State) (e : BitVec 128) (rva : Nat) (bad : Bool) (data : List Byte) (i : Instr) : Remote :=
  if rva % 16 != 0 && 16 < rva % 16 + data.length then .refused s 3
  else match s.writeHome (keyVi e) (keyAsid e) rva data bad with
    | .ok t _ => .ok (t.meterIn (keyVi e) (keyAsid e) rva data.length)
    | r => s.remoteStop (keyVi e) (keyAsid e) r i
/-- A counter operation: one indivisible update; a poisoned counter stays as it is (R203, R321). -/
def State.remoteCounter (s : State) (e : BitVec 128) (rva : Nat) (f : Nat → Nat) (i : Instr) : Remote :=
  if rva % 8 != 0 then .refused s 3
  else match s.readHome (keyVi e) (keyAsid e) rva 8 with
    | .ok t (bs, bad) =>
      if bad then .ok t
      else match t.writeHome (keyVi e) (keyAsid e) rva (toBytes (f (ofBytes bs) % 2 ^ 64) 8) false with
        | .ok u _ => .ok (u.meterIn (keyVi e) (keyAsid e) rva 8)
        | r => t.remoteStop (keyVi e) (keyAsid e) r i
    | r => s.remoteStop (keyVi e) (keyAsid e) r i
/-- The access, then its ACK; a packet that waits on a fault has no answer yet. -/
def State.remoteDone (port : Nat) (h : PktHdr) (xid : BitVec 32) (r : Remote) : State × Bool :=
  match r with
  | .ok t => (t.ackTo port h xid 0, true)
  | .refused t st => (t.ackTo port h xid st, true)
  | .waits t => (t.passIn port h, false)

/-- WRITE (R321, R325, R326). -/
def execWrite (port : Fin 24) (h : PktHdr) (rva : BitVec 64) (xid : BitVec 32) (poison : BitVec 8) (data : List (BitVec 8))
    (s : State) : Host.Outcome State Fault Refusal :=
  .next (if h.len.toNat != data.length + 16 then s.refusePacket port h.src.toNat
    else s.terminate port h (fun s => match s.keyFor port h true with
      | none => s
      | some e => (State.remoteDone port h xid (s.remoteWrite e rva.toNat (poison.getLsbD 0) data
          (.write port h rva xid poison data))).1))
/-- The payload of a counter packet (R321). -/
def counterPay (rva v : BitVec 64) (xid : BitVec 32) : List Byte :=
  toBytes rva.toNat 8 ++ toBytes v.toNat 8 ++ toBytes xid.toNat 4 ++ toBytes 0 4
/-- A counter packet in the order of its flow (R321, R325). -/
def State.counterPacket (s : State) (port : Nat) (h : PktHdr) (rva v : BitVec 64) (xid : BitVec 32) (f : Nat → Nat) (i : Instr) :
    State :=
  s.terminateIn port h (counterPay rva v xid) (fun s => match s.keyFor port h true with
    | none => (s, true)
    | some e => State.remoteDone port h xid (s.remoteCounter e rva.toNat f i))
/-- CADD as a packet (R321). -/
def execCaddPacket (port : Fin 24) (h : PktHdr) (rva v : BitVec 64) (xid : BitVec 32) (s : State) :
    Host.Outcome State Fault Refusal :=
  .next (s.counterPacket port h rva v xid (fun x => x + v.toNat) (.caddPacket port h rva v xid))
/-- CSET as a packet (R321). -/
def execCsetPacket (port : Fin 24) (h : PktHdr) (rva v : BitVec 64) (xid : BitVec 32) (s : State) :
    Host.Outcome State Fault Refusal :=
  .next (s.counterPacket port h rva v xid (fun _ => v.toNat) (.csetPacket port h rva v xid))
/-- CMAX (R321). -/
def execCmax (port : Fin 24) (h : PktHdr) (rva v : BitVec 64) (xid : BitVec 32) (s : State) : Host.Outcome State Fault Refusal :=
  .next (s.counterPacket port h rva v xid (fun x => Nat.max x v.toNat) (.cmax port h rva v xid))
/-- A remote access whose fault is denied: STATUS 1, and its flow goes on (R321, R377). -/
def State.denyPacket (s : State) (i : Instr) : State :=
  let next := fun (s : State) (port : Fin 24) (h : PktHdr) (xid : BitVec 32) =>
    (((s.unpass port h).ackTo port h xid 1).expect (flowKey h.src h.flow) (s.expected (flowKey h.src h.flow) + 1)).release_
      (flowKey h.src h.flow) (s.fabric.hold.length + 1)
  match i with
  | .write port h _ xid _ _ => (s.unpass port h).ackTo port h xid 1
  | .caddPacket port h _ _ xid => next s port h xid
  | .csetPacket port h _ _ xid => next s port h xid
  | .cmax port h _ _ xid => next s port h xid
  | _ => s

/-! ### At the source -/

/-- The packet that an XID names is no longer waited for. -/
def State.endSent (s : State) (xid : BitVec 32) : State :=
  { s with fabric := { s.fabric with sent := s.fabric.sent.filter (fun x => x.xid != xid) } }
/-- An operation that has failed does nothing more but post (R383). -/
def State.stopEngine (s : State) (n : Nat) : State :=
  { s with engines := tabMod s.engines n (fun e => { e with stopped := true }) }
/-- An acknowledgement of a packet (R321): a STATUS other than 0 fails its operation under 0x52, 0x53 or 0x51 (R382); a driver's
step fails under 0x70 (R388). -/
def State.acked (s : State) (x : Sent) (status : Nat) : State :=
  let va := x.va.toNat
  let s := s.endSent x.xid
  let s := match x.engine with
    | none => s
    | some n => match tabFind s.engines n with
      | none => s
      | some e =>
        let s := if status = 0 then s
          else (s.failEngine n e (if status = 1 then 0x52 else if status = 2 then 0x53 else 0x51) va).stopEngine n
        s.engineAck n x.xid
  match x.coll with
  | none => s
  | some w => if status = 0 then s.collAck w x.xid else s.collLost w x.xid 0x70 va
/-- A packet declared undeliverable at its source (R400): its 0x92 record, whose SEQ its operation posts; a collective aborts
under 0x72. -/
def State.lost (s : State) (x : Sent) : State :=
  let va := x.va.toNat
  let s := s.endSent x.xid
  let seq := s.mgmt.errSeq
  let word := s.nextRecord 0x92 8
  match x.engine.bind (fun n => (tabFind s.engines n).map (fun e => (n, e))), x.coll with
  | some (n, e), _ =>
    let s := s.report 8 1 e.agent.unitWord (e.vi, e.asid) x.rva.toNat 0 1 0x92 (if s.alive e.agent then s.joined e.agent else noName)
    let s := if e.error.isSome then s
      else
        let s := { s with engines := tabMod s.engines n (fun y => { y with error := some seq }) }
        match e.node with
        | none => s
        | some m => s.modCluster e.cluster (fun c => { c with node := tabMod c.node m (fun y => { y with error := word }) })
    (s.stopEngine n).engineAck n x.xid
  | none, some w =>
    let a := ((s.wg w).coll.bind (·.agent)).getD .device
    let s := s.report 8 1 a.unitWord ((s.wg w).vi, (s.wg w).asid) x.rva.toNat 0 1 0x92 (if s.alive a then s.joined a else noName)
    s.collLost w x.xid 0x72 va
  | none, none => s

/-- ACK (R321): for the operation that waits on its XID. A reserved STATUS is refused. -/
def execAck (port : Fin 24) (h : PktHdr) (xid : BitVec 32) (status : BitVec 8) (s : State) : Host.Outcome State Fault Refusal :=
  .next (s.terminate port h (fun s =>
    if 4 ≤ status.toNat then s.refusePacket port h.src.toNat
    else match s.fabric.sent.find? (fun x => x.xid == xid && x.hdr.dest == h.src) with
      | some x => s.acked x status.toNat
      | none => s))
/-- UNDELIV (R400). -/
def execUndeliv (port : Fin 24) (h : PktHdr) (dropped : BitVec 128) (xid : BitVec 32) (reason : BitVec 8) (time : BitVec 64)
    (s : State) : Host.Outcome State Fault Refusal :=
  let pay := toBytes dropped.toNat 16 ++ toBytes xid.toNat 4 ++ toBytes reason.toNat 1 ++ toBytes 0 3 ++ toBytes time.toNat 8
  let d := hdrOf dropped.toNat
  .next (s.terminateIn port h pay (fun s =>
    if d.src == s.fabric.self && decide (1 ≤ d.op.toNat) && decide (d.op.toNat ≤ 4) then
      match s.fabric.sent.find? (fun x => x.xid == xid && x.hdr.dest == d.dest) with
      | some x => (s.lost x, true)
      | none => (s, true)
    else (s, true)))
/-- UNDELIVERABLE_TIMEOUT: 1 ms after its sending (R400). -/
def execUndeliverableTimeout (xid : BitVec 32) (s : State) : Host.Outcome State Fault Refusal :=
  match s.fabric.sent.find? (fun x => x.xid == xid) with
  | some x => .next (s.lost x)
  | none => .next s
/-- ORDERED_HOLD_EXPIRY: a predecessor has not arrived for 100 µs; every held packet of the flow is dropped, and the flow goes on
behind the highest one (R401). -/
def execOrderedHoldExpiry (src : BitVec 17) (flow : BitVec 12) (s : State) : Host.Outcome State Fault Refusal :=
  let k := flowKey src flow
  let mine := s.fabric.hold.filter (heldOf k)
  let here := s.faults.any (fun f => f.2.steps.any (fun i => match i with
    | .caddPacket _ h _ _ _ => flowKey h.src h.flow == k
    | .csetPacket _ h _ _ _ => flowKey h.src h.flow == k
    | .cmax _ h _ _ _ => flowKey h.src h.flow == k
    | _ => false))
  if mine != [] && here then .next (s.inClk 120000 (.orderedHoldExpiry src flow))
  else if !mine.any (fun p => p.2.1 + 120000 ≤ s.clk) then .next s
  else
    let q := s.expected k
    let far := (mine.map (fun p => (p.2.2.1.oseq.toNat + 65536 - q) % 65536)).foldl Nat.max 0
    let s := { s with fabric := { s.fabric with hold := s.fabric.hold.filter (fun p => !heldOf k p) } }
    let s := mine.foldl (fun s p => s.undeliverable (unitWord 11 p.1) p.2.2.1 p.2.2.2 2) s
    .next (s.expect k (q + far + 1))

/-! ### Management -/

/-- The 32 bytes of an MREQ (R322). -/
def mreqPay (mop : Nat) (index : BitVec 32) (rid : BitVec 64) (data : BitVec 128) : List Byte :=
  toBytes mop 1 ++ toBytes 0 3 ++ toBytes index.toNat 4 ++ toBytes rid.toNat 8 ++ toBytes data.toNat 16
/-- An MREQ: its effect within the range of its INDEX, then one MRSP (R322, R324). -/
def State.mreq (s : State) (port : Nat) (h : PktHdr) (mop limit : Nat) (index : BitVec 32) (rid : BitVec 64) (data : BitVec 128)
    (f : State → State × BitVec 128) : State :=
  s.terminateIn port h (mreqPay mop index rid data) (fun s =>
    if limit ≤ index.toNat then (s.answer port h mop 2 index rid 0, true)
    else
      let (s, d) := f s
      (s.answer port h mop 0 index rid d, true))
/-- Fields of a routing entry, a key entry and a subscription; reserved ones read 0 (R1, R322, R323, R326). -/
def routeMask : Word := 0x80000003FFFFFFFF
def keyMask : BitVec 128 := BitVec.ofNat 128 (2 ^ 128 - 2 ^ 62)
def subMask : BitVec 32 := 0x8001FFFF
def State.modFabric (s : State) (f : Fabric → Fabric) : State := { s with fabric := f s.fabric }

/-- RTWRITE (R322 to R324). -/
def execRtwrite (port : Fin 24) (h : PktHdr) (index : BitVec 32) (rid : BitVec 64) (data : BitVec 128) (s : State) :
    Host.Outcome State Fault Refusal :=
  .next (s.mreq port h 1 131072 index rid data (fun s =>
    (s.modFabric (fun f => { f with shadow := tabPut f.shadow index.toNat (data.setWidth 64 &&& routeMask) }), 0)))
/-- RTREAD (R322). -/
def execRtread (port : Fin 24) (h : PktHdr) (index : BitVec 32) (rid : BitVec 64) (data : BitVec 128) (s : State) :
    Host.Outcome State Fault Refusal :=
  .next (s.mreq port h 2 131072 index rid data (fun s => (s, (tabGet s.fabric.shadow index.toNat 0).setWidth 128)))
/-- RTREADA (R322). -/
def execRtreada (port : Fin 24) (h : PktHdr) (index : BitVec 32) (rid : BitVec 64) (data : BitVec 128) (s : State) :
    Host.Outcome State Fault Refusal :=
  .next (s.mreq port h 3 131072 index rid data (fun s => (s, (tabGet s.fabric.active index.toNat 0).setWidth 128)))
/-- KEYWRITE (R322, R326). -/
def execKeywrite (port : Fin 24) (h : PktHdr) (index : BitVec 32) (rid : BitVec 64) (data : BitVec 128) (s : State) :
    Host.Outcome State Fault Refusal :=
  .next (s.mreq port h 4 64 index rid data (fun s =>
    (s.modFabric (fun f => { f with keys := tabPut f.keys index.toNat (data &&& keyMask) }), 0)))
/-- KEYREAD (R322). -/
def execKeyread (port : Fin 24) (h : PktHdr) (index : BitVec 32) (rid : BitVec 64) (data : BitVec 128) (s : State) :
    Host.Outcome State Fault Refusal :=
  .next (s.mreq port h 5 64 index rid data (fun s => (s, tabGet s.fabric.keys index.toNat 0)))
/-- COMMIT: the whole shadow table becomes the active one (R324). -/
def execCommit (port : Fin 24) (h : PktHdr) (index : BitVec 32) (rid : BitVec 64) (data : BitVec 128) (s : State) :
    Host.Outcome State Fault Refusal :=
  .next (s.mreq port h 6 (2 ^ 32) index rid data (fun s => (s.modFabric (fun f => { f with active := f.shadow }), 0)))
/-- SUBWRITE (R322, R327). -/
def execSubwrite (port : Fin 24) (h : PktHdr) (index : BitVec 32) (rid : BitVec 64) (data : BitVec 128) (s : State) :
    Host.Outcome State Fault Refusal :=
  .next (s.mreq port h 7 16 index rid data (fun s =>
    (s.modFabric (fun f => { f with subs := tabPut f.subs index.toNat (data.setWidth 32 &&& subMask) }), 0)))
/-- SUBREAD (R322). -/
def execSubread (port : Fin 24) (h : PktHdr) (index : BitVec 32) (rid : BitVec 64) (data : BitVec 128) (s : State) :
    Host.Outcome State Fault Refusal :=
  .next (s.mreq port h 8 16 index rid data (fun s => (s, (tabGet s.fabric.subs index.toNat 0).setWidth 128)))
/-- LINKDOWN: the notice reaches its subscriber in the order of its flow (R327). Log 88 (DEDUCED). -/
def execLinkdown (port : Fin 24) (h : PktHdr) (dev : BitVec 17) (down reason : BitVec 8) (time : BitVec 64) (s : State) :
    Host.Outcome State Fault Refusal :=
  .next (s.terminateIn port h (toBytes dev.toNat 4 ++ toBytes down.toNat 1 ++ toBytes reason.toNat 1 ++ toBytes 0 2 ++
    toBytes time.toNat 8 ++ toBytes 0 8) (fun s => (s, true)))

/-! ### Ports -/

/-- A port goes down (R327, R399, R400): its record, a notice to every subscriber, and every packet that is not acknowledged
whole is undeliverable. -/
def State.dropPort (s : State) (p reason : Nat) : State :=
  if !(s.port p).up then s
  else
    let out := (s.port p).out.map (·.2) ++ (s.port p).queue
    let s := s.modPort p (fun x => { x with
      up := false, reason := BitVec.ofNat 8 reason, part := [], queue := [], unacked := [], next := 0, said := none, out := [],
      nakked := false, replays := 0 })
    let s := s.report 8 2 (unitWord 11 p) (0, 0) reason (if reason = 1 then 2 else 0) 3 0x91 noName
    let body := toBytes s.fabric.self.toNat 4 ++ toBytes p 1 ++ toBytes reason 1 ++ toBytes 0 2 ++ toBytes s.time 8 ++ toBytes 0 8
    let s := (s.fabric.subs.filter (fun e => e.2.getLsbD 31)).foldl (fun s e =>
      s.sendMgmt (unitWord 11 p) 7 (e.2.setWidth 17) 0 body) s
    out.foldl (fun s x => s.undeliverable (unitWord 11 p) x.1 x.2 1) s
/-- PORTDOWN: reason 4 (R322, R399). -/
def execPortdown (port : Fin 24) (h : PktHdr) (index : BitVec 32) (rid : BitVec 64) (data : BitVec 128) (s : State) :
    Host.Outcome State Fault Refusal :=
  .next (s.mreq port h 9 24 index rid data (fun s => (s.dropPort index.toNat 4, 0)))
/-- PORT_DOWN: loss of signal, or silence of 10 µs (R399). Log 84 (DEDUCED). -/
def execPortDown (port : Fin 24) (reason : BitVec 8) (s : State) : Host.Outcome State Fault Refusal :=
  if reason = 2 && decide (s.clk < (s.port port).rx + 12000) then .next s else .next (s.dropPort port reason.toNat)

/-! ### Flits -/

/-- CRC-64 with the ECMA-182 polynomial (R319), from 0, most significant bits first. Log 81 (PRESUMED). -/
def crcBit (c : BitVec 64) (b : Bool) : BitVec 64 := if c.getLsbD 63 != b then (c <<< 1) ^^^ 0x42F0E1EBA9EA3693 else c <<< 1
def crc64 (bs : List Byte) : BitVec 64 :=
  bs.foldl (fun c b => ([7, 6, 5, 4, 3, 2, 1, 0] : List Nat).foldl (fun c i => crcBit c (b.getLsbD i)) c) 0
/-- Bytes 0 to 247 of a flit (R319). -/
def flitBytes (type : Nat) (f : Flit) : List Byte :=
  toBytes type 1 ++ toBytes (f.rsv.toNat % 256) 1 ++ toBytes f.seq.toNat 2 ++ toBytes f.ackSeq.toNat 2 ++
    toBytes (f.rsv.toNat / 256) 2 ++ f.payload
def flitGood (type : Nat) (f : Flit) : Bool := f.payload.length == 240 && crc64 (flitBytes type f) == f.crc
/-- A flit's reserved bits are 0 (R319, R402). -/
def flitPlain (f : Flit) : Bool := f.rsv == 0 && f.seq.toNat < 4096 && f.ackSeq.toNat < 4096

/-- The ACKSEQ of a port: the last sequence received in order (R319). -/
def Port.ackSeq (x : Port) : Nat := (x.rxSeq + 4095) % 4096
/-- A flit as the port sends it, with its CRC (R319). -/
def Port.flit (x : Port) (type seq : Nat) (payload : List Byte) : Flit :=
  let f : Flit := { seq := BitVec.ofNat 16 seq, ackSeq := BitVec.ofNat 16 x.ackSeq, rsv := 0, payload := payload, crc := 0 }
  { f with crc := crc64 (flitBytes type f) }
/-- What a port puts on its link at the end of this clk (R319, R399): the answer that it owes, then the DATA flits that have not gone
out since the last NAK, those that are replayed with their SEQ; with neither, IDLE. -/
def Port.line (x : Port) : List (Nat × Flit) :=
  let fill := List.replicate 240 (0 : Byte)
  let said := match x.said with
    | some (t, _) => [(t, x.flit t 0 fill)]
    | none => []
  let data := (x.pump.unacked.drop x.next).map (fun u => (1, x.flit 1 u.1 u.2))
  if !x.up then [] else if said ++ data = [] then [(0, x.flit 0 0 fill)] else said ++ data

/-- Flits up to ACKSEQ are acknowledged; a packet whose last flit is among them has left (R319, R400). -/
def State.ackFlits (s : State) (p upto : Nat) : State :=
  let x := s.port p
  match x.unacked.findIdx? (fun u => u.1 == upto) with
  | none => s
  | some i =>
    let gone := (x.unacked.take (i + 1)).map (·.1)
    s.modPort p (fun x => { x with
      unacked := x.unacked.drop (i + 1), next := x.next - (i + 1), out := x.out.filter (fun o => !gone.contains o.1) })
/-- A flit has arrived on a port. -/
def State.heard (s : State) (p : Nat) : State := s.modPort p (fun x => { x with rx := s.clk })

/-- A whole packet at its port: it terminates here, or is looked up and goes on (R323, R326). -/
def State.deliverPacket (s : State) (port : Fin 24) (h : PktHdr) (pay : List Byte) : State :=
  if h.dest = s.fabric.self then
    if !s.passes port h true then s.refusePacket port h.src.toNat
    else match arriveStep port h pay with
      | some i => (s.passIn port h).soon i
      | none => s.inOrder port h pay (fun s =>
          (if h.op = 8 then s.answer port h (field pay 0 1) 1 (BitVec.ofNat 32 (field pay 4 4)) (BitVec.ofNat 64 (field pay 8 8)) 0
            else s, true))
  else if s.passes port h false then s.transmit (unitWord 11 port) h pay
  else s.refusePacket port h.src.toNat
/-- Packets in the bytes of a port's stream, and what is left of the last one; zeros in place of a header fill the rest of a
flit. Log 39 (DESIGN CHOICE). -/
def State.parsePackets (s : State) (port : Fin 24) (bs : List Byte) : Nat → State
  | 0 => s.modPort port (fun p => { p with part := [] })
  | f + 1 =>
    let h := hdrOf (field bs 0 16)
    let n := 16 + h.len.toNat
    let keep := fun (s : State) (left : List Byte) => s.modPort port (fun p => { p with part := left })
    if bs.length < 16 then keep s (if bs.all (· == 0) then [] else bs)
    else if field bs 0 16 = 0 then keep s []
    else if 4096 < h.len.toNat then keep (s.refusePacket port h.src.toNat) []
    else if bs.length < n then keep s bs
    else (s.deliverPacket port h ((bs.drop 16).take h.len.toNat)).parsePackets port (bs.drop n) f

/-- A DATA flit that is dropped (R319, R399): the first is answered NAK; a replay that fails again takes the port down.
Log 82 (DESIGN CHOICE), 83 (DEDUCED). -/
def State.dropFlit (s : State) (p : Nat) (crc : Bool) : State :=
  let x := s.port p
  if x.nakked && (crc || 1023 ≤ x.replays) then s.dropPort p 1
  else s.modPort p (fun y => { y with
    nakked := true, said := some (3, y.ackSeq), replays := if y.nakked then y.replays + 1 else 0 })
/-- DATA_FLIT (R319, R399, R402): in order and with a good CRC its payload joins the stream; a replay that passes is recorded. -/
def execDataFlit (port : Fin 24) (f : Flit) (s : State) : Host.Outcome State Fault Refusal :=
  let x := s.port port
  if !x.up then .next s
  else
    let s := s.heard port
    if !flitGood 1 f then .next (s.dropFlit port true)
    else
      let s := s.ackFlits port (f.ackSeq.toNat % 4096)
      if f.seq.toNat % 4096 != x.rxSeq then .next (s.dropFlit port false)
      else
        let s := if x.nakked then s.report 8 0 (unitWord 11 port) (0, 0) 0 1 0 0x90 noName else s
        let s := s.modPort port (fun y => { y with rxSeq := (y.rxSeq + 1) % 4096, nakked := false, replays := 0 })
        let s := s.modPort port (fun y => { y with said := some (2, y.ackSeq) })
        if !flitPlain f then .next ((s.refusePacket port 0).modPort port (fun y => { y with part := [] }))
        else .next (s.parsePackets port (x.part ++ f.payload) (x.part.length + 2))
/-- ACK_FLIT (R319). -/
def execAckFlit (port : Fin 24) (f : Flit) (s : State) : Host.Outcome State Fault Refusal :=
  if !(s.port port).up then .next s
  else if flitGood 2 f then .next ((s.heard port).ackFlits port (f.ackSeq.toNat % 4096)) else .next (s.heard port)
/-- NAK_FLIT: what ACKSEQ covers is acknowledged; the flits behind it go out again with their SEQ (R319). -/
def execNakFlit (port : Fin 24) (f : Flit) (s : State) : Host.Outcome State Fault Refusal :=
  if !(s.port port).up then .next s
  else if flitGood 3 f then
    .next (((s.heard port).ackFlits port (f.ackSeq.toNat % 4096)).modPort port (fun y => { y with next := 0 }))
  else .next (s.heard port)
/-- IDLE_FLIT: it keeps the link alive (R399). -/
def execIdleFlit (port : Fin 24) (f : Flit) (s : State) : Host.Outcome State Fault Refusal :=
  if !(s.port port).up then .next s
  else if flitGood 0 f then .next ((s.heard port).ackFlits port (f.ackSeq.toNat % 4096)) else .next (s.heard port)

end Sys2Proof.Machine
end

