-- ==== Sys2Proof/Machine/Commands.lean ====
section
/-!
DEFINITION. Commands to the device: the management mailboxes (spec/22_system.md R317, R331; spec/19_accounting.md R283;
spec/21_preemption.md R303, R308, R312, R313; spec/20_vm.md R300), profiling sessions (R285, R286; spec/32_errors_context.md R396, R397),
the translation command rings (spec/20_vm.md R292, R295 to R299; spec/30_errors_memory.md R376, R377, R381), and the system die's
apertures, through which all of them are reached (spec/22_system.md R315, R316).
-/

namespace Sys2Proof.Machine

/-! ### Mailboxes -/

/-- A mailbox before its first command: STATE 1, so that the first doorbell executes. Log 2 (DESIGN CHOICE). -/
def Mailbox.idle : Mailbox := { cmd := List.replicate 64 0, state := 1, result := 0, tag := 0, data := List.replicate 56 0 }
def State.box (s : State) (p : Nat) : Mailbox := tabGet s.mgmt.boxes p Mailbox.idle
def State.setBox (s : State) (p : Nat) (m : Mailbox) : State := { s with mgmt := { s.mgmt with boxes := tabPut s.mgmt.boxes p m } }
/-- The 64 bytes of the response (R317). -/
def Mailbox.response (m : Mailbox) : List Byte := [m.state, m.result] ++ toBytes m.tag.toNat 2 ++ toBytes 0 4 ++ m.data
/-- The response of a mailbox (R317): STATE 1, RESULT, TAG, DATA. -/
def State.reply (s : State) (p : Nat) (tag : BitVec 16) (result : Nat) (data : List Byte) : State :=
  s.setBox p { s.box p with
    state := 1, result := BitVec.ofNat 8 result, tag := tag, data := data ++ List.replicate (56 - data.length) 0 }
/-- The partition of a mailbox. -/
def State.part (s : State) (p : Nat) : Option Partition := tabFind s.mgmt.parts p
/-- A virtual interface belongs to a partition (R300, R317). -/
def Partition.hasVi (x : Partition) (vi : BitVec 8) : Bool := x.viBase ≤ vi.toNat && vi.toNat < x.viBase + x.viCount
/-- A controller's memory is the partition's (R302, R318). Log 90 (DEDUCED). -/
def Partition.hasPa (x : Partition) (pa : Nat) : Bool := hasMemory pa && x.memory.getLsbD (pa / 0x200000000 / 6)
/-- Every frame of a run is the partition's own: of its memory, and not device-reserved (R292, R317). -/
def State.ownsRun (s : State) (x : Partition) (pa n : Nat) : Bool :=
  (List.range ((pa % 65536 + n + 65535) / 65536)).all (fun i =>
    let a := pa / 65536 * 65536 + 65536 * i
    x.hasPa a && s.fot a != 0xFFFF)
/-- A mailbox command that executes, for what can be reached (R317, R329): it runs, and its answer is written. `range` are the arguments within
range, `inside` the resources in the partition, `able` the state that lets it run. Log 89 (DEDUCED). -/
def State.command (s : State) (p : Nat) (tag : BitVec 16) (range : Bool) (inside able : Partition → Bool)
    (f : State → State × List Byte) : State :=
  if s.mgmt.state != 4 || (s.box p).state != 0 then s
  else match s.part p with
    | none => if p = 0 then s.reply p tag (if range then 2 else 1) [] else s
    | some x =>
      if !range then s.reply p tag 1 []
      else if !inside x then s.reply p tag 2 []
      else if !able x then s.reply p tag 3 []
      else
        let (s, d) := f s
        s.reply p tag 0 d
def always (_ : Partition) : Bool := true

/-- Launches of a virtual interface that PREEMPT names; 0 for all (R303, R317). -/
def State.preempted (s : State) (vi : BitVec 8) (launch : BitVec 32) : List Nat :=
  (s.wgs.filter (fun w => w.2.vi == vi && (launch == 0 || (s.launch w.2.launch).id == launch))).map (·.1)
/-- The end of a tenant's slice (R311, R313): the control threads that hold its contexts stop and are saved, those of workgroups whose
pre-emption is pending among them, and its queues wait until it is enabled again. -/
def State.endSlice (s : State) (vi : BitVec 8) : State :=
  let mine := fun (t : Thread) => match t.ctx with
    | some (v, _) => v == vi && (match t.wg with
      | some w => (s.wg w).discard.isNone
      | none => true)
    | none => false
  let s := { s with threads := tabMap s.threads (fun _ t => if mine t then { t with halt := true } else t) }
  { s with monarch := { s.monarch with closed := if s.monarch.closed.contains vi.toNat then s.monarch.closed
                                                 else vi.toNat :: s.monarch.closed } }
/-- PREEMPT (R303, R313, R317). -/
def execPreempt (p : Fin 8) (tag : BitVec 16) (vi : BitVec 8) (launch : BitVec 32) (s : State) : Host.Outcome State Fault Refusal :=
  .next (s.command p tag true (fun x => x.hasVi vi) always (fun s =>
    let s := (s.preempted vi launch).foldl State.preemptWg s
    (if launch = 0 then s.endSlice vi else s, [])))
/-- SAVEREG (R308, R317): 576 KiB at a 64 KiB boundary; 0 withdraws. -/
def execSavereg (p : Fin 8) (tag : BitVec 16) (vi : BitVec 8) (asid : BitVec 16) (pa : BitVec 64) (s : State) :
    Host.Outcome State Fault Refusal :=
  let key := ringCtx vi asid
  .next (s.command p tag (pa.toNat % 65536 == 0) (fun x => x.hasVi vi && (pa == 0 || s.ownsRun x pa.toNat 0x90000)) always (fun s =>
    ({ s with mgmt := { s.mgmt with saves := if pa = 0 then tabDel s.mgmt.saves key
                                             else tabPut s.mgmt.saves key { pa := pa.toNat } } }, [])))

/-- A configuration record of the table (R300). -/
def State.viTable (s : State) (vi : Nat) : List Byte := tabGet s.mgmt.vis vi (List.replicate 512 0)
/-- A record as the table keeps it: its reserved fields read as zero (R1, R300). -/
def cleanRecord (r : List Byte) : List Byte :=
  toBytes (field r 0 8 &&& 0xFFFFFFF007F) 8 ++ (r.drop 8).take 0x12 ++ [0, 0] ++ (r.drop 0x1C).take 0x79 ++ [0, 0, 0] ++
    (r.drop 0x98).take 1 ++ List.replicate 103 0 ++ ((r.drop 0x100).take 96).map (fun b => b &&& 0x7F) ++ List.replicate 160 0
/-- A record with CTL.EN set or clear. -/
def withEn (r : List Byte) (en : Bool) : List Byte :=
  patch r 0 [BitVec.ofNat 8 (field r 0 1 / 2 * 2 + if en then 1 else 0)]
/-- VIENABLE (R300, R313, R317): a change from 0 to 1 reads the record into use; it opens the queues that a slice's end closed, and the
control programs that were saved with the slice may be restored. -/
def State.enableVi (s : State) (vi : BitVec 8) (en : Bool) : State :=
  let v := vi.toNat
  let r := withEn (s.viTable v) en
  let used := if en && !s.viBit vi 0 then tabPut s.mgmt.used v r
    else tabMod s.mgmt.used v (fun x => withEn x en)
  let s := { s with mgmt := { s.mgmt with vis := tabPut s.mgmt.vis v r, used := used } }
  if en then
    let s : State := { s with monarch := { s.monarch with closed := s.monarch.closed.filter (· != v) } }
    ((s.wgs.filter (fun p => p.2.vi == vi && p.2.suspended.isSome)).map (·.1)).foldl (fun s w => s.soon (.suspendedRestore w))
      (s.soon .eligibilityCheck)
  else { s with monarch := { s.monarch with cmds := tabDel s.monarch.cmds v } }
def execVienable (p : Fin 8) (tag : BitVec 16) (vi : BitVec 8) (en : BitVec 8) (s : State) : Host.Outcome State Fault Refusal :=
  .next (s.command p tag (decide (en.toNat < 2)) (fun x => x.hasVi vi) always (fun s => (s.enableVi vi (en == 1), [])))
/-- VIWRITE (R300, R317): refused while the interface is enabled. Log 92 (DEDUCED). -/
def execViwrite (p : Fin 8) (tag : BitVec 16) (vi : BitVec 8) (pa : BitVec 64) (s : State) : Host.Outcome State Fault Refusal :=
  let image := cleanRecord (s.getBytes pa.toNat 512)
  .next (s.command p tag true
    (fun x => x.hasVi vi && s.ownsRun x pa.toNat 512 && bits (field image 0 8) 4 3 == p.val)
    (fun _ => !(field (s.viTable vi.toNat) 0 8).testBit 0)
    (fun s => ({ s with mgmt := { s.mgmt with vis := tabPut s.mgmt.vis vi.toNat image } }, [])))
/-- VIREAD (R300, R317). -/
def execViread (p : Fin 8) (tag : BitVec 16) (vi : BitVec 8) (pa : BitVec 64) (s : State) : Host.Outcome State Fault Refusal :=
  .next (s.command p tag true (fun x => x.hasVi vi && s.ownsRun x pa.toNat 512) always
    (fun s => (s.putBytes pa.toNat (s.viTable vi.toNat), [])))
/-- The placed workgroup that holds the group a joined name gives (R317). -/
def State.named (s : State) (n : WgName) : Option Nat :=
  (s.wgs.find? (fun w =>
    let l := s.launch w.2.launch
    w.2.vi == n.vi && l.id == n.launch && w.2.num == n.group.toNat / recExtent l.record 0 && !w.2.dead)).map (·.1)
/-- STOP (R283, R317). Log 91 (DEDUCED). -/
def execStop (p : Fin 8) (tag : BitVec 16) (name : WgName) (s : State) : Host.Outcome State Fault Refusal :=
  .next (s.command p tag true (fun x => name.part.toNat == p.val && x.hasVi name.vi) (fun _ => (s.named name).isSome) (fun s =>
    match s.named name with
    | some w => (s.stopWg w (s.wg w).resume, [])
    | none => (s, [])))
/-- REPLAY (R283, R317): a discardable workgroup is discarded, and stopped again when it is placed; another goes on to its next
REGION, where it stops. -/
def execReplay (p : Fin 8) (tag : BitVec 16) (name : WgName) (s : State) : Host.Outcome State Fault Refusal :=
  .next (s.command p tag true (fun x => name.part.toNat == p.val && x.hasVi name.vi)
    (fun _ => match s.named name with
      | some w => (s.wg w).stopped && (s.wg w).discard.isNone
      | none => false)
    (fun s => match s.named name with
      | some w => (if (s.wg w).buffers then s.discard w else s.setStopped w false, [])
      | none => (s, [])))
/-- SETGRACE: 1 to 10,000 microseconds (R312, R317). -/
def execSetgrace (p : Fin 8) (tag : BitVec 16) (us : BitVec 32) (s : State) : Host.Outcome State Fault Refusal :=
  .next (s.command p tag (decide (1 ≤ us.toNat) && decide (us.toNat ≤ 10000)) always always (fun s =>
    ({ s with mgmt := { s.mgmt with grace := tabPut s.mgmt.grace p (1200 * us.toNat) } }, [])))

/-- Regions 0 to 95 are the clusters', with four layers; the others have layer 0 only (R331, R404). -/
def layerOk (region layer : Nat) : Bool := region < 96 && layer < 4 || region < 112 && layer == 0
def Volt.blank : Volt := { stamp := 0, mv := 0xFFFF, told := none }
def State.volt (s : State) (region layer : Nat) : Volt := tabGet s.mgmt.volts (4 * region + layer) Volt.blank
def State.setVolt (s : State) (region layer : Nat) (v : Volt) : State :=
  { s with mgmt := { s.mgmt with volts := tabPut s.mgmt.volts (4 * region + layer) v } }
/-- A new minimum is kept with its TIME (R331). -/
def Volt.see (v : Volt) (mv : BitVec 16) (time : Nat) : Volt :=
  if mv.toNat < v.mv.toNat then { v with mv := mv, stamp := BitVec.ofNat 64 time } else v
/-- The sixteen bytes of VMINREAD (R331). -/
def Volt.bytes (v : Volt) : List Byte := toBytes v.mv.toNat 8 ++ toBytes v.stamp.toNat 8
/-- VMINREAD (R317, R331): the value, then the clear, as one step. Log 93 (DEDUCED). -/
def execVminread (p : Fin 8) (tag : BitVec 16) (region layer clear : BitVec 8) (s : State) : Host.Outcome State Fault Refusal :=
  let r := region.toNat
  let l := layer.toNat
  .next (s.command p tag (layerOk r l && decide (clear.toNat < 2)) (fun x => 96 ≤ r || x.clusters.getLsbD (r / 12)) always (fun s =>
    let v := s.volt r l
    (if clear = 1 then s.setVolt r l { v with mv := 0xFFFF, stamp := 0 } else s, v.bytes)))
/-- A reserved code: RESULT 1 (R317). -/
def execReservedCommand (p : Fin 8) (tag : BitVec 16) (_code : BitVec 8) (s : State) : Host.Outcome State Fault Refusal :=
  .next (s.command p tag false always always (fun s => (s, [])))

/-! ### Sessions -/

/-- SESSION_OPEN (R277, R285, R286, R396, R397): SELECT is read, STATUS marks what the Choxia does not have, and, under MODE 1, each
selected event that is not allowed is noticed to the hypervisor. `o.carried` are the counts of a migration record: the active events go
on from them, and each selected one that is absent here has its record. Log 119 (DESIGN CHOICE). -/
def execSessionOpen (vi : BitVec 8) (o : Opening) (s : State) : Host.Outcome State Fault Refusal :=
  let asid := o.asid
  let key := ringCtx vi asid
  if !s.viBit vi 0 then .next s
  else match s.ringAt key with
    | none => .next s
    | some r =>
      match r.read s (r.base + 0x18) 8 with
      | none => .next s
      | some (s, sel) =>
        let select : Word := BitVec.ofNat 64 sel
        let status := select &&& 0xFFFFFFFFFFE00000
        let active := fun (n : Nat) => select.getLsbD n && (s.viField vi 0x30 8).testBit n
        let counts := match o.carried with
          | none => []
          | some cs => ((List.range 21).filter active).map (fun n => (n, cs.getD n 0))
        let x : Session := { select := select, status := status, counts := counts }
        let s := { s with mgmt := { s.mgmt with sessions := tabPut s.mgmt.sessions key x } }
        let s := (r.write s (r.base + 0x20) (toBytes status.toNat 8)).getD s
        let note := fun (s : State) (code n : Nat) => s.report 7 0 (unitWord 9 0) (vi, asid) n 0 0 code noName
        let s := if o.carried.isSome then
            ((List.range 64).filter (fun n => status.getLsbD n)).foldl (fun s n => note s 0x88 n) s
          else s
        .next (if s.viBit vi 1 then
            ((List.range 21).filter (fun n => s.eventOff vi asid n)).foldl (fun s n => note s 0x87 n) s
          else s)

/-! ### Translation command rings -/

/-- DONE of an entry receives 1 (R295, R296). -/
def State.cmdDone (s : State) (vi : BitVec 8) (e : TCmd) : State :=
  match s.ipa vi e.done.toNat with
  | some pa => if s.ownOk pa then s.putNum pa 8 1 else s
  | none => s
/-- The physical address of the command doorbell of an interface (R300, R316). -/
def cmdBellPa (vi : BitVec 8) : Word := 0x200000000000 + 0x10000 * vi.setWidth 64 + 0x48
/-- A ring is no longer served. -/
def State.cmdEnd (s : State) (vi : BitVec 8) : State :=
  { s with monarch := { s.monarch with cmds := tabDel s.monarch.cmds vi.toNat } }
/-- The ring moves to its next entry: HEAD rises, and a ring under service goes on with what stands behind (R259, R295, R377). -/
def State.cmdNext (s : State) (vi : BitVec 8) : State :=
  let d := s.viField vi 0x28 8
  let serving := (tabFind s.monarch.cmds vi.toNat).isSome
  let s := s.cmdEnd vi
  match (if d = 0 then none else s.ipa vi d) with
  | none => s
  | some pa =>
    if !s.ownOk pa then s
    else
      let s := s.putNum (pa + 0xC) 4 ((s.getNum (pa + 0xC) 4 + 1) % 2 ^ 32)
      if serving then s.first (.dbell none none (cmdBellPa vi) [0]) else s
/-- A command that is not executed: CODE 0x41, and no DONE (R377). -/
def State.cmdRefuse (s : State) (vi : BitVec 8) (e : TCmd) : State :=
  (s.report 3 1 (unitWord 9 0) (vi, e.asid) e.addr.toNat 0 2 0x41 noName).cmdNext vi
/-- A stage-2 address of a ring faults: the step waits for it (R298). -/
def State.cmdWait (s : State) (vi : BitVec 8) (st ipa flags : Nat) (i : Instr) : State :=
  (s.raise vi 0 0 st ipa flags noName (.step i)).1
/-- A command executes, then its DONE is written and the ring moves on (R295); where the page of DONE faults, it waits (R298).
Log 95 (DEDUCED). -/
def State.cmdRun (s : State) (vi : BitVec 8) (e : TCmd) (row : Instr) (f : State → State) : State :=
  match s.stage2 48 vi e.done.toNat with
  | .fault st ipa => s.cmdWait vi st ipa 2 row
  | _ => ((f s).cmdDone vi e).cmdNext vi
/-- An entry of a ring (R295). -/
def ringEntry (bs : List Byte) : TCmd :=
  { flags := BitVec.ofNat 8 (field bs 1 1), asid := BitVec.ofNat 16 (field bs 2 2), count := BitVec.ofNat 32 (field bs 4 4)
    addr := BitVec.ofNat 64 (field bs 8 8), done := BitVec.ofNat 64 (field bs 0x10 8) }
/-- The command doorbell (R295, R300): the entry at HEAD is read and executes, and then the next, up to TAIL. A descriptor with a SIZE
that R259 does not allow, or with more entries than SIZE, is not served. Log 131 (DESIGN CHOICE). -/
def State.cmdBell (s : State) (vi : BitVec 8) : State :=
  let d := s.viField vi 0x28 8
  let again := Instr.dbell none none (cmdBellPa vi) [0]
  if !s.viBit vi 0 || d = 0 || (tabFind s.monarch.cmds vi.toNat).isSome then s
  else match s.stage2 48 vi d with
    | .bad => s
    | .fault st ipa => s.cmdWait vi st ipa 1 again
    | .ok pa .. =>
      let q := s.getBytes pa 64
      let size := field q 8 4
      let head := field q 0xC 4
      let tail := field q 0x10 4
      if head = tail || size < (tail + 2 ^ 32 - head) % 2 ^ 32 || !(List.range 13).any (fun i => size == 2 ^ (i + 4)) then s
      else match s.stage2 48 vi (field q 0 8 + 32 * (head % size)) with
        | .bad => s
        | .fault st ipa => s.cmdWait vi st ipa 1 again
        | .ok at_ .. =>
          let bs := s.getBytes at_ 32
          let e := ringEntry bs
          let s : State := { s with monarch := { s.monarch with cmds := tabPut s.monarch.cmds vi.toNat tail } }
          match field bs 0 1 with
          | 1 => s.first (.purge vi e)
          | 2 => s.first (.resume vi e)
          | 3 => s.first (.fotset vi e)
          | _ => s.cmdRefuse vi e

/-- What a PURGE covers (R296): a device ASID at an address, under a VMID. -/
structure Purge where
  vmid  : Nat
  /-- Every ASID of the VMID. -/
  whole : Bool
  devs  : Nat → Bool
  page  : Nat
  count : Nat
/-- What a translation command's entry purges (R295, R296). Log 94 (DEDUCED). -/
def State.purgeOf (s : State) (vi : BitVec 8) (e : TCmd) : Purge :=
  let base := s.viField vi 0x18 2
  let n := s.viField vi 0x1C 4
  { vmid := s.viVmid vi
    whole := e.flags.getLsbD 1
    devs := fun d => if e.flags.getLsbD 0 then base ≤ d && d < base + n else d == s.devAsid vi e.asid
    page := e.addr.toNat / 65536
    count := e.count.toNat }
/-- A page of the range (R295): COUNT 0 is the whole space. -/
def Purge.at_ (p : Purge) (lo hi : Nat) : Bool := p.whole || p.count == 0 || (decide (p.page < hi) && decide (lo < p.page + p.count))
/-- A cached line, by its key; a whole VMID takes the lines of every virtual interface under it. -/
def State.purges (s : State) (p : Purge) (key : Nat) : Bool :=
  let va := keyAddr key
  let dev := keyDev key
  !isLocalKey key && p.at_ (va / 65536) (va / 65536 + 1) &&
    if p.whole then
      (s.mgmt.used.map (·.1)).any (fun v =>
        let b := s.viField (BitVec.ofNat 8 v) 0x18 2
        s.viVmid (BitVec.ofNat 8 v) == p.vmid && b ≤ dev && decide (dev < b + s.viField (BitVec.ofNat 8 v) 0x1C 4)) ||
        (dev == 0 && p.vmid == 0)
    else if dev == 0 then isShared va else p.devs dev
/-- A translation in a station. -/
def Purge.tlb (p : Purge) (t : Tlb) : Bool :=
  if p.whole then t.vmid == p.vmid
  else p.at_ (t.page / 65536) (t.page / 65536 + 2 ^ (sizeLog t.size - 16)) && (if t.asid == 0 then t.vmid == 0 else p.devs t.asid)

/-- A pointer entry in a station (R296); those of stage 2 go with the whole VMID. -/
def Purge.ptr (p : Purge) (q : Ptr) : Bool :=
  let n := 2 ^ (lvlShift q.lvl - 16)
  if p.whole then q.vmid == p.vmid
  else q.stage == 1 && p.at_ (q.page * n) (q.page * n + n) && (if q.asid == 0 then q.vmid == 0 else p.devs q.asid)

/-- A held line dropped by number: CODE 0x43, and PAGE_NONREPLAY for its writer (R376, R381). -/
def State.dropHeld (s : State) (id : Nat) : State :=
  match tabFind s.accesses id with
  | none => s
  | some x =>
    let va := match x.lanes with
      | (_, va, _) :: _ => va.toNat
      | [] => 0
    let word := s.nextRecord 0x43 3
    let die := homeDie (s.tagAsid x.vi x.asid va) va
    let s := s.report 3 1 (unitWord 4 die) (x.vi, x.asid) (va / 128 * 128) 0 1 0x43 (s.joined x.agent)
    let s := s.failWrite x id va 0x05 word
    { s.unhold id with accesses := tabDel s.accesses id }

/-- A request that translated before a purge is performed at its old frame (R296, step 4): its line comes, and its waiters with it. -/
def State.performOld (s : State) (id : Nat) : State :=
  match tabFind s.requests id with
  | none => s
  | some r =>
    match r.tlb with
    | none => s
    | some t =>
      match (if (s.l2 (lineKey t.asid r.line)).isSome then some s else s.fill r.vi r.line t) with
      | none => s.endRequest id false
      | some s =>
        let s := { s with requests := tabDel s.requests id }
        r.waiters.foldl State.wake s
/-- The steps of a purge (R296, R381). A line that a request under way brings at its old frame is gone again before DONE. -/
def State.purge (s : State) (p : Purge) : State :=
  let s := { s with stations := tabMap s.stations (fun _ x => { x with
    tlb := x.tlb.filter (fun t => !p.tlb t), ptrs := x.ptrs.filter (fun q => !p.ptr q) }) }
  let s := (s.cores.map (·.1)).foldl (fun s c =>
    (((s.core c).l1.map (·.1)).filter (fun k => s.purges p k)).foldl (fun s k => s.evictL1 c k) s) s
  let clean := fun (u : CoreUnit) => { u with icache := u.icache.filter (fun l => !s.purges p l.1) }
  let s : State := { s with
    cores := tabMap s.cores (fun _ c => { c with unit := clean c.unit })
    clusters := tabMap s.clusters (fun _ c => { c with unit := clean c.unit })
    fetches := s.fetches.filter (fun f => !s.purges p (lineKey (s.tagAsid f.2.vi f.2.asid f.2.line) f.2.line)) }
  let old := (s.requests.filter (fun r => match r.2.tlb with
    | some t => p.tlb t && s.purges p (lineKey t.asid r.2.line)
    | none => false)).map (·.1)
  let s := old.foldl State.performOld s
  let s := (s.dies.map (·.1)).foldl (fun s d =>
    (((s.die d).l2.map (·.1)).filter (fun k => s.purges p k)).foldl (fun s k => (s.writeBack k).dropL2 k) s) s
  let held := (s.accesses.filter (fun a => a.2.what == 4 && a.2.lanes.any (fun l =>
    s.purges p (lineKey (s.tagAsid a.2.vi a.2.asid l.2.1.toNat) l.2.1.toNat)))).map (·.1)
  held.foldl State.dropHeld s
/-- PURGE (R295, R296, R377). -/
def execPurge (vi : BitVec 8) (e : TCmd) (s : State) : Host.Outcome State Fault Refusal :=
  if !s.viBit vi 0 then .next s
  else if e.flags.getLsbD 1 && !s.viBit vi 3 then .next (s.cmdRefuse vi e)
  else .next (s.cmdRun vi e (.purge vi e) (fun s => s.purge (s.purgeOf vi e)))

/-- FOTSET: the entry of a frame of the partition (R292, R295, R377). -/
def execFotset (vi : BitVec 8) (e : TCmd) (s : State) : Host.Outcome State Fault Refusal :=
  let pa := e.addr.toNat
  let mine := match s.part (s.viPart vi) with
    | some x => x.hasPa pa
    | none => false
  if !s.viBit vi 0 then .next s
  else if !s.viBit vi 3 || !mine then .next (s.cmdRefuse vi e)
  else
    let at_ := pa / 0x200000000 * 0x200000000 + (0x200000000 - 0x40000) + 2 * (pa % 0x200000000 / 65536)
    .next (s.cmdRun vi e (.fotset vi e) (fun s => s.putNum at_ 2 (e.count.toNat % 65536)))

/-- An agent that is parked on a token goes on: its sequence replays the lanes that are left, or issues anew with what its ports have
popped (R154, R163, R299). -/
def State.unpark (s : State) (tok : Nat) (a : Agent) : State :=
  if !s.alive a then s
  else s.modStrand a (fun x => match x.park with
    | some p =>
      if p.token != some tok then x
      else { x with park := if p.mask = 0 && p.popped.isEmpty && p.aw.isNone then none
                            else some { p with token := none, ready := true, mask := if p.mask = 0 then s.exMask a else p.mask } }
    | none => x)
/-- The same for one whose fault is denied: it takes ACCESS (R377). -/
def State.denyAgent (s : State) (tok : Nat) (a : Agent) (va : Word) : State :=
  let here := match (s.strand a).park with
    | some p => p.token == some tok
    | none => false
  if here then (s.unpark tok a).queueTrap a 0x06 va else s
/-- A graph whose own reads are denied ends under 0x82 (R391). Log 132 (DESIGN CHOICE). -/
def State.failGraph (s : State) (gid : Nat) (va : Nat) : State :=
  match tabFind s.monarch.graphs gid with
  | none => s
  | some g =>
    let word := s.nextRecord 0x82 7
    let s := s.report 7 1 (unitWord 9 0) (g.vi, g.asid) va 0 1 0x82 noName
    match g.launches with
    | (_, k) :: _ => s.killLaunch k word
    | [] => s.endGraph gid word
/-- What a denial does to a step that waits on the fault (R376, R377, R382, R388, R391). -/
def State.denyStep (s : State) (va : Word) (i : Instr) : State :=
  match i with
  | .engineComplete id => ({ s with engines := tabMod s.engines id (fun e => { e with denied := true }) } : State).soon i
  | .storePerformed id _ => s.dropHeld id
  | .loadComplete id _ =>
    match tabFind s.accesses id with
    | none => s
    | some x => s.trapLoad id x 0x06 (match (s.performOne id).2 with
        | some (.fault a _ _ _) => a
        | _ => va.toNat)
  | .collStep w => s.abortColl w 0x70 va.toNat
  | .launchArrival vi q =>
    (s.queueReport vi (BitVec.ofNat 16 (s.viField vi (0x80 + 2 * q.toNat) 2)) va.toNat).endBell (bellKey vi q.toNat)
  | .graphActivate id => s.failGraph id va.toNat
  | .nodeFlush id _ => s.failGraph id va.toNat
  | .purge vi e => s.cmdRefuse vi e
  | .resume vi e => s.cmdRefuse vi e
  | .fotset vi e => s.cmdRefuse vi e
  | .dbell .. => s
  | .write .. => s.denyPacket i
  | .caddPacket .. => s.denyPacket i
  | .csetPacket .. => s.denyPacket i
  | .cmax .. => s.denyPacket i
  | j => s.soon j
/-- RESUME (R299, R377): COUNT 0 retries, 1 denies; a token that is not outstanding has only its DONE. Another
COUNT is refused. Log 95 (DEDUCED). -/
def execResume (vi : BitVec 8) (e : TCmd) (s : State) : Host.Outcome State Fault Refusal :=
  let tok := e.addr.toNat % 2 ^ 32
  if !s.viBit vi 0 then .next s
  else if 1 < e.count.toNat then .next (s.cmdRefuse vi e)
  else .next (s.cmdRun vi e (.resume vi e) (fun s =>
    match tabFind s.faults tok with
    | none => s
    | some f =>
      let s := { s with faults := tabDel s.faults tok }
      if e.count = 1 then
        f.steps.foldl (fun s i => s.denyStep f.va i) (f.splits.foldl (fun (s : State) (a : Agent × Word) => s.denyAgent tok a.1 a.2) s)
      else f.steps.foldl State.soon (f.splits.foldl (fun (s : State) (a : Agent × Word) => s.unpark tok a.1) s)))

/-! ### The apertures of the system die -/

/-- What stands at a physical address (R316), with the offset in it: a doorbell page, a mailbox, the window of a root port, host
memory. -/
inductive Aperture where
  | doorbell (vi : BitVec 8) (off : Nat)
  | mailbox (p : Fin 8) (off : Nat)
  | root (r off : Nat)
  | host (off : Nat)
  | nothing
deriving DecidableEq, Repr

def apertureOf (pa : Nat) : Aperture :=
  if 0x200000000000 ≤ pa && pa < 0x200001000000 then
    .doorbell (BitVec.ofNat 8 ((pa - 0x200000000000) / 0x10000)) (pa % 0x10000)
  else if 0x200001000000 ≤ pa && pa < 0x200001008000 then
    .mailbox ⟨(pa - 0x200001000000) / 0x1000 % 8, Nat.mod_lt _ (by decide)⟩ (pa % 0x1000)
  else if 0x201000000000 ≤ pa && pa < 0x205000000000 then
    .root ((pa - 0x201000000000) / 0x1000000000) (pa % 0x1000000000)
  else if 0x300000000000 ≤ pa && pa < 0x400000000000 then .host (pa - 0x300000000000)
  else .nothing

/-- The command that stands in a mailbox (R317). -/
def readCommand (p : Fin 8) (cmd : List Byte) : Instr :=
  let tag := BitVec.ofNat 16 (field cmd 2 2)
  let vi := BitVec.ofNat 8 (field cmd 8 1)
  let pa := BitVec.ofNat 64 (field cmd 0x10 8)
  let name : WgName := {
    part := BitVec.ofNat 3 (field cmd 0x20 1)
    vi := BitVec.ofNat 8 (field cmd 0x21 1)
    launch := BitVec.ofNat 32 (field cmd 0x30 4)
    group := BitVec.ofNat 32 (field cmd 0x38 4) }
  match field cmd 0 1 with
  | 1 => .preempt p tag vi (BitVec.ofNat 32 (field cmd 0xC 4))
  | 2 => .savereg p tag vi (BitVec.ofNat 16 (field cmd 0xA 2)) pa
  | 3 => .vienable p tag vi (BitVec.ofNat 8 (field cmd 9 1))
  | 4 => .stop p tag name
  | 5 => .replay p tag name
  | 6 => .setgrace p tag (BitVec.ofNat 32 (field cmd 8 4))
  | 7 => .vminread p tag vi (BitVec.ofNat 8 (field cmd 9 1)) (BitVec.ofNat 8 (field cmd 0xA 1))
  | 8 => .viwrite p tag vi pa
  | 9 => .viread p tag vi pa
  | c => .reservedCommand p tag (BitVec.ofNat 8 c)
/-- Who reaches a mailbox (R317): the application cores of its partition and, for partition 0, the host. -/
def State.reaches (s : State) (core : Option (Fin 16)) (p : Nat) : Bool :=
  match core with
  | none => p == 0
  | some c => match s.part p with
    | some x => x.cores.getLsbD c.val
    | none => false
/-- A write to a mailbox (R317): of its command, or of its doorbell, which executes the command unless one executes. -/
def State.boxWrite (s : State) (p : Fin 8) (off : Nat) (data : List Byte) : State :=
  let m := s.box p.val
  if off < 0x40 then s.setBox p.val { m with cmd := (patch m.cmd off data).take 64 }
  else if off = 0x80 && m.state != 0 && s.mgmt.state == 4 then
    (s.setBox p.val { m with state := 0 }).soon (readCommand p m.cmd)
  else s
/-- A write to a doorbell page (R260, R285, R295, R300), with the names of the writer (R315). -/
def State.pageWrite (s : State) (core : Option (Fin 16)) (vi : BitVec 8) (off : Nat) (data : List Byte) : State :=
  let name := fun (t : Tab (BitVec 32)) => match core with
    | some c => tabGet t c.val 0
    | none => 0
  if off % 8 != 0 then s
  else if off < 0x40 then s.ringBell vi (off / 8) (name s.mgmt.kpid) (name s.mgmt.ktid)
  else if off = 0x40 then s.soon (.sessionOpen vi ⟨BitVec.ofNat 16 (field data 0 2), none⟩)
  else if off = 0x48 then s.cmdBell vi
  else s
/-- An application core's supervisor code writes KPID and KTID (R315). -/
def State.setNames (s : State) (c : Fin 16) (n : BitVec 32 × BitVec 32) : State :=
  { s with mgmt := { s.mgmt with kpid := tabPut s.mgmt.kpid c.val n.1, ktid := tabPut s.mgmt.ktid c.val n.2 } }
/-- DBELL (R260, R282, R285, R295, R300, R315 to R317): a write to the apertures of the system die, and before it one of the
naming registers that a doorbell's write captures; no data is no write. A window of a root port and host memory hand a write on; no other address takes one. Log 116
(DESIGN CHOICE). -/
def execDbell (core : Option (Fin 16)) (names : Option (BitVec 32 × BitVec 32)) (pa : BitVec 64) (data : List Byte) (s : State) :
    Host.Outcome State Fault Refusal :=
  let s := match core, names with
    | some c, some n => s.setNames c n
    | _, _ => s
  if data.isEmpty then .next s
  else .next (match apertureOf pa.toNat with
    | .doorbell vi off => s.pageWrite core vi off data
    | .mailbox p off => if s.reaches core p.val then s.boxWrite p off data else s
    | .root _ _ => s
    | .host _ => s
    | .nothing => s)

end Sys2Proof.Machine
end

