-- ==== Sys2Proof/Machine/Power.lean ====
section
/-!
DEFINITION. Bring-up, the partition map and power (spec/22_system.md R302, R318, R329 to R331; spec/33_errors_system.md R404, R405;
spec/01_device.md R7, R11).
-/

namespace Sys2Proof.Machine

/-! ### Power -/

/-- ADDR of a power record (R398). -/
def voltAddr (layer : Nat) (mv : BitVec 16) : Nat := layer * 2 ^ 60 + mv.toNat
/-- VOLTAGE_MINIMUM (R331). -/
def execVoltageMinimum (region layer : Nat) (mv : BitVec 16) (s : State) : Host.Outcome State Fault Refusal :=
  .next (if layerOk region layer then s.setVolt region layer ((s.volt region layer).see mv s.time) else s)
/-- UNDERVOLTAGE (R63, R404): a layer below 0.70 V. Its record comes at most once in 2^20 units of TIME; the four layers of the
region are throttled for 16 windows either way. -/
def execUndervoltage (region layer : Nat) (mv : BitVec 16) (s : State) : Host.Outcome State Fault Refusal :=
  if !layerOk region layer || 700 ≤ mv.toNat then .next s
  else
    let v := (s.volt region layer).see mv s.time
    let again := match v.told with
      | some t => decide (t + 2 ^ 20 ≤ s.time)
      | none => true
    let s := s.setVolt region layer (if again then { v with told := some s.time } else v)
    let s := if again then s.report 9 0 (unitWord 12 region) (0, 0) (voltAddr layer mv) 0 3 0xA0 noName else s
    .next (if region < 96 then
        (List.range 4).foldl (fun s l => s.modCore (4 * region + l) (fun c => { c with power := 16 })) s
      else s)
/-- Launches with a workgroup on a cluster. -/
def State.launchesOn (s : State) (c : Nat) : List Nat :=
  ((s.wgs.filter (fun w => w.2.cluster == c)).map (fun w => w.2.launch)).eraseDups
/-- REGULATOR_FAULT (R357, R363, R404): a cluster's region issues nothing more, its workgroups end with the record, and it is
fenced; an uncore region takes the Choxia back to bring-up. -/
def execRegulatorFault (region layer : Nat) (mv : BitVec 16) (s : State) : Host.Outcome State Fault Refusal :=
  if !layerOk region layer then .next s
  else if 96 ≤ region then .next (s.report 9 3 (unitWord 12 region) (0, 0) (voltAddr layer mv) 0 3 0xA1 noName)
  else
    let word := s.nextRecord 0xA1 9
    let seq := s.mgmt.errSeq
    let s := s.report 9 2 (unitWord 12 region) (0, 0) (voltAddr layer mv) 0 3 0xA1 noName
    let s := (s.launchesOn region).foldl (fun s k => s.killLaunch k word) s
    let s := [2 * region, 2 * region + 1].foldl (fun (s : State) t =>
      if (s.thread t).ctx.isSome then (s.modThread t (fun x => { x with tval := seq.setWidth 64 })).saveContext t else s) s
    let s := (List.range 4).foldl (fun s l => s.modCore (4 * region + l) (fun c => { c with fenced := true })) s
    .next (s.modCluster region (fun c => { c with fenced := true }))

/-! ### Bring-up -/

/-- A failure holds STATE, writes REASON and its record (R405). -/
def State.bootFail (s : State) (reason unit : Nat) : State :=
  ({ s with mgmt := { s.mgmt with reason := BitVec.ofNat 8 reason } } : State).report 10 3 unit (0, 0) reason 0 3 0xB0 noName
def State.setBoot (s : State) (n : BitVec 3) : State := { s with mgmt := { s.mgmt with state := n } }
/-- VERIFY (R329, R330, R405). Log 100 (DEDUCED). -/
def execVerify (s : State) : Host.Outcome State Fault Refusal :=
  if s.mgmt.state != 0 then .next s
  else
    let s := s.setBoot 1
    let image := s.mgmt.firmware
    if !Config.keyFused then .next (s.bootFail 3 (unitWord 13 0))
    else if !Config.imageOk image then .next (s.bootFail 2 (unitWord 13 0))
    else if !Config.signatureOk image then .next (s.bootFail 1 (unitWord 13 0))
    else .next { s with mgmt := { s.mgmt with measure := Config.extend s.mgmt.measure (Config.digest image) } }
/-- MEMTRAIN (R329, R405). -/
def execMemtrain (failed : Option (Fin 48)) (s : State) : Host.Outcome State Fault Refusal :=
  if s.mgmt.state != 1 || s.mgmt.reason != 0 then .next s
  else
    let s := s.setBoot 2
    match failed with
    | some m => .next (s.bootFail 4 (unitWord 6 m))
    | none => .next s

/-- Entry p of a partition map (R318). -/
def mapEntry (map : List Byte) (p : Nat) : List Byte := (map.drop (0x20 + 0x20 * p)).take 0x20
def mapValid (map : List Byte) (p : Nat) : Bool := (field (mapEntry map p) 0 1).testBit 0
def entryPart (e : List Byte) : Partition :=
  { cores := BitVec.ofNat 16 (field e 2 2)
    clusters := BitVec.ofNat 8 (field e 4 1)
    memory := BitVec.ofNat 8 (field e 5 1)
    viBase := field e 0xC 1
    viCount := field e 0xD 1 + 1
    rootPort := field e 1 1 % 4
    nicFn := field e 6 2
    nsid := field e 8 4 }
/-- The partition that holds everything (R302, R318). -/
def wholePart : Partition :=
  { cores := 0xFFFF, clusters := 0xFF, memory := 0xFF, viBase := 0, viCount := 256, rootPort := 0, nicFn := 0, nsid := 0 }
/-- Two partitions share a unit or a virtual interface (R302, R318). Log 99 (DEDUCED). -/
def Partition.overlaps (a b : Partition) : Bool :=
  a.cores &&& b.cores != 0 || a.clusters &&& b.clusters != 0 || a.memory &&& b.memory != 0 ||
    (decide (a.viBase < b.viBase + b.viCount) && decide (b.viBase < a.viBase + a.viCount)) ||
    (a.rootPort == b.rootPort && (a.nicFn == b.nicFn || a.nsid == b.nsid))
/-- The minimums of R302, and no unit that bring-up has retired. -/
def Partition.stands (a : Partition) (retired : List Nat) : Bool :=
  decide (2 ≤ popc a.cores) && a.clusters != 0 && a.memory != 0 && retired.all (fun r =>
    if r < 384 then true
    else if r < 400 then !a.cores.getLsbD (r - 384)
    else if r < 496 then !a.clusters.getLsbD ((r - 400) / 12)
    else !a.memory.getLsbD ((r - 496) / 6))
/-- The partitions of a map, with their initial PREEMPTGRACE in clk (R312, R318). -/
def mapParts (map : List Byte) : List (Nat × Partition × Nat) :=
  let ps := (List.range 8).filter (mapValid map)
  if ps = [] then [(0, wholePart, 120000)]
  else ps.map (fun p =>
    let us := field (mapEntry map p) 0xE 2
    (p, entryPart (mapEntry map p), 1200 * if us = 0 then 100 else us))
def partsOk (map : List Byte) (retired : List Nat) : Bool :=
  let ps := mapParts map
  let valid := (List.range 8).any (mapValid map)
  !valid || ps.all (fun p => p.2.1.stands retired && ps.all (fun q => p.1 == q.1 || !p.2.1.overlaps q.2.1))
/-- Vector cores that are out of service for another reason than their lanes, those of a retired cluster among them (R11). -/
def retiredCores (retired : List Nat) : List Nat :=
  retired.flatMap (fun r => if r < 384 then [r] else if 400 ≤ r && r < 496 then (List.range 4).map (fun l => 4 * (r - 400) + l) else [])
/-- The physical lanes of a core, of its 34, that bring-up found faulty (R11). -/
def faultyLanes (faulty : List (Nat × Nat)) (core : Nat) : List Nat :=
  sortBy (fun x y => decide (x < y)) (((faulty.filter (fun p => p.1 == core && decide (p.2 < 34))).map Prod.snd).eraseDups)
/-- The spares of a core, lanes 32 and 33, that serve for its faulty lanes; none where there are more than two (R11). -/
def laneRepair (lanes : List Nat) : Option (Tab Nat) :=
  if 2 < lanes.length then none
  else some ((lanes.filter (fun l => decide (l < 32))).zip ([32, 33].filter (fun l => !lanes.contains l)))
/-- The physical lane that serves an architectural position of a core (R11). -/
def Core.physLane (k : Core) (i : Nat) : Nat := tabGet k.spares (i % 32) (i % 32)
/-- Lane repair of a core; one that cannot be mended is retired (R11). -/
def State.repairLanes (s : State) (faulty : List (Nat × Nat)) (core : Nat) : State :=
  match laneRepair (faultyLanes faulty core) with
  | some m => s.modCore core (fun k => { k with spares := m })
  | none => s.modCore core (fun k => { k with fenced := true })
/-- LANEMAP (R11, R302, R318, R329, R405): lane repair, the units that are out of service, then the partitions. Log 98 (DEDUCED). -/
def execLanemap (r : LaneReport) (s : State) : Host.Outcome State Fault Refusal :=
  let retired := r.retired
  let faulty := r.faulty
  if s.mgmt.state != 2 || s.mgmt.reason != 0 then .next s
  else
    let s := s.setBoot 3
    let s := (((faulty.map Prod.fst).filter (fun c => decide (c < 384))).eraseDups).foldl (fun s c => s.repairLanes faulty c) s
    let s := (retiredCores retired).foldl (fun s c => s.modCore c (fun k => { k with fenced := true })) s
    let s := (retired.filter (fun r => decide (400 ≤ r) && decide (r < 496))).foldl (fun s r =>
      s.modCluster (r - 400) (fun k => { k with fenced := true })) s
    if !partsOk s.mgmt.map retired then .next (s.bootFail 5 (unitWord 13 0))
    else
      let ps := mapParts s.mgmt.map
      .next { s with
        fabric := { s.fabric with mkey := BitVec.ofNat 16 (field s.mgmt.map 0 2) }
        mgmt := { s.mgmt with
          state := 4
          parts := ps.map (fun p => (p.1, p.2.1))
          grace := ps.map (fun p => (p.1, p.2.2)) } }
/-- DEVICE_RESET (R7, R329, R357): the state after reset; what the nonvolatile store, the firmware slot, main memory and the
management controller's own ring hold stays. Log 97 (DEDUCED). -/
def execDeviceReset (s : State) : Host.Outcome State Fault Refusal :=
  let r := State.reset
  .next { r with
    mem := s.mem.filter (fun c => c.1 < 0x400000000000)
    free := s.free
    mgmt := { r.mgmt with
      firmware := s.mgmt.firmware
      map := s.mgmt.map
      rings := match tabFind s.mgmt.rings ringMgmt with
        | some x => [(ringMgmt, x)]
        | none => [] } }
/-- FIRMWARE_UPDATE: the one slot (R330, R405). -/
def execFirmwareUpdate (image : List (BitVec 8)) (s : State) : Host.Outcome State Fault Refusal :=
  .next { s with mgmt := { s.mgmt with firmware := image } }
/-- PARTITION_MAP_WRITE: read at the next LANEMAP (R318). -/
def execPartitionMapWrite (image : List (BitVec 8)) (s : State) : Host.Outcome State Fault Refusal :=
  .next { s with mgmt := { s.mgmt with map := image } }

end Sys2Proof.Machine
end

