-- ==== Sys2Proof/Machine/Stacks.lean ====
section
/-!
DEFINITION. The picker (spec/18_scheduling.md R267 to R269), the stack controller (spec/04_stacks.md R58 to R70;
spec/29_errors_execution.md R369), and the steps of the slot accounts (spec/19_accounting.md R276, R277, R284; spec/20_vm.md
R301).
-/

namespace Sys2Proof.Machine

/-! ### The picker -/

/-- Agents of a unit that take part in a clk: groups from the clk after their placement on (R265). -/
def State.onUnit (s : State) (u : Nat) : List Agent :=
  if u < 384 then
    ((s.groupsOn u).filter (fun p => decide (p.2.from_ ≤ s.clk))).flatMap (fun p => p.2.splits.map (fun q => Agent.split p.1 q.1))
  else [Agent.thread (2 * (u - 384)), Agent.thread (2 * (u - 384) + 1)].filter s.alive
/-- The age of an agent (R266). -/
def State.age (s : State) (a : Agent) : Nat := s.clk - (s.strand a).last
/-- The effective priority of an agent's launch (R261). -/
def State.prioOf (s : State) (a : Agent) : Nat :=
  match s.wgOf a with
  | some w => (s.launch (s.wg w).launch).prio
  | none => 0
/-- Lower group slot, then lower split number, in a number. -/
def Agent.rank : Agent → Nat
  | .split g k => 4 * g + k
  | .thread t => t
/-- The order of R267 on a vector core. -/
def State.splitBefore (s : State) (throttled : Bool) (a b : Agent) : Bool :=
  let pa := decide (64 ≤ s.age a)
  let pb := decide (64 ≤ s.age b)
  let older := decide (s.age b < s.age a) || (s.age a == s.age b && decide (a.rank < b.rank))
  if pa != pb then pa
  else if pa then older
  else if s.prioOf a != s.prioOf b then decide (s.prioOf b < s.prioOf a)
  else if throttled && (s.strand a).adds != (s.strand b).adds then decide ((s.strand a).adds < (s.strand b).adds)
  else older
/-- The agents of a unit as R267 ranks them, ready or not; on a control core, the thread of the turn bit first (R269). -/
def State.ranked (s : State) (u : Nat) : List Agent :=
  if u < 384 then sortBy (s.splitBefore (s.core u).throttled) (s.onUnit u)
  else
    let c := u - 384
    let t := if (s.cluster c).turn then 1 else 0
    [Agent.thread (2 * c + t), Agent.thread (2 * c + 1 - t)].filter s.alive
/-- Ready in this clk, as last seen (R266). -/
def State.ready (s : State) (a : Agent) : Bool := (s.strand a).why == .issue
/-- A throttled core withholds the clk after each issue (R63). Log 103 (DEDUCED). -/
def State.withheld (s : State) (u : Nat) : Bool :=
  decide (u < 384) && (s.core u).throttled && match (s.core u).lastIssue with
    | some t => t + 1 == s.clk
    | none => false
/-- The picker's choice: the first of the ready agents tries (R267, R269). -/
def State.pickOn (s : State) (u : Nat) : State :=
  match (s.ranked u).find? s.ready with
  | some a => if s.withheld u then s else { s with turn := .run a :: s.turn }
  | none => s
/-- The draw that a layer's counts hold. -/
def State.layerDraw (s : State) (u : Nat) : Nat :=
  if u < 384 then (s.core u).draw + (s.core u).drawNext + (s.core u).burned else 0
/-- What a look leaves (R266): when the agent would issue, it is ready and nothing else has happened; otherwise what it did
while it waited stands. -/
def State.noteLook (s : State) (a : Agent) (t : State) : State :=
  if (t.unit a.unit).issued then
    s.modStrand a (fun x => { x with why := .issue, adds := t.layerDraw a.unit - s.layerDraw a.unit })
  else t

/-! ### Draw windows -/

/-- The record of a STACK trap (R369). -/
def State.stackRecord (s : State) (a : Agent) : State :=
  s.report 1 1 a.unitWord (s.ctxOf a) (s.strand a).pc.toNat 0 1 0x09 (s.joined a)

/-- M as 16 bits of two's complement in MIS (R62). -/
def misWord (thr shn : Bool) (mean d : Nat) (m : Int) : Word :=
  (0 : BitVec 14) ++ (if thr then 1#1 else 0#1) ++ (if shn then 1#1 else 0#1) ++ BitVec.ofNat 16 mean ++ BitVec.ofNat 16 d ++
    BitVec.ofInt 16 m

/-- One layer of a window: its count before shunts and its grant. -/
structure LayerDraw where
  raw   : Nat
  shunt : Nat

/-- D of a layer under the mean of the raw counts (R62). -/
def LayerDraw.d (l : LayerDraw) (mean0 : Nat) : Nat :=
  if mean0 < l.raw then l.raw - l.shunt else if l.raw < mean0 then l.raw + l.shunt else l.raw
/-- A granted SHUNT changed D (R62). -/
def LayerDraw.changed (l : LayerDraw) (mean0 : Nat) : Bool := l.d mean0 != l.raw
/-- The mean of the four layers' values. -/
def meanOf (xs : List Nat) : Nat := xs.sum / 4
/-- The counts of the four layers at the end of a window; P is the mean of the previous one (R62, R70). -/
def State.layers (s : State) (c : Nat) : List LayerDraw :=
  (List.range 4).map (fun l =>
    let k := s.core (4 * c + l)
    let raw := k.draw + k.burned + k.autobal
    { raw := if k.keeping.isSome then Nat.max raw (s.cluster c).mean else raw, shunt := k.shunt })
/-- The four D of a window (R62). -/
def windowD (ls : List LayerDraw) : List Nat := ls.map (fun l => l.d (meanOf (ls.map LayerDraw.raw)))
/-- M of a layer (R62). -/
def windowM (ls : List LayerDraw) (l : Nat) : Int := ((windowD ls).getD l 0 : Int) - (meanOf (windowD ls) : Int)
/-- The layer of the largest M, the lower one of equals (R64). -/
def worstLayer (ls : List LayerDraw) : Nat :=
  [1, 2, 3].foldl (fun best l => if windowM ls best < windowM ls l then l else best) 0

/-- The split of a core that drew most in the window: one that is there, or one that has left (R64, R369). -/
def State.mostDraw (s : State) (core : Nat) : Option (Agent ⊕ Ended) :=
  let here := (s.groupsOn core).flatMap (fun p => p.2.splits.map (fun q =>
    (((Sum.inl (Agent.split p.1 q.1) : Agent ⊕ Ended)), q.2.draw, p.1 % 32, q.1)))
  let gone := (s.core core).ended.map (fun x => ((Sum.inr x : Agent ⊕ Ended), x.draw, x.slot, x.split))
  let lower := fun (x y : (Agent ⊕ Ended) × Nat × Nat × Nat) => decide (x.2.2.1 < y.2.2.1) || (x.2.2.1 == y.2.2.1 && decide (x.2.2.2 < y.2.2.2))
  (sortBy (fun x y => decide (y.2.1 < x.2.1) || (x.2.1 == y.2.1 && lower x y)) ((here ++ gone).filter (fun x => x.2.1 != 0))).head?.map
    (·.1)
/-- The STACK trap of a window given to its split, or only recorded (R64, R369). Log 110 (DEDUCED). -/
def State.stackDue (s : State) (core : Nat) (m : Int) : State :=
  match s.mostDraw core with
  | none => s
  | some (.inr x) => s.report 1 1 (unitWord 0 core) (x.vi, x.asid) x.pc.toNat 0 1 0x09 x.name
  | some (.inl a) =>
    let x := s.strand a
    let waiting := (s.groupsOn core).any (fun p => p.2.splits.any (fun q => q.2.strand.traps.any (fun t => t.1 == 0x09)))
    if x.handler || waiting || x.traps != [] || x.queued then s.stackRecord a
    else s.modStrand a (fun x => { x with traps := x.traps ++ [(0x09, BitVec.ofInt 64 m)] })

/-- WINDOW_EVALUATION (R58, R62 to R65, R69, R369): the counts of the window that has ended govern the next. -/
def execWindowEvaluation (c : Nat) (s : State) : Host.Outcome State Fault Refusal :=
  let k := s.cluster c
  let ls := s.layers c
  let ds := windowD ls
  let thThrottle : Int := bits k.stkcfg.toNat 0 16
  let thTrap : Int := bits k.stkcfg.toNat 16 16
  let worst := worstLayer ls
  let m := windowM ls worst
  let s := if thTrap < m then s.stackDue (4 * c + worst) m else s
  let layer := fun (s : State) (l : Nat) =>
    let thr := decide (thThrottle < windowM ls l) || (s.core (4 * c + l)).power != 0
    let shn := match ls[l]? with
      | some x => x.changed (meanOf (ls.map LayerDraw.raw))
      | none => false
    let s := s.modCore (4 * c + l) (fun x => { x with
      mis := misWord thr shn (meanOf ds) (ds.getD l 0) (windowM ls l)
      throttled := thr
      power := x.power - 1
      draw := x.drawNext
      drawNext := 0
      burned := 0
      autobal := 0
      shunt := 0
      ended := (x.ended.filter (fun e => e.next != 0)).map (fun e => { e with draw := e.next, next := 0 }) })
    { s with groups := tabMap s.groups (fun g x => if g / 32 = 4 * c + l then
        { x with splits := tabMap x.splits (fun _ y => { y with draw := y.drawNext, drawNext := 0 }) } else x) }
  let s := (List.range 4).foldl layer s
  .next (s.modCluster c (fun x => { x with mean := meanOf ds, granted := 0, budget := bits x.stkcfg.toNat 48 16 }))

/-- KEEPING_END (R70). -/
def execKeepingEnd (core : Nat) (s : State) : Host.Outcome State Fault Refusal :=
  .next (match (s.core core).keeping with
    | some t => if t + 4096 ≤ s.clk then s.modCore core (fun k => { k with keeping := none }) else s
    | none => s)

/-! ### Samples and drains -/

/-- log2 of the sampling period of a context; 0 is off, and so are the reserved values (R277). Log 104 (DEDUCED). -/
def State.speriod (s : State) (vi : BitVec 8) (asid : BitVec 16) : Nat :=
  match s.ringAt (ringCtx vi asid) with
  | none => 0
  | some r => match r.read s (r.base + 0x14) 1 with
    | some (_, p) => if p % 32 < 10 then 0 else p % 32
    | none => 0

/-- SAMPLE (R284, R285): the charge of the clk that has ended, when it went to a context whose period falls on it. The record has no
field for the class that R124 gives a RET and a JR, and holds none. Log 133 (DEDUCED). -/
def execSample (u : Nat) (s : State) : Host.Outcome State Fault Refusal :=
  match (s.unit u).charged with
  | none => .next s
  | some x =>
    let p := s.speriod x.vi x.asid
    if (x.vi, x.asid) = (0, 0) || p = 0 || (s.clk - 1) % 2 ^ p != 0 || s.eventOff x.vi x.asid 17 then .next s
    else
      .next ((s.countEvent x.vi x.asid 17 1).enqueue (ringCtx x.vi x.asid) ([5#8] ++ toBytes x.cause.code 1 ++ toBytes 0 6 ++
        toBytes (5 * (s.clk - 1) / 6) 8 ++ toBytes x.pc.toNat 8 ++ toBytes 0 8 ++ s.guestName x.vi x.name))

/-- LIMIT_DRAIN (R277): a counter of a bank has reached 2^20. -/
def execLimitDrain (u bank : Nat) (s : State) : Host.Outcome State Fault Refusal :=
  .next (if (tabGet (s.unit u).banks bank Bank.blank).cur.any (fun x => decide (2 ^ 20 ≤ x.2)) then s.drainCounters u bank 3 else s)
/-- TABLE_DRAIN (R276, R277): the copy of a PC table is written. -/
def execTableDrain (u : Nat) (s : State) : Host.Outcome State Fault Refusal := .next (s.drainTable u)
/-- RING_HEAD_ADVANCE (R263, R277, R281, R355): software has consumed records of a context's ring; held ones enter it, and a launch
that waited for its last ones ends. -/
def execRingHeadAdvance (vi : BitVec 8) (asid : BitVec 16) (s : State) : Host.Outcome State Fault Refusal :=
  .next (s.flushRing (ringCtx vi asid)).endHeld
/-- BANDWIDTH_WINDOW (R301): the bytes of the window are forgotten, and requests held at a ceiling may go on.
Log 102 (DEDUCED). -/
def execBandwidthWindow (die : Fin 4) (s : State) : Host.Outcome State Fault Refusal :=
  .next (s.modDie die.val (fun d => { d with band := [] }))

end Sys2Proof.Machine
end

