-- ==== Sys2Proof/Machine/Clk.lean ====
section
/-!
DEFINITION. The end of a clk: the charges of the units that issued nothing (spec/19_accounting.md R271 to R276), the stall
counts of groups (R280), balanced waiting (spec/04_stacks.md R69), the waits that end with a clk (spec/13_isa_engines.md R194,
R203, R205; spec/15_isa_system.md R231, R235), and what the next clk begins with.
-/

namespace Sys2Proof.Machine

/-- The first agent of a list that would issue, or the first of all. -/
def State.firstReady (s : State) (as_ : List Agent) : Option Agent := (as_.find? s.ready).or as_.head?

/-- The charge of a unit that issued nothing (R63, R272 to R274). -/
def State.chargeIdle (s : State) (u : Nat) : State :=
  let as_ := s.ranked u
  if (s.unit u).issued then s
  else if s.discarding u then
    match (s.core u).discard with
    | some (_, w) => s.charge u (s.wg w).vi (s.wg w).asid (s.wg w).resume .restart none (some w)
    | none => s
  else
    let stack := s.withheld u && as_.any s.ready
    match if stack then s.firstReady as_ else as_.head? with
    | none => s.charge u 0 0 0 .empty none none
    | some a => s.charge u (s.ctxOf a).1 (s.ctxOf a).2 (s.strand a).pc (if stack then .stack else (s.strand a).why) (some a) (s.wgOf a)

/-- The group that issued on a unit in this clk, and the cause that its slot was charged to. -/
def State.issuer (s : State) (u : Nat) : Option (Nat × Cause) :=
  if (s.unit u).issued then
    match (s.unit u).charged with
    | some x => match x.agent with
      | some (.split g _) => some (g, x.cause)
      | _ => none
    | none => none
  else none
/-- What rises in a group's stall bank in a clk (R280): for its own slot, a cause other than ISSUE, so that a lone group's counts
are its bank's. Log 58 (DEDUCED). -/
def State.stallOf (s : State) (g : Nat) : Option Cause :=
  let u := g / 32
  let own := (s.ranked u).filter (fun a => match a with
    | .split h _ => h == g
    | .thread _ => false)
  let other := if own.any s.ready then some (if s.withheld u then .stack else .issue)
    else own.head?.map (fun a => (s.strand a).why)
  if (s.group g).from_ > s.clk then none
  else if s.discarding u then some .restart
  else match s.issuer u with
    | some (h, c) => if h = g then (if c = .issue then none else some c) else other
    | none => other
def State.stalls (s : State) : State :=
  (s.groups.map Prod.fst).foldl (fun t g => match s.stallOf g with
    | some c => t.stallUp g c
    | none => t) s

/-- Balanced waiting on a core in a clk without issue (R69). Log 111 (DEDUCED). -/
def State.balance (s : State) (u : Nat) : State :=
  let k := s.core u
  let d := k.draw + k.burned + k.autobal
  let p := (s.cluster (u / 4)).mean
  let waits := (s.groupsOn u).any (fun x => decide (x.2.from_ ≤ s.clk) && recAutobal (s.record x.2.wg))
  if k.unit.issued || !waits || p ≤ d then s
  else s.modCore u (fun k => { k with autobal := k.autobal + Nat.min 8 (p - d) })

/-- Drains that the charges of this clk call for, made in it (R277). -/
def State.runDrains (s : State) : State :=
  s.due.foldl (fun (t : State) i => match i with
    | .limitDrain u b => t.drainCounters u b 3
    | .tableDrain u => t.drainTable u
    | j => t.soon j) { s with due := [] }

/-- The context engine moves the tiles once nothing is queued or runs on them (R175, R187). -/
def State.pollOwner (s : State) (a : Agent) : State :=
  if s.engineMoves a.threadNo && s.tilesInUse a.threadNo then s
  else ((s.engineOwner a.threadNo).modStrand a (fun x => { x with wait := some (.owner (some (s.clk + 1 + s.delay))) })).spend
/-- A wait at the end of a clk: the agents whose waits have ended go on in the next one. A thread that the context engine has stopped
ends only the move of a tile that it has begun (R309). -/
def State.pollAgent (s : State) (a : Agent) : State :=
  match (s.strand a).wait with
  | some (.acc at_) => if at_ ≤ s.clk + 1 then s.endWait a else s
  | w =>
    if s.halted a then s
    else match w with
      | some (.counter va v st _ d popped) => s.pollCounter a va v st d popped
      | some (.node n d) => s.pollNode a n d
      | some .region =>
        match s.wgOf a with
        | some w => if (s.wg w).arrived = [] && !((s.wg w).preempt && (s.wg w).buffers) then s.endWait a else s
        | none => s
      | some (.fence m scope) =>
        let s := s.fenceWork a m scope
        if s.fenceReady a m scope then (s.fenceEnd a m).endWait a else s
      | some (.answer at_ out) => if at_ ≤ s.clk + 1 then s.takeAnswer a out else s
      | some (.owner none) => s.pollOwner a
      | some (.owner (some at_)) => if at_ ≤ s.clk + 1 then s.modStrand a (fun x => { x with wait := none }) else s
      | _ => s

/-- Units that the state holds. -/
def State.units (s : State) : List Nat := s.cores.map Prod.fst ++ s.clusters.map (fun (p : Nat × Cluster) => 384 + p.1)
/-- Every core and cluster written out, so that the limit of R277 finds each bank of the device's own context. -/
def State.allUnits (s : State) : State :=
  (List.range 96).foldl (fun s c => s.modCluster c id) ((List.range 384).foldl (fun s c => s.modCore c id) s)

/-- The clk as it ends: charges, stall counts, burns, drains, what follows a release, waits, records, flits. -/
def State.endClk (s : State) : State :=
  let s := if (s.clk + 1) % 2 ^ 20 = 0 then s.allUnits else s
  let s := s.units.foldl State.chargeIdle s
  let s := s.stalls
  let s := (s.cores.map Prod.fst).foldl State.balance s
  let s := s.runDrains
  let s := s.runAfters
  let s := s.testBars
  let s := s.agents.foldl State.pollAgent s
  let s := (s.threads.map Prod.fst).foldl State.pollSpill s
  let s := s.reportFrames
  let s : State := { s with mgmt := { s.mgmt with found := [] } }
  s.flushRings.endHeld.pumpPorts

/-- The place of a step among those of its clk: doorbells in order of interface and queue (R260), nodes that fire in order of
cluster and number (R205), passes of sequencers in order of their threads (R269). -/
def dueKey : Instr → Nat
  | .dbell _ _ pa _ => match apertureOf pa.toNat with
    | .doorbell vi off => 1 + 0x10000 * vi.toNat + off
    | _ => 0
  | .nodeFire c n => 2 ^ 25 + 1024 * c + n
  | .sequencerEnqueue t => 2 ^ 26 + t
  | _ => 0
/-- The steps that the agenda holds for this clk. Log 118 (DESIGN CHOICE). -/
def State.agendaNow (s : State) : List Instr :=
  sortBy (fun x y => decide (dueKey x < dueKey y)) ((s.agenda.filter (fun p => decide (p.1 ≤ s.clk))).map Prod.snd)
/-- The steps that begin a clk. -/
def State.clkSteps (s : State) : List Instr :=
  (if s.clk % 1024 = 1 then s.units.filterMap (fun u => match (s.unit u).charged with
    | some x => if (x.vi, x.asid) = (0, 0) then none else some (Instr.sample u)
    | none => none) else []) ++
  (if s.clk % 64 = 0 then (((s.cores.map (fun (p : Nat × Core) => p.1 / 4)) ++ s.clusters.map Prod.fst).eraseDups).map Instr.windowEvaluation
    else []) ++
  (if s.clk % 1200 = 0 then (List.finRange 4).map Instr.bandwidthWindow else []) ++
  s.agendaNow ++
  (if s.clk % 1024 = 0 then [.eligibilityCheck] else []) ++
  (s.clusters.filter (fun (p : Nat × Cluster) => p.2.mq.any (fun q => !q.2.isEmpty))).map (fun (p : Nat × Cluster) => Instr.matrixAdmit p.1) ++
  (if s.order.isEmpty then [] else (List.finRange 4).map (fun d => Instr.placementDecision ⟨d, none⟩))
/-- What a unit's agents do in a clk: one of them tries at once; of several, each looks whether it is ready, and one is chosen
(R266, R267, R269). -/
def State.turnOf (s : State) (u : Nat) : List Turn :=
  match s.onUnit u with
  | [] => []
  | [a] => if s.withheld u then [.look a, .pick u] else [.run a]
  | as_ => as_.map Turn.look ++ [.pick u]
/-- The units with agents, in order. -/
def State.busyUnits (s : State) : List Nat := (s.agents.map Agent.unit).eraseDups

/-- Discards of pending pre-emptions whose region has just opened (R306), and saves of control contexts whose matrix work has
ended (R309), at the end of a slice those of workgroups whose pre-emption is pending among them (R313). Log 105 (DEDUCED). -/
def State.leaveNow (s : State) : State :=
  let go := (s.wgs.filter (fun p => p.2.preempt && p.2.buffers && p.2.discard.isNone && p.2.arrived.isEmpty)).map Prod.fst
  let s := go.foldl State.discard s
  let saved := fun (s : State) (p : Nat × Thread) => match p.2.wg with
    | none => s.sliceOut p.1
    | some w =>
      let x := s.wg w
      let expired := match x.grace with
        | some at_ => decide (at_ ≤ s.clk)
        | none => false
      if x.discard.isSome || expired || !s.monarch.closed.contains x.vi.toNat then s else s.suspendWg w true
  (s.threads.filter (fun p => p.2.halt && s.saveReady p.1)).foldl saved s

/-- The next clk begins: banks of contexts that a thread has left close in it (R274), and the control cores go before the vector cores,
so that what they enqueue in it is there for a TDRAIN (R175). -/
def State.nextClk (s : State) : State :=
  let s : State := { s with
    clk := s.clk + 1
    cores := tabMap s.cores (fun _ k => { k with unit := { k.unit with issued := false } })
    clusters := tabMap s.clusters (fun _ k => { k with unit := { k.unit with issued := false } }) }
  let s := s.closeLeft.leaveNow
  { s with
    due := s.due ++ s.clkSteps
    agenda := s.agenda.filter (fun p => decide (s.clk < p.1))
    turn := (s.busyUnits.filter (fun u => decide (384 ≤ u)) ++ s.busyUnits.filter (fun u => decide (u < 384))).flatMap s.turnOf }

/-- CLK (R7, R272). -/
def execClk (s : State) : Host.Outcome State Fault Refusal := .next s.endClk.nextClk

end Sys2Proof.Machine
end

