-- ==== Sys2Proof/Machine/Vector.lean ====
section
/-!
DEFINITION. Vector arithmetic (spec/09_isa_vector.md R131 to R142) and the compact forms (spec/06_encoding.md R94).
-/

namespace Sys2Proof.Machine

/-- What the common body of R131 needs: vector sources and destination below the declared count, the prefix's mask, a pipe. -/
def vecNeed (p : Option Prefix) (vs : List Nat) (d : VReg) (pipe lat : Nat) (draw : Draw) : Need :=
  { vsrc := vs, vdst := [d.toNat], kpfx := pfxK p, lim := d.toNat :: vs, ctl := false, pipe := some pipe, lat := lat,
    draw := draw, len := lenP p }

/-- A floating operation of VFP and VFPS on one element (R134). -/
inductive FOp where
  | add | sub | mul | min | max | abs | neg | cpysgn
deriving DecidableEq, Repr
/-- The result and the flags of one of these on an element (R134). Log 25 (DEDUCED). -/
def fop (f : FFmt) (op : FOp) (rm : Rnd) (ftz : Bool) (x y : Nat) : Nat × FFlags :=
  let a := f.val ftz x
  let b := f.val ftz y
  let sx := x.testBit (f.ebits + f.fbits)
  let sy := y.testBit (f.ebits + f.fbits)
  match op with
  | .add => f.addV rm ftz a b
  | .sub => f.addV rm ftz a (negV b)
  | .mul => f.mulV rm ftz a b
  | .min => f.minmaxV false a b
  | .max => f.minmaxV true a b
  | .abs => f.signV a false
  | .neg => f.signV a (!sx)
  | .cpysgn => if isNan a then (f.nan, sigFlag [a, b]) else f.signV a sy
/-- The four fused operations (R135). -/
inductive FmaOp where
  | fma | fms | nfma | nfms
deriving DecidableEq, Repr
def fmaop (f : FFmt) (op : FmaOp) (rm : Rnd) (ftz : Bool) (x y w : Nat) : Nat × FFlags :=
  let a := f.val ftz x
  let b := f.val ftz y
  let c := f.val ftz w
  match op with
  | .fma => f.fmaV rm ftz a b c
  | .fms => f.fmaV rm ftz a b (negV c)
  | .nfma => f.fmaV rm ftz (negV a) b (negV c)
  | .nfms => f.fmaV rm ftz (negV a) b c

/-- A function of elements on a lane of a type: the whole lane, or two packed elements (R18). -/
def onLane (t : FType) (f : FFmt → Nat → Nat → Nat → Nat × FFlags) (x y w : Lane) : Lane × FFlags :=
  let half := fun (q : FFmt) =>
    let lo := f q (x.toNat % 65536) (y.toNat % 65536) (w.toNat % 65536)
    let hi := f q (x.toNat / 65536) (y.toNat / 65536) (w.toNat / 65536)
    (BitVec.ofNat 32 (lo.1 + 65536 * hi.1), lo.2 ||| hi.2)
  match t with
  | .f32 => (BitVec.ofNat 32 (f fp32 x.toNat y.toNat w.toNat).1, (f fp32 x.toNat y.toNat w.toNat).2)
  | .bf16x2 => half bf16
  | .f16x2 => half fp16

/-- The common body with operand lists read under their patterns (R131). -/
def vecBody (d : VReg) (p : Option Prefix) (f : Nat → Lane × FFlags) (c : Ctx) (s : State) : Act :=
  .done (s.vwrite c.a d.toNat c.act (pfxZ p) f)

/-- VFP with any second operand (R134, R136). -/
def vfpNeed (d a : VReg) (b : List Nat) (p : Option Prefix) (len : Nat) : Need :=
  { vecNeed p (a.toNat :: b) d 0 6 .vfp with len := len }
def vfpLane (op : FOp) (t : FType) (s : State) (ag : Agent) (p : Option Prefix) (x y : Lane) : Lane × FFlags :=
  onLane t (fun f u v _ => fop f op (modeOf (s.fmt ag) p) (fmtFtz (s.fmt ag)) u v) x y 0
def vfp (op : FOp) (t : FType) (d a b : VReg) (p : Option Prefix) (len : Nat) (s : State) : Host.Outcome State Fault Refusal :=
  issue (vfpNeed d a [b.toNat] p len) (fun c s =>
    let x := s.vsrc c.a.groupNo a.toNat (pfxA p)
    let y := s.vsrc c.a.groupNo b.toNat (pfxB p)
    vecBody d p (fun i => vfpLane op t s c.a p (lane x i) (lane y i)) c s) s
/-- The unary members (R134). -/
def vfp1 (op : FOp) (t : FType) (d a : VReg) (p : Option Prefix) (s : State) : Host.Outcome State Fault Refusal :=
  issue (vfpNeed d a [] p (lenP p)) (fun c s =>
    let x := s.vsrc c.a.groupNo a.toNat (pfxA p)
    vecBody d p (fun i => vfpLane op t s c.a p (lane x i) 0) c s) s
/-- VFPS: the second operand is s[b][31:0] in every lane (R136). -/
def vfpsNeed (d a : VReg) (b : SReg) (p : Option Prefix) : Need := { vecNeed p [a.toNat] d 0 6 .vfp with src := [b.toNat] }
def vfps (op : FOp) (t : FType) (d a : VReg) (b : SReg) (p : Option Prefix) (s : State) : Host.Outcome State Fault Refusal :=
  issue (vfpsNeed d a b p) (fun c s =>
    let x := s.vsrc c.a.groupNo a.toNat (pfxA p)
    let y : Lane := (c.get s b.toNat).setWidth 32
    vecBody d p (fun i => vfpLane op t s c.a p (lane x i) y) c s) s
/-- VFMA: the addend is v[c] under a prefix, else v[d] (R98, R135). -/
def vfmaNeed (d a b : VReg) (p : Option Prefix) : Need := vecNeed p [a.toNat, b.toNat, pfxC p d.toNat] d 0 6 .fma
def vfma (op : FmaOp) (t : FType) (d a b : VReg) (p : Option Prefix) (s : State) : Host.Outcome State Fault Refusal :=
  issue (vfmaNeed d a b p) (fun c s =>
    let x := s.vsrc c.a.groupNo a.toNat (pfxA p)
    let y := s.vsrc c.a.groupNo b.toNat (pfxB p)
    let w := s.vget c.a.groupNo (pfxC p d.toNat)
    let rm := modeOf (s.fmt c.a) p
    let ftz := fmtFtz (s.fmt c.a)
    vecBody d p (fun i => onLane t (fun f u v z => fmaop f op rm ftz u v z) (lane x i) (lane y i) (lane w i)) c s) s

/-- An integer operation on lanes (R137): its function and its latency. -/
def vint (f : Lane → Lane → Lane) (lat : Nat) (d a b : VReg) (p : Option Prefix) (len : Nat) (s : State) :
    Host.Outcome State Fault Refusal :=
  issue ({ vecNeed p [a.toNat, b.toNat] d 1 lat .vint with len := len }) (fun c s =>
    let x := s.vsrc c.a.groupNo a.toNat (pfxA p)
    let y := s.vsrc c.a.groupNo b.toNat (pfxB p)
    .done (s.vmove c.a d.toNat c.act (pfxZ p) (fun i => f (lane x i) (lane y i)))) s
def vint1 (f : Lane → Lane) (d a : VReg) (p : Option Prefix) (s : State) : Host.Outcome State Fault Refusal :=
  issue (vecNeed p [a.toNat] d 1 4 .vint) (fun c s =>
    let x := s.vsrc c.a.groupNo a.toNat (pfxA p)
    .done (s.vmove c.a d.toNat c.act (pfxZ p) (fun i => f (lane x i)))) s
/-- VINTS: the second operand is s[b][31:0] (R138). -/
def vints (f : Lane → Lane → Lane) (lat : Nat) (d a : VReg) (b : SReg) (p : Option Prefix) (s : State) :
    Host.Outcome State Fault Refusal :=
  issue ({ vecNeed p [a.toNat] d 1 lat .vint with src := [b.toNat] }) (fun c s =>
    let x := s.vsrc c.a.groupNo a.toNat (pfxA p)
    let y : Lane := (c.get s b.toNat).setWidth 32
    .done (s.vmove c.a d.toNat c.act (pfxZ p) (fun i => f (lane x i) y))) s
/-- VINTI: the second operand is bits [31:0] of the immediate (R138). -/
def vinti (f : Lane → Lane → Lane) (lat : Nat) (d a : VReg) (i : BitVec 10) (p : Option Prefix) (e : Option (BitVec 25))
    (s : State) : Host.Outcome State Fault Refusal :=
  issue ({ vecNeed p [a.toNat] d 1 lat .vint with len := lenPX p e }) (fun c s =>
    let x := s.vsrc c.a.groupNo a.toNat (pfxA p)
    let y : Lane := (immValue i e).setWidth 32
    .done (s.vmove c.a d.toNat c.act (pfxZ p) (fun j => f (lane x j) y))) s

def mulHiS (x y : Lane) : Lane := BitVec.ofInt 32 (x.toInt * y.toInt / 2 ^ 32)
def mulHiU (x y : Lane) : Lane := BitVec.ofNat 32 (x.toNat * y.toNat / 2 ^ 32)
def minS (x y : Lane) : Lane := if x.slt y then x else y
def maxS (x y : Lane) : Lane := if x.slt y then y else x
def minU (x y : Lane) : Lane := if x < y then x else y
def maxU (x y : Lane) : Lane := if x < y then y else x
def shlL (x y : Lane) : Lane := x <<< (y.toNat % 32)
def shrL (x y : Lane) : Lane := x >>> (y.toNat % 32)
def sraL (x y : Lane) : Lane := x.sshiftRight (y.toNat % 32)
def absL (x : Lane) : Lane := if x.slt 0 then -x else x
/-- Leading zero bits, one bits and the reversal of a lane (R137). -/
def clzL (x : Lane) : Lane := if x = 0 then 32 else BitVec.ofNat 32 (31 - Nat.log2 x.toNat)
def popcL (x : Lane) : Lane := BitVec.ofNat 32 (Machine.popc x)
def brevL (x : Lane) : Lane := (List.range 32).foldl (fun m j => if x.getLsbD j then m ||| (1 : Lane) <<< (31 - j) else m) 0

/-- VCMP: one bit a lane, and flags (R139). -/
def vcmpNeed (d : KReg) (a b : VReg) (p : Option Prefix) (pipe : Nat) (draw : Draw) : Need :=
  { vsrc := [a.toNat, b.toNat], kdst := [d.toNat], kpfx := pfxK p, lim := [a.toNat, b.toNat], ctl := false,
    pipe := some pipe, lat := 4, draw := draw, len := lenP p }
def vcmp (f : State → Agent → Lane → Lane → Bool × FFlags) (pipe : Nat) (draw : Draw) (d : KReg) (a b : VReg)
    (p : Option Prefix) (s : State) : Host.Outcome State Fault Refusal :=
  issue (vcmpNeed d a b p pipe draw) (fun c s =>
    let x := s.vsrc c.a.groupNo a.toNat (pfxA p)
    let y := s.vsrc c.a.groupNo b.toNat (pfxB p)
    let rs := (List.range 96).map (fun i => if c.act.getLsbD i then f s c.a (lane x i) (lane y i) else (false, (0 : FFlags)))
    let m := maskOf (fun i => (rs.getD i (false, 0)).1)
    .done ((s.kwrite c.a.groupNo d.toNat c.act (pfxZ p) m).raiseFlags c.a (rs.foldl (fun m x => m ||| x.2) 0))) s
/-- An integer condition, and a condition on FP32 values (R139). -/
def vcmpI (f : Lane → Lane → Bool) (d : KReg) (a b : VReg) (p : Option Prefix) (s : State) : Host.Outcome State Fault Refusal :=
  vcmp (fun _ _ x y => (f x y, 0)) 1 .vint d a b p s
def vcmpF (f : FVal → FVal → Bool) (d : KReg) (a b : VReg) (p : Option Prefix) (s : State) : Host.Outcome State Fault Refusal :=
  vcmp (fun s ag x y =>
    let u := fp32.val (fmtFtz (s.fmt ag)) x.toNat
    let v := fp32.val (fmtFtz (s.fmt ag)) y.toNat
    (f u v, sigFlag [u, v])) 0 .vfp d a b p s
def unordV (x y : FVal) : Bool := isNan x || isNan y

/-- VSFU (R140, R141). -/
def vsfu (f : Sfu) (d a : VReg) (p : Option Prefix) (s : State) : Host.Outcome State Fault Refusal :=
  issue (vecNeed p [a.toNat] d 1 12 .sfu) (fun c s =>
    let x := s.vsrc c.a.groupNo a.toNat (pfxA p)
    let rm := modeOf (s.fmt c.a) p
    vecBody d p (fun i =>
      let r := sfu f rm (fmtFtz (s.fmt c.a)) (lane x i).toNat
      (BitVec.ofNat 32 r.1, r.2)) c s) s

/-- VFP FADD (R134). -/
def execVfpFadd (t : FType) (d a b : VReg) (p : Option Prefix) (s : State) : Host.Outcome State Fault Refusal :=
  vfp .add t d a b p (lenP p) s
/-- VFP FSUB (R134). -/
def execVfpFsub (t : FType) (d a b : VReg) (p : Option Prefix) (s : State) : Host.Outcome State Fault Refusal :=
  vfp .sub t d a b p (lenP p) s
/-- VFP FMUL (R134). -/
def execVfpFmul (t : FType) (d a b : VReg) (p : Option Prefix) (s : State) : Host.Outcome State Fault Refusal :=
  vfp .mul t d a b p (lenP p) s
/-- VFP FMIN (R134). -/
def execVfpFmin (t : FType) (d a b : VReg) (p : Option Prefix) (s : State) : Host.Outcome State Fault Refusal :=
  vfp .min t d a b p (lenP p) s
/-- VFP FMAX (R134). -/
def execVfpFmax (t : FType) (d a b : VReg) (p : Option Prefix) (s : State) : Host.Outcome State Fault Refusal :=
  vfp .max t d a b p (lenP p) s
/-- VFP FCPYSGN (R134). -/
def execVfpFcpysgn (t : FType) (d a b : VReg) (p : Option Prefix) (s : State) : Host.Outcome State Fault Refusal :=
  vfp .cpysgn t d a b p (lenP p) s
/-- VFP FABS (R134). -/
def execVfpFabs (t : FType) (d a : VReg) (p : Option Prefix) (s : State) : Host.Outcome State Fault Refusal :=
  vfp1 .abs t d a p s
/-- VFP FNEG (R134). -/
def execVfpFneg (t : FType) (d a : VReg) (p : Option Prefix) (s : State) : Host.Outcome State Fault Refusal :=
  vfp1 .neg t d a p s
/-- FMA (R135). -/
def execFma (t : FType) (d a b : VReg) (p : Option Prefix) (s : State) : Host.Outcome State Fault Refusal :=
  vfma .fma t d a b p s
/-- FMS (R135). -/
def execFms (t : FType) (d a b : VReg) (p : Option Prefix) (s : State) : Host.Outcome State Fault Refusal :=
  vfma .fms t d a b p s
/-- NFMA (R135). -/
def execNfma (t : FType) (d a b : VReg) (p : Option Prefix) (s : State) : Host.Outcome State Fault Refusal :=
  vfma .nfma t d a b p s
/-- NFMS (R135). -/
def execNfms (t : FType) (d a b : VReg) (p : Option Prefix) (s : State) : Host.Outcome State Fault Refusal :=
  vfma .nfms t d a b p s
/-- VFPS FADD (R136). -/
def execVfpsFadd (t : FType) (d a : VReg) (b : SReg) (p : Option Prefix) (s : State) : Host.Outcome State Fault Refusal :=
  vfps .add t d a b p s
/-- VFPS FSUB (R136). -/
def execVfpsFsub (t : FType) (d a : VReg) (b : SReg) (p : Option Prefix) (s : State) : Host.Outcome State Fault Refusal :=
  vfps .sub t d a b p s
/-- VFPS FMUL (R136). -/
def execVfpsFmul (t : FType) (d a : VReg) (b : SReg) (p : Option Prefix) (s : State) : Host.Outcome State Fault Refusal :=
  vfps .mul t d a b p s
/-- VFPS FMIN (R136). -/
def execVfpsFmin (t : FType) (d a : VReg) (b : SReg) (p : Option Prefix) (s : State) : Host.Outcome State Fault Refusal :=
  vfps .min t d a b p s
/-- VFPS FMAX (R136). -/
def execVfpsFmax (t : FType) (d a : VReg) (b : SReg) (p : Option Prefix) (s : State) : Host.Outcome State Fault Refusal :=
  vfps .max t d a b p s
/-- VFPS FCPYSGN (R136). -/
def execVfpsFcpysgn (t : FType) (d a : VReg) (b : SReg) (p : Option Prefix) (s : State) : Host.Outcome State Fault Refusal :=
  vfps .cpysgn t d a b p s
/-- VINT ADD (R137). -/
def execVintAdd (d a b : VReg) (p : Option Prefix) (s : State) : Host.Outcome State Fault Refusal :=
  vint (fun x y => x + y) 4 d a b p (lenP p) s
/-- VINT SUB (R137). -/
def execVintSub (d a b : VReg) (p : Option Prefix) (s : State) : Host.Outcome State Fault Refusal :=
  vint (fun x y => x - y) 4 d a b p (lenP p) s
/-- VINT MULLO (R137). -/
def execVintMullo (d a b : VReg) (p : Option Prefix) (s : State) : Host.Outcome State Fault Refusal :=
  vint (fun x y => x * y) 6 d a b p (lenP p) s
/-- VINT MULHIS (R137). -/
def execVintMulhiS (d a b : VReg) (p : Option Prefix) (s : State) : Host.Outcome State Fault Refusal :=
  vint mulHiS 6 d a b p (lenP p) s
/-- VINT MULHIU (R137). -/
def execVintMulhiU (d a b : VReg) (p : Option Prefix) (s : State) : Host.Outcome State Fault Refusal :=
  vint mulHiU 6 d a b p (lenP p) s
/-- VINT AND (R137). -/
def execVintAnd (d a b : VReg) (p : Option Prefix) (s : State) : Host.Outcome State Fault Refusal :=
  vint (fun x y => x &&& y) 4 d a b p (lenP p) s
/-- VINT OR (R137). -/
def execVintOr (d a b : VReg) (p : Option Prefix) (s : State) : Host.Outcome State Fault Refusal :=
  vint (fun x y => x ||| y) 4 d a b p (lenP p) s
/-- VINT XOR (R137). -/
def execVintXor (d a b : VReg) (p : Option Prefix) (s : State) : Host.Outcome State Fault Refusal :=
  vint (fun x y => x ^^^ y) 4 d a b p (lenP p) s
/-- VINT ANDN (R137). -/
def execVintAndn (d a b : VReg) (p : Option Prefix) (s : State) : Host.Outcome State Fault Refusal :=
  vint (fun x y => x &&& ~~~y) 4 d a b p (lenP p) s
/-- VINT SHL (R137). -/
def execVintShl (d a b : VReg) (p : Option Prefix) (s : State) : Host.Outcome State Fault Refusal :=
  vint shlL 4 d a b p (lenP p) s
/-- VINT SHR (R137). -/
def execVintShr (d a b : VReg) (p : Option Prefix) (s : State) : Host.Outcome State Fault Refusal :=
  vint shrL 4 d a b p (lenP p) s
/-- VINT SRA (R137). -/
def execVintSra (d a b : VReg) (p : Option Prefix) (s : State) : Host.Outcome State Fault Refusal :=
  vint sraL 4 d a b p (lenP p) s
/-- VINT MINS (R137). -/
def execVintMinS (d a b : VReg) (p : Option Prefix) (s : State) : Host.Outcome State Fault Refusal :=
  vint minS 4 d a b p (lenP p) s
/-- VINT MAXS (R137). -/
def execVintMaxS (d a b : VReg) (p : Option Prefix) (s : State) : Host.Outcome State Fault Refusal :=
  vint maxS 4 d a b p (lenP p) s
/-- VINT MINU (R137). -/
def execVintMinU (d a b : VReg) (p : Option Prefix) (s : State) : Host.Outcome State Fault Refusal :=
  vint minU 4 d a b p (lenP p) s
/-- VINT MAXU (R137). -/
def execVintMaxU (d a b : VReg) (p : Option Prefix) (s : State) : Host.Outcome State Fault Refusal :=
  vint maxU 4 d a b p (lenP p) s
/-- VINT ABS (R137). -/
def execVintAbs (d a : VReg) (p : Option Prefix) (s : State) : Host.Outcome State Fault Refusal := vint1 absL d a p s
/-- VINT CLZ (R137). -/
def execVintClz (d a : VReg) (p : Option Prefix) (s : State) : Host.Outcome State Fault Refusal := vint1 clzL d a p s
/-- VINT POPC (R137). -/
def execVintPopc (d a : VReg) (p : Option Prefix) (s : State) : Host.Outcome State Fault Refusal := vint1 popcL d a p s
/-- VINT BREV (R137). -/
def execVintBrev (d a : VReg) (p : Option Prefix) (s : State) : Host.Outcome State Fault Refusal := vint1 brevL d a p s
/-- VINTS ADD (R138). -/
def execVintsAdd (d a : VReg) (b : SReg) (p : Option Prefix) (s : State) : Host.Outcome State Fault Refusal :=
  vints (fun x y => x + y) 4 d a b p s
/-- VINTS SUB (R138). -/
def execVintsSub (d a : VReg) (b : SReg) (p : Option Prefix) (s : State) : Host.Outcome State Fault Refusal :=
  vints (fun x y => x - y) 4 d a b p s
/-- VINTS MULLO (R138). -/
def execVintsMullo (d a : VReg) (b : SReg) (p : Option Prefix) (s : State) : Host.Outcome State Fault Refusal :=
  vints (fun x y => x * y) 6 d a b p s
/-- VINTS MULHIS (R138). -/
def execVintsMulhiS (d a : VReg) (b : SReg) (p : Option Prefix) (s : State) : Host.Outcome State Fault Refusal :=
  vints mulHiS 6 d a b p s
/-- VINTS MULHIU (R138). -/
def execVintsMulhiU (d a : VReg) (b : SReg) (p : Option Prefix) (s : State) : Host.Outcome State Fault Refusal :=
  vints mulHiU 6 d a b p s
/-- VINTS AND (R138). -/
def execVintsAnd (d a : VReg) (b : SReg) (p : Option Prefix) (s : State) : Host.Outcome State Fault Refusal :=
  vints (fun x y => x &&& y) 4 d a b p s
/-- VINTS OR (R138). -/
def execVintsOr (d a : VReg) (b : SReg) (p : Option Prefix) (s : State) : Host.Outcome State Fault Refusal :=
  vints (fun x y => x ||| y) 4 d a b p s
/-- VINTS XOR (R138). -/
def execVintsXor (d a : VReg) (b : SReg) (p : Option Prefix) (s : State) : Host.Outcome State Fault Refusal :=
  vints (fun x y => x ^^^ y) 4 d a b p s
/-- VINTS ANDN (R138). -/
def execVintsAndn (d a : VReg) (b : SReg) (p : Option Prefix) (s : State) : Host.Outcome State Fault Refusal :=
  vints (fun x y => x &&& ~~~y) 4 d a b p s
/-- VINTS SHL (R138). -/
def execVintsShl (d a : VReg) (b : SReg) (p : Option Prefix) (s : State) : Host.Outcome State Fault Refusal :=
  vints shlL 4 d a b p s
/-- VINTS SHR (R138). -/
def execVintsShr (d a : VReg) (b : SReg) (p : Option Prefix) (s : State) : Host.Outcome State Fault Refusal :=
  vints shrL 4 d a b p s
/-- VINTS SRA (R138). -/
def execVintsSra (d a : VReg) (b : SReg) (p : Option Prefix) (s : State) : Host.Outcome State Fault Refusal :=
  vints sraL 4 d a b p s
/-- VINTS MINS (R138). -/
def execVintsMinS (d a : VReg) (b : SReg) (p : Option Prefix) (s : State) : Host.Outcome State Fault Refusal :=
  vints minS 4 d a b p s
/-- VINTS MAXS (R138). -/
def execVintsMaxS (d a : VReg) (b : SReg) (p : Option Prefix) (s : State) : Host.Outcome State Fault Refusal :=
  vints maxS 4 d a b p s
/-- VINTS MINU (R138). -/
def execVintsMinU (d a : VReg) (b : SReg) (p : Option Prefix) (s : State) : Host.Outcome State Fault Refusal :=
  vints minU 4 d a b p s
/-- VINTS MAXU (R138). -/
def execVintsMaxU (d a : VReg) (b : SReg) (p : Option Prefix) (s : State) : Host.Outcome State Fault Refusal :=
  vints maxU 4 d a b p s
/-- VINTI ADDI (R138). -/
def execVintiAddi (d a : VReg) (i : BitVec 10) (p : Option Prefix) (x : Option (BitVec 25)) (s : State) : Host.Outcome State Fault Refusal :=
  vinti (fun x y => x + y) 4 d a i p x s
/-- VINTI ANDI (R138). -/
def execVintiAndi (d a : VReg) (i : BitVec 10) (p : Option Prefix) (x : Option (BitVec 25)) (s : State) : Host.Outcome State Fault Refusal :=
  vinti (fun x y => x &&& y) 4 d a i p x s
/-- VINTI ORI (R138). -/
def execVintiOri (d a : VReg) (i : BitVec 10) (p : Option Prefix) (x : Option (BitVec 25)) (s : State) : Host.Outcome State Fault Refusal :=
  vinti (fun x y => x ||| y) 4 d a i p x s
/-- VINTI XORI (R138). -/
def execVintiXori (d a : VReg) (i : BitVec 10) (p : Option Prefix) (x : Option (BitVec 25)) (s : State) : Host.Outcome State Fault Refusal :=
  vinti (fun x y => x ^^^ y) 4 d a i p x s
/-- VINTI SHLI (R138). -/
def execVintiShli (d a : VReg) (i : BitVec 10) (p : Option Prefix) (x : Option (BitVec 25)) (s : State) : Host.Outcome State Fault Refusal :=
  vinti shlL 4 d a i p x s
/-- VINTI SHRI (R138). -/
def execVintiShri (d a : VReg) (i : BitVec 10) (p : Option Prefix) (x : Option (BitVec 25)) (s : State) : Host.Outcome State Fault Refusal :=
  vinti shrL 4 d a i p x s
/-- VINTI SRAI (R138). -/
def execVintiSrai (d a : VReg) (i : BitVec 10) (p : Option Prefix) (x : Option (BitVec 25)) (s : State) : Host.Outcome State Fault Refusal :=
  vinti sraL 4 d a i p x s
/-- VINTI MULI (R138). -/
def execVintiMuli (d a : VReg) (i : BitVec 10) (p : Option Prefix) (x : Option (BitVec 25)) (s : State) : Host.Outcome State Fault Refusal :=
  vinti (fun x y => x * y) 6 d a i p x s
/-- VCMP.EQ.S32 (R139). -/
def execVcmpEqS32 (d : KReg) (a b : VReg) (p : Option Prefix) (s : State) : Host.Outcome State Fault Refusal :=
  vcmpI (fun x y => x == y) d a b p s
/-- VCMP.NE.S32 (R139). -/
def execVcmpNeS32 (d : KReg) (a b : VReg) (p : Option Prefix) (s : State) : Host.Outcome State Fault Refusal :=
  vcmpI (fun x y => x != y) d a b p s
/-- VCMP.LT.S32 (R139). -/
def execVcmpLtS32 (d : KReg) (a b : VReg) (p : Option Prefix) (s : State) : Host.Outcome State Fault Refusal :=
  vcmpI (fun x y => x.slt y) d a b p s
/-- VCMP.LE.S32 (R139). -/
def execVcmpLeS32 (d : KReg) (a b : VReg) (p : Option Prefix) (s : State) : Host.Outcome State Fault Refusal :=
  vcmpI (fun x y => !y.slt x) d a b p s
/-- VCMP.GT.S32 (R139). -/
def execVcmpGtS32 (d : KReg) (a b : VReg) (p : Option Prefix) (s : State) : Host.Outcome State Fault Refusal :=
  vcmpI (fun x y => y.slt x) d a b p s
/-- VCMP.GE.S32 (R139). -/
def execVcmpGeS32 (d : KReg) (a b : VReg) (p : Option Prefix) (s : State) : Host.Outcome State Fault Refusal :=
  vcmpI (fun x y => !x.slt y) d a b p s
/-- VCMP.EQ.U32 (R139). -/
def execVcmpEqU32 (d : KReg) (a b : VReg) (p : Option Prefix) (s : State) : Host.Outcome State Fault Refusal :=
  vcmpI (fun x y => x == y) d a b p s
/-- VCMP.NE.U32 (R139). -/
def execVcmpNeU32 (d : KReg) (a b : VReg) (p : Option Prefix) (s : State) : Host.Outcome State Fault Refusal :=
  vcmpI (fun x y => x != y) d a b p s
/-- VCMP.LT.U32 (R139). -/
def execVcmpLtU32 (d : KReg) (a b : VReg) (p : Option Prefix) (s : State) : Host.Outcome State Fault Refusal :=
  vcmpI (fun x y => decide (x < y)) d a b p s
/-- VCMP.LE.U32 (R139). -/
def execVcmpLeU32 (d : KReg) (a b : VReg) (p : Option Prefix) (s : State) : Host.Outcome State Fault Refusal :=
  vcmpI (fun x y => decide (x ≤ y)) d a b p s
/-- VCMP.GT.U32 (R139). -/
def execVcmpGtU32 (d : KReg) (a b : VReg) (p : Option Prefix) (s : State) : Host.Outcome State Fault Refusal :=
  vcmpI (fun x y => decide (y < x)) d a b p s
/-- VCMP.GE.U32 (R139). -/
def execVcmpGeU32 (d : KReg) (a b : VReg) (p : Option Prefix) (s : State) : Host.Outcome State Fault Refusal :=
  vcmpI (fun x y => decide (y ≤ x)) d a b p s
/-- VCMP.EQ.F32 (R139). -/
def execVcmpEqF32 (d : KReg) (a b : VReg) (p : Option Prefix) (s : State) : Host.Outcome State Fault Refusal :=
  vcmpF (fun x y => eqV x y) d a b p s
/-- VCMP.NE.F32 (R139). -/
def execVcmpNeF32 (d : KReg) (a b : VReg) (p : Option Prefix) (s : State) : Host.Outcome State Fault Refusal :=
  vcmpF (fun x y => unordV x y || !eqV x y) d a b p s
/-- VCMP.LT.F32 (R139). -/
def execVcmpLtF32 (d : KReg) (a b : VReg) (p : Option Prefix) (s : State) : Host.Outcome State Fault Refusal :=
  vcmpF (fun x y => ltV x y) d a b p s
/-- VCMP.LE.F32 (R139). -/
def execVcmpLeF32 (d : KReg) (a b : VReg) (p : Option Prefix) (s : State) : Host.Outcome State Fault Refusal :=
  vcmpF (fun x y => ltV x y || eqV x y) d a b p s
/-- VCMP.GT.F32 (R139). -/
def execVcmpGtF32 (d : KReg) (a b : VReg) (p : Option Prefix) (s : State) : Host.Outcome State Fault Refusal :=
  vcmpF (fun x y => ltV y x) d a b p s
/-- VCMP.GE.F32 (R139). -/
def execVcmpGeF32 (d : KReg) (a b : VReg) (p : Option Prefix) (s : State) : Host.Outcome State Fault Refusal :=
  vcmpF (fun x y => ltV y x || eqV x y) d a b p s
/-- VCMP.UNORD (R139). -/
def execVcmpUnord (d : KReg) (a b : VReg) (p : Option Prefix) (s : State) : Host.Outcome State Fault Refusal :=
  vcmpF unordV d a b p s
/-- RCP (R140, R141). -/
def execRcp (d a : VReg) (p : Option Prefix) (s : State) : Host.Outcome State Fault Refusal := vsfu .rcp d a p s
/-- RSQ (R140, R141). -/
def execRsq (d a : VReg) (p : Option Prefix) (s : State) : Host.Outcome State Fault Refusal := vsfu .rsq d a p s
/-- SQRT (R140, R141). -/
def execSqrt (d a : VReg) (p : Option Prefix) (s : State) : Host.Outcome State Fault Refusal := vsfu .sqrt d a p s
/-- EX2 (R140, R141). -/
def execEx2 (d a : VReg) (p : Option Prefix) (s : State) : Host.Outcome State Fault Refusal := vsfu .ex2 d a p s
/-- LG2 (R140, R141). -/
def execLg2 (d a : VReg) (p : Option Prefix) (s : State) : Host.Outcome State Fault Refusal := vsfu .lg2 d a p s
/-- SIN (R140, R141). -/
def execSin (d a : VReg) (p : Option Prefix) (s : State) : Host.Outcome State Fault Refusal := vsfu .sin d a p s
/-- COS (R140, R141). -/
def execCos (d a : VReg) (p : Option Prefix) (s : State) : Host.Outcome State Fault Refusal := vsfu .cos d a p s
/-- TANH (R140, R141). -/
def execTanh (d a : VReg) (p : Option Prefix) (s : State) : Host.Outcome State Fault Refusal := vsfu .tanh d a p s

/-- Compact VADD.F32 (R94). -/
def execVaddF32Compact (d : VReg) (b : BitVec 5) (s : State) : Host.Outcome State Fault Refusal :=
  vfp .add .f32 d d (b.setWidth 6) none 2 s
/-- Compact VSUB.F32 (R94). -/
def execVsubF32Compact (d : VReg) (b : BitVec 5) (s : State) : Host.Outcome State Fault Refusal :=
  vfp .sub .f32 d d (b.setWidth 6) none 2 s
/-- Compact VMUL.F32 (R94). -/
def execVmulF32Compact (d : VReg) (b : BitVec 5) (s : State) : Host.Outcome State Fault Refusal :=
  vfp .mul .f32 d d (b.setWidth 6) none 2 s
/-- Compact VMAX.F32 (R94). -/
def execVmaxF32Compact (d : VReg) (b : BitVec 5) (s : State) : Host.Outcome State Fault Refusal :=
  vfp .max .f32 d d (b.setWidth 6) none 2 s
/-- Compact VMIN.F32 (R94). -/
def execVminF32Compact (d : VReg) (b : BitVec 5) (s : State) : Host.Outcome State Fault Refusal :=
  vfp .min .f32 d d (b.setWidth 6) none 2 s
/-- Compact VaddI32 (R94). -/
def execVaddI32Compact (d : VReg) (b : BitVec 5) (s : State) : Host.Outcome State Fault Refusal :=
  vint (fun x y => x + y) 4 d d (b.setWidth 6) none 2 s
/-- Compact VsubI32 (R94). -/
def execVsubI32Compact (d : VReg) (b : BitVec 5) (s : State) : Host.Outcome State Fault Refusal :=
  vint (fun x y => x - y) 4 d d (b.setWidth 6) none 2 s
/-- Compact Vand (R94). -/
def execVandCompact (d : VReg) (b : BitVec 5) (s : State) : Host.Outcome State Fault Refusal :=
  vint (fun x y => x &&& y) 4 d d (b.setWidth 6) none 2 s
/-- Compact Vor (R94). -/
def execVorCompact (d : VReg) (b : BitVec 5) (s : State) : Host.Outcome State Fault Refusal :=
  vint (fun x y => x ||| y) 4 d d (b.setWidth 6) none 2 s
/-- Compact Vxor (R94). -/
def execVxorCompact (d : VReg) (b : BitVec 5) (s : State) : Host.Outcome State Fault Refusal :=
  vint (fun x y => x ^^^ y) 4 d d (b.setWidth 6) none 2 s
/-- Compact Vshl (R94). -/
def execVshlCompact (d : VReg) (b : BitVec 5) (s : State) : Host.Outcome State Fault Refusal :=
  vint shlL 4 d d (b.setWidth 6) none 2 s
/-- Compact VshrU32 (R94). -/
def execVshrU32Compact (d : VReg) (b : BitVec 5) (s : State) : Host.Outcome State Fault Refusal :=
  vint shrL 4 d d (b.setWidth 6) none 2 s
/-- Compact VmulLo (R94). -/
def execVmulLoCompact (d : VReg) (b : BitVec 5) (s : State) : Host.Outcome State Fault Refusal :=
  vint (fun x y => x * y) 6 d d (b.setWidth 6) none 2 s
/-- Compact VmaxS32 (R94). -/
def execVmaxS32Compact (d : VReg) (b : BitVec 5) (s : State) : Host.Outcome State Fault Refusal :=
  vint maxS 4 d d (b.setWidth 6) none 2 s
/-- Compact VminS32 (R94). -/
def execVminS32Compact (d : VReg) (b : BitVec 5) (s : State) : Host.Outcome State Fault Refusal :=
  vint minS 4 d d (b.setWidth 6) none 2 s

end Sys2Proof.Machine
end

