-- ==== Sys2Proof/Machine/Lanes.lean ====
section
/-!
DEFINITION. Conversions, reductions, scans, rearrangements, masks and moves (spec/10_isa_lanes.md R143 to R153;
spec/02_formats.md R25 to R32).
-/

namespace Sys2Proof.Machine

/-- VCVT members 0 to 3, 6, 7: one source lane each (R145). -/
def cvt1 (f : Rnd → Bool → Bool → Lane → Lane × FFlags) (d a : VReg) (p : Option Prefix) (s : State) :
    Host.Outcome State Fault Refusal :=
  issue (vecNeed p [a.toNat] d 0 6 .vfp) (fun c s =>
    let x := s.vsrc c.a.groupNo a.toNat (pfxA p)
    let fmt := s.fmt c.a
    vecBody d p (fun i => f (modeOf fmt p) (fmtFtz fmt) (fmtIsat fmt) (lane x i)) c s) s
/-- Members 4 and 5: two lanes narrowed into one (R145). -/
def cvt2 (dst : FFmt) (d a b : VReg) (p : Option Prefix) (s : State) : Host.Outcome State Fault Refusal :=
  issue (vecNeed p [a.toNat, b.toNat] d 0 6 .vfp) (fun c s =>
    let x := s.vsrc c.a.groupNo a.toNat (pfxA p)
    let y := s.vget c.a.groupNo b.toNat
    let rm := modeOf (s.fmt c.a) p
    let ftz := fmtFtz (s.fmt c.a)
    vecBody d p (fun i =>
      let lo := convF fp32 dst rm ftz (lane x i).toNat
      let hi := convF fp32 dst rm ftz (lane y i).toNat
      (BitVec.ofNat 32 (lo.1 + 65536 * hi.1), lo.2 ||| hi.2)) c s) s
/-- Element e of a lane widened (R145). -/
def widen (src : FFmt) (e : BitVec 1) (ftz : Bool) (x : Lane) : Lane × FFlags :=
  let r := convF src fp32 .ne ftz (if e = 0 then x.toNat % 65536 else x.toNat / 65536)
  (BitVec.ofNat 32 r.1, r.2)
def laneOf (r : Nat × FFlags) : Lane × FFlags := (BitVec.ofNat 32 r.1, r.2)

/-- The image of six blocks as a number, with the flags of packing (R146). -/
def sxImage (m : Nat) (rm : Rnd) (x : Nat → Lane) : Nat × FFlags :=
  (List.range 6).foldl (fun acc g =>
    let (b, fl) := sxPack m rm ((List.range 16).map (fun j => x (16 * g + j)))
    (acc.1 + b.toNat m * 2 ^ (8 * sxBytes m * g), acc.2 ||| fl)) (0, 0)
/-- VCVT.SX.F32 (R146): every lane of the destination is written. -/
def execVcvtSxF32 (d a : VReg) (p : Option Prefix) (s : State) : Host.Outcome State Fault Refusal :=
  issue (vecNeed p [a.toNat] d 0 8 .vfp) (fun c s =>
    let x := s.vsrc c.a.groupNo a.toNat (pfxA p)
    let m := sxBits (fmtSxw (s.fmt c.a))
    let (img, fl) := sxImage m (modeOf (s.fmt c.a) p) (fun i => if c.act.getLsbD i then lane x i else 0)
    .done ((s.vput c.a.groupNo d.toNat (lanes (fun i => BitVec.ofNat 32 (img / 2 ^ (32 * i))))).raiseFlags c.a fl)) s
/-- VCVT.F32.SX (R147): the image is read whatever EXEC says. -/
def execVcvtF32Sx (d a : VReg) (p : Option Prefix) (s : State) : Host.Outcome State Fault Refusal :=
  issue (vecNeed p [a.toNat] d 0 8 .vfp) (fun c s =>
    let v := s.vget c.a.groupNo a.toNat
    let m := sxBits (fmtSxw (s.fmt c.a))
    let img := ((List.range (6 * sxBytes m / 4)).map (fun i => (lane v i).toNat * 2 ^ (32 * i))).sum
    let blocks := (List.range 6).map (fun g => SxBlock.ofNat m (img / 2 ^ (8 * sxBytes m * g)))
    .done (s.vmove c.a d.toNat c.act (pfxZ p) (fun i =>
      let b := blocks.getD (i / 16) { e := 0, u := [], xs := [] }
      sxUnpack m b.e (b.u.getD (i % 16 / 4) 0) (b.xs.getD (i % 16) 0)))) s

/-- One level of the tree of R32 over the positions of a block, with the flags raised so far. -/
def treeLevel (f : Lane → Lane → Lane × FFlags) (step : Nat) (y : List Lane × FFlags) : List Lane × FFlags :=
  let rs := (List.range y.1.length).map (fun i =>
    if i % (2 * step) = 0 then f (lane y.1 i) (lane y.1 (i + step)) else (lane y.1 i, (0 : FFlags)))
  (rs.map (·.1), rs.foldl (fun m x => m ||| x.2) y.2)
/-- A reduction by the fixed tree (R32, R33). -/
def reduceTree (f : Lane → Lane → Lane × FFlags) (ident : Lane) (x : List Lane) (act : Mask) : Lane × FFlags :=
  let block := fun (b : Nat) =>
    let y := (List.range 32).map (fun i => if act.getLsbD (32 * b + i) then lane x (32 * b + i) else ident)
    let r := [1, 2, 4, 8, 16].foldl (fun y n => treeLevel f n y) (y, (0 : FFlags))
    (lane r.1 0, r.2)
  let b0 := block 0
  let b1 := block 1
  let b2 := block 2
  let u := f b0.1 b1.1
  let w := f u.1 b2.1
  (w.1, b0.2 ||| b1.2 ||| b2.2 ||| u.2 ||| w.2)
/-- VRED: the result goes to a scalar, zero- or sign-extended (R148). -/
def vredNeed (d : SReg) (a : VReg) (p : Option Prefix) (pipe lat : Nat) (draw : Draw) : Need :=
  { dst := [d.toNat], vsrc := [a.toNat], kpfx := pfxK p, lim := [a.toNat], ctl := false, pipe := some pipe, lat := lat,
    draw := draw, len := lenP p }
def vred (f : Rnd → Bool → Lane → Lane → Lane × FFlags) (ident : Lane) (ext : Lane → Word) (pipe lat : Nat) (draw : Draw)
    (d : SReg) (a : VReg) (p : Option Prefix) (s : State) : Host.Outcome State Fault Refusal :=
  issue (vredNeed d a p pipe lat draw) (fun c s =>
    let x := s.vsrc c.a.groupNo a.toNat (pfxA p)
    let (r, fl) := reduceTree (f (modeOf (s.fmt c.a) p) (fmtFtz (s.fmt c.a))) ident x c.act
    .done ((s.sset c.a d.toNat (ext r)).raiseFlags c.a fl)) s
def faddL (rm : Rnd) (ftz : Bool) (x y : Lane) : Lane × FFlags :=
  laneOf (fp32.addV rm ftz (fp32.val ftz x.toNat) (fp32.val ftz y.toNat))
def fminmaxL (mx : Bool) (ftz : Bool) (x y : Lane) : Lane × FFlags :=
  laneOf (fp32.minmaxV mx (fp32.val ftz x.toNat) (fp32.val ftz y.toNat))

/-- An inclusive scan: the values by lane, and the flags (R149). -/
def scan (f : Lane → Lane → Lane × FFlags) (x : List Lane) (act : Mask) : Nat → Nat → Lane → List Lane × FFlags
  | 0, _, _ => ([], 0)
  | n + 1, i, acc =>
    let (acc2, fl) := if act.getLsbD i then f acc (lane x i) else (acc, 0)
    let (r, fr) := scan f x act n (i + 1) acc2
    (acc2 :: r, fl ||| fr)
def vscan (f : Rnd → Bool → Lane → Lane → Lane × FFlags) (pipe lat : Nat) (draw : Draw) (d a : VReg) (b : SReg)
    (p : Option Prefix) (s : State) : Host.Outcome State Fault Refusal :=
  issue ({ vecNeed p [a.toNat] d pipe lat draw with src := [b.toNat] }) (fun c s =>
    let x := s.vsrc c.a.groupNo a.toNat (pfxA p)
    let (r, fl) := scan (f (modeOf (s.fmt c.a) p) (fmtFtz (s.fmt c.a))) x c.act 96 0 ((c.get s b.toNat).setWidth 32)
    .done ((s.vmove c.a d.toNat c.act (pfxZ p) (fun i => lane r i)).raiseFlags c.a fl)) s

/-- The active lanes in rising order. -/
def activeLanes (m : Mask) : List Nat := (List.range 96).filter (fun i => m.getLsbD i)
/-- VCOMPACT: the active values, then the filler; every lane is written (R150). -/
def execVcompact (d a : VReg) (b : SReg) (p : Option Prefix) (s : State) : Host.Outcome State Fault Refusal :=
  issue ({ vecNeed p [a.toNat] d 1 6 .vint with src := [b.toNat] }) (fun c s =>
    let x := s.vsrc c.a.groupNo a.toNat (pfxA p)
    let vs := (activeLanes c.act).map (lane x)
    let fill : Lane := (c.get s b.toNat).setWidth 32
    .done (s.vput c.a.groupNo d.toNat (lanes (fun i => vs.getD i fill)))) s
/-- VEXPAND: the m-th active lane receives lane m (R150). -/
def execVexpand (d a : VReg) (p : Option Prefix) (s : State) : Host.Outcome State Fault Refusal :=
  issue (vecNeed p [a.toNat] d 1 6 .vint) (fun c s =>
    let x := s.vsrc c.a.groupNo a.toNat (pfxA p)
    .done (s.vmove c.a d.toNat c.act (pfxZ p) (fun i => lane x ((activeLanes c.act).idxOf i)))) s
/-- VSEL: under the prefix's mask from a, else in EXEC from b (R150). -/
def execVsel (d a b : VReg) (p : Option Prefix) (s : State) : Host.Outcome State Fault Refusal :=
  issue (vecNeed p [a.toNat, b.toNat] d 1 4 .vint) (fun c s =>
    let x := s.vsrc c.a.groupNo a.toNat (pfxA p)
    let y := s.vsrc c.a.groupNo b.toNat (pfxB p)
    .done (s.vmove c.a d.toNat c.mask false (fun i => if c.act.getLsbD i then lane x i else lane y i))) s
/-- VPERM (R150). -/
def execVperm (d a b : VReg) (p : Option Prefix) (s : State) : Host.Outcome State Fault Refusal :=
  issue (vecNeed p [a.toNat, b.toNat] d 1 6 .vint) (fun c s =>
    let x := s.vsrc c.a.groupNo a.toNat (pfxA p)
    let y := s.vsrc c.a.groupNo b.toNat (pfxB p)
    .done (s.vmove c.a d.toNat c.act (pfxZ p) (fun i =>
      let j := (lane y i).toNat % 128
      if j < 96 then lane x j else 0))) s

/-- A mask operation (R151): scalar unit, latency 1. -/
def kopNeed (d : KReg) (ks : List Nat) (p : Option Prefix) : Need :=
  { ksrc := ks, kdst := [d.toNat], kpfx := pfxK p, ctl := false, len := lenP p }
def kop2 (f : Mask → Mask → Mask) (d a b : KReg) (p : Option Prefix) (s : State) : Host.Outcome State Fault Refusal :=
  issue (kopNeed d [a.toNat, b.toNat] p) (fun c s =>
    let g := c.a.groupNo
    .done (s.kwrite g d.toNat c.act (pfxZ p) (f (s.kget g a.toNat) (s.kget g b.toNat)))) s
def kop1 (f : Mask → Mask) (d a : KReg) (p : Option Prefix) (s : State) : Host.Outcome State Fault Refusal :=
  issue (kopNeed d [a.toNat] p) (fun c s =>
    let g := c.a.groupNo
    .done (s.kwrite g d.toNat c.act (pfxZ p) (f (s.kget g a.toNat)))) s
/-- K2S, KPOPC, KFIRST: a scalar from a mask (R151). -/
def k2sNeed (d : SReg) (a : KReg) (p : Option Prefix) : Need :=
  { dst := [d.toNat], ksrc := [a.toNat], kpfx := pfxK p, ctl := false, len := lenP p }
def kscalar (f : Mask → Mask → Word) (d : SReg) (a : KReg) (p : Option Prefix) (s : State) :
    Host.Outcome State Fault Refusal :=
  issue (k2sNeed d a p) (fun c s => .done (s.sset c.a d.toNat (f (s.kget c.a.groupNo a.toNat) c.act))) s
/-- K2S (R151). -/
def execK2s (d : SReg) (a : KReg) (n : Fin 3) (p : Option Prefix) (s : State) : Host.Outcome State Fault Refusal :=
  kscalar (fun m _ => (m.extractLsb' (32 * n.val) 32).setWidth 64) d a p s
/-- S2K: only its own 32 bits are written or cleared (R151). -/
def s2kNeed (d : KReg) (a : SReg) (p : Option Prefix) : Need :=
  { src := [a.toNat], kdst := [d.toNat], kpfx := pfxK p, ctl := false, len := lenP p }
def execS2k (d : KReg) (a : SReg) (n : Fin 3) (p : Option Prefix) (s : State) : Host.Outcome State Fault Refusal :=
  issue (s2kNeed d a p) (fun c s =>
    let g := c.a.groupNo
    let v : Mask := ((c.get s a.toNat).setWidth 32 : Lane).setWidth 96 <<< (32 * n.val)
    let own : Mask := (0xFFFFFFFF : Mask) <<< (32 * n.val)
    let old := s.kget g d.toNat
    .done (s.kput g d.toNat ((old &&& ~~~own) ||| (v &&& c.act &&& own) |||
      (if pfxZ p then 0 else old &&& own &&& ~~~c.act)))) s
/-- KPOPC (R151). -/
def execKpopc (d : SReg) (a : KReg) (p : Option Prefix) (s : State) : Host.Outcome State Fault Refusal :=
  kscalar (fun m act => BitVec.ofNat 64 (Machine.popc (m &&& act))) d a p s
/-- KFIRST (R151). -/
def execKfirst (d : SReg) (a : KReg) (p : Option Prefix) (s : State) : Host.Outcome State Fault Refusal :=
  kscalar (fun m act => BitVec.ofNat 64 ((activeLanes (m &&& act)).headD 96)) d a p s

/-- VMOV of any length (R94, R152). -/
def vmovOf (d a : VReg) (p : Option Prefix) (len : Nat) (s : State) : Host.Outcome State Fault Refusal :=
  issue ({ vecNeed p [a.toNat] d 1 4 .vint with len := len }) (fun c s =>
    let x := s.vsrc c.a.groupNo a.toNat (pfxA p)
    .done (s.vmove c.a d.toNat c.act (pfxZ p) (lane x))) s
/-- VMOV (R152). -/
def execVmov (d a : VReg) (p : Option Prefix) (s : State) : Host.Outcome State Fault Refusal := vmovOf d a p (lenP p) s
/-- Compact VMOV (R94). -/
def execVmovCompact (d : VReg) (b : BitVec 5) (s : State) : Host.Outcome State Fault Refusal := vmovOf d (b.setWidth 6) none 2 s
/-- VSPLAT (R152). -/
def execVsplat (d : VReg) (a : SReg) (p : Option Prefix) (s : State) : Host.Outcome State Fault Refusal :=
  issue ({ vecNeed p [] d 1 4 .vint with src := [a.toNat] }) (fun c s =>
    let x : Lane := (c.get s a.toNat).setWidth 32
    .done (s.vmove c.a d.toNat c.act (pfxZ p) (fun _ => x))) s
/-- VEXT: a lane into a scalar, whatever EXEC says (R152). -/
def execVext (d : SReg) (a : VReg) (b : SReg) (p : Option Prefix) (s : State) : Host.Outcome State Fault Refusal :=
  issue ({ vredNeed d a p 1 4 .vint with src := [b.toNat] }) (fun c s =>
    let x := s.vsrc c.a.groupNo a.toNat (pfxA p)
    let j := (c.get s b.toNat).toNat % 128
    .done (s.sset c.a d.toNat (if j < 96 then (lane x j).setWidth 64 else 0))) s
/-- VINS: one lane, if it is active (R152). -/
def execVins (d : VReg) (a b : SReg) (p : Option Prefix) (s : State) : Host.Outcome State Fault Refusal :=
  issue ({ vecNeed p [] d 1 4 .vint with src := [a.toNat, b.toNat] }) (fun c s =>
    let x : Lane := (c.get s a.toNat).setWidth 32
    let j := (c.get s b.toNat).toNat % 128
    .done (s.vmove c.a d.toNat (c.act &&& (1 : Mask) <<< j) false (fun _ => x))) s
/-- VLANEID (R152). -/
def execVlaneid (d : VReg) (p : Option Prefix) (s : State) : Host.Outcome State Fault Refusal :=
  issue (vecNeed p [] d 1 4 .vint) (fun c s => .done (s.vmove c.a d.toNat c.act (pfxZ p) (BitVec.ofNat 32))) s
/-- VIOTA: the active lanes below (R152). -/
def execViota (d : VReg) (p : Option Prefix) (s : State) : Host.Outcome State Fault Refusal :=
  issue (vecNeed p [] d 1 6 .vint) (fun c s =>
    .done (s.vmove c.a d.toNat c.act (pfxZ p) (fun i => BitVec.ofNat 32 ((activeLanes c.act).filter (· < i)).length))) s

/-- VCVT.F32.S32 (R25, R145). -/
def execVcvtF32S32 (d a : VReg) (p : Option Prefix) (s : State) : Host.Outcome State Fault Refusal :=
  cvt1 (fun rm _ _ x => laneOf (ofIntF rm x.toInt)) d a p s
/-- VCVT.F32.U32 (R25, R145). -/
def execVcvtF32U32 (d a : VReg) (p : Option Prefix) (s : State) : Host.Outcome State Fault Refusal :=
  cvt1 (fun rm _ _ x => laneOf (ofIntF rm x.toNat)) d a p s
/-- VCVT.S32.F32 (R26, R145). -/
def execVcvtS32F32 (d a : VReg) (p : Option Prefix) (s : State) : Host.Outcome State Fault Refusal :=
  cvt1 (fun rm _ isat x => toIntF rm isat true x.toNat) d a p s
/-- VCVT.U32.F32 (R26, R145). -/
def execVcvtU32F32 (d a : VReg) (p : Option Prefix) (s : State) : Host.Outcome State Fault Refusal :=
  cvt1 (fun rm _ isat x => toIntF rm isat false x.toNat) d a p s
/-- VCVT.BF16.F32 (R25, R145). -/
def execVcvtBf16F32 (d a b : VReg) (p : Option Prefix) (s : State) : Host.Outcome State Fault Refusal := cvt2 bf16 d a b p s
/-- VCVT.F16.F32 (R25, R145). -/
def execVcvtF16F32 (d a b : VReg) (p : Option Prefix) (s : State) : Host.Outcome State Fault Refusal := cvt2 fp16 d a b p s
/-- VCVT.F32.BF16 (R25, R145). -/
def execVcvtF32Bf16 (d a : VReg) (e : BitVec 1) (p : Option Prefix) (s : State) : Host.Outcome State Fault Refusal :=
  cvt1 (fun _ ftz _ x => widen bf16 e ftz x) d a p s
/-- VCVT.F32.F16 (R25, R145). -/
def execVcvtF32F16 (d a : VReg) (e : BitVec 1) (p : Option Prefix) (s : State) : Host.Outcome State Fault Refusal :=
  cvt1 (fun _ ftz _ x => widen fp16 e ftz x) d a p s
/-- VRED.FADD (R32, R148). -/
def execVredFadd (d : SReg) (a : VReg) (p : Option Prefix) (s : State) : Host.Outcome State Fault Refusal :=
  vred faddL 0x80000000 (BitVec.setWidth 64) 0 10 .vfp d a p s
/-- VRED.FMIN (R32, R148). -/
def execVredFmin (d : SReg) (a : VReg) (p : Option Prefix) (s : State) : Host.Outcome State Fault Refusal :=
  vred (fun _ => fminmaxL false) 0x7F800000 (BitVec.setWidth 64) 0 10 .vfp d a p s
/-- VRED.FMAX (R32, R148). -/
def execVredFmax (d : SReg) (a : VReg) (p : Option Prefix) (s : State) : Host.Outcome State Fault Refusal :=
  vred (fun _ => fminmaxL true) 0xFF800000 (BitVec.setWidth 64) 0 10 .vfp d a p s
/-- VRED.IADD (R32, R148). -/
def execVredIadd (d : SReg) (a : VReg) (p : Option Prefix) (s : State) : Host.Outcome State Fault Refusal :=
  vred (fun _ _ x y => (x + y, 0)) 0 (BitVec.signExtend 64) 1 8 .vint d a p s
/-- VRED.IMIN.S (R32, R148). -/
def execVredIminS (d : SReg) (a : VReg) (p : Option Prefix) (s : State) : Host.Outcome State Fault Refusal :=
  vred (fun _ _ x y => (minS x y, 0)) 0x7FFFFFFF (BitVec.signExtend 64) 1 8 .vint d a p s
/-- VRED.IMAX.S (R32, R148). -/
def execVredImaxS (d : SReg) (a : VReg) (p : Option Prefix) (s : State) : Host.Outcome State Fault Refusal :=
  vred (fun _ _ x y => (maxS x y, 0)) 0x80000000 (BitVec.signExtend 64) 1 8 .vint d a p s
/-- VSCAN.FADD (R149). -/
def execVscanFadd (d a : VReg) (b : SReg) (p : Option Prefix) (s : State) : Host.Outcome State Fault Refusal :=
  vscan faddL 0 12 .vfp d a b p s
/-- VSCAN.IADD (R149). -/
def execVscanIadd (d a : VReg) (b : SReg) (p : Option Prefix) (s : State) : Host.Outcome State Fault Refusal :=
  vscan (fun _ _ x y => (x + y, 0)) 1 8 .vint d a b p s
/-- KAND (R151). -/
def execKand (d a b : KReg) (p : Option Prefix) (s : State) : Host.Outcome State Fault Refusal :=
  kop2 (fun x y => x &&& y) d a b p s
/-- KOR (R151). -/
def execKor (d a b : KReg) (p : Option Prefix) (s : State) : Host.Outcome State Fault Refusal :=
  kop2 (fun x y => x ||| y) d a b p s
/-- KXOR (R151). -/
def execKxor (d a b : KReg) (p : Option Prefix) (s : State) : Host.Outcome State Fault Refusal :=
  kop2 (fun x y => x ^^^ y) d a b p s
/-- KANDN (R151). -/
def execKandn (d a b : KReg) (p : Option Prefix) (s : State) : Host.Outcome State Fault Refusal :=
  kop2 (fun x y => x &&& ~~~y) d a b p s
/-- KNOT (R151). -/
def execKnot (d a : KReg) (p : Option Prefix) (s : State) : Host.Outcome State Fault Refusal := kop1 (fun x => ~~~x) d a p s
/-- KMOV (R151). -/
def execKmov (d a : KReg) (p : Option Prefix) (s : State) : Host.Outcome State Fault Refusal := kop1 id d a p s

end Sys2Proof.Machine
end

