-- ==== Sys2Proof/Machine/MemoryIsa.lean ====
section
/-!
DEFINITION. The memory and atomic instructions (spec/11_isa_memory.md R157 to R167), each as its form over the shared bodies of
Memory.lean.
-/

namespace Sys2Proof.Machine

/-- The code of a vector access size (R157). -/
def memCode : MemSize → Nat
  | .b => 0
  | .h => 1
  | .w => 2
  | .d => 3
  | .q => 4
  | .n => 5
/-- The code of a scalar access size (R162). -/
def smemCode : SMemSize → Nat
  | .b => 0
  | .h => 1
  | .w => 2
  | .d => 3
  | .q => 4

/-- A vector load or store (R157). -/
def vecForm (what : Nat) (acq rel : Bool) (d : VReg) (r : SReg) (x : VReg) (st : StreamNo) (z : MemSize)
    (e : Option (BitVec 25)) : MemForm :=
  { vec := true, what := what, d := d.toNat, base := r.toNat, idx := x.toNat, st := st.toNat, sz := memCode z
    acquire := acq, release := rel, x := e }
/-- A scalar load or store (R162). -/
def scalForm (what : Nat) (acq rel : Bool) (d r x : SReg) (st : StreamNo) (z : SMemSize) (e : Option (BitVec 25)) : MemForm :=
  { vec := false, what := what, d := d.toNat, base := r.toNat, idx := x.toNat, st := st.toNat, sz := smemCode z
    acquire := acq, release := rel, x := e }
/-- A vector atomic of an operation code (R165, R166). -/
def vatomForm (op : Nat) (d : VReg) (r : SReg) (x : VReg) (st : StreamNo) (e : Option (BitVec 25)) : MemForm :=
  { vec := true, what := 2, op := op, d := d.toNat, base := r.toNat, idx := x.toNat, st := st.toNat, sz := 2, x := e }
/-- A scalar atomic (R165). -/
def satomForm (op : Nat) (d r x : SReg) (st : StreamNo) (e : Option (BitVec 25)) : MemForm :=
  { vec := false, what := 2, op := op, d := d.toNat, base := r.toNat, idx := x.toNat, st := st.toNat, sz := 3, x := e }

/-- VLD (R157). -/
def execVld (d : VReg) (r : SReg) (x : VReg) (st : StreamNo) (z : MemSize) (e : Option (BitVec 25)) (s : State) :
    Host.Outcome State Fault Refusal := memIssue (vecForm 0 false false d r x st z e) s
/-- VST (R157). -/
def execVst (d : VReg) (r : SReg) (x : VReg) (st : StreamNo) (z : MemSize) (e : Option (BitVec 25)) (s : State) :
    Host.Outcome State Fault Refusal := memIssue (vecForm 1 false false d r x st z e) s
/-- VLDA: an acquire (R157, R161). -/
def execVlda (d : VReg) (r : SReg) (x : VReg) (st : StreamNo) (z : MemSize) (e : Option (BitVec 25)) (s : State) :
    Host.Outcome State Fault Refusal := memIssue (vecForm 0 true false d r x st z e) s
/-- VSTR: a release (R157, R161). -/
def execVstr (d : VReg) (r : SReg) (x : VReg) (st : StreamNo) (z : MemSize) (e : Option (BitVec 25)) (s : State) :
    Host.Outcome State Fault Refusal := memIssue (vecForm 1 false true d r x st z e) s
/-- SLD (R162). -/
def execSld (d r x : SReg) (st : StreamNo) (z : SMemSize) (e : Option (BitVec 25)) (s : State) :
    Host.Outcome State Fault Refusal := memIssue (scalForm 0 false false d r x st z e) s
/-- SST (R162). -/
def execSst (d r x : SReg) (st : StreamNo) (z : SMemSize) (e : Option (BitVec 25)) (s : State) :
    Host.Outcome State Fault Refusal := memIssue (scalForm 1 false false d r x st z e) s
/-- SLDA: an acquire (R161, R162). -/
def execSlda (d r x : SReg) (st : StreamNo) (z : SMemSize) (e : Option (BitVec 25)) (s : State) :
    Host.Outcome State Fault Refusal := memIssue (scalForm 0 true false d r x st z e) s
/-- SSTR: a release (R161, R162). -/
def execSstr (d r x : SReg) (st : StreamNo) (z : SMemSize) (e : Option (BitVec 25)) (s : State) :
    Host.Outcome State Fault Refusal := memIssue (scalForm 1 false true d r x st z e) s
/-- VATOM.ADD (R165). -/
def execVatomAdd (d : VReg) (r : SReg) (x : VReg) (st : StreamNo) (e : Option (BitVec 25)) (s : State) :
    Host.Outcome State Fault Refusal := memIssue (vatomForm 0 d r x st e) s
/-- VATOM.AND (R165). -/
def execVatomAnd (d : VReg) (r : SReg) (x : VReg) (st : StreamNo) (e : Option (BitVec 25)) (s : State) :
    Host.Outcome State Fault Refusal := memIssue (vatomForm 1 d r x st e) s
/-- VATOM.OR (R165). -/
def execVatomOr (d : VReg) (r : SReg) (x : VReg) (st : StreamNo) (e : Option (BitVec 25)) (s : State) :
    Host.Outcome State Fault Refusal := memIssue (vatomForm 2 d r x st e) s
/-- VATOM.XOR (R165). -/
def execVatomXor (d : VReg) (r : SReg) (x : VReg) (st : StreamNo) (e : Option (BitVec 25)) (s : State) :
    Host.Outcome State Fault Refusal := memIssue (vatomForm 3 d r x st e) s
/-- VATOM.MINS (R165). -/
def execVatomMinS (d : VReg) (r : SReg) (x : VReg) (st : StreamNo) (e : Option (BitVec 25)) (s : State) :
    Host.Outcome State Fault Refusal := memIssue (vatomForm 4 d r x st e) s
/-- VATOM.MAXS (R165). -/
def execVatomMaxS (d : VReg) (r : SReg) (x : VReg) (st : StreamNo) (e : Option (BitVec 25)) (s : State) :
    Host.Outcome State Fault Refusal := memIssue (vatomForm 5 d r x st e) s
/-- VATOM.XCHG (R165). -/
def execVatomXchg (d : VReg) (r : SReg) (x : VReg) (st : StreamNo) (e : Option (BitVec 25)) (s : State) :
    Host.Outcome State Fault Refusal := memIssue (vatomForm 6 d r x st e) s
/-- VATOM.CAS (R165). -/
def execVatomCas (d : VReg) (r : SReg) (x : VReg) (st : StreamNo) (e : Option (BitVec 25)) (s : State) :
    Host.Outcome State Fault Refusal := memIssue (vatomForm 7 d r x st e) s
/-- VATOMF.FADD (R166). -/
def execVatomfFadd (d : VReg) (r : SReg) (x : VReg) (st : StreamNo) (e : Option (BitVec 25)) (s : State) :
    Host.Outcome State Fault Refusal := memIssue (vatomForm 8 d r x st e) s
/-- VATOMF.FMIN (R166). -/
def execVatomfFmin (d : VReg) (r : SReg) (x : VReg) (st : StreamNo) (e : Option (BitVec 25)) (s : State) :
    Host.Outcome State Fault Refusal := memIssue (vatomForm 9 d r x st e) s
/-- VATOMF.FMAX (R166). -/
def execVatomfFmax (d : VReg) (r : SReg) (x : VReg) (st : StreamNo) (e : Option (BitVec 25)) (s : State) :
    Host.Outcome State Fault Refusal := memIssue (vatomForm 10 d r x st e) s
/-- VATOMF.MINU (R166). -/
def execVatomfMinU (d : VReg) (r : SReg) (x : VReg) (st : StreamNo) (e : Option (BitVec 25)) (s : State) :
    Host.Outcome State Fault Refusal := memIssue (vatomForm 11 d r x st e) s
/-- VATOMF.MAXU (R166). -/
def execVatomfMaxU (d : VReg) (r : SReg) (x : VReg) (st : StreamNo) (e : Option (BitVec 25)) (s : State) :
    Host.Outcome State Fault Refusal := memIssue (vatomForm 12 d r x st e) s
/-- VATOMF.INCW (R166). -/
def execVatomfIncw (d : VReg) (r : SReg) (x : VReg) (st : StreamNo) (e : Option (BitVec 25)) (s : State) :
    Host.Outcome State Fault Refusal := memIssue (vatomForm 13 d r x st e) s
/-- VATOMF.DECW (R166). -/
def execVatomfDecw (d : VReg) (r : SReg) (x : VReg) (st : StreamNo) (e : Option (BitVec 25)) (s : State) :
    Host.Outcome State Fault Refusal := memIssue (vatomForm 14 d r x st e) s
/-- SATOM.ADD (R165). -/
def execSatomAdd (d r x : SReg) (st : StreamNo) (e : Option (BitVec 25)) (s : State) :
    Host.Outcome State Fault Refusal := memIssue (satomForm 16 d r x st e) s
/-- SATOM.AND (R165). -/
def execSatomAnd (d r x : SReg) (st : StreamNo) (e : Option (BitVec 25)) (s : State) :
    Host.Outcome State Fault Refusal := memIssue (satomForm 17 d r x st e) s
/-- SATOM.OR (R165). -/
def execSatomOr (d r x : SReg) (st : StreamNo) (e : Option (BitVec 25)) (s : State) :
    Host.Outcome State Fault Refusal := memIssue (satomForm 18 d r x st e) s
/-- SATOM.XOR (R165). -/
def execSatomXor (d r x : SReg) (st : StreamNo) (e : Option (BitVec 25)) (s : State) :
    Host.Outcome State Fault Refusal := memIssue (satomForm 19 d r x st e) s
/-- SATOM.MINS (R165). -/
def execSatomMinS (d r x : SReg) (st : StreamNo) (e : Option (BitVec 25)) (s : State) :
    Host.Outcome State Fault Refusal := memIssue (satomForm 20 d r x st e) s
/-- SATOM.MAXS (R165). -/
def execSatomMaxS (d r x : SReg) (st : StreamNo) (e : Option (BitVec 25)) (s : State) :
    Host.Outcome State Fault Refusal := memIssue (satomForm 21 d r x st e) s
/-- SATOM.XCHG (R165). -/
def execSatomXchg (d r x : SReg) (st : StreamNo) (e : Option (BitVec 25)) (s : State) :
    Host.Outcome State Fault Refusal := memIssue (satomForm 22 d r x st e) s
/-- SATOM.CAS (R165). -/
def execSatomCas (d r x : SReg) (st : StreamNo) (e : Option (BitVec 25)) (s : State) :
    Host.Outcome State Fault Refusal := memIssue (satomForm 23 d r x st e) s

/-! ### CACHE -/

/-- The form of CACHE: a scalar address, no data (R167). -/
def cacheForm (r x : SReg) (st : StreamNo) (e : Option (BitVec 25)) : MemForm :=
  { vec := false, what := 1, d := 0, base := r.toNat, idx := x.toNat, st := st.toNat, sz := 0, x := e }
/-- The address of its line (R167). -/
def cacheLine (f : MemForm) (c : Ctx) (s : State) : Nat := (c.addrS s f.base f.idx f.x).toNat / 128 * 128
/-- The line at its home for a member that never faults: as it was where it cannot be reached. -/
def State.tryHome (s : State) (a : Agent) (va : Nat) (write : Bool) : Option State :=
  match s.home (s.ctxOf a).1 (s.ctxOf a).2 va write false with
  | .ok t => some t
  | _ => none

/-- PFL1 and PFL2: the line filled into its home and, for PFL1 on a vector core, clean into the L1 (R167, R241). -/
def State.prefetch (s : State) (a : Agent) (va stream : Nat) (l1 : Bool) : State :=
  let (vi, asid) := s.ctxOf a
  let key := lineKey (s.tagAsid vi asid va) va
  if (regionOf va 128).1 != .global then s
  else match a, l1 with
    | .split g _, true =>
      if (s.readL1 (g / 32) key va 128).isSome then s.touchL1 (g / 32) key stream
      else match s.tryHome a va false with
        | some t => if t.kindAt vi asid va = 1 then t else t.fillL1 (g / 32) key stream
        | none => s
    | _, _ => (s.tryHome a va false).getD s
/-- WBACK: dirty sectors of the L1 to the home, then the home's dirty line to memory (R167). -/
def State.wback (s : State) (a : Agent) (va : Nat) : State :=
  let (vi, asid) := s.ctxOf a
  let key := lineKey (s.tagAsid vi asid va) va
  if (regionOf va 128).1 != .global then s
  else
    let s := match a with
      | .split g _ => if (s.tryHome a va true).isSome then s.backWhere (g / 32) (fun k _ => k == key) else s
      | .thread _ => s
    s.writeBack key
/-- The line leaves the L1, its dirty bytes discarded (R167). -/
def State.invalL1 (s : State) (a : Agent) (va : Nat) : State :=
  let (vi, asid) := s.ctxOf a
  if (regionOf va 128).1 != .global then s
  else match a with
    | .split g _ => s.modCore (g / 32) (fun c => { c with l1 := tabDel c.l1 (lineKey (s.tagAsid vi asid va) va) })
    | .thread _ => s
/-- WBINV: WBACK, then the line leaves the L1 and the home; a line whose dirty bytes cannot be written back is left alone
(R167). Log 38 (DESIGN CHOICE). -/
def State.wbinv (s : State) (a : Agent) (va : Nat) : State :=
  let (vi, asid) := s.ctxOf a
  let key := lineKey (s.tagAsid vi asid va) va
  let t := s.wback a va
  let stuck := match a with
    | .split g _ => match t.l1 (g / 32) key with
      | some l => l.sectors.any (fun x => x.2.isDirty)
      | none => false
    | .thread _ => false
  if (regionOf va 128).1 != .global then s else if stuck then t else (t.invalL1 a va).dropL2 key

/-- A CACHE member that writes nothing into the line: it takes a slot, earlier accesses to the line come first, and one that writes
back or removes it commits the open region; on a local window it has no effect (R53, R154, R155, R167). -/
def cacheBody (f : MemForm) (commit : Bool) (eff : State → Agent → Nat → State) (c : Ctx) (s : State) : Act :=
  let va := cacheLine f c s
  if s.slotsFull c.a.unit then .wait .pipe
  else if (regionOf va 128).1 != .global then .done s
  else
    let s := s.settle c.a s.nextId va 128
    .done (eff (if commit then s.implicitCommit c.a else s) c.a va)
/-- CACHE.PFL1 (R167). -/
def execCachePfl1 (r x : SReg) (st : StreamNo) (e : Option (BitVec 25)) (s : State) : Host.Outcome State Fault Refusal :=
  let f := cacheForm r x st e
  issue f.need (cacheBody f false (fun s a va => s.prefetch a va f.st true)) s
/-- CACHE.PFL2 (R167). -/
def execCachePfl2 (r x : SReg) (st : StreamNo) (e : Option (BitVec 25)) (s : State) : Host.Outcome State Fault Refusal :=
  let f := cacheForm r x st e
  issue f.need (cacheBody f false (fun s a va => s.prefetch a va f.st false)) s
/-- CACHE.WBACK (R167). -/
def execCacheWback (r x : SReg) (st : StreamNo) (e : Option (BitVec 25)) (s : State) : Host.Outcome State Fault Refusal :=
  let f := cacheForm r x st e
  issue f.need (cacheBody f true State.wback) s
/-- CACHE.INVAL (R167). -/
def execCacheInval (r x : SReg) (st : StreamNo) (e : Option (BitVec 25)) (s : State) : Host.Outcome State Fault Refusal :=
  let f := cacheForm r x st e
  issue f.need (cacheBody f true State.invalL1) s
/-- CACHE.WBINV (R167). -/
def execCacheWbinv (r x : SReg) (st : StreamNo) (e : Option (BitVec 25)) (s : State) : Host.Outcome State Fault Refusal :=
  let f := cacheForm r x st e
  issue f.need (cacheBody f true State.wbinv) s
/-- The access of ZLINE. -/
def zlineElem (f : MemForm) (c : Ctx) (s : State) : Elem := { key := 0, own := none, va := cacheLine f c s, n := 128, al := 1 }
/-- CACHE.ZLINE: a store of 128 zero bytes (R167). -/
def execCacheZline (r x : SReg) (st : StreamNo) (e : Option (BitVec 25)) (s : State) : Host.Outcome State Fault Refusal :=
  let f := cacheForm r x st e
  issue f.need (fun c s => storeOf f [zlineElem f c s] (fun _ => (List.replicate 128 0, 0)) c s) s

end Sys2Proof.Machine
end

