-- ==== Sys2Proof/Machine/Scalar.lean ====
section
/-!
DEFINITION. Scalar arithmetic and uniform branches (spec/08_isa_scalar.md R118 to R125, R130).
-/

namespace Sys2Proof.Machine

/-- 1 or 0. -/
def flagWord (b : Bool) : Word := if b then 1 else 0
/-- Bits [127:64] of the signed product (R120). -/
def mulHigh (x y : Word) : Word := BitVec.ofInt 64 (x.toInt * y.toInt / 2 ^ 64)
/-- Bits [127:64] of the unsigned product. -/
def mulHighU (x y : Word) : Word := BitVec.ofNat 64 (x.toNat * y.toNat / 2 ^ 64)
/-- Division as R24 gives it: a zero divisor gives all ones and the dividend; the most negative value by −1 wraps. -/
def divS (x y : Word) : Word := if y = 0 then BitVec.allOnes 64 else x.sdiv y
def divU (x y : Word) : Word := if y = 0 then BitVec.allOnes 64 else x / y
def remS (x y : Word) : Word := if y = 0 then x else x.srem y
def remU (x y : Word) : Word := if y = 0 then x else x % y
/-- Leading zero bits. -/
def leadingZeros {w : Nat} (x : BitVec w) : Nat := if x = 0 then w else w - 1 - Nat.log2 x.toNat

/-- A SALU member of two sources (R118 to R120). -/
def saluNeed (d a b : SReg) (lat : Nat) (div : Bool) : Need := { src := [a.toNat, b.toNat], dst := [d.toNat], lat := lat, div := div }
def salu (f : Word → Word → Word) (d a b : SReg) (lat : Nat) (div : Bool) (s : State) : Host.Outcome State Fault Refusal :=
  issue (saluNeed d a b lat div) (fun c s => .done (s.sset c.a d.toNat (f (c.get s a.toNat) (c.get s b.toNat)))) s
/-- A unary member, or one with an immediate. -/
def scalar1Need (d a : SReg) (len : Nat) : Need := { src := [a.toNat], dst := [d.toNat], len := len }
def scalar1 (f : Word → Word) (d a : SReg) (len : Nat) (s : State) : Host.Outcome State Fault Refusal :=
  issue (scalar1Need d a len) (fun c s => .done (s.sset c.a d.toNat (f (c.get s a.toNat)))) s

/-- ADD (R120). -/
def execAdd (d a b : SReg) (s : State) : Host.Outcome State Fault Refusal := salu (fun x y => x + y) d a b 1 false s
/-- SUB (R120). -/
def execSub (d a b : SReg) (s : State) : Host.Outcome State Fault Refusal := salu (fun x y => x - y) d a b 1 false s
/-- AND (R120). -/
def execAnd (d a b : SReg) (s : State) : Host.Outcome State Fault Refusal := salu (fun x y => x &&& y) d a b 1 false s
/-- OR (R120). -/
def execOr (d a b : SReg) (s : State) : Host.Outcome State Fault Refusal := salu (fun x y => x ||| y) d a b 1 false s
/-- XOR (R120). -/
def execXor (d a b : SReg) (s : State) : Host.Outcome State Fault Refusal := salu (fun x y => x ^^^ y) d a b 1 false s
/-- SHL (R120). -/
def execShl (d a b : SReg) (s : State) : Host.Outcome State Fault Refusal := salu (fun x y => x <<< (y.toNat % 64)) d a b 1 false s
/-- SHR (R120). -/
def execShr (d a b : SReg) (s : State) : Host.Outcome State Fault Refusal := salu (fun x y => x >>> (y.toNat % 64)) d a b 1 false s
/-- SRA (R120). -/
def execSra (d a b : SReg) (s : State) : Host.Outcome State Fault Refusal := salu (fun x y => x.sshiftRight (y.toNat % 64)) d a b 1 false s
/-- MIN (R120). -/
def execMin (d a b : SReg) (s : State) : Host.Outcome State Fault Refusal := salu (fun x y => if x.slt y then x else y) d a b 1 false s
/-- MAX (R120). -/
def execMax (d a b : SReg) (s : State) : Host.Outcome State Fault Refusal := salu (fun x y => if x.slt y then y else x) d a b 1 false s
/-- MINU (R120). -/
def execMinu (d a b : SReg) (s : State) : Host.Outcome State Fault Refusal := salu (fun x y => if x < y then x else y) d a b 1 false s
/-- MAXU (R120). -/
def execMaxu (d a b : SReg) (s : State) : Host.Outcome State Fault Refusal := salu (fun x y => if x < y then y else x) d a b 1 false s
/-- SLT (R120). -/
def execSlt (d a b : SReg) (s : State) : Host.Outcome State Fault Refusal := salu (fun x y => flagWord (x.slt y)) d a b 1 false s
/-- SLTU (R120). -/
def execSltu (d a b : SReg) (s : State) : Host.Outcome State Fault Refusal := salu (fun x y => flagWord (x < y)) d a b 1 false s
/-- SEQ (R120). -/
def execSeq (d a b : SReg) (s : State) : Host.Outcome State Fault Refusal := salu (fun x y => flagWord (x = y)) d a b 1 false s
/-- SNE (R120). -/
def execSne (d a b : SReg) (s : State) : Host.Outcome State Fault Refusal := salu (fun x y => flagWord (x != y)) d a b 1 false s
/-- MUL (R120). -/
def execMul (d a b : SReg) (s : State) : Host.Outcome State Fault Refusal := salu (fun x y => x * y) d a b 4 false s
/-- MULH (R120). -/
def execMulh (d a b : SReg) (s : State) : Host.Outcome State Fault Refusal := salu (fun x y => mulHigh x y) d a b 4 false s
/-- MULHU (R120). -/
def execMulhu (d a b : SReg) (s : State) : Host.Outcome State Fault Refusal := salu (fun x y => mulHighU x y) d a b 4 false s
/-- DIV (R24, R119, R120). -/
def execDiv (d a b : SReg) (s : State) : Host.Outcome State Fault Refusal := salu (fun x y => divS x y) d a b 34 true s
/-- DIVU (R24, R119, R120). -/
def execDivu (d a b : SReg) (s : State) : Host.Outcome State Fault Refusal := salu (fun x y => divU x y) d a b 34 true s
/-- REM (R24, R119, R120). -/
def execRem (d a b : SReg) (s : State) : Host.Outcome State Fault Refusal := salu (fun x y => remS x y) d a b 34 true s
/-- REMU (R24, R119, R120). -/
def execRemu (d a b : SReg) (s : State) : Host.Outcome State Fault Refusal := salu (fun x y => remU x y) d a b 34 true s
/-- CLZ (R120). -/
def execClz (d a : SReg) (s : State) : Host.Outcome State Fault Refusal := scalar1 (fun x => BitVec.ofNat 64 (leadingZeros x)) d a 4 s
/-- POPC (R120). -/
def execPopc (d a : SReg) (s : State) : Host.Outcome State Fault Refusal := scalar1 (fun x => BitVec.ofNat 64 (Machine.popc x)) d a 4 s

/-- A SALUI member: v is the immediate of R97 (R121). -/
def salui (f : Word → Word → Word) (d a : SReg) (i : BitVec 10) (x : Option (BitVec 25)) (s : State) :
    Host.Outcome State Fault Refusal := scalar1 (fun y => f y (immValue i x)) d a (lenX x) s

/-- ADDI (R121). -/
def execAddi (d a : SReg) (i : BitVec 10) (x : Option (BitVec 25)) (s : State) : Host.Outcome State Fault Refusal :=
  salui (fun x v => x + v) d a i x s
/-- ANDI (R121). -/
def execAndi (d a : SReg) (i : BitVec 10) (x : Option (BitVec 25)) (s : State) : Host.Outcome State Fault Refusal :=
  salui (fun x v => x &&& v) d a i x s
/-- ORI (R121). -/
def execOri (d a : SReg) (i : BitVec 10) (x : Option (BitVec 25)) (s : State) : Host.Outcome State Fault Refusal :=
  salui (fun x v => x ||| v) d a i x s
/-- XORI (R121). -/
def execXori (d a : SReg) (i : BitVec 10) (x : Option (BitVec 25)) (s : State) : Host.Outcome State Fault Refusal :=
  salui (fun x v => x ^^^ v) d a i x s
/-- SHLI (R121). -/
def execShli (d a : SReg) (i : BitVec 10) (x : Option (BitVec 25)) (s : State) : Host.Outcome State Fault Refusal :=
  salui (fun x v => x <<< (v.toNat % 64)) d a i x s
/-- SHRI (R121). -/
def execShri (d a : SReg) (i : BitVec 10) (x : Option (BitVec 25)) (s : State) : Host.Outcome State Fault Refusal :=
  salui (fun x v => x >>> (v.toNat % 64)) d a i x s
/-- SRAI (R121). -/
def execSrai (d a : SReg) (i : BitVec 10) (x : Option (BitVec 25)) (s : State) : Host.Outcome State Fault Refusal :=
  salui (fun x v => x.sshiftRight (v.toNat % 64)) d a i x s
/-- SLTI (R121). -/
def execSlti (d a : SReg) (i : BitVec 10) (x : Option (BitVec 25)) (s : State) : Host.Outcome State Fault Refusal :=
  salui (fun x v => flagWord (x.slt v)) d a i x s
/-- SLI (R122). -/
def sliNeed (d : SReg) (x : Option (BitVec 25)) : Need := { dst := [d.toNat], len := lenX x }
def execSli (d : SReg) (i : BitVec 19) (x : Option (BitVec 25)) (s : State) : Host.Outcome State Fault Refusal :=
  issue (sliNeed d x) (fun c s => .done (s.sset c.a d.toNat (immValue i x))) s

/-- BR: to seq + 2 × v when the condition holds (R123). -/
def branchNeed (a : SReg) (x : Option (BitVec 25)) : Need := { src := [a.toNat], len := lenX x }
def branch (cond : Word → Bool) (a : SReg) (o : BitVec 16) (x : Option (BitVec 25)) (s : State) :
    Host.Outcome State Fault Refusal :=
  issue (branchNeed a x) (fun c s =>
    .jump s (if cond (c.get s a.toNat) then target c.pc o x else c.next)) s

/-- BR.EQZ (R123). -/
def execBrEqz (a : SReg) (o : BitVec 16) (x : Option (BitVec 25)) (s : State) : Host.Outcome State Fault Refusal :=
  branch (fun x => x = 0) a o x s
/-- BR.NEZ (R123). -/
def execBrNez (a : SReg) (o : BitVec 16) (x : Option (BitVec 25)) (s : State) : Host.Outcome State Fault Refusal :=
  branch (fun x => x != 0) a o x s
/-- BR.LTZ (R123). -/
def execBrLtz (a : SReg) (o : BitVec 16) (x : Option (BitVec 25)) (s : State) : Host.Outcome State Fault Refusal :=
  branch (fun x => x.slt 0) a o x s
/-- BR.GEZ (R123). -/
def execBrGez (a : SReg) (o : BitVec 16) (x : Option (BitVec 25)) (s : State) : Host.Outcome State Fault Refusal :=
  branch (fun x => !x.slt 0) a o x s
/-- BR.GTZ (R123). -/
def execBrGtz (a : SReg) (o : BitVec 16) (x : Option (BitVec 25)) (s : State) : Host.Outcome State Fault Refusal :=
  branch (fun x => (0 : Word).slt x) a o x s
/-- BR.LEZ (R123). -/
def execBrLez (a : SReg) (o : BitVec 16) (x : Option (BitVec 25)) (s : State) : Host.Outcome State Fault Refusal :=
  branch (fun x => !(0 : Word).slt x) a o x s
/-- JMP (R123). -/
def jmpNeed (x : Option (BitVec 25)) : Need := { len := lenX x }
def execJmp (o : BitVec 25) (x : Option (BitVec 25)) (s : State) : Host.Outcome State Fault Refusal :=
  issue (jmpNeed x) (fun c s => .jump s (target c.pc o x)) s
/-- CALL: s63 receives the address of the next sequence (R123). -/
def callNeed (x : Option (BitVec 25)) : Need := { dst := [63], len := lenX x }
def execCall (o : BitVec 25) (x : Option (BitVec 25)) (s : State) : Host.Outcome State Fault Refusal :=
  issue (callNeed x) (fun c s => .jump (s.sput c.a 63 c.next) (target c.pc o x)) s

/-- A branch to an address held in a register: an odd one traps MISALIGN with nothing changed (R124). -/
def jumpTo (s : State) (t : Word) (link : State → State) : Act :=
  if t.getLsbD 0 then .trap 0x03 t else .jump (link s) t
/-- JR (R124). -/
def jrNeed (a : SReg) : Need := { src := [a.toNat] }
def execJr (a : SReg) (s : State) : Host.Outcome State Fault Refusal :=
  issue (jrNeed a) (fun c s => jumpTo s (c.get s a.toNat) id) s
/-- CALLR: the target is read before the link is written (R124). -/
def callrNeed (a : SReg) : Need := { src := [a.toNat], dst := [63] }
def execCallr (a : SReg) (s : State) : Host.Outcome State Fault Refusal :=
  issue (callrNeed a) (fun c s => jumpTo s (c.get s a.toNat) (fun s => s.sput c.a 63 c.next)) s
/-- RET: to the address in s63 (R124). -/
def retNeed : Need := { src := [63] }
def execRet (s : State) : Host.Outcome State Fault Refusal := issue retNeed (fun c s => jumpTo s (c.get s 63) id) s

end Sys2Proof.Machine
end

