-- ==== Sys2Proof/Machine/Dispatch.lean ====
section
/-!
DEFINITION. What each instruction and each step of the machine does: one arm a constructor.
-/

namespace Sys2Proof.Machine

def exec (i : Instr) (s : State) : Host.Outcome State Fault Refusal :=
  match i with
  | .stackTrap => Sys2Proof.Machine.execStackTrap s
  | .reconvergence => Sys2Proof.Machine.execReconvergence s
  | .loadComplete id u => Sys2Proof.Machine.execLoadComplete id u s
  | .l2Fill id g => Sys2Proof.Machine.execL2Fill id g s
  | .translate id => Sys2Proof.Machine.execTranslate id s
  | .walkComplete id => Sys2Proof.Machine.execWalkComplete id s
  | .fetchMiss m => Sys2Proof.Machine.execFetchMiss m s
  | .fetchFill id u => Sys2Proof.Machine.execFetchFill id u s
  | .dbell core names pa data => Sys2Proof.Machine.execDbell core names pa data s
  | .launchArrival vi q => Sys2Proof.Machine.execLaunchArrival vi q s
  | .eligibilityCheck => Sys2Proof.Machine.execEligibilityCheck s
  | .graphActivate id => Sys2Proof.Machine.execGraphActivate id s
  | .placementDecision p => Sys2Proof.Machine.execPlacementDecision p s
  | .discardComplete wg => Sys2Proof.Machine.execDiscardComplete wg s
  | .graceExpiry wg => Sys2Proof.Machine.execGraceExpiry wg s
  | .suspendedRestore wg => Sys2Proof.Machine.execSuspendedRestore wg s
  | .nodeFlush graph node => Sys2Proof.Machine.execNodeFlush graph node s
  | .windowEvaluation c => Sys2Proof.Machine.execWindowEvaluation c s
  | .keepingEnd core => Sys2Proof.Machine.execKeepingEnd core s
  | .matrixAdmit c => Sys2Proof.Machine.execMatrixAdmit c s
  | .passEnd c cell => Sys2Proof.Machine.execPassEnd c cell s
  | .mmaComplete c op u => Sys2Proof.Machine.execMmaComplete c op u s
  | .sequencerEnqueue t => Sys2Proof.Machine.execSequencerEnqueue t s
  | .engineComplete id => Sys2Proof.Machine.execEngineComplete id s
  | .nodeFire c n => Sys2Proof.Machine.execNodeFire c n s
  | .nodeComplete c n => Sys2Proof.Machine.execNodeComplete c n s
  | .collStep wg => Sys2Proof.Machine.execCollStep wg s
  | .collAbort wg reason => Sys2Proof.Machine.execCollAbort wg reason s
  | .mergeCommit die => Sys2Proof.Machine.execMergeCommit die s
  | .stkcfgWrite c v => Sys2Proof.Machine.execStkcfgWrite c v s
  | .chrycfgWrite die v => Sys2Proof.Machine.execChrycfgWrite die v s
  | .accownerWrite c v => Sys2Proof.Machine.execAccownerWrite c v s
  | .accliveWrite c h v => Sys2Proof.Machine.execAccliveWrite c h v s
  | .preempt p tag vi launch => Sys2Proof.Machine.execPreempt p tag vi launch s
  | .savereg p tag vi asid pa => Sys2Proof.Machine.execSavereg p tag vi asid pa s
  | .vienable p tag vi en => Sys2Proof.Machine.execVienable p tag vi en s
  | .stop p tag name => Sys2Proof.Machine.execStop p tag name s
  | .replay p tag name => Sys2Proof.Machine.execReplay p tag name s
  | .setgrace p tag us => Sys2Proof.Machine.execSetgrace p tag us s
  | .vminread p tag region layer clear => Sys2Proof.Machine.execVminread p tag region layer clear s
  | .viwrite p tag vi pa => Sys2Proof.Machine.execViwrite p tag vi pa s
  | .viread p tag vi pa => Sys2Proof.Machine.execViread p tag vi pa s
  | .reservedCommand p tag code => Sys2Proof.Machine.execReservedCommand p tag code s
  | .sessionOpen vi o => Sys2Proof.Machine.execSessionOpen vi o s
  | .purge vi e => Sys2Proof.Machine.execPurge vi e s
  | .resume vi e => Sys2Proof.Machine.execResume vi e s
  | .fotset vi e => Sys2Proof.Machine.execFotset vi e s
  | .sample unit => Sys2Proof.Machine.execSample unit s
  | .limitDrain unit bank => Sys2Proof.Machine.execLimitDrain unit bank s
  | .tableDrain unit => Sys2Proof.Machine.execTableDrain unit s
  | .dataFlit port f => Sys2Proof.Machine.execDataFlit port f s
  | .ackFlit port f => Sys2Proof.Machine.execAckFlit port f s
  | .nakFlit port f => Sys2Proof.Machine.execNakFlit port f s
  | .idleFlit port f => Sys2Proof.Machine.execIdleFlit port f s
  | .write port h rva xid poison data => Sys2Proof.Machine.execWrite port h rva xid poison data s
  | .caddPacket port h rva v xid => Sys2Proof.Machine.execCaddPacket port h rva v xid s
  | .csetPacket port h rva v xid => Sys2Proof.Machine.execCsetPacket port h rva v xid s
  | .cmax port h rva v xid => Sys2Proof.Machine.execCmax port h rva v xid s
  | .ack port h xid status => Sys2Proof.Machine.execAck port h xid status s
  | .undeliv port h dropped xid reason time => Sys2Proof.Machine.execUndeliv port h dropped xid reason time s
  | .linkdown port h dev down reason time => Sys2Proof.Machine.execLinkdown port h dev down reason time s
  | .rtwrite port h index rid data => Sys2Proof.Machine.execRtwrite port h index rid data s
  | .rtread port h index rid data => Sys2Proof.Machine.execRtread port h index rid data s
  | .rtreada port h index rid data => Sys2Proof.Machine.execRtreada port h index rid data s
  | .keywrite port h index rid data => Sys2Proof.Machine.execKeywrite port h index rid data s
  | .keyread port h index rid data => Sys2Proof.Machine.execKeyread port h index rid data s
  | .commit port h index rid data => Sys2Proof.Machine.execCommit port h index rid data s
  | .subwrite port h index rid data => Sys2Proof.Machine.execSubwrite port h index rid data s
  | .subread port h index rid data => Sys2Proof.Machine.execSubread port h index rid data s
  | .portdown port h index rid data => Sys2Proof.Machine.execPortdown port h index rid data s
  | .portDown port reason => Sys2Proof.Machine.execPortDown port reason s
  | .undeliverableTimeout xid => Sys2Proof.Machine.execUndeliverableTimeout xid s
  | .orderedHoldExpiry src flow => Sys2Proof.Machine.execOrderedHoldExpiry src flow s
  | .undervoltage region layer mv => Sys2Proof.Machine.execUndervoltage region layer mv s
  | .regulatorFault region layer mv => Sys2Proof.Machine.execRegulatorFault region layer mv s
  | .deviceReset => Sys2Proof.Machine.execDeviceReset s
  | .verify => Sys2Proof.Machine.execVerify s
  | .memtrain failed => Sys2Proof.Machine.execMemtrain failed s
  | .lanemap r => Sys2Proof.Machine.execLanemap r s
  | .firmwareUpdate image => Sys2Proof.Machine.execFirmwareUpdate image s
  | .partitionMapWrite image => Sys2Proof.Machine.execPartitionMapWrite image s
  | .illegalSequence sub val => Sys2Proof.Machine.execIllegalSequence sub val s
  | .clk => Sys2Proof.Machine.execClk s
  | .storePerformed id u => Sys2Proof.Machine.execStorePerformed id u s
  | .ringHeadAdvance vi asid => Sys2Proof.Machine.execRingHeadAdvance vi asid s
  | .bandwidthWindow die => Sys2Proof.Machine.execBandwidthWindow die s
  | .voltageMinimum region layer mv => Sys2Proof.Machine.execVoltageMinimum region layer mv s
  | .add d a b => Sys2Proof.Machine.execAdd d a b s
  | .sub d a b => Sys2Proof.Machine.execSub d a b s
  | .and d a b => Sys2Proof.Machine.execAnd d a b s
  | .or d a b => Sys2Proof.Machine.execOr d a b s
  | .xor d a b => Sys2Proof.Machine.execXor d a b s
  | .shl d a b => Sys2Proof.Machine.execShl d a b s
  | .shr d a b => Sys2Proof.Machine.execShr d a b s
  | .sra d a b => Sys2Proof.Machine.execSra d a b s
  | .min d a b => Sys2Proof.Machine.execMin d a b s
  | .max d a b => Sys2Proof.Machine.execMax d a b s
  | .minu d a b => Sys2Proof.Machine.execMinu d a b s
  | .maxu d a b => Sys2Proof.Machine.execMaxu d a b s
  | .slt d a b => Sys2Proof.Machine.execSlt d a b s
  | .sltu d a b => Sys2Proof.Machine.execSltu d a b s
  | .seq d a b => Sys2Proof.Machine.execSeq d a b s
  | .sne d a b => Sys2Proof.Machine.execSne d a b s
  | .mul d a b => Sys2Proof.Machine.execMul d a b s
  | .mulh d a b => Sys2Proof.Machine.execMulh d a b s
  | .mulhu d a b => Sys2Proof.Machine.execMulhu d a b s
  | .div d a b => Sys2Proof.Machine.execDiv d a b s
  | .divu d a b => Sys2Proof.Machine.execDivu d a b s
  | .rem d a b => Sys2Proof.Machine.execRem d a b s
  | .remu d a b => Sys2Proof.Machine.execRemu d a b s
  | .clz d a => Sys2Proof.Machine.execClz d a s
  | .popc d a => Sys2Proof.Machine.execPopc d a s
  | .addi d a imm x => Sys2Proof.Machine.execAddi d a imm x s
  | .andi d a imm x => Sys2Proof.Machine.execAndi d a imm x s
  | .ori d a imm x => Sys2Proof.Machine.execOri d a imm x s
  | .xori d a imm x => Sys2Proof.Machine.execXori d a imm x s
  | .shli d a imm x => Sys2Proof.Machine.execShli d a imm x s
  | .shri d a imm x => Sys2Proof.Machine.execShri d a imm x s
  | .srai d a imm x => Sys2Proof.Machine.execSrai d a imm x s
  | .slti d a imm x => Sys2Proof.Machine.execSlti d a imm x s
  | .sli d imm x => Sys2Proof.Machine.execSli d imm x s
  | .brEqz a o x => Sys2Proof.Machine.execBrEqz a o x s
  | .brNez a o x => Sys2Proof.Machine.execBrNez a o x s
  | .brLtz a o x => Sys2Proof.Machine.execBrLtz a o x s
  | .brGez a o x => Sys2Proof.Machine.execBrGez a o x s
  | .brGtz a o x => Sys2Proof.Machine.execBrGtz a o x s
  | .brLez a o x => Sys2Proof.Machine.execBrLez a o x s
  | .jmp o x => Sys2Proof.Machine.execJmp o x s
  | .call o x => Sys2Proof.Machine.execCall o x s
  | .jr a => Sys2Proof.Machine.execJr a s
  | .callr a => Sys2Proof.Machine.execCallr a s
  | .ret => Sys2Proof.Machine.execRet s
  | .vbr k t j => Sys2Proof.Machine.execVbr k t j s
  | .vbrN k t j => Sys2Proof.Machine.execVbrN k t j s
  | .kbrAny k o x => Sys2Proof.Machine.execKbrAny k o x s
  | .kbrAll k o x => Sys2Proof.Machine.execKbrAll k o x s
  | .kbrNone k o x => Sys2Proof.Machine.execKbrNone k o x s
  | .nop => Sys2Proof.Machine.execNop s
  | .srd d n => Sys2Proof.Machine.execSrd d n s
  | .swr n a => Sys2Proof.Machine.execSwr n a s
  | .trap a => Sys2Proof.Machine.execTrap a s
  | .eret => Sys2Proof.Machine.execEret s
  | .bkpt => Sys2Proof.Machine.execBkpt s
  | .yield => Sys2Proof.Machine.execYield s
  | .exit => Sys2Proof.Machine.execExit s
  | .setfmt d a => Sys2Proof.Machine.execSetfmt d a s
  | .scfg a h => Sys2Proof.Machine.execScfg a h s
  | .waitcyc a => Sys2Proof.Machine.execWaitcyc a s
  | .barInit n a => Sys2Proof.Machine.execBarInit n a s
  | .barArrive d n rlx => Sys2Proof.Machine.execBarArrive d n rlx s
  | .barWait d n a => Sys2Proof.Machine.execBarWait d n a s
  | .barAw d n rlx => Sys2Proof.Machine.execBarAw d n rlx s
  | .barTest d n a => Sys2Proof.Machine.execBarTest d n a s
  | .barExpect n a post => Sys2Proof.Machine.execBarExpect n a post s
  | .fenceX a => Sys2Proof.Machine.execFenceX a s
  | .fenceS a sc => Sys2Proof.Machine.execFenceS a sc s
  | .qbind p a => Sys2Proof.Machine.execQbind p a s
  | .qtry d p => Sys2Proof.Machine.execQtry d p s
  | .qstat d p => Sys2Proof.Machine.execQstat d p s
  | .region => Sys2Proof.Machine.execRegion s
  | .rclose => Sys2Proof.Machine.execRclose s
  | .vfpFadd t d a b p => Sys2Proof.Machine.execVfpFadd t d a b p s
  | .vfpFsub t d a b p => Sys2Proof.Machine.execVfpFsub t d a b p s
  | .vfpFmul t d a b p => Sys2Proof.Machine.execVfpFmul t d a b p s
  | .vfpFmin t d a b p => Sys2Proof.Machine.execVfpFmin t d a b p s
  | .vfpFmax t d a b p => Sys2Proof.Machine.execVfpFmax t d a b p s
  | .vfpFabs t d a p => Sys2Proof.Machine.execVfpFabs t d a p s
  | .vfpFneg t d a p => Sys2Proof.Machine.execVfpFneg t d a p s
  | .vfpFcpysgn t d a b p => Sys2Proof.Machine.execVfpFcpysgn t d a b p s
  | .fma t d a b p => Sys2Proof.Machine.execFma t d a b p s
  | .fms t d a b p => Sys2Proof.Machine.execFms t d a b p s
  | .nfma t d a b p => Sys2Proof.Machine.execNfma t d a b p s
  | .nfms t d a b p => Sys2Proof.Machine.execNfms t d a b p s
  | .vfpsFadd t d a b p => Sys2Proof.Machine.execVfpsFadd t d a b p s
  | .vfpsFsub t d a b p => Sys2Proof.Machine.execVfpsFsub t d a b p s
  | .vfpsFmul t d a b p => Sys2Proof.Machine.execVfpsFmul t d a b p s
  | .vfpsFmin t d a b p => Sys2Proof.Machine.execVfpsFmin t d a b p s
  | .vfpsFmax t d a b p => Sys2Proof.Machine.execVfpsFmax t d a b p s
  | .vfpsFcpysgn t d a b p => Sys2Proof.Machine.execVfpsFcpysgn t d a b p s
  | .vintAdd d a b p => Sys2Proof.Machine.execVintAdd d a b p s
  | .vintSub d a b p => Sys2Proof.Machine.execVintSub d a b p s
  | .vintMullo d a b p => Sys2Proof.Machine.execVintMullo d a b p s
  | .vintMulhiS d a b p => Sys2Proof.Machine.execVintMulhiS d a b p s
  | .vintMulhiU d a b p => Sys2Proof.Machine.execVintMulhiU d a b p s
  | .vintAnd d a b p => Sys2Proof.Machine.execVintAnd d a b p s
  | .vintOr d a b p => Sys2Proof.Machine.execVintOr d a b p s
  | .vintXor d a b p => Sys2Proof.Machine.execVintXor d a b p s
  | .vintAndn d a b p => Sys2Proof.Machine.execVintAndn d a b p s
  | .vintShl d a b p => Sys2Proof.Machine.execVintShl d a b p s
  | .vintShr d a b p => Sys2Proof.Machine.execVintShr d a b p s
  | .vintSra d a b p => Sys2Proof.Machine.execVintSra d a b p s
  | .vintMinS d a b p => Sys2Proof.Machine.execVintMinS d a b p s
  | .vintMaxS d a b p => Sys2Proof.Machine.execVintMaxS d a b p s
  | .vintMinU d a b p => Sys2Proof.Machine.execVintMinU d a b p s
  | .vintMaxU d a b p => Sys2Proof.Machine.execVintMaxU d a b p s
  | .vintAbs d a p => Sys2Proof.Machine.execVintAbs d a p s
  | .vintClz d a p => Sys2Proof.Machine.execVintClz d a p s
  | .vintPopc d a p => Sys2Proof.Machine.execVintPopc d a p s
  | .vintBrev d a p => Sys2Proof.Machine.execVintBrev d a p s
  | .vintsAdd d a b p => Sys2Proof.Machine.execVintsAdd d a b p s
  | .vintsSub d a b p => Sys2Proof.Machine.execVintsSub d a b p s
  | .vintsMullo d a b p => Sys2Proof.Machine.execVintsMullo d a b p s
  | .vintsMulhiS d a b p => Sys2Proof.Machine.execVintsMulhiS d a b p s
  | .vintsMulhiU d a b p => Sys2Proof.Machine.execVintsMulhiU d a b p s
  | .vintsAnd d a b p => Sys2Proof.Machine.execVintsAnd d a b p s
  | .vintsOr d a b p => Sys2Proof.Machine.execVintsOr d a b p s
  | .vintsXor d a b p => Sys2Proof.Machine.execVintsXor d a b p s
  | .vintsAndn d a b p => Sys2Proof.Machine.execVintsAndn d a b p s
  | .vintsShl d a b p => Sys2Proof.Machine.execVintsShl d a b p s
  | .vintsShr d a b p => Sys2Proof.Machine.execVintsShr d a b p s
  | .vintsSra d a b p => Sys2Proof.Machine.execVintsSra d a b p s
  | .vintsMinS d a b p => Sys2Proof.Machine.execVintsMinS d a b p s
  | .vintsMaxS d a b p => Sys2Proof.Machine.execVintsMaxS d a b p s
  | .vintsMinU d a b p => Sys2Proof.Machine.execVintsMinU d a b p s
  | .vintsMaxU d a b p => Sys2Proof.Machine.execVintsMaxU d a b p s
  | .vintiAddi d a imm p x => Sys2Proof.Machine.execVintiAddi d a imm p x s
  | .vintiAndi d a imm p x => Sys2Proof.Machine.execVintiAndi d a imm p x s
  | .vintiOri d a imm p x => Sys2Proof.Machine.execVintiOri d a imm p x s
  | .vintiXori d a imm p x => Sys2Proof.Machine.execVintiXori d a imm p x s
  | .vintiShli d a imm p x => Sys2Proof.Machine.execVintiShli d a imm p x s
  | .vintiShri d a imm p x => Sys2Proof.Machine.execVintiShri d a imm p x s
  | .vintiSrai d a imm p x => Sys2Proof.Machine.execVintiSrai d a imm p x s
  | .vintiMuli d a imm p x => Sys2Proof.Machine.execVintiMuli d a imm p x s
  | .vcmpEqS32 d a b p => Sys2Proof.Machine.execVcmpEqS32 d a b p s
  | .vcmpNeS32 d a b p => Sys2Proof.Machine.execVcmpNeS32 d a b p s
  | .vcmpLtS32 d a b p => Sys2Proof.Machine.execVcmpLtS32 d a b p s
  | .vcmpLeS32 d a b p => Sys2Proof.Machine.execVcmpLeS32 d a b p s
  | .vcmpGtS32 d a b p => Sys2Proof.Machine.execVcmpGtS32 d a b p s
  | .vcmpGeS32 d a b p => Sys2Proof.Machine.execVcmpGeS32 d a b p s
  | .vcmpEqU32 d a b p => Sys2Proof.Machine.execVcmpEqU32 d a b p s
  | .vcmpNeU32 d a b p => Sys2Proof.Machine.execVcmpNeU32 d a b p s
  | .vcmpLtU32 d a b p => Sys2Proof.Machine.execVcmpLtU32 d a b p s
  | .vcmpLeU32 d a b p => Sys2Proof.Machine.execVcmpLeU32 d a b p s
  | .vcmpGtU32 d a b p => Sys2Proof.Machine.execVcmpGtU32 d a b p s
  | .vcmpGeU32 d a b p => Sys2Proof.Machine.execVcmpGeU32 d a b p s
  | .vcmpEqF32 d a b p => Sys2Proof.Machine.execVcmpEqF32 d a b p s
  | .vcmpNeF32 d a b p => Sys2Proof.Machine.execVcmpNeF32 d a b p s
  | .vcmpLtF32 d a b p => Sys2Proof.Machine.execVcmpLtF32 d a b p s
  | .vcmpLeF32 d a b p => Sys2Proof.Machine.execVcmpLeF32 d a b p s
  | .vcmpGtF32 d a b p => Sys2Proof.Machine.execVcmpGtF32 d a b p s
  | .vcmpGeF32 d a b p => Sys2Proof.Machine.execVcmpGeF32 d a b p s
  | .vcmpUnord d a b p => Sys2Proof.Machine.execVcmpUnord d a b p s
  | .rcp d a p => Sys2Proof.Machine.execRcp d a p s
  | .rsq d a p => Sys2Proof.Machine.execRsq d a p s
  | .sqrt d a p => Sys2Proof.Machine.execSqrt d a p s
  | .ex2 d a p => Sys2Proof.Machine.execEx2 d a p s
  | .lg2 d a p => Sys2Proof.Machine.execLg2 d a p s
  | .sin d a p => Sys2Proof.Machine.execSin d a p s
  | .cos d a p => Sys2Proof.Machine.execCos d a p s
  | .tanh d a p => Sys2Proof.Machine.execTanh d a p s
  | .vcvtF32S32 d a p => Sys2Proof.Machine.execVcvtF32S32 d a p s
  | .vcvtF32U32 d a p => Sys2Proof.Machine.execVcvtF32U32 d a p s
  | .vcvtS32F32 d a p => Sys2Proof.Machine.execVcvtS32F32 d a p s
  | .vcvtU32F32 d a p => Sys2Proof.Machine.execVcvtU32F32 d a p s
  | .vcvtBf16F32 d a b p => Sys2Proof.Machine.execVcvtBf16F32 d a b p s
  | .vcvtF16F32 d a b p => Sys2Proof.Machine.execVcvtF16F32 d a b p s
  | .vcvtF32Bf16 d a e p => Sys2Proof.Machine.execVcvtF32Bf16 d a e p s
  | .vcvtF32F16 d a e p => Sys2Proof.Machine.execVcvtF32F16 d a e p s
  | .vcvtSxF32 d a p => Sys2Proof.Machine.execVcvtSxF32 d a p s
  | .vcvtF32Sx d a p => Sys2Proof.Machine.execVcvtF32Sx d a p s
  | .vredFadd d a p => Sys2Proof.Machine.execVredFadd d a p s
  | .vredFmin d a p => Sys2Proof.Machine.execVredFmin d a p s
  | .vredFmax d a p => Sys2Proof.Machine.execVredFmax d a p s
  | .vredIadd d a p => Sys2Proof.Machine.execVredIadd d a p s
  | .vredIminS d a p => Sys2Proof.Machine.execVredIminS d a p s
  | .vredImaxS d a p => Sys2Proof.Machine.execVredImaxS d a p s
  | .vscanFadd d a b p => Sys2Proof.Machine.execVscanFadd d a b p s
  | .vscanIadd d a b p => Sys2Proof.Machine.execVscanIadd d a b p s
  | .vcompact d a b p => Sys2Proof.Machine.execVcompact d a b p s
  | .vexpand d a p => Sys2Proof.Machine.execVexpand d a p s
  | .vsel d a b p => Sys2Proof.Machine.execVsel d a b p s
  | .vperm d a b p => Sys2Proof.Machine.execVperm d a b p s
  | .kand d a b p => Sys2Proof.Machine.execKand d a b p s
  | .kor d a b p => Sys2Proof.Machine.execKor d a b p s
  | .kxor d a b p => Sys2Proof.Machine.execKxor d a b p s
  | .kandn d a b p => Sys2Proof.Machine.execKandn d a b p s
  | .knot d a p => Sys2Proof.Machine.execKnot d a p s
  | .kmov d a p => Sys2Proof.Machine.execKmov d a p s
  | .k2s d a n p => Sys2Proof.Machine.execK2s d a n p s
  | .s2k d a n p => Sys2Proof.Machine.execS2k d a n p s
  | .kpopc d a p => Sys2Proof.Machine.execKpopc d a p s
  | .kfirst d a p => Sys2Proof.Machine.execKfirst d a p s
  | .vmov d a p => Sys2Proof.Machine.execVmov d a p s
  | .vsplat d a p => Sys2Proof.Machine.execVsplat d a p s
  | .vext d a b p => Sys2Proof.Machine.execVext d a b p s
  | .vins d a b p => Sys2Proof.Machine.execVins d a b p s
  | .vlaneid d p => Sys2Proof.Machine.execVlaneid d p s
  | .viota d p => Sys2Proof.Machine.execViota d p s
  | .vaddF32Compact d b => Sys2Proof.Machine.execVaddF32Compact d b s
  | .vsubF32Compact d b => Sys2Proof.Machine.execVsubF32Compact d b s
  | .vmulF32Compact d b => Sys2Proof.Machine.execVmulF32Compact d b s
  | .vmaxF32Compact d b => Sys2Proof.Machine.execVmaxF32Compact d b s
  | .vminF32Compact d b => Sys2Proof.Machine.execVminF32Compact d b s
  | .vaddI32Compact d b => Sys2Proof.Machine.execVaddI32Compact d b s
  | .vsubI32Compact d b => Sys2Proof.Machine.execVsubI32Compact d b s
  | .vandCompact d b => Sys2Proof.Machine.execVandCompact d b s
  | .vorCompact d b => Sys2Proof.Machine.execVorCompact d b s
  | .vxorCompact d b => Sys2Proof.Machine.execVxorCompact d b s
  | .vshlCompact d b => Sys2Proof.Machine.execVshlCompact d b s
  | .vshrU32Compact d b => Sys2Proof.Machine.execVshrU32Compact d b s
  | .vmulLoCompact d b => Sys2Proof.Machine.execVmulLoCompact d b s
  | .vmaxS32Compact d b => Sys2Proof.Machine.execVmaxS32Compact d b s
  | .vminS32Compact d b => Sys2Proof.Machine.execVminS32Compact d b s
  | .vmovCompact d b => Sys2Proof.Machine.execVmovCompact d b s
  | .vld d r x st z e => Sys2Proof.Machine.execVld d r x st z e s
  | .vst d r x st z e => Sys2Proof.Machine.execVst d r x st z e s
  | .vlda d r x st z e => Sys2Proof.Machine.execVlda d r x st z e s
  | .vstr d r x st z e => Sys2Proof.Machine.execVstr d r x st z e s
  | .sld d r x st z e => Sys2Proof.Machine.execSld d r x st z e s
  | .sst d r x st z e => Sys2Proof.Machine.execSst d r x st z e s
  | .slda d r x st z e => Sys2Proof.Machine.execSlda d r x st z e s
  | .sstr d r x st z e => Sys2Proof.Machine.execSstr d r x st z e s
  | .vatomAdd d r x st e => Sys2Proof.Machine.execVatomAdd d r x st e s
  | .vatomAnd d r x st e => Sys2Proof.Machine.execVatomAnd d r x st e s
  | .vatomOr d r x st e => Sys2Proof.Machine.execVatomOr d r x st e s
  | .vatomXor d r x st e => Sys2Proof.Machine.execVatomXor d r x st e s
  | .vatomMinS d r x st e => Sys2Proof.Machine.execVatomMinS d r x st e s
  | .vatomMaxS d r x st e => Sys2Proof.Machine.execVatomMaxS d r x st e s
  | .vatomXchg d r x st e => Sys2Proof.Machine.execVatomXchg d r x st e s
  | .vatomCas d r x st e => Sys2Proof.Machine.execVatomCas d r x st e s
  | .vatomfFadd d r x st e => Sys2Proof.Machine.execVatomfFadd d r x st e s
  | .vatomfFmin d r x st e => Sys2Proof.Machine.execVatomfFmin d r x st e s
  | .vatomfFmax d r x st e => Sys2Proof.Machine.execVatomfFmax d r x st e s
  | .vatomfMinU d r x st e => Sys2Proof.Machine.execVatomfMinU d r x st e s
  | .vatomfMaxU d r x st e => Sys2Proof.Machine.execVatomfMaxU d r x st e s
  | .vatomfIncw d r x st e => Sys2Proof.Machine.execVatomfIncw d r x st e s
  | .vatomfDecw d r x st e => Sys2Proof.Machine.execVatomfDecw d r x st e s
  | .satomAdd d r x st e => Sys2Proof.Machine.execSatomAdd d r x st e s
  | .satomAnd d r x st e => Sys2Proof.Machine.execSatomAnd d r x st e s
  | .satomOr d r x st e => Sys2Proof.Machine.execSatomOr d r x st e s
  | .satomXor d r x st e => Sys2Proof.Machine.execSatomXor d r x st e s
  | .satomMinS d r x st e => Sys2Proof.Machine.execSatomMinS d r x st e s
  | .satomMaxS d r x st e => Sys2Proof.Machine.execSatomMaxS d r x st e s
  | .satomXchg d r x st e => Sys2Proof.Machine.execSatomXchg d r x st e s
  | .satomCas d r x st e => Sys2Proof.Machine.execSatomCas d r x st e s
  | .cachePfl1 r x st e => Sys2Proof.Machine.execCachePfl1 r x st e s
  | .cachePfl2 r x st e => Sys2Proof.Machine.execCachePfl2 r x st e s
  | .cacheWback r x st e => Sys2Proof.Machine.execCacheWback r x st e s
  | .cacheInval r x st e => Sys2Proof.Machine.execCacheInval r x st e s
  | .cacheWbinv r x st e => Sys2Proof.Machine.execCacheWbinv r x st e s
  | .cacheZline r x st e => Sys2Proof.Machine.execCacheZline r x st e s
  | .cpyl a b n z st => Sys2Proof.Machine.execCpyl a b n z st s
  | .tld d a n st => Sys2Proof.Machine.execTld d a n st s
  | .tst d a n st => Sys2Proof.Machine.execTst d a n st s
  | .tldw k a st => Sys2Proof.Machine.execTldw k a st s
  | .tzfill d n st => Sys2Proof.Machine.execTzfill d n st s
  | .binsc n a b st => Sys2Proof.Machine.execBinsc n a b st s
  | .binrst n b st => Sys2Proof.Machine.execBinrst n b st s
  | .cwait d a b st => Sys2Proof.Machine.execCwait d a b st s
  | .cadd a b st => Sys2Proof.Machine.execCadd a b st s
  | .cset a b st => Sys2Proof.Machine.execCset a b st s
  | .ctest d a b st => Sys2Proof.Machine.execCtest d a b st s
  | .allred t a n st => Sys2Proof.Machine.execAllred t a n st s
  | .redsc t a n st => Sys2Proof.Machine.execRedsc t a n st s
  | .allgat t a n st => Sys2Proof.Machine.execAllgat t a n st s
  | .bcast t a n st => Sys2Proof.Machine.execBcast t a n st s
  | .rcopy d a b n st => Sys2Proof.Machine.execRcopy d a b n st s
  | .bmopen d a b st => Sys2Proof.Machine.execBmopen d a b st s
  | .bmstage t a n st => Sys2Proof.Machine.execBmstage t a n st s
  | .bmclose d a b st => Sys2Proof.Machine.execBmclose d a b st s
  | .bmnorm d t b st => Sys2Proof.Machine.execBmnorm d t b st s
  | .bmadd d a b st => Sys2Proof.Machine.execBmadd d a b st s
  | .bmstat d a st => Sys2Proof.Machine.execBmstat d a st s
  | .emit d a n st => Sys2Proof.Machine.execEmit d a n st s
  | .node d c => Sys2Proof.Machine.execNode d c s
  | .nodeL d c b st => Sys2Proof.Machine.execNodeL d c b st s
  | .nedge d a => Sys2Proof.Machine.execNedge d a s
  | .nwait d a => Sys2Proof.Machine.execNwait d a s
  | .grab d b => Sys2Proof.Machine.execGrab d b s
  | .rset d a b => Sys2Proof.Machine.execRset d a b s
  | .rstat d b => Sys2Proof.Machine.execRstat d b s
  | .burn a => Sys2Proof.Machine.execBurn a s
  | .shunt d a => Sys2Proof.Machine.execShunt d a s
  | .rdmis d => Sys2Proof.Machine.execRdmis d s
  | .dcls a => Sys2Proof.Machine.execDcls a s
  | .tfeed m a b f sl p => Sys2Proof.Machine.execTfeed m a b f sl p s
  | .tdrain d n b p => Sys2Proof.Machine.execTdrain d n b p s
  | .mma n m k => Sys2Proof.Machine.execMma n m k s
  | .mmab n m k b => Sys2Proof.Machine.execMmab n m k b s
  | .tzero n => Sys2Proof.Machine.execTzero n s
  | .tcfg d a => Sys2Proof.Machine.execTcfg d a s
  | .accspill n a st => Sys2Proof.Machine.execAccspill n a st s
  | .accfill n a st => Sys2Proof.Machine.execAccfill n a st s
  | .accrel n c => Sys2Proof.Machine.execAccrel n c s
  | .acclive d h => Sys2Proof.Machine.execAcclive d h s
  | .tset n wd a => Sys2Proof.Machine.execTset n wd a s
  | .tget d n wd => Sys2Proof.Machine.execTget d n wd s
  | .tcopy d a => Sys2Proof.Machine.execTcopy d a s

end Sys2Proof.Machine
end

