-- ==== Sys2Proof/Machine/Step.lean ====
section
/-!
DEFINITION. One step of the machine: a step that is due, the attempt of the next agent in the order of R267 and R269, or the
end of the clk. Every event meaning is total; nothing here computes.
-/

namespace Sys2Proof.Machine

noncomputable section

/-- An agent's sequence with its queued STACK trap: the trap is taken in its place when it would issue (R64). -/
def runTrapping (i : Instr) (a : Agent) (s : State) : Host.Outcome State Fault Refusal :=
  match exec i s with
  | .next t => if (t.unit a.unit).issued then exec .stackTrap s else .next t
  | o => o

/-- A sequence of an agent: with a trap queued, or plain. -/
def runSeq (i : Instr) (a : Agent) (s : State) : Host.Outcome State Fault Refusal :=
  match (s.strand a).traps with
  | [] => exec i s
  | _ :: _ => runTrapping i a s

/-- A sequence whose line is missing is fetched; a wait of its operands that stands before FETCH is what it is charged (R118, R133,
R154). -/
def runMiss (i : Instr) (a : Agent) (s : State) : Host.Outcome State Fault Refusal :=
  match exec i s, s.peekSeq a with
  | .next t, some j =>
    match exec j (s.block a .fetch) with
    | .next u => .next (if (u.strand a).why.beforeFetch && !(u.unit a.unit).issued then t.block a (u.strand a).why else t)
    | _ => .next t
  | o, _ => o

/-- Bytes that are no sequence: checks 4 and 5 of the instruction in them come first (R360). -/
def runReject (sub : BitVec 8) (val : BitVec 48) (inner : Option Instr) (a : Agent) (s : State) :
    Host.Outcome State Fault Refusal :=
  match inner with
  | none => runSeq (.illegalSequence sub val) a s
  | some j =>
    match exec j (s.probed a) with
    | .next t =>
      match t.probeSub a with
      | some sub2 => runSeq (.illegalSequence sub2 (s.properValue a)) a s
      | none => runSeq (.illegalSequence sub val) a s
    | _ => runSeq (.illegalSequence sub val) a s

/-- The attempt of an agent. -/
def tryAgent (a : Agent) (s : State) : Host.Outcome State Fault Refusal :=
  match s.attempt a with
  | .idle t => .next t
  | .run (.fetchMiss m) t => runMiss (.fetchMiss m) a t
  | .run i t => runSeq i a t
  | .reject sub val inner t => runReject sub val inner a t

/-- ONE STEP. -/
def step (s : State) : Host.Outcome State Fault Refusal :=
  match s.due with
  | i :: r => exec i { s with due := r }
  | [] =>
    match s.turn with
    | .look a :: r =>
      match tryAgent a { s with turn := r } with
      | .next t => .next (({ s with turn := r } : State).noteLook a t)
      | o => o
    | .pick u :: r => .next (({ s with turn := r } : State).pickOn u)
    | .run a :: r => tryAgent a { s with turn := r }
    | [] => exec .clk s

/-- The agent that a placed instruction runs on: a control thread for the members that run only there (R102). -/
def agentFor (i : Option Instr) : Agent :=
  match i with
  | some (.mma ..) | some (.mmab ..) | some (.tzero ..) | some (.tcfg ..) | some (.accspill ..) | some (.accfill ..)
  | some (.accrel ..) | some (.acclive ..) | some (.node ..) | some (.nodeL ..) | some (.nedge ..) => .thread 0
  | _ => .split 0 0

/-- The instruction cache line that holds a program of one instruction at address 0x1000. -/
def placedLine (nbits w : Nat) : ILine :=
  { bytes := (List.range (nbits / 8)).map (fun k => BitVec.ofNat 8 (w / 256 ^ k)) ++ List.replicate (128 - nbits / 8) 0,
    marks := [], used := 1, bad := false }

/-- A control thread that runs the control program of workgroup 1. -/
def placedThread : Thread :=
  { Thread.reset with strand := Strand.start 0x1000 0, ctx := some (1, 0), wg := some 1 }

/-- A group of 64 registers with one split, all lanes active, in workgroup 1. -/
def placedGroup : Group :=
  { Group.blank with
    nreg := 64
    wg := 1
    splits := [(0, { strand := Strand.start 0x1000 0, ex := allOnes96, fmt := 0, flags := 0, nest := [], draw := 0,
                     drawNext := 0 })] }

/-- A program of one instruction placed and about to issue (log 11): the load and placement that bring a program to run are
taken as done. Workgroup 1 of launch 1 stands on core 0 with one group and a control program on thread 0; the line at 0x1000
of its unit's instruction cache holds the instruction, and its agent is next in the order of the clk. Log 11 (DESIGN CHOICE). -/
def State.withFetchWord (s : State) (nbits w : Nat) : State :=
  let a := agentFor (decodeTableWord nbits w)
  let key := lineKey (s.tagAsid 1 0 0x1000) 0x1000
  let s := { s with
    groups := tabPut s.groups 0 placedGroup
    threads := tabPut s.threads 0 placedThread
    wgs := tabPut s.wgs 1 { Workgroup.blank with launch := 1, vi := 1, groups := [some 0], keys := [0], ctl := some 0 }
    monarch := { s.monarch with
      launches := tabPut s.monarch.launches 1 { Launch.blank with id := 1, vi := 1, eligible := true, next := 1 } }
    mgmt := { s.mgmt with state := 4 }
    due := []
    turn := [.run a] }
  s.modUnit a.unit (fun u => { u with icache := tabPut u.icache key (placedLine nbits w), issued := false })

end

end Sys2Proof.Machine
end

