-- ==== Sys2Proof/Safety.lean ====
section
/-!
DEFINITION. What a safe run is, and the terms in which the statements speak: a sequence whose gate is open, and what an issue
leaves alone.
-/

namespace Sys2Proof

open Sys2Proof.Machine

/-- The memory of the state is in its canonical form. -/
def Safe (s : State) : Prop := Memory.wf s.mem = true

/-- The sequence of the agent `a` may issue in this clk: `a` is the agent that tries, it exists, and none of the waits and checks
that stand before an issue holds (R93, R118, R133, R154, R362); `c` is what the issue works with, and `t` the state once its queue
ports have popped. All of it is a function of the operands and the state. -/
def Opens (n : Need) (a : Agent) (s : State) (c : Ctx) (t : State) : Prop :=
  s.cur = some a ∧ s.alive a = true ∧ gate n a s = .go c t

/-- A group without what the model keeps of its issues: its pending list, its stall bank; its splits are seen apart. -/
def groupKept (x : Group) : Group := { x with pend := [], gstall := [], splits := [] }
/-- The banked registers of a split (R36) but its PC: EXEC, FMT, FPFLAGS, its joins. -/
def splitKept (x : Split) : Split := { x with strand := Strand.start 0 0, draw := 0, drawNext := 0 }
/-- The registers of a control thread but its PC. -/
def threadKept (x : Thread) : Thread := { x with strand := Strand.start 0 0, pend := [] }
/-- A cluster without its slot accounts and its turn bit: accumulators, feed slots, handles, queues, nodes, STKCFG, ACCOWNER. -/
def clusterKept (x : Cluster) : Cluster := { x with unit := CoreUnit.reset, turn := false }
/-- A workgroup without its slot totals and its pending list: barriers, its region. -/
def wgKept (x : Workgroup) : Workgroup := { x with totals := [], pend := [] }
/-- The management controller without the records of the slot accounts that wait for their rings, and the counts of sessions. -/
def mgmtKept (x : Mgmt) : Mgmt := { x with rings := [], sessions := [] }

/-- Everything but the registers of groups and threads, and the slot accounts, is as it was. -/
structure SameElsewhere (s t : State) : Prop where
  clk      : t.clk = s.clk
  mem      : t.mem = s.mem
  poison   : t.poison = s.poison ∧ t.poisonFrames = s.poisonFrames
  inFlight : t.accesses = s.accesses ∧ t.requests = s.requests ∧ t.engines = s.engines ∧ t.faults = s.faults
  dies     : t.dies = s.dies
  stations : t.stations = s.stations
  ranges   : t.ranges = s.ranges
  monarch  : t.monarch = s.monarch
  mgmt     : mgmtKept t.mgmt = mgmtKept s.mgmt
  fabric   : t.fabric = s.fabric
  clusters : ∀ c, clusterKept (t.cluster c) = clusterKept (s.cluster c)
  l1       : ∀ c, (t.core c).l1 = (s.core c).l1
  wgs      : ∀ w, wgKept (t.wg w) = wgKept (s.wg w)

/-- Nothing but slot accounts, PCs and pending lists differs. -/
structure SameRegs (s t : State) : Prop where
  elsewhere : SameElsewhere s t
  groups    : ∀ g, groupKept (t.group g) = groupKept (s.group g)
  splits    : ∀ g k, splitKept (t.splitOf g k) = splitKept (s.splitOf g k)
  threads   : ∀ i, threadKept (t.thread i) = threadKept (s.thread i)

/-- The agent is a split of the group. -/
def inGroup (a : Agent) (g : Nat) : Bool :=
  match a with
  | .split h _ => h == g
  | .thread _ => false

/-- A write of registers only, by the agent `a`: of scalar registers only those of `ss` can differ, of its group's vector registers
only those of `vs`, of its mask registers only those of `ks`; trap and special registers, the other groups, the other splits' banks
and the other threads, and all that is no register are as they were. FPFLAGS of its split loses no bit (R22). -/
structure WritesOnly (a : Agent) (ss vs ks : List Nat) (s t : State) : Prop where
  elsewhere : SameElsewhere s t
  scalars   : ∀ b r, r ∉ ss → t.sget b r = s.sget b r
  vectors   : ∀ g r, inGroup a g = false ∨ r ∉ vs → t.vget g r = s.vget g r
  masks     : ∀ g r, inGroup a g = false ∨ r ∉ ks → t.kget g r = s.kget g r
  group     : ∀ g, groupKept { t.group g with s := [], v := [], k := [] } = groupKept { s.group g with s := [], v := [], k := [] }
  groups    : ∀ g, inGroup a g = false → groupKept (t.group g) = groupKept (s.group g)
  splits    : ∀ g k, Agent.split g k ≠ a → splitKept (t.splitOf g k) = splitKept (s.splitOf g k)
  own       : ∀ g k, Agent.split g k = a → (t.splitOf g k).fmt = (s.splitOf g k).fmt ∧
                (t.splitOf g k).nest = (s.splitOf g k).nest ∧
                (t.splitOf g k).flags &&& (s.splitOf g k).flags = (s.splitOf g k).flags
  threads   : ∀ i, Agent.thread i ≠ a → threadKept (t.thread i) = threadKept (s.thread i)
  thread    : ∀ i, Agent.thread i = a → threadKept { t.thread i with s := [] } = threadKept { s.thread i with s := [] }

/-- The loads and atomics with their forms over the operands d, r, x (R157, R162, R165, R166). -/
noncomputable def loadForms (d r x : BitVec 6) (st : StreamNo) (zv : MemSize) (zs : SMemSize) (e : Option (BitVec 25)) : List (Instr × MemForm) :=
  [
    (Instr.vld d r x st zv e, vecForm 0 false false d r x st zv e), (.vlda d r x st zv e, vecForm 0 true false d r x st zv e),
    (.sld d r x st zs e, scalForm 0 false false d r x st zs e), (.slda d r x st zs e, scalForm 0 true false d r x st zs e),
    (.vatomAdd d r x st e, vatomForm 0 d r x st e), (.vatomAnd d r x st e, vatomForm 1 d r x st e),
    (.vatomOr d r x st e, vatomForm 2 d r x st e), (.vatomXor d r x st e, vatomForm 3 d r x st e),
    (.vatomMinS d r x st e, vatomForm 4 d r x st e), (.vatomMaxS d r x st e, vatomForm 5 d r x st e),
    (.vatomXchg d r x st e, vatomForm 6 d r x st e), (.vatomCas d r x st e, vatomForm 7 d r x st e),
    (.vatomfFadd d r x st e, vatomForm 8 d r x st e), (.vatomfFmin d r x st e, vatomForm 9 d r x st e),
    (.vatomfFmax d r x st e, vatomForm 10 d r x st e), (.vatomfMinU d r x st e, vatomForm 11 d r x st e),
    (.vatomfMaxU d r x st e, vatomForm 12 d r x st e), (.vatomfIncw d r x st e, vatomForm 13 d r x st e),
    (.vatomfDecw d r x st e, vatomForm 14 d r x st e), (.satomAdd d r x st e, satomForm 16 d r x st e),
    (.satomAnd d r x st e, satomForm 17 d r x st e), (.satomOr d r x st e, satomForm 18 d r x st e),
    (.satomXor d r x st e, satomForm 19 d r x st e), (.satomMinS d r x st e, satomForm 20 d r x st e),
    (.satomMaxS d r x st e, satomForm 21 d r x st e), (.satomXchg d r x st e, satomForm 22 d r x st e),
    (.satomCas d r x st e, satomForm 23 d r x st e)]
/-- The stores with their forms (R157, R162). -/
noncomputable def storeForms (d r x : BitVec 6) (st : StreamNo) (zv : MemSize) (zs : SMemSize) (e : Option (BitVec 25)) : List (Instr × MemForm) :=
  [(Instr.vst d r x st zv e, vecForm 1 false false d r x st zv e), (.vstr d r x st zv e, vecForm 1 false true d r x st zv e),
    (.sst d r x st zs e, scalForm 1 false false d r x st zs e), (.sstr d r x st zs e, scalForm 1 false true d r x st zs e)]

/-- The members whose result is a scalar register, with what they need (R118 to R122, R148, R151, R152). -/
noncomputable def scalarForms (d a b : SReg) (i : BitVec 10) (j : BitVec 19) (x : Option (BitVec 25)) (v : VReg) (k : KReg) (m : Fin 3)
    (p : Option Prefix) : List (Instr × Need) :=
  [
    (Instr.add d a b, { src := [a.toNat, b.toNat], dst := [d.toNat] }),
    (Instr.sub d a b, { src := [a.toNat, b.toNat], dst := [d.toNat] }),
    (Instr.and d a b, { src := [a.toNat, b.toNat], dst := [d.toNat] }),
    (Instr.or d a b, { src := [a.toNat, b.toNat], dst := [d.toNat] }),
    (Instr.xor d a b, { src := [a.toNat, b.toNat], dst := [d.toNat] }),
    (Instr.shl d a b, { src := [a.toNat, b.toNat], dst := [d.toNat] }),
    (Instr.shr d a b, { src := [a.toNat, b.toNat], dst := [d.toNat] }),
    (Instr.sra d a b, { src := [a.toNat, b.toNat], dst := [d.toNat] }),
    (Instr.min d a b, { src := [a.toNat, b.toNat], dst := [d.toNat] }),
    (Instr.max d a b, { src := [a.toNat, b.toNat], dst := [d.toNat] }),
    (Instr.minu d a b, { src := [a.toNat, b.toNat], dst := [d.toNat] }),
    (Instr.maxu d a b, { src := [a.toNat, b.toNat], dst := [d.toNat] }),
    (Instr.slt d a b, { src := [a.toNat, b.toNat], dst := [d.toNat] }),
    (Instr.sltu d a b, { src := [a.toNat, b.toNat], dst := [d.toNat] }),
    (Instr.seq d a b, { src := [a.toNat, b.toNat], dst := [d.toNat] }),
    (Instr.sne d a b, { src := [a.toNat, b.toNat], dst := [d.toNat] }),
    (Instr.mul d a b, { src := [a.toNat, b.toNat], dst := [d.toNat], lat := 4 }),
    (Instr.mulh d a b, { src := [a.toNat, b.toNat], dst := [d.toNat], lat := 4 }),
    (Instr.mulhu d a b, { src := [a.toNat, b.toNat], dst := [d.toNat], lat := 4 }),
    (Instr.div d a b, { src := [a.toNat, b.toNat], dst := [d.toNat], lat := 34, div := true }),
    (Instr.divu d a b, { src := [a.toNat, b.toNat], dst := [d.toNat], lat := 34, div := true }),
    (Instr.rem d a b, { src := [a.toNat, b.toNat], dst := [d.toNat], lat := 34, div := true }),
    (Instr.remu d a b, { src := [a.toNat, b.toNat], dst := [d.toNat], lat := 34, div := true }),
    (Instr.clz d a, { src := [a.toNat], dst := [d.toNat] }), (Instr.popc d a, { src := [a.toNat], dst := [d.toNat] }),
    (Instr.addi d a i x, { src := [a.toNat], dst := [d.toNat], len := lenX x }),
    (Instr.andi d a i x, { src := [a.toNat], dst := [d.toNat], len := lenX x }),
    (Instr.ori d a i x, { src := [a.toNat], dst := [d.toNat], len := lenX x }),
    (Instr.xori d a i x, { src := [a.toNat], dst := [d.toNat], len := lenX x }),
    (Instr.shli d a i x, { src := [a.toNat], dst := [d.toNat], len := lenX x }),
    (Instr.shri d a i x, { src := [a.toNat], dst := [d.toNat], len := lenX x }),
    (Instr.srai d a i x, { src := [a.toNat], dst := [d.toNat], len := lenX x }),
    (Instr.slti d a i x, { src := [a.toNat], dst := [d.toNat], len := lenX x }),
    (Instr.sli d j x, { dst := [d.toNat], len := lenX x }), (Instr.vredFadd d v p, vredNeed d v p 0 10 .vfp),
    (Instr.vredFmin d v p, vredNeed d v p 0 10 .vfp), (Instr.vredFmax d v p, vredNeed d v p 0 10 .vfp),
    (Instr.vredIadd d v p, vredNeed d v p 1 8 .vint), (Instr.vredIminS d v p, vredNeed d v p 1 8 .vint),
    (Instr.vredImaxS d v p, vredNeed d v p 1 8 .vint)] ++
  [
    (Instr.vext d v b p, { vredNeed d v p 1 4 .vint with src := [b.toNat] }), (Instr.k2s d k m p, k2sNeed d k p),
    (Instr.kpopc d k p, k2sNeed d k p), (Instr.kfirst d k p, k2sNeed d k p)]

/-- The members whose result is one vector register, with what they need (R94, R131 to R140, R145 to R152). -/
noncomputable def vectorForms (t : FType) (d a b : VReg) (r q : SReg) (i : BitVec 10) (h : BitVec 1) (w : BitVec 5)
    (x : Option (BitVec 25)) (p : Option Prefix) : List (Instr × Need) :=
  [
    (Instr.vfpFadd t d a b p, vecNeed p [a.toNat, b.toNat] d 0 6 .vfp),
    (Instr.vfpFsub t d a b p, vecNeed p [a.toNat, b.toNat] d 0 6 .vfp),
    (Instr.vfpFmul t d a b p, vecNeed p [a.toNat, b.toNat] d 0 6 .vfp),
    (Instr.vfpFmin t d a b p, vecNeed p [a.toNat, b.toNat] d 0 6 .vfp),
    (Instr.vfpFmax t d a b p, vecNeed p [a.toNat, b.toNat] d 0 6 .vfp),
    (Instr.vfpFcpysgn t d a b p, vecNeed p [a.toNat, b.toNat] d 0 6 .vfp),
    (Instr.vfpFabs t d a p, vecNeed p [a.toNat] d 0 6 .vfp), (Instr.vfpFneg t d a p, vecNeed p [a.toNat] d 0 6 .vfp),
    (Instr.vfpsFadd t d a r p, { vecNeed p [a.toNat] d 0 6 .vfp with src := [r.toNat] }),
    (Instr.vfpsFsub t d a r p, { vecNeed p [a.toNat] d 0 6 .vfp with src := [r.toNat] }),
    (Instr.vfpsFmul t d a r p, { vecNeed p [a.toNat] d 0 6 .vfp with src := [r.toNat] }),
    (Instr.vfpsFmin t d a r p, { vecNeed p [a.toNat] d 0 6 .vfp with src := [r.toNat] }),
    (Instr.vfpsFmax t d a r p, { vecNeed p [a.toNat] d 0 6 .vfp with src := [r.toNat] }),
    (Instr.vfpsFcpysgn t d a r p, { vecNeed p [a.toNat] d 0 6 .vfp with src := [r.toNat] }),
    (Instr.fma t d a b p, vecNeed p [a.toNat, b.toNat, pfxC p d.toNat] d 0 6 .fma),
    (Instr.fms t d a b p, vecNeed p [a.toNat, b.toNat, pfxC p d.toNat] d 0 6 .fma),
    (Instr.nfma t d a b p, vecNeed p [a.toNat, b.toNat, pfxC p d.toNat] d 0 6 .fma),
    (Instr.nfms t d a b p, vecNeed p [a.toNat, b.toNat, pfxC p d.toNat] d 0 6 .fma),
    (Instr.vintAdd d a b p, vecNeed p [a.toNat, b.toNat] d 1 4 .vint),
    (Instr.vintSub d a b p, vecNeed p [a.toNat, b.toNat] d 1 4 .vint),
    (Instr.vintMullo d a b p, vecNeed p [a.toNat, b.toNat] d 1 6 .vint),
    (Instr.vintMulhiS d a b p, vecNeed p [a.toNat, b.toNat] d 1 6 .vint),
    (Instr.vintMulhiU d a b p, vecNeed p [a.toNat, b.toNat] d 1 6 .vint),
    (Instr.vintAnd d a b p, vecNeed p [a.toNat, b.toNat] d 1 4 .vint),
    (Instr.vintOr d a b p, vecNeed p [a.toNat, b.toNat] d 1 4 .vint),
    (Instr.vintXor d a b p, vecNeed p [a.toNat, b.toNat] d 1 4 .vint),
    (Instr.vintAndn d a b p, vecNeed p [a.toNat, b.toNat] d 1 4 .vint),
    (Instr.vintShl d a b p, vecNeed p [a.toNat, b.toNat] d 1 4 .vint),
    (Instr.vintShr d a b p, vecNeed p [a.toNat, b.toNat] d 1 4 .vint),
    (Instr.vintSra d a b p, vecNeed p [a.toNat, b.toNat] d 1 4 .vint),
    (Instr.vintMinS d a b p, vecNeed p [a.toNat, b.toNat] d 1 4 .vint),
    (Instr.vintMaxS d a b p, vecNeed p [a.toNat, b.toNat] d 1 4 .vint),
    (Instr.vintMinU d a b p, vecNeed p [a.toNat, b.toNat] d 1 4 .vint),
    (Instr.vintMaxU d a b p, vecNeed p [a.toNat, b.toNat] d 1 4 .vint), (Instr.vintAbs d a p, vecNeed p [a.toNat] d 1 4 .vint),
    (Instr.vintClz d a p, vecNeed p [a.toNat] d 1 4 .vint), (Instr.vintPopc d a p, vecNeed p [a.toNat] d 1 4 .vint),
    (Instr.vintBrev d a p, vecNeed p [a.toNat] d 1 4 .vint),
    (Instr.vintsAdd d a r p, { vecNeed p [a.toNat] d 1 4 .vint with src := [r.toNat] }),
    (Instr.vintsSub d a r p, { vecNeed p [a.toNat] d 1 4 .vint with src := [r.toNat] })] ++
  [
    (Instr.vintsMullo d a r p, { vecNeed p [a.toNat] d 1 6 .vint with src := [r.toNat] }),
    (Instr.vintsMulhiS d a r p, { vecNeed p [a.toNat] d 1 6 .vint with src := [r.toNat] }),
    (Instr.vintsMulhiU d a r p, { vecNeed p [a.toNat] d 1 6 .vint with src := [r.toNat] }),
    (Instr.vintsAnd d a r p, { vecNeed p [a.toNat] d 1 4 .vint with src := [r.toNat] }),
    (Instr.vintsOr d a r p, { vecNeed p [a.toNat] d 1 4 .vint with src := [r.toNat] }),
    (Instr.vintsXor d a r p, { vecNeed p [a.toNat] d 1 4 .vint with src := [r.toNat] }),
    (Instr.vintsAndn d a r p, { vecNeed p [a.toNat] d 1 4 .vint with src := [r.toNat] }),
    (Instr.vintsShl d a r p, { vecNeed p [a.toNat] d 1 4 .vint with src := [r.toNat] }),
    (Instr.vintsShr d a r p, { vecNeed p [a.toNat] d 1 4 .vint with src := [r.toNat] }),
    (Instr.vintsSra d a r p, { vecNeed p [a.toNat] d 1 4 .vint with src := [r.toNat] }),
    (Instr.vintsMinS d a r p, { vecNeed p [a.toNat] d 1 4 .vint with src := [r.toNat] }),
    (Instr.vintsMaxS d a r p, { vecNeed p [a.toNat] d 1 4 .vint with src := [r.toNat] }),
    (Instr.vintsMinU d a r p, { vecNeed p [a.toNat] d 1 4 .vint with src := [r.toNat] }),
    (Instr.vintsMaxU d a r p, { vecNeed p [a.toNat] d 1 4 .vint with src := [r.toNat] }),
    (Instr.vintiAddi d a i p x, { vecNeed p [a.toNat] d 1 4 .vint with len := lenPX p x }),
    (Instr.vintiAndi d a i p x, { vecNeed p [a.toNat] d 1 4 .vint with len := lenPX p x }),
    (Instr.vintiOri d a i p x, { vecNeed p [a.toNat] d 1 4 .vint with len := lenPX p x }),
    (Instr.vintiXori d a i p x, { vecNeed p [a.toNat] d 1 4 .vint with len := lenPX p x }),
    (Instr.vintiShli d a i p x, { vecNeed p [a.toNat] d 1 4 .vint with len := lenPX p x }),
    (Instr.vintiShri d a i p x, { vecNeed p [a.toNat] d 1 4 .vint with len := lenPX p x }),
    (Instr.vintiSrai d a i p x, { vecNeed p [a.toNat] d 1 4 .vint with len := lenPX p x }),
    (Instr.vintiMuli d a i p x, { vecNeed p [a.toNat] d 1 6 .vint with len := lenPX p x }),
    (Instr.rcp d a p, vecNeed p [a.toNat] d 1 12 .sfu), (Instr.rsq d a p, vecNeed p [a.toNat] d 1 12 .sfu),
    (Instr.sqrt d a p, vecNeed p [a.toNat] d 1 12 .sfu), (Instr.ex2 d a p, vecNeed p [a.toNat] d 1 12 .sfu),
    (Instr.lg2 d a p, vecNeed p [a.toNat] d 1 12 .sfu), (Instr.sin d a p, vecNeed p [a.toNat] d 1 12 .sfu),
    (Instr.cos d a p, vecNeed p [a.toNat] d 1 12 .sfu), (Instr.tanh d a p, vecNeed p [a.toNat] d 1 12 .sfu),
    (Instr.vcvtF32S32 d a p, vecNeed p [a.toNat] d 0 6 .vfp), (Instr.vcvtF32U32 d a p, vecNeed p [a.toNat] d 0 6 .vfp),
    (Instr.vcvtS32F32 d a p, vecNeed p [a.toNat] d 0 6 .vfp), (Instr.vcvtU32F32 d a p, vecNeed p [a.toNat] d 0 6 .vfp),
    (Instr.vcvtF32Bf16 d a h p, vecNeed p [a.toNat] d 0 6 .vfp), (Instr.vcvtF32F16 d a h p, vecNeed p [a.toNat] d 0 6 .vfp),
    (Instr.vcvtBf16F32 d a b p, vecNeed p [a.toNat, b.toNat] d 0 6 .vfp),
    (Instr.vcvtF16F32 d a b p, vecNeed p [a.toNat, b.toNat] d 0 6 .vfp),
    (Instr.vcvtSxF32 d a p, vecNeed p [a.toNat] d 0 8 .vfp), (Instr.vcvtF32Sx d a p, vecNeed p [a.toNat] d 0 8 .vfp)] ++
  [
    (Instr.vscanFadd d a r p, { vecNeed p [a.toNat] d 0 12 .vfp with src := [r.toNat] }),
    (Instr.vscanIadd d a r p, { vecNeed p [a.toNat] d 1 8 .vint with src := [r.toNat] }),
    (Instr.vcompact d a r p, { vecNeed p [a.toNat] d 1 6 .vint with src := [r.toNat] }),
    (Instr.vexpand d a p, vecNeed p [a.toNat] d 1 6 .vint), (Instr.vsel d a b p, vecNeed p [a.toNat, b.toNat] d 1 4 .vint),
    (Instr.vperm d a b p, vecNeed p [a.toNat, b.toNat] d 1 6 .vint), (Instr.vmov d a p, vecNeed p [a.toNat] d 1 4 .vint),
    (Instr.vsplat d r p, { vecNeed p [] d 1 4 .vint with src := [r.toNat] }),
    (Instr.vins d r q p, { vecNeed p [] d 1 4 .vint with src := [r.toNat, q.toNat] }),
    (Instr.vlaneid d p, vecNeed p [] d 1 4 .vint), (Instr.viota d p, vecNeed p [] d 1 6 .vint),
    (Instr.vaddF32Compact d w, { vecNeed none [d.toNat, w.toNat] d 0 6 .vfp with len := 2 }),
    (Instr.vsubF32Compact d w, { vecNeed none [d.toNat, w.toNat] d 0 6 .vfp with len := 2 }),
    (Instr.vmulF32Compact d w, { vecNeed none [d.toNat, w.toNat] d 0 6 .vfp with len := 2 }),
    (Instr.vmaxF32Compact d w, { vecNeed none [d.toNat, w.toNat] d 0 6 .vfp with len := 2 }),
    (Instr.vminF32Compact d w, { vecNeed none [d.toNat, w.toNat] d 0 6 .vfp with len := 2 }),
    (Instr.vaddI32Compact d w, { vecNeed none [d.toNat, w.toNat] d 1 4 .vint with len := 2 }),
    (Instr.vsubI32Compact d w, { vecNeed none [d.toNat, w.toNat] d 1 4 .vint with len := 2 }),
    (Instr.vandCompact d w, { vecNeed none [d.toNat, w.toNat] d 1 4 .vint with len := 2 }),
    (Instr.vorCompact d w, { vecNeed none [d.toNat, w.toNat] d 1 4 .vint with len := 2 }),
    (Instr.vxorCompact d w, { vecNeed none [d.toNat, w.toNat] d 1 4 .vint with len := 2 }),
    (Instr.vshlCompact d w, { vecNeed none [d.toNat, w.toNat] d 1 4 .vint with len := 2 }),
    (Instr.vshrU32Compact d w, { vecNeed none [d.toNat, w.toNat] d 1 4 .vint with len := 2 }),
    (Instr.vmulLoCompact d w, { vecNeed none [d.toNat, w.toNat] d 1 6 .vint with len := 2 }),
    (Instr.vmaxS32Compact d w, { vecNeed none [d.toNat, w.toNat] d 1 4 .vint with len := 2 }),
    (Instr.vminS32Compact d w, { vecNeed none [d.toNat, w.toNat] d 1 4 .vint with len := 2 }),
    (Instr.vmovCompact d w, { vecNeed none [w.toNat] d 1 4 .vint with len := 2 })]

/-- The members whose result is a mask register, with what they need (R139, R151). -/
noncomputable def maskForms (d a b : KReg) (x y : VReg) (r : SReg) (m : Fin 3) (p : Option Prefix) : List (Instr × Need) :=
  [
    (Instr.vcmpEqS32 d x y p, vcmpNeed d x y p 1 .vint), (Instr.vcmpEqU32 d x y p, vcmpNeed d x y p 1 .vint),
    (Instr.vcmpNeS32 d x y p, vcmpNeed d x y p 1 .vint), (Instr.vcmpNeU32 d x y p, vcmpNeed d x y p 1 .vint),
    (Instr.vcmpLtS32 d x y p, vcmpNeed d x y p 1 .vint), (Instr.vcmpLtU32 d x y p, vcmpNeed d x y p 1 .vint),
    (Instr.vcmpLeS32 d x y p, vcmpNeed d x y p 1 .vint), (Instr.vcmpLeU32 d x y p, vcmpNeed d x y p 1 .vint),
    (Instr.vcmpGtS32 d x y p, vcmpNeed d x y p 1 .vint), (Instr.vcmpGtU32 d x y p, vcmpNeed d x y p 1 .vint),
    (Instr.vcmpGeS32 d x y p, vcmpNeed d x y p 1 .vint), (Instr.vcmpGeU32 d x y p, vcmpNeed d x y p 1 .vint),
    (Instr.vcmpEqF32 d x y p, vcmpNeed d x y p 0 .vfp), (Instr.vcmpNeF32 d x y p, vcmpNeed d x y p 0 .vfp),
    (Instr.vcmpLtF32 d x y p, vcmpNeed d x y p 0 .vfp), (Instr.vcmpLeF32 d x y p, vcmpNeed d x y p 0 .vfp),
    (Instr.vcmpGtF32 d x y p, vcmpNeed d x y p 0 .vfp), (Instr.vcmpGeF32 d x y p, vcmpNeed d x y p 0 .vfp),
    (Instr.vcmpUnord d x y p, vcmpNeed d x y p 0 .vfp), (Instr.kand d a b p, kopNeed d [a.toNat, b.toNat] p),
    (Instr.kor d a b p, kopNeed d [a.toNat, b.toNat] p), (Instr.kxor d a b p, kopNeed d [a.toNat, b.toNat] p),
    (Instr.kandn d a b p, kopNeed d [a.toNat, b.toNat] p), (Instr.knot d a p, kopNeed d [a.toNat] p),
    (Instr.kmov d a p, kopNeed d [a.toNat] p), (Instr.s2k d r m p, s2kNeed d r p)]

end Sys2Proof
end

