-- ==== Sys2Proof/Certificates/Slice0/Obligations.lean ====
section
/-!
DEFINITION. The statements for the provers, each with the rules of spec/ it formalises.
-/

open Sys2Proof Sys2Proof.Machine

/-! ### Scalar arithmetic, branches (spec/08_isa_scalar.md) -/

/-- SALU (R118 to R120, R24): each member of two sources reads s[a] and s[b], writes the value R120 gives it to s[d] L clk later
(R119: 1; multiplications 4; divisions 34, on the divider), and goes on behind its four bytes. A destination s0 takes nothing and a
queue port is popped or pushed: both are `Ctx.get` and `sset` (ScalarRegistersHold, PortsPopAndPush).

CLZ and POPC (R120): the number of zero bits above the highest one bit, and of one bits.

SALUI and SLI (R97, R121, R122): v is the sign-extended field of the word, or with XIMM the sign-extended field whose upper 25
bits are XIMM's payload; the sequence is then 8 bytes long. -/
def Obligations.ScalarArithmetic : Prop :=
  (∀ row ∈ ([
    (Instr.add, 1, false, fun x y => x + y), (Instr.sub, 1, false, fun x y => x - y),
    (Instr.and, 1, false, fun x y => x &&& y), (Instr.or, 1, false, fun x y => x ||| y),
    (Instr.xor, 1, false, fun x y => x ^^^ y), (Instr.shl, 1, false, fun x y => x <<< (y.toNat % 64)),
    (Instr.shr, 1, false, fun x y => x >>> (y.toNat % 64)), (Instr.sra, 1, false, fun x y => x.sshiftRight (y.toNat % 64)),
    (Instr.min, 1, false, fun x y => if x.toInt < y.toInt then x else y),
    (Instr.max, 1, false, fun x y => if x.toInt < y.toInt then y else x),
    (Instr.minu, 1, false, fun x y => if x.toNat < y.toNat then x else y),
    (Instr.maxu, 1, false, fun x y => if x.toNat < y.toNat then y else x),
    (Instr.slt, 1, false, fun x y => if x.toInt < y.toInt then 1 else 0),
    (Instr.sltu, 1, false, fun x y => if x.toNat < y.toNat then 1 else 0),
    (Instr.seq, 1, false, fun x y => if x = y then 1 else 0), (Instr.sne, 1, false, fun x y => if x = y then 0 else 1),
    (Instr.mul, 4, false, fun x y => BitVec.ofNat 64 (x.toNat * y.toNat)),
    (Instr.mulh, 4, false, fun x y => BitVec.ofInt 64 (x.toInt * y.toInt / 2 ^ 64)),
    (Instr.mulhu, 4, false, fun x y => BitVec.ofNat 64 (x.toNat * y.toNat / 2 ^ 64)),
    (Instr.div, 34, true, fun x y => if y = 0 then BitVec.allOnes 64 else BitVec.ofInt 64 (x.toInt.tdiv y.toInt)),
    (Instr.divu, 34, true, fun x y => if y = 0 then BitVec.allOnes 64 else BitVec.ofNat 64 (x.toNat / y.toNat)),
    (Instr.rem, 34, true, fun x y => if y = 0 then x else BitVec.ofInt 64 (x.toInt.tmod y.toInt)),
    (Instr.remu, 34, true, fun x y => if y = 0 then x else BitVec.ofNat 64 (x.toNat % y.toNat))] :
      List ((SReg → SReg → SReg → Instr) × Nat × Bool × (Word → Word → Word))),
  ∀ (d a b : SReg) (s : State) (ag : Agent) (c : Ctx) (t : State),
    let n : Need := { src := [a.toNat, b.toNat], dst := [d.toNat], lat := row.2.1, div := row.2.2.1 }
    Opens n ag s c t →
    exec (row.1 d a b) s = .next ((t.sset ag d.toNat (row.2.2.2 (c.get t a.toNat) (c.get t b.toNat))).retire n c
      ((s.strand ag).pc + 4))) ∧
  (∀ row ∈ ([
    (Instr.clz, fun x => BitVec.ofNat 64 (((List.range 64).reverse.takeWhile (fun i => !x.getLsbD i)).length)),
    (Instr.popc, fun x => BitVec.ofNat 64 (((List.range 64).filter (fun i => x.getLsbD i)).length))] :
      List ((SReg → SReg → Instr) × (Word → Word))),
  ∀ (d a : SReg) (s : State) (ag : Agent) (c : Ctx) (t : State),
    let n : Need := { src := [a.toNat], dst := [d.toNat] }
    Opens n ag s c t →
    exec (row.1 d a) s = .next ((t.sset ag d.toNat (row.2 (c.get t a.toNat))).retire n c ((s.strand ag).pc + 4))) ∧
  ((∀ row ∈ ([
    (Instr.addi, fun x v => x + v), (Instr.andi, fun x v => x &&& v), (Instr.ori, fun x v => x ||| v),
    (Instr.xori, fun x v => x ^^^ v), (Instr.shli, fun x v => x <<< (v.toNat % 64)),
    (Instr.shri, fun x v => x >>> (v.toNat % 64)), (Instr.srai, fun x v => x.sshiftRight (v.toNat % 64)),
    (Instr.slti, fun x v => if x.toInt < v.toInt then 1 else 0)] :
      List ((SReg → SReg → BitVec 10 → Option (BitVec 25) → Instr) × (Word → Word → Word))),
  ∀ (d a : SReg) (i : BitVec 10) (e : BitVec 25) (s : State) (ag : Agent) (c : Ctx) (t : State),
    (let n : Need := { src := [a.toNat], dst := [d.toNat] }
     Opens n ag s c t → exec (row.1 d a i none) s = .next ((t.sset ag d.toNat (row.2 (c.get t a.toNat) (i.signExtend 64))).retire
      n c ((s.strand ag).pc + 4))) ∧
    (let n : Need := { src := [a.toNat], dst := [d.toNat], len := 8 }
     Opens n ag s c t → exec (row.1 d a i (some e)) s = .next ((t.sset ag d.toNat (row.2 (c.get t a.toNat)
      ((e ++ i : BitVec 35).signExtend 64))).retire n c ((s.strand ag).pc + 8)))) ∧
  ∀ (d : SReg) (i : BitVec 19) (e : BitVec 25) (s : State) (ag : Agent) (c : Ctx) (t : State),
    (let n : Need := { dst := [d.toNat] }
     Opens n ag s c t → exec (.sli d i none) s = .next ((t.sset ag d.toNat (i.signExtend 64)).retire n c ((s.strand ag).pc + 4))) ∧
    (let n : Need := { dst := [d.toNat], len := 8 }
     Opens n ag s c t → exec (.sli d i (some e)) s = .next ((t.sset ag d.toNat ((e ++ i : BitVec 44).signExtend 64)).retire n c
      ((s.strand ag).pc + 8))))

/-- BR, JMP and CALL (R97, R123): a taken branch goes to seq + 2 × v, where seq is the sequence's address and v its offset, 16 or 25
bits signed or 25 bits more with XIMM; a branch not taken goes on behind it. CALL puts the next address into s63.

JR, CALLR and RET (R124): to an even address in a register, read before the link is written; an odd one takes MISALIGN (0x03)
with that address, and nothing else changes. -/
def Obligations.Branches : Prop :=
  ((∀ row ∈ ([
    (Instr.brEqz, fun x => decide (x = 0)), (Instr.brNez, fun x => decide (x ≠ 0)), (Instr.brLtz, fun x => decide (x.toInt < 0)),
    (Instr.brGez, fun x => decide (0 ≤ x.toInt)), (Instr.brGtz, fun x => decide (0 < x.toInt)),
    (Instr.brLez, fun x => decide (x.toInt ≤ 0))] :
      List ((SReg → BitVec 16 → Option (BitVec 25) → Instr) × (Word → Bool))),
  ∀ (a : SReg) (o : BitVec 16) (e : BitVec 25) (s : State) (ag : Agent) (c : Ctx) (t : State),
    let pc := (s.strand ag).pc
    (let n : Need := { src := [a.toNat] }
     Opens n ag s c t → exec (row.1 a o none) s = .next (t.retire n c
      (if row.2 (c.get t a.toNat) then pc + 2 * o.signExtend 64 else pc + 4))) ∧
    (let n : Need := { src := [a.toNat], len := 8 }
     Opens n ag s c t → exec (row.1 a o (some e)) s = .next (t.retire n c
      (if row.2 (c.get t a.toNat) then pc + 2 * (e ++ o : BitVec 41).signExtend 64 else pc + 8)))) ∧
  ∀ (o : BitVec 25) (e : BitVec 25) (s : State) (ag : Agent) (c : Ctx) (t : State),
    let pc := (s.strand ag).pc
    (Opens {} ag s c t → exec (.jmp o none) s = .next (t.retire {} c (pc + 2 * o.signExtend 64))) ∧
    (let n : Need := { len := 8 }
     Opens n ag s c t → exec (.jmp o (some e)) s = .next (t.retire n c (pc + 2 * (e ++ o : BitVec 50).signExtend 64))) ∧
    (let n : Need := { dst := [63] }
     Opens n ag s c t → exec (.call o none) s = .next ((t.sput ag 63 (pc + 4)).retire n c (pc + 2 * o.signExtend 64))) ∧
    (let n : Need := { dst := [63], len := 8 }
     Opens n ag s c t → exec (.call o (some e)) s = .next ((t.sput ag 63 (pc + 8)).retire n c
      (pc + 2 * (e ++ o : BitVec 50).signExtend 64)))) ∧
  (∀ (a : SReg) (s : State) (ag : Agent) (c : Ctx) (t : State),
    (let n : Need := { src := [a.toNat] }
     Opens n ag s c t → (c.get t a.toNat).getLsbD 0 = false → exec (.jr a) s = .next (t.retire n c (c.get t a.toNat))) ∧
    (let n : Need := { src := [a.toNat] }
     Opens n ag s c t → (c.get t a.toNat).getLsbD 0 = true → exec (.jr a) s = .next (s.takeTrap ag 0x03 (c.get t a.toNat))) ∧
    (let n : Need := { src := [a.toNat], dst := [63] }
     Opens n ag s c t → (c.get t a.toNat).getLsbD 0 = false →
      exec (.callr a) s = .next ((t.sput ag 63 ((s.strand ag).pc + 4)).retire n c (c.get t a.toNat))) ∧
    (let n : Need := { src := [a.toNat], dst := [63] }
     Opens n ag s c t → (c.get t a.toNat).getLsbD 0 = true → exec (.callr a) s = .next (s.takeTrap ag 0x03 (c.get t a.toNat))) ∧
    (let n : Need := { src := [63] }
     Opens n ag s c t → (c.get t 63).getLsbD 0 = false → exec .ret s = .next (t.retire n c (c.get t 63))) ∧
    (let n : Need := { src := [63] }
     Opens n ag s c t → (c.get t 63).getLsbD 0 = true → exec .ret s = .next (s.takeTrap ag 0x03 (c.get t 63))))

/-! ### Vector arithmetic (spec/09_isa_vector.md, spec/06_encoding.md R94) -/

/-- VFP (R131, R132, R134): in every active lane v[d] takes f of the lanes that the patterns of the prefix pick from v[a] and v[b],
element by element for the packed types, rounded in the mode in force (R19) under FTZ (R20); flags accumulate; the other lanes keep
their value, or are zeroed under z (`State.vwrite`, said lane by lane in VectorWriteLanes). Pipe FP/FMA, L 6. FABS and FNEG read one
register.

VFPS (R136): as VFP, with the low 32 bits of a scalar in every lane.

VFMA (R135): x × y + w, the signs changed before the one rounding; the addend is v[d] without a prefix and v[c] with one, read
before the destination is written. -/
def Obligations.VectorFloat : Prop :=
  ((∀ row ∈ ([
    (Instr.vfpFadd, fun f rm ftz x y => f.addV rm ftz (f.val ftz x) (f.val ftz y)),
    (Instr.vfpFsub, fun f rm ftz x y => f.addV rm ftz (f.val ftz x) (negV (f.val ftz y))),
    (Instr.vfpFmul, fun f rm ftz x y => f.mulV rm ftz (f.val ftz x) (f.val ftz y)),
    (Instr.vfpFmin, fun f _ ftz x y => f.minmaxV false (f.val ftz x) (f.val ftz y)),
    (Instr.vfpFmax, fun f _ ftz x y => f.minmaxV true (f.val ftz x) (f.val ftz y)),
    (Instr.vfpFcpysgn, fun f _ ftz x y => f.signV (f.val ftz x) (y.testBit (f.ebits + f.fbits)))] :
      List ((FType → VReg → VReg → VReg → Option Prefix → Instr) × (FFmt → Rnd → Bool → Nat → Nat → Nat × FFlags))),
  ∀ (t : FType) (d a b : VReg) (p : Option Prefix) (s : State) (ag : Agent) (c : Ctx) (u : State),
    Opens (vecNeed p [a.toNat, b.toNat] d 0 6 .vfp) ag s c u →
    let x := u.vsrc ag.groupNo a.toNat (pfxA p)
    let y := u.vsrc ag.groupNo b.toNat (pfxB p)
    exec (row.1 t d a b p) s = .next ((u.vwrite ag d.toNat c.act (pfxZ p) (fun i =>
      onLane t (fun f x y _ => row.2 f (modeOf (u.fmt ag) p) (fmtFtz (u.fmt ag)) x y) (lane x i) (lane y i) 0)).retire
      (vecNeed p [a.toNat, b.toNat] d 0 6 .vfp) c ((s.strand ag).pc + BitVec.ofNat 64 (lenP p)))) ∧
  ∀ row ∈ ([
    (Instr.vfpFabs, fun f ftz x => f.signV (f.val ftz x) false),
    (Instr.vfpFneg, fun f ftz x => f.signV (f.val ftz x) (!x.testBit (f.ebits + f.fbits)))] :
      List ((FType → VReg → VReg → Option Prefix → Instr) × (FFmt → Bool → Nat → Nat × FFlags))),
  ∀ (t : FType) (d a : VReg) (p : Option Prefix) (s : State) (ag : Agent) (c : Ctx) (u : State),
    Opens (vecNeed p [a.toNat] d 0 6 .vfp) ag s c u →
    let x := u.vsrc ag.groupNo a.toNat (pfxA p)
    exec (row.1 t d a p) s = .next ((u.vwrite ag d.toNat c.act (pfxZ p) (fun i =>
      onLane t (fun f x _ _ => row.2 f (fmtFtz (u.fmt ag)) x) (lane x i) 0 0)).retire
      (vecNeed p [a.toNat] d 0 6 .vfp) c ((s.strand ag).pc + BitVec.ofNat 64 (lenP p)))) ∧
  (∀ row ∈ ([
    (Instr.vfpsFadd, fun f rm ftz x y => f.addV rm ftz (f.val ftz x) (f.val ftz y)),
    (Instr.vfpsFsub, fun f rm ftz x y => f.addV rm ftz (f.val ftz x) (negV (f.val ftz y))),
    (Instr.vfpsFmul, fun f rm ftz x y => f.mulV rm ftz (f.val ftz x) (f.val ftz y)),
    (Instr.vfpsFmin, fun f _ ftz x y => f.minmaxV false (f.val ftz x) (f.val ftz y)),
    (Instr.vfpsFmax, fun f _ ftz x y => f.minmaxV true (f.val ftz x) (f.val ftz y)),
    (Instr.vfpsFcpysgn, fun f _ ftz x y => f.signV (f.val ftz x) (y.testBit (f.ebits + f.fbits)))] :
      List ((FType → VReg → VReg → SReg → Option Prefix → Instr) × (FFmt → Rnd → Bool → Nat → Nat → Nat × FFlags))),
  ∀ (t : FType) (d a : VReg) (b : SReg) (p : Option Prefix) (s : State) (ag : Agent) (c : Ctx) (u : State),
    let n : Need := { vecNeed p [a.toNat] d 0 6 .vfp with src := [b.toNat] }
    Opens n ag s c u →
    let x := u.vsrc ag.groupNo a.toNat (pfxA p)
    exec (row.1 t d a b p) s = .next ((u.vwrite ag d.toNat c.act (pfxZ p) (fun i =>
      onLane t (fun f x y _ => row.2 f (modeOf (u.fmt ag) p) (fmtFtz (u.fmt ag)) x y) (lane x i)
        ((c.get u b.toNat).setWidth 32) 0)).retire n c ((s.strand ag).pc + BitVec.ofNat 64 (lenP p)))) ∧
  (∀ row ∈ ([
    (Instr.fma, fun x w => (x, w)), (Instr.fms, fun x w => (x, negV w)),
    (Instr.nfma, fun x w => (negV x, negV w)), (Instr.nfms, fun x w => (negV x, w))] :
      List ((FType → VReg → VReg → VReg → Option Prefix → Instr) × (FVal → FVal → FVal × FVal))),
  ∀ (t : FType) (d a b : VReg) (p : Option Prefix) (s : State) (ag : Agent) (c : Ctx) (u : State),
    let e := match p with | some q => q.c.toNat | none => d.toNat
    let n := vecNeed p [a.toNat, b.toNat, e] d 0 6 .fma
    Opens n ag s c u →
    let x := u.vsrc ag.groupNo a.toNat (pfxA p)
    let y := u.vsrc ag.groupNo b.toNat (pfxB p)
    let w := u.vget ag.groupNo e
    let ftz := fmtFtz (u.fmt ag)
    exec (row.1 t d a b p) s = .next ((u.vwrite ag d.toNat c.act (pfxZ p) (fun i =>
      onLane t (fun f x y w => f.fmaV (modeOf (u.fmt ag) p) ftz (row.2 (f.val ftz x) (f.val ftz w)).1 (f.val ftz y)
        (row.2 (f.val ftz x) (f.val ftz w)).2) (lane x i) (lane y i) (lane w i))).retire n c
        ((s.strand ag).pc + BitVec.ofNat 64 (lenP p))))

/-- VINT (R131, R132, R137): two's complement lanes, wrapping; nothing raises a flag. Pipe integer, L 4, multiplications 6.

VINTS and VINTI (R138): the second operand is s[b][31:0], or bits [31:0] of the immediate with its extension (R97).

THE COMPACT VECTOR FORMS (R94): d := d OP b over the first 32 vector registers, two bytes long, as the full form without a
prefix. -/
def Obligations.VectorInteger : Prop :=
  ((∀ row ∈ ([
    (Instr.vintAdd, 4, fun x y => x + y), (Instr.vintSub, 4, fun x y => x - y),
    (Instr.vintMullo, 6, fun x y => BitVec.ofNat 32 (x.toNat * y.toNat)),
    (Instr.vintMulhiS, 6, fun x y => BitVec.ofInt 32 (x.toInt * y.toInt / 2 ^ 32)),
    (Instr.vintMulhiU, 6, fun x y => BitVec.ofNat 32 (x.toNat * y.toNat / 2 ^ 32)),
    (Instr.vintAnd, 4, fun x y => x &&& y), (Instr.vintOr, 4, fun x y => x ||| y), (Instr.vintXor, 4, fun x y => x ^^^ y),
    (Instr.vintAndn, 4, fun x y => x &&& ~~~y), (Instr.vintShl, 4, fun x y => x <<< (y.toNat % 32)),
    (Instr.vintShr, 4, fun x y => x >>> (y.toNat % 32)), (Instr.vintSra, 4, fun x y => x.sshiftRight (y.toNat % 32)),
    (Instr.vintMinS, 4, fun x y => if x.toInt < y.toInt then x else y),
    (Instr.vintMaxS, 4, fun x y => if x.toInt < y.toInt then y else x),
    (Instr.vintMinU, 4, fun x y => if x.toNat < y.toNat then x else y),
    (Instr.vintMaxU, 4, fun x y => if x.toNat < y.toNat then y else x)] :
      List ((VReg → VReg → VReg → Option Prefix → Instr) × Nat × (Lane → Lane → Lane))),
  ∀ (d a b : VReg) (p : Option Prefix) (s : State) (ag : Agent) (c : Ctx) (u : State),
    let n := vecNeed p [a.toNat, b.toNat] d 1 row.2.1 .vint
    Opens n ag s c u →
    let x := u.vsrc ag.groupNo a.toNat (pfxA p)
    let y := u.vsrc ag.groupNo b.toNat (pfxB p)
    exec (row.1 d a b p) s = .next ((u.vmove ag d.toNat c.act (pfxZ p) (fun i => row.2.2 (lane x i) (lane y i))).retire n c
      ((s.strand ag).pc + BitVec.ofNat 64 (lenP p)))) ∧
  ∀ row ∈ ([
    (Instr.vintAbs, fun x => BitVec.ofInt 32 x.toInt.natAbs),
    (Instr.vintClz, fun x => BitVec.ofNat 32 (((List.range 32).reverse.takeWhile (fun i => !x.getLsbD i)).length)),
    (Instr.vintPopc, fun x => BitVec.ofNat 32 (((List.range 32).filter (fun i => x.getLsbD i)).length)),
    (Instr.vintBrev, fun x => x.reverse)] :
      List ((VReg → VReg → Option Prefix → Instr) × (Lane → Lane))),
  ∀ (d a : VReg) (p : Option Prefix) (s : State) (ag : Agent) (c : Ctx) (u : State),
    let n := vecNeed p [a.toNat] d 1 4 .vint
    Opens n ag s c u →
    let x := u.vsrc ag.groupNo a.toNat (pfxA p)
    exec (row.1 d a p) s = .next ((u.vmove ag d.toNat c.act (pfxZ p) (fun i => row.2 (lane x i))).retire n c
      ((s.strand ag).pc + BitVec.ofNat 64 (lenP p)))) ∧
  ((∀ row ∈ ([
    (Instr.vintsAdd, 4, fun x y => x + y), (Instr.vintsSub, 4, fun x y => x - y),
    (Instr.vintsMullo, 6, fun x y => BitVec.ofNat 32 (x.toNat * y.toNat)),
    (Instr.vintsMulhiS, 6, fun x y => BitVec.ofInt 32 (x.toInt * y.toInt / 2 ^ 32)),
    (Instr.vintsMulhiU, 6, fun x y => BitVec.ofNat 32 (x.toNat * y.toNat / 2 ^ 32)),
    (Instr.vintsAnd, 4, fun x y => x &&& y), (Instr.vintsOr, 4, fun x y => x ||| y), (Instr.vintsXor, 4, fun x y => x ^^^ y),
    (Instr.vintsAndn, 4, fun x y => x &&& ~~~y), (Instr.vintsShl, 4, fun x y => x <<< (y.toNat % 32)),
    (Instr.vintsShr, 4, fun x y => x >>> (y.toNat % 32)), (Instr.vintsSra, 4, fun x y => x.sshiftRight (y.toNat % 32)),
    (Instr.vintsMinS, 4, fun x y => if x.toInt < y.toInt then x else y),
    (Instr.vintsMaxS, 4, fun x y => if x.toInt < y.toInt then y else x),
    (Instr.vintsMinU, 4, fun x y => if x.toNat < y.toNat then x else y),
    (Instr.vintsMaxU, 4, fun x y => if x.toNat < y.toNat then y else x)] :
      List ((VReg → VReg → SReg → Option Prefix → Instr) × Nat × (Lane → Lane → Lane))),
  ∀ (d a : VReg) (b : SReg) (p : Option Prefix) (s : State) (ag : Agent) (c : Ctx) (u : State),
    let n : Need := { vecNeed p [a.toNat] d 1 row.2.1 .vint with src := [b.toNat] }
    Opens n ag s c u →
    let x := u.vsrc ag.groupNo a.toNat (pfxA p)
    exec (row.1 d a b p) s = .next ((u.vmove ag d.toNat c.act (pfxZ p) (fun i =>
      row.2.2 (lane x i) ((c.get u b.toNat).setWidth 32))).retire n c ((s.strand ag).pc + BitVec.ofNat 64 (lenP p)))) ∧
  ∀ row ∈ ([
    (Instr.vintiAddi, 4, fun x y => x + y), (Instr.vintiAndi, 4, fun x y => x &&& y), (Instr.vintiOri, 4, fun x y => x ||| y),
    (Instr.vintiXori, 4, fun x y => x ^^^ y), (Instr.vintiShli, 4, fun x y => x <<< (y.toNat % 32)),
    (Instr.vintiShri, 4, fun x y => x >>> (y.toNat % 32)), (Instr.vintiSrai, 4, fun x y => x.sshiftRight (y.toNat % 32)),
    (Instr.vintiMuli, 6, fun x y => BitVec.ofNat 32 (x.toNat * y.toNat))] :
      List ((VReg → VReg → BitVec 10 → Option Prefix → Option (BitVec 25) → Instr) × Nat × (Lane → Lane → Lane))),
  ∀ (d a : VReg) (i : BitVec 10) (p : Option Prefix) (e : Option (BitVec 25)) (s : State) (ag : Agent) (c : Ctx) (u : State),
    let len := 4 + (if p.isSome then 4 else 0) + if e.isSome then 4 else 0
    let n : Need := { vecNeed p [a.toNat] d 1 row.2.1 .vint with len := len }
    Opens n ag s c u →
    let x := u.vsrc ag.groupNo a.toNat (pfxA p)
    let y : Lane := match e with
      | some h => ((h ++ i : BitVec 35).signExtend 64).setWidth 32
      | none => i.signExtend 32
    exec (row.1 d a i p e) s = .next ((u.vmove ag d.toNat c.act (pfxZ p) (fun j => row.2.2 (lane x j) y)).retire n c
      ((s.strand ag).pc + BitVec.ofNat 64 len))) ∧
  ((∀ row ∈ ([
    (Instr.vaddF32Compact, fun rm ftz x y => fp32.addV rm ftz (fp32.val ftz x) (fp32.val ftz y)),
    (Instr.vsubF32Compact, fun rm ftz x y => fp32.addV rm ftz (fp32.val ftz x) (negV (fp32.val ftz y))),
    (Instr.vmulF32Compact, fun rm ftz x y => fp32.mulV rm ftz (fp32.val ftz x) (fp32.val ftz y)),
    (Instr.vmaxF32Compact, fun _ ftz x y => fp32.minmaxV true (fp32.val ftz x) (fp32.val ftz y)),
    (Instr.vminF32Compact, fun _ ftz x y => fp32.minmaxV false (fp32.val ftz x) (fp32.val ftz y))] :
      List ((VReg → BitVec 5 → Instr) × (Rnd → Bool → Nat → Nat → Nat × FFlags))),
  ∀ (d : VReg) (b : BitVec 5) (s : State) (ag : Agent) (c : Ctx) (u : State),
    let n : Need := { vecNeed none [d.toNat, b.toNat] d 0 6 .vfp with len := 2 }
    Opens n ag s c u →
    exec (row.1 d b) s = .next ((u.vwrite ag d.toNat c.act false (fun i =>
      let r := row.2 (fmtRnd (u.fmt ag)) (fmtFtz (u.fmt ag)) (lane (u.vget ag.groupNo d.toNat) i).toNat
        (lane (u.vget ag.groupNo b.toNat) i).toNat
      (BitVec.ofNat 32 r.1, r.2))).retire n c ((s.strand ag).pc + 2))) ∧
  (∀ row ∈ ([
    (Instr.vaddI32Compact, 4, fun x y => x + y), (Instr.vsubI32Compact, 4, fun x y => x - y),
    (Instr.vandCompact, 4, fun x y => x &&& y), (Instr.vorCompact, 4, fun x y => x ||| y),
    (Instr.vxorCompact, 4, fun x y => x ^^^ y), (Instr.vshlCompact, 4, fun x y => x <<< (y.toNat % 32)),
    (Instr.vshrU32Compact, 4, fun x y => x >>> (y.toNat % 32)),
    (Instr.vmulLoCompact, 6, fun x y => BitVec.ofNat 32 (x.toNat * y.toNat)),
    (Instr.vmaxS32Compact, 4, fun x y => if x.toInt < y.toInt then y else x),
    (Instr.vminS32Compact, 4, fun x y => if x.toInt < y.toInt then x else y)] :
      List ((VReg → BitVec 5 → Instr) × Nat × (Lane → Lane → Lane))),
  ∀ (d : VReg) (b : BitVec 5) (s : State) (ag : Agent) (c : Ctx) (u : State),
    let n : Need := { vecNeed none [d.toNat, b.toNat] d 1 row.2.1 .vint with len := 2 }
    Opens n ag s c u →
    exec (row.1 d b) s = .next ((u.vmove ag d.toNat c.act false (fun i =>
      row.2.2 (lane (u.vget ag.groupNo d.toNat) i) (lane (u.vget ag.groupNo b.toNat) i))).retire n c ((s.strand ag).pc + 2))) ∧
  ∀ (d : VReg) (b : BitVec 5) (s : State) (ag : Agent) (c : Ctx) (u : State),
    let n : Need := { vecNeed none [b.toNat] d 1 4 .vint with len := 2 }
    Opens n ag s c u →
    exec (.vmovCompact d b) s = .next ((u.vmove ag d.toNat c.act false (fun i => lane (u.vget ag.groupNo b.toNat) i)).retire n c
      ((s.strand ag).pc + 2)))

/-- VCMP (R132, R139): one bit a lane into k[d] in the active lanes, the others kept or cleared; only a signaling NaN raises NV. The
integer conditions use the integer pipe, those of F32 the FP pipe, L 4. A NaN makes every relation but NE and UNORD false.

MASK OPERATIONS (R98, R99, R106, R151): the logical members write the active bits and keep, or under z clear, the others; K2S reads
32 bits; S2K writes its own 32 bits only; KPOPC counts the active set bits; KFIRST gives the first of them, or 96. L 1. -/
def Obligations.ComparesAndMasks : Prop :=
  ((∀ row ∈ ([
    (Instr.vcmpEqS32, fun x y => decide (x = y)), (Instr.vcmpNeS32, fun x y => decide (x ≠ y)),
    (Instr.vcmpLtS32, fun x y => decide (x.toInt < y.toInt)), (Instr.vcmpLeS32, fun x y => decide (x.toInt ≤ y.toInt)),
    (Instr.vcmpGtS32, fun x y => decide (y.toInt < x.toInt)), (Instr.vcmpGeS32, fun x y => decide (y.toInt ≤ x.toInt)),
    (Instr.vcmpEqU32, fun x y => decide (x = y)), (Instr.vcmpNeU32, fun x y => decide (x ≠ y)),
    (Instr.vcmpLtU32, fun x y => decide (x.toNat < y.toNat)), (Instr.vcmpLeU32, fun x y => decide (x.toNat ≤ y.toNat)),
    (Instr.vcmpGtU32, fun x y => decide (y.toNat < x.toNat)), (Instr.vcmpGeU32, fun x y => decide (y.toNat ≤ x.toNat))] :
      List ((KReg → VReg → VReg → Option Prefix → Instr) × (Lane → Lane → Bool))),
  ∀ (d : KReg) (a b : VReg) (p : Option Prefix) (s : State) (ag : Agent) (c : Ctx) (u : State),
    let n := vcmpNeed d a b p 1 .vint
    Opens n ag s c u →
    let x := u.vsrc ag.groupNo a.toNat (pfxA p)
    let y := u.vsrc ag.groupNo b.toNat (pfxB p)
    exec (row.1 d a b p) s = .next (((u.kwrite ag.groupNo d.toNat c.act (pfxZ p) (maskOf (fun i =>
      c.act.getLsbD i && row.2 (lane x i) (lane y i)))).raiseFlags ag 0).retire n c
      ((s.strand ag).pc + BitVec.ofNat 64 (lenP p)))) ∧
  ∀ row ∈ ([
    (Instr.vcmpEqF32, fun x y => eqV x y), (Instr.vcmpNeF32, fun x y => isNan x || isNan y || !eqV x y),
    (Instr.vcmpLtF32, fun x y => ltV x y), (Instr.vcmpLeF32, fun x y => ltV x y || eqV x y),
    (Instr.vcmpGtF32, fun x y => ltV y x), (Instr.vcmpGeF32, fun x y => ltV y x || eqV x y),
    (Instr.vcmpUnord, fun x y => isNan x || isNan y)] :
      List ((KReg → VReg → VReg → Option Prefix → Instr) × (FVal → FVal → Bool))),
  ∀ (d : KReg) (a b : VReg) (p : Option Prefix) (s : State) (ag : Agent) (c : Ctx) (u : State),
    let n := vcmpNeed d a b p 0 .vfp
    Opens n ag s c u →
    let x := fun i => fp32.val (fmtFtz (u.fmt ag)) (lane (u.vsrc ag.groupNo a.toNat (pfxA p)) i).toNat
    let y := fun i => fp32.val (fmtFtz (u.fmt ag)) (lane (u.vsrc ag.groupNo b.toNat (pfxB p)) i).toNat
    let signaling := (List.range 96).any (fun i => c.act.getLsbD i && (x i == .nan true || y i == .nan true))
    exec (row.1 d a b p) s = .next (((u.kwrite ag.groupNo d.toNat c.act (pfxZ p) (maskOf (fun i =>
      c.act.getLsbD i && row.2 (x i) (y i)))).raiseFlags ag (if signaling then flagNV else 0)).retire n c
      ((s.strand ag).pc + BitVec.ofNat 64 (lenP p)))) ∧
  ((∀ row ∈ ([(Instr.kand, fun x y => x &&& y), (Instr.kor, fun x y => x ||| y), (Instr.kxor, fun x y => x ^^^ y),
      (Instr.kandn, fun x y => x &&& ~~~y)] : List ((KReg → KReg → KReg → Option Prefix → Instr) × (Mask → Mask → Mask))),
  ∀ (d a b : KReg) (p : Option Prefix) (s : State) (ag : Agent) (c : Ctx) (u : State),
    let n := kopNeed d [a.toNat, b.toNat] p
    Opens n ag s c u →
    exec (row.1 d a b p) s = .next ((u.kwrite ag.groupNo d.toNat c.act (pfxZ p)
      (row.2 (u.kget ag.groupNo a.toNat) (u.kget ag.groupNo b.toNat))).retire n c
      ((s.strand ag).pc + BitVec.ofNat 64 (lenP p)))) ∧
  (∀ row ∈ ([(Instr.knot, fun x => ~~~x), (Instr.kmov, fun x => x)] :
      List ((KReg → KReg → Option Prefix → Instr) × (Mask → Mask))),
  ∀ (d a : KReg) (p : Option Prefix) (s : State) (ag : Agent) (c : Ctx) (u : State),
    let n := kopNeed d [a.toNat] p
    Opens n ag s c u →
    exec (row.1 d a p) s = .next ((u.kwrite ag.groupNo d.toNat c.act (pfxZ p) (row.2 (u.kget ag.groupNo a.toNat))).retire n c
      ((s.strand ag).pc + BitVec.ofNat 64 (lenP p)))) ∧
  (∀ row ∈ ([
    ((Instr.k2s · · 0), fun m _ => (m.extractLsb' 0 32).setWidth 64), ((Instr.k2s · · 1), fun m _ => (m.extractLsb' 32 32).setWidth 64),
    ((Instr.k2s · · 2), fun m _ => (m.extractLsb' 64 32).setWidth 64),
    (Instr.kpopc, fun m act => BitVec.ofNat 64 ((List.range 96).filter (fun i => m.getLsbD i && act.getLsbD i)).length),
    (Instr.kfirst, fun m act => BitVec.ofNat 64 (((List.range 96).filter (fun i => m.getLsbD i && act.getLsbD i)).headD 96))] :
      List ((SReg → KReg → Option Prefix → Instr) × (Mask → Mask → Word))),
  ∀ (d : SReg) (a : KReg) (p : Option Prefix) (s : State) (ag : Agent) (c : Ctx) (u : State),
    let n := k2sNeed d a p
    Opens n ag s c u →
    exec (row.1 d a p) s = .next ((u.sset ag d.toNat (row.2 (u.kget ag.groupNo a.toNat) c.act)).retire n c
      ((s.strand ag).pc + BitVec.ofNat 64 (lenP p)))) ∧
  ∀ (d : KReg) (a : SReg) (m : Fin 3) (p : Option Prefix) (s : State) (ag : Agent) (c : Ctx) (u : State),
    let n := s2kNeed d a p
    Opens n ag s c u →
    let old := u.kget ag.groupNo d.toNat
    exec (.s2k d a m p) s = .next ((u.kput ag.groupNo d.toNat (maskOf (fun i =>
      if i / 32 = m.val then
        if c.act.getLsbD i then (c.get u a.toNat).getLsbD (i % 32) else !pfxZ p && old.getLsbD i
      else old.getLsbD i))).retire n c ((s.strand ag).pc + BitVec.ofNat 64 (lenP p))))

/-- VSFU (R132, R140): each member writes its correctly rounded function, here the model's `sfu` of that member, in the active lanes,
with the flags it raises; L 12 on the integer and SFU pipe. -/
def Obligations.VectorSpecial : Prop :=
  ∀ row ∈ ([
    (Instr.rcp, Sfu.rcp), (Instr.rsq, .rsq), (Instr.sqrt, .sqrt), (Instr.ex2, .ex2), (Instr.lg2, .lg2), (Instr.sin, .sin),
    (Instr.cos, .cos), (Instr.tanh, .tanh)] : List ((VReg → VReg → Option Prefix → Instr) × Sfu)),
  ∀ (d a : VReg) (p : Option Prefix) (s : State) (ag : Agent) (c : Ctx) (u : State),
    let n := vecNeed p [a.toNat] d 1 12 .sfu
    Opens n ag s c u →
    let x := u.vsrc ag.groupNo a.toNat (pfxA p)
    exec (row.1 d a p) s = .next ((u.vwrite ag d.toNat c.act (pfxZ p) (fun i =>
      let r := sfu row.2 (modeOf (u.fmt ag) p) (fmtFtz (u.fmt ag)) (lane x i).toNat
      (BitVec.ofNat 32 r.1, r.2))).retire n c ((s.strand ag).pc + BitVec.ofNat 64 (lenP p)))

/-- THE SPECIAL OPERANDS OF VSFU (R141): in every rounding mode and under FTZ or not. -/
def Obligations.SpecialOperands : Prop :=
  ∀ (rm : Rnd) (ftz : Bool),
    sfu .rcp rm ftz 0x00000000 = (0x7F800000, flagDZ) ∧ sfu .rcp rm ftz 0x80000000 = (0xFF800000, flagDZ) ∧
    sfu .rcp rm ftz 0x7F800000 = (0x00000000, 0) ∧ sfu .rcp rm ftz 0xFF800000 = (0x80000000, 0) ∧
    sfu .rsq rm ftz 0x00000000 = (0x7F800000, flagDZ) ∧ sfu .rsq rm ftz 0x80000000 = (0xFF800000, flagDZ) ∧
    sfu .rsq rm ftz 0x7F800000 = (0x00000000, 0) ∧ sfu .sqrt rm ftz 0x00000000 = (0x00000000, 0) ∧
    sfu .sqrt rm ftz 0x80000000 = (0x80000000, 0) ∧ sfu .sqrt rm ftz 0x7F800000 = (0x7F800000, 0) ∧
    sfu .ex2 rm ftz 0xFF800000 = (0x00000000, 0) ∧ sfu .ex2 rm ftz 0x7F800000 = (0x7F800000, 0) ∧
    sfu .ex2 rm ftz 0x00000000 = (0x3F800000, 0) ∧ sfu .ex2 rm ftz 0x80000000 = (0x3F800000, 0) ∧
    sfu .lg2 rm ftz 0x00000000 = (0xFF800000, flagDZ) ∧ sfu .lg2 rm ftz 0x80000000 = (0xFF800000, flagDZ) ∧
    sfu .lg2 rm ftz 0x7F800000 = (0x7F800000, 0) ∧ sfu .lg2 rm ftz 0x3F800000 = (0x00000000, 0) ∧
    sfu .sin rm ftz 0x7F800000 = (0x7FC00000, flagNV) ∧ sfu .sin rm ftz 0xFF800000 = (0x7FC00000, flagNV) ∧
    sfu .cos rm ftz 0x7F800000 = (0x7FC00000, flagNV) ∧ sfu .cos rm ftz 0xFF800000 = (0x7FC00000, flagNV) ∧
    sfu .sin rm ftz 0x00000000 = (0x00000000, 0) ∧ sfu .sin rm ftz 0x80000000 = (0x80000000, 0) ∧
    sfu .cos rm ftz 0x00000000 = (0x3F800000, 0) ∧ sfu .cos rm ftz 0x80000000 = (0x3F800000, 0) ∧
    sfu .tanh rm ftz 0x7F800000 = (0x3F800000, 0) ∧ sfu .tanh rm ftz 0xFF800000 = (0xBF800000, 0) ∧
    sfu .tanh rm ftz 0x00000000 = (0x00000000, 0) ∧ sfu .tanh rm ftz 0x80000000 = (0x80000000, 0) ∧
    (∀ f ∈ [Sfu.rsq, .sqrt, .lg2], ∀ x : BitVec 31, 0 < x.toNat → x.toNat ≤ 0x7F800000 →
      (ftz = true → 0x00800000 ≤ x.toNat) → sfu f rm ftz (0x80000000 + x.toNat) = (0x7FC00000, flagNV)) ∧
    ∀ (f : Sfu) (neg : Bool) (fr : BitVec 23), fr ≠ 0 →
      sfu f rm ftz ((if neg then 0xFF800000 else 0x7F800000) + fr.toNat) =
        (0x7FC00000, if fr.toNat < 0x400000 then flagNV else 0)

/-! ### Lane operations (spec/10_isa_lanes.md) -/

/-- VCVT (R25, R26, R145 to R147): each member converts in the mode in force under FTZ and ISAT; the two-register members put the
narrowed v[a] below the narrowed v[b]; the SX members pack to, or unpack from, the image of six blocks (L 8), the inactive lanes
packed as zero and every lane of the image written.

VRED and VSCAN (R32, R148, R149): the fixed tree over the active lanes, a lane that is not active standing as the identity, into
a scalar; and the inclusive scan in lane order, from the scalar, over the active lanes. -/
def Obligations.ConversionsAndReductions : Prop :=
  ((∀ row ∈ ([
    (Instr.vcvtF32S32, fun rm _ _ x => laneOf (ofIntF rm x.toInt)), (Instr.vcvtF32U32, fun rm _ _ x => laneOf (ofIntF rm x.toNat)),
    (Instr.vcvtS32F32, fun rm _ isat x => toIntF rm isat true x.toNat),
    (Instr.vcvtU32F32, fun rm _ isat x => toIntF rm isat false x.toNat),
    ((Instr.vcvtF32Bf16 · · 0), fun _ ftz _ x => laneOf (convF bf16 fp32 .ne ftz (x.toNat % 65536))),
    ((Instr.vcvtF32Bf16 · · 1), fun _ ftz _ x => laneOf (convF bf16 fp32 .ne ftz (x.toNat / 65536))),
    ((Instr.vcvtF32F16 · · 0), fun _ ftz _ x => laneOf (convF fp16 fp32 .ne ftz (x.toNat % 65536))),
    ((Instr.vcvtF32F16 · · 1), fun _ ftz _ x => laneOf (convF fp16 fp32 .ne ftz (x.toNat / 65536)))] :
      List ((VReg → VReg → Option Prefix → Instr) × (Rnd → Bool → Bool → Lane → Lane × FFlags))),
  ∀ (d a : VReg) (p : Option Prefix) (s : State) (ag : Agent) (c : Ctx) (u : State),
    let n := vecNeed p [a.toNat] d 0 6 .vfp
    Opens n ag s c u →
    let x := u.vsrc ag.groupNo a.toNat (pfxA p)
    exec (row.1 d a p) s = .next ((u.vwrite ag d.toNat c.act (pfxZ p) (fun i =>
      row.2 (modeOf (u.fmt ag) p) (fmtFtz (u.fmt ag)) (fmtIsat (u.fmt ag)) (lane x i))).retire n c
      ((s.strand ag).pc + BitVec.ofNat 64 (lenP p)))) ∧
  (∀ row ∈ ([(Instr.vcvtBf16F32, bf16), (Instr.vcvtF16F32, fp16)] :
      List ((VReg → VReg → VReg → Option Prefix → Instr) × FFmt)),
  ∀ (d a b : VReg) (p : Option Prefix) (s : State) (ag : Agent) (c : Ctx) (u : State),
    let n := vecNeed p [a.toNat, b.toNat] d 0 6 .vfp
    Opens n ag s c u →
    let conv := fun (x : Lane) => convF fp32 row.2 (modeOf (u.fmt ag) p) (fmtFtz (u.fmt ag)) x.toNat
    exec (row.1 d a b p) s = .next ((u.vwrite ag d.toNat c.act (pfxZ p) (fun i =>
      let lo := conv (lane (u.vsrc ag.groupNo a.toNat (pfxA p)) i)
      let hi := conv (lane (u.vget ag.groupNo b.toNat) i)
      (BitVec.ofNat 32 (lo.1 + 65536 * hi.1), lo.2 ||| hi.2))).retire n c ((s.strand ag).pc + BitVec.ofNat 64 (lenP p)))) ∧
  ∀ (d a : VReg) (p : Option Prefix) (s : State) (ag : Agent) (c : Ctx) (u : State),
    let n := vecNeed p [a.toNat] d 0 8 .vfp
    Opens n ag s c u →
    let m := sxBits (fmtSxw (u.fmt ag))
    (let x := u.vsrc ag.groupNo a.toNat (pfxA p)
     let blocks := (List.range 6).map (fun g => sxPack m (modeOf (u.fmt ag) p) ((List.range 16).map (fun j =>
       if c.act.getLsbD (16 * g + j) then lane x (16 * g + j) else 0)))
     let image := ((List.range 6).map (fun g => ((blocks.map (fun q => q.1.toNat m)).getD g 0) * 2 ^ (8 * sxBytes m * g))).sum
     exec (.vcvtSxF32 d a p) s = .next (((u.vput ag.groupNo d.toNat (lanes (fun i => BitVec.ofNat 32 (image / 2 ^ (32 * i))))
       ).raiseFlags ag (blocks.foldl (fun f q => f ||| q.2) 0)).retire n c ((s.strand ag).pc + BitVec.ofNat 64 (lenP p)))) ∧
    (let v := u.vget ag.groupNo a.toNat
     let image := ((List.range (6 * sxBytes m / 4)).map (fun i => (lane v i).toNat * 2 ^ (32 * i))).sum
     exec (.vcvtF32Sx d a p) s = .next ((u.vmove ag d.toNat c.act (pfxZ p) (fun i =>
       if i < 96 then
         let b := SxBlock.ofNat m (image / 2 ^ (8 * sxBytes m * (i / 16)))
         sxUnpack m b.e (b.u.getD (i % 16 / 4) 0) (b.xs.getD (i % 16) 0)
       else 0)).retire n c ((s.strand ag).pc + BitVec.ofNat 64 (lenP p))))) ∧
  ((∀ row ∈ ([
    (Instr.vredFadd, (fun rm ftz x y => laneOf (fp32.addV rm ftz (fp32.val ftz x.toNat) (fp32.val ftz y.toNat))), 0x80000000,
      0, 10, .vfp, BitVec.setWidth 64),
    (Instr.vredFmin, (fun _ ftz x y => laneOf (fp32.minmaxV false (fp32.val ftz x.toNat) (fp32.val ftz y.toNat))), 0x7F800000,
      0, 10, .vfp, BitVec.setWidth 64),
    (Instr.vredFmax, (fun _ ftz x y => laneOf (fp32.minmaxV true (fp32.val ftz x.toNat) (fp32.val ftz y.toNat))), 0xFF800000,
      0, 10, .vfp, BitVec.setWidth 64),
    (Instr.vredIadd, (fun _ _ x y => (x + y, 0)), 0, 1, 8, .vint, BitVec.signExtend 64),
    (Instr.vredIminS, (fun _ _ x y => (if x.toInt < y.toInt then x else y, 0)), 0x7FFFFFFF, 1, 8, .vint, BitVec.signExtend 64),
    (Instr.vredImaxS, (fun _ _ x y => (if x.toInt < y.toInt then y else x, 0)), 0x80000000, 1, 8, .vint,
      BitVec.signExtend 64)] :
      List ((SReg → VReg → Option Prefix → Instr) × (Rnd → Bool → Lane → Lane → Lane × FFlags) × Lane × Nat × Nat × Draw ×
        (Lane → Word))),
  ∀ (d : SReg) (a : VReg) (p : Option Prefix) (s : State) (ag : Agent) (c : Ctx) (u : State),
    let n := vredNeed d a p row.2.2.2.1 row.2.2.2.2.1 row.2.2.2.2.2.1
    Opens n ag s c u →
    let r := reduceTree (row.2.1 (modeOf (u.fmt ag) p) (fmtFtz (u.fmt ag))) row.2.2.1 (u.vsrc ag.groupNo a.toNat (pfxA p)) c.act
    exec (row.1 d a p) s = .next (((u.sset ag d.toNat (row.2.2.2.2.2.2 r.1)).raiseFlags ag r.2).retire n c
      ((s.strand ag).pc + BitVec.ofNat 64 (lenP p)))) ∧
  ∀ row ∈ ([
    (Instr.vscanFadd, (fun rm ftz x y => laneOf (fp32.addV rm ftz (fp32.val ftz x.toNat) (fp32.val ftz y.toNat))), 0, 12, .vfp),
    (Instr.vscanIadd, (fun _ _ x y => (x + y, 0)), 1, 8, .vint)] :
      List ((VReg → VReg → SReg → Option Prefix → Instr) × (Rnd → Bool → Lane → Lane → Lane × FFlags) × Nat × Nat × Draw)),
  ∀ (d a : VReg) (b : SReg) (p : Option Prefix) (s : State) (ag : Agent) (c : Ctx) (u : State),
    let n : Need := { vecNeed p [a.toNat] d row.2.2.1 row.2.2.2.1 row.2.2.2.2 with src := [b.toNat] }
    Opens n ag s c u →
    let r := scan (row.2.1 (modeOf (u.fmt ag) p) (fmtFtz (u.fmt ag))) (u.vsrc ag.groupNo a.toNat (pfxA p)) c.act 96 0
      ((c.get u b.toNat).setWidth 32)
    exec (row.1 d a b p) s = .next (((u.vmove ag d.toNat c.act (pfxZ p) (fun i => lane r.1 i)).raiseFlags ag r.2).retire n c
      ((s.strand ag).pc + BitVec.ofNat 64 (lenP p))))

/-- THE TREE AND THE SCAN (R32, R149): with all lanes active the integer sum of the tree is the sum of the lanes, and with fewer it
is the sum of the active ones; the scan leaves in every active lane the sum of the start value and the active lanes up to it. -/
def Obligations.SumsOfActiveLanes : Prop :=
  ∀ (x : List Lane) (act : Mask) (init : Lane),
    reduceTree (fun a b => (a + b, 0)) 0 x act = (((List.range 96).filter (fun i => act.getLsbD i)).foldl (fun m i => m + lane x i) 0, 0) ∧
    ∀ i, i < 96 → act.getLsbD i = true →
      lane (scan (fun a b => (a + b, 0)) x act 96 0 init).1 i =
        ((List.range (i + 1)).filter (fun j => act.getLsbD j)).foldl (fun m j => m + lane x j) init

/-- REARRANGEMENTS (R150): VCOMPACT puts the active values to the front and the filler behind, in every lane; VEXPAND gives the m-th
active lane lane m; VSEL chooses per lane by the prefix's mask; VPERM indexes, an index of 96 to 127 giving zero.

MOVES (R152): VMOV, VSPLAT, VLANEID and VIOTA write the active lanes; VEXT reads one lane whatever EXEC says, index 96 to 127
giving zero; VINS writes one lane if it is active. -/
def Obligations.LaneMoves : Prop :=
  ((∀ (d a : VReg) (b : SReg) (p : Option Prefix) (s : State) (ag : Agent) (c : Ctx) (u : State),
    let n : Need := { vecNeed p [a.toNat] d 1 6 .vint with src := [b.toNat] }
    Opens n ag s c u →
    let x := u.vsrc ag.groupNo a.toNat (pfxA p)
    let on := (List.range 96).filter (fun i => c.act.getLsbD i)
    exec (.vcompact d a b p) s = .next ((u.vput ag.groupNo d.toNat (lanes (fun i =>
      match on[i]? with
      | some j => lane x j
      | none => (c.get u b.toNat).setWidth 32))).retire n c ((s.strand ag).pc + BitVec.ofNat 64 (lenP p)))) ∧
  (∀ (d a : VReg) (p : Option Prefix) (s : State) (ag : Agent) (c : Ctx) (u : State),
    let n := vecNeed p [a.toNat] d 1 6 .vint
    Opens n ag s c u →
    let x := u.vsrc ag.groupNo a.toNat (pfxA p)
    exec (.vexpand d a p) s = .next ((u.vmove ag d.toNat c.act (pfxZ p) (fun i =>
      lane x ((List.range i).filter (fun j => c.act.getLsbD j)).length)).retire n c
      ((s.strand ag).pc + BitVec.ofNat 64 (lenP p)))) ∧
  (∀ (d a b : VReg) (p : Option Prefix) (s : State) (ag : Agent) (c : Ctx) (u : State),
    let n := vecNeed p [a.toNat, b.toNat] d 1 4 .vint
    Opens n ag s c u →
    let x := u.vsrc ag.groupNo a.toNat (pfxA p)
    let y := u.vsrc ag.groupNo b.toNat (pfxB p)
    exec (.vsel d a b p) s = .next ((u.vmove ag d.toNat c.mask false (fun i => if c.act.getLsbD i then lane x i else lane y i)
      ).retire n c ((s.strand ag).pc + BitVec.ofNat 64 (lenP p)))) ∧
  ∀ (d a b : VReg) (p : Option Prefix) (s : State) (ag : Agent) (c : Ctx) (u : State),
    let n := vecNeed p [a.toNat, b.toNat] d 1 6 .vint
    Opens n ag s c u →
    let x := u.vsrc ag.groupNo a.toNat (pfxA p)
    let y := u.vsrc ag.groupNo b.toNat (pfxB p)
    exec (.vperm d a b p) s = .next ((u.vmove ag d.toNat c.act (pfxZ p) (fun i =>
      if (lane y i).toNat % 128 < 96 then lane x ((lane y i).toNat % 128) else 0)).retire n c
      ((s.strand ag).pc + BitVec.ofNat 64 (lenP p)))) ∧
  ((∀ (d a : VReg) (p : Option Prefix) (s : State) (ag : Agent) (c : Ctx) (u : State),
    let n := vecNeed p [a.toNat] d 1 4 .vint
    Opens n ag s c u → exec (.vmov d a p) s = .next ((u.vmove ag d.toNat c.act (pfxZ p) (fun i =>
      lane (u.vsrc ag.groupNo a.toNat (pfxA p)) i)).retire n c ((s.strand ag).pc + BitVec.ofNat 64 (lenP p)))) ∧
  (∀ (d : VReg) (a : SReg) (p : Option Prefix) (s : State) (ag : Agent) (c : Ctx) (u : State),
    let n : Need := { vecNeed p [] d 1 4 .vint with src := [a.toNat] }
    Opens n ag s c u → exec (.vsplat d a p) s = .next ((u.vmove ag d.toNat c.act (pfxZ p) (fun _ =>
      (c.get u a.toNat).setWidth 32)).retire n c ((s.strand ag).pc + BitVec.ofNat 64 (lenP p)))) ∧
  (∀ (d : SReg) (a : VReg) (b : SReg) (p : Option Prefix) (s : State) (ag : Agent) (c : Ctx) (u : State),
    let n : Need := { vredNeed d a p 1 4 .vint with src := [b.toNat] }
    Opens n ag s c u → let j := (c.get u b.toNat).toNat % 128
    exec (.vext d a b p) s = .next ((u.sset ag d.toNat (if j < 96 then
      (lane (u.vsrc ag.groupNo a.toNat (pfxA p)) j).setWidth 64 else 0)).retire n c
      ((s.strand ag).pc + BitVec.ofNat 64 (lenP p)))) ∧
  (∀ (d : VReg) (a b : SReg) (p : Option Prefix) (s : State) (ag : Agent) (c : Ctx) (u : State),
    let n : Need := { vecNeed p [] d 1 4 .vint with src := [a.toNat, b.toNat] }
    Opens n ag s c u → let j := (c.get u b.toNat).toNat % 128
    exec (.vins d a b p) s = .next ((u.vput ag.groupNo d.toNat (lanes (fun i =>
      if i = j ∧ c.act.getLsbD i = true then (c.get u a.toNat).setWidth 32 else lane (u.vget ag.groupNo d.toNat) i))).retire n c
      ((s.strand ag).pc + BitVec.ofNat 64 (lenP p)))) ∧
  ∀ (d : VReg) (p : Option Prefix) (s : State) (ag : Agent) (c : Ctx) (u : State),
    (let n := vecNeed p [] d 1 4 .vint
     Opens n ag s c u → exec (.vlaneid d p) s = .next ((u.vmove ag d.toNat c.act (pfxZ p) (fun i => BitVec.ofNat 32 i)).retire n c
      ((s.strand ag).pc + BitVec.ofNat 64 (lenP p)))) ∧
    (let n := vecNeed p [] d 1 6 .vint
     Opens n ag s c u → exec (.viota d p) s = .next ((u.vmove ag d.toNat c.act (pfxZ p) (fun i => BitVec.ofNat 32
      ((List.range i).filter (fun j => c.act.getLsbD j)).length)).retire n c ((s.strand ag).pc + BitVec.ofNat 64 (lenP p)))))

/-! ### Memory and atomics (spec/11_isa_memory.md) -/

/-- LOADS AND ATOMICS ISSUE (R155 to R166): a load or an atomic with no check or wait that holds issues. Earlier accesses to its bytes
come first; an atomic commits the open region. A load whose data wait on nothing is performed at once, and its destination stays
pending for its latency and what its conversion adds; any other becomes an access, in whose order the pushes of its ports stand, with its addresses, operands, destination and whether it acquires or releases,
which LOAD_COMPLETE performs and writes; one for which a home answers a fault or poison holds its agent in the sequence. -/
def Obligations.LoadsAndAtomicsIssue : Prop :=
  ∀ (d r x : BitVec 6) (st : StreamNo) (zv : MemSize) (zs : SMemSize) (e : Option (BitVec 25)),
  ∀ row ∈ loadForms d r x st zv zs e,
  ∀ (s : State) (ag : Agent) (c : Ctx) (u : State),
    let f := row.2
    Opens f.need ag s c u →
    let es := f.elems c u
    let probes := es.map (fun e => u.probe ag (f.what == 2) e)
    u.memTrap ag es probes false = none → u.slotsFull ag.unit = false →
    let v := es.foldl (fun s e => s.settle ag s.nextId e.va e.n) u
    let w := if f.what = 2 then v.implicitCommit ag else v
    let uo := u.allUo ag es
    let ord := (u.stream ag f.st).ord
    let acq := !uo && (f.acquire || (f.what == 2 && ord.getLsbD 0))
    let held := probes.any (fun p => p != .ok)
    let acc := f.access c u es acq (!uo && f.what == 2 && ord.getLsbD 1) held
    let put : State := { w with accesses := tabPut w.accesses w.nextId acc, nextId := w.nextId + 1 }
    let next := (s.strand ag).pc + BitVec.ofNat 64 f.need.len
    let lat := if held || f.what = 2 || put.mustWait w.nextId acc then none else put.loadLat ag es
    let hold := f.need.dst.foldl (fun t r => t.reservePush ag w.nextId r) put
    exec row.1 s = .next (match lat, acq with
      | some l, false =>
        let t := (put.performOne w.nextId).1
        ((({ t with accesses := tabDel t.accesses w.nextId } : State).deliver w.nextId
          ((tabFind t.accesses w.nextId).getD acc)).retire { f.need with lat := l + convExtra f.size (u.conv ag) } c next)
      | some l, true => (hold.inClk l (.loadComplete w.nextId .none)).retire { f.need with open_ := true } c next
      | none, _ =>
        let t := hold.later 16 (.loadComplete w.nextId .none)
        if held then (t.retire { f.need with open_ := true } c (s.strand ag).pc).modStrand ag (fun y =>
          { y with wait := some (.access w.nextId), resume := next })
        else t.retire { f.need with open_ := true } c next)

/-- STORES ISSUE (R53, R84, R155, R157 to R162, R167): a store, or CACHE.ZLINE, for which no check or wait holds and every home
answers becomes one access; a release beyond the core first commits the region, and a release performs what went before as far as it
can. With nothing earlier in its way the access is performed in its core at once: into the region's buffer, a window's storage, the L1,
or on its way to its home; else STORE_PERFORMED performs it. The agent goes on behind its sequence and waits for none of it. -/
def Obligations.StoresIssue : Prop :=
  ∀ (d r x : BitVec 6) (st : StreamNo) (zv : MemSize) (zs : SMemSize) (e : Option (BitVec 25)),
  ∀ row ∈ ([
    (Instr.vst d r x st zv e, vecForm 1 false false d r x st zv e, fun f => f.elems, fun f => f.data),
    (.vstr d r x st zv e, vecForm 1 false true d r x st zv e, fun f => f.elems, fun f => f.data),
    (.sst d r x st zs e, scalForm 1 false false d r x st zs e, fun f => f.elems, fun f => f.data),
    (.sstr d r x st zs e, scalForm 1 false true d r x st zs e, fun f => f.elems, fun f => f.data),
    (.cacheZline r x st e, cacheForm r x st e,
      fun f c s => [{ key := 0, own := none, va := (c.addrS s f.base f.idx f.x).toNat / 128 * 128, n := 128, al := 1 }],
      fun _ _ _ _ => (List.replicate 128 0, 0))] :
      List (Instr × MemForm × (MemForm → Ctx → State → List Elem) × (MemForm → Ctx → State → Elem → List Byte × FFlags))),
  ∀ (s : State) (ag : Agent) (c : Ctx) (u : State),
    let f := row.2.1
    Opens f.need ag s c u →
    let es := row.2.2.1 f c u
    let data := row.2.2.2 f c u
    let sp := u.stream ag f.st
    let rel := f.release && !u.allUo ag es
    let beyond := rel && u.beyondCore ag sp.scope
    let buffers := (u.wg ((u.wgOf ag).getD 0)).buffers && !ag.isThread && !beyond
    let probes := es.map (fun e => u.storeProbe ag sp beyond buffers e)
    probes.all (fun p => p == .ok) = true →
    u.memTrap ag es probes true = none → u.slotsFull ag.unit = false →
    let v := if beyond then u.implicitCommit ag else u
    let w := if rel then v.flush ag v.nextId else es.foldl (fun s e => s.settle ag s.nextId e.va e.n) v
    let z := w.raiseFlags ag (es.foldl (fun m e => m ||| (data e).2) 0)
    let acc := f.store c u es (fun e => (data e).1) rel buffers
    let put : State := { z with accesses := tabPut z.accesses z.nextId acc, nextId := z.nextId + 1 }
    let out := if put.mustWait z.nextId acc || put.releaseWaits acc then put else put.storeVia z.nextId
    let kept := match tabFind out.accesses z.nextId with
      | some y => y.via
      | none => false
    exec row.1 s = .next ((if es.isEmpty then z else if kept then out.later 1 (.storePerformed z.nextId .none) else out).retire
      f.need c ((s.strand ag).pc + BitVec.ofNat 64 f.need.len))

/-- CACHE (R53, R154, R155, R167): the members that write nothing into the line act on the line of the address, after earlier accesses
to it; WBACK, INVAL and WBINV commit the open region first. On a local window they have no effect. None of them faults.

CACHE.INVAL (R167): the line leaves the L1 of a vector core with its dirty bytes; a local window and a control thread have none. Every
other line of every L1, and memory, are as they were. -/
def Obligations.CacheMembers : Prop :=
  (∀ row ∈ ([
    (Instr.cachePfl1, false, fun s a va st => s.prefetch a va st true), (Instr.cachePfl2, false, fun s a va st => s.prefetch a va st false),
    (Instr.cacheWback, true, fun s a va _ => s.wback a va), (Instr.cacheInval, true, fun s a va _ => s.invalL1 a va),
    (Instr.cacheWbinv, true, fun s a va _ => s.wbinv a va)] :
      List ((SReg → SReg → StreamNo → Option (BitVec 25) → Instr) × Bool × (State → Agent → Nat → Nat → State))),
  ∀ (r x : SReg) (st : StreamNo) (e : Option (BitVec 25)) (s : State) (ag : Agent) (c : Ctx) (u : State),
    let n := (cacheForm r x st e).need
    Opens n ag s c u → u.slotsFull ag.unit = false →
    let va := (c.get u r.toNat + c.get u x.toNat + dispValue e).toNat / 128 * 128
    let v := u.settle ag u.nextId va 128
    exec (row.1 r x st e) s = .next ((if (regionOf va 128).1 != .global then u
      else row.2.2 (if row.2.1 then v.implicitCommit ag else v) ag va st.toNat).retire n c
      ((s.strand ag).pc + BitVec.ofNat 64 (lenX e)))) ∧
  (∀ (s : State) (g k va : Nat), va / 128 * 128 = va → va < 0xFFF0000000000 - 127 →
    let ag := Agent.split g k
    let key := lineKey (s.tagAsid (s.ctxOf ag).1 (s.ctxOf ag).2 va) va
    (s.invalL1 ag va).l1 (g / 32) key = none ∧ (s.invalL1 ag va).mem = s.mem ∧
      (∀ c key', c ≠ g / 32 ∨ key' ≠ key → (s.invalL1 ag va).l1 c key' = s.l1 c key') ∧
      (∀ i, s.invalL1 (.thread i) va = s))

/-- VALUES OF LOADS (R156 to R159, R162, R165): what a load or atomic that has got its bytes writes. A scalar load writes its bytes,
lowest first and zero-extended; sixteen bytes go to two registers; a port's push, entered when the load issued, takes its value. A vector load of B, H, W, D or Q writes lane by lane, zero-extended,
64 and 128 bits over the next registers, and a lane that got nothing keeps its value; of C with FMT's conversion, the widened value
with the flags it raises, or the elements of its SX block.

WHAT AN ATOMIC STORES (R165, R166): the new value of the word for each operation; CAS writes only where the old value equals y. -/
def Obligations.LoadedValues : Prop :=
  ((∀ (s : State) (id : Nat) (x : Access) (d sz conv : Nat) (bs : List Byte), x.dest = (1, d, sz, conv) → tabFind x.got 0 = some bs →
    (sz ≠ 4 → s.deliver id x = s.loadSet id x.agent d (BitVec.ofNat 64 (ofBytes bs))) ∧
    (sz = 4 → s.deliver id x = (s.loadSet id x.agent d (BitVec.ofNat 64 (ofBytes (bs.take 8)))).loadSet id x.agent (d + 1)
      (BitVec.ofNat 64 (ofBytes ((bs.drop 8).take 8))))) ∧
  (∀ (s : State) (id : Nat) (a : Agent) (r : Nat) (v : Word),
    ((∀ p ∈ s.accesses, ¬(p.2.what = 5 ∧ p.2.op = id ∧ p.2.dest.2.1 = r)) → s.loadSet id a r v = s.sset a r v) ∧
    (∀ p y, tabFind s.accesses p = some y → y.what = 5 → y.op = id → y.dest.2.1 = r →
      (∀ n z, (n, z) ∈ s.accesses → z.what = 5 → z.op = id → z.dest.2.1 = r → n = p) →
      ∀ c q w, y.act = some (.push c q w) →
        ∃ z, tabFind (s.loadSet id a r v).accesses p = some z ∧ z.act = some (.push c q (some v)) ∧ z.agent = y.agent)) ∧
  (∀ (s : State) (id : Nat) (x : Access) (g k d sz conv i j : Nat), x.dest = (0, d, sz, conv) → x.agent = .split g k → sz < 5 → i < 96 →
    (tabFind s.groups g).isSome = true →
    lane ((s.deliver id x).vget g (d + j)) i =
      if j < sizeRegs sz then
        match tabFind x.got i with
        | some bs => BitVec.ofNat 32 (ofBytes ((bs.drop (4 * j)).take 4))
        | none => lane (s.vget g (d + j)) i
      else lane (s.vget g (d + j)) i) ∧
  ∀ (s : State) (id : Nat) (x : Access) (g k d conv i : Nat), x.dest = (0, d, 5, conv) → x.agent = .split g k → i < 96 →
    (tabFind s.groups g).isSome = true →
    lane ((s.deliver id x).vget g d) i =
      if conv < 3 then
        match tabFind x.got i with
        | some bs => if conv = 0 then BitVec.ofNat 32 (ofBytes bs)
          else BitVec.ofNat 32 (convF (if conv = 1 then bf16 else fp16) fp32 .ne false (ofBytes bs)).1
        | none => lane (s.vget g d) i
      else
        match tabFind x.got (i / 16) with
        | some bs => if x.mask.getLsbD i then sxLane conv bs i else lane (s.vget g d) i
        | none => lane (s.vget g d) i) ∧
  (∀ (x y z : BitVec 32) (p q v : BitVec 64),
    atomNew 0 x.toNat y.toNat z.toNat = some (x + y).toNat ∧ atomNew 1 x.toNat y.toNat z.toNat = some (x &&& y).toNat ∧
    atomNew 2 x.toNat y.toNat z.toNat = some (x ||| y).toNat ∧ atomNew 3 x.toNat y.toNat z.toNat = some (x ^^^ y).toNat ∧
    atomNew 4 x.toNat y.toNat z.toNat = some (if y.toInt < x.toInt then y else x).toNat ∧
    atomNew 5 x.toNat y.toNat z.toNat = some (if x.toInt < y.toInt then y else x).toNat ∧
    atomNew 6 x.toNat y.toNat z.toNat = some y.toNat ∧
    atomNew 7 x.toNat y.toNat z.toNat = (if x = y then some z.toNat else none) ∧
    atomNew 8 x.toNat y.toNat z.toNat = some (fp32.addV .ne false (fp32.val false x.toNat) (fp32.val false y.toNat)).1 ∧
    atomNew 9 x.toNat y.toNat z.toNat = some (fp32.minmaxV false (fp32.val false x.toNat) (fp32.val false y.toNat)).1 ∧
    atomNew 10 x.toNat y.toNat z.toNat = some (fp32.minmaxV true (fp32.val false x.toNat) (fp32.val false y.toNat)).1 ∧
    atomNew 11 x.toNat y.toNat z.toNat = some (if x.toNat ≤ y.toNat then x else y).toNat ∧
    atomNew 12 x.toNat y.toNat z.toNat = some (if x.toNat ≤ y.toNat then y else x).toNat ∧
    atomNew 13 x.toNat y.toNat z.toNat = some (if y.toNat ≤ x.toNat then 0 else x + 1).toNat ∧
    atomNew 14 x.toNat y.toNat z.toNat = some (if x = 0 ∨ y.toNat < x.toNat then y else x - 1).toNat ∧
    atomNew 16 p.toNat q.toNat v.toNat = some (p + q).toNat ∧ atomNew 17 p.toNat q.toNat v.toNat = some (p &&& q).toNat ∧
    atomNew 18 p.toNat q.toNat v.toNat = some (p ||| q).toNat ∧ atomNew 19 p.toNat q.toNat v.toNat = some (p ^^^ q).toNat ∧
    atomNew 20 p.toNat q.toNat v.toNat = some (if q.toInt < p.toInt then q else p).toNat ∧
    atomNew 21 p.toNat q.toNat v.toNat = some (if p.toInt < q.toInt then q else p).toNat ∧
    atomNew 22 p.toNat q.toNat v.toNat = some q.toNat ∧ atomNew 23 p.toNat q.toNat v.toNat = (if p = q then some v.toNat else none))

/-- A SCALAR STORE TO A LOCAL WINDOW (R75 to R78, R155, R162): with no access of its own still under way, outside an open region that
buffers and with no watch session, SST to an aligned address that the launch is entitled to writes the low bytes of s[d], for .Q those
of s[d] and s[d+1], least significant first, at the storage of that address, and no other byte of memory; the agent goes on behind it.

A SCALAR LOAD FROM THE CORE SCRATCHPAD (R75 to R78, R155, R156, R160, R162): under the same conditions SLD reads the bytes of its
storage, under what the L1 buffers of it, zero-extends a short one, and leaves every byte of memory. -/
def Obligations.LocalScalarAccess : Prop :=
  (∀ (d r x : SReg) (st : StreamNo) (z : SMemSize) (e : Option (BitVec 25)) (s : State) (ag : Agent) (c : Ctx) (u : State) (p : Nat),
    let f := scalForm 1 false false d r x st z e
    let n := match z with | .b => 1 | .h => 2 | .w => 4 | .d => 8 | .q => 16
    Opens f.need ag s c u →
    let va := (c.get u r.toNat + c.get u x.toNat + dispValue e).toNat
    va % n = 0 → (regionOf va n).1 ≠ .global → (regionOf va n).1 ≠ .none →
    u.localAt ag none (regionOf va n).1 (regionOf va n).2 n = some p →
    u.accesses = [] → (u.wg ((u.wgOf ag).getD 0)).buffers = false → u.claimed ag = false →
    let bytes := match z with
      | .q => toBytes (c.get u d.toNat).toNat 8 ++ toBytes (c.get u (d.toNat + 1)).toNat 8
      | _ => toBytes (c.get u d.toNat).toNat n
    ∃ t, exec (.sst d r x st z e) s = .next t ∧ (t.strand ag).pc = (s.strand ag).pc + BitVec.ofNat 64 (lenX e) ∧
      ∀ a, memGet t.mem a = if p ≤ a ∧ a < p + n then bytes.getD (a - p) 0 else memGet u.mem a) ∧
  (∀ (d r x : SReg) (st : StreamNo) (z : SMemSize) (e : Option (BitVec 25)) (s : State) (ag : Agent) (c : Ctx) (u : State) (p : Nat),
    let f := scalForm 0 false false d r x st z e
    let n := match z with | .b => 1 | .h => 2 | .w => 4 | .d => 8 | .q => 16
    Opens f.need ag s c u →
    let va := (c.get u r.toNat + c.get u x.toNat + dispValue e).toNat
    va % n = 0 → (regionOf va n).1 = .scratch → u.localAt ag none .scratch (regionOf va n).2 n = some p →
    u.accesses = [] → (u.poisonIn p n).isEmpty = true → u.claimed ag = false →
    let bytes := (u.localBytes ag p n).1
    let plain := fun (q : Nat) => q ≠ 0 ∧ q < 48 ∨ q = 56 ∨ q = 57 ∨ q = 58 ∨ q = 59 ∨ q = 63
    ∃ t, exec (.sld d r x st z e) s = .next t ∧ (t.strand ag).pc = (s.strand ag).pc + BitVec.ofNat 64 (lenX e) ∧
      (Machine.isPort d.toNat = false → t.mem = u.mem) ∧
      (z ≠ .q → plain d.toNat → t.sget ag d.toNat = BitVec.ofNat 64 (ofBytes bytes)) ∧
      (z = .q → plain d.toNat → plain (d.toNat + 1) → t.sget ag d.toNat = BitVec.ofNat 64 (field bytes 0 8) ∧
        t.sget ag (d.toNat + 1) = BitVec.ofNat 64 (field bytes 8 8)))

/-- CHECKS 4 AND 5 (R93, R360, R362): a register beyond the declared count, a misaligned register, or a kind of core that the member
does not run on is ILLEGAL (0x01) with the subcode above the word of the instruction; nothing of the instruction happens.

A MISALIGNED ACCESS (R155, R362): before any effect, the first access of a load, an atomic or a store whose address is no multiple
of its alignment makes the sequence take MISALIGN (0x03) with that address in TVAL. -/
def Obligations.ChecksBeforeIssue : Prop :=
  (∀ (n : Need) (a : Agent) (s : State) (body : Ctx → State → Act), s.cur = some a → s.alive a = true →
    let count := match a with
      | .split g _ => (s.group g).nreg
      | .thread _ => 64
    let word := BitVec.ofNat 56 (s.insnWord a (s.strand a).pc n.len % 2 ^ 48)
    ((∃ r ∈ n.lim, count ≤ r) ∨ (∃ r ∈ n.even, r % 2 = 1) ∨ (∃ r ∈ n.quad, r % 4 ≠ 0) →
      issue n body s = .next (s.takeTrap a 0x01 ((4 : BitVec 8) ++ word))) ∧
    ((∀ r ∈ n.lim, r < count) → (∀ r ∈ n.even, r % 2 = 0) → (∀ r ∈ n.quad, r % 4 = 0) →
      (a.isThread = true ∧ n.ctl = false) ∨ (a.isThread = false ∧ n.vec = false) →
      issue n body s = .next (s.takeTrap a 0x01 ((5 : BitVec 8) ++ word)))) ∧
  (∀ (d r x : BitVec 6) (st : StreamNo) (zv : MemSize) (zs : SMemSize) (e : Option (BitVec 25)),
  ∀ row ∈ loadForms d r x st zv zs e ++ storeForms d r x st zv zs e,
  ∀ (s : State) (ag : Agent) (c : Ctx) (u : State) (l : Elem),
    Opens row.2.need ag s c u → (row.2.elems c u).find? (fun e => e.va % e.al != 0) = some l →
    exec row.1 s = .next (s.takeTrap ag 0x03 (BitVec.ofNat 64 l.va)))

/-! ### System registers, traps, queues, ranges (spec/07_assembly.md, spec/15_isa_system.md) -/

/-- SRD, SWR, SETFMT, SCFG (R107, R109 to R111, R229): SRD puts the register's value into s[d]; SWR writes it; SETFMT gives the old FMT
and writes the new; SCFG writes eight entries of the stream table, seven bits each. An event whose counting is off reads 0, or with the
interface's strict bit makes SRD a system trap (R285, R396).

RIGHTS TO SYSTEM REGISTERS (R107, R225, R360, R364): with nothing pending, SRD or SWR of a number that is reserved or out of the
agent's reach takes ILLEGAL 10 with the number, and SWR of one that it may only read takes PRIV with the number. A control thread
writes TVEC to TVAL, STKCFG, ACCOWNER, ACCLIVE and CHRYCFG in supervisor privilege only. -/
def Obligations.SystemRegisters : Prop :=
  ((∀ (d : SReg) (n : BitVec 12) (s : State) (ag : Agent) (c : Ctx) (u : State),
    Opens { dst := [d.toNat], pre := srdPre n.toNat } ag s c u →
    let ctx := u.ctxOf ag
    let off := (0x100 ≤ n.toNat ∧ n.toNat ≤ 0x11F) ∧ u.eventOff ctx.1 ctx.2 (n.toNat % 16) = true ∧ u.viBit ctx.1 1 = true
    (¬off → exec (.srd d n) s = .next ((u.sset ag d.toNat (u.sysRead ag n.toNat)).retire { dst := [d.toNat], pre := srdPre n.toNat } c
      ((s.strand ag).pc + 4))) ∧
    (off → exec (.srd d n) s = .next (s.takeTrapAs ag true 0x06 (BitVec.ofNat 64 (n.toNat % 16))))) ∧
  (∀ (n : BitVec 12) (a : SReg) (s : State) (ag : Agent) (c : Ctx) (u : State),
    Opens { src := [a.toNat], pre := swrPre n.toNat } ag s c u → u.swrWaits ag n.toNat (c.get u a.toNat) = false →
    exec (.swr n a) s = .next ((u.sysWrite ag n.toNat (c.get u a.toNat)).retire { src := [a.toNat], pre := swrPre n.toNat } c
      ((s.strand ag).pc + 4))) ∧
  (∀ (d a : SReg) (s : State) (ag : Agent) (c : Ctx) (u : State),
    let n : Need := { src := [a.toNat], dst := [d.toNat], ctl := false }
    Opens n ag s c u →
    exec (.setfmt d a) s = .next (((u.setFmt ag (c.get u a.toNat)).sset ag d.toNat ((u.fmt ag).setWidth 64)).retire n c
      ((s.strand ag).pc + 4))) ∧
  ∀ (a : SReg) (h : BitVec 1) (s : State) (ag : Agent) (c : Ctx) (u : State),
    let n : Need := { src := [a.toNat] }
    Opens n ag s c u →
    exec (.scfg a h) s = .next (((List.range 8).foldl (fun (t : State) m => t.stput ag (8 * h.toNat + m)
      ((c.get u a.toNat).extractLsb' (8 * m) 7)) u).retire n c ((s.strand ag).pc + 4))) ∧
  (∀ (d a : SReg) (n : BitVec 12) (s : State) (ag : Agent), s.cur = some ag → s.alive ag = true → s.pending ag = [] →
    let mine := (0x20 ≤ n.toNat ∧ n.toNat ≤ 0x2F)
    let priv := (0x08 ≤ n.toNat ∧ n.toNat ≤ 0x0B) ∨ n = 0x200 ∨ n = 0x300
    let shared := n.toNat = 0 ∨ n.toNat = 3 ∨ n.toNat = 4 ∨ (0x40 ≤ n.toNat ∧ n.toNat ≤ 0x4F) ∨ (0x51 ≤ n.toNat ∧ n.toNat ≤ 0x57) ∨
      (0x100 ≤ n.toNat ∧ n.toNat ≤ 0x10F) ∨ n.toNat = 0x201 ∨ n.toNat = 0x301 ∨ n.toNat = 0x302
    let vecRw := n.toNat = 1 ∨ n.toNat = 2 ∨ (0x08 ≤ n.toNat ∧ n.toNat ≤ 0x0B) ∨ n.toNat = 0x11 ∨ (0x30 ≤ n.toNat ∧ n.toNat ≤ 0x37)
    let vecRo := n.toNat = 0x10 ∨ n.toNat = 0x12 ∨ (0x110 ≤ n.toNat ∧ n.toNat ≤ 0x11F) ∨ n.toNat = 0x200 ∨ n.toNat = 0x300
    let writes := mine ∨ if ag.isThread then s.sup ag = true ∧ (priv ∨ (0x210 ≤ n.toNat ∧ n.toNat ≤ 0x212)) else vecRw
    let reads := writes ∨ shared ∨ if ag.isThread then priv ∨ (0x210 ≤ n.toNat ∧ n.toNat ≤ 0x212) else vecRo
    (¬reads → exec (.srd d n) s = .next (s.takeTrap ag 0x01 (BitVec.ofNat 64 (10 * 2 ^ 56 + n.toNat))) ∧
      exec (.swr n a) s = .next (s.takeTrap ag 0x01 (BitVec.ofNat 64 (10 * 2 ^ 56 + n.toNat)))) ∧
    (reads → ¬writes → exec (.swr n a) s = .next (s.takeTrap ag 0x02 (BitVec.ofNat 64 n.toNat))))

/-- NOP, TRAP, BKPT, ERET, YIELD, WAITCYC, EXIT (R39, R108, R226 to R228, R283): TRAP takes the trap 0x0F with s[a]; BKPT takes 0x0D, or
stops the workgroup of a claimed context; ERET returns to TPC; YIELD and WAITCYC keep their agent from being ready for 64 or s[a][31:0]
clk; EXIT retires the active lanes of a split, or ends the context of a control thread that has no matrix operation under way. -/
def Obligations.TrapsWaitsAndEnds : Prop :=
  ∀ (a : SReg) (s : State) (ag : Agent) (c : Ctx) (u : State),
    let next := (s.strand ag).pc + 4
    let n : Need := { src := [a.toNat] }
    (Opens {} ag s c u → exec .nop s = .next (u.retire {} c next)) ∧
    (Opens n ag s c u → exec (.trap a) s = .next (s.takeTrap ag 0x0F (c.get u a.toNat))) ∧
    (Opens {} ag s c u → u.claimed ag = false → exec .bkpt s = .next (s.takeTrap ag 0x0D 0)) ∧
    (Opens {} ag s c u → u.claimed ag = true → exec .bkpt s = .next ((match u.wgOf ag with
      | some w => u.stopWg w (s.strand ag).pc
      | none => u.modStrand ag (fun x => { x with stopped := true })).block ag .trap)) ∧
    (Opens eretNeed ag s c u → exec .eret s = .next ((u.retire eretNeed c next).returnTrap ag)) ∧
    (Opens {} ag s c u →
      exec .yield s = .next ((u.modStrand ag (fun x => { x with delay := u.clk + 1 + 64 })).retire {} c next)) ∧
    (Opens n ag s c u → exec (.waitcyc a) s = .next ((u.modStrand ag (fun x =>
      { x with delay := u.clk + 1 + (c.get u a.toNat).toNat % 2 ^ 32 })).retire n c next)) ∧
    (Opens {} ag s c u → ∀ g k, ag = .split g k → exec .exit s = .next ((u.retire {} c next).exitSplit g k)) ∧
    (Opens {} ag s c u → ∀ t, ag = .thread t → u.threadIdle t = true → exec .exit s = .next ((u.retire {} c next).exitThread t))

/-- FENCES AND REGIONS (R52, R53, R230, R231, R235): FENCE.X issues at once; FENCE.S beyond the core commits the region, writes its
streams' dirty sectors back and ends when its accesses are performed, else waits; REGION and RCLOSE wait until every group of the
workgroup has arrived, and are nothing to a control program. The streams are those of s[a][15:0]; all sixteen for s0. -/
def Obligations.FencesAndRegions : Prop :=
  (∀ (a : SReg) (s : State) (ag : Agent) (c : Ctx) (u : State),
    let n : Need := { src := [a.toNat] }
    Opens n ag s c u →
    let m : BitVec 16 := if a = 0 then 0xFFFF else (c.get u a.toNat).setWidth 16
    exec (.fenceX a) s = .next ((u.widen ag m).retire n c ((s.strand ag).pc + 4)) ∧
    ∀ (sc : ScopeCode),
      let v := (if u.beyondCore ag (scopeCode sc) then u.implicitCommit ag else u).fenceWork ag m (scopeCode sc)
      (v.fenceReady ag m (scopeCode sc) = true → exec (.fenceS a sc) s = .next ((v.fenceEnd ag m).retire n c ((s.strand ag).pc + 4))) ∧
      (v.fenceReady ag m (scopeCode sc) = false → exec (.fenceS a sc) s = .next
        ((v.waitIn ag ((s.strand ag).pc + 4) (.fence m (scopeCode sc))).retire n c (s.strand ag).pc))) ∧
  ∀ row ∈ [(Instr.region, true), (Instr.rclose, false)],
  ∀ (s : State) (ag : Agent) (c : Ctx) (u : State), Opens regionNeed ag s c u →
    let pc := (s.strand ag).pc
    (ag.isThread = true → exec row.1 s = .next (u.retire regionNeed c (pc + 4))) ∧
    ∀ g k, ag = .split g k →
      let w := (u.group g).wg
      exec row.1 s = .next ((((u.waitIn ag (pc + 4) .region).modWg w (fun x => { x with
        arrived := (u.group g).idx :: x.arrived, nextPc := pc + 4, nextBuffers := row.2 })).regionCheck w).retire regionNeed c pc)

/-- HARDWARE QUEUES (R105, R232 to R234, R367): QBIND binds a port to the queue of s[a][4:0], or without bit 7 unbinds it; a queue that is
not the workgroup's traps with 0x100 + its number. QTRY pops into s[d+1] with s[d] = 1, or gives s[d] = 0. QSTAT gives the entries that can
be popped, those held, the queue and a valid bit, or 0.

SKIPPER RANGES (R51, R53, R237, R364): GRAB commits the region, gives NEXT and the count, the smaller of R and of the larger of MINCHUNK
and R over F × P rounded up, and moves both; RSET writes the range for the issuer's interface; RSTAT reads it. P or MINCHUNK 0 is ILLEGAL 12. -/
def Obligations.QueuesAndRanges : Prop :=
  ((∀ (p a : SReg) (s : State) (ag : Agent) (c : Ctx) (u : State),
    let n : Need := { src := [a.toNat] }
    Opens n ag s c u →
    let v := c.get u a.toNat
    let q : BitVec 5 := v.setWidth 5
    (v.getLsbD 7 = false → exec (.qbind p a) s = .next ((u.bindPort ag p.toNat none).retire n c ((s.strand ag).pc + 4))) ∧
    (v.getLsbD 7 = true → u.queueRefused ag q.toNat = false →
      exec (.qbind p a) s = .next ((u.bindPort ag p.toNat (some q)).retire n c ((s.strand ag).pc + 4))) ∧
    (v.getLsbD 7 = true → u.queueRefused ag q.toNat = true →
      exec (.qbind p a) s = .next (s.takeTrap ag 0x0B (BitVec.ofNat 64 (0x100 + q.toNat))))) ∧
  (∀ (d p : SReg) (s : State) (ag : Agent) (c : Ctx) (u : State), Opens (qtryNeed d p) ag s c u →
    exec (.qtry d p) s = .next ((match u.front ag p.toNat with
      | some v => ((u.pop ag p.toNat).sset ag (d.toNat + 1) v).sset ag d.toNat 1
      | none => u.sset ag d.toNat 0).retire (qtryNeed d p) c ((s.strand ag).pc + 4))) ∧
  ∀ (d p : SReg) (s : State) (ag : Agent) (c : Ctx) (u : State),
    let n : Need := { dst := [d.toNat] }
    Opens n ag s c u →
    exec (.qstat d p) s = .next ((u.sset ag d.toNat (match u.boundQueue ag p.toNat with
      | none => 0
      | some q =>
        let held := ((u.queue ag.cluster q).filter (fun e => e.held.isSome)).length
        BitVec.ofNat 64 (2 ^ 31 + q * 2 ^ 16 + held * 2 ^ 8 + ((u.queue ag.cluster q).length - held)))).retire n c
      ((s.strand ag).pc + 4))) ∧
  ((∀ (d : SReg) (r : RangeNo) (s : State) (ag : Agent) (c : Ctx) (u : State), Opens (rangeNeed d r s) ag s c u →
    let x := tabGet u.ranges r.toNat { next := 0, state := 0, owner := 0 }
    let left := (x.state.extractLsb' 0 32).toNat
    let parts := ((x.state.extractLsb' 60 3).toNat + 1) * (x.state.extractLsb' 48 12).toNat
    let count := if left = 0 then 0 else Nat.min left (Nat.max (x.state.extractLsb' 32 16).toNat ((left + parts - 1) / parts))
    let v := (u.implicitCommit ag).spend
    let y : Range := { x with next := x.next + BitVec.ofNat 64 count, state := x.state - BitVec.ofNat 64 count }
    exec (.grab d r) s = .next (((({ v with ranges := tabPut v.ranges r.toNat y } : State).sset ag d.toNat x.next).sset ag
      (d.toNat + 1) (BitVec.ofNat 64 count)).retire (rangeNeed d r s) c ((s.strand ag).pc + 4)) ∧
    exec (.rstat d r) s = .next ((((u.sset ag d.toNat x.next).sset ag (d.toNat + 1) x.state).spend).retire (rangeNeed d r s) c
      ((s.strand ag).pc + 4))) ∧
  ∀ (r : RangeNo) (a b : SReg) (s : State) (ag : Agent) (c : Ctx) (u : State), Opens (rsetNeed r a b) ag s c u →
    let w := c.get u b.toNat
    let ok := w.extractLsb' 48 12 ≠ 0 ∧ w.extractLsb' 32 16 ≠ 0
    let v := u.implicitCommit ag
    let x : Range := { next := c.get u a.toNat, state := w &&& 0x7FFFFFFFFFFFFFFF, owner := (v.ctxOf ag).1 }
    (ok → exec (.rset r a b) s = .next (({ v with ranges := tabPut v.ranges r.toNat x } : State).retire (rsetNeed r a b) c
      ((s.strand ag).pc + 4))) ∧
    (¬ok → exec (.rset r a b) s = .next (s.takeTrap ag 0x01 (BitVec.ofNat 64 (12 * 2 ^ 56 + w.toNat % 2 ^ 48)))))

/-- STACK INSTRUCTIONS (R62, R66 to R68, R238): BURN adds min(s[a], 4,095 − b) du to its layer's window, b the du burned in it before, with
its slot charged BALANCE; SHUNT grants what the balancer has left of s[a] for the window; RDMIS reads the mismatch of the last window;
DCLS sets DRAWCLS. -/
def Obligations.StackInstructions : Prop :=
  ∀ (d a : SReg) (s : State) (ag : Agent) (c : Ctx) (u : State),
    let pc := (s.strand ag).pc + 4
    (let n : Need := { src := [a.toNat], ctl := false, draw := .none, cause := .balance }
     Opens n ag s c u → exec (.burn a) s = .next ((u.drawn ag (.burn (Nat.min (c.get u a.toNat).toNat (4095 - (u.core ag.unit).burned)))
      0).retire n c pc)) ∧
    (let n : Need := { src := [a.toNat], dst := [d.toNat], ctl := false, lat := 2, cause := .balance }
     Opens n ag s c u →
     let k := u.cluster ag.cluster
     let got := Nat.min (c.get u a.toNat).toNat ((k.stkcfg.extractLsb' 32 16).toNat - k.granted)
     exec (.shunt d a) s = .next ((((u.modCluster ag.cluster (fun k => { k with
        granted := k.granted + got, shuntloss := k.shuntloss + BitVec.ofNat 64 got })).modCore ag.unit (fun x =>
          { x with shunt := x.shunt + got })).sset ag d.toNat (BitVec.ofNat 64 got)).retire n c pc)) ∧
    (let n : Need := { dst := [d.toNat], ctl := false }
     Opens n ag s c u →
     exec (.rdmis d) s = .next ((u.sset ag d.toNat (((u.core ag.unit).mis.setWidth 16).signExtend 64)).retire n c pc)) ∧
    (let n : Need := { src := [a.toNat], ctl := false }
     Opens n ag s c u →
     exec (.dcls a) s = .next ((u.modGroup ag.groupNo (fun x => { x with drawcls := (c.get u a.toNat).setWidth 2 })).retire n c pc))

/-! ### Divergence, barriers, descriptors (spec/03_execution.md, spec/08_isa_scalar.md, spec/13_isa_engines.md) -/

/-- VBR and VBR.N (R126 to R128): T is the lanes of EXEC in k (not in k). All of EXEC goes to the target; none of it falls through; else
the branch folds, or splits the group: the lowest free split number takes T to the target, both link to the join, and the old split falls
through with the rest; with no number free, or a chain of 16, the reconvergence stack takes the entry; with that full too, RECONV (0x0C).

KBR (R129): a branch of the whole split on EXEC ∧ k: any, all of EXEC, or none. -/
def Obligations.DivergentBranches : Prop :=
  (∀ row ∈ [(Instr.vbr, false), (Instr.vbrN, true)],
  ∀ (kr : KReg) (o : BitVec 11) (j : BitVec 10) (s : State) (g k : Nat) (c : Ctx) (u : State),
    let ag := Agent.split g k
    let n : Need := { ksrc := [kr.toNat], ctl := false }
    Opens n ag s c u →
    let pc := (s.strand ag).pc
    let y := u.splitOf g k
    let m := u.kget g kr.toNat
    let T := y.ex &&& (if row.2 then ~~~m else m)
    let tgt := pc + 2 * o.signExtend 64
    let join := pc + 2 * j.setWidth 64
    let rest := y.ex &&& ~~~T
    let links := (y.nest.filter Nest.isLink).length
    let entries := (y.nest.filter (fun x => !x.isLink)).length
    (T = y.ex → exec (row.1 kr o j) s = .next (u.retire n c tgt)) ∧
    (T ≠ y.ex → T = 0 → exec (row.1 kr o j) s = .next (u.retire n c (pc + 4))) ∧
    (T ≠ y.ex → T ≠ 0 → foldable u g k tgt join = true → exec (row.1 kr o j) s = .next (((match y.nest with
      | .link _ b _ _ :: _ => u.modSplit g b (fun z => { z with ex := z.ex ||| T })
      | _ => u).modSplit g k (fun y => { y with ex := rest })).retire n c (pc + 4))) ∧
    (T ≠ y.ex → T ≠ 0 → foldable u g k tgt join = false →
      (∀ f, freeSplit (u.group g) = some f → links < 16 →
        exec (row.1 kr o j) s = .next (((u.modSplit g k (fun y => { y with ex := rest, nest := .link join f y.fmt false :: y.nest })
          ).modGroup g (fun x => { x with splits := tabPut x.splits f { Split.blank with
            strand := { Strand.start tgt u.clk with handler := y.strand.handler }
            ex := T, fmt := y.fmt, flags := y.flags, nest := [.link join k y.fmt false] } })).retire n c (pc + 4))) ∧
      ((freeSplit (u.group g) = none ∨ 16 ≤ links) → entries < 16 →
        exec (row.1 kr o j) s = .next ((u.modSplit g k (fun y => { y with
          ex := rest, nest := .pend join y.ex tgt T y.fmt false :: y.nest })).retire n c (pc + 4))) ∧
      ((freeSplit (u.group g) = none ∨ 16 ≤ links) → 16 ≤ entries →
        exec (row.1 kr o j) s = .next (s.takeTrap ag 0x0C join)))) ∧
  (∀ row ∈ ([
    (Instr.kbrAny, fun m _ => decide (m ≠ 0)), (Instr.kbrAll, fun m ex => decide (m = ex)), (Instr.kbrNone, fun m _ => decide (m = 0))] :
      List ((KReg → BitVec 20 → Option (BitVec 25) → Instr) × (Mask → Mask → Bool))),
  ∀ (kr : KReg) (o : BitVec 20) (e : Option (BitVec 25)) (s : State) (g k : Nat) (c : Ctx) (u : State),
    let n : Need := { ksrc := [kr.toNat], ctl := false, len := lenX e }
    Opens n (.split g k) s c u →
    let pc := (s.strand (.split g k)).pc
    let ex := (u.splitOf g k).ex
    let v : Word := match e with
      | some h => (h ++ o : BitVec 45).signExtend 64
      | none => o.signExtend 64
    exec (row.1 kr o e) s = .next (u.retire n c (if row.2 (ex &&& u.kget g kr.toNat) ex then pc + 2 * v
      else pc + BitVec.ofNat 64 (lenX e))))

/-- RECONVERGENCE (R38, R39): a split at its join whose innermost record is a stack entry runs the entry's other side, then its joined
mask; one whose record is a link merges with the sibling that waits there for it, else waits, and one whose sibling has ended goes on alone with
its own FMT (that FMT is the model's choice, log 122); lanes that have retired stay out. A resolution takes the clk: the split stands at
no join before the next.

WHAT A MERGE LEAVES (R22, R38): the lower number survives at the join with both EXEC masks and both sets of flags, and the other split
is gone. -/
def Obligations.Reconvergence : Prop :=
  (∀ (s : State) (g k : Nat), s.cur = some (.split g k) →
    let y := s.splitOf g k
    let live := ~~~(s.group g).retired
    (∀ j x t m f r, y.nest = .pend j x t m f false :: r → exec .reconvergence s = .next ((s.modSplit g k (fun y => { y with
      ex := m &&& live, fmt := f, nest := .pend j x t m f true :: r, strand := { y.strand with pc := t } })).resolved (.split g k))) ∧
    (∀ j x t m f r, y.nest = .pend j x t m f true :: r → exec .reconvergence s = .next ((s.modSplit g k (fun y => { y with
      ex := x &&& live, fmt := f, nest := r, strand := { y.strand with pc := j } })).resolved (.split g k))) ∧
    (∀ j b f r, y.nest = .link j b f false :: r → waitsFor (s.splitOf g b) s.clk k j = true →
      exec .reconvergence s = .next ((s.mergeSplits g k b j f).resolved (.split g (Nat.min k b)))) ∧
    (∀ j b f r, y.nest = .link j b f false :: r → waitsFor (s.splitOf g b) s.clk k j = false →
      exec .reconvergence s = .next (s.block (.split g k) .sync)) ∧
    (∀ j b f r, y.nest = .link j b f true :: r → exec .reconvergence s = .next ((s.modSplit g k (fun y => { y with nest := r })).resolved
      (.split g k))) ∧
    (y.nest = [] → exec .reconvergence s = .next (if y.ex = 0 then s.endSplit g k else s)) ∧
    ∀ t, t = s.resolved (.split g k) → s.alive (.split g k) = true →
      (t.splitOf g k).atJoin s.clk = false ∧ (t.splitOf g k).strand.why = .sync) ∧
  (∀ (s : State) (g k b : Nat) (j : Word) (f : BitVec 9), k ≠ b → (tabFind s.groups g).isSome →
    (tabFind (s.group g).splits k).isSome → (tabFind (s.group g).splits b).isSome →
    let t := s.mergeSplits g k b j f
    let lo := Nat.min k b
    (t.splitOf g lo).ex = (s.splitOf g k).ex ||| (s.splitOf g b).ex ∧
      (t.splitOf g lo).flags = (s.splitOf g k).flags ||| (s.splitOf g b).flags ∧
      (t.splitOf g lo).fmt = f ∧ (t.splitOf g lo).strand.pc = j ∧ tabFind (t.group g).splits (Nat.max k b) = none ∧ t.mem = s.mem)

/-- NAMED BARRIERS (R192 to R195, R365, R384): INIT sets EXPA and PENDA; an arrival, a release unless RLX, gives PHASE and lowers PENDA, at
once when that release has been performed, else when it is; a wait for the phase of its token ends at once when it has passed, as an
acquire with the status word, else waits; BAR.AW arrives and then waits, and one that a restore brings back with its arrival standing only
waits; TEST answers without waiting; EXPECT adds bytes to EXPB and PENDB, its POST form takes them from PENDB, a release like an arrival.

A PHASE COMPLETES (R193, R194): at the end of a clk a barrier that has been opened, with EXPA not 0, PENDA 0 and PENDB not above 0,
flips PHASE, takes PENDA from EXPA and starts with no bytes and the poison of its phase as its status; every other barrier stays. -/
def Obligations.NamedBarriers : Prop :=
  ((∀ (b : BarNo) (a : SReg) (s : State) (ag : Agent) (c : Ctx) (u : State),
    let n : Need := { src := [a.toNat] }
    Opens n ag s c u →
    let v := (c.get u a.toNat).toNat
    let x := u.bar ag b.toNat
    (1 ≤ v ∧ v ≤ 255 ∧ x.opened = false → exec (.barInit b a) s = .next ((u.setBar ag b.toNat { x with
      expa := v, penda := v, expb := 0, pendb := 0, poison := false, seq := 0 }).retire n c ((s.strand ag).pc + 4))) ∧
    (¬(1 ≤ v ∧ v ≤ 255 ∧ x.opened = false) → exec (.barInit b a) s = .next (s.takeTrap ag 0x01
      (BitVec.ofNat 64 (13 * 2 ^ 56 + b.toNat))))) ∧
  (∀ (s : State) (ag : Agent) (b : Nat) (rlx : Bool),
    let e := ((s.commitWide ag).publish ag b).releaseEvery ag s.nextId 1
    let v := if rlx then s else e.1
    let x := v.bar ag b
    (rlx = true ∨ e.2 = true → s.arrive ag b rlx = v.setBar ag b { x with penda := x.penda - 1, opened := true }) ∧
    (rlx = false → e.2 = false → s.arrive ag b rlx = e.1.after ag (.arrive (e.1.wgOf ag) ag.threadNo b))) ∧
  (∀ (d : SReg) (b : BarNo) (rlx : Bool) (s : State) (ag : Agent) (c : Ctx) (u : State),
    Opens (arriveNeed d b) ag s c u →
    exec (.barArrive d b rlx) s = .next (((u.arrive ag b.toNat rlx).sset ag d.toNat
      (if (u.bar ag b.toNat).phase then 1 else 0)).retire (arriveNeed d b) c ((s.strand ag).pc + 4))) ∧
  (∀ (d : SReg) (b : BarNo) (a : SReg) (s : State) (ag : Agent) (c : Ctx) (u : State),
    let n : Need := { src := [a.toNat], dst := [d.toNat] }
    Opens n ag s c u →
    let x := u.bar ag b.toNat
    let tok := (c.get u a.toNat).getLsbD 0
    let next := (s.strand ag).pc + 4
    ((x.phase ≠ tok ∨ c.replay = true) → (u.barPoisons ag b.toNat = false ∨ c.replay = true) →
      exec (.barWait d b a) s = .next (((u.acquireAll ag b.toNat).sset ag d.toNat (u.bar ag b.toNat).word).retire n c next)) ∧
    (x.phase ≠ tok → u.barPoisons ag b.toNat = true → c.replay = false →
      exec (.barWait d b a) s = .next ((u.markReplay ag).takeTrap ag 0x10 0)) ∧
    (x.phase = tok → c.replay = false → exec (.barWait d b a) s = .next ((u.waitIn ag next (.barrier b.toNat tok d false)).retire n c (s.strand ag).pc)) ∧
    (x.phase ≠ tok → exec (.barTest d b a) s = .next (((u.acquireAll ag b.toNat).sset ag d.toNat 1).retire n c next)) ∧
    (x.phase = tok → exec (.barTest d b a) s = .next ((u.sset ag d.toNat 0).retire n c next))) ∧
  (∀ (d : SReg) (b : BarNo) (rlx : Bool) (s : State) (ag : Agent) (c : Ctx) (u : State),
    Opens (awNeed d b) ag s c u →
    let x := u.bar ag b.toNat
    let aw := fun (tok : Bool) => Wait.barrier b.toNat tok d true
    (∀ p, (u.strand ag).park = some p → ∀ tok, p.aw = some tok → x.phase = tok →
      exec (.barAw d b rlx) s = .next ((u.waitIn ag ((s.strand ag).pc + 4) (aw tok)).retire (awNeed d b) c (s.strand ag).pc)) ∧
    ((u.strand ag).park = none → exec (.barAw d b rlx) s = .next (((u.arrive ag b.toNat rlx).waitIn ag ((s.strand ag).pc + 4)
      (aw x.phase)).retire (awNeed d b) c (s.strand ag).pc)) ∧
    (∀ p, (u.strand ag).park = some p → (∀ tok, p.aw = some tok → x.phase ≠ tok) → c.replay = true →
      exec (.barAw d b rlx) s = .next (((u.acquireAll ag b.toNat).sset ag d.toNat x.word).retire (awNeed d b) c ((s.strand ag).pc + 4)))) ∧
  ∀ (b : BarNo) (a : SReg) (post : Bool) (s : State) (ag : Agent) (c : Ctx) (u : State),
    Opens (expectNeed b a) ag s c u →
    let v := (c.get u a.toNat).toInt
    let x := u.bar ag b.toNat
    let y : Bar := { x with expb := x.expb + v, pendb := x.pendb + v, opened := true }
    let e := (u.commitWide ag).releaseEvery ag u.nextId 1
    let z := e.1.bar ag b.toNat
    let done := fun (t : State) => Host.Outcome.next (t.retire (expectNeed b a) c ((s.strand ag).pc + 4))
    let fits := if post then bytesFit (x.pendb - v) else bytesFit y.expb && bytesFit y.pendb
    (fits = true → post = false → exec (.barExpect b a post) s = done (u.setBar ag b.toNat y)) ∧
    (fits = true → post = true → e.2 = true →
      exec (.barExpect b a post) s = done (e.1.setBar ag b.toNat { z with pendb := z.pendb - v, opened := true })) ∧
    (fits = true → post = true → e.2 = false →
      exec (.barExpect b a post) s = done (e.1.after ag (.post (e.1.wgOf ag) ag.threadNo b.toNat v))) ∧
    (fits = false → exec (.barExpect b a post) s = .next (s.takeTrap ag 0x01 (BitVec.ofNat 64 (13 * 2 ^ 56 + b.toNat))))) ∧
  (∀ (s : State) (w n : Nat), (tabFind s.wgs w).isSome →
    let b := s.bget (some w) 0 n
    let t := s.testBar (some w) 0 n
    (b.expa ≠ 0 ∧ b.opened = true ∧ b.penda = 0 ∧ b.pendb ≤ 0 →
      (t.bget (some w) 0 n).phase = !b.phase ∧ (t.bget (some w) 0 n).penda = b.expa ∧ (t.bget (some w) 0 n).expa = b.expa ∧
      (t.bget (some w) 0 n).expb = 0 ∧ (t.bget (some w) 0 n).pendb = 0 ∧ (t.bget (some w) 0 n).opened = false ∧
      (t.bget (some w) 0 n).status = (if b.poison then 1 else if b.pendb < 0 then 2 else 0)) ∧
    (¬(b.expa ≠ 0 ∧ b.opened = true ∧ b.penda = 0 ∧ b.pendb ≤ 0) → t = s) ∧
    ∀ m, m ≠ n → t.bget (some w) 0 m = s.bget (some w) 0 m)

/-- TILE DESCRIPTORS (R197, R198): TSET writes one of the five words of a descriptor, a reserved field as given, TGET reads one (that it
gives back reserved fields is the model's reading, log 34), TCOPY copies all five. The agent sees its own writes: word w of tn as last
written, and no other word of it or of another descriptor changes for it.

STEPS OF REGISTER WRITES (R65, R79, R80, R171, R172, R186): STKCFG takes effect with its budget; ACCOWNER waits while a change of owner
meets operations, then holds tag, valid bit and thread; ACCLIVE releases what it clears and sets what it sets, once those tiles are idle;
CHRYCFG carves or removes slots whole, new ones as zeros, or is ignored when its value is above 16, a slot it removes is in use, or its bytes
are allocated. -/
def Obligations.TileDescriptors : Prop :=
  ((∀ (n : TReg) (wd : Fin 5) (a : SReg) (s : State) (ag : Agent) (c : Ctx) (u : State),
    let m : Need := { src := [a.toNat], tdst := [n.toNat] }
    Opens m ag s c u →
    let v := u.tput ag n.toNat wd (c.get u a.toNat)
    exec (.tset n wd a) s = .next (v.retire m c ((s.strand ag).pc + 4)) ∧
    (u.alive ag = true → (∀ w, w < 5 → (v.tget ag n.toNat).getD w 0 = if w = wd then c.get u a.toNat else (u.tget ag n.toNat).getD w 0) ∧
      ∀ j, j ≠ n.toNat → j < 16 → ∀ w, w < 5 → (v.tget ag j).getD w 0 = (u.tget ag j).getD w 0)) ∧
  (∀ (d : SReg) (n : TReg) (wd : Fin 5) (s : State) (ag : Agent) (c : Ctx) (u : State),
    let m : Need := { dst := [d.toNat], tsrc := [n.toNat] }
    Opens m ag s c u → exec (.tget d n wd) s = .next ((u.sset ag d.toNat ((u.tget ag n.toNat).getD wd 0)).retire m c
      ((s.strand ag).pc + 4))) ∧
  ∀ (d a : TReg) (s : State) (ag : Agent) (c : Ctx) (u : State),
    let m : Need := { tsrc := [a.toNat], tdst := [d.toNat] }
    Opens m ag s c u →
    let put := fun (t : State) (w : Nat) => t.tput ag d.toNat w ((u.tget ag a.toNat).getD w 0)
    exec (.tcopy d a) s = .next ((put (put (put (put (put u 0) 1) 2) 3) 4).retire m c ((s.strand ag).pc + 4))) ∧
  ((∀ (n : Nat) (v : BitVec 64) (s : State),
    exec (.stkcfgWrite n v) s = .next (s.modCluster n (fun k => { k with stkcfg := v, budget := (v.extractLsb' 48 16).toNat })) ∧
    (s.ownerWaits n v = false → exec (.accownerWrite n v) s = .next (s.modCluster n (fun k => { k with
      accowner := accWord (accTag v) (accValid v) (accThread v) }))) ∧
    (s.ownerWaits n v = true → exec (.accownerWrite n v) s = .next (s.inClk 1 (.accownerWrite n v)))) ∧
  (∀ (n : Nat) (h : BitVec 1) (v : BitVec 64) (s : State),
    let gone := ((List.range 64).map (fun i => 64 * h.toNat + i)).filter (fun t =>
      (s.cluster n).acclive.getLsbD t && !v.getLsbD (t - 64 * h.toNat))
    (gone.any (s.tileBusy n) = false → exec (.accliveWrite n h v) s = .next ((gone.foldl (fun s t => s.relTile n t) s).modCluster n
      (fun k => { k with acclive := k.acclive ||| (v.setWidth 128 <<< (64 * h.toNat)) }))) ∧
    (gone.any (s.tileBusy n) = true → exec (.accliveWrite n h v) s = .next (s.inClk 1 (.accliveWrite n h v)))) ∧
  ∀ (die : Fin 4) (v : BitVec 64) (s : State),
    let old := (s.die die).nslot
    let n := v.toNat % 32
    let inUse := ∃ j, n ≤ j ∧ j < old ∧ j < 16 ∧ (tabFind (s.die die).slots j).isSome = true
    let taken := old < n ∧ ∃ a ∈ s.allocs, chipAt die (0x4000000 - 0x200000 * n) < a.1 + a.2.1 ∧ a.1 < chipAt die (0x4000000 - 0x200000 * old)
    (16 < n ∨ inUse ∨ taken → exec (.chrycfgWrite die v) s = .next s) ∧
    (¬(16 < n ∨ inUse ∨ taken) → exec (.chrycfgWrite die v) s = .next ((if old < n then { s with
      mem := memZero s.mem (chipAt die (0x4000000 - 0x200000 * n)) (chipAt die (0x4000000 - 0x200000 * old) -
        chipAt die (0x4000000 - 0x200000 * n)) } else s).modDie die (fun d => { d with nslot := n }))))

/-! ### The matrix unit (spec/12_isa_matrix.md) -/

/-- MMA, TZERO, MMAB (R174, R178, R179, R181, R184, R364): an owner's operation enters the queue of its tile's cell with the thread's
configuration, its first tile live, or waits while that queue of eight is full; MMAB starts the thread's sequencer, or waits while it runs; without
ownership ACCOWN (0x0A) with the tile; a geometry that MMAB may not have is ILLEGAL 12. -/
def Obligations.MatrixOperationsEnqueue : Prop :=
  (∀ (n : AccNo) (m : FeedNo) (k : HandleNo) (s : State) (t : Nat) (c : Ctx) (u : State),
    let ag := Agent.thread t
    let need : Need := { vec := false }
    Opens need ag s c u →
    let pc := (s.strand ag).pc
    let room := (tabGet (u.cluster (t / 2)).mq (n.toNat % 16) []).length < 8
    let x := fun (zero : Bool) (m k : Nat) (cfg : BitVec 2) => matOp t zero n.toNat m k cfg none u.clk
    (u.ownsAcc ag = true → room → exec (.mma n m k) s =
        .next ((u.enqueueOp (t / 2) (x false m.toNat k.toNat (u.thread t).mcfg)).retire need c (pc + 4)) ∧
      exec (.tzero n) s = .next ((u.enqueueOp (t / 2) (x true 0 0 0)).retire need c (pc + 4))) ∧
    (u.ownsAcc ag = true → ¬room → exec (.mma n m k) s = .next (s.blockNeed ag need .matrix) ∧
      exec (.tzero n) s = .next (s.blockNeed ag need .matrix)) ∧
    (u.ownsAcc ag = false → exec (.mma n m k) s = .next (s.takeTrap ag 0x0A (BitVec.ofNat 64 n.toNat)) ∧
      exec (.tzero n) s = .next (s.takeTrap ag 0x0A (BitVec.ofNat 64 n.toNat)))) ∧
  ∀ (n : AccNo) (m : FeedNo) (k : BitVec 5) (b : SReg) (s : State) (t : Nat) (c : Ctx) (u : State),
    let ag := Agent.thread t
    let need : Need := { src := [b.toNat], vec := false }
    Opens need ag s c u →
    let g := c.get u b.toNat
    let bad := g.toNat / 2 ^ 16 ≠ 0 ∨ 255 < 8 * k.toNat + geomNT g * geomKT g - 1
    (bad → exec (.mmab n m k b) s = .next (s.takeTrap ag 0x01 (BitVec.ofNat 64 (12 * 2 ^ 56 + g.toNat % 2 ^ 48)))) ∧
    (¬bad → u.ownsAcc ag = false → exec (.mmab n m k b) s = .next (s.takeTrap ag 0x0A (BitVec.ofNat 64 n.toNat))) ∧
    (¬bad → u.ownsAcc ag = true → (u.thread t).seqr = none → exec (.mmab n m k b) s = .next ((u.startSeq t
      (k.extractLsb' 0 3 ++ n.extractLsb' 6 1 ++ 1#3 ++ b ++ k.extractLsb' 3 2 ++ m ++ n.extractLsb' 0 6 ++ 0x67#7) g (u.thread t).mcfg none).retire need c
        ((s.strand ag).pc + 4))) ∧
    (¬bad → u.ownsAcc ag = true → (u.thread t).seqr.isSome = true →
      exec (.mmab n m k b) s = .next (s.blockNeed ag need .matrix))

/-- TCFG (R180): the word of major 0x33, op 3; s[d] := MCFG, then MCFG := s[a][1:0], whoever owns the accumulators; an operation
enqueued after it carries the new MCFG: an MMA as it issues, and the passes of an MMAB whose sequencer starts then. -/
def Obligations.SwapsMatrixConfiguration : Prop :=
  (∀ (d a : SReg), decodeWord (0x06000067#32 ||| (d.setWidth 32 <<< 7) ||| (a.setWidth 32 <<< 13)) none none = .ok (.tcfg d a)) ∧
  ∀ (d a : SReg) (s : State) (t : Nat) (c : Ctx) (u : State),
    let ag := Agent.thread t
    let n : Need := { src := [a.toNat], dst := [d.toNat], vec := false }
    Opens n ag s c u →
    exec (.tcfg d a) s = .next (((u.modThread t (fun x => { x with mcfg := (c.get u a.toNat).extractLsb' 0 2 })).sset ag d.toNat
      ((u.thread t).mcfg.setWidth 64)).retire n c ((s.strand ag).pc + 4)) ∧
    ((u.modThread t (fun x => { x with mcfg := (c.get u a.toNat).extractLsb' 0 2 })).thread t).mcfg = (c.get u a.toNat).extractLsb' 0 2 ∧
    ∀ (v w : State) (c' : Ctx) (i : AccNo) (m : FeedNo) (k : HandleNo), Opens { vec := false } ag v c' w → w.ownsAcc ag = true →
      (tabGet (w.cluster (t / 2)).mq (i.toNat % 16) []).length < 8 →
      ∃ z, exec (.mma i m k) v = .next z ∧ ∃ o ∈ tabGet (z.cluster (t / 2)).mq (i.toNat % 16) [],
        o.n = i.toNat ∧ o.m = m.toNat ∧ o.k = k.toNat ∧ o.zfirst = (w.thread t).mcfg.getLsbD 0 ∧
          o.release = !(w.thread t).mcfg.getLsbD 1

/-- ACCSPILL, ACCFILL, ACCREL, ACCLIVE (R171, R175, R184, R185): an owner's tile with no operation on it and nothing earlier of the agent
in the way moves to, or from, a 16-byte aligned run of 4,096 bytes, is released, or is written and live, and the thread waits until it has moved;
ACCREL releases a run of tiles; ACCLIVE reads a word of live bits when no operation is on their tiles. Without ownership ACCOWN. -/
def Obligations.AccumulatorInstructions : Prop :=
  (∀ (n : AccNo) (a : SReg) (st : StreamNo) (s : State) (t : Nat) (c : Ctx) (u : State),
    let ag := Agent.thread t
    Opens (accNeed a st) ag s c u →
    let va := (c.get u a.toNat).toNat
    let x := u.ctxOf ag
    let v := u.flush ag u.nextId
    let e := Engine.start ag (v.ctxOf ag) (v.wgOf ag) (.binrst 0) st.toNat (v.stream ag st.toNat) v.clk
    va % 16 = 0 → v.ownsAcc ag = true → v.tileBusy (t / 2) n.toNat = false →
    v.engineWaits v.nextId { e with spans := [(va, 4096)] } = false →
    let wait := fun (w : State) => ((((w.waitIn ag ((s.strand ag).pc + 4) (.acc (w.clk + 1 + w.delay))).spend).modThread t (fun y =>
      { y with acc := none })).retire (accNeed a st) c (s.strand ag).pc)
    (∀ w q, v.writeFor (v.wgOf ag) ag none x.1 x.2 va (tileBytes (v.tile (t / 2) n.toNat))
        ((u.cluster (t / 2)).accPoison.contains n.toNat) = .ok w q →
      exec (.accspill n a st) s = .next (wait (w.relTile (t / 2) n.toNat))) ∧
    (∀ w bs, v.readFor (v.wgOf ag) ag none x.1 x.2 va 4096 = .ok w (bs, false) →
      exec (.accfill n a st) s = .next (wait ((w.setTile (t / 2) n.toNat (bytesTile bs) false).modCluster (t / 2) (fun k => { k with
        acclive := k.acclive ||| (1 : BitVec 128) <<< n.toNat }))))) ∧
  (∀ (n : AccNo) (k : BitVec 6) (s : State) (t : Nat) (c : Ctx) (u : State),
    let ag := Agent.thread t
    let need : Need := { vec := false }
    Opens need ag s c u →
    let ns := (List.range (k.toNat + 1)).map (fun i => n.toNat + i)
    (u.ownsAcc ag = true → ns.any (u.tileBusy (t / 2)) = false → exec (.accrel n k) s =
      .next ((ns.foldl (fun s i => s.relTile (t / 2) i) u).retire need c ((s.strand ag).pc + 4))) ∧
    (u.ownsAcc ag = false → exec (.accrel n k) s = .next (s.takeTrap ag 0x0A (BitVec.ofNat 64 n.toNat)))) ∧
  ∀ (d : SReg) (h : BitVec 1) (s : State) (t : Nat) (c : Ctx) (u : State),
    let ag := Agent.thread t
    let need : Need := { dst := [d.toNat], vec := false }
    Opens need ag s c u →
    let busy := (List.range 64).any (fun i => u.tileBusy (t / 2) (64 * h.toNat + i))
    (u.ownsAcc ag = true → busy = true → exec (.acclive d h) s = .next (s.blockNeed ag need .matrix)) ∧
    (u.ownsAcc ag = true → busy = false → exec (.acclive d h) s = .next ((u.sset ag d.toNat
      ((u.cluster (t / 2)).acclive.extractLsb' (64 * h.toNat) 64)).retire need c ((s.strand ag).pc + 4))) ∧
    (u.ownsAcc ag = false → exec (.acclive d h) s = .next (s.takeTrap ag 0x0A 0))

/-- TFEED and TDRAIN (R169, R175 to R177, R184): TFEED writes the active columns of three rows of a slot that is not READY, narrowed or packed
in the mode in force, and seals it when it says so; TDRAIN reads the active lanes' elements of three rows of a tile, rows beyond 31
written to no lane. A slot that is READY, a tile with operations, or accumulators of another owner make them wait. -/
def Obligations.FeedingAndDraining : Prop :=
  (∀ (m : FeedNo) (a : VReg) (b : SReg) (f : FeedFmt) (sl : Bool) (p : Option Prefix) (s : State) (g k : Nat) (c : Ctx) (u : State),
    let ag := Agent.split g k
    Opens (tfeedNeed a b p) ag s c u →
    let x := (u.cluster ag.cluster).feedOf m.toNat
    let row0 := (c.get u b.toNat).toNat
    let src := u.vsrc g a.toNat (pfxA p)
    let r0 := x.put f (modeOf (u.fmt ag) p) c.act src 0 row0
    let r1 := r0.1.put f (modeOf (u.fmt ag) p) c.act src 1 (row0 + 1)
    let r2 := r1.1.put f (modeOf (u.fmt ag) p) c.act src 2 (row0 + 2)
    let y : Feed := { r2.1 with fmt := f }
    (x.ready = false → (sl = true → x.clash f = false) → exec (.tfeed m a b f sl p) s = .next (((u.setFeed ag.cluster m.toNat
      (if sl then y.seal else y)).raiseFlags ag (0 ||| r0.2 ||| r1.2 ||| r2.2)).retire (tfeedNeed a b p) c
        ((s.strand ag).pc + BitVec.ofNat 64 (lenP p)))) ∧
    (x.ready = false → sl = true → x.clash f = true → exec (.tfeed m a b f sl p) s = .next
      ((s.setFeed ag.cluster m.toNat x.release).takeTrap ag 0x11 (BitVec.ofNat 64 m.toNat))) ∧
    (x.ready = true → exec (.tfeed m a b f sl p) s = .next (s.blockNeed ag (tfeedNeed a b p) .matrix))) ∧
  ∀ (d : VReg) (n : AccNo) (b : SReg) (p : Option Prefix) (s : State) (g k : Nat) (c : Ctx) (u : State),
    let ag := Agent.split g k
    Opens (tdrainNeed d n b p) ag s c u →
    let row0 := (c.get u b.toNat).toNat
    let act := maskOf (fun i => c.act.getLsbD i && decide (row0 + i / 32 < 32))
    let free := u.tileBusy ag.cluster n.toNat = false ∧ u.drainOwned ag = true
    (free → (u.cluster ag.cluster).accPoison.contains n.toNat = false → exec (.tdrain d n b p) s = .next ((u.vmove ag d.toNat act (pfxZ p)
      (fun i => (u.tile ag.cluster n.toNat).getD (32 * (row0 + i / 32) + i % 32) 0)).retire (tdrainNeed d n b p) c
        ((s.strand ag).pc + BitVec.ofNat 64 (lenP p)))) ∧
    (¬free → exec (.tdrain d n b p) s = .next (s.blockNeed ag (tdrainNeed d n b p) .matrix))

/-- PASSES (R31, R169, R174, R178, R179): PASS_END releases the feed slot of an operation admitted 32 clk ago without KEEPF; MMA_COMPLETE
of the oldest operation of its cell writes its w tiles, each element the running sum over k ascending with one rounding a step, from zero
under ZFIRST; a TZERO leaves its tile +0.0.

THE ARBITER AND THE SEQUENCER (R73, R74, R174, R181): MATRIX_ADMIT removes heads with failed handles, fixes the cost of new candidates, admits
at the first clk of a window those that have waited 128 clk as candidates or cost more than the whole budget, oldest first, then the others, cheapest
first, while the budget lasts; SEQUENCER_ENQUEUE enqueues one pass a clk where its queue has room and no spill holds the thread, and ends after the last. -/
def Obligations.MatrixRuns : Prop :=
  ((∀ (n cell : Nat) (o : MatOp) (s : State),
    (s.cluster n).run.find? (fun o => !o.zero && o.release && o.n % 16 == cell && match o.start with
      | some t => decide (t + 32 ≤ s.clk)
      | none => false) = some o →
    exec (.passEnd n cell) s = .next ((s.setFeed n o.m ((s.cluster n).feedOf o.m).release).modCluster n (fun k => { k with
      run := k.run.map (fun x => if x.id = o.id then { x with release := false } else x) }))) ∧
  (∀ (n op : Nat) (o : MatOp) (f : Feed) (h : Handle) (s : State), (s.cluster n).run.find? (fun o => o.id == op) = some o →
    o.zero = false → o.a = some f → o.b = some h → s.opsBefore n o = [] →
    exec (.mmaComplete n op .none) s = .next (((s.writePass n o f h).modCluster n (fun k => { k with
      run := k.run.filter (fun x => x.id != op) })).opGone n o)) ∧
  (∀ (n op : Nat) (o : MatOp) (s : State), (s.cluster n).run.find? (fun o => o.id == op) = some o → o.zero = true → o.a = none →
    exec (.mmaComplete n op .none) s = .next (((s.zeroOp n o).modCluster n (fun k => { k with
      run := k.run.filter (fun x => x.id != op) })).opGone n o) ∧
    (s.zeroOp n o).tile n o.n = List.replicate 1024 0) ∧
  ∀ (n : Nat) (o : MatOp) (f : Feed) (h : Handle) (s : State), o.passed = [] → ∀ j < o.w, ∀ r < 32, ∀ q < 32,
    ((s.writePass n o f h).tile n (o.n + 16 * j)).getD (32 * r + q) 0 =
      (List.range 32).foldl (fun (acc : Lane) k => BitVec.ofNat 32 (fp32.fmaV .ne false (f.val r k) (h.val k (32 * j + q))
        (fp32.val false acc.toNat)).1) (if o.zfirst then 0 else (s.tile n (o.n + 16 * j)).getD (32 * r + q) 0)) ∧
  ((∀ (n : Nat) (s : State),
    let v := (s.refuseFailed n).markCand n
    let cands := (v.cluster n).heads.filter (v.eligibleOp n)
    let first := if v.clk % 64 = 0 then sortOps (fun o => v.clk - o.waited) (cands.filter (fun o => 128 ≤ o.waited ||
      ((v.cluster n).stkcfg.extractLsb' 48 16).toNat < o.cost)) else []
    let w := first.foldl (fun s o => s.admitOp n o) v
    let rest := sortOps MatOp.cost (cands.filter (fun o => !first.any (fun x => x.id == o.id)))
    exec (.matrixAdmit n) s = .next (rest.foldl (fun s o => if o.cost ≤ (s.cluster n).budget then s.admitOp n o else s) w)) ∧
  ∀ (t : Nat) (q : Sequencer) (s : State), (s.thread t).seqr = some q →
    let p := q.pass q.kk q.ij
    let nt := geomNT q.geom
    let o : MatOp := { matOp t false p.1 p.2.1 p.2.2 q.cfg q.node q.at_ with
      zfirst := q.cfg.getLsbD 0 && q.kk == 0, release := !q.cfg.getLsbD 1 && q.ij % nt == nt - 1, seqr := true }
    let last := q.ij + 1 = geomMT q.geom * nt
    let r : Sequencer := { q with kk := if last then q.kk + 1 else q.kk, ij := if last then 0 else q.ij + 1 }
    let v := s.enqueueOp (t / 2) o
    let room := (tabGet (s.cluster (t / 2)).mq (p.1 % 16) []).length < 8
    ((s.thread t).halt = true → exec (.sequencerEnqueue t) s = .next s) ∧
    ((s.thread t).halt = false → ((s.thread t).spill = true ∨ ¬room) → exec (.sequencerEnqueue t) s = .next (s.inClk 1 (.sequencerEnqueue t))) ∧
    ((s.thread t).halt = false → (s.thread t).spill = false → room → r.kk = geomKT q.geom →
      exec (.sequencerEnqueue t) s = .next (v.modThread t (fun x => { x with seqr := none }))) ∧
    ((s.thread t).halt = false → (s.thread t).spill = false → room → r.kk ≠ geomKT q.geom →
      exec (.sequencerEnqueue t) s = .next ((v.modThread t (fun x => { x with seqr := some r })).inClk 1 (.sequencerEnqueue t))))

/-! ### Engines, counters, the command graph (spec/13_isa_engines.md, spec/15_isa_system.md R236) -/

/-- ENGINE ISSUES (R183, R190, R191, R194, R196, R199, R200, R202, R203, R215): with a slot of its unit's sixteen free, each forks its
operation, with the operands it captured, registered on its barrier for its bytes (`State.fork`, said in EngineForks), and the agent goes on;
with none free it waits under ASYNC.

TLDW (R175, R183, R190, R386): once no operation reads its handle and a slot is free, VALID and the failed mark fall and the load of the
image is under way; it registers on no barrier.

CWAIT and CTEST (R161, R203): on an aligned counter that can be read, at least s[b] as an unsigned number, both acquire their stream, and give
the counter, or 1; below it CWAIT waits in its sequence and CTEST gives 0. A misaligned address takes MISALIGN with it. -/
def Obligations.EngineIssues : Prop :=
  (∀ (v w : VReg) (d a : TReg) (x y : SReg) (n : BarNo) (z : CpSize) (st : StreamNo),
  ∀ row ∈ ([
    (Instr.cpyl v w n z st, laneNeed [v.toNat, w.toNat] [] n, some n.toNat, fun c s =>
      let on := (List.range 96).filter (fun i => c.act.getLsbD i)
      let size := match z with | .w => 4 | .d => 8 | .q => 16
      (fun _ => size * on.length, .cpyl size (on.map (fun i => (i, s.pairAddr c.a v.toNat i, s.pairAddr c.a w.toNat i))))),
    (.tld d a n st, tldNeed d a n, some n.toNat, fun c s =>
      (fun _ => (descOf (s.tget c.a a.toNat)).bytes, .tld (s.tget c.a d.toNat) (s.tget c.a a.toNat))),
    (.tst d a n st, tstNeed d a n, some n.toNat, fun c s =>
      (fun _ => (descOf (s.tget c.a d.toNat)).bytes, .tst (s.tget c.a d.toNat) (s.tget c.a a.toNat))),
    (.tzfill d n st, tzfillNeed d n, some n.toNat, fun c s => (fun _ => (descOf (s.tget c.a d.toNat)).bytes, .tzfill (s.tget c.a d.toNat))),
    (.binsc n v y st, laneNeed [v.toNat] [y.toNat] n, some n.toNat, fun c s =>
      let on := (List.range 96).filter (fun i => c.act.getLsbD i)
      (fun v => field (v.see c.a ((c.get s y.toNat).toNat + 0x1C) 4) 0 4 * on.length, .binsc (c.get s y.toNat)
        (on.map (fun i => (i, lane (s.vget c.a.groupNo v.toNat) i, lane (s.vget c.a.groupNo (v.toNat + 1)) i))))),
    (.binrst n y st, binrstNeed n y, some n.toNat, fun c s =>
      (fun v => 4 * field (v.see c.a (c.get s y.toNat).toNat 4) 0 4 + 8, .binrst (c.get s y.toNat))),
    (.rcopy d a y n st, rcopyNeed d a y n, some n.toNat, fun c s =>
      (fun _ => (descOf (s.tget c.a a.toNat)).bytes, .rcopy (s.tget c.a d.toNat) (s.tget c.a a.toNat) (c.get s y.toNat))),
    (.cadd x y st, { src := [x.toNat, y.toNat] }, none, fun c s => (fun _ => 0, .cadd (c.get s x.toNat) (c.get s y.toNat))),
    (.cset x y st, { src := [x.toNat, y.toNat] }, none, fun c s => (fun _ => 0, .cset (c.get s x.toNat) (c.get s y.toNat)))] :
      List (Instr × Need × Option Nat × (Ctx → State → (State → Nat) × EngineOp))),
  ∀ (s : State) (ag : Agent) (c : Ctx) (u : State), Opens row.2.1 ag s c u →
    let q := row.2.2.2 c u
    (u.engineSlots ag.unit ≠ 0 → exec row.1 s = .next ((u.fork ag st.toNat (u.stream ag st.toNat) row.2.2.1 q.1 q.2 none).retire row.2.1 c
      ((s.strand ag).pc + 4))) ∧
    (u.engineSlots ag.unit = 0 → exec row.1 s = .next (s.blockNeed ag row.2.1 .async))) ∧
  (∀ (k : HandleNo) (a : SReg) (st : StreamNo) (s : State) (ag : Agent) (c : Ctx) (u : State),
    let n : Need := { src := [a.toNat] }
    Opens n ag s c u →
    let v := u.fork ag st.toNat (u.stream ag st.toNat) none (fun _ => 0) (.tldw k.toNat (c.get u a.toNat)) none
    (u.handleBusy ag.cluster k.toNat = false → u.engineSlots ag.unit ≠ 0 → exec (.tldw k a st) s = .next
      ((v.setHandle ag.cluster k.toNat { (v.cluster ag.cluster).handleOf k.toNat with valid := false, failed := false }).retire n c
        ((s.strand ag).pc + 4))) ∧
    (u.handleBusy ag.cluster k.toNat = true → exec (.tldw k a st) s = .next (s.blockNeed ag n .matrix))) ∧
  (∀ (d a b : SReg) (st : StreamNo) (s : State) (ag : Agent) (c : Ctx) (u : State),
    Opens (cwaitNeed d a b st) ag s c u →
    let va := c.get u a.toNat
    let v := c.get u b.toNat
    let next := (s.strand ag).pc + 4
    (va.toNat % 8 ≠ 0 → exec (.cwait d a b st) s = .next (s.takeTrap ag 0x03 va) ∧
      exec (.ctest d a b st) s = .next (s.takeTrap ag 0x03 va)) ∧
    ∀ t bs, va.toNat % 8 = 0 → u.readFor (u.wgOf ag) ag none (u.ctxOf ag).1 (u.ctxOf ag).2 va.toNat 8 = .ok t (bs, false) →
      (v.toNat ≤ ofBytes bs → exec (.cwait d a b st) s = .next (((t.cntAcquire ag st.toNat).sset ag d.toNat
          (BitVec.ofNat 64 (ofBytes bs))).retire (cwaitNeed d a b st) c next) ∧
        exec (.ctest d a b st) s = .next (((t.cntAcquire ag st.toNat).sset ag d.toNat 1).retire (cwaitNeed d a b st) c next)) ∧
      (ofBytes bs < v.toNat → exec (.cwait d a b st) s = .next ((t.waitIn ag next (.counter va v st.toNat (u.stream ag st.toNat) d c.popped)).retire
          (cwaitNeed d a b st) c (s.strand ag).pc) ∧
        exec (.ctest d a b st) s = .next ((t.sset ag d.toNat 0).retire (cwaitNeed d a b st) c next)))

/-- A FORK (R190, R191, R194): after its edge (the commit, the agent's earlier accesses, the write-backs of the runs it names, the release) the
operation is under way under a new number, for its issuer, context and stream, nothing of it done; its barrier has one more arrival and its
bytes pending, in this phase, the bytes as the edge leaves its table; its completion is a later step.

ENGINE_COMPLETE (R190, R194, R200, R203, R215, R383): an operation whose accesses are done, or that has stopped, posts and leaves; one
still to be done comes after its agent's earlier accesses, waits while its slot is READY or something earlier is in its way, and else
performs its work, failing, faulting or going on as its outcome says: an RCOPY first sends its rows to where they lie, a counter on
another device takes a packet, everything else works here.

A POST (R194, R383): a completed operation's barrier has one arrival and its bytes fewer to wait for; a failed one poisons it. -/
def Obligations.EnginesRun : Prop :=
  (∀ (s : State) (a : Agent) (st : Nat) (sc : Stream) (n : Nat) (bytes : State → Nat) (op : EngineOp) (w : Nat), s.wgOf a = some w →
    let e0 := { Engine.start a (s.ctxOf a) (some w) op st sc s.clk with bar := some n }
    let v := s.engineEdge e0 op.head
    let edge := v.backSpans e0 (op.spans v a)
    let t := s.fork a st sc (some n) bytes op none
    (∃ e, tabFind t.engines edge.nextId = some e ∧ e.op = op ∧ e.agent = a ∧ (e.vi, e.asid) = s.ctxOf a ∧ e.stream = st ∧ e.st = sc ∧
      e.bar = some n ∧ e.bytes = bytes edge ∧ e.spans = op.spans v a ∧ e.phase = 0 ∧ e.error = none ∧ e.xids = []) ∧
    t.nextId = edge.nextId + 1 ∧
    ((tabFind edge.wgs w).isSome → let b := edge.bget (some w) 0 n
      t.bget (some w) 0 n = { b with penda := b.penda + 1, expb := b.expb + bytes edge, pendb := b.pendb + bytes edge, opened := true }) ∧
    ∃ at_, edge.clk < at_ ∧ (at_, Instr.engineComplete edge.nextId) ∈ t.agenda) ∧
  (∀ (id : Nat) (e : Engine) (s : State), tabFind s.engines id = some e → e.xids = [] →
    (e.phase = 3 ∨ e.stopped = true → exec (.engineComplete id) s = .next (s.endEngine id e)) ∧
    (e.phase ≠ 3 → e.stopped = false →
      let v := s.flush e.agent id
      let waits := v.engineWaits id e || match e.op.slot with
        | some m => ((v.cluster e.cluster).feedOf m).ready
        | none => false
      let done := fun (r : Work × List (BitVec 32)) => Host.Outcome.next (v.settleWork id e r.1 r.2)
      (waits = true → exec (.engineComplete id) s = .next (v.inClk 1 (.engineComplete id))) ∧
      (∀ dst src x, waits = false → e.op = .rcopy dst src x → e.phase = 0 →
        exec (.engineComplete id) s = done (v.sendTile id e dst src)) ∧
      (waits = false → ¬(e.phase = 0 ∧ ∃ dst src x, e.op = .rcopy dst src x) →
        (v.engineRemote e = none → exec (.engineComplete id) s = done (engineWork e v, [])) ∧
        ∀ dev rva, v.engineRemote e = some (dev, rva) → exec (.engineComplete id) s = done (v.engineSend id e dev rva)))) ∧
  (∀ (b : Bar) (bytes : Nat) (q : BitVec 32),
    b.post bytes none = { b with penda := b.penda - 1, pendb := b.pendb - bytes, opened := true } ∧
    (b.post bytes (some q)).poison = true ∧ (b.post bytes (some q)).penda = b.penda - 1 ∧
    (b.poison = false → (b.post bytes (some q)).seq = q) ∧ (b.poison = true → (b.post bytes (some q)).seq = b.seq) ∧
    ((b.register bytes).post bytes none).penda = b.penda ∧ ((b.register bytes).post bytes none).pendb = b.pendb ∧
    (b.register bytes).expb = b.expb + bytes)

/-- THE COMMAND GRAPH DEFINED (R204 to R206, R241, R387): NODE captures the sequence behind it, which does not run, and goes on behind
that; NODE.L captures a launch record of 512 bytes; a node that is ARMED or FIRED makes either wait; NEDGE adds an edge, and from a DONE node
it counts at once, while to a node that is DONE with an error it does nothing; NWAIT of a DONE node is an acquire that gives its error word, else it waits.

NODES FIRE AND COMPLETE (R206, R387): an ARMED node whose count is 0 fires its body, or tries in the next clk where the body finds no slot, room
or sequencer; a FIRED node that completes is DONE and releases its successors, one count for each edge, or when it failed cancels
all that its edges reach. A successor whose count falls to 0 fires in the next clk. -/
def Obligations.Graphs : Prop :=
  ((∀ (d : NodeNo) (n : BitVec 6) (i : Instr) (len : Nat) (s : State) (t : Nat) (c : Ctx) (u : State) (b : Body),
    let ag := Agent.thread t
    s.behind = some (i, len) → Opens (nodeNeed (some i)) ag s c u → bodyTrap c u i = none → captureBody c u i = some b →
    (u.nodeHeld (t / 2) d.toNat = false → exec (.node d n) s = .next (((if bodyCommits i then u.implicitCommit ag else u).define ag
      d.toNat n.toNat b).retire (nodeNeed (some i)) c ((s.strand ag).pc + 4 + BitVec.ofNat 64 len))) ∧
    (u.nodeHeld (t / 2) d.toNat = true → exec (.node d n) s = .next (s.blockNeed ag (nodeNeed (some i)) .async))) ∧
  (∀ (d : NodeNo) (n : BitVec 6) (b : SReg) (st : StreamNo) (s : State) (t : Nat) (c : Ctx) (u v : State) (r : List Byte),
    let ag := Agent.thread t
    Opens (nodeLNeed b st) ag s c u → u.nodeHeld (t / 2) d.toNat = false →
    let va := (c.get u b.toNat).toNat
    let f := u.flush ag u.nextId
    let e := Engine.start ag (u.ctxOf ag) (u.wgOf ag) (.binrst 0) st.toNat (u.stream ag st.toNat) u.clk
    f.engineWaits f.nextId { e with spans := [(va, 512)] } = false →
    f.readFor (f.wgOf ag) ag none (u.ctxOf ag).1 (u.ctxOf ag).2 va 512 = .ok v (r, false) →
    let l := match u.wgOf ag with
      | some w => u.launch (u.wg w).launch
      | none => Launch.blank
    exec (.nodeL d n b st) s = .next ((v.define ag d.toNat n.toNat (.launch r va l.cap l.kpid l.ktid)).retire (nodeLNeed b st) c
      ((s.strand ag).pc + 4))) ∧
  (∀ (d a : NodeNo) (s : State) (t : Nat) (c : Ctx) (u : State), Opens { vec := false } (.thread t) s c u →
    let x := u.node (t / 2) d.toNat
    let v := u.addEdge (t / 2) d.toNat a.toNat
    let y := u.node (t / 2) a.toNat
    exec (.nedge d a) s = .next ((if y.state = .done ∧ y.error ≠ 0 then u else if x.state = .done then
        (if x.error = 0 then v.release (t / 2) a.toNat else v.cancelAll (t / 2) (v.reachable (t / 2) [a.toNat] 64) x.error)
      else v).retire { vec := false } c ((s.strand (.thread t)).pc + 4))) ∧
  ∀ (d : SReg) (a : NodeNo) (s : State) (ag : Agent) (c : Ctx) (u : State),
    let n : Need := { dst := [d.toNat] }
    Opens n ag s c u →
    ((u.node ag.cluster a.toNat).state = .done → exec (.nwait d a) s = .next ((u.nwaitEnd ag a.toNat d).retire n c
      ((s.strand ag).pc + 4))) ∧
    ((u.node ag.cluster a.toNat).state ≠ .done → exec (.nwait d a) s = .next ((u.waitIn ag ((s.strand ag).pc + 4)
      (.node a.toNat d)).retire n c (s.strand ag).pc))) ∧
  (∀ (k n : Nat) (s : State),
    let x := s.node k n
    let a := Agent.thread x.thread
    let again := s.inClk 1 (.nodeFire k n)
    (x.state = .armed → x.count = 0 →
      (∀ op dst src bar st sc, x.body = some (.tile op dst src bar st sc) → exec (.nodeFire k n) s = .next (if s.engineSlots a.unit = 0
        then again else (s.forkAs a (x.vi, x.asid) x.wg st sc (some bar) (fun _ => tileOpBytes op dst src) (tileOp op dst src) (some n)).fired k n)) ∧
      (∀ h va st sc, x.body = some (.weight h va st sc) → exec (.nodeFire k n) s = .next (if s.handleBusy k h || s.engineSlots a.unit = 0
        then again else ((s.forkAs a (x.vi, x.asid) x.wg st sc none (fun _ => 0) (.tldw h va) (some n)).tldwStart k h).fired k n)) ∧
      (∀ z i m h cfg, x.body = some (.mat z i m h cfg) → exec (.nodeFire k n) s = .next (if (tabGet (s.cluster k).mq (i % 16) []).length < 8
        then (s.enqueueOp k (matOp x.thread z i m h cfg (some n) s.clk)).fired k n else again)) ∧
      (∀ word geom cfg, x.body = some (.macro_ word geom cfg) → exec (.nodeFire k n) s = .next (if (s.thread x.thread).seqr.isSome
        then again else (s.startSeq x.thread word geom cfg (some n)).fired k n)) ∧
      (∀ r addr cap kpid ktid, x.body = some (.launch r addr cap kpid ktid) → exec (.nodeFire k n) s =
        .next ((s.fired k n).submit x.vi x.asid r addr cap kpid ktid (some (k, n))))) ∧
    (x.state = .fired →
      let v := s.setNode k n { x with state := .done }
      (x.error = 0 → exec (.nodeComplete k n) s = .next (((List.range 64).flatMap (fun m => x.succ.filter (· == m))).foldl
        (fun s m => s.release k m) v)) ∧
      (x.error ≠ 0 → exec (.nodeComplete k n) s = .next (v.cancelAll k (v.reachable k x.succ 64) x.error))) ∧
    (x.state = .armed → x.count ≠ 0 → ((s.release k n).node k n).count = x.count - 1 ∧ ((s.release k n).node k n).state = .armed ∧
      (x.count = 1 → (s.release k n).agenda = s.agenda ++ [(s.clk + 1, .nodeFire k n)])))

/-- EMIT (R48, R50, R53, R236): all or nothing: with room for the records of all active lanes s[d] is 0 and they arrive in lane order, else s[d] is
1 and none does; with no active lane s[d] is 0. It commits the region and releases every stream at DEVICE scope; where that release cannot
be performed at the issue, records and status follow it. -/
def Obligations.EmitAllOrNothing : Prop :=
  ∀ (d : SReg) (a : VReg) (n : BitVec 2) (st : StreamNo) (s : State) (ag : Agent) (c : Ctx) (u : State) (gid t : Nat) (g0 g : Graph),
    let need := emitNeed d a n s ag
    Opens need ag s c u → u.emitTo ag n.toNat = some (gid, g0, t) →
    let on := (List.range 96).filter (fun i => c.act.getLsbD i)
    let recs := on.map (fun i => (u.emitRegs ag a.toNat n.toNat).flatMap (fun r => toBytes (lane (u.vget ag.groupNo r) i).toNat 4))
    let e := (u.implicitCommit ag).releaseEvery ag u.nextId 3
    let w := e.1.spend
    tabFind w.monarch.graphs gid = some g →
    let next := (s.strand ag).pc + 4
    (e.2 = true → on = [] → exec (.emit d a n st) s = .next ((w.sset ag d.toNat 0).retire need c next)) ∧
    (e.2 = true → on ≠ [] → g.takes t recs.length = true →
      exec (.emit d a n st) s = .next (((w.arrive_ gid t recs).sset ag d.toNat 0).retire need c next)) ∧
    (e.2 = true → on ≠ [] → g.takes t recs.length = false →
      exec (.emit d a n st) s = .next (((w.emitFull ag gid g t).sset ag d.toNat 1).retire need c next)) ∧
    (e.2 = false →
      let x := e.1.after ag (.emit gid t recs d.toNat)
      exec (.emit d a n st) s = .next ((({ x with accesses := tabMod x.accesses e.1.nextId (fun y => { y with
        dest := (1, d.toNat, 0, 0) }) } : State).reservePush ag e.1.nextId d.toNat).retire need c next))

/-! ### Collectives and the merge (spec/14_isa_collectives.md) -/

/-- COLLECTIVES ISSUE (R190, R191, R208 to R212, R388): every group issues the COLL, with an engine slot free, on the record that it reads at
s[a], after a commit, its core's write-backs of what the operation names and a release, with nothing earlier in its way; a group that is not the communication group goes on
behind it, the communication group's record, tile and barrier are the operation's, and it waits in the sequence; when every group has issued,
the driver starts and the barrier has one arrival more to wait for. A broken record is ILLEGAL 12, a misaligned one MISALIGN (0x03).

A COLLECTIVE RUNS (R209, R212 to R214, R388, R389): COLL_STEP, on a core that has issued nothing in the clk, takes the driver's next step: an
addition of a chunk whose counter has been reached, or the send of STAGE or of the buffer; a counter not reached yet makes it wait under ASYNC, one with
bit 63 set aborts it under 0x73; after the last step and the last acknowledgement it ends. COLL_ABORT begins an abort, raises the next rank's
counters once the sends are done, and ends it once the previous rank has been heard.

STEPS IN THE RING (R209, R212): a driver's steps: for each chunk in order its addition and, unless the rank is the chunk's last, the send of
STAGE; then for each chunk its gather wait and, unless the rank is the last of the ring from the gather's head, the send of the buffer. Position 0
is the owner's, and the rank before the owner's is last. -/
def Obligations.Collectives : Prop :=
  (∀ row ∈ [(Instr.allred, 0), (Instr.redsc, 1), (Instr.allgat, 2), (Instr.bcast, 3)],
  ∀ (d : TReg) (a : SReg) (n : BarNo) (st : StreamNo) (s : State) (g k : Nat) (c : Ctx) (u v : State) (w : Nat) (r : List Byte),
    let ag := Agent.split g k
    let need := collNeed row.2 d a n
    Opens need ag s c u → u.wgOf ag = some w →
    let va := (c.get u a.toNat).toNat
    u.readFor (some w) ag none (u.ctxOf ag).1 (u.ctxOf ag).2 va 64 = .ok v (r, false) → regPre n.toNat u ag = none →
    (∀ x, recordBad n.toNat u ag (recComm (u.record w) == some (u.group g).idx) r = some x →
      exec (row.1 d a n st) s = .next (s.takeTrap ag 0x01 (BitVec.ofNat 64 (12 * 2 ^ 56 + x.toNat % 2 ^ 48)))) ∧
    (recordBad n.toNat u ag (recComm (u.record w) == some (u.group g).idx) r = none →
      (va % 64 ≠ 0 → exec (row.1 d a n st) s = .next (s.takeTrap ag 0x03 (c.get u a.toNat))) ∧
      (let me := (v.group g).idx
      let q := (v.wg w).coll.getD { op := BitVec.ofNat 2 row.2, record := [], va := 0, tile := [], bar := n.toNat, stream := st.toNat
                                    st := v.stream ag st.toNat, agent := none, issued := [], started := false, chunks := 0, pos := 0
                                    sends := [], abort := none, phase := 0, told := false }
      va % 64 = 0 → v.engineSlots ag.unit ≠ 0 → q.issued.contains me = false → q.started = false →
      let comm := recComm (v.record w) == some me
      let ws := v.tget ag d.toNat
      let chunks := if crRows r = 0 then Config.pick v.free else ((descOf ws).rows + crRows r - 1) / crRows r
      let stage := if row.2 < 2 then [(crStage r, 4 * (descOf ws).rows * (descOf ws).cols)] else []
      let runs := (va, 64) :: (crArrive r, 16 * chunks) :: stage ++ (descOf ws).tileRuns
      let e := { Engine.start ag (v.ctxOf ag) (v.wgOf ag) (.binrst 0) st.toNat (v.stream ag st.toNat) v.clk with spans := runs }
      let x := v.engineEdge e runs
      x.engineWaits x.nextId e = false →
      let all := (List.range (v.wg w).groups.length).all (fun i => (q.issued ++ [me]).contains i)
      let reg := fun (b : Nat) (y : State) => if all then y.bput (some w) 0 b ((y.bget (some w) 0 b).register 0) else y
      (comm = false → exec (row.1 d a n st) s = .next ((reg q.bar (x.setColl w (some { q with
        issued := q.issued ++ [me], started := all }))).retire need c ((s.strand ag).pc + 4))) ∧
      (comm = true → exec (row.1 d a n st) s = .next (((reg n.toNat (let y := x.setColl w (some { q with
        issued := q.issued ++ [me], started := all, op := BitVec.ofNat 2 row.2, record := r, va := c.get u a.toNat, tile := ws
        bar := n.toNat, stream := st.toNat, st := v.stream ag st.toNat, agent := some ag, chunks := chunks })
          if crRows r = 0 then y.spend else y)).waitIn ag ((s.strand ag).pc + 4) .coll).retire need c (s.strand ag).pc))))) ∧
  ((∀ (w : Nat) (s : State) (q : Coll) (a : Agent), (s.wg w).coll = some q → q.agent = some a → (s.unit a.unit).issued = false →
    (s.strand a).wait = some .coll → q.started = true → q.abort = none →
    let e := s.collEngine w q
    (∀ c, q.steps[q.pos]? = some (0, c) → q.pos_ (c % q.p) = 0 → q.finals 0 c = false →
      exec (.collStep w) s = .next (s.collSettle w a q (collAdd e q c s) none)) ∧
    (∀ c, q.steps[q.pos]? = some (0, c) → q.pos_ (c % q.p) ≠ 0 → q.finals 0 c = false →
      (s.arrival e q c 0 = .ready → exec (.collStep w) s = .next (s.collSettle w a q (collAdd e q c s) none)) ∧
      (s.arrival e q c 0 = .waits → exec (.collStep w) s = .next (s.block a .async)) ∧
      (s.arrival e q c 0 = .aborted → exec (.collStep w) s = .next ((s.abortColl w 0x73 (q.counter c 0)).block a .async))) ∧
    (∀ k c, k = 1 ∨ k = 3 → q.steps[q.pos]? = some (k, c) →
      exec (.collStep w) s = .next (s.collSettle w a q (collSend e w q k c s).1 (some (collSend e w q k c s).2))) ∧
    (q.steps[q.pos]? = none → q.sends = [] → exec (.collStep w) s = .next (s.collEnd w a q)) ∧
    (q.steps[q.pos]? = none → q.sends ≠ [] → exec (.collStep w) s = .next (s.block a .async))) ∧
  ∀ (w : Nat) (reason : BitVec 8) (s : State) (q : Coll), (s.wg w).coll = some q →
    (q.abort = none → reason ≠ 0 → exec (.collAbort w reason) s = .next (s.abortColl w reason.toNat q.va.toNat)) ∧
    (q.abort.isSome = true →
      let p : Coll := { q with told := q.told || reason = 0x72 }
      let v := s.setColl w (some p)
      let again := fun (s : State) => if reason = 0 then s.inClk 1 (.collAbort w 0) else s
      (q.phase = 0 → q.sends ≠ [] → exec (.collAbort w reason) s = .next (again v)) ∧
      (q.phase = 0 → q.sends = [] → exec (.collAbort w reason) s = .next (again ((v.setColl w (some { p with phase := 1 })).abortRaise w
        { p with phase := 1 }))) ∧
      (q.phase ≠ 0 → v.abortHeard w p = true → exec (.collAbort w reason) s = .next (v.abortEnd w p)) ∧
      (q.phase ≠ 0 → v.abortHeard w p = false → exec (.collAbort w reason) s = .next (again v)))) ∧
  (∀ (q : Coll) (c : Nat), 0 < q.p → q.rank < q.p →
    (q.pos_ (c % q.p) = 0 ↔ q.rank = c % q.p) ∧ (q.pos_ (c % q.p) + 1 = q.p ↔ q.rank = q.last c) ∧
    (c < q.chunks → ((0, c) ∈ q.steps ↔ q.op.toNat < 2) ∧ ((1, c) ∈ q.steps ↔ q.op.toNat < 2 ∧ q.rank ≠ q.last c) ∧
      ((2, c) ∈ q.steps ↔ q.op ≠ 1)))

/-- THE MERGE UNIT (R216 to R222, R364, R390): BMOPEN and BMCLOSE read the record at s[a] and wait for the unit, BMSTAT answers from it: free slots,
REJECTED and NEXT; BMSTAGE forks an operation of 4,096 bytes; BMNORM answers the running sum of squares under the limit, the norm and the scale; BMADD adds the
scaled tile and answers nothing. MERGE_COMMIT commits, while one is at its merge's NEXT.

SLOTS OF A MERGE (R217 to R219, R390): an OPEN of a contributor that is not yet open is granted the lowest free slot, all zeros, where it is the one at
NEXT, or leaves another slot free, or the one at NEXT holds a slot already; else bit 63 says to ask again; a CLOSE of an open one closes it or, absent, frees its
slot, and the commit unit is to run; of one closed or committed it answers 2, of one not open 1, each with a record. -/
def Obligations.Merges : Prop :=
  ((∀ (d a b : SReg) (st : StreamNo) (s : State) (ag : Agent) (c : Ctx) (u v : State) (r : List Byte),
    u.engineSlots ag.unit ≠ 0 →
    let va := c.get u a.toNat
    let e := { Engine.start ag (u.ctxOf ag) (u.wgOf ag) (.binrst 0) st.toNat (u.stream ag st.toNat) u.clk with spans := [(va.toNat, 64)] }
    let t := u.engineEdge e [(va.toNat, 64)]
    t.engineWaits t.nextId e = false → t.readFor (u.wgOf ag) ag none (u.ctxOf ag).1 (u.ctxOf ag).2 va.toNat 64 = .ok v (r, false) →
    let pc := (s.strand ag).pc
    let x := (c.get u b.toNat).toNat % 4096
    (Opens (bmNeed d a [b.toNat] st) ag s c u → exec (.bmopen d a b st) s = .next ((((v.mergeOpen ag va r x).1.waitIn ag (pc + 4) (.answer
      ((v.mergeOpen ag va r x).1.clk + 1 + (v.mergeOpen ag va r x).1.delay) [(d, (v.mergeOpen ag va r x).2)])).spend).retire
        (bmNeed d a [b.toNat] st) c pc)) ∧
    (Opens (bmcloseNeed d a b st s) ag s c u → (∀ j y, v.slotOf (mrDie r) (u.ctxOf ag).1 (u.ctxOf ag).2 va x = some (j, y) → v.stagesOf ag (mrDie r) j = false) →
      let z := v.mergeClose ag va r x ((c.get u b.toNat).getLsbD 63)
      exec (.bmclose d a b st) s = .next ((z.1.spend.sset ag d.toNat z.2).retire (bmcloseNeed d a b st s) c (pc + 4))) ∧
    (Opens (bmstatNeed d a st s) ag s c u → exec (.bmstat d a st) s = .next ((v.spend.sset ag d.toNat (BitVec.ofNat 64
      ((v.die (mrDie r)).freeSlots.length * 2 ^ 32 + mrRejected r % 8192 * 2 ^ 16 + mrNext r % 8192))).retire (bmstatNeed d a st s) c (pc + 4)))) ∧
  (∀ (d : TReg) (a : SReg) (n : BarNo) (st : StreamNo) (s : State) (ag : Agent) (c : Ctx) (u : State), Opens (bmstageNeed d a n) ag s c u →
    u.engineSlots ag.unit ≠ 0 → exec (.bmstage d a n st) s = .next ((u.fork ag st.toNat (u.stream ag st.toNat) (some n.toNat) (fun _ => 4096)
      (.stage (c.get u a.toNat) (u.tget ag d.toNat)) none).retire (bmstageNeed d a n) c ((s.strand ag).pc + 4))) ∧
  (∀ (d : SReg) (m : TReg) (b : SReg) (st : StreamNo) (s : State) (ag : Agent) (c : Ctx) (u : State), Opens (bmnormNeed d m b st) ag s c u →
    u.engineSlots ag.unit ≠ 0 →
    let ws := u.tget ag m.toNat
    let runs := (descOf ws).tensorRuns
    let e := { Engine.start ag (u.ctxOf ag) (u.wgOf ag) (.binrst 0) st.toNat (u.stream ag st.toNat) u.clk with spans := runs }
    let t := u.engineEdge e runs
    t.engineWaits t.nextId e = false →
    let g := ((Work.start t).aligned (descAlign (descOf ws).fmt) (descOf ws).rowAddrs).mergeTile e (descOf ws)
    g.1.flt = none → g.1.err = none →
    let limit := (c.get u b.toNat).toNat / 2 ^ 32
    let sq := sumSq ((c.get u b.toNat).toNat % 2 ^ 32) g.2.1
    let scale := if finiteF (rootF sq) then scaleF (rootF sq) limit else fp32.nan
    exec (.bmnorm d m b st) s = .next (((g.1.s.waitIn ag ((s.strand ag).pc + 4) (.answer (g.1.s.clk + 1 + g.1.s.delay)
      [(d, BitVec.ofNat 64 (limit * 2 ^ 32 + sq)), (d + 1, BitVec.ofNat 64 (rootF sq * 2 ^ 32 + scale))])).spend).retire
        (bmnormNeed d m b st) c (s.strand ag).pc)) ∧
  (∀ (d a : TReg) (b : SReg) (st : StreamNo) (s : State) (ag : Agent) (c : Ctx) (u : State), Opens (bmaddNeed d a b st) ag s c u →
    u.engineSlots ag.unit ≠ 0 →
    let dst := u.tget ag d.toNat
    let src := u.tget ag a.toNat
    let runs := (descOf dst).tensorRuns ++ (descOf src).tensorRuns
    let e := { Engine.start ag (u.ctxOf ag) (u.wgOf ag) (.binrst 0) st.toNat (u.stream ag st.toNat) u.clk with spans := runs }
    let t := u.engineEdge e runs
    t.engineWaits t.nextId e = false →
    let g := addWork e dst src ((c.get u b.toNat).toNat % 2 ^ 32) t
    g.flt = none → g.err = none →
    exec (.bmadd d a b st) s = .next (((g.s.waitIn ag ((s.strand ag).pc + 4) (.answer (g.s.clk + 1 + g.s.delay) [])).spend).retire
      (bmaddNeed d a b st) c (s.strand ag).pc)) ∧
  ∀ (die : Fin 4) (s : State),
    ((s.die die).ready = [] → exec (.mergeCommit die) s = .next s) ∧
    ∀ (x : Ready) (v : State) (r : List Byte) (bad : Bool), (s.die die).ready = [x] → s.readHome x.vi x.asid x.va.toNat 64 = .ok v (r, bad) →
      ((mrNext r ≠ x.index ∨ mergeOk x.va.toNat r = false) → exec (.mergeCommit die) s = .next s) ∧
      (∀ t, mrNext r = x.index → mergeOk x.va.toNat r = true → s.commitOne die x r = (t, none) → (t.die die).ready = [] →
        exec (.mergeCommit die) s = .next t)) ∧
  (∀ (s : State) (a : Agent) (va : Word) (r : List Byte) (i : Nat), mergeOk va.toNat r = true → i < mrCont r →
    let x := s.ctxOf a
    let die := mrDie r
    let free := (List.range (s.die die).nslot).filter (fun j => (tabFind (s.die die).slots j).isNone)
    (s.contrib x.1 x.2 va r i = .pending →
      (∀ j rest, free = j :: rest → (i = mrNext r ∨ rest ≠ [] ∨ (s.slotOf die x.1 x.2 va (mrNext r)).isSome) →
        s.mergeOpen a va r i = (s.setSlot die j (newSlot x.1 x.2 va i), BitVec.ofNat 64 (j + 0x100 * die))) ∧
      (∀ j, free = [j] → i ≠ mrNext r → s.slotOf die x.1 x.2 va (mrNext r) = none → s.mergeOpen a va r i = (s, 0x8000000000000000)) ∧
      (free = [] → (s.die die).nslot ≠ 0 → s.mergeOpen a va r i = (s, 0x8000000000000000)) ∧
      (s.mergeClose a va r i false).2 = 1 ∧ (s.mergeClose a va r i true).2 = 0) ∧
    (∀ j, s.contrib x.1 x.2 va r i = .opened j → (s.mergeClose a va r i false).2 = 0 ∧ (s.mergeClose a va r i true).2 = 0 ∧
      (s.mergeClose a va r i false).1.mem = s.mem) ∧
    (s.contrib x.1 x.2 va r i = .closed ∨ s.contrib x.1 x.2 va r i = .committed →
      ∀ ab, (s.mergeClose a va r i ab).2 = 2 ∧ (s.mergeClose a va r i ab).1 = s.mergeReport die x.1 x.2 0x63 va (s.joined a)))

/-! ### Lines, launches, placement (spec/05_memory.md, spec/16_memory_model.md, spec/20_vm.md, spec/17_runtime.md, spec/21_preemption.md) -/

/-- MISSING LINES (R85, R89, R290 to R294, R298, R301, R375): a request's translation comes from its station or from a walk, its own or the one of
its page in progress, of which a station has at most 16; with it the line is filled into its home, unless the interface is at its ceiling, and the steps
that wait on it go on; without it they meet the failure. A fetch miss makes its agent wait under FETCH and, with no fill of the line in flight on its
die, starts one.

ACCESSES COMPLETE (R155, R156, R161, R163, R241, R376). LOAD_COMPLETE and STORE_PERFORMED of an access, after what the check bits
show: one whose owner has gone leaves, an atomic once it is performed; one that must follow an earlier access, a write-back that is held or
an unacknowledged remote write tries again in the next clk; a missing line is asked for; one whose lanes meet a malformed entry, a refused frame or poison at the homes traps, in that order; else a store is performed, and a load or atomic for which the
homes answer without fault or poison is performed, its lanes delivered, its destinations free, an acquire done, and the agent that
waited in it goes on. -/
def Obligations.MemorySteps : Prop :=
  ((∀ (id : Nat) (r : Request) (s : State), tabFind s.requests id = some r →
    let through := fun (s : State) (i : Nat) (q : Request) (t : Tlb) =>
      if (q.write && !s.mayWrite q.vi q.line t.w) || (q.fetch && !t.x) || t.remote.isSome then s.endRequest i false
      else ({ s with requests := tabPut s.requests i { q with tlb := some t } } : State).later 1 (.l2Fill i .none)
    let walks := s.requests.filter (fun p => p.2.walk == some p.1)
    let answer := fun (o : Option Tlb) (s : State) (i : Nat) => match tabFind s.requests i with
      | none => s
      | some q =>
        let q := { q with walk := none }
        let s : State := { s with requests := tabPut s.requests i q }
        match o with
        | some t => through s i q t
        | none => s.endRequest i false
    let mine := (s.requests.filter (fun p => p.2.walk == some id)).map (·.1)
    (∀ t, s.tlbFind r.vi r.asid r.line = some t → exec (.translate id) s = .next (through (s.tlbTouch r.vi r.asid r.line) id r t)) ∧
    (s.tlbFind r.vi r.asid r.line = none →
      (∀ n q, walks.find? (fun p => s.pageOf p.2 == s.pageOf r) = some (n, q) →
        exec (.translate id) s = .next { s with requests := tabPut s.requests id { r with walk := some n } }) ∧
      (walks.find? (fun p => s.pageOf p.2 == s.pageOf r) = none →
        (16 ≤ (walks.filter (fun p => (s.pageOf p.2).1 == (s.pageOf r).1)).length → exec (.translate id) s = .next (s.inClk 1 (.translate id))) ∧
        ((walks.filter (fun p => (s.pageOf p.2).1 == (s.pageOf r).1)).length < 16 → exec (.translate id) s =
          .next (({ s with requests := tabPut s.requests id { r with walk := some id } } : State).later 1 (.walkComplete id))))) ∧
    ((∀ h ∈ s.hops r.vi r.asid r.line, ∀ pa, h.pa = some pa → hasMemory pa = true → s.atCeiling r.vi (pa / 0x200000000 / 12) = false) →
      (∀ v t, s.translate r.vi r.asid r.line = .ok v t → exec (.walkComplete id) s = .next (mine.foldl (answer (some t)) v)) ∧
      (∀ v st i, s.translate r.vi r.asid r.line = .fault v st i → exec (.walkComplete id) s = .next (mine.foldl (answer none) v)) ∧
      (∀ v, s.translate r.vi r.asid r.line = .bad v → exec (.walkComplete id) s = .next (mine.foldl (answer none) v))) ∧
    ((∃ h ∈ s.hops r.vi r.asid r.line, ∃ pa, h.pa = some pa ∧ hasMemory pa = true ∧ s.atCeiling r.vi (pa / 0x200000000 / 12) = true) →
      exec (.walkComplete id) s = .next { s with agenda := s.agenda ++ [((s.clk / 1200 + 1) * 1200, .walkComplete id)] }) ∧
    (∀ t, r.tlb = some t → (s.l2 (lineKey t.asid r.line)).isSome = true → ∀ g, exec (.l2Fill id g) s = .next (s.endRequest id true)) ∧
    (∀ t v, r.tlb = some t → s.l2 (lineKey t.asid r.line) = none → s.atCeiling r.vi (t.at r.line / 0x200000000 / 12) = false →
      s.fill r.vi r.line t = some v → exec (.l2Fill id .none) s = .next (v.endRequest id true)) ∧
    (∀ t g, r.tlb = some t → s.l2 (lineKey t.asid r.line) = none → s.atCeiling r.vi (t.at r.line / 0x200000000 / 12) = true →
      exec (.l2Fill id g) s = .next { s with agenda := s.agenda ++ [((s.clk / 1200 + 1) * 1200, .l2Fill id g)] }) ∧
    (∀ t g, r.tlb = some t → s.l2 (lineKey t.asid r.line) = none → s.atCeiling r.vi (t.at r.line / 0x200000000 / 12) = false →
      s.fill r.vi r.line t = none → exec (.l2Fill id g) s = .next (s.endRequest id false))) ∧
  (∀ (va : BitVec 64) (s : State) (a : Agent), s.cur = some a → s.fetches = [] →
    let v := s.block a .fetch
    let f : Fetch := { die := a.die, asid := (s.ctxOf a).2, vi := (s.ctxOf a).1, line := va.toNat / 128 * 128, kernels := [s.kernelOf a], agent := a }
    exec (.fetchMiss ⟨va, .none⟩) s = .next (({ v with
      fetches := tabPut v.fetches v.nextId f, nextId := v.nextId + 1 } : State).later 1 (.fetchFill v.nextId .none))) ∧
  ∀ (id : Nat) (f : Fetch) (s : State), tabFind s.fetches id = some f →
    let key := lineKey (s.tagAsid f.vi f.asid f.line) f.line
    ((s.l2 key).isSome = true → exec (.fetchFill id .none) s = .next (s.finishFetch id)) ∧
    (s.l2 key = none → exec (.fetchFill id .none) s = .next (s.request f.vi f.asid f.line false true (.fetchFill id .none)))) ∧
  ((∀ (id : Nat) (p : Upset) (s : State) (x : Access), tabFind s.accesses id = some x → x.what = 0 ∨ x.what = 2 →
    let v := s.upsetFor x p
    (v.orphan x = true →
      let w := if x.what = 2 then (v.performOne id).1 else v
      exec (.loadComplete id p) s = .next { w with accesses := tabDel w.accesses id }) ∧
    (v.orphan x = false →
      let w := if v.mustWait id x then v.flush x.agent id else v
      let stays := w.mustWait id x || w.releaseWaits x || w.releaseHeld x
      (stays = true → exec (.loadComplete id p) s = .next (w.inClk 1 (.loadComplete id .none))) ∧
      (stays = false → ∀ y, tabFind w.accesses id = some y →
        (∀ va, w.missing y = some va → exec (.loadComplete id p) s = .next (w.bring id x va)) ∧
        (w.missing y = none →
          let q : State := { w with accesses := tabMod w.accesses id (fun x => { x with token := none }) }
          (q.lateTrap y = none → (q.performOne id).2 = none →
            let z := (q.performOne id).1
            ∀ got, tabFind z.accesses id = some got →
            exec (.loadComplete id p) s = .next (
              let t := (z.deliver id got).settlePend got ((z.deliver id got).clk + convExtra got.dest.2.2.1 got.dest.2.2.2)
              let t := if got.acquire then t.fenceEnd got.agent (1 <<< got.stream) else t
              let t : State := { t with accesses := tabDel t.accesses id }
              if (t.strand got.agent).wait = some (.access id) then t.endWait got.agent else t)) ∧
          (∀ code va, q.lateTrap y = some (code, va) →
            exec (.loadComplete id p) s = .next ((if code = 0x06 then q.malformedAt y.agent y.vi y.asid va else q).trapLoad id y code va)))))) ∧
  ∀ (id : Nat) (p : Upset) (s : State) (x : Access), tabFind s.accesses id = some x →
    let v := s.upsetFor x p
    let home := fun (w : State) => match w.missing x with
      | some va => w.bring id x va
      | none =>
        let t := w.storeOne id
        match tabFind t.accesses id with
        | some y => if y.what = 1 then t.inClk 1 (.storePerformed id .none) else t
        | none => t
    (x.what = 4 → exec (.storePerformed id p) s = .next (home v)) ∧
    (x.what = 1 →
      let w := if v.mustWait id x then v.flush x.agent id else v
      (tabFind w.accesses id = none → exec (.storePerformed id p) s = .next w) ∧
      ∀ y, tabFind w.accesses id = some y →
        ((w.mustWait id y || w.releaseWaits y) = true → exec (.storePerformed id p) s = .next (w.inClk 1 (.storePerformed id .none))) ∧
        ((w.mustWait id y || w.releaseWaits y) = false → y.via = false → exec (.storePerformed id p) s = .next (home w))))

/-- LAUNCH QUEUES (R260 to R263, R298, R315, R316, R392): a write to the doorbell of an enabled interface's queue makes it served up to the TAIL then
read, under the names of the writing core, and a queue under service reads TAIL once more at its end; one that keeps no rule is reported under 0x81; each
arrival takes one entry and raises HEAD, while there is room; ELIGIBILITY_CHECK makes every launch eligible whose AFTER objects all read 1.

PLACEMENT AND GRAPHS (R48, R49, R262, R264, R298, R304 to R307, R312, R313, R397): the first launch in the order is placed where it fits, with those of a
migration record before it; a graph whose nodes hold their reservations becomes active with its node table and its initial records; a flush gives what a
node's queue holds to one workgroup; a discard, with no engine under way and its control program absent or done, leaves a restart record with its launch and
frees its workgroup; a grace that has run out saves the control program and frees its thread; a suspended program takes a free thread. -/
def Obligations.LaunchesAndPlacement : Prop :=
  ((∀ (c : Fin 16) (kp kt : BitVec 32) (pa : BitVec 64) (s : State), exec (.dbell (some c) (some (kp, kt)) pa []) s = .next { s with mgmt := { s.mgmt with
    kpid := tabPut s.mgmt.kpid c.val kp, ktid := tabPut s.mgmt.ktid c.val kt } }) ∧
  (∀ (vi : BitVec 8) (q : BitVec 3) (c : Fin 16) (data : List Byte) (s : State), s.viBit vi 0 = true → data ≠ [] →
    let ring := Instr.dbell (some c) none (0x200000000000 + 0x10000 * vi.setWidth 64 + 8 * q.setWidth 64) data
    let key := 8 * vi.toNat + q.toNat
    let kp := tabGet s.mgmt.kpid c.val 0
    let kt := tabGet s.mgmt.ktid c.val 0
    let va := s.viField vi (0x40 + 8 * q.toNat) 8
    (s.monarch.bells.any (fun b => b.key == key) = true → exec ring s = .next { s with monarch := { s.monarch with
      bells := s.monarch.bells.map (fun b => if b.key == key then { b with again := some (kp, kt) } else b) } }) ∧
    (s.monarch.bells.any (fun b => b.key == key) = false →
      s.firstFault vi (BitVec.ofNat 16 (s.viField vi (0x80 + 2 * q.toNat) 2)) [(va, 64)] = none → ∀ v d, s.launchQueue vi q.toNat = some (v, d) →
      (d.good = true → d.waiting ≤ d.size → ∃ t, exec ring s = .next t ∧
        t.monarch.bells = v.monarch.bells.filter (fun b => b.key != key) ++ [{ key := key, kpid := kp, ktid := kt, tail := d.tail, again := none }] ∧
        t.due = .launchArrival vi q :: v.due ∧ t.mem = v.mem) ∧
      (d.good = false → exec ring s = .next ((v.report 7 1 (unitWord 9 0) (vi, d.asid) d.va 0 1 0x81 noName).setBells
        (fun bs => bs.filter (fun b => b.key != key)))))) ∧
  (∀ (vi : BitVec 8) (q : BitVec 3) (b : Bell) (s u : State) (d : LaunchQueue),
    s.monarch.bells.find? (fun b => b.key == 8 * vi.toNat + q.toNat) = some b →
    s.monarch.closed.contains vi.toNat = false → s.heldBy vi < 64 → s.heldAll < 4096 →
    s.firstFault vi (BitVec.ofNat 16 (s.viField vi (0x80 + 2 * q.toNat) 2)) [(s.viField vi (0x40 + 8 * q.toNat) 8, 64)] = none →
    s.launchQueue vi q.toNat = some (u, d) →
    (d.head = b.tail → b.again = none →
      exec (.launchArrival vi q) s = .next (u.setBells (fun bs => bs.filter (fun b => b.key != 8 * vi.toNat + q.toNat)))) ∧
    (d.head = b.tail → ∀ n, b.again = some n → exec (.launchArrival vi q) s = .next (u.readTail vi q.toNat n.1 n.2)) ∧
    (d.head ≠ b.tail → d.waiting ≤ d.size → u.firstFault vi d.asid (u.entryReads vi d (d.base + 8 * (d.head % d.size))) = none →
      ∀ v bs, u.monRead vi d.asid (d.base + 8 * (d.head % d.size)) 8 = some (v, bs) →
        exec (.launchArrival vi q) s = .next (((v.takeEntry vi d (ofBytes bs) (d.base + 8 * (d.head % d.size)) b.kpid b.ktid).writeOwn .device vi d.asid 0
          (d.va + 0xC) (toBytes ((d.head + 1) % 2 ^ 32) 4)).first (.launchArrival vi q)) ∧
        (ofBytes bs % 64 = 0 → ∀ x rec_, v.monRead vi d.asid (ofBytes bs) 512 = some (x, rec_) →
          v.takeEntry vi d (ofBytes bs) (d.base + 8 * (d.head % d.size)) b.kpid b.ktid =
            x.submit vi d.asid rec_ (ofBytes bs) d.prio b.kpid b.ktid none))) ∧
  ∀ (s : State), ∃ t, exec .eligibilityCheck s = .next t ∧ t.mem = s.mem ∧ t.clk = s.clk ∧
    t.monarch.launches = s.monarch.launches.map (fun p => (p.1, if p.2.graph = none ∧ p.2.eligible = false ∧
      s.afters p.2.vi p.2.asid p.2.record = true then { p.2 with eligible := true } else p.2))) ∧
  ((∀ (die : Fin 4) (s : State), (s.order = [] → exec (.placementDecision ⟨die, none⟩) s = .next s) ∧
    (∀ k l rest num back cluster core, s.order = (k, l) :: rest → l.candidate = some (num, back) →
      s.placeFor die.val k num back = some (cluster, core) →
      exec (.placementDecision ⟨die, none⟩) s = .next (s.place k num cluster core back)) ∧
    ∀ (m : Migration), s.viBit m.vi 0 = true →
      exec (.placementDecision ⟨die, some m⟩) s = exec (.placementDecision ⟨die, none⟩) (m.launches.foldl (fun (s : State) l => s.takeMoved m.vi l) s)) ∧
  (∀ (id : Nat) (g x : Graph) (s : State), tabFind s.monarch.graphs id = some g → g.active = false →
    let t := (g.launches.map (·.1)).foldl (fun s n => s.reserve id n) s
    let at_ := field g.record 0 8
    tabFind t.monarch.graphs id = some x → x.reserved = true → field g.record 0x10 4 = 0 →
    (∀ f, t.monRead g.vi g.asid at_ 2048 = none → t.firstFault g.vi g.asid [(at_, 2048)] = some f →
      exec (.graphActivate id) s = .next (t.monWait g.vi g.asid f (.graphActivate id))) ∧
    (∀ v table, t.monRead g.vi g.asid at_ 2048 = some (v, table) → v.firstFault g.vi g.asid [(at_, 2048)] = none →
      let w := (g.launches.map (·.2)).foldl (fun s k => s.modLaunch k (fun l => { l with eligible := true }))
        (v.modGraph id (fun x => { x with active := true, table := table }))
      exec (.graphActivate id) s = .next (((w.arrive_ id (field g.record 0x14 1) []).flushAll).graphCheck id))) ∧
  (∀ (id n : Nat) (g0 g : Graph) (s : State), tabFind s.monarch.graphs id = some g0 →
    let v := (s.refill id n).gather id n (g0.total n + 1)
    tabFind v.monarch.graphs id = some g →
    (v.flushes g n = true → exec (.nodeFlush id n) s = .next (v.addBatch id n (g.total n)).1) ∧
    (v.flushes g n = false → exec (.nodeFlush id n) s = .next v)) ∧
  (∀ (w : Nat) (x : Workgroup) (s : State), tabFind s.wgs w = some x → (∀ t, x.ctl = some t → x.ctlDone = true) →
    let v := x.liveCores.foldl (fun s c => if (s.groupsOn c).isEmpty then
        (s.modCore c (fun k => { k with keeping := some s.clk })).inClk 4096 (.keepingEnd c)
      else s) (s.dropGroups w)
    (v.enginesOf w = true → exec (.discardComplete w) s = .next (v.inClk 1 (.discardComplete w))) ∧
    (v.enginesOf w = false →
      let p := (v.drainWg w).discardCtl w
      let b : Restart := { (p.1.wg w).restart with discardable := true, ctl := p.2.1, pending := false, suspended := false, saveLost := p.2.2 }
      exec (.discardComplete w) s = .next ((p.1.modLaunch x.launch (fun l => { l with wait := l.wait ++ [(x.num, b)] })).freeWg w)) ∧
    ∀ u : State, (u.wg w).ctl = none → u.discardCtl w = (u, (u.wg w).suspended, (u.wg w).saveLost)) ∧
  (∀ (w at_ t : Nat) (s : State), (s.wg w).grace = some at_ → (s.wg w).ctl = some t → at_ ≤ s.clk → (s.wg w).preempt = true →
    (s.wg w).discard = none → ((s.wg w).ctlDone = false ∨ s.holdsAcc w = true) →
    let v := s.modThread t (fun y => { y with halt := true })
    (v.saveReady t = false → exec (.graceExpiry w) s = .next (v.inClk 1 (.graceExpiry w))) ∧
    (v.saveReady t = true → exec (.graceExpiry w) s = .next ((v.report 7 0 (unitWord 10 ((s.wg w).cluster / 24)) ((s.wg w).vi, (s.wg w).asid)
      (v.thread t).strand.pc.toNat 0 1 0x85 (v.joinedWg w)).suspendWg w false)) ∧
    ∀ u : State, (u.wg w).ctl = some t → u.holdsAcc w = false →
      u.suspendWg w false = ((u.dropUndone t).freeThread t).modWg w (fun x => { x with
        ctl := none, grace := none, suspended := if x.ctlDone then none else some (u.savedCtl t), saveLost := false })) ∧
  ∀ (w t : Nat) (r : List Nat) (y : Thread) (s : State), (s.wg w).suspended = some y → s.freeThreads (s.wg w).cluster = t :: r →
    (s.monarch.closed.contains (s.wg w).vi.toNat = true → exec (.suspendedRestore w) s = .next s) ∧
    (s.monarch.closed.contains (s.wg w).vi.toNat = false →
      exec (.suspendedRestore w) s = .next ((s.takeThread t (s.thawed y (some w) (s.wg w).stopped false)).modWg w (fun x => { x with
        ctl := some t, suspended := none }))))

/-! ### Draw windows, accounts, the clk (spec/04_stacks.md, spec/19_accounting.md) -/

/-- A DRAW WINDOW ENDS (R58, R62, R63, R65): with D of each layer its count less or more its shunt, and the mean of the four, M is D less the mean;
where no M is above the trap threshold, each layer's MIS holds M, D, the mean and its marks, a layer whose M is above the throttle threshold, or
whose power asks for it, is throttled in the next window, and the next window's counts start from the beats that fall into it, nothing burned or shunted.

ACCOUNTS AND THE CLK (R7, R70, R272, R277, R284, R301): the end of the keeping of a core, the samples of a context's period, drains at the limit of
2^20, the records that wait when software has advanced HEAD, the bandwidth of a window forgotten; CLK ends the clk and begins the next,
in which no unit has issued and the steps that are due come first. -/
def Obligations.WindowsAndAccounts : Prop :=
  (∀ (c : Nat) (s : State),
    let k := s.cluster c
    let x := fun (l : Nat) => s.core (4 * c + l)
    let raw := fun (l : Nat) =>
      let n := (x l).draw + (x l).burned + (x l).autobal
      if (x l).keeping.isSome then Nat.max n k.mean else n
    let m0 := (raw 0 + raw 1 + raw 2 + raw 3) / 4
    let D := fun (l : Nat) => if m0 < raw l then raw l - (x l).shunt else if raw l < m0 then raw l + (x l).shunt else raw l
    let mean := (D 0 + D 1 + D 2 + D 3) / 4
    let M := fun (l : Nat) => (D l : Int) - (mean : Int)
    (∀ l < 4, M l ≤ (k.stkcfg.extractLsb' 16 16).toNat) →
    ∃ t, exec (.windowEvaluation c) s = .next t ∧ t.mem = s.mem ∧ (t.cluster c).mean = mean ∧ (t.cluster c).granted = 0 ∧
      (t.cluster c).budget = (k.stkcfg.extractLsb' 48 16).toNat ∧
      ∀ l < 4, let y := t.core (4 * c + l)
        y.throttled = (decide (((k.stkcfg.extractLsb' 0 16).toNat : Int) < M l) || (x l).power != 0) ∧ y.power = (x l).power - 1 ∧
        y.draw = (x l).drawNext ∧ y.drawNext = 0 ∧ y.burned = 0 ∧ y.autobal = 0 ∧ y.shunt = 0 ∧
        y.mis.extractLsb' 0 16 = BitVec.ofInt 16 (M l) ∧ y.mis.extractLsb' 16 16 = BitVec.ofNat 16 (D l) ∧
        y.mis.extractLsb' 32 16 = BitVec.ofNat 16 mean ∧ y.mis.getLsbD 48 = (D l != raw l) ∧ y.mis.getLsbD 49 = y.throttled) ∧
  ((∀ (c t : Nat) (s : State), (s.core c).keeping = some t →
    (t + 4096 ≤ s.clk → exec (.keepingEnd c) s = .next (s.modCore c (fun k => { k with keeping := none }))) ∧
    (s.clk < t + 4096 → exec (.keepingEnd c) s = .next s)) ∧
  (∀ (u : Nat) (s : State), ((s.unit u).charged = none → exec (.sample u) s = .next s) ∧
    ∀ x : Charge, (s.unit u).charged = some x →
      let p := s.speriod x.vi x.asid
      ((x.vi, x.asid) ≠ (0, 0) → p ≠ 0 → (s.clk - 1) % 2 ^ p = 0 → s.eventOff x.vi x.asid 17 = false →
        exec (.sample u) s = .next ((s.countEvent x.vi x.asid 17 1).enqueue (ringCtx x.vi x.asid)
          ([5#8] ++ toBytes x.cause.code 1 ++ toBytes 0 6 ++ toBytes (5 * (s.clk - 1) / 6) 8 ++ toBytes x.pc.toNat 8 ++ toBytes 0 8 ++
            s.guestName x.vi x.name))) ∧
      (((x.vi, x.asid) = (0, 0) ∨ p = 0 ∨ (s.clk - 1) % 2 ^ p ≠ 0 ∨ s.eventOff x.vi x.asid 17 = true) → exec (.sample u) s = .next s)) ∧
  (∀ (u bank : Nat) (s : State), (∃ x ∈ (tabGet (s.unit u).banks bank Bank.blank).cur, 2 ^ 20 ≤ x.2) →
    exec (.limitDrain u bank) s = .next (s.drainCounters u bank 3)) ∧
  (∀ (u : Nat) (s : State), exec (.tableDrain u) s = .next (s.drainTable u)) ∧
  (∀ (vi : BitVec 8) (asid : BitVec 16) (s : State), exec (.ringHeadAdvance vi asid) s = .next (s.flushRing (ringCtx vi asid)).endHeld) ∧
  (∀ (die : Fin 4) (s : State), ∃ t, exec (.bandwidthWindow die) s = .next t ∧ (t.die die.val).band = [] ∧ t.mem = s.mem ∧
    ∀ d, d ≠ die.val → t.die d = s.die d) ∧
  ∀ (s : State), exec .clk s = .next s.endClk.nextClk ∧
    ((s.wgs.all (fun p => !p.2.preempt) && s.threads.all (fun p => !p.2.halt)) = true →
      (∀ c ∈ s.clusters, ∀ i < 2, ∀ b, tabFind (s.unit (384 + c.1)).banks (1 + i) = some b → (s.thread (2 * c.1 + i)).ctx = some (b.vi, b.asid)) →
      s.nextClk.clk = s.clk + 1 ∧ s.nextClk.mem = s.mem ∧ (∀ u, (s.nextClk.unit u).issued = false) ∧
      (∀ at_ i, (at_, i) ∈ s.agenda → at_ ≤ s.clk + 1 → i ∈ s.nextClk.due) ∧
      (∀ at_ i, (at_, i) ∈ s.agenda → s.clk + 1 < at_ → (at_, i) ∈ s.nextClk.agenda) ∧
      ((s.clk + 1) % 64 = 0 → ∀ k ∈ s.clusters, .windowEvaluation k.1 ∈ s.nextClk.due)))

/-! ### Commands, the fabric, power (spec/20_vm.md, spec/22_system.md, spec/33_errors_system.md) -/

/-- MAILBOX COMMANDS (R283, R300, R303, R308, R312, R313, R317, R331): once the Choxia is READY, a command whose arguments are within range, whose resources are the partition's and
whose state lets it run has its effect and answers RESULT 0 with its TAG; else RESULT 1, 2 or 3, in this order, and nothing happens. A reserved
code answers 1. Before READY, and where a mailbox's STATE is not 0, nothing is executed.

TRANSLATION COMMANDS AND SESSIONS (R277, R285, R292, R295 to R299, R377, R396, R397): on an enabled interface a PURGE, FOTSET or RESUME that may run has its
effect, writes 1 to DONE and advances HEAD; one that may not is reported under 0x41 and only advances HEAD; one whose DONE stands on a page that faults waits.
FOTSET writes the owner of a frame; a RESUME ends the fault of its token and lets the agents and steps that wait on it go on, or denies them. A session records
what it selects, and the reserved events among it as its STATUS; a migration record's counts of its active events go on in it. -/
def Obligations.Commands : Prop :=
  (∀ (p : Fin 8) (tag : BitVec 16) (vi : BitVec 8) (asid : BitVec 16) (pa : BitVec 64) (n : BitVec 32) (e l m : BitVec 8) (name : WgName)
    (s : State) (x : Partition),
    let yes := fun (_ : Partition) => true
    let mine := fun (v : BitVec 8) (x : Partition) => decide (x.viBase ≤ v.toNat) && decide (v.toNat < x.viBase + x.viCount)
  ∀ row ∈ ([
    (Instr.preempt p tag vi n, true, mine vi, yes, fun s => let t := (s.preempted vi n).foldl State.preemptWg s
      (if n = 0 then t.endSlice vi else t, [])),
    (.savereg p tag vi asid pa, pa.toNat % 65536 == 0, fun x => mine vi x && (pa == 0 || s.ownsRun x pa.toNat 0x90000), yes, fun s =>
      ({ s with mgmt := { s.mgmt with saves := if pa = 0 then tabDel s.mgmt.saves (ringCtx vi asid)
                                               else tabPut s.mgmt.saves (ringCtx vi asid) { pa := pa.toNat } } }, [])),
    (.vienable p tag vi e, decide (e.toNat < 2), mine vi, yes, fun s => (s.enableVi vi (e == 1), [])),
    (.stop p tag name, true, fun x => name.part.toNat == p.val && mine name.vi x, fun _ => (s.named name).isSome, fun s =>
      match s.named name with
      | some w => (s.stopWg w (s.wg w).resume, [])
      | none => (s, [])),
    (.replay p tag name, true, fun x => name.part.toNat == p.val && mine name.vi x, fun _ => match s.named name with
        | some w => (s.wg w).stopped && (s.wg w).discard.isNone
        | none => false, fun s => match s.named name with
        | some w => (if (s.wg w).buffers then s.discard w else s.setStopped w false, [])
        | none => (s, [])),
    (.setgrace p tag n, decide (1 ≤ n.toNat) && decide (n.toNat ≤ 10000), yes, yes, fun s =>
      ({ s with mgmt := { s.mgmt with grace := tabPut s.mgmt.grace p (1200 * n.toNat) } }, [])),
    (.vminread p tag e l m, (decide (e.toNat < 96) && decide (l.toNat < 4) || decide (e.toNat < 112) && l.toNat == 0) && decide (m.toNat < 2),
      fun x => decide (96 ≤ e.toNat) || x.clusters.getLsbD (e.toNat / 12), yes, fun s =>
      (if m = 1 then s.setVolt e.toNat l.toNat { s.volt e.toNat l.toNat with mv := 0xFFFF, stamp := 0 } else s,
        toBytes (s.volt e.toNat l.toNat).mv.toNat 8 ++ toBytes (s.volt e.toNat l.toNat).stamp.toNat 8)),
    (.viwrite p tag vi pa, true, fun x => mine vi x && s.ownsRun x pa.toNat 512 && bits (field (cleanRecord (s.getBytes pa.toNat 512)) 0 8) 4 3 == p.val,
      fun _ => !(field (s.viTable vi.toNat) 0 8).testBit 0, fun t =>
      ({ t with mgmt := { t.mgmt with vis := tabPut t.mgmt.vis vi.toNat (cleanRecord (s.getBytes pa.toNat 512)) } }, [])),
    (.viread p tag vi pa, true, fun x => mine vi x && s.ownsRun x pa.toNat 512, yes, fun s => (s.putBytes pa.toNat (s.viTable vi.toNat), [])),
    (.reservedCommand p tag e, false, yes, yes, fun s => (s, []))] :
      List (Instr × Bool × (Partition → Bool) × (Partition → Bool) × (State → State × List Byte))),
  let ok := row.2.1
  (s.mgmt.state ≠ 4 ∨ (s.box p.val).state ≠ 0 → exec row.1 s = .next s) ∧
  (s.mgmt.state = 4 → (s.box p.val).state = 0 → tabFind s.mgmt.parts p.val = some x →
    (ok = false → exec row.1 s = .next (s.reply p tag 1 [])) ∧
    (ok = true → row.2.2.1 x = false → exec row.1 s = .next (s.reply p tag 2 [])) ∧
    (ok = true → row.2.2.1 x = true → row.2.2.2.1 x = false → exec row.1 s = .next (s.reply p tag 3 [])) ∧
    (ok = true → row.2.2.1 x = true → row.2.2.2.1 x = true →
      exec row.1 s = .next ((row.2.2.2.2 s).1.reply p tag 0 (row.2.2.2.2 s).2)))) ∧
  ((∀ (vi : BitVec 8) (e : TCmd) (s : State), s.viBit vi 0 = true →
    let done := fun (t : State) => (t.cmdDone vi e).cmdNext vi
    let refuse := (s.report 3 1 (unitWord 9 0) (vi, e.asid) e.addr.toNat 0 2 0x41 noName).cmdNext vi
    let there := ∀ st ipa, s.stage2 48 vi e.done.toNat ≠ .fault st ipa
    let mine := ∃ x, s.viBit vi 3 = true ∧ tabFind s.mgmt.parts (s.viPart vi) = some x ∧ x.hasPa e.addr.toNat = true
    ((e.flags.getLsbD 1 = false ∨ s.viBit vi 3 = true) → there → exec (.purge vi e) s = .next (done (s.purge (s.purgeOf vi e)))) ∧
    (e.flags.getLsbD 1 = true → s.viBit vi 3 = false → exec (.purge vi e) s = .next refuse) ∧
    (mine → there → exec (.fotset vi e) s = .next (done (s.putNum (e.addr.toNat / 0x200000000 * 0x200000000 + (0x200000000 - 0x40000) +
        2 * (e.addr.toNat % 0x200000000 / 65536)) 2 (e.count.toNat % 65536)))) ∧
    (¬ mine → exec (.fotset vi e) s = .next refuse) ∧
    (1 < e.count.toNat → exec (.resume vi e) s = .next refuse) ∧
    (∀ st ipa, s.stage2 48 vi e.done.toNat = .fault st ipa →
      let wait := fun (i : Instr) => (s.raise vi 0 0 st ipa 2 noName (.step i)).1
      ((e.flags.getLsbD 1 = false ∨ s.viBit vi 3 = true) → exec (.purge vi e) s = .next (wait (.purge vi e))) ∧
      (mine → exec (.fotset vi e) s = .next (wait (.fotset vi e))) ∧
      (e.count.toNat ≤ 1 → exec (.resume vi e) s = .next (wait (.resume vi e)))) ∧
    (e.count.toNat ≤ 1 → there → tabFind s.faults (e.addr.toNat % 2 ^ 32) = none → exec (.resume vi e) s = .next (done s)) ∧
    (∀ f, there → tabFind s.faults (e.addr.toNat % 2 ^ 32) = some f →
      let t : State := { s with faults := tabDel s.faults (e.addr.toNat % 2 ^ 32) }
      (e.count.toNat = 0 → exec (.resume vi e) s = .next (done (f.steps.foldl State.soon (f.splits.foldl (fun (s : State) (a : Agent × Word) =>
        s.unpark (e.addr.toNat % 2 ^ 32) a.1) t)))) ∧
      (e.count.toNat = 1 → exec (.resume vi e) s = .next (done (f.steps.foldl (fun s i => s.denyStep f.va i) (f.splits.foldl
        (fun (s : State) (a : Agent × Word) => s.denyAgent (e.addr.toNat % 2 ^ 32) a.1 a.2) t)))))) ∧
  (∀ (vi : BitVec 8) (e : TCmd) (s : State) (pa : Nat), s.ipa vi e.done.toNat = some pa → s.ownOk pa = true → s.cmdDone vi e = s.putNum pa 8 1) ∧
  ∀ (vi : BitVec 8) (asid : BitVec 16) (s v w : State) (r : RingAt) (sel : Nat) (carried : Option (List (BitVec 64))),
    s.viBit vi 0 = true → s.viBit vi 1 = false → s.ringAt (ringCtx vi asid) = some r → r.read s (r.base + 0x18) 8 = some (v, sel) →
    let x := BitVec.ofNat 64 sel
    let status := x &&& 0xFFFFFFFFFFE00000
    let n : Session := { select := x, status := status, counts := match carried with
      | none => []
      | some cs => ((List.range 21).filter (fun n => x.getLsbD n && (v.viField vi 0x30 8).testBit n)).map (fun n => (n, cs.getD n 0)) }
    let t : State := { v with mgmt := { v.mgmt with sessions := tabPut v.mgmt.sessions (ringCtx vi asid) n } }
    r.write t (r.base + 0x20) (toBytes status.toNat 8) = some w → w.viBit vi 1 = false →
    exec (.sessionOpen vi ⟨asid, carried⟩) s = .next (if carried.isSome then
      ((List.range 64).filter (fun n => status.getLsbD n)).foldl (fun s n => s.report 7 0 (unitWord 9 0) (vi, asid) n 0 0 0x88 noName) w else w))

/-- PACKETS (R320 to R327, R400 to R402): a packet that passes ingress has its effect once, in the order of its flow for the ORDERED ones: a WRITE stores and is acknowledged; a counter packet
updates its counter in one step, an MREQ reads or writes its table within the range of its INDEX, and answers; an ACK, an UNDELIV or a timeout ends what waits on its XID;
a LINKDOWN has no effect of its own. One that does not pass is refused, and none comes in through a port that is down.

FLITS, PORTS AND TIMERS (R319, R325, R327, R399 to R401): a flit with a good CRC that a port that is up receives acknowledges what its ACKSEQ covers, and a
NAK makes the flits behind it go out again; a DATA flit in sequence moves the sequence on, is answered ACK, and its payload joins the stream; one with a bad
CRC is answered NAK, and again takes the port down; a port goes down; a packet not acknowledged in time is lost; a held packet whose predecessor has not come
in 100 µs is dropped with its flow's others, and the flow goes on behind the highest of them. -/
def Obligations.PacketsAndFlits : Prop :=
  (∀ (port : Fin 24) (h : PktHdr) (s : State),
  let past := s.fabric.passed.contains (port.val, h)
  let here := s.fromHere h || (s.port port).up
  (past = true ∨ here = true ∧ s.passes port h true = true →
    let v : State := if past then { s with fabric := { s.fabric with passed := s.fabric.passed.erase (port.val, h) } } else s
    (∀ (rva : BitVec 64) (xid : BitVec 32) (po : BitVec 8) (data : List Byte) (e : BitVec 128), h.len.toNat = data.length + 16 → v.keyFor port h true = some e →
      (rva.toNat % 16 = 0 ∨ rva.toNat % 16 + data.length ≤ 16) → ∀ t q, v.writeHome (keyVi e) (keyAsid e) rva.toNat data (po.getLsbD 0) = .ok t q →
      exec (.write port h rva xid po data) s = .next ((t.meterIn (keyVi e) (keyAsid e) rva.toNat data.length).ackTo port h xid 0)) ∧
    (∀ (xid : BitVec 32) (st : BitVec 8), st.toNat < 4 →
      exec (.ack port h xid st) s = .next (match v.fabric.sent.find? (fun x => x.xid == xid && x.hdr.dest == h.src) with
        | some x => v.acked x st.toNat
        | none => v)) ∧
    (h.oseq.toNat = tabGet v.fabric.oseqRx (h.src.toNat * 4096 + h.flow.toNat) 0 →
      let k := h.src.toNat * 4096 + h.flow.toNat
      let turn := fun (t : State) => (t.expect k (t.expected k + 1)).release_ k (t.fabric.hold.length + 1)
      (∀ (rva n : BitVec 64) (xid : BitVec 32) (e : BitVec 128), v.keyFor port h true = some e → rva.toNat % 8 = 0 →
        ∀ t bs, v.readHome (keyVi e) (keyAsid e) rva.toNat 8 = .ok t (bs, false) → ∀ row ∈ ([
          (Instr.caddPacket port h rva n xid, ofBytes bs + n.toNat), (.csetPacket port h rva n xid, n.toNat),
          (.cmax port h rva n xid, Nat.max (ofBytes bs) n.toNat)] : List (Instr × Nat)),
        ∀ u q, t.writeHome (keyVi e) (keyAsid e) rva.toNat (toBytes (row.2 % 2 ^ 64) 8) false = .ok u q →
          exec row.1 s = .next (turn ((u.meterIn (keyVi e) (keyAsid e) rva.toNat 8).ackTo port h xid 0))) ∧
      (∀ (i : BitVec 32) (rid : BitVec 64) (d : BitVec 128), ∀ row ∈ ([
          (Instr.rtwrite port h i rid d, 1, 131072, fun s =>
            ({ s with fabric := { s.fabric with shadow := tabPut s.fabric.shadow i.toNat (d.setWidth 64 &&& 0x80000003FFFFFFFF) } }, 0)),
          (.rtread port h i rid d, 2, 131072, fun s => (s, (tabGet s.fabric.shadow i.toNat 0).setWidth 128)),
          (.rtreada port h i rid d, 3, 131072, fun s => (s, (tabGet s.fabric.active i.toNat 0).setWidth 128)),
          (.keywrite port h i rid d, 4, 64, fun s =>
            ({ s with fabric := { s.fabric with keys := tabPut s.fabric.keys i.toNat (d &&& BitVec.ofNat 128 (2 ^ 128 - 2 ^ 62)) } }, 0)),
          (.keyread port h i rid d, 5, 64, fun s => (s, tabGet s.fabric.keys i.toNat 0)),
          (.commit port h i rid d, 6, 2 ^ 32, fun s => ({ s with fabric := { s.fabric with active := s.fabric.shadow } }, 0)),
          (.subwrite port h i rid d, 7, 16, fun s =>
            ({ s with fabric := { s.fabric with subs := tabPut s.fabric.subs i.toNat (d.setWidth 32 &&& 0x8001FFFF) } }, 0)),
          (.subread port h i rid d, 8, 16, fun s => (s, (tabGet s.fabric.subs i.toNat 0).setWidth 128)),
          (.portdown port h i rid d, 9, 24, fun s => (s.dropPort i.toNat 4, 0))] : List (Instr × Nat × Nat × (State → State × BitVec 128))),
        (i.toNat < row.2.2.1 → exec row.1 s = .next (turn ((row.2.2.2 v).1.answer port h row.2.1 0 i rid (row.2.2.2 v).2))) ∧
        (row.2.2.1 ≤ i.toNat → exec row.1 s = .next (turn (v.answer port h row.2.1 2 i rid 0)))) ∧
      (∀ (dev : BitVec 17) (dn re : BitVec 8) (tm : BitVec 64), exec (.linkdown port h dev dn re tm) s = .next (turn v)) ∧
      ∀ (dr : BitVec 128) (xid : BitVec 32) (re : BitVec 8) (tm : BitVec 64) (x : Sent),
        (hdrOf dr.toNat).src = v.fabric.self → 1 ≤ (hdrOf dr.toNat).op.toNat → (hdrOf dr.toNat).op.toNat ≤ 4 →
        v.fabric.sent.find? (fun x => x.xid == xid && x.hdr.dest == (hdrOf dr.toNat).dest) = some x →
        exec (.undeliv port h dr xid re tm) s = .next (turn (v.lost x)))) ∧
  (past = false → ∀ (rva n : BitVec 64) (xid : BitVec 32) (i : BitVec 32) (rid : BitVec 64) (d : BitVec 128) (st re : BitVec 8) (tm : BitVec 64)
    (dev : BitVec 17) (dn : BitVec 8),
    ∀ row ∈ [Instr.caddPacket port h rva n xid, .csetPacket port h rva n xid, .cmax port h rva n xid, .ack port h xid st, .rtwrite port h i rid d,
      .rtread port h i rid d, .rtreada port h i rid d, .keywrite port h i rid d, .keyread port h i rid d, .commit port h i rid d,
      .subwrite port h i rid d, .subread port h i rid d, .portdown port h i rid d, .linkdown port h dev dn re tm, .undeliv port h d xid re tm],
    (here = false → exec row s = .next s) ∧
    (here = true → s.passes port h true = false → exec row s = .next (s.refusePacket port h.src.toNat)))) ∧
  ((∀ (port : Fin 24) (f : Flit) (s : State), (s.port port).up = true →
    let v := s.modPort port (fun x => { x with rx := s.clk })
    let w := v.ackFlits port (f.ackSeq.toNat % 4096)
    let last := fun (y : Port) => (y.rxSeq + 4095) % 4096
    (∀ row ∈ ([(Instr.ackFlit port f, 2, w), (.nakFlit port f, 3, w.modPort port (fun y => { y with next := 0 })), (.idleFlit port f, 0, w)] :
        List (Instr × Nat × State)),
      (flitGood row.2.1 f = true → exec row.1 s = .next row.2.2) ∧ (flitGood row.2.1 f = false → exec row.1 s = .next v)) ∧
    (flitGood 1 f = true → f.seq.toNat % 4096 = (s.port port).rxSeq → (s.port port).nakked = false → flitPlain f = true →
      let y := w.modPort port (fun y => { y with rxSeq := (y.rxSeq + 1) % 4096, nakked := false, replays := 0 })
      exec (.dataFlit port f) s = .next ((y.modPort port (fun y => { y with said := some (2, last y) })).parsePackets port
        ((s.port port).part ++ f.payload) ((s.port port).part.length + 2))) ∧
    (flitGood 1 f = false → (s.port port).nakked = false →
      exec (.dataFlit port f) s = .next (v.modPort port (fun y => { y with
        nakked := true, said := some (3, last y), replays := if y.nakked then y.replays + 1 else 0 }))) ∧
    (flitGood 1 f = true → f.seq.toNat % 4096 ≠ (s.port port).rxSeq → (w.port port).nakked = false →
      exec (.dataFlit port f) s = .next (w.modPort port (fun y => { y with
        nakked := true, said := some (3, last y), replays := if y.nakked then y.replays + 1 else 0 }))) ∧
    (flitGood 1 f = false → (s.port port).nakked = true → exec (.dataFlit port f) s = .next (v.dropPort port 1)) ∧
    (∀ r : BitVec 8, r ≠ 2 ∨ (s.port port).rx + 12000 ≤ s.clk → exec (.portDown port r) s = .next (s.dropPort port r.toNat)) ∧
    (∀ r : BitVec 8, r = 2 → s.clk < (s.port port).rx + 12000 → exec (.portDown port r) s = .next s)) ∧
  (∀ (xid : BitVec 32) (x : Sent) (s : State), s.fabric.sent.find? (fun x => x.xid == xid) = some x →
    exec (.undeliverableTimeout xid) s = .next (s.lost x)) ∧
  ∀ (src : BitVec 17) (flow : BitVec 12) (s : State) (p : Nat × Nat × PktHdr × List Byte), s.fabric.hold = [p] → p.2.2.1.src = src → p.2.2.1.flow = flow →
    s.faults = [] →
    (s.clk < p.2.1 + 120000 → exec (.orderedHoldExpiry src flow) s = .next s) ∧
    (p.2.1 + 120000 ≤ s.clk →
      let k := src.toNat * 4096 + flow.toNat
      let q := tabGet s.fabric.oseqRx k 0
      exec (.orderedHoldExpiry src flow) s = .next ((({ s with fabric := { s.fabric with hold := [] } } : State).undeliverable (unitWord 11 p.1)
        p.2.2.1 p.2.2.2 2).expect k (q + (p.2.2.1.oseq.toNat + 65536 - q) % 65536 + 1))))

/-- POWER AND BRING-UP (R7, R11, R63, R302, R318, R329 to R331, R404, R405): VERIFY, MEMTRAIN and LANEMAP take STATE from POWERED to READY, with the partitions of the map, or hold it with their
REASON; a core with more than two faulty lanes is retired, else its spares serve for them; a layer below 0.70 V throttles the four layers of its cluster for 16 windows; a regulator fault of an uncore region is an error of severity DEVICE, one of
a cluster's fences it; a device reset leaves the reset state, but main memory, the firmware, the map and the management controller's ring; the others write what they name. -/
def Obligations.PowerAndBringUp : Prop :=
  ∀ (s : State),
    (s.mgmt.state = 0 → let good := Config.keyFused && Config.imageOk s.mgmt.firmware && Config.signatureOk s.mgmt.firmware
      ∃ t, exec .verify s = .next t ∧ t.mgmt.state = 1 ∧ t.mem = s.mem ∧
        t.mgmt.reason = (if Config.keyFused = false then 3 else if Config.imageOk s.mgmt.firmware = false then 2
          else if Config.signatureOk s.mgmt.firmware = false then 1 else s.mgmt.reason) ∧
        t.mgmt.measure = (if good = true then Config.extend s.mgmt.measure (Config.digest s.mgmt.firmware) else s.mgmt.measure)) ∧
    (s.mgmt.state = 1 → s.mgmt.reason = 0 → (∃ t, exec (.memtrain none) s = .next t ∧ t.mgmt.state = 2 ∧ t.mgmt.reason = 0) ∧
      ∀ m, ∃ t, exec (.memtrain (some m)) s = .next t ∧ t.mgmt.state = 2 ∧ t.mgmt.reason = 4) ∧
    (s.mgmt.state = 2 → s.mgmt.reason = 0 → ∀ retired faulty,
      (partsOk s.mgmt.map retired = true → ∃ t, exec (.lanemap ⟨retired, faulty⟩) s = .next t ∧ t.mgmt.state = 4 ∧
        (∀ c < 384, c ∈ faulty.map Prod.fst → 2 < (faultyLanes faulty c).length → (t.core c).fenced = true) ∧
        (∀ c < 384, c ∈ retired → (t.core c).fenced = true) ∧
        (∀ c < 384, c ∈ faulty.map Prod.fst → ∀ m, laneRepair (faultyLanes faulty c) = some m → (t.core c).spares = m) ∧
        t.mgmt.parts = (mapParts s.mgmt.map).map (fun p => (p.1, p.2.1)) ∧ t.fabric.mkey = BitVec.ofNat 16 (field s.mgmt.map 0 2)) ∧
      (partsOk s.mgmt.map retired = false → ∃ t, exec (.lanemap ⟨retired, faulty⟩) s = .next t ∧ t.mgmt.state = 3 ∧ t.mgmt.reason = 5)) ∧
    (∀ r l mv, r < 96 → l < 4 → (∃ t, exec (.voltageMinimum r l mv) s = .next t ∧
        (t.volt r l).mv.toNat = Nat.min mv.toNat (s.volt r l).mv.toNat ∧ t.mem = s.mem) ∧
      (mv.toNat < 700 → ∃ t, exec (.undervoltage r l mv) s = .next t ∧ ∀ q < 4, (t.core (4 * r + q)).power = 16)) ∧
    (∀ r mv, 96 ≤ r → r < 112 → exec (.regulatorFault r 0 mv) s = .next (s.report 9 3 (unitWord 12 r) (0, 0) mv.toNat 0 3 0xA1 noName)) ∧
    (∀ r l mv, r < 96 → l < 4 → ∃ t, exec (.regulatorFault r l mv) s = .next t ∧ (t.cluster r).fenced = true ∧ ∀ q < 4, (t.core (4 * r + q)).fenced = true) ∧
    (∃ t, exec .deviceReset s = .next t ∧ (∀ a, memGet t.mem a = if a < 0x400000000000 then memGet s.mem a else 0) ∧
      t.mgmt.firmware = s.mgmt.firmware ∧ t.mgmt.map = s.mgmt.map ∧ t.mgmt.state = State.reset.mgmt.state ∧ t.groups = [] ∧ t.accesses = [] ∧
      t.engines = [] ∧ t.clk = State.reset.clk ∧
      tabFind t.mgmt.rings ringMgmt = tabFind s.mgmt.rings ringMgmt) ∧
    (∀ image, exec (.firmwareUpdate image) s = .next { s with mgmt := { s.mgmt with firmware := image } }) ∧
    ∀ image, exec (.partitionMapWrite image) s = .next { s with mgmt := { s.mgmt with map := image } }

/-! ### Decoding, the step, reset, traps and registers (spec/06_encoding.md, spec/07_assembly.md, spec/18_scheduling.md) -/

/-- DECODE AND ENCODE AGREE (R91 to R103, R94): for every instruction that has an encoding, with every operand at every value that its
encoding admits, with or without its prefix and extension, decoding its bytes gives it back and leaves the bytes behind it. -/
def Obligations.DecodeEncode : Prop :=
  ∀ (i : Instr) (r : List Byte), i.wf = true → decode (encode i ++ r) = .ok (i, r)

/-- ONE SEQUENCE FOR ONE INSTRUCTION (R91 to R103): bytes that decode are the encoding of what they decode to, with the bytes behind,
and that instruction is well formed: no bit of a sequence is dropped, and none that must be zero is set. -/
def Obligations.EncodeDecode : Prop :=
  ∀ (bs r : List Byte) (i : Instr), decode bs = .ok (i, r) → i.wf = true ∧ bs = encode i ++ r

/-- WORDS OF THE SPEC (R91 to R103): the words that the encodings of the manual give for some instructions, a parcel, and a sequence of
prefix and instruction, decode to them, lowest byte first; a word of a reserved major, a parcel of zeros and an unused bit that is set
are refused by their subcodes. -/
def Obligations.DecodedWords : Prop :=
  decode [0xA1, 0xC2, 0x38, 0x12] = .ok (.vfpFmul .bf16x2 5 6 7 none, []) ∧
  decode [0x67, 0x00, 0x60, 0x22] = .ok (.mmab 0 0 1 12, []) ∧
  decode [0x03, 0x81, 0x08, 0x00] = .ok (.add 2 4 1, []) ∧
  decode [0x05, 0x81, 0x40, 0xFF] = .ok (.addi 2 4 (-3) none, []) ∧
  decode [0x7F, 0x01, 0x00, 0x00, 0x05, 0x81, 0x40, 0x01] = .ok (.addi 2 4 5 (some 2), []) ∧
  decode [0xFD, 0x04, 0x00, 0x00, 0xA1, 0x40, 0x18, 0x00] =
    .ok (.vfpFadd .f32 1 2 3 (some { pb := 0, pa := 0, c := 0, rm := 0, z := true, k := 1 }), []) ∧
  decode [0x15, 0x00, 0x00, 0x0E] = .ok (.exit, []) ∧
  decode [0xAA, 0x18, 0x00, 0x00] = .ok (.vaddI32Compact 5 3, [0x00, 0x00]) ∧
  decode [0x00, 0x00] = .error .zeroParcel ∧
  decode [0x6D, 0x00, 0x00, 0x00] = .error (.reservedMajor 0x6D) ∧
  decode [0x35, 0x04, 0x00, 0x00] = .error (.unusedField 0x435)

/-- A STEP RUNS THE DECODED INSTRUCTION (R89, R91, R267, R361). Let `v` be the state in which agent `a` tries, alone of what its picker
still has to try; its unit is not in a discard, it is not stopped, not parked, waits on nothing, has no queued trap, stands at no
join, and its address lies in global memory below the local windows. When the instruction cache holds, without a fault of their own,
bytes there that decode to `i`, the step is `exec i`; a NODE runs with the sequence behind it. Bytes that do not decode take the step of
their refusal, bytes that are missing that of a miss,
where a wait of the operands that stands before FETCH is the one charged (R133). A queued STACK trap takes the issue's place. The bytes at an address are those
of its line. A due step is `exec` of it, and with nothing left to try the clk ends. -/
def Obligations.StepRunsDecoded : Prop :=
  (∀ (s : State) (a : Agent) (q : List Turn), s.due = [] → s.turn = .run a :: q →
    let v : State := { s with turn := q, cur := some a, behind := none }
    let x := s.strand a
    let pc := x.pc.toNat
    let vi := (s.ctxOf a).1
    let asid := (s.ctxOf a).2
    let f := s.fetchFrom a.unit vi asid pc 12 13
    s.alive a = true → s.discarding a.unit = false → x.stopped = false → s.halted a = false →
    (∀ p, x.park = some p → p.ready = true) → s.faulting a = false → x.wait = none → x.delay ≤ s.clk →
    (∀ t, a = .thread t → (s.thread t).spill = false) →
    (∀ g k, a = .split g k → (s.splitOf g k).atJoin s.clk = false ∧ (s.splitOf g k).ex ≠ 0) →
    (fetchable pc = false → x.traps = [] → step s = .next (v.takeTrap a 0x04 x.pc)) ∧
    (fetchable pc = true → f.bad = false →
      (∀ l, tabFind (s.unit a.unit).icache (lineKey (s.tagAsid vi asid pc) pc) = some l → tabGet l.marks (pc % 128 / 2) 0 ≠ 2) →
      (∀ i rest, decode f.bytes = .ok (i, rest) → (∀ d c, i ≠ .node d c) → x.traps = [] → step s = exec i v) ∧
      (∀ d c rest, decode f.bytes = .ok (.node d c, rest) → x.traps = [] →
        let g := s.fetchFrom a.unit vi asid (pc + 4) 12 13
        ∀ b r2, decode g.bytes = .ok (b, r2) → step s = exec (.node d c) { v with behind := some (b, b.len) }) ∧
      (∀ i rest val more t, decode f.bytes = .ok (i, rest) → (∀ d c, i ≠ .node d c) → x.traps = (0x09, val) :: more →
        (∀ y ∈ more, y.1 = 0x09) → exec i v = .next t →
        step s = if (t.unit a.unit).issued then exec .stackTrap v else .next t) ∧
      (∀ e, decode f.bytes = .error e → e.inner = none → x.traps = [] → (e = .short → f.missing = none) →
        step s = exec (.illegalSequence e.sub e.value) v)) ∧
    (fetchable pc = true → ∀ m, decode f.bytes = .error .short → f.missing = some m → fetchable m = true → x.traps = [] →
      let miss := Instr.fetchMiss ⟨BitVec.ofNat 64 m, .none⟩
      (v.peekSeq a = none → step s = exec miss v) ∧
      ∀ j t u, v.peekSeq a = some j → exec miss v = .next t → exec j (v.block a .fetch) = .next u →
        step s = .next (if (u.strand a).why.beforeFetch && !(u.unit a.unit).issued then t.block a (u.strand a).why else t))) ∧
  (∀ (s : State) (u : Nat) (vi : BitVec 8) (asid : BitVec 16) (va : Nat) (l : ILine),
    tabFind (s.unit u).icache (lineKey (s.tagAsid vi asid va) va) = some l → va % 128 + 12 ≤ 128 →
    s.fetchFrom u vi asid va 12 13 = { bytes := (l.bytes.drop (va % 128)).take 12, missing := none, bad := l.bad }) ∧
  (∀ (s : State) (i : Instr) (r : List Instr), s.due = i :: r → step s = exec i { s with due := r }) ∧
  (∀ (s : State), s.due = [] → s.turn = [] → step s = exec .clk s) ∧
  ∀ (s t : State) (a : Agent) (q : List Turn), s.due = [] → s.turn = .look a :: q →
    step { s with turn := .run a :: q } = .next t → step s = .next (({ s with turn := q } : State).noteLook a t)

/-- EVERY STEP KEEPS MEMORY'S FORM. Main memory and on-die storage are a list of bytes by rising address without an entry that reads as
an unlisted byte: two memories with equal bytes are equal. Whatever step runs, from any state in that form, the next state is in it. -/
def Obligations.StepKeepsMemoryCanonical : Prop :=
  ∀ (s t : State), Safe s → step s = .next t → Safe t

/-- WHAT DEVICE RESET LEAVES, of the values that the spec gives: clk and TIME 0 (R7), STKCFG's four defaults and a mean of 0 (R65, R69), MIS
0 (R62), CHRYCFG 0 (R79), ACCOWNER and ACCLIVE 0 (R171), handles not VALID (R170), identity lane permutations (R111), BSTATUS 0 (R329),
record numbers from 1 (R355); queues are empty, ports up, and memory lists nothing. That the steps of bring-up are due at once, that the
turn starts at C0 and that no agent exists are the model's readings (log 2, log 11). -/
def Obligations.ResetState : Prop :=
  let s := State.reset
  Safe s ∧ s.clk = 0 ∧ s.time = 0 ∧ s.mem = [] ∧ s.mgmt.state = 0 ∧ s.mgmt.reason = 0 ∧ s.mgmt.errSeq = 1 ∧
  s.due = [.verify, .memtrain none, .lanemap ⟨[], []⟩] ∧ s.agenda = [] ∧ s.turn = [] ∧
  (∀ a, s.alive a = false) ∧
  (∀ c, (s.cluster c).stkcfg = 0x5000020003000180 ∧ (s.cluster c).accowner = 0 ∧ (s.cluster c).acclive = 0 ∧
    (s.cluster c).turn = false ∧ (s.cluster c).mean = 0 ∧ (∀ q, s.queue c q = []) ∧ (∀ h, (tabGet (s.cluster c).handle h Handle.reset).valid = false)) ∧
  (∀ d, (s.die d).nslot = 0) ∧
  (∀ p, (s.port p).up = true ∧ (s.port p).txSeq = 0) ∧
  (∀ g n, s.lpget g n = 0xFAC688) ∧
  (∀ c, (s.core c).mis = 0 ∧ (s.core c).draw = 0 ∧ (s.core c).burned = 0 ∧ (s.core c).autobal = 0)

/-- WHAT AN ISSUE LEAVES (R59, R91, R119, R163, R272): its agent goes on at the given address and is parked no longer, the unit's slot
is used, and it holds no register, memory, access, engine, table or descriptor but the slot's accounts. -/
def Obligations.IssueLeaves : Prop :=
  ∀ (t : State) (n : Need) (c : Ctx) (pc : Word), t.alive c.a = true →
    let v := t.retire n c pc
    SameRegs t v ∧ (v.strand c.a).pc = pc ∧ (v.strand c.a).park = none ∧ (v.unit c.a.unit).issued = true ∧ v.alive c.a = true ∧
      ∀ r, v.sget c.a r = t.sget c.a r

/-- SCALAR AND MASK REGISTERS HOLD WHAT IS WRITTEN (R3, R35, R46, R105, R106). s0 reads 0 and discards; a register written reads back
and leaves the others; s60 to s62 of a group are the three parts of its split's EXEC, bits [31:0] kept and bits [63:32] zero, without
the lanes that have retired; k0 reads as all ones and discards; k1 to k7 hold what is written, and belong to the whole group. -/
def Obligations.ScalarRegistersHold : Prop :=
  (∀ (s : State) (a : Agent) (v : Word), s.sget a 0 = 0 ∧ s.sput a 0 v = s) ∧
  (∀ (s : State) (a : Agent) (r : Nat) (v : Word), s.alive a = true → 0 < r → r < 64 → (a.isThread = true ∨ ¬(60 ≤ r ∧ r ≤ 62)) →
    (s.sput a r v).sget a r = v ∧ (∀ q, q ≠ r → (s.sput a r v).sget a q = s.sget a q) ∧ (s.sput a r v).mem = s.mem ∧
      (s.sput a r v).exMask a = s.exMask a) ∧
  (∀ (s : State) (g k i : Nat) (v : Word), s.alive (.split g k) = true → i < 3 →
    let t := s.sput (.split g k) (60 + i) v
    t.sget (.split g k) (60 + i) = (v.setWidth 32 &&& ~~~((s.group g).retired.extractLsb' (32 * i) 32)).setWidth 64 ∧
      (∀ j, j < 3 → j ≠ i → t.sget (.split g k) (60 + j) =
        s.sget (.split g k) (60 + j) &&& ~~~(((s.group g).retired.extractLsb' (32 * j) 32).setWidth 64)) ∧
      (∀ q, q < 60 ∨ q = 63 → t.sget (.split g k) q = s.sget (.split g k) q) ∧
      (∀ h l, Agent.split h l ≠ .split g k → t.exMask (.split h l) = s.exMask (.split h l))) ∧
  (∀ (s : State) (g r : Nat) (m : Mask), s.kget g 0 = BitVec.allOnes 96 ∧ s.kput g 0 m = s ∧
    ((tabFind s.groups g).isSome = true → 0 < r →
      (s.kput g r m).kget g r = m ∧ ∀ h q, h ≠ g ∨ q ≠ r → (s.kput g r m).kget h q = s.kget h q)) ∧
  ∀ (s : State) (g d : Nat) (act m : Mask) (z : Bool) (i : Nat), (tabFind s.groups g).isSome = true → 0 < d → i < 96 →
    ((s.kwrite g d act z m).kget g d).getLsbD i =
      if act.getLsbD i then m.getLsbD i else !z && (s.kget g d).getLsbD i

/-- VECTOR WRITES GO BY LANE (R3, R22, R36, R98, R131): an active lane takes its new value, another keeps its own or, under z, is
zeroed; the other registers, groups and masks stand. FPFLAGS of the split gathers what the active lanes raise and loses nothing, and no
other split's changes. A move raises nothing. -/
def Obligations.VectorWriteLanes : Prop :=
  ∀ (s : State) (g k d : Nat) (act : Mask) (z : Bool) (f : Nat → Lane × FFlags), s.alive (.split g k) = true →
    let t := s.vwrite (.split g k) d act z f
    let m := s.vmove (.split g k) d act z (fun i => (f i).1)
    (∀ i, i < 96 →
      lane (t.vget g d) i = (if act.getLsbD i then (f i).1 else if z then 0 else lane (s.vget g d) i) ∧
      lane (m.vget g d) i = lane (t.vget g d) i) ∧
    (∀ h r, h ≠ g ∨ r ≠ d → t.vget h r = s.vget h r ∧ m.vget h r = s.vget h r) ∧
    (∀ h r, t.kget h r = s.kget h r) ∧ t.mem = s.mem ∧ m.splitOf g k = s.splitOf g k ∧
    (∀ b, b < 5 → (t.splitOf g k).flags.getLsbD b =
      ((s.splitOf g k).flags.getLsbD b || (List.range 96).any (fun i => act.getLsbD i && (f i).2.getLsbD b))) ∧
    ∀ h l, Agent.split h l ≠ .split g k → (t.splitOf h l).flags = (s.splitOf h l).flags

/-- QUEUE PORTS (R105, R232, R233): a port written is a release of every stream at DIE scope, and once that has been performed its value
stands behind the queue the port is bound to; a port popped takes the first entry that no workgroup holds: in an open region of a
workgroup that buffers, the entry stays, held in the order of the pops and not poppable. The other queues stand. A queue has room for one
more when its entries and the pushes still to come are fewer than 16. -/
def Obligations.PortsPopAndPush : Prop :=
  ∀ (s : State) (a : Agent) (r q : Nat) (v : Word), 48 ≤ r → r ≤ 55 → s.boundQueue a r = some q →
    (s.roomFor a [r] = decide ((s.queue a.cluster q).length + s.pushing a.cluster q < 16)) ∧
    (∀ e, s.releaseEvery a s.nextId 2 = e →
      (e.2 = true → s.sset a r v = e.1.pushEntry a.cluster q v ∧
        (s.sset a r v).queue a.cluster q = e.1.queue a.cluster q ++ [{ val := v, held := none }] ∧
        (∀ p, p ≠ q → (s.sset a r v).queue a.cluster p = e.1.queue a.cluster p) ∧ ∀ b n, (s.sset a r v).sget b n = e.1.sget b n) ∧
      (e.2 = false → s.sset a r v = e.1.after a (.push a.cluster q (some v)) ∧
        (s.sset a r v).queue a.cluster q = e.1.queue a.cluster q) ∧
      ((∀ p ∈ s.accesses, p.2.agent.sameOwner a = false) → e.1.queue a.cluster q = s.queue a.cluster q ∧
        ∀ b n, e.1.sget b n = s.sget b n)) ∧
    (∀ (pre post : List QEntry) (e : QEntry), s.queue a.cluster q = pre ++ e :: post → (∀ y ∈ pre, y.held.isSome = true) →
      e.held = none →
      let number := ((s.queue a.cluster q).map (fun y => (y.held.getD (0, 0)).2)).foldl Nat.max 0 + 1
      s.front a r = some e.val ∧
      (s.pop a r).queue a.cluster q = match a with
        | .split g _ => if (s.wg (s.group g).wg).buffers then pre ++ { e with held := some ((s.group g).wg, number) } :: post
          else pre ++ post
        | .thread _ => pre ++ post) ∧
    ((∀ y ∈ s.queue a.cluster q, y.held.isSome = true) → s.front a r = none) ∧
    (∀ p, p ≠ q → (s.pop a r).queue a.cluster p = s.queue a.cluster p) ∧ ∀ b n, (s.pop a r).sget b n = s.sget b n

/-- TAKING A TRAP AND RETURNING (R3, R108, R226, R358, R363). With a handler (TVEC not 0, the agent not in it, a thread in user
privilege, a code that no rule makes a system trap): TCAUSE, TPC and TVAL take the code, the address of the sequence and the value, the
agent goes on at TVEC in its handler, a thread in supervisor privilege, the slot is used, and no general register and no byte of
memory changes. While another split of its group is in its handler it waits, and nothing else changes. ERET's return goes to TPC with
bit 0 clear, out of the handler, to user privilege. A queued STACK trap and a refused sequence are such traps.

AN UNUSABLE HANDLER MAKES A SYSTEM TRAP (R187, R363): with TVEC = 0, in a handler, of a thread in supervisor privilege, or with a
code that is always a system trap (ACCOWN of a user thread without a handler apart, which is the context engine's), the slot is used
and recorded, TCAUSE, TPC and TVAL are written (R3), and the launch of the agent's workgroup ends with the record's word, of the trap's class or EXEC; a thread that runs no
control program leaves, the record's number in its TVAL. No general register and no byte of memory changes before that. -/
def Obligations.TrapTakenAndReturned : Prop :=
  ((∀ (s : State) (a : Agent) (code : BitVec 8) (val : Word),
    s.alive a = true → s.trapWaits a = false → s.tvec a ≠ 0 → (s.strand a).handler = false → s.sup a = false →
    alwaysSystem code = false →
    let t := s.takeTrap a code val
    (match a with
      | .split g _ => (t.group g).tcause = code.setWidth 64 ∧ (t.group g).tpc = (s.strand a).pc ∧ (t.group g).tval = val
      | .thread i => (t.thread i).tcause = code.setWidth 64 ∧ (t.thread i).tpc = (s.strand a).pc ∧ (t.thread i).tval = val ∧
          (t.thread i).sup = true) ∧
      (t.strand a).pc = s.tvec a &&& ~~~1 ∧ (t.strand a).handler = true ∧ (t.unit a.unit).issued = true ∧ t.mem = s.mem ∧
      (∀ r, t.sget a r = s.sget a r) ∧ (∀ g r, t.vget g r = s.vget g r) ∧ (∀ g r, t.kget g r = s.kget g r) ∧ t.tvec a = s.tvec a) ∧
  (∀ (s : State) (a : Agent) (code : BitVec 8) (val : Word), s.trapWaits a = true →
    s.takeTrap a code val = s.modStrand a (fun x => { x with why := .trap, queued := true })) ∧
  (∀ (s : State) (a : Agent), s.alive a = true →
    let t := s.returnTrap a
    (t.strand a).pc = s.tpc a &&& ~~~1 ∧ (t.strand a).handler = false ∧ t.sup a = false ∧ t.mem = s.mem ∧
      ∀ r, t.sget a r = s.sget a r) ∧
  (∀ (s : State) (a : Agent) (code : BitVec 8) (val : Word) (r : List (BitVec 8 × Word)), s.cur = some a →
    (s.strand a).traps = (code, val) :: r →
    exec .stackTrap s = .next ((s.modStrand a (fun x => { x with traps := r })).takeTrap a code val)) ∧
  ∀ (s : State) (a : Agent) (sub : BitVec 8) (val : BitVec 48), s.cur = some a →
    exec (.illegalSequence sub val) s = .next (s.takeTrap a 0x01 ((sub ++ (0 : BitVec 8)) ++ val))) ∧
  (∀ (s : State) (a : Agent) (code : BitVec 8) (val : Word),
    s.alive a = true → s.trapWaits a = false →
    (s.tvec a = 0 ∨ (s.strand a).handler = true ∨ s.sup a = true ∨ alwaysSystem code = true) →
    (code = 0x0A → a.isThread = true → s.sup a = false → s.tvec a ≠ 0) →
    ∃ u : State, u.mem = s.mem ∧ (∀ r, u.sget a r = s.sget a r) ∧ (u.strand a).pc = (s.strand a).pc ∧
      (u.unit a.unit).issued = true ∧
      (match a with
        | .split g _ => (u.group g).tcause = code.setWidth 64 ∧ (u.group g).tpc = (s.strand a).pc ∧ (u.group g).tval = val
        | .thread i => (u.thread i).tcause = code.setWidth 64 ∧ (u.thread i).tpc = (s.strand a).pc ∧ (u.thread i).tval = val) ∧
      s.takeTrap a code val = match s.wgOf a, a with
        | some w, _ => u.killLaunch (s.wg w).launch
            (recordWord s.mgmt.errSeq code.toNat (if trapClass code = 0 then 1 else trapClass code))
        | none, .thread t => (u.modThread t (fun x => { x with tval := s.mgmt.errSeq.setWidth 64 })).saveContext t
        | none, .split _ _ => u)

/-- NO LOAD EXTENDS THE SIGN (R160): a loaded scalar or lane of one or two bytes has zeros above them, and for a lane the shift left by 24
or 16 and back with SRAI by the same gives the signed value. -/
def Obligations.NoSignedLoad : Prop :=
  (∀ (s : State) (id : Nat) (x : Access) (d sz conv : Nat) (bs : List Byte), x.dest = (1, d, sz, conv) → sz < 2 →
    tabFind x.got 0 = some bs → bs.length = sz + 1 →
    ∃ v : Word, s.deliver id x = s.loadSet id x.agent d v ∧ v.toNat = ofBytes bs ∧ v.toNat < 2 ^ (8 * bs.length)) ∧
  ∀ (s : State) (id : Nat) (x : Access) (g k d sz conv i : Nat) (bs : List Byte), x.dest = (0, d, sz, conv) → sz < 2 → x.agent = .split g k →
    i < 96 → (tabFind s.groups g).isSome = true → tabFind x.got i = some bs → bs.length = sz + 1 →
    let v := lane ((s.deliver id x).vget g d) i
    let n := if sz = 0 then 24 else 16
    v.toNat = ofBytes bs ∧ v.toNat < 2 ^ (8 * bs.length) ∧
    ((v <<< n).sshiftRight n).toInt = (BitVec.ofNat (8 * bs.length) (ofBytes bs)).toInt

/-- BURN (R66): it joins to its layer's count of the window min(n, 4,095 − b) du, b being what earlier BURNs added in the window, which
then counts it too; no other draw of this window or the next, no register and nothing in memory changes, and its slot is used. -/
def Obligations.BurnAddsToTheWindow : Prop :=
  ∀ (a : SReg) (s : State) (g k : Nat) (c : Ctx) (u : State),
    Opens (burnNeed a) (.split g k) s c u → u.alive (.split g k) = true →
    let b := (u.core (g / 32)).burned
    let n := min (c.get u a.toNat).toNat (4095 - b)
    ∃ t, exec (.burn a) s = .next t ∧ (t.core (g / 32)).burned = b + n ∧ (t.core (g / 32)).draw = (u.core (g / 32)).draw ∧
      (t.core (g / 32)).drawNext = (u.core (g / 32)).drawNext ∧ (t.splitOf g k).draw = (u.splitOf g k).draw + n ∧
      (∀ l, l ≠ g / 32 → (t.core l).burned = (u.core l).burned ∧ (t.core l).draw = (u.core l).draw) ∧
      SameRegs u t ∧ (t.unit (g / 32)).issued = true

/-- SLI (R122): the destination takes the sign-extended imm19, or with XIMM the 44-bit value of R97 sign-extended; and any 64-bit
constant is what SLI, SHLI and ORI build. -/
def Obligations.LoadsAConstant : Prop :=
  (∀ (d : SReg) (i : BitVec 19) (x : Option (BitVec 25)) (s : State) (ag : Agent) (c : Ctx) (u : State),
    let n : Need := { dst := [d.toNat], len := lenX x }
    Opens n ag s c u → u.alive ag = true →
    let v : Word := match x with
      | none => i.signExtend 64
      | some e => (e ++ i : BitVec 44).signExtend 64
    exec (.sli d i x) s = .next ((u.sset ag d.toNat v).retire n c ((s.strand ag).pc + BitVec.ofNat 64 (lenX x))) ∧
      (d ≠ 0 → isPort d = false → (ag.isThread = true ∨ ¬(60 ≤ d.toNat ∧ d.toNat ≤ 62)) →
        ∃ t, exec (.sli d i x) s = .next t ∧ t.sget ag d.toNat = v)) ∧
  ∀ (w : Word), ∃ (hi : BitVec 44) (lo : BitVec 35), (hi.signExtend 64) <<< 20 ||| lo.signExtend 64 = w

/-- THE FRAME OF RESULTS IN SCALAR REGISTERS (R3, R22, R36, R105): every arithmetic, bit-count, immediate, reduction, extraction and
mask-reading member whose destination is a register completes; of all registers only the destination can differ (EXEC's three parts
where it is one of them, since the retired lanes stay out), FPFLAGS of its split loses no bit, and nothing else of the machine changes
but the slot's accounts. A destination that is a queue port pushes (PortsPopAndPush). -/
def Obligations.FrameOfScalarResults : Prop :=
  ∀ (d a b : SReg) (i : BitVec 10) (j : BitVec 19) (x : Option (BitVec 25)) (v : VReg) (k : KReg) (m : Fin 3) (p : Option Prefix),
  ∀ row ∈ scalarForms d a b i j x v k m p, ∀ (s : State) (ag : Agent) (c : Ctx) (u : State),
    Opens row.2 ag s c u → u.alive ag = true → isPort d = false →
    ∃ t, exec row.1 s = .next t ∧
      WritesOnly ag (if ag.isThread = false ∧ 60 ≤ d.toNat ∧ d.toNat ≤ 62 then [60, 61, 62] else [d.toNat]) [] [] u t

/-- THE FRAME OF RESULTS IN VECTOR REGISTERS (R3, R22, R36, R131): every member that writes one vector register completes, changes of
all registers that one only, loses no bit of FPFLAGS, and leaves memory, the queues, the engines and every table as they were.

THE FRAME OF RESULTS IN MASK REGISTERS (R3, R22, R99, R106): every compare and mask operation that writes a mask register
completes, changes of all registers that one only, k0 not even that, and loses no bit of FPFLAGS. -/
def Obligations.FrameOfVectorResults : Prop :=
  (∀ (t : FType) (d a b : VReg) (r q : SReg) (i : BitVec 10) (h : BitVec 1) (w : BitVec 5) (x : Option (BitVec 25)) (p : Option Prefix),
  ∀ row ∈ vectorForms t d a b r q i h w x p, ∀ (s : State) (ag : Agent) (c : Ctx) (u : State),
    Opens row.2 ag s c u → u.alive ag = true →
    ∃ y, exec row.1 s = .next y ∧ WritesOnly ag [] [d.toNat] [] u y) ∧
  (∀ (d a b : KReg) (x y : VReg) (r : SReg) (m : Fin 3) (p : Option Prefix),
  ∀ row ∈ maskForms d a b x y r m p, ∀ (s : State) (ag : Agent) (c : Ctx) (u : State),
    Opens row.2 ag s c u → u.alive ag = true →
    ∃ t, exec row.1 s = .next t ∧ WritesOnly ag [] [] (if d = 0 then [] else [d.toNat]) u t)
end

