-- ==== Sys2Proof/Laws/Dispatch.lean ====
section
/-!
SUPPORT. Which meaning each constructor runs: `exec` unfolded once.
-/

namespace Sys2Proof.Machine

theorem exec_stackTrap {s} : exec (.stackTrap) s = execStackTrap s := rfl
theorem exec_reconvergence {s} : exec (.reconvergence) s = execReconvergence s := rfl
theorem exec_loadComplete {id u s} : exec (.loadComplete id u) s = execLoadComplete id u s := rfl
theorem exec_l2Fill {id g s} : exec (.l2Fill id g) s = execL2Fill id g s := rfl
theorem exec_translate {id s} : exec (.translate id) s = execTranslate id s := rfl
theorem exec_walkComplete {id s} : exec (.walkComplete id) s = execWalkComplete id s := rfl
theorem exec_fetchMiss {m s} : exec (.fetchMiss m) s = execFetchMiss m s := rfl
theorem exec_fetchFill {id u s} : exec (.fetchFill id u) s = execFetchFill id u s := rfl
theorem exec_dbell {core names pa data s} : exec (.dbell core names pa data) s = execDbell core names pa data s := rfl
theorem exec_launchArrival {vi q s} : exec (.launchArrival vi q) s = execLaunchArrival vi q s := rfl
theorem exec_eligibilityCheck {s} : exec (.eligibilityCheck) s = execEligibilityCheck s := rfl
theorem exec_graphActivate {id s} : exec (.graphActivate id) s = execGraphActivate id s := rfl
theorem exec_placementDecision {p s} : exec (.placementDecision p) s = execPlacementDecision p s := rfl
theorem exec_discardComplete {wg s} : exec (.discardComplete wg) s = execDiscardComplete wg s := rfl
theorem exec_graceExpiry {wg s} : exec (.graceExpiry wg) s = execGraceExpiry wg s := rfl
theorem exec_suspendedRestore {wg s} : exec (.suspendedRestore wg) s = execSuspendedRestore wg s := rfl
theorem exec_nodeFlush {graph node s} : exec (.nodeFlush graph node) s = execNodeFlush graph node s := rfl
theorem exec_windowEvaluation {c s} : exec (.windowEvaluation c) s = execWindowEvaluation c s := rfl
theorem exec_keepingEnd {core s} : exec (.keepingEnd core) s = execKeepingEnd core s := rfl
theorem exec_matrixAdmit {c s} : exec (.matrixAdmit c) s = execMatrixAdmit c s := rfl
theorem exec_passEnd {c cell s} : exec (.passEnd c cell) s = execPassEnd c cell s := rfl
theorem exec_mmaComplete {c op u s} : exec (.mmaComplete c op u) s = execMmaComplete c op u s := rfl
theorem exec_sequencerEnqueue {t s} : exec (.sequencerEnqueue t) s = execSequencerEnqueue t s := rfl
theorem exec_engineComplete {id s} : exec (.engineComplete id) s = execEngineComplete id s := rfl
theorem exec_nodeFire {c n s} : exec (.nodeFire c n) s = execNodeFire c n s := rfl
theorem exec_nodeComplete {c n s} : exec (.nodeComplete c n) s = execNodeComplete c n s := rfl
theorem exec_collStep {wg s} : exec (.collStep wg) s = execCollStep wg s := rfl
theorem exec_collAbort {wg reason s} : exec (.collAbort wg reason) s = execCollAbort wg reason s := rfl
theorem exec_mergeCommit {die s} : exec (.mergeCommit die) s = execMergeCommit die s := rfl
theorem exec_stkcfgWrite {c v s} : exec (.stkcfgWrite c v) s = execStkcfgWrite c v s := rfl
theorem exec_chrycfgWrite {die v s} : exec (.chrycfgWrite die v) s = execChrycfgWrite die v s := rfl
theorem exec_accownerWrite {c v s} : exec (.accownerWrite c v) s = execAccownerWrite c v s := rfl
theorem exec_accliveWrite {c h v s} : exec (.accliveWrite c h v) s = execAccliveWrite c h v s := rfl
theorem exec_preempt {p tag vi launch s} : exec (.preempt p tag vi launch) s = execPreempt p tag vi launch s := rfl
theorem exec_savereg {p tag vi asid pa s} : exec (.savereg p tag vi asid pa) s = execSavereg p tag vi asid pa s := rfl
theorem exec_vienable {p tag vi en s} : exec (.vienable p tag vi en) s = execVienable p tag vi en s := rfl
theorem exec_stop {p tag name s} : exec (.stop p tag name) s = execStop p tag name s := rfl
theorem exec_replay {p tag name s} : exec (.replay p tag name) s = execReplay p tag name s := rfl
theorem exec_setgrace {p tag us s} : exec (.setgrace p tag us) s = execSetgrace p tag us s := rfl
theorem exec_vminread {p tag region layer clear s} : exec (.vminread p tag region layer clear) s = execVminread p tag region layer clear s := rfl
theorem exec_viwrite {p tag vi pa s} : exec (.viwrite p tag vi pa) s = execViwrite p tag vi pa s := rfl
theorem exec_viread {p tag vi pa s} : exec (.viread p tag vi pa) s = execViread p tag vi pa s := rfl
theorem exec_reservedCommand {p tag code s} : exec (.reservedCommand p tag code) s = execReservedCommand p tag code s := rfl
theorem exec_sessionOpen {vi o s} : exec (.sessionOpen vi o) s = execSessionOpen vi o s := rfl
theorem exec_purge {vi e s} : exec (.purge vi e) s = execPurge vi e s := rfl
theorem exec_resume {vi e s} : exec (.resume vi e) s = execResume vi e s := rfl
theorem exec_fotset {vi e s} : exec (.fotset vi e) s = execFotset vi e s := rfl
theorem exec_sample {unit s} : exec (.sample unit) s = execSample unit s := rfl
theorem exec_limitDrain {unit bank s} : exec (.limitDrain unit bank) s = execLimitDrain unit bank s := rfl
theorem exec_tableDrain {unit s} : exec (.tableDrain unit) s = execTableDrain unit s := rfl
theorem exec_dataFlit {port f s} : exec (.dataFlit port f) s = execDataFlit port f s := rfl
theorem exec_ackFlit {port f s} : exec (.ackFlit port f) s = execAckFlit port f s := rfl
theorem exec_nakFlit {port f s} : exec (.nakFlit port f) s = execNakFlit port f s := rfl
theorem exec_idleFlit {port f s} : exec (.idleFlit port f) s = execIdleFlit port f s := rfl
theorem exec_write {port h rva xid poison data s} : exec (.write port h rva xid poison data) s = execWrite port h rva xid poison data s := rfl
theorem exec_caddPacket {port h rva v xid s} : exec (.caddPacket port h rva v xid) s = execCaddPacket port h rva v xid s := rfl
theorem exec_csetPacket {port h rva v xid s} : exec (.csetPacket port h rva v xid) s = execCsetPacket port h rva v xid s := rfl
theorem exec_cmax {port h rva v xid s} : exec (.cmax port h rva v xid) s = execCmax port h rva v xid s := rfl
theorem exec_ack {port h xid status s} : exec (.ack port h xid status) s = execAck port h xid status s := rfl
theorem exec_undeliv {port h dropped xid reason time s} : exec (.undeliv port h dropped xid reason time) s = execUndeliv port h dropped xid reason time s := rfl
theorem exec_linkdown {port h dev down reason time s} : exec (.linkdown port h dev down reason time) s = execLinkdown port h dev down reason time s := rfl
theorem exec_rtwrite {port h index rid data s} : exec (.rtwrite port h index rid data) s = execRtwrite port h index rid data s := rfl
theorem exec_rtread {port h index rid data s} : exec (.rtread port h index rid data) s = execRtread port h index rid data s := rfl
theorem exec_rtreada {port h index rid data s} : exec (.rtreada port h index rid data) s = execRtreada port h index rid data s := rfl
theorem exec_keywrite {port h index rid data s} : exec (.keywrite port h index rid data) s = execKeywrite port h index rid data s := rfl
theorem exec_keyread {port h index rid data s} : exec (.keyread port h index rid data) s = execKeyread port h index rid data s := rfl
theorem exec_commit {port h index rid data s} : exec (.commit port h index rid data) s = execCommit port h index rid data s := rfl
theorem exec_subwrite {port h index rid data s} : exec (.subwrite port h index rid data) s = execSubwrite port h index rid data s := rfl
theorem exec_subread {port h index rid data s} : exec (.subread port h index rid data) s = execSubread port h index rid data s := rfl
theorem exec_portdown {port h index rid data s} : exec (.portdown port h index rid data) s = execPortdown port h index rid data s := rfl
theorem exec_portDown {port reason s} : exec (.portDown port reason) s = execPortDown port reason s := rfl
theorem exec_undeliverableTimeout {xid s} : exec (.undeliverableTimeout xid) s = execUndeliverableTimeout xid s := rfl
theorem exec_orderedHoldExpiry {src flow s} : exec (.orderedHoldExpiry src flow) s = execOrderedHoldExpiry src flow s := rfl
theorem exec_undervoltage {region layer mv s} : exec (.undervoltage region layer mv) s = execUndervoltage region layer mv s := rfl
theorem exec_regulatorFault {region layer mv s} : exec (.regulatorFault region layer mv) s = execRegulatorFault region layer mv s := rfl
theorem exec_deviceReset {s} : exec (.deviceReset) s = execDeviceReset s := rfl
theorem exec_verify {s} : exec (.verify) s = execVerify s := rfl
theorem exec_memtrain {failed s} : exec (.memtrain failed) s = execMemtrain failed s := rfl
theorem exec_lanemap {r s} : exec (.lanemap r) s = execLanemap r s := rfl
theorem exec_firmwareUpdate {image s} : exec (.firmwareUpdate image) s = execFirmwareUpdate image s := rfl
theorem exec_partitionMapWrite {image s} : exec (.partitionMapWrite image) s = execPartitionMapWrite image s := rfl
theorem exec_illegalSequence {sub val s} : exec (.illegalSequence sub val) s = execIllegalSequence sub val s := rfl
theorem exec_clk {s} : exec (.clk) s = execClk s := rfl
theorem exec_storePerformed {id u s} : exec (.storePerformed id u) s = execStorePerformed id u s := rfl
theorem exec_ringHeadAdvance {vi asid s} : exec (.ringHeadAdvance vi asid) s = execRingHeadAdvance vi asid s := rfl
theorem exec_bandwidthWindow {die s} : exec (.bandwidthWindow die) s = execBandwidthWindow die s := rfl
theorem exec_voltageMinimum {region layer mv s} : exec (.voltageMinimum region layer mv) s = execVoltageMinimum region layer mv s := rfl
theorem exec_add {d a b s} : exec (.add d a b) s = execAdd d a b s := rfl
theorem exec_sub {d a b s} : exec (.sub d a b) s = execSub d a b s := rfl
theorem exec_and {d a b s} : exec (.and d a b) s = execAnd d a b s := rfl
theorem exec_or {d a b s} : exec (.or d a b) s = execOr d a b s := rfl
theorem exec_xor {d a b s} : exec (.xor d a b) s = execXor d a b s := rfl
theorem exec_shl {d a b s} : exec (.shl d a b) s = execShl d a b s := rfl
theorem exec_shr {d a b s} : exec (.shr d a b) s = execShr d a b s := rfl
theorem exec_sra {d a b s} : exec (.sra d a b) s = execSra d a b s := rfl
theorem exec_min {d a b s} : exec (.min d a b) s = execMin d a b s := rfl
theorem exec_max {d a b s} : exec (.max d a b) s = execMax d a b s := rfl
theorem exec_minu {d a b s} : exec (.minu d a b) s = execMinu d a b s := rfl
theorem exec_maxu {d a b s} : exec (.maxu d a b) s = execMaxu d a b s := rfl
theorem exec_slt {d a b s} : exec (.slt d a b) s = execSlt d a b s := rfl
theorem exec_sltu {d a b s} : exec (.sltu d a b) s = execSltu d a b s := rfl
theorem exec_seq {d a b s} : exec (.seq d a b) s = execSeq d a b s := rfl
theorem exec_sne {d a b s} : exec (.sne d a b) s = execSne d a b s := rfl
theorem exec_mul {d a b s} : exec (.mul d a b) s = execMul d a b s := rfl
theorem exec_mulh {d a b s} : exec (.mulh d a b) s = execMulh d a b s := rfl
theorem exec_mulhu {d a b s} : exec (.mulhu d a b) s = execMulhu d a b s := rfl
theorem exec_div {d a b s} : exec (.div d a b) s = execDiv d a b s := rfl
theorem exec_divu {d a b s} : exec (.divu d a b) s = execDivu d a b s := rfl
theorem exec_rem {d a b s} : exec (.rem d a b) s = execRem d a b s := rfl
theorem exec_remu {d a b s} : exec (.remu d a b) s = execRemu d a b s := rfl
theorem exec_clz {d a s} : exec (.clz d a) s = execClz d a s := rfl
theorem exec_popc {d a s} : exec (.popc d a) s = execPopc d a s := rfl
theorem exec_addi {d a imm x s} : exec (.addi d a imm x) s = execAddi d a imm x s := rfl
theorem exec_andi {d a imm x s} : exec (.andi d a imm x) s = execAndi d a imm x s := rfl
theorem exec_ori {d a imm x s} : exec (.ori d a imm x) s = execOri d a imm x s := rfl
theorem exec_xori {d a imm x s} : exec (.xori d a imm x) s = execXori d a imm x s := rfl
theorem exec_shli {d a imm x s} : exec (.shli d a imm x) s = execShli d a imm x s := rfl
theorem exec_shri {d a imm x s} : exec (.shri d a imm x) s = execShri d a imm x s := rfl
theorem exec_srai {d a imm x s} : exec (.srai d a imm x) s = execSrai d a imm x s := rfl
theorem exec_slti {d a imm x s} : exec (.slti d a imm x) s = execSlti d a imm x s := rfl
theorem exec_sli {d imm x s} : exec (.sli d imm x) s = execSli d imm x s := rfl
theorem exec_brEqz {a o x s} : exec (.brEqz a o x) s = execBrEqz a o x s := rfl
theorem exec_brNez {a o x s} : exec (.brNez a o x) s = execBrNez a o x s := rfl
theorem exec_brLtz {a o x s} : exec (.brLtz a o x) s = execBrLtz a o x s := rfl
theorem exec_brGez {a o x s} : exec (.brGez a o x) s = execBrGez a o x s := rfl
theorem exec_brGtz {a o x s} : exec (.brGtz a o x) s = execBrGtz a o x s := rfl
theorem exec_brLez {a o x s} : exec (.brLez a o x) s = execBrLez a o x s := rfl
theorem exec_jmp {o x s} : exec (.jmp o x) s = execJmp o x s := rfl
theorem exec_call {o x s} : exec (.call o x) s = execCall o x s := rfl
theorem exec_jr {a s} : exec (.jr a) s = execJr a s := rfl
theorem exec_callr {a s} : exec (.callr a) s = execCallr a s := rfl
theorem exec_ret {s} : exec (.ret) s = execRet s := rfl
theorem exec_vbr {k t j s} : exec (.vbr k t j) s = execVbr k t j s := rfl
theorem exec_vbrN {k t j s} : exec (.vbrN k t j) s = execVbrN k t j s := rfl
theorem exec_kbrAny {k o x s} : exec (.kbrAny k o x) s = execKbrAny k o x s := rfl
theorem exec_kbrAll {k o x s} : exec (.kbrAll k o x) s = execKbrAll k o x s := rfl
theorem exec_kbrNone {k o x s} : exec (.kbrNone k o x) s = execKbrNone k o x s := rfl
theorem exec_nop {s} : exec (.nop) s = execNop s := rfl
theorem exec_srd {d n s} : exec (.srd d n) s = execSrd d n s := rfl
theorem exec_swr {n a s} : exec (.swr n a) s = execSwr n a s := rfl
theorem exec_trap {a s} : exec (.trap a) s = execTrap a s := rfl
theorem exec_eret {s} : exec (.eret) s = execEret s := rfl
theorem exec_bkpt {s} : exec (.bkpt) s = execBkpt s := rfl
theorem exec_yield {s} : exec (.yield) s = execYield s := rfl
theorem exec_exit {s} : exec (.exit) s = execExit s := rfl
theorem exec_setfmt {d a s} : exec (.setfmt d a) s = execSetfmt d a s := rfl
theorem exec_scfg {a h s} : exec (.scfg a h) s = execScfg a h s := rfl
theorem exec_waitcyc {a s} : exec (.waitcyc a) s = execWaitcyc a s := rfl
theorem exec_barInit {n a s} : exec (.barInit n a) s = execBarInit n a s := rfl
theorem exec_barArrive {d n rlx s} : exec (.barArrive d n rlx) s = execBarArrive d n rlx s := rfl
theorem exec_barWait {d n a s} : exec (.barWait d n a) s = execBarWait d n a s := rfl
theorem exec_barAw {d n rlx s} : exec (.barAw d n rlx) s = execBarAw d n rlx s := rfl
theorem exec_barTest {d n a s} : exec (.barTest d n a) s = execBarTest d n a s := rfl
theorem exec_barExpect {n a post s} : exec (.barExpect n a post) s = execBarExpect n a post s := rfl
theorem exec_fenceX {a s} : exec (.fenceX a) s = execFenceX a s := rfl
theorem exec_fenceS {a sc s} : exec (.fenceS a sc) s = execFenceS a sc s := rfl
theorem exec_qbind {p a s} : exec (.qbind p a) s = execQbind p a s := rfl
theorem exec_qtry {d p s} : exec (.qtry d p) s = execQtry d p s := rfl
theorem exec_qstat {d p s} : exec (.qstat d p) s = execQstat d p s := rfl
theorem exec_region {s} : exec (.region) s = execRegion s := rfl
theorem exec_rclose {s} : exec (.rclose) s = execRclose s := rfl
theorem exec_vfpFadd {t d a b p s} : exec (.vfpFadd t d a b p) s = execVfpFadd t d a b p s := rfl
theorem exec_vfpFsub {t d a b p s} : exec (.vfpFsub t d a b p) s = execVfpFsub t d a b p s := rfl
theorem exec_vfpFmul {t d a b p s} : exec (.vfpFmul t d a b p) s = execVfpFmul t d a b p s := rfl
theorem exec_vfpFmin {t d a b p s} : exec (.vfpFmin t d a b p) s = execVfpFmin t d a b p s := rfl
theorem exec_vfpFmax {t d a b p s} : exec (.vfpFmax t d a b p) s = execVfpFmax t d a b p s := rfl
theorem exec_vfpFabs {t d a p s} : exec (.vfpFabs t d a p) s = execVfpFabs t d a p s := rfl
theorem exec_vfpFneg {t d a p s} : exec (.vfpFneg t d a p) s = execVfpFneg t d a p s := rfl
theorem exec_vfpFcpysgn {t d a b p s} : exec (.vfpFcpysgn t d a b p) s = execVfpFcpysgn t d a b p s := rfl
theorem exec_fma {t d a b p s} : exec (.fma t d a b p) s = execFma t d a b p s := rfl
theorem exec_fms {t d a b p s} : exec (.fms t d a b p) s = execFms t d a b p s := rfl
theorem exec_nfma {t d a b p s} : exec (.nfma t d a b p) s = execNfma t d a b p s := rfl
theorem exec_nfms {t d a b p s} : exec (.nfms t d a b p) s = execNfms t d a b p s := rfl
theorem exec_vfpsFadd {t d a b p s} : exec (.vfpsFadd t d a b p) s = execVfpsFadd t d a b p s := rfl
theorem exec_vfpsFsub {t d a b p s} : exec (.vfpsFsub t d a b p) s = execVfpsFsub t d a b p s := rfl
theorem exec_vfpsFmul {t d a b p s} : exec (.vfpsFmul t d a b p) s = execVfpsFmul t d a b p s := rfl
theorem exec_vfpsFmin {t d a b p s} : exec (.vfpsFmin t d a b p) s = execVfpsFmin t d a b p s := rfl
theorem exec_vfpsFmax {t d a b p s} : exec (.vfpsFmax t d a b p) s = execVfpsFmax t d a b p s := rfl
theorem exec_vfpsFcpysgn {t d a b p s} : exec (.vfpsFcpysgn t d a b p) s = execVfpsFcpysgn t d a b p s := rfl
theorem exec_vintAdd {d a b p s} : exec (.vintAdd d a b p) s = execVintAdd d a b p s := rfl
theorem exec_vintSub {d a b p s} : exec (.vintSub d a b p) s = execVintSub d a b p s := rfl
theorem exec_vintMullo {d a b p s} : exec (.vintMullo d a b p) s = execVintMullo d a b p s := rfl
theorem exec_vintMulhiS {d a b p s} : exec (.vintMulhiS d a b p) s = execVintMulhiS d a b p s := rfl
theorem exec_vintMulhiU {d a b p s} : exec (.vintMulhiU d a b p) s = execVintMulhiU d a b p s := rfl
theorem exec_vintAnd {d a b p s} : exec (.vintAnd d a b p) s = execVintAnd d a b p s := rfl
theorem exec_vintOr {d a b p s} : exec (.vintOr d a b p) s = execVintOr d a b p s := rfl
theorem exec_vintXor {d a b p s} : exec (.vintXor d a b p) s = execVintXor d a b p s := rfl
theorem exec_vintAndn {d a b p s} : exec (.vintAndn d a b p) s = execVintAndn d a b p s := rfl
theorem exec_vintShl {d a b p s} : exec (.vintShl d a b p) s = execVintShl d a b p s := rfl
theorem exec_vintShr {d a b p s} : exec (.vintShr d a b p) s = execVintShr d a b p s := rfl
theorem exec_vintSra {d a b p s} : exec (.vintSra d a b p) s = execVintSra d a b p s := rfl
theorem exec_vintMinS {d a b p s} : exec (.vintMinS d a b p) s = execVintMinS d a b p s := rfl
theorem exec_vintMaxS {d a b p s} : exec (.vintMaxS d a b p) s = execVintMaxS d a b p s := rfl
theorem exec_vintMinU {d a b p s} : exec (.vintMinU d a b p) s = execVintMinU d a b p s := rfl
theorem exec_vintMaxU {d a b p s} : exec (.vintMaxU d a b p) s = execVintMaxU d a b p s := rfl
theorem exec_vintAbs {d a p s} : exec (.vintAbs d a p) s = execVintAbs d a p s := rfl
theorem exec_vintClz {d a p s} : exec (.vintClz d a p) s = execVintClz d a p s := rfl
theorem exec_vintPopc {d a p s} : exec (.vintPopc d a p) s = execVintPopc d a p s := rfl
theorem exec_vintBrev {d a p s} : exec (.vintBrev d a p) s = execVintBrev d a p s := rfl
theorem exec_vintsAdd {d a b p s} : exec (.vintsAdd d a b p) s = execVintsAdd d a b p s := rfl
theorem exec_vintsSub {d a b p s} : exec (.vintsSub d a b p) s = execVintsSub d a b p s := rfl
theorem exec_vintsMullo {d a b p s} : exec (.vintsMullo d a b p) s = execVintsMullo d a b p s := rfl
theorem exec_vintsMulhiS {d a b p s} : exec (.vintsMulhiS d a b p) s = execVintsMulhiS d a b p s := rfl
theorem exec_vintsMulhiU {d a b p s} : exec (.vintsMulhiU d a b p) s = execVintsMulhiU d a b p s := rfl
theorem exec_vintsAnd {d a b p s} : exec (.vintsAnd d a b p) s = execVintsAnd d a b p s := rfl
theorem exec_vintsOr {d a b p s} : exec (.vintsOr d a b p) s = execVintsOr d a b p s := rfl
theorem exec_vintsXor {d a b p s} : exec (.vintsXor d a b p) s = execVintsXor d a b p s := rfl
theorem exec_vintsAndn {d a b p s} : exec (.vintsAndn d a b p) s = execVintsAndn d a b p s := rfl
theorem exec_vintsShl {d a b p s} : exec (.vintsShl d a b p) s = execVintsShl d a b p s := rfl
theorem exec_vintsShr {d a b p s} : exec (.vintsShr d a b p) s = execVintsShr d a b p s := rfl
theorem exec_vintsSra {d a b p s} : exec (.vintsSra d a b p) s = execVintsSra d a b p s := rfl
theorem exec_vintsMinS {d a b p s} : exec (.vintsMinS d a b p) s = execVintsMinS d a b p s := rfl
theorem exec_vintsMaxS {d a b p s} : exec (.vintsMaxS d a b p) s = execVintsMaxS d a b p s := rfl
theorem exec_vintsMinU {d a b p s} : exec (.vintsMinU d a b p) s = execVintsMinU d a b p s := rfl
theorem exec_vintsMaxU {d a b p s} : exec (.vintsMaxU d a b p) s = execVintsMaxU d a b p s := rfl
theorem exec_vintiAddi {d a imm p x s} : exec (.vintiAddi d a imm p x) s = execVintiAddi d a imm p x s := rfl
theorem exec_vintiAndi {d a imm p x s} : exec (.vintiAndi d a imm p x) s = execVintiAndi d a imm p x s := rfl
theorem exec_vintiOri {d a imm p x s} : exec (.vintiOri d a imm p x) s = execVintiOri d a imm p x s := rfl
theorem exec_vintiXori {d a imm p x s} : exec (.vintiXori d a imm p x) s = execVintiXori d a imm p x s := rfl
theorem exec_vintiShli {d a imm p x s} : exec (.vintiShli d a imm p x) s = execVintiShli d a imm p x s := rfl
theorem exec_vintiShri {d a imm p x s} : exec (.vintiShri d a imm p x) s = execVintiShri d a imm p x s := rfl
theorem exec_vintiSrai {d a imm p x s} : exec (.vintiSrai d a imm p x) s = execVintiSrai d a imm p x s := rfl
theorem exec_vintiMuli {d a imm p x s} : exec (.vintiMuli d a imm p x) s = execVintiMuli d a imm p x s := rfl
theorem exec_vcmpEqS32 {d a b p s} : exec (.vcmpEqS32 d a b p) s = execVcmpEqS32 d a b p s := rfl
theorem exec_vcmpNeS32 {d a b p s} : exec (.vcmpNeS32 d a b p) s = execVcmpNeS32 d a b p s := rfl
theorem exec_vcmpLtS32 {d a b p s} : exec (.vcmpLtS32 d a b p) s = execVcmpLtS32 d a b p s := rfl
theorem exec_vcmpLeS32 {d a b p s} : exec (.vcmpLeS32 d a b p) s = execVcmpLeS32 d a b p s := rfl
theorem exec_vcmpGtS32 {d a b p s} : exec (.vcmpGtS32 d a b p) s = execVcmpGtS32 d a b p s := rfl
theorem exec_vcmpGeS32 {d a b p s} : exec (.vcmpGeS32 d a b p) s = execVcmpGeS32 d a b p s := rfl
theorem exec_vcmpEqU32 {d a b p s} : exec (.vcmpEqU32 d a b p) s = execVcmpEqU32 d a b p s := rfl
theorem exec_vcmpNeU32 {d a b p s} : exec (.vcmpNeU32 d a b p) s = execVcmpNeU32 d a b p s := rfl
theorem exec_vcmpLtU32 {d a b p s} : exec (.vcmpLtU32 d a b p) s = execVcmpLtU32 d a b p s := rfl
theorem exec_vcmpLeU32 {d a b p s} : exec (.vcmpLeU32 d a b p) s = execVcmpLeU32 d a b p s := rfl
theorem exec_vcmpGtU32 {d a b p s} : exec (.vcmpGtU32 d a b p) s = execVcmpGtU32 d a b p s := rfl
theorem exec_vcmpGeU32 {d a b p s} : exec (.vcmpGeU32 d a b p) s = execVcmpGeU32 d a b p s := rfl
theorem exec_vcmpEqF32 {d a b p s} : exec (.vcmpEqF32 d a b p) s = execVcmpEqF32 d a b p s := rfl
theorem exec_vcmpNeF32 {d a b p s} : exec (.vcmpNeF32 d a b p) s = execVcmpNeF32 d a b p s := rfl
theorem exec_vcmpLtF32 {d a b p s} : exec (.vcmpLtF32 d a b p) s = execVcmpLtF32 d a b p s := rfl
theorem exec_vcmpLeF32 {d a b p s} : exec (.vcmpLeF32 d a b p) s = execVcmpLeF32 d a b p s := rfl
theorem exec_vcmpGtF32 {d a b p s} : exec (.vcmpGtF32 d a b p) s = execVcmpGtF32 d a b p s := rfl
theorem exec_vcmpGeF32 {d a b p s} : exec (.vcmpGeF32 d a b p) s = execVcmpGeF32 d a b p s := rfl
theorem exec_vcmpUnord {d a b p s} : exec (.vcmpUnord d a b p) s = execVcmpUnord d a b p s := rfl
theorem exec_rcp {d a p s} : exec (.rcp d a p) s = execRcp d a p s := rfl
theorem exec_rsq {d a p s} : exec (.rsq d a p) s = execRsq d a p s := rfl
theorem exec_sqrt {d a p s} : exec (.sqrt d a p) s = execSqrt d a p s := rfl
theorem exec_ex2 {d a p s} : exec (.ex2 d a p) s = execEx2 d a p s := rfl
theorem exec_lg2 {d a p s} : exec (.lg2 d a p) s = execLg2 d a p s := rfl
theorem exec_sin {d a p s} : exec (.sin d a p) s = execSin d a p s := rfl
theorem exec_cos {d a p s} : exec (.cos d a p) s = execCos d a p s := rfl
theorem exec_tanh {d a p s} : exec (.tanh d a p) s = execTanh d a p s := rfl
theorem exec_vcvtF32S32 {d a p s} : exec (.vcvtF32S32 d a p) s = execVcvtF32S32 d a p s := rfl
theorem exec_vcvtF32U32 {d a p s} : exec (.vcvtF32U32 d a p) s = execVcvtF32U32 d a p s := rfl
theorem exec_vcvtS32F32 {d a p s} : exec (.vcvtS32F32 d a p) s = execVcvtS32F32 d a p s := rfl
theorem exec_vcvtU32F32 {d a p s} : exec (.vcvtU32F32 d a p) s = execVcvtU32F32 d a p s := rfl
theorem exec_vcvtBf16F32 {d a b p s} : exec (.vcvtBf16F32 d a b p) s = execVcvtBf16F32 d a b p s := rfl
theorem exec_vcvtF16F32 {d a b p s} : exec (.vcvtF16F32 d a b p) s = execVcvtF16F32 d a b p s := rfl
theorem exec_vcvtF32Bf16 {d a e p s} : exec (.vcvtF32Bf16 d a e p) s = execVcvtF32Bf16 d a e p s := rfl
theorem exec_vcvtF32F16 {d a e p s} : exec (.vcvtF32F16 d a e p) s = execVcvtF32F16 d a e p s := rfl
theorem exec_vcvtSxF32 {d a p s} : exec (.vcvtSxF32 d a p) s = execVcvtSxF32 d a p s := rfl
theorem exec_vcvtF32Sx {d a p s} : exec (.vcvtF32Sx d a p) s = execVcvtF32Sx d a p s := rfl
theorem exec_vredFadd {d a p s} : exec (.vredFadd d a p) s = execVredFadd d a p s := rfl
theorem exec_vredFmin {d a p s} : exec (.vredFmin d a p) s = execVredFmin d a p s := rfl
theorem exec_vredFmax {d a p s} : exec (.vredFmax d a p) s = execVredFmax d a p s := rfl
theorem exec_vredIadd {d a p s} : exec (.vredIadd d a p) s = execVredIadd d a p s := rfl
theorem exec_vredIminS {d a p s} : exec (.vredIminS d a p) s = execVredIminS d a p s := rfl
theorem exec_vredImaxS {d a p s} : exec (.vredImaxS d a p) s = execVredImaxS d a p s := rfl
theorem exec_vscanFadd {d a b p s} : exec (.vscanFadd d a b p) s = execVscanFadd d a b p s := rfl
theorem exec_vscanIadd {d a b p s} : exec (.vscanIadd d a b p) s = execVscanIadd d a b p s := rfl
theorem exec_vcompact {d a b p s} : exec (.vcompact d a b p) s = execVcompact d a b p s := rfl
theorem exec_vexpand {d a p s} : exec (.vexpand d a p) s = execVexpand d a p s := rfl
theorem exec_vsel {d a b p s} : exec (.vsel d a b p) s = execVsel d a b p s := rfl
theorem exec_vperm {d a b p s} : exec (.vperm d a b p) s = execVperm d a b p s := rfl
theorem exec_kand {d a b p s} : exec (.kand d a b p) s = execKand d a b p s := rfl
theorem exec_kor {d a b p s} : exec (.kor d a b p) s = execKor d a b p s := rfl
theorem exec_kxor {d a b p s} : exec (.kxor d a b p) s = execKxor d a b p s := rfl
theorem exec_kandn {d a b p s} : exec (.kandn d a b p) s = execKandn d a b p s := rfl
theorem exec_knot {d a p s} : exec (.knot d a p) s = execKnot d a p s := rfl
theorem exec_kmov {d a p s} : exec (.kmov d a p) s = execKmov d a p s := rfl
theorem exec_k2s {d a n p s} : exec (.k2s d a n p) s = execK2s d a n p s := rfl
theorem exec_s2k {d a n p s} : exec (.s2k d a n p) s = execS2k d a n p s := rfl
theorem exec_kpopc {d a p s} : exec (.kpopc d a p) s = execKpopc d a p s := rfl
theorem exec_kfirst {d a p s} : exec (.kfirst d a p) s = execKfirst d a p s := rfl
theorem exec_vmov {d a p s} : exec (.vmov d a p) s = execVmov d a p s := rfl
theorem exec_vsplat {d a p s} : exec (.vsplat d a p) s = execVsplat d a p s := rfl
theorem exec_vext {d a b p s} : exec (.vext d a b p) s = execVext d a b p s := rfl
theorem exec_vins {d a b p s} : exec (.vins d a b p) s = execVins d a b p s := rfl
theorem exec_vlaneid {d p s} : exec (.vlaneid d p) s = execVlaneid d p s := rfl
theorem exec_viota {d p s} : exec (.viota d p) s = execViota d p s := rfl
theorem exec_vaddF32Compact {d b s} : exec (.vaddF32Compact d b) s = execVaddF32Compact d b s := rfl
theorem exec_vsubF32Compact {d b s} : exec (.vsubF32Compact d b) s = execVsubF32Compact d b s := rfl
theorem exec_vmulF32Compact {d b s} : exec (.vmulF32Compact d b) s = execVmulF32Compact d b s := rfl
theorem exec_vmaxF32Compact {d b s} : exec (.vmaxF32Compact d b) s = execVmaxF32Compact d b s := rfl
theorem exec_vminF32Compact {d b s} : exec (.vminF32Compact d b) s = execVminF32Compact d b s := rfl
theorem exec_vaddI32Compact {d b s} : exec (.vaddI32Compact d b) s = execVaddI32Compact d b s := rfl
theorem exec_vsubI32Compact {d b s} : exec (.vsubI32Compact d b) s = execVsubI32Compact d b s := rfl
theorem exec_vandCompact {d b s} : exec (.vandCompact d b) s = execVandCompact d b s := rfl
theorem exec_vorCompact {d b s} : exec (.vorCompact d b) s = execVorCompact d b s := rfl
theorem exec_vxorCompact {d b s} : exec (.vxorCompact d b) s = execVxorCompact d b s := rfl
theorem exec_vshlCompact {d b s} : exec (.vshlCompact d b) s = execVshlCompact d b s := rfl
theorem exec_vshrU32Compact {d b s} : exec (.vshrU32Compact d b) s = execVshrU32Compact d b s := rfl
theorem exec_vmulLoCompact {d b s} : exec (.vmulLoCompact d b) s = execVmulLoCompact d b s := rfl
theorem exec_vmaxS32Compact {d b s} : exec (.vmaxS32Compact d b) s = execVmaxS32Compact d b s := rfl
theorem exec_vminS32Compact {d b s} : exec (.vminS32Compact d b) s = execVminS32Compact d b s := rfl
theorem exec_vmovCompact {d b s} : exec (.vmovCompact d b) s = execVmovCompact d b s := rfl
theorem exec_vld {d r x st z e s} : exec (.vld d r x st z e) s = execVld d r x st z e s := rfl
theorem exec_vst {d r x st z e s} : exec (.vst d r x st z e) s = execVst d r x st z e s := rfl
theorem exec_vlda {d r x st z e s} : exec (.vlda d r x st z e) s = execVlda d r x st z e s := rfl
theorem exec_vstr {d r x st z e s} : exec (.vstr d r x st z e) s = execVstr d r x st z e s := rfl
theorem exec_sld {d r x st z e s} : exec (.sld d r x st z e) s = execSld d r x st z e s := rfl
theorem exec_sst {d r x st z e s} : exec (.sst d r x st z e) s = execSst d r x st z e s := rfl
theorem exec_slda {d r x st z e s} : exec (.slda d r x st z e) s = execSlda d r x st z e s := rfl
theorem exec_sstr {d r x st z e s} : exec (.sstr d r x st z e) s = execSstr d r x st z e s := rfl
theorem exec_vatomAdd {d r x st e s} : exec (.vatomAdd d r x st e) s = execVatomAdd d r x st e s := rfl
theorem exec_vatomAnd {d r x st e s} : exec (.vatomAnd d r x st e) s = execVatomAnd d r x st e s := rfl
theorem exec_vatomOr {d r x st e s} : exec (.vatomOr d r x st e) s = execVatomOr d r x st e s := rfl
theorem exec_vatomXor {d r x st e s} : exec (.vatomXor d r x st e) s = execVatomXor d r x st e s := rfl
theorem exec_vatomMinS {d r x st e s} : exec (.vatomMinS d r x st e) s = execVatomMinS d r x st e s := rfl
theorem exec_vatomMaxS {d r x st e s} : exec (.vatomMaxS d r x st e) s = execVatomMaxS d r x st e s := rfl
theorem exec_vatomXchg {d r x st e s} : exec (.vatomXchg d r x st e) s = execVatomXchg d r x st e s := rfl
theorem exec_vatomCas {d r x st e s} : exec (.vatomCas d r x st e) s = execVatomCas d r x st e s := rfl
theorem exec_vatomfFadd {d r x st e s} : exec (.vatomfFadd d r x st e) s = execVatomfFadd d r x st e s := rfl
theorem exec_vatomfFmin {d r x st e s} : exec (.vatomfFmin d r x st e) s = execVatomfFmin d r x st e s := rfl
theorem exec_vatomfFmax {d r x st e s} : exec (.vatomfFmax d r x st e) s = execVatomfFmax d r x st e s := rfl
theorem exec_vatomfMinU {d r x st e s} : exec (.vatomfMinU d r x st e) s = execVatomfMinU d r x st e s := rfl
theorem exec_vatomfMaxU {d r x st e s} : exec (.vatomfMaxU d r x st e) s = execVatomfMaxU d r x st e s := rfl
theorem exec_vatomfIncw {d r x st e s} : exec (.vatomfIncw d r x st e) s = execVatomfIncw d r x st e s := rfl
theorem exec_vatomfDecw {d r x st e s} : exec (.vatomfDecw d r x st e) s = execVatomfDecw d r x st e s := rfl
theorem exec_satomAdd {d r x st e s} : exec (.satomAdd d r x st e) s = execSatomAdd d r x st e s := rfl
theorem exec_satomAnd {d r x st e s} : exec (.satomAnd d r x st e) s = execSatomAnd d r x st e s := rfl
theorem exec_satomOr {d r x st e s} : exec (.satomOr d r x st e) s = execSatomOr d r x st e s := rfl
theorem exec_satomXor {d r x st e s} : exec (.satomXor d r x st e) s = execSatomXor d r x st e s := rfl
theorem exec_satomMinS {d r x st e s} : exec (.satomMinS d r x st e) s = execSatomMinS d r x st e s := rfl
theorem exec_satomMaxS {d r x st e s} : exec (.satomMaxS d r x st e) s = execSatomMaxS d r x st e s := rfl
theorem exec_satomXchg {d r x st e s} : exec (.satomXchg d r x st e) s = execSatomXchg d r x st e s := rfl
theorem exec_satomCas {d r x st e s} : exec (.satomCas d r x st e) s = execSatomCas d r x st e s := rfl
theorem exec_cachePfl1 {r x st e s} : exec (.cachePfl1 r x st e) s = execCachePfl1 r x st e s := rfl
theorem exec_cachePfl2 {r x st e s} : exec (.cachePfl2 r x st e) s = execCachePfl2 r x st e s := rfl
theorem exec_cacheWback {r x st e s} : exec (.cacheWback r x st e) s = execCacheWback r x st e s := rfl
theorem exec_cacheInval {r x st e s} : exec (.cacheInval r x st e) s = execCacheInval r x st e s := rfl
theorem exec_cacheWbinv {r x st e s} : exec (.cacheWbinv r x st e) s = execCacheWbinv r x st e s := rfl
theorem exec_cacheZline {r x st e s} : exec (.cacheZline r x st e) s = execCacheZline r x st e s := rfl
theorem exec_cpyl {a b n z st s} : exec (.cpyl a b n z st) s = execCpyl a b n z st s := rfl
theorem exec_tld {d a n st s} : exec (.tld d a n st) s = execTld d a n st s := rfl
theorem exec_tst {d a n st s} : exec (.tst d a n st) s = execTst d a n st s := rfl
theorem exec_tldw {k a st s} : exec (.tldw k a st) s = execTldw k a st s := rfl
theorem exec_tzfill {d n st s} : exec (.tzfill d n st) s = execTzfill d n st s := rfl
theorem exec_binsc {n a b st s} : exec (.binsc n a b st) s = execBinsc n a b st s := rfl
theorem exec_binrst {n b st s} : exec (.binrst n b st) s = execBinrst n b st s := rfl
theorem exec_cwait {d a b st s} : exec (.cwait d a b st) s = execCwait d a b st s := rfl
theorem exec_cadd {a b st s} : exec (.cadd a b st) s = execCadd a b st s := rfl
theorem exec_cset {a b st s} : exec (.cset a b st) s = execCset a b st s := rfl
theorem exec_ctest {d a b st s} : exec (.ctest d a b st) s = execCtest d a b st s := rfl
theorem exec_allred {t a n st s} : exec (.allred t a n st) s = execAllred t a n st s := rfl
theorem exec_redsc {t a n st s} : exec (.redsc t a n st) s = execRedsc t a n st s := rfl
theorem exec_allgat {t a n st s} : exec (.allgat t a n st) s = execAllgat t a n st s := rfl
theorem exec_bcast {t a n st s} : exec (.bcast t a n st) s = execBcast t a n st s := rfl
theorem exec_rcopy {d a b n st s} : exec (.rcopy d a b n st) s = execRcopy d a b n st s := rfl
theorem exec_bmopen {d a b st s} : exec (.bmopen d a b st) s = execBmopen d a b st s := rfl
theorem exec_bmstage {t a n st s} : exec (.bmstage t a n st) s = execBmstage t a n st s := rfl
theorem exec_bmclose {d a b st s} : exec (.bmclose d a b st) s = execBmclose d a b st s := rfl
theorem exec_bmnorm {d t b st s} : exec (.bmnorm d t b st) s = execBmnorm d t b st s := rfl
theorem exec_bmadd {d a b st s} : exec (.bmadd d a b st) s = execBmadd d a b st s := rfl
theorem exec_bmstat {d a st s} : exec (.bmstat d a st) s = execBmstat d a st s := rfl
theorem exec_emit {d a n st s} : exec (.emit d a n st) s = execEmit d a n st s := rfl
theorem exec_node {d c s} : exec (.node d c) s = execNode d c s := rfl
theorem exec_nodeL {d c b st s} : exec (.nodeL d c b st) s = execNodeL d c b st s := rfl
theorem exec_nedge {d a s} : exec (.nedge d a) s = execNedge d a s := rfl
theorem exec_nwait {d a s} : exec (.nwait d a) s = execNwait d a s := rfl
theorem exec_grab {d b s} : exec (.grab d b) s = execGrab d b s := rfl
theorem exec_rset {d a b s} : exec (.rset d a b) s = execRset d a b s := rfl
theorem exec_rstat {d b s} : exec (.rstat d b) s = execRstat d b s := rfl
theorem exec_burn {a s} : exec (.burn a) s = execBurn a s := rfl
theorem exec_shunt {d a s} : exec (.shunt d a) s = execShunt d a s := rfl
theorem exec_rdmis {d s} : exec (.rdmis d) s = execRdmis d s := rfl
theorem exec_dcls {a s} : exec (.dcls a) s = execDcls a s := rfl
theorem exec_tfeed {m a b f sl p s} : exec (.tfeed m a b f sl p) s = execTfeed m a b f sl p s := rfl
theorem exec_tdrain {d n b p s} : exec (.tdrain d n b p) s = execTdrain d n b p s := rfl
theorem exec_mma {n m k s} : exec (.mma n m k) s = execMma n m k s := rfl
theorem exec_mmab {n m k b s} : exec (.mmab n m k b) s = execMmab n m k b s := rfl
theorem exec_tzero {n s} : exec (.tzero n) s = execTzero n s := rfl
theorem exec_tcfg {d a s} : exec (.tcfg d a) s = execTcfg d a s := rfl
theorem exec_accspill {n a st s} : exec (.accspill n a st) s = execAccspill n a st s := rfl
theorem exec_accfill {n a st s} : exec (.accfill n a st) s = execAccfill n a st s := rfl
theorem exec_accrel {n c s} : exec (.accrel n c) s = execAccrel n c s := rfl
theorem exec_acclive {d h s} : exec (.acclive d h) s = execAcclive d h s := rfl
theorem exec_tset {n wd a s} : exec (.tset n wd a) s = execTset n wd a s := rfl
theorem exec_tget {d n wd s} : exec (.tget d n wd) s = execTget d n wd s := rfl
theorem exec_tcopy {d a s} : exec (.tcopy d a) s = execTcopy d a s := rfl

end Sys2Proof.Machine
end

