-- ==== Sys2Proof/Laws/Tab.lean ====
section
/-!
SUPPORT. Laws of sparse tables: a value put is read back, every other key reads as before.
-/

namespace Sys2Proof.Machine

@[simp] theorem tabFind_nil {α : Type} (k : Nat) : tabFind ([] : Tab α) k = none := rfl

/-- A value put at a key is found there. -/
@[simp] theorem tabFind_tabPut_self {α : Type} (t : Tab α) (k : Nat) (a : α) : tabFind (tabPut t k a) k = some a := by
  induction t with
  | nil => simp [tabPut, tabFind]
  | cons p r ih =>
    obtain ⟨j, b⟩ := p
    by_cases h : j = k
    · simp [tabPut, tabFind, h]
    · by_cases h2 : k < j
      · simp [tabPut, tabFind, h, h2]
      · simp [tabPut, tabFind, h, h2, ih]

/-- Another key is found as before. -/
theorem tabFind_tabPut_other {α : Type} (t : Tab α) (k l : Nat) (a : α) (hl : l ≠ k) :
    tabFind (tabPut t k a) l = tabFind t l := by
  have hk : k ≠ l := fun h => hl h.symm
  induction t with
  | nil => simp [tabPut, tabFind, hk]
  | cons p r ih =>
    obtain ⟨j, b⟩ := p
    by_cases h : j = k
    · subst h; simp [tabPut, tabFind, hk]
    · by_cases h2 : k < j
      · simp [tabPut, tabFind, h, h2, hk]
      · simp [tabPut, tabFind, h, h2, ih]

theorem tabFind_tabPut {α : Type} (t : Tab α) (k l : Nat) (a : α) :
    tabFind (tabPut t k a) l = if l = k then some a else tabFind t l := by
  by_cases h : l = k
  · subst h; simp
  · simp [h, tabFind_tabPut_other]

@[simp] theorem tabGet_tabPut_self {α : Type} (t : Tab α) (k : Nat) (a d : α) : tabGet (tabPut t k a) k d = a := by
  simp [tabGet]

theorem tabGet_tabPut_other {α : Type} (t : Tab α) (k l : Nat) (a d : α) (hl : l ≠ k) :
    tabGet (tabPut t k a) l d = tabGet t l d := by
  simp [tabGet, tabFind_tabPut_other t k l a hl]

theorem tabGet_tabPut {α : Type} (t : Tab α) (k l : Nat) (a d : α) :
    tabGet (tabPut t k a) l d = if l = k then a else tabGet t l d := by
  by_cases h : l = k
  · subst h; simp
  · simp [h, tabGet_tabPut_other]

/-- A key taken out is not found. -/
@[simp] theorem tabFind_tabDel_self {α : Type} (t : Tab α) (k : Nat) : tabFind (tabDel t k) k = none := by
  induction t with
  | nil => rfl
  | cons p r ih =>
    obtain ⟨j, b⟩ := p
    by_cases h : j = k
    · simpa [tabDel, h] using ih
    · simp only [tabDel] at ih
      simp [tabDel, tabFind, h, ih]

theorem tabFind_tabDel_other {α : Type} (t : Tab α) (k l : Nat) (hl : l ≠ k) :
    tabFind (tabDel t k) l = tabFind t l := by
  induction t with
  | nil => rfl
  | cons p r ih =>
    obtain ⟨j, b⟩ := p
    simp only [tabDel] at ih
    by_cases h : j = k
    · have : k ≠ l := fun e => hl e.symm
      simp [tabDel, tabFind, h, ih, this]
    · simp [tabDel, tabFind, h, ih]

theorem tabGet_tabDel_other {α : Type} (t : Tab α) (k l : Nat) (d : α) (hl : l ≠ k) :
    tabGet (tabDel t k) l d = tabGet t l d := by
  simp [tabGet, tabFind_tabDel_other t k l hl]

/-- A change at a key changes what is found there, where something is found. -/
@[simp] theorem tabFind_tabMod_self {α : Type} (t : Tab α) (k : Nat) (f : α → α) :
    tabFind (tabMod t k f) k = (tabFind t k).map f := by
  unfold tabMod
  cases h : tabFind t k with
  | none => simp [h]
  | some a => simp

theorem tabFind_tabMod_other {α : Type} (t : Tab α) (k l : Nat) (f : α → α) (hl : l ≠ k) :
    tabFind (tabMod t k f) l = tabFind t l := by
  unfold tabMod
  cases tabFind t k with
  | none => rfl
  | some a => exact tabFind_tabPut_other t k l (f a) hl

theorem tabGet_tabMod_other {α : Type} (t : Tab α) (k l : Nat) (f : α → α) (d : α) (hl : l ≠ k) :
    tabGet (tabMod t k f) l d = tabGet t l d := by
  simp [tabGet, tabFind_tabMod_other t k l f hl]

/-- A change at a key, read through a projection that it leaves alone, shows nothing. -/
theorem tabGet_tabMod_proj {α β : Type} (t : Tab α) (k l : Nat) (f : α → α) (d : α) (p : α → β) (h : ∀ x, p (f x) = p x) :
    p (tabGet (tabMod t k f) l d) = p (tabGet t l d) := by
  by_cases e : l = k
  · subst e
    cases hf : tabFind t l <;> simp [tabGet, hf, h]
  · rw [tabGet_tabMod_other t k l f d e]

/-- The same for a value put. -/
theorem tabGet_tabPut_proj {α β : Type} (t : Tab α) (k l : Nat) (f : α → α) (d : α) (p : α → β) (h : ∀ x, p (f x) = p x) :
    p (tabGet (tabPut t k (f (tabGet t k d))) l d) = p (tabGet t l d) := by
  by_cases e : l = k
  · subst e; simp [h]
  · rw [tabGet_tabPut_other t k l _ d e]

@[simp] theorem tabFind_tabMap {α : Type} (t : Tab α) (f : Nat → α → α) (k : Nat) :
    tabFind (tabMap t f) k = (tabFind t k).map (f k) := by
  induction t with
  | nil => rfl
  | cons p r ih =>
    obtain ⟨j, b⟩ := p
    simp only [tabMap] at ih
    by_cases h : j = k
    · subst h; simp [tabMap, tabFind]
    · simp [tabMap, tabFind, h, ih]

end Sys2Proof.Machine
end

