-- ==== Sys2Proof/Laws/Memory.lean ====
section
/-!
SUPPORT. Laws of the byte memory: a byte written is read back, every other byte stays, and the canonical form is kept.
-/

namespace Sys2Proof.Machine

/-- A byte written is read back. -/
@[simp] theorem memGet_memSet_self (m : List Host.Cell) (a : Nat) (b : Byte) : memGet (memSet m a b) a = b := by
  unfold memSet
  split
  · next h => subst h; simp [memGet, tabGet]
  · simp [memGet]

/-- Every other byte stays. -/
theorem memGet_memSet_other (m : List Host.Cell) (a c : Nat) (b : Byte) (h : c ≠ a) :
    memGet (memSet m a b) c = memGet m c := by
  unfold memSet
  split
  · simp [memGet, tabGet_tabDel_other m a c _ h]
  · simp [memGet, tabGet_tabPut_other m a c _ _ h]

/-- Bytes outside a run that is written stay. -/
theorem memGet_memWrite_other (bs : List Byte) (m : List Host.Cell) (a c : Nat) (h : c < a ∨ a + bs.length ≤ c) :
    memGet (memWrite m a bs) c = memGet m c := by
  induction bs generalizing m a with
  | nil => rfl
  | cons b r ih =>
    simp only [List.length_cons] at h
    rw [memWrite, ih _ _ (by omega), memGet_memSet_other _ _ _ _ (by omega)]

/-- Byte `i` of a run that is written is read back. -/
theorem memGet_memWrite_self (bs : List Byte) (m : List Host.Cell) (a i : Nat) (h : i < bs.length) :
    memGet (memWrite m a bs) (a + i) = bs.getD i 0 := by
  induction bs generalizing m a i with
  | nil => simp at h
  | cons b r ih =>
    cases i with
    | zero => rw [memWrite, memGet_memWrite_other _ _ _ _ (by omega)]; simp
    | succ i =>
      simp only [List.length_cons] at h
      have := ih (memSet m a b) (a + 1) i (by omega)
      rw [memWrite, show a + (i + 1) = a + 1 + i by omega, this]
      simp

/-- The first key of a canonical memory lies behind `a`, or there is none. -/
def headAbove (a : Nat) : List Host.Cell → Prop
  | [] => True
  | c :: _ => a < c.1

/-- The canonical form of a list with one more cell in front. -/
theorem Memory.wf_cons (c : Host.Cell) (r : List Host.Cell) :
    Memory.wf (c :: r) = true ↔ c.2 ≠ 0 ∧ headAbove c.1 r ∧ Memory.wf r = true := by
  cases r with
  | nil => simp [Memory.wf, headAbove]
  | cons d r => simp [Memory.wf, headAbove, and_assoc]

/-- In a canonical memory every key of the rest lies behind the first. -/
theorem Memory.wf_above (r : List Host.Cell) (a : Nat) (h : headAbove a r) (w : Memory.wf r = true) :
    ∀ c ∈ r, a < c.1 := by
  induction r generalizing a with
  | nil => simp
  | cons d r ih =>
    have hd := (Memory.wf_cons d r).1 w
    intro c hc
    rcases List.mem_cons.1 hc with rfl | hc
    · exact h
    · have h1 := ih d.1 hd.2.1 hd.2.2 c hc
      have h2 : a < d.1 := h
      omega

/-- Cells taken out of a canonical memory leave it canonical. -/
theorem Memory.wf_filter (m : List Host.Cell) (p : Host.Cell → Bool) (w : Memory.wf m = true) :
    Memory.wf (m.filter p) = true := by
  induction m with
  | nil => rfl
  | cons c r ih =>
    have hc := (Memory.wf_cons c r).1 w
    have hr := ih hc.2.2
    by_cases hp : p c = true
    · rw [List.filter_cons_of_pos hp, Memory.wf_cons]
      refine ⟨hc.1, ?_, hr⟩
      have hall := Memory.wf_above r c.1 hc.2.1 hc.2.2
      cases hf : r.filter p with
      | nil => trivial
      | cons d t =>
        have : d ∈ r := (List.mem_filter.1 (by rw [hf]; simp : d ∈ r.filter p)).1
        exact hall d this
    · rw [List.filter_cons_of_neg hp]
      exact hr

/-- A cell that holds something other than the unlisted byte, put into a canonical memory, leaves it canonical. -/
theorem Memory.wf_tabPut (m : List Host.Cell) (a : Nat) (b : Byte) (hb : b ≠ 0) (w : Memory.wf m = true) :
    Memory.wf (tabPut m a b) = true ∧ ∀ k, k < a → headAbove k m → headAbove k (tabPut m a b) := by
  induction m with
  | nil => exact ⟨by simpa [tabPut, Memory.wf] using hb, fun k hk _ => hk⟩
  | cons c r ih =>
    have hc := (Memory.wf_cons c r).1 w
    obtain ⟨j, d⟩ := c
    unfold tabPut
    split
    · next h =>
      subst h
      exact ⟨(Memory.wf_cons _ _).2 ⟨hb, hc.2.1, hc.2.2⟩, fun k hk _ => hk⟩
    · split
      · next h1 h2 => exact ⟨(Memory.wf_cons _ _).2 ⟨hb, h2, w⟩, fun k hk _ => hk⟩
      · next h1 h2 =>
        have hr := ih hc.2.2
        have hj : j < a := by omega
        exact ⟨(Memory.wf_cons _ _).2 ⟨hc.1, hr.2 j hj hc.2.1, hr.1⟩, fun k _ hk => hk⟩

/-- A byte written keeps the canonical form. -/
theorem Memory.wf_memSet (m : List Host.Cell) (a : Nat) (b : Byte) (w : Memory.wf m = true) :
    Memory.wf (memSet m a b) = true := by
  unfold memSet
  split
  · exact Memory.wf_filter m _ w
  · next h => exact (Memory.wf_tabPut m a b h w).1

/-- A run of bytes written keeps the canonical form. -/
theorem Memory.wf_memWrite (bs : List Byte) (m : List Host.Cell) (a : Nat) (w : Memory.wf m = true) :
    Memory.wf (memWrite m a bs) = true := by
  induction bs generalizing m a with
  | nil => exact w
  | cons b r ih => exact ih _ _ (Memory.wf_memSet m a b w)

/-- A run of bytes zeroed keeps the canonical form. -/
theorem Memory.wf_memZero (m : List Host.Cell) (a n : Nat) (w : Memory.wf m = true) :
    Memory.wf (memZero m a n) = true := Memory.wf_filter m _ w

/-- The bytes of a run read as 0 after it is zeroed. -/
theorem memGet_memZero_inside (m : List Host.Cell) (a n c : Nat) (h : a ≤ c ∧ c < a + n) : memGet (memZero m a n) c = 0 := by
  have : tabFind (memZero m a n) c = none := by
    induction m with
    | nil => rfl
    | cons p r ih =>
      obtain ⟨j, b⟩ := p
      unfold memZero at ih ⊢
      by_cases hj : (!(decide (a ≤ j) && decide (j < a + n))) = true
      · rw [List.filter_cons_of_pos (by simpa using hj)]
        have : j ≠ c := by
          rintro rfl
          simp [h.1, h.2] at hj
        simpa [tabFind, this] using ih
      · rw [List.filter_cons_of_neg (by simpa using hj)]
        exact ih
  simp [memGet, tabGet, this, Memory.unlisted]

/-- Bytes outside a run that is zeroed stay. -/
theorem memGet_memZero_outside (m : List Host.Cell) (a n c : Nat) (h : ¬(a ≤ c ∧ c < a + n)) :
    memGet (memZero m a n) c = memGet m c := by
  have : tabFind (memZero m a n) c = tabFind m c := by
    induction m with
    | nil => rfl
    | cons p r ih =>
      obtain ⟨j, b⟩ := p
      unfold memZero at ih ⊢
      by_cases hj : (!(decide (a ≤ j) && decide (j < a + n))) = true
      · rw [List.filter_cons_of_pos (by simpa using hj)]
        by_cases e : j = c
        · simp [tabFind, e]
        · simpa [tabFind, e] using ih
      · rw [List.filter_cons_of_neg (by simpa using hj)]
        have : j ≠ c := by
          rintro rfl
          simp at hj
          exact h hj
        simpa [tabFind, this] using ih
  simp [memGet, tabGet, this]

/-- Bytes written through the state keep its memory canonical. -/
theorem State.putBytes_wf (s : State) (a : Nat) (bs : List Byte) (w : Memory.wf s.mem = true) :
    Memory.wf (s.putBytes a bs).mem = true := Memory.wf_memWrite bs s.mem a w

end Sys2Proof.Machine
end

