-- ==== Sys2Proof/Laws/State.lean ====
section
/-!
SUPPORT. The small laws of the state: what each update of a unit, a register or the model's own scheduling data leaves as it
was, one lemma per field per update, and what a unit reads as after its update.
-/

namespace Sys2Proof.Machine


@[simp] theorem State.modGroup_clk (s : State) (g : Nat) (f : Group → Group) : (s.modGroup g f).clk = s.clk := rfl
@[simp] theorem State.modGroup_mem (s : State) (g : Nat) (f : Group → Group) : (s.modGroup g f).mem = s.mem := rfl
@[simp] theorem State.modGroup_poison (s : State) (g : Nat) (f : Group → Group) : (s.modGroup g f).poison = s.poison := rfl
@[simp] theorem State.modGroup_poisonFrames (s : State) (g : Nat) (f : Group → Group) : (s.modGroup g f).poisonFrames = s.poisonFrames := rfl
@[simp] theorem State.modGroup_threads (s : State) (g : Nat) (f : Group → Group) : (s.modGroup g f).threads = s.threads := rfl
@[simp] theorem State.modGroup_wgs (s : State) (g : Nat) (f : Group → Group) : (s.modGroup g f).wgs = s.wgs := rfl
@[simp] theorem State.modGroup_cores (s : State) (g : Nat) (f : Group → Group) : (s.modGroup g f).cores = s.cores := rfl
@[simp] theorem State.modGroup_clusters (s : State) (g : Nat) (f : Group → Group) : (s.modGroup g f).clusters = s.clusters := rfl
@[simp] theorem State.modGroup_dies (s : State) (g : Nat) (f : Group → Group) : (s.modGroup g f).dies = s.dies := rfl
@[simp] theorem State.modGroup_stations (s : State) (g : Nat) (f : Group → Group) : (s.modGroup g f).stations = s.stations := rfl
@[simp] theorem State.modGroup_accesses (s : State) (g : Nat) (f : Group → Group) : (s.modGroup g f).accesses = s.accesses := rfl
@[simp] theorem State.modGroup_requests (s : State) (g : Nat) (f : Group → Group) : (s.modGroup g f).requests = s.requests := rfl
@[simp] theorem State.modGroup_fetches (s : State) (g : Nat) (f : Group → Group) : (s.modGroup g f).fetches = s.fetches := rfl
@[simp] theorem State.modGroup_engines (s : State) (g : Nat) (f : Group → Group) : (s.modGroup g f).engines = s.engines := rfl
@[simp] theorem State.modGroup_faults (s : State) (g : Nat) (f : Group → Group) : (s.modGroup g f).faults = s.faults := rfl
@[simp] theorem State.modGroup_nextId (s : State) (g : Nat) (f : Group → Group) : (s.modGroup g f).nextId = s.nextId := rfl
@[simp] theorem State.modGroup_nextToken (s : State) (g : Nat) (f : Group → Group) : (s.modGroup g f).nextToken = s.nextToken := rfl
@[simp] theorem State.modGroup_ranges (s : State) (g : Nat) (f : Group → Group) : (s.modGroup g f).ranges = s.ranges := rfl
@[simp] theorem State.modGroup_allocs (s : State) (g : Nat) (f : Group → Group) : (s.modGroup g f).allocs = s.allocs := rfl
@[simp] theorem State.modGroup_monarch (s : State) (g : Nat) (f : Group → Group) : (s.modGroup g f).monarch = s.monarch := rfl
@[simp] theorem State.modGroup_mgmt (s : State) (g : Nat) (f : Group → Group) : (s.modGroup g f).mgmt = s.mgmt := rfl
@[simp] theorem State.modGroup_fabric (s : State) (g : Nat) (f : Group → Group) : (s.modGroup g f).fabric = s.fabric := rfl
@[simp] theorem State.modGroup_due (s : State) (g : Nat) (f : Group → Group) : (s.modGroup g f).due = s.due := rfl
@[simp] theorem State.modGroup_agenda (s : State) (g : Nat) (f : Group → Group) : (s.modGroup g f).agenda = s.agenda := rfl
@[simp] theorem State.modGroup_turn (s : State) (g : Nat) (f : Group → Group) : (s.modGroup g f).turn = s.turn := rfl
@[simp] theorem State.modGroup_cur (s : State) (g : Nat) (f : Group → Group) : (s.modGroup g f).cur = s.cur := rfl
@[simp] theorem State.modGroup_behind (s : State) (g : Nat) (f : Group → Group) : (s.modGroup g f).behind = s.behind := rfl
@[simp] theorem State.modGroup_free (s : State) (g : Nat) (f : Group → Group) : (s.modGroup g f).free = s.free := rfl

@[simp] theorem State.modSplit_clk (s : State) (g k : Nat) (f : Split → Split) : (s.modSplit g k f).clk = s.clk := rfl
@[simp] theorem State.modSplit_mem (s : State) (g k : Nat) (f : Split → Split) : (s.modSplit g k f).mem = s.mem := rfl
@[simp] theorem State.modSplit_poison (s : State) (g k : Nat) (f : Split → Split) : (s.modSplit g k f).poison = s.poison := rfl
@[simp] theorem State.modSplit_poisonFrames (s : State) (g k : Nat) (f : Split → Split) : (s.modSplit g k f).poisonFrames = s.poisonFrames := rfl
@[simp] theorem State.modSplit_threads (s : State) (g k : Nat) (f : Split → Split) : (s.modSplit g k f).threads = s.threads := rfl
@[simp] theorem State.modSplit_wgs (s : State) (g k : Nat) (f : Split → Split) : (s.modSplit g k f).wgs = s.wgs := rfl
@[simp] theorem State.modSplit_cores (s : State) (g k : Nat) (f : Split → Split) : (s.modSplit g k f).cores = s.cores := rfl
@[simp] theorem State.modSplit_clusters (s : State) (g k : Nat) (f : Split → Split) : (s.modSplit g k f).clusters = s.clusters := rfl
@[simp] theorem State.modSplit_dies (s : State) (g k : Nat) (f : Split → Split) : (s.modSplit g k f).dies = s.dies := rfl
@[simp] theorem State.modSplit_stations (s : State) (g k : Nat) (f : Split → Split) : (s.modSplit g k f).stations = s.stations := rfl
@[simp] theorem State.modSplit_accesses (s : State) (g k : Nat) (f : Split → Split) : (s.modSplit g k f).accesses = s.accesses := rfl
@[simp] theorem State.modSplit_requests (s : State) (g k : Nat) (f : Split → Split) : (s.modSplit g k f).requests = s.requests := rfl
@[simp] theorem State.modSplit_fetches (s : State) (g k : Nat) (f : Split → Split) : (s.modSplit g k f).fetches = s.fetches := rfl
@[simp] theorem State.modSplit_engines (s : State) (g k : Nat) (f : Split → Split) : (s.modSplit g k f).engines = s.engines := rfl
@[simp] theorem State.modSplit_faults (s : State) (g k : Nat) (f : Split → Split) : (s.modSplit g k f).faults = s.faults := rfl
@[simp] theorem State.modSplit_nextId (s : State) (g k : Nat) (f : Split → Split) : (s.modSplit g k f).nextId = s.nextId := rfl
@[simp] theorem State.modSplit_nextToken (s : State) (g k : Nat) (f : Split → Split) : (s.modSplit g k f).nextToken = s.nextToken := rfl
@[simp] theorem State.modSplit_ranges (s : State) (g k : Nat) (f : Split → Split) : (s.modSplit g k f).ranges = s.ranges := rfl
@[simp] theorem State.modSplit_allocs (s : State) (g k : Nat) (f : Split → Split) : (s.modSplit g k f).allocs = s.allocs := rfl
@[simp] theorem State.modSplit_monarch (s : State) (g k : Nat) (f : Split → Split) : (s.modSplit g k f).monarch = s.monarch := rfl
@[simp] theorem State.modSplit_mgmt (s : State) (g k : Nat) (f : Split → Split) : (s.modSplit g k f).mgmt = s.mgmt := rfl
@[simp] theorem State.modSplit_fabric (s : State) (g k : Nat) (f : Split → Split) : (s.modSplit g k f).fabric = s.fabric := rfl
@[simp] theorem State.modSplit_due (s : State) (g k : Nat) (f : Split → Split) : (s.modSplit g k f).due = s.due := rfl
@[simp] theorem State.modSplit_agenda (s : State) (g k : Nat) (f : Split → Split) : (s.modSplit g k f).agenda = s.agenda := rfl
@[simp] theorem State.modSplit_turn (s : State) (g k : Nat) (f : Split → Split) : (s.modSplit g k f).turn = s.turn := rfl
@[simp] theorem State.modSplit_cur (s : State) (g k : Nat) (f : Split → Split) : (s.modSplit g k f).cur = s.cur := rfl
@[simp] theorem State.modSplit_behind (s : State) (g k : Nat) (f : Split → Split) : (s.modSplit g k f).behind = s.behind := rfl
@[simp] theorem State.modSplit_free (s : State) (g k : Nat) (f : Split → Split) : (s.modSplit g k f).free = s.free := rfl

@[simp] theorem State.modThread_clk (s : State) (t : Nat) (f : Thread → Thread) : (s.modThread t f).clk = s.clk := rfl
@[simp] theorem State.modThread_mem (s : State) (t : Nat) (f : Thread → Thread) : (s.modThread t f).mem = s.mem := rfl
@[simp] theorem State.modThread_poison (s : State) (t : Nat) (f : Thread → Thread) : (s.modThread t f).poison = s.poison := rfl
@[simp] theorem State.modThread_poisonFrames (s : State) (t : Nat) (f : Thread → Thread) : (s.modThread t f).poisonFrames = s.poisonFrames := rfl
@[simp] theorem State.modThread_groups (s : State) (t : Nat) (f : Thread → Thread) : (s.modThread t f).groups = s.groups := rfl
@[simp] theorem State.modThread_wgs (s : State) (t : Nat) (f : Thread → Thread) : (s.modThread t f).wgs = s.wgs := rfl
@[simp] theorem State.modThread_cores (s : State) (t : Nat) (f : Thread → Thread) : (s.modThread t f).cores = s.cores := rfl
@[simp] theorem State.modThread_clusters (s : State) (t : Nat) (f : Thread → Thread) : (s.modThread t f).clusters = s.clusters := rfl
@[simp] theorem State.modThread_dies (s : State) (t : Nat) (f : Thread → Thread) : (s.modThread t f).dies = s.dies := rfl
@[simp] theorem State.modThread_stations (s : State) (t : Nat) (f : Thread → Thread) : (s.modThread t f).stations = s.stations := rfl
@[simp] theorem State.modThread_accesses (s : State) (t : Nat) (f : Thread → Thread) : (s.modThread t f).accesses = s.accesses := rfl
@[simp] theorem State.modThread_requests (s : State) (t : Nat) (f : Thread → Thread) : (s.modThread t f).requests = s.requests := rfl
@[simp] theorem State.modThread_fetches (s : State) (t : Nat) (f : Thread → Thread) : (s.modThread t f).fetches = s.fetches := rfl
@[simp] theorem State.modThread_engines (s : State) (t : Nat) (f : Thread → Thread) : (s.modThread t f).engines = s.engines := rfl
@[simp] theorem State.modThread_faults (s : State) (t : Nat) (f : Thread → Thread) : (s.modThread t f).faults = s.faults := rfl
@[simp] theorem State.modThread_nextId (s : State) (t : Nat) (f : Thread → Thread) : (s.modThread t f).nextId = s.nextId := rfl
@[simp] theorem State.modThread_nextToken (s : State) (t : Nat) (f : Thread → Thread) : (s.modThread t f).nextToken = s.nextToken := rfl
@[simp] theorem State.modThread_ranges (s : State) (t : Nat) (f : Thread → Thread) : (s.modThread t f).ranges = s.ranges := rfl
@[simp] theorem State.modThread_allocs (s : State) (t : Nat) (f : Thread → Thread) : (s.modThread t f).allocs = s.allocs := rfl
@[simp] theorem State.modThread_monarch (s : State) (t : Nat) (f : Thread → Thread) : (s.modThread t f).monarch = s.monarch := rfl
@[simp] theorem State.modThread_mgmt (s : State) (t : Nat) (f : Thread → Thread) : (s.modThread t f).mgmt = s.mgmt := rfl
@[simp] theorem State.modThread_fabric (s : State) (t : Nat) (f : Thread → Thread) : (s.modThread t f).fabric = s.fabric := rfl
@[simp] theorem State.modThread_due (s : State) (t : Nat) (f : Thread → Thread) : (s.modThread t f).due = s.due := rfl
@[simp] theorem State.modThread_agenda (s : State) (t : Nat) (f : Thread → Thread) : (s.modThread t f).agenda = s.agenda := rfl
@[simp] theorem State.modThread_turn (s : State) (t : Nat) (f : Thread → Thread) : (s.modThread t f).turn = s.turn := rfl
@[simp] theorem State.modThread_cur (s : State) (t : Nat) (f : Thread → Thread) : (s.modThread t f).cur = s.cur := rfl
@[simp] theorem State.modThread_behind (s : State) (t : Nat) (f : Thread → Thread) : (s.modThread t f).behind = s.behind := rfl
@[simp] theorem State.modThread_free (s : State) (t : Nat) (f : Thread → Thread) : (s.modThread t f).free = s.free := rfl

@[simp] theorem State.modCore_clk (s : State) (c : Nat) (f : Core → Core) : (s.modCore c f).clk = s.clk := rfl
@[simp] theorem State.modCore_mem (s : State) (c : Nat) (f : Core → Core) : (s.modCore c f).mem = s.mem := rfl
@[simp] theorem State.modCore_poison (s : State) (c : Nat) (f : Core → Core) : (s.modCore c f).poison = s.poison := rfl
@[simp] theorem State.modCore_poisonFrames (s : State) (c : Nat) (f : Core → Core) : (s.modCore c f).poisonFrames = s.poisonFrames := rfl
@[simp] theorem State.modCore_groups (s : State) (c : Nat) (f : Core → Core) : (s.modCore c f).groups = s.groups := rfl
@[simp] theorem State.modCore_threads (s : State) (c : Nat) (f : Core → Core) : (s.modCore c f).threads = s.threads := rfl
@[simp] theorem State.modCore_wgs (s : State) (c : Nat) (f : Core → Core) : (s.modCore c f).wgs = s.wgs := rfl
@[simp] theorem State.modCore_clusters (s : State) (c : Nat) (f : Core → Core) : (s.modCore c f).clusters = s.clusters := rfl
@[simp] theorem State.modCore_dies (s : State) (c : Nat) (f : Core → Core) : (s.modCore c f).dies = s.dies := rfl
@[simp] theorem State.modCore_stations (s : State) (c : Nat) (f : Core → Core) : (s.modCore c f).stations = s.stations := rfl
@[simp] theorem State.modCore_accesses (s : State) (c : Nat) (f : Core → Core) : (s.modCore c f).accesses = s.accesses := rfl
@[simp] theorem State.modCore_requests (s : State) (c : Nat) (f : Core → Core) : (s.modCore c f).requests = s.requests := rfl
@[simp] theorem State.modCore_fetches (s : State) (c : Nat) (f : Core → Core) : (s.modCore c f).fetches = s.fetches := rfl
@[simp] theorem State.modCore_engines (s : State) (c : Nat) (f : Core → Core) : (s.modCore c f).engines = s.engines := rfl
@[simp] theorem State.modCore_faults (s : State) (c : Nat) (f : Core → Core) : (s.modCore c f).faults = s.faults := rfl
@[simp] theorem State.modCore_nextId (s : State) (c : Nat) (f : Core → Core) : (s.modCore c f).nextId = s.nextId := rfl
@[simp] theorem State.modCore_nextToken (s : State) (c : Nat) (f : Core → Core) : (s.modCore c f).nextToken = s.nextToken := rfl
@[simp] theorem State.modCore_ranges (s : State) (c : Nat) (f : Core → Core) : (s.modCore c f).ranges = s.ranges := rfl
@[simp] theorem State.modCore_allocs (s : State) (c : Nat) (f : Core → Core) : (s.modCore c f).allocs = s.allocs := rfl
@[simp] theorem State.modCore_monarch (s : State) (c : Nat) (f : Core → Core) : (s.modCore c f).monarch = s.monarch := rfl
@[simp] theorem State.modCore_mgmt (s : State) (c : Nat) (f : Core → Core) : (s.modCore c f).mgmt = s.mgmt := rfl
@[simp] theorem State.modCore_fabric (s : State) (c : Nat) (f : Core → Core) : (s.modCore c f).fabric = s.fabric := rfl
@[simp] theorem State.modCore_due (s : State) (c : Nat) (f : Core → Core) : (s.modCore c f).due = s.due := rfl
@[simp] theorem State.modCore_agenda (s : State) (c : Nat) (f : Core → Core) : (s.modCore c f).agenda = s.agenda := rfl
@[simp] theorem State.modCore_turn (s : State) (c : Nat) (f : Core → Core) : (s.modCore c f).turn = s.turn := rfl
@[simp] theorem State.modCore_cur (s : State) (c : Nat) (f : Core → Core) : (s.modCore c f).cur = s.cur := rfl
@[simp] theorem State.modCore_behind (s : State) (c : Nat) (f : Core → Core) : (s.modCore c f).behind = s.behind := rfl
@[simp] theorem State.modCore_free (s : State) (c : Nat) (f : Core → Core) : (s.modCore c f).free = s.free := rfl

@[simp] theorem State.modCluster_clk (s : State) (c : Nat) (f : Cluster → Cluster) : (s.modCluster c f).clk = s.clk := rfl
@[simp] theorem State.modCluster_mem (s : State) (c : Nat) (f : Cluster → Cluster) : (s.modCluster c f).mem = s.mem := rfl
@[simp] theorem State.modCluster_poison (s : State) (c : Nat) (f : Cluster → Cluster) : (s.modCluster c f).poison = s.poison := rfl
@[simp] theorem State.modCluster_poisonFrames (s : State) (c : Nat) (f : Cluster → Cluster) : (s.modCluster c f).poisonFrames = s.poisonFrames := rfl
@[simp] theorem State.modCluster_groups (s : State) (c : Nat) (f : Cluster → Cluster) : (s.modCluster c f).groups = s.groups := rfl
@[simp] theorem State.modCluster_threads (s : State) (c : Nat) (f : Cluster → Cluster) : (s.modCluster c f).threads = s.threads := rfl
@[simp] theorem State.modCluster_wgs (s : State) (c : Nat) (f : Cluster → Cluster) : (s.modCluster c f).wgs = s.wgs := rfl
@[simp] theorem State.modCluster_cores (s : State) (c : Nat) (f : Cluster → Cluster) : (s.modCluster c f).cores = s.cores := rfl
@[simp] theorem State.modCluster_dies (s : State) (c : Nat) (f : Cluster → Cluster) : (s.modCluster c f).dies = s.dies := rfl
@[simp] theorem State.modCluster_stations (s : State) (c : Nat) (f : Cluster → Cluster) : (s.modCluster c f).stations = s.stations := rfl
@[simp] theorem State.modCluster_accesses (s : State) (c : Nat) (f : Cluster → Cluster) : (s.modCluster c f).accesses = s.accesses := rfl
@[simp] theorem State.modCluster_requests (s : State) (c : Nat) (f : Cluster → Cluster) : (s.modCluster c f).requests = s.requests := rfl
@[simp] theorem State.modCluster_fetches (s : State) (c : Nat) (f : Cluster → Cluster) : (s.modCluster c f).fetches = s.fetches := rfl
@[simp] theorem State.modCluster_engines (s : State) (c : Nat) (f : Cluster → Cluster) : (s.modCluster c f).engines = s.engines := rfl
@[simp] theorem State.modCluster_faults (s : State) (c : Nat) (f : Cluster → Cluster) : (s.modCluster c f).faults = s.faults := rfl
@[simp] theorem State.modCluster_nextId (s : State) (c : Nat) (f : Cluster → Cluster) : (s.modCluster c f).nextId = s.nextId := rfl
@[simp] theorem State.modCluster_nextToken (s : State) (c : Nat) (f : Cluster → Cluster) : (s.modCluster c f).nextToken = s.nextToken := rfl
@[simp] theorem State.modCluster_ranges (s : State) (c : Nat) (f : Cluster → Cluster) : (s.modCluster c f).ranges = s.ranges := rfl
@[simp] theorem State.modCluster_allocs (s : State) (c : Nat) (f : Cluster → Cluster) : (s.modCluster c f).allocs = s.allocs := rfl
@[simp] theorem State.modCluster_monarch (s : State) (c : Nat) (f : Cluster → Cluster) : (s.modCluster c f).monarch = s.monarch := rfl
@[simp] theorem State.modCluster_mgmt (s : State) (c : Nat) (f : Cluster → Cluster) : (s.modCluster c f).mgmt = s.mgmt := rfl
@[simp] theorem State.modCluster_fabric (s : State) (c : Nat) (f : Cluster → Cluster) : (s.modCluster c f).fabric = s.fabric := rfl
@[simp] theorem State.modCluster_due (s : State) (c : Nat) (f : Cluster → Cluster) : (s.modCluster c f).due = s.due := rfl
@[simp] theorem State.modCluster_agenda (s : State) (c : Nat) (f : Cluster → Cluster) : (s.modCluster c f).agenda = s.agenda := rfl
@[simp] theorem State.modCluster_turn (s : State) (c : Nat) (f : Cluster → Cluster) : (s.modCluster c f).turn = s.turn := rfl
@[simp] theorem State.modCluster_cur (s : State) (c : Nat) (f : Cluster → Cluster) : (s.modCluster c f).cur = s.cur := rfl
@[simp] theorem State.modCluster_behind (s : State) (c : Nat) (f : Cluster → Cluster) : (s.modCluster c f).behind = s.behind := rfl
@[simp] theorem State.modCluster_free (s : State) (c : Nat) (f : Cluster → Cluster) : (s.modCluster c f).free = s.free := rfl

@[simp] theorem State.modDie_clk (s : State) (d : Nat) (f : Die → Die) : (s.modDie d f).clk = s.clk := rfl
@[simp] theorem State.modDie_mem (s : State) (d : Nat) (f : Die → Die) : (s.modDie d f).mem = s.mem := rfl
@[simp] theorem State.modDie_poison (s : State) (d : Nat) (f : Die → Die) : (s.modDie d f).poison = s.poison := rfl
@[simp] theorem State.modDie_poisonFrames (s : State) (d : Nat) (f : Die → Die) : (s.modDie d f).poisonFrames = s.poisonFrames := rfl
@[simp] theorem State.modDie_groups (s : State) (d : Nat) (f : Die → Die) : (s.modDie d f).groups = s.groups := rfl
@[simp] theorem State.modDie_threads (s : State) (d : Nat) (f : Die → Die) : (s.modDie d f).threads = s.threads := rfl
@[simp] theorem State.modDie_wgs (s : State) (d : Nat) (f : Die → Die) : (s.modDie d f).wgs = s.wgs := rfl
@[simp] theorem State.modDie_cores (s : State) (d : Nat) (f : Die → Die) : (s.modDie d f).cores = s.cores := rfl
@[simp] theorem State.modDie_clusters (s : State) (d : Nat) (f : Die → Die) : (s.modDie d f).clusters = s.clusters := rfl
@[simp] theorem State.modDie_stations (s : State) (d : Nat) (f : Die → Die) : (s.modDie d f).stations = s.stations := rfl
@[simp] theorem State.modDie_accesses (s : State) (d : Nat) (f : Die → Die) : (s.modDie d f).accesses = s.accesses := rfl
@[simp] theorem State.modDie_requests (s : State) (d : Nat) (f : Die → Die) : (s.modDie d f).requests = s.requests := rfl
@[simp] theorem State.modDie_fetches (s : State) (d : Nat) (f : Die → Die) : (s.modDie d f).fetches = s.fetches := rfl
@[simp] theorem State.modDie_engines (s : State) (d : Nat) (f : Die → Die) : (s.modDie d f).engines = s.engines := rfl
@[simp] theorem State.modDie_faults (s : State) (d : Nat) (f : Die → Die) : (s.modDie d f).faults = s.faults := rfl
@[simp] theorem State.modDie_nextId (s : State) (d : Nat) (f : Die → Die) : (s.modDie d f).nextId = s.nextId := rfl
@[simp] theorem State.modDie_nextToken (s : State) (d : Nat) (f : Die → Die) : (s.modDie d f).nextToken = s.nextToken := rfl
@[simp] theorem State.modDie_ranges (s : State) (d : Nat) (f : Die → Die) : (s.modDie d f).ranges = s.ranges := rfl
@[simp] theorem State.modDie_allocs (s : State) (d : Nat) (f : Die → Die) : (s.modDie d f).allocs = s.allocs := rfl
@[simp] theorem State.modDie_monarch (s : State) (d : Nat) (f : Die → Die) : (s.modDie d f).monarch = s.monarch := rfl
@[simp] theorem State.modDie_mgmt (s : State) (d : Nat) (f : Die → Die) : (s.modDie d f).mgmt = s.mgmt := rfl
@[simp] theorem State.modDie_fabric (s : State) (d : Nat) (f : Die → Die) : (s.modDie d f).fabric = s.fabric := rfl
@[simp] theorem State.modDie_due (s : State) (d : Nat) (f : Die → Die) : (s.modDie d f).due = s.due := rfl
@[simp] theorem State.modDie_agenda (s : State) (d : Nat) (f : Die → Die) : (s.modDie d f).agenda = s.agenda := rfl
@[simp] theorem State.modDie_turn (s : State) (d : Nat) (f : Die → Die) : (s.modDie d f).turn = s.turn := rfl
@[simp] theorem State.modDie_cur (s : State) (d : Nat) (f : Die → Die) : (s.modDie d f).cur = s.cur := rfl
@[simp] theorem State.modDie_behind (s : State) (d : Nat) (f : Die → Die) : (s.modDie d f).behind = s.behind := rfl
@[simp] theorem State.modDie_free (s : State) (d : Nat) (f : Die → Die) : (s.modDie d f).free = s.free := rfl

@[simp] theorem State.modWg_clk (s : State) (w : Nat) (f : Workgroup → Workgroup) : (s.modWg w f).clk = s.clk := rfl
@[simp] theorem State.modWg_mem (s : State) (w : Nat) (f : Workgroup → Workgroup) : (s.modWg w f).mem = s.mem := rfl
@[simp] theorem State.modWg_poison (s : State) (w : Nat) (f : Workgroup → Workgroup) : (s.modWg w f).poison = s.poison := rfl
@[simp] theorem State.modWg_poisonFrames (s : State) (w : Nat) (f : Workgroup → Workgroup) : (s.modWg w f).poisonFrames = s.poisonFrames := rfl
@[simp] theorem State.modWg_groups (s : State) (w : Nat) (f : Workgroup → Workgroup) : (s.modWg w f).groups = s.groups := rfl
@[simp] theorem State.modWg_threads (s : State) (w : Nat) (f : Workgroup → Workgroup) : (s.modWg w f).threads = s.threads := rfl
@[simp] theorem State.modWg_cores (s : State) (w : Nat) (f : Workgroup → Workgroup) : (s.modWg w f).cores = s.cores := rfl
@[simp] theorem State.modWg_clusters (s : State) (w : Nat) (f : Workgroup → Workgroup) : (s.modWg w f).clusters = s.clusters := rfl
@[simp] theorem State.modWg_dies (s : State) (w : Nat) (f : Workgroup → Workgroup) : (s.modWg w f).dies = s.dies := rfl
@[simp] theorem State.modWg_stations (s : State) (w : Nat) (f : Workgroup → Workgroup) : (s.modWg w f).stations = s.stations := rfl
@[simp] theorem State.modWg_accesses (s : State) (w : Nat) (f : Workgroup → Workgroup) : (s.modWg w f).accesses = s.accesses := rfl
@[simp] theorem State.modWg_requests (s : State) (w : Nat) (f : Workgroup → Workgroup) : (s.modWg w f).requests = s.requests := rfl
@[simp] theorem State.modWg_fetches (s : State) (w : Nat) (f : Workgroup → Workgroup) : (s.modWg w f).fetches = s.fetches := rfl
@[simp] theorem State.modWg_engines (s : State) (w : Nat) (f : Workgroup → Workgroup) : (s.modWg w f).engines = s.engines := rfl
@[simp] theorem State.modWg_faults (s : State) (w : Nat) (f : Workgroup → Workgroup) : (s.modWg w f).faults = s.faults := rfl
@[simp] theorem State.modWg_nextId (s : State) (w : Nat) (f : Workgroup → Workgroup) : (s.modWg w f).nextId = s.nextId := rfl
@[simp] theorem State.modWg_nextToken (s : State) (w : Nat) (f : Workgroup → Workgroup) : (s.modWg w f).nextToken = s.nextToken := rfl
@[simp] theorem State.modWg_ranges (s : State) (w : Nat) (f : Workgroup → Workgroup) : (s.modWg w f).ranges = s.ranges := rfl
@[simp] theorem State.modWg_allocs (s : State) (w : Nat) (f : Workgroup → Workgroup) : (s.modWg w f).allocs = s.allocs := rfl
@[simp] theorem State.modWg_monarch (s : State) (w : Nat) (f : Workgroup → Workgroup) : (s.modWg w f).monarch = s.monarch := rfl
@[simp] theorem State.modWg_mgmt (s : State) (w : Nat) (f : Workgroup → Workgroup) : (s.modWg w f).mgmt = s.mgmt := rfl
@[simp] theorem State.modWg_fabric (s : State) (w : Nat) (f : Workgroup → Workgroup) : (s.modWg w f).fabric = s.fabric := rfl
@[simp] theorem State.modWg_due (s : State) (w : Nat) (f : Workgroup → Workgroup) : (s.modWg w f).due = s.due := rfl
@[simp] theorem State.modWg_agenda (s : State) (w : Nat) (f : Workgroup → Workgroup) : (s.modWg w f).agenda = s.agenda := rfl
@[simp] theorem State.modWg_turn (s : State) (w : Nat) (f : Workgroup → Workgroup) : (s.modWg w f).turn = s.turn := rfl
@[simp] theorem State.modWg_cur (s : State) (w : Nat) (f : Workgroup → Workgroup) : (s.modWg w f).cur = s.cur := rfl
@[simp] theorem State.modWg_behind (s : State) (w : Nat) (f : Workgroup → Workgroup) : (s.modWg w f).behind = s.behind := rfl
@[simp] theorem State.modWg_free (s : State) (w : Nat) (f : Workgroup → Workgroup) : (s.modWg w f).free = s.free := rfl

@[simp] theorem State.modLaunch_clk (s : State) (l : Nat) (f : Launch → Launch) : (s.modLaunch l f).clk = s.clk := rfl
@[simp] theorem State.modLaunch_mem (s : State) (l : Nat) (f : Launch → Launch) : (s.modLaunch l f).mem = s.mem := rfl
@[simp] theorem State.modLaunch_poison (s : State) (l : Nat) (f : Launch → Launch) : (s.modLaunch l f).poison = s.poison := rfl
@[simp] theorem State.modLaunch_poisonFrames (s : State) (l : Nat) (f : Launch → Launch) : (s.modLaunch l f).poisonFrames = s.poisonFrames := rfl
@[simp] theorem State.modLaunch_groups (s : State) (l : Nat) (f : Launch → Launch) : (s.modLaunch l f).groups = s.groups := rfl
@[simp] theorem State.modLaunch_threads (s : State) (l : Nat) (f : Launch → Launch) : (s.modLaunch l f).threads = s.threads := rfl
@[simp] theorem State.modLaunch_wgs (s : State) (l : Nat) (f : Launch → Launch) : (s.modLaunch l f).wgs = s.wgs := rfl
@[simp] theorem State.modLaunch_cores (s : State) (l : Nat) (f : Launch → Launch) : (s.modLaunch l f).cores = s.cores := rfl
@[simp] theorem State.modLaunch_clusters (s : State) (l : Nat) (f : Launch → Launch) : (s.modLaunch l f).clusters = s.clusters := rfl
@[simp] theorem State.modLaunch_dies (s : State) (l : Nat) (f : Launch → Launch) : (s.modLaunch l f).dies = s.dies := rfl
@[simp] theorem State.modLaunch_stations (s : State) (l : Nat) (f : Launch → Launch) : (s.modLaunch l f).stations = s.stations := rfl
@[simp] theorem State.modLaunch_accesses (s : State) (l : Nat) (f : Launch → Launch) : (s.modLaunch l f).accesses = s.accesses := rfl
@[simp] theorem State.modLaunch_requests (s : State) (l : Nat) (f : Launch → Launch) : (s.modLaunch l f).requests = s.requests := rfl
@[simp] theorem State.modLaunch_fetches (s : State) (l : Nat) (f : Launch → Launch) : (s.modLaunch l f).fetches = s.fetches := rfl
@[simp] theorem State.modLaunch_engines (s : State) (l : Nat) (f : Launch → Launch) : (s.modLaunch l f).engines = s.engines := rfl
@[simp] theorem State.modLaunch_faults (s : State) (l : Nat) (f : Launch → Launch) : (s.modLaunch l f).faults = s.faults := rfl
@[simp] theorem State.modLaunch_nextId (s : State) (l : Nat) (f : Launch → Launch) : (s.modLaunch l f).nextId = s.nextId := rfl
@[simp] theorem State.modLaunch_nextToken (s : State) (l : Nat) (f : Launch → Launch) : (s.modLaunch l f).nextToken = s.nextToken := rfl
@[simp] theorem State.modLaunch_ranges (s : State) (l : Nat) (f : Launch → Launch) : (s.modLaunch l f).ranges = s.ranges := rfl
@[simp] theorem State.modLaunch_allocs (s : State) (l : Nat) (f : Launch → Launch) : (s.modLaunch l f).allocs = s.allocs := rfl
@[simp] theorem State.modLaunch_mgmt (s : State) (l : Nat) (f : Launch → Launch) : (s.modLaunch l f).mgmt = s.mgmt := rfl
@[simp] theorem State.modLaunch_fabric (s : State) (l : Nat) (f : Launch → Launch) : (s.modLaunch l f).fabric = s.fabric := rfl
@[simp] theorem State.modLaunch_due (s : State) (l : Nat) (f : Launch → Launch) : (s.modLaunch l f).due = s.due := rfl
@[simp] theorem State.modLaunch_agenda (s : State) (l : Nat) (f : Launch → Launch) : (s.modLaunch l f).agenda = s.agenda := rfl
@[simp] theorem State.modLaunch_turn (s : State) (l : Nat) (f : Launch → Launch) : (s.modLaunch l f).turn = s.turn := rfl
@[simp] theorem State.modLaunch_cur (s : State) (l : Nat) (f : Launch → Launch) : (s.modLaunch l f).cur = s.cur := rfl
@[simp] theorem State.modLaunch_behind (s : State) (l : Nat) (f : Launch → Launch) : (s.modLaunch l f).behind = s.behind := rfl
@[simp] theorem State.modLaunch_free (s : State) (l : Nat) (f : Launch → Launch) : (s.modLaunch l f).free = s.free := rfl

@[simp] theorem State.modStation_clk (s : State) (k : Nat) (f : Station → Station) : (s.modStation k f).clk = s.clk := rfl
@[simp] theorem State.modStation_mem (s : State) (k : Nat) (f : Station → Station) : (s.modStation k f).mem = s.mem := rfl
@[simp] theorem State.modStation_poison (s : State) (k : Nat) (f : Station → Station) : (s.modStation k f).poison = s.poison := rfl
@[simp] theorem State.modStation_poisonFrames (s : State) (k : Nat) (f : Station → Station) : (s.modStation k f).poisonFrames = s.poisonFrames := rfl
@[simp] theorem State.modStation_groups (s : State) (k : Nat) (f : Station → Station) : (s.modStation k f).groups = s.groups := rfl
@[simp] theorem State.modStation_threads (s : State) (k : Nat) (f : Station → Station) : (s.modStation k f).threads = s.threads := rfl
@[simp] theorem State.modStation_wgs (s : State) (k : Nat) (f : Station → Station) : (s.modStation k f).wgs = s.wgs := rfl
@[simp] theorem State.modStation_cores (s : State) (k : Nat) (f : Station → Station) : (s.modStation k f).cores = s.cores := rfl
@[simp] theorem State.modStation_clusters (s : State) (k : Nat) (f : Station → Station) : (s.modStation k f).clusters = s.clusters := rfl
@[simp] theorem State.modStation_dies (s : State) (k : Nat) (f : Station → Station) : (s.modStation k f).dies = s.dies := rfl
@[simp] theorem State.modStation_accesses (s : State) (k : Nat) (f : Station → Station) : (s.modStation k f).accesses = s.accesses := rfl
@[simp] theorem State.modStation_requests (s : State) (k : Nat) (f : Station → Station) : (s.modStation k f).requests = s.requests := rfl
@[simp] theorem State.modStation_fetches (s : State) (k : Nat) (f : Station → Station) : (s.modStation k f).fetches = s.fetches := rfl
@[simp] theorem State.modStation_engines (s : State) (k : Nat) (f : Station → Station) : (s.modStation k f).engines = s.engines := rfl
@[simp] theorem State.modStation_faults (s : State) (k : Nat) (f : Station → Station) : (s.modStation k f).faults = s.faults := rfl
@[simp] theorem State.modStation_nextId (s : State) (k : Nat) (f : Station → Station) : (s.modStation k f).nextId = s.nextId := rfl
@[simp] theorem State.modStation_nextToken (s : State) (k : Nat) (f : Station → Station) : (s.modStation k f).nextToken = s.nextToken := rfl
@[simp] theorem State.modStation_ranges (s : State) (k : Nat) (f : Station → Station) : (s.modStation k f).ranges = s.ranges := rfl
@[simp] theorem State.modStation_allocs (s : State) (k : Nat) (f : Station → Station) : (s.modStation k f).allocs = s.allocs := rfl
@[simp] theorem State.modStation_monarch (s : State) (k : Nat) (f : Station → Station) : (s.modStation k f).monarch = s.monarch := rfl
@[simp] theorem State.modStation_mgmt (s : State) (k : Nat) (f : Station → Station) : (s.modStation k f).mgmt = s.mgmt := rfl
@[simp] theorem State.modStation_fabric (s : State) (k : Nat) (f : Station → Station) : (s.modStation k f).fabric = s.fabric := rfl
@[simp] theorem State.modStation_due (s : State) (k : Nat) (f : Station → Station) : (s.modStation k f).due = s.due := rfl
@[simp] theorem State.modStation_agenda (s : State) (k : Nat) (f : Station → Station) : (s.modStation k f).agenda = s.agenda := rfl
@[simp] theorem State.modStation_turn (s : State) (k : Nat) (f : Station → Station) : (s.modStation k f).turn = s.turn := rfl
@[simp] theorem State.modStation_cur (s : State) (k : Nat) (f : Station → Station) : (s.modStation k f).cur = s.cur := rfl
@[simp] theorem State.modStation_behind (s : State) (k : Nat) (f : Station → Station) : (s.modStation k f).behind = s.behind := rfl
@[simp] theorem State.modStation_free (s : State) (k : Nat) (f : Station → Station) : (s.modStation k f).free = s.free := rfl

@[simp] theorem State.modPort_clk (s : State) (p : Nat) (f : Port → Port) : (s.modPort p f).clk = s.clk := rfl
@[simp] theorem State.modPort_mem (s : State) (p : Nat) (f : Port → Port) : (s.modPort p f).mem = s.mem := rfl
@[simp] theorem State.modPort_poison (s : State) (p : Nat) (f : Port → Port) : (s.modPort p f).poison = s.poison := rfl
@[simp] theorem State.modPort_poisonFrames (s : State) (p : Nat) (f : Port → Port) : (s.modPort p f).poisonFrames = s.poisonFrames := rfl
@[simp] theorem State.modPort_groups (s : State) (p : Nat) (f : Port → Port) : (s.modPort p f).groups = s.groups := rfl
@[simp] theorem State.modPort_threads (s : State) (p : Nat) (f : Port → Port) : (s.modPort p f).threads = s.threads := rfl
@[simp] theorem State.modPort_wgs (s : State) (p : Nat) (f : Port → Port) : (s.modPort p f).wgs = s.wgs := rfl
@[simp] theorem State.modPort_cores (s : State) (p : Nat) (f : Port → Port) : (s.modPort p f).cores = s.cores := rfl
@[simp] theorem State.modPort_clusters (s : State) (p : Nat) (f : Port → Port) : (s.modPort p f).clusters = s.clusters := rfl
@[simp] theorem State.modPort_dies (s : State) (p : Nat) (f : Port → Port) : (s.modPort p f).dies = s.dies := rfl
@[simp] theorem State.modPort_stations (s : State) (p : Nat) (f : Port → Port) : (s.modPort p f).stations = s.stations := rfl
@[simp] theorem State.modPort_accesses (s : State) (p : Nat) (f : Port → Port) : (s.modPort p f).accesses = s.accesses := rfl
@[simp] theorem State.modPort_requests (s : State) (p : Nat) (f : Port → Port) : (s.modPort p f).requests = s.requests := rfl
@[simp] theorem State.modPort_fetches (s : State) (p : Nat) (f : Port → Port) : (s.modPort p f).fetches = s.fetches := rfl
@[simp] theorem State.modPort_engines (s : State) (p : Nat) (f : Port → Port) : (s.modPort p f).engines = s.engines := rfl
@[simp] theorem State.modPort_faults (s : State) (p : Nat) (f : Port → Port) : (s.modPort p f).faults = s.faults := rfl
@[simp] theorem State.modPort_nextId (s : State) (p : Nat) (f : Port → Port) : (s.modPort p f).nextId = s.nextId := rfl
@[simp] theorem State.modPort_nextToken (s : State) (p : Nat) (f : Port → Port) : (s.modPort p f).nextToken = s.nextToken := rfl
@[simp] theorem State.modPort_ranges (s : State) (p : Nat) (f : Port → Port) : (s.modPort p f).ranges = s.ranges := rfl
@[simp] theorem State.modPort_allocs (s : State) (p : Nat) (f : Port → Port) : (s.modPort p f).allocs = s.allocs := rfl
@[simp] theorem State.modPort_monarch (s : State) (p : Nat) (f : Port → Port) : (s.modPort p f).monarch = s.monarch := rfl
@[simp] theorem State.modPort_mgmt (s : State) (p : Nat) (f : Port → Port) : (s.modPort p f).mgmt = s.mgmt := rfl
@[simp] theorem State.modPort_due (s : State) (p : Nat) (f : Port → Port) : (s.modPort p f).due = s.due := rfl
@[simp] theorem State.modPort_agenda (s : State) (p : Nat) (f : Port → Port) : (s.modPort p f).agenda = s.agenda := rfl
@[simp] theorem State.modPort_turn (s : State) (p : Nat) (f : Port → Port) : (s.modPort p f).turn = s.turn := rfl
@[simp] theorem State.modPort_cur (s : State) (p : Nat) (f : Port → Port) : (s.modPort p f).cur = s.cur := rfl
@[simp] theorem State.modPort_behind (s : State) (p : Nat) (f : Port → Port) : (s.modPort p f).behind = s.behind := rfl
@[simp] theorem State.modPort_free (s : State) (p : Nat) (f : Port → Port) : (s.modPort p f).free = s.free := rfl

@[simp] theorem State.modUnit_clk (s : State) (u : Nat) (f : CoreUnit → CoreUnit) : (s.modUnit u f).clk = s.clk := by unfold State.modUnit; split <;> rfl
@[simp] theorem State.modUnit_mem (s : State) (u : Nat) (f : CoreUnit → CoreUnit) : (s.modUnit u f).mem = s.mem := by unfold State.modUnit; split <;> rfl
@[simp] theorem State.modUnit_poison (s : State) (u : Nat) (f : CoreUnit → CoreUnit) : (s.modUnit u f).poison = s.poison := by unfold State.modUnit; split <;> rfl
@[simp] theorem State.modUnit_poisonFrames (s : State) (u : Nat) (f : CoreUnit → CoreUnit) : (s.modUnit u f).poisonFrames = s.poisonFrames := by unfold State.modUnit; split <;> rfl
@[simp] theorem State.modUnit_groups (s : State) (u : Nat) (f : CoreUnit → CoreUnit) : (s.modUnit u f).groups = s.groups := by unfold State.modUnit; split <;> rfl
@[simp] theorem State.modUnit_threads (s : State) (u : Nat) (f : CoreUnit → CoreUnit) : (s.modUnit u f).threads = s.threads := by unfold State.modUnit; split <;> rfl
@[simp] theorem State.modUnit_wgs (s : State) (u : Nat) (f : CoreUnit → CoreUnit) : (s.modUnit u f).wgs = s.wgs := by unfold State.modUnit; split <;> rfl
@[simp] theorem State.modUnit_dies (s : State) (u : Nat) (f : CoreUnit → CoreUnit) : (s.modUnit u f).dies = s.dies := by unfold State.modUnit; split <;> rfl
@[simp] theorem State.modUnit_stations (s : State) (u : Nat) (f : CoreUnit → CoreUnit) : (s.modUnit u f).stations = s.stations := by unfold State.modUnit; split <;> rfl
@[simp] theorem State.modUnit_accesses (s : State) (u : Nat) (f : CoreUnit → CoreUnit) : (s.modUnit u f).accesses = s.accesses := by unfold State.modUnit; split <;> rfl
@[simp] theorem State.modUnit_requests (s : State) (u : Nat) (f : CoreUnit → CoreUnit) : (s.modUnit u f).requests = s.requests := by unfold State.modUnit; split <;> rfl
@[simp] theorem State.modUnit_fetches (s : State) (u : Nat) (f : CoreUnit → CoreUnit) : (s.modUnit u f).fetches = s.fetches := by unfold State.modUnit; split <;> rfl
@[simp] theorem State.modUnit_engines (s : State) (u : Nat) (f : CoreUnit → CoreUnit) : (s.modUnit u f).engines = s.engines := by unfold State.modUnit; split <;> rfl
@[simp] theorem State.modUnit_faults (s : State) (u : Nat) (f : CoreUnit → CoreUnit) : (s.modUnit u f).faults = s.faults := by unfold State.modUnit; split <;> rfl
@[simp] theorem State.modUnit_nextId (s : State) (u : Nat) (f : CoreUnit → CoreUnit) : (s.modUnit u f).nextId = s.nextId := by unfold State.modUnit; split <;> rfl
@[simp] theorem State.modUnit_nextToken (s : State) (u : Nat) (f : CoreUnit → CoreUnit) : (s.modUnit u f).nextToken = s.nextToken := by unfold State.modUnit; split <;> rfl
@[simp] theorem State.modUnit_ranges (s : State) (u : Nat) (f : CoreUnit → CoreUnit) : (s.modUnit u f).ranges = s.ranges := by unfold State.modUnit; split <;> rfl
@[simp] theorem State.modUnit_allocs (s : State) (u : Nat) (f : CoreUnit → CoreUnit) : (s.modUnit u f).allocs = s.allocs := by unfold State.modUnit; split <;> rfl
@[simp] theorem State.modUnit_monarch (s : State) (u : Nat) (f : CoreUnit → CoreUnit) : (s.modUnit u f).monarch = s.monarch := by unfold State.modUnit; split <;> rfl
@[simp] theorem State.modUnit_mgmt (s : State) (u : Nat) (f : CoreUnit → CoreUnit) : (s.modUnit u f).mgmt = s.mgmt := by unfold State.modUnit; split <;> rfl
@[simp] theorem State.modUnit_fabric (s : State) (u : Nat) (f : CoreUnit → CoreUnit) : (s.modUnit u f).fabric = s.fabric := by unfold State.modUnit; split <;> rfl
@[simp] theorem State.modUnit_due (s : State) (u : Nat) (f : CoreUnit → CoreUnit) : (s.modUnit u f).due = s.due := by unfold State.modUnit; split <;> rfl
@[simp] theorem State.modUnit_agenda (s : State) (u : Nat) (f : CoreUnit → CoreUnit) : (s.modUnit u f).agenda = s.agenda := by unfold State.modUnit; split <;> rfl
@[simp] theorem State.modUnit_turn (s : State) (u : Nat) (f : CoreUnit → CoreUnit) : (s.modUnit u f).turn = s.turn := by unfold State.modUnit; split <;> rfl
@[simp] theorem State.modUnit_cur (s : State) (u : Nat) (f : CoreUnit → CoreUnit) : (s.modUnit u f).cur = s.cur := by unfold State.modUnit; split <;> rfl
@[simp] theorem State.modUnit_behind (s : State) (u : Nat) (f : CoreUnit → CoreUnit) : (s.modUnit u f).behind = s.behind := by unfold State.modUnit; split <;> rfl
@[simp] theorem State.modUnit_free (s : State) (u : Nat) (f : CoreUnit → CoreUnit) : (s.modUnit u f).free = s.free := by unfold State.modUnit; split <;> rfl

@[simp] theorem State.modStrand_clk (s : State) (a : Agent) (f : Strand → Strand) : (s.modStrand a f).clk = s.clk := by cases a <;> rfl
@[simp] theorem State.modStrand_mem (s : State) (a : Agent) (f : Strand → Strand) : (s.modStrand a f).mem = s.mem := by cases a <;> rfl
@[simp] theorem State.modStrand_poison (s : State) (a : Agent) (f : Strand → Strand) : (s.modStrand a f).poison = s.poison := by cases a <;> rfl
@[simp] theorem State.modStrand_poisonFrames (s : State) (a : Agent) (f : Strand → Strand) : (s.modStrand a f).poisonFrames = s.poisonFrames := by cases a <;> rfl
@[simp] theorem State.modStrand_wgs (s : State) (a : Agent) (f : Strand → Strand) : (s.modStrand a f).wgs = s.wgs := by cases a <;> rfl
@[simp] theorem State.modStrand_cores (s : State) (a : Agent) (f : Strand → Strand) : (s.modStrand a f).cores = s.cores := by cases a <;> rfl
@[simp] theorem State.modStrand_clusters (s : State) (a : Agent) (f : Strand → Strand) : (s.modStrand a f).clusters = s.clusters := by cases a <;> rfl
@[simp] theorem State.modStrand_dies (s : State) (a : Agent) (f : Strand → Strand) : (s.modStrand a f).dies = s.dies := by cases a <;> rfl
@[simp] theorem State.modStrand_stations (s : State) (a : Agent) (f : Strand → Strand) : (s.modStrand a f).stations = s.stations := by cases a <;> rfl
@[simp] theorem State.modStrand_accesses (s : State) (a : Agent) (f : Strand → Strand) : (s.modStrand a f).accesses = s.accesses := by cases a <;> rfl
@[simp] theorem State.modStrand_requests (s : State) (a : Agent) (f : Strand → Strand) : (s.modStrand a f).requests = s.requests := by cases a <;> rfl
@[simp] theorem State.modStrand_fetches (s : State) (a : Agent) (f : Strand → Strand) : (s.modStrand a f).fetches = s.fetches := by cases a <;> rfl
@[simp] theorem State.modStrand_engines (s : State) (a : Agent) (f : Strand → Strand) : (s.modStrand a f).engines = s.engines := by cases a <;> rfl
@[simp] theorem State.modStrand_faults (s : State) (a : Agent) (f : Strand → Strand) : (s.modStrand a f).faults = s.faults := by cases a <;> rfl
@[simp] theorem State.modStrand_nextId (s : State) (a : Agent) (f : Strand → Strand) : (s.modStrand a f).nextId = s.nextId := by cases a <;> rfl
@[simp] theorem State.modStrand_nextToken (s : State) (a : Agent) (f : Strand → Strand) : (s.modStrand a f).nextToken = s.nextToken := by cases a <;> rfl
@[simp] theorem State.modStrand_ranges (s : State) (a : Agent) (f : Strand → Strand) : (s.modStrand a f).ranges = s.ranges := by cases a <;> rfl
@[simp] theorem State.modStrand_allocs (s : State) (a : Agent) (f : Strand → Strand) : (s.modStrand a f).allocs = s.allocs := by cases a <;> rfl
@[simp] theorem State.modStrand_monarch (s : State) (a : Agent) (f : Strand → Strand) : (s.modStrand a f).monarch = s.monarch := by cases a <;> rfl
@[simp] theorem State.modStrand_mgmt (s : State) (a : Agent) (f : Strand → Strand) : (s.modStrand a f).mgmt = s.mgmt := by cases a <;> rfl
@[simp] theorem State.modStrand_fabric (s : State) (a : Agent) (f : Strand → Strand) : (s.modStrand a f).fabric = s.fabric := by cases a <;> rfl
@[simp] theorem State.modStrand_due (s : State) (a : Agent) (f : Strand → Strand) : (s.modStrand a f).due = s.due := by cases a <;> rfl
@[simp] theorem State.modStrand_agenda (s : State) (a : Agent) (f : Strand → Strand) : (s.modStrand a f).agenda = s.agenda := by cases a <;> rfl
@[simp] theorem State.modStrand_turn (s : State) (a : Agent) (f : Strand → Strand) : (s.modStrand a f).turn = s.turn := by cases a <;> rfl
@[simp] theorem State.modStrand_cur (s : State) (a : Agent) (f : Strand → Strand) : (s.modStrand a f).cur = s.cur := by cases a <;> rfl
@[simp] theorem State.modStrand_behind (s : State) (a : Agent) (f : Strand → Strand) : (s.modStrand a f).behind = s.behind := by cases a <;> rfl
@[simp] theorem State.modStrand_free (s : State) (a : Agent) (f : Strand → Strand) : (s.modStrand a f).free = s.free := by cases a <;> rfl

@[simp] theorem State.sput_clk (s : State) (a : Agent) (r : Nat) (v : Word) : (s.sput a r v).clk = s.clk := by
  unfold State.sput; split
  · rfl
  · cases a
    · dsimp only; split <;> rfl
    · rfl
@[simp] theorem State.sput_mem (s : State) (a : Agent) (r : Nat) (v : Word) : (s.sput a r v).mem = s.mem := by
  unfold State.sput; split
  · rfl
  · cases a
    · dsimp only; split <;> rfl
    · rfl
@[simp] theorem State.sput_poison (s : State) (a : Agent) (r : Nat) (v : Word) : (s.sput a r v).poison = s.poison := by
  unfold State.sput; split
  · rfl
  · cases a
    · dsimp only; split <;> rfl
    · rfl
@[simp] theorem State.sput_poisonFrames (s : State) (a : Agent) (r : Nat) (v : Word) : (s.sput a r v).poisonFrames = s.poisonFrames := by
  unfold State.sput; split
  · rfl
  · cases a
    · dsimp only; split <;> rfl
    · rfl
@[simp] theorem State.sput_wgs (s : State) (a : Agent) (r : Nat) (v : Word) : (s.sput a r v).wgs = s.wgs := by
  unfold State.sput; split
  · rfl
  · cases a
    · dsimp only; split <;> rfl
    · rfl
@[simp] theorem State.sput_cores (s : State) (a : Agent) (r : Nat) (v : Word) : (s.sput a r v).cores = s.cores := by
  unfold State.sput; split
  · rfl
  · cases a
    · dsimp only; split <;> rfl
    · rfl
@[simp] theorem State.sput_clusters (s : State) (a : Agent) (r : Nat) (v : Word) : (s.sput a r v).clusters = s.clusters := by
  unfold State.sput; split
  · rfl
  · cases a
    · dsimp only; split <;> rfl
    · rfl
@[simp] theorem State.sput_dies (s : State) (a : Agent) (r : Nat) (v : Word) : (s.sput a r v).dies = s.dies := by
  unfold State.sput; split
  · rfl
  · cases a
    · dsimp only; split <;> rfl
    · rfl
@[simp] theorem State.sput_stations (s : State) (a : Agent) (r : Nat) (v : Word) : (s.sput a r v).stations = s.stations := by
  unfold State.sput; split
  · rfl
  · cases a
    · dsimp only; split <;> rfl
    · rfl
@[simp] theorem State.sput_accesses (s : State) (a : Agent) (r : Nat) (v : Word) : (s.sput a r v).accesses = s.accesses := by
  unfold State.sput; split
  · rfl
  · cases a
    · dsimp only; split <;> rfl
    · rfl
@[simp] theorem State.sput_requests (s : State) (a : Agent) (r : Nat) (v : Word) : (s.sput a r v).requests = s.requests := by
  unfold State.sput; split
  · rfl
  · cases a
    · dsimp only; split <;> rfl
    · rfl
@[simp] theorem State.sput_fetches (s : State) (a : Agent) (r : Nat) (v : Word) : (s.sput a r v).fetches = s.fetches := by
  unfold State.sput; split
  · rfl
  · cases a
    · dsimp only; split <;> rfl
    · rfl
@[simp] theorem State.sput_engines (s : State) (a : Agent) (r : Nat) (v : Word) : (s.sput a r v).engines = s.engines := by
  unfold State.sput; split
  · rfl
  · cases a
    · dsimp only; split <;> rfl
    · rfl
@[simp] theorem State.sput_faults (s : State) (a : Agent) (r : Nat) (v : Word) : (s.sput a r v).faults = s.faults := by
  unfold State.sput; split
  · rfl
  · cases a
    · dsimp only; split <;> rfl
    · rfl
@[simp] theorem State.sput_nextId (s : State) (a : Agent) (r : Nat) (v : Word) : (s.sput a r v).nextId = s.nextId := by
  unfold State.sput; split
  · rfl
  · cases a
    · dsimp only; split <;> rfl
    · rfl
@[simp] theorem State.sput_nextToken (s : State) (a : Agent) (r : Nat) (v : Word) : (s.sput a r v).nextToken = s.nextToken := by
  unfold State.sput; split
  · rfl
  · cases a
    · dsimp only; split <;> rfl
    · rfl
@[simp] theorem State.sput_ranges (s : State) (a : Agent) (r : Nat) (v : Word) : (s.sput a r v).ranges = s.ranges := by
  unfold State.sput; split
  · rfl
  · cases a
    · dsimp only; split <;> rfl
    · rfl
@[simp] theorem State.sput_allocs (s : State) (a : Agent) (r : Nat) (v : Word) : (s.sput a r v).allocs = s.allocs := by
  unfold State.sput; split
  · rfl
  · cases a
    · dsimp only; split <;> rfl
    · rfl
@[simp] theorem State.sput_monarch (s : State) (a : Agent) (r : Nat) (v : Word) : (s.sput a r v).monarch = s.monarch := by
  unfold State.sput; split
  · rfl
  · cases a
    · dsimp only; split <;> rfl
    · rfl
@[simp] theorem State.sput_mgmt (s : State) (a : Agent) (r : Nat) (v : Word) : (s.sput a r v).mgmt = s.mgmt := by
  unfold State.sput; split
  · rfl
  · cases a
    · dsimp only; split <;> rfl
    · rfl
@[simp] theorem State.sput_fabric (s : State) (a : Agent) (r : Nat) (v : Word) : (s.sput a r v).fabric = s.fabric := by
  unfold State.sput; split
  · rfl
  · cases a
    · dsimp only; split <;> rfl
    · rfl
@[simp] theorem State.sput_due (s : State) (a : Agent) (r : Nat) (v : Word) : (s.sput a r v).due = s.due := by
  unfold State.sput; split
  · rfl
  · cases a
    · dsimp only; split <;> rfl
    · rfl
@[simp] theorem State.sput_agenda (s : State) (a : Agent) (r : Nat) (v : Word) : (s.sput a r v).agenda = s.agenda := by
  unfold State.sput; split
  · rfl
  · cases a
    · dsimp only; split <;> rfl
    · rfl
@[simp] theorem State.sput_turn (s : State) (a : Agent) (r : Nat) (v : Word) : (s.sput a r v).turn = s.turn := by
  unfold State.sput; split
  · rfl
  · cases a
    · dsimp only; split <;> rfl
    · rfl
@[simp] theorem State.sput_cur (s : State) (a : Agent) (r : Nat) (v : Word) : (s.sput a r v).cur = s.cur := by
  unfold State.sput; split
  · rfl
  · cases a
    · dsimp only; split <;> rfl
    · rfl
@[simp] theorem State.sput_behind (s : State) (a : Agent) (r : Nat) (v : Word) : (s.sput a r v).behind = s.behind := by
  unfold State.sput; split
  · rfl
  · cases a
    · dsimp only; split <;> rfl
    · rfl
@[simp] theorem State.sput_free (s : State) (a : Agent) (r : Nat) (v : Word) : (s.sput a r v).free = s.free := by
  unfold State.sput; split
  · rfl
  · cases a
    · dsimp only; split <;> rfl
    · rfl

@[simp] theorem State.vput_clk (s : State) (g r : Nat) (v : List Lane) : (s.vput g r v).clk = s.clk := rfl
@[simp] theorem State.vput_mem (s : State) (g r : Nat) (v : List Lane) : (s.vput g r v).mem = s.mem := rfl
@[simp] theorem State.vput_poison (s : State) (g r : Nat) (v : List Lane) : (s.vput g r v).poison = s.poison := rfl
@[simp] theorem State.vput_poisonFrames (s : State) (g r : Nat) (v : List Lane) : (s.vput g r v).poisonFrames = s.poisonFrames := rfl
@[simp] theorem State.vput_threads (s : State) (g r : Nat) (v : List Lane) : (s.vput g r v).threads = s.threads := rfl
@[simp] theorem State.vput_wgs (s : State) (g r : Nat) (v : List Lane) : (s.vput g r v).wgs = s.wgs := rfl
@[simp] theorem State.vput_cores (s : State) (g r : Nat) (v : List Lane) : (s.vput g r v).cores = s.cores := rfl
@[simp] theorem State.vput_clusters (s : State) (g r : Nat) (v : List Lane) : (s.vput g r v).clusters = s.clusters := rfl
@[simp] theorem State.vput_dies (s : State) (g r : Nat) (v : List Lane) : (s.vput g r v).dies = s.dies := rfl
@[simp] theorem State.vput_stations (s : State) (g r : Nat) (v : List Lane) : (s.vput g r v).stations = s.stations := rfl
@[simp] theorem State.vput_accesses (s : State) (g r : Nat) (v : List Lane) : (s.vput g r v).accesses = s.accesses := rfl
@[simp] theorem State.vput_requests (s : State) (g r : Nat) (v : List Lane) : (s.vput g r v).requests = s.requests := rfl
@[simp] theorem State.vput_fetches (s : State) (g r : Nat) (v : List Lane) : (s.vput g r v).fetches = s.fetches := rfl
@[simp] theorem State.vput_engines (s : State) (g r : Nat) (v : List Lane) : (s.vput g r v).engines = s.engines := rfl
@[simp] theorem State.vput_faults (s : State) (g r : Nat) (v : List Lane) : (s.vput g r v).faults = s.faults := rfl
@[simp] theorem State.vput_nextId (s : State) (g r : Nat) (v : List Lane) : (s.vput g r v).nextId = s.nextId := rfl
@[simp] theorem State.vput_nextToken (s : State) (g r : Nat) (v : List Lane) : (s.vput g r v).nextToken = s.nextToken := rfl
@[simp] theorem State.vput_ranges (s : State) (g r : Nat) (v : List Lane) : (s.vput g r v).ranges = s.ranges := rfl
@[simp] theorem State.vput_allocs (s : State) (g r : Nat) (v : List Lane) : (s.vput g r v).allocs = s.allocs := rfl
@[simp] theorem State.vput_monarch (s : State) (g r : Nat) (v : List Lane) : (s.vput g r v).monarch = s.monarch := rfl
@[simp] theorem State.vput_mgmt (s : State) (g r : Nat) (v : List Lane) : (s.vput g r v).mgmt = s.mgmt := rfl
@[simp] theorem State.vput_fabric (s : State) (g r : Nat) (v : List Lane) : (s.vput g r v).fabric = s.fabric := rfl
@[simp] theorem State.vput_due (s : State) (g r : Nat) (v : List Lane) : (s.vput g r v).due = s.due := rfl
@[simp] theorem State.vput_agenda (s : State) (g r : Nat) (v : List Lane) : (s.vput g r v).agenda = s.agenda := rfl
@[simp] theorem State.vput_turn (s : State) (g r : Nat) (v : List Lane) : (s.vput g r v).turn = s.turn := rfl
@[simp] theorem State.vput_cur (s : State) (g r : Nat) (v : List Lane) : (s.vput g r v).cur = s.cur := rfl
@[simp] theorem State.vput_behind (s : State) (g r : Nat) (v : List Lane) : (s.vput g r v).behind = s.behind := rfl
@[simp] theorem State.vput_free (s : State) (g r : Nat) (v : List Lane) : (s.vput g r v).free = s.free := rfl

@[simp] theorem State.kput_clk (s : State) (g r : Nat) (m : Mask) : (s.kput g r m).clk = s.clk := by unfold State.kput; split <;> rfl
@[simp] theorem State.kput_mem (s : State) (g r : Nat) (m : Mask) : (s.kput g r m).mem = s.mem := by unfold State.kput; split <;> rfl
@[simp] theorem State.kput_poison (s : State) (g r : Nat) (m : Mask) : (s.kput g r m).poison = s.poison := by unfold State.kput; split <;> rfl
@[simp] theorem State.kput_poisonFrames (s : State) (g r : Nat) (m : Mask) : (s.kput g r m).poisonFrames = s.poisonFrames := by unfold State.kput; split <;> rfl
@[simp] theorem State.kput_threads (s : State) (g r : Nat) (m : Mask) : (s.kput g r m).threads = s.threads := by unfold State.kput; split <;> rfl
@[simp] theorem State.kput_wgs (s : State) (g r : Nat) (m : Mask) : (s.kput g r m).wgs = s.wgs := by unfold State.kput; split <;> rfl
@[simp] theorem State.kput_cores (s : State) (g r : Nat) (m : Mask) : (s.kput g r m).cores = s.cores := by unfold State.kput; split <;> rfl
@[simp] theorem State.kput_clusters (s : State) (g r : Nat) (m : Mask) : (s.kput g r m).clusters = s.clusters := by unfold State.kput; split <;> rfl
@[simp] theorem State.kput_dies (s : State) (g r : Nat) (m : Mask) : (s.kput g r m).dies = s.dies := by unfold State.kput; split <;> rfl
@[simp] theorem State.kput_stations (s : State) (g r : Nat) (m : Mask) : (s.kput g r m).stations = s.stations := by unfold State.kput; split <;> rfl
@[simp] theorem State.kput_accesses (s : State) (g r : Nat) (m : Mask) : (s.kput g r m).accesses = s.accesses := by unfold State.kput; split <;> rfl
@[simp] theorem State.kput_requests (s : State) (g r : Nat) (m : Mask) : (s.kput g r m).requests = s.requests := by unfold State.kput; split <;> rfl
@[simp] theorem State.kput_fetches (s : State) (g r : Nat) (m : Mask) : (s.kput g r m).fetches = s.fetches := by unfold State.kput; split <;> rfl
@[simp] theorem State.kput_engines (s : State) (g r : Nat) (m : Mask) : (s.kput g r m).engines = s.engines := by unfold State.kput; split <;> rfl
@[simp] theorem State.kput_faults (s : State) (g r : Nat) (m : Mask) : (s.kput g r m).faults = s.faults := by unfold State.kput; split <;> rfl
@[simp] theorem State.kput_nextId (s : State) (g r : Nat) (m : Mask) : (s.kput g r m).nextId = s.nextId := by unfold State.kput; split <;> rfl
@[simp] theorem State.kput_nextToken (s : State) (g r : Nat) (m : Mask) : (s.kput g r m).nextToken = s.nextToken := by unfold State.kput; split <;> rfl
@[simp] theorem State.kput_ranges (s : State) (g r : Nat) (m : Mask) : (s.kput g r m).ranges = s.ranges := by unfold State.kput; split <;> rfl
@[simp] theorem State.kput_allocs (s : State) (g r : Nat) (m : Mask) : (s.kput g r m).allocs = s.allocs := by unfold State.kput; split <;> rfl
@[simp] theorem State.kput_monarch (s : State) (g r : Nat) (m : Mask) : (s.kput g r m).monarch = s.monarch := by unfold State.kput; split <;> rfl
@[simp] theorem State.kput_mgmt (s : State) (g r : Nat) (m : Mask) : (s.kput g r m).mgmt = s.mgmt := by unfold State.kput; split <;> rfl
@[simp] theorem State.kput_fabric (s : State) (g r : Nat) (m : Mask) : (s.kput g r m).fabric = s.fabric := by unfold State.kput; split <;> rfl
@[simp] theorem State.kput_due (s : State) (g r : Nat) (m : Mask) : (s.kput g r m).due = s.due := by unfold State.kput; split <;> rfl
@[simp] theorem State.kput_agenda (s : State) (g r : Nat) (m : Mask) : (s.kput g r m).agenda = s.agenda := by unfold State.kput; split <;> rfl
@[simp] theorem State.kput_turn (s : State) (g r : Nat) (m : Mask) : (s.kput g r m).turn = s.turn := by unfold State.kput; split <;> rfl
@[simp] theorem State.kput_cur (s : State) (g r : Nat) (m : Mask) : (s.kput g r m).cur = s.cur := by unfold State.kput; split <;> rfl
@[simp] theorem State.kput_behind (s : State) (g r : Nat) (m : Mask) : (s.kput g r m).behind = s.behind := by unfold State.kput; split <;> rfl
@[simp] theorem State.kput_free (s : State) (g r : Nat) (m : Mask) : (s.kput g r m).free = s.free := by unfold State.kput; split <;> rfl

@[simp] theorem State.stput_clk (s : State) (a : Agent) (n : Nat) (w : BitVec 7) : (s.stput a n w).clk = s.clk := by cases a <;> rfl
@[simp] theorem State.stput_mem (s : State) (a : Agent) (n : Nat) (w : BitVec 7) : (s.stput a n w).mem = s.mem := by cases a <;> rfl
@[simp] theorem State.stput_poison (s : State) (a : Agent) (n : Nat) (w : BitVec 7) : (s.stput a n w).poison = s.poison := by cases a <;> rfl
@[simp] theorem State.stput_poisonFrames (s : State) (a : Agent) (n : Nat) (w : BitVec 7) : (s.stput a n w).poisonFrames = s.poisonFrames := by cases a <;> rfl
@[simp] theorem State.stput_wgs (s : State) (a : Agent) (n : Nat) (w : BitVec 7) : (s.stput a n w).wgs = s.wgs := by cases a <;> rfl
@[simp] theorem State.stput_cores (s : State) (a : Agent) (n : Nat) (w : BitVec 7) : (s.stput a n w).cores = s.cores := by cases a <;> rfl
@[simp] theorem State.stput_clusters (s : State) (a : Agent) (n : Nat) (w : BitVec 7) : (s.stput a n w).clusters = s.clusters := by cases a <;> rfl
@[simp] theorem State.stput_dies (s : State) (a : Agent) (n : Nat) (w : BitVec 7) : (s.stput a n w).dies = s.dies := by cases a <;> rfl
@[simp] theorem State.stput_stations (s : State) (a : Agent) (n : Nat) (w : BitVec 7) : (s.stput a n w).stations = s.stations := by cases a <;> rfl
@[simp] theorem State.stput_accesses (s : State) (a : Agent) (n : Nat) (w : BitVec 7) : (s.stput a n w).accesses = s.accesses := by cases a <;> rfl
@[simp] theorem State.stput_requests (s : State) (a : Agent) (n : Nat) (w : BitVec 7) : (s.stput a n w).requests = s.requests := by cases a <;> rfl
@[simp] theorem State.stput_fetches (s : State) (a : Agent) (n : Nat) (w : BitVec 7) : (s.stput a n w).fetches = s.fetches := by cases a <;> rfl
@[simp] theorem State.stput_engines (s : State) (a : Agent) (n : Nat) (w : BitVec 7) : (s.stput a n w).engines = s.engines := by cases a <;> rfl
@[simp] theorem State.stput_faults (s : State) (a : Agent) (n : Nat) (w : BitVec 7) : (s.stput a n w).faults = s.faults := by cases a <;> rfl
@[simp] theorem State.stput_nextId (s : State) (a : Agent) (n : Nat) (w : BitVec 7) : (s.stput a n w).nextId = s.nextId := by cases a <;> rfl
@[simp] theorem State.stput_nextToken (s : State) (a : Agent) (n : Nat) (w : BitVec 7) : (s.stput a n w).nextToken = s.nextToken := by cases a <;> rfl
@[simp] theorem State.stput_ranges (s : State) (a : Agent) (n : Nat) (w : BitVec 7) : (s.stput a n w).ranges = s.ranges := by cases a <;> rfl
@[simp] theorem State.stput_allocs (s : State) (a : Agent) (n : Nat) (w : BitVec 7) : (s.stput a n w).allocs = s.allocs := by cases a <;> rfl
@[simp] theorem State.stput_monarch (s : State) (a : Agent) (n : Nat) (w : BitVec 7) : (s.stput a n w).monarch = s.monarch := by cases a <;> rfl
@[simp] theorem State.stput_mgmt (s : State) (a : Agent) (n : Nat) (w : BitVec 7) : (s.stput a n w).mgmt = s.mgmt := by cases a <;> rfl
@[simp] theorem State.stput_fabric (s : State) (a : Agent) (n : Nat) (w : BitVec 7) : (s.stput a n w).fabric = s.fabric := by cases a <;> rfl
@[simp] theorem State.stput_due (s : State) (a : Agent) (n : Nat) (w : BitVec 7) : (s.stput a n w).due = s.due := by cases a <;> rfl
@[simp] theorem State.stput_agenda (s : State) (a : Agent) (n : Nat) (w : BitVec 7) : (s.stput a n w).agenda = s.agenda := by cases a <;> rfl
@[simp] theorem State.stput_turn (s : State) (a : Agent) (n : Nat) (w : BitVec 7) : (s.stput a n w).turn = s.turn := by cases a <;> rfl
@[simp] theorem State.stput_cur (s : State) (a : Agent) (n : Nat) (w : BitVec 7) : (s.stput a n w).cur = s.cur := by cases a <;> rfl
@[simp] theorem State.stput_behind (s : State) (a : Agent) (n : Nat) (w : BitVec 7) : (s.stput a n w).behind = s.behind := by cases a <;> rfl
@[simp] theorem State.stput_free (s : State) (a : Agent) (n : Nat) (w : BitVec 7) : (s.stput a n w).free = s.free := by cases a <;> rfl

@[simp] theorem State.setTrap_clk (s : State) (a : Agent) (c p v : Word) : (s.setTrap a c p v).clk = s.clk := by cases a <;> rfl
@[simp] theorem State.setTrap_mem (s : State) (a : Agent) (c p v : Word) : (s.setTrap a c p v).mem = s.mem := by cases a <;> rfl
@[simp] theorem State.setTrap_poison (s : State) (a : Agent) (c p v : Word) : (s.setTrap a c p v).poison = s.poison := by cases a <;> rfl
@[simp] theorem State.setTrap_poisonFrames (s : State) (a : Agent) (c p v : Word) : (s.setTrap a c p v).poisonFrames = s.poisonFrames := by cases a <;> rfl
@[simp] theorem State.setTrap_wgs (s : State) (a : Agent) (c p v : Word) : (s.setTrap a c p v).wgs = s.wgs := by cases a <;> rfl
@[simp] theorem State.setTrap_cores (s : State) (a : Agent) (c p v : Word) : (s.setTrap a c p v).cores = s.cores := by cases a <;> rfl
@[simp] theorem State.setTrap_clusters (s : State) (a : Agent) (c p v : Word) : (s.setTrap a c p v).clusters = s.clusters := by cases a <;> rfl
@[simp] theorem State.setTrap_dies (s : State) (a : Agent) (c p v : Word) : (s.setTrap a c p v).dies = s.dies := by cases a <;> rfl
@[simp] theorem State.setTrap_stations (s : State) (a : Agent) (c p v : Word) : (s.setTrap a c p v).stations = s.stations := by cases a <;> rfl
@[simp] theorem State.setTrap_accesses (s : State) (a : Agent) (c p v : Word) : (s.setTrap a c p v).accesses = s.accesses := by cases a <;> rfl
@[simp] theorem State.setTrap_requests (s : State) (a : Agent) (c p v : Word) : (s.setTrap a c p v).requests = s.requests := by cases a <;> rfl
@[simp] theorem State.setTrap_fetches (s : State) (a : Agent) (c p v : Word) : (s.setTrap a c p v).fetches = s.fetches := by cases a <;> rfl
@[simp] theorem State.setTrap_engines (s : State) (a : Agent) (c p v : Word) : (s.setTrap a c p v).engines = s.engines := by cases a <;> rfl
@[simp] theorem State.setTrap_faults (s : State) (a : Agent) (c p v : Word) : (s.setTrap a c p v).faults = s.faults := by cases a <;> rfl
@[simp] theorem State.setTrap_nextId (s : State) (a : Agent) (c p v : Word) : (s.setTrap a c p v).nextId = s.nextId := by cases a <;> rfl
@[simp] theorem State.setTrap_nextToken (s : State) (a : Agent) (c p v : Word) : (s.setTrap a c p v).nextToken = s.nextToken := by cases a <;> rfl
@[simp] theorem State.setTrap_ranges (s : State) (a : Agent) (c p v : Word) : (s.setTrap a c p v).ranges = s.ranges := by cases a <;> rfl
@[simp] theorem State.setTrap_allocs (s : State) (a : Agent) (c p v : Word) : (s.setTrap a c p v).allocs = s.allocs := by cases a <;> rfl
@[simp] theorem State.setTrap_monarch (s : State) (a : Agent) (c p v : Word) : (s.setTrap a c p v).monarch = s.monarch := by cases a <;> rfl
@[simp] theorem State.setTrap_mgmt (s : State) (a : Agent) (c p v : Word) : (s.setTrap a c p v).mgmt = s.mgmt := by cases a <;> rfl
@[simp] theorem State.setTrap_fabric (s : State) (a : Agent) (c p v : Word) : (s.setTrap a c p v).fabric = s.fabric := by cases a <;> rfl
@[simp] theorem State.setTrap_due (s : State) (a : Agent) (c p v : Word) : (s.setTrap a c p v).due = s.due := by cases a <;> rfl
@[simp] theorem State.setTrap_agenda (s : State) (a : Agent) (c p v : Word) : (s.setTrap a c p v).agenda = s.agenda := by cases a <;> rfl
@[simp] theorem State.setTrap_turn (s : State) (a : Agent) (c p v : Word) : (s.setTrap a c p v).turn = s.turn := by cases a <;> rfl
@[simp] theorem State.setTrap_cur (s : State) (a : Agent) (c p v : Word) : (s.setTrap a c p v).cur = s.cur := by cases a <;> rfl
@[simp] theorem State.setTrap_behind (s : State) (a : Agent) (c p v : Word) : (s.setTrap a c p v).behind = s.behind := by cases a <;> rfl
@[simp] theorem State.setTrap_free (s : State) (a : Agent) (c p v : Word) : (s.setTrap a c p v).free = s.free := by cases a <;> rfl

@[simp] theorem State.setTview_clk (s : State) (a : Agent) (v : Tab (Nat × Word)) : (s.setTview a v).clk = s.clk := by cases a <;> rfl
@[simp] theorem State.setTview_mem (s : State) (a : Agent) (v : Tab (Nat × Word)) : (s.setTview a v).mem = s.mem := by cases a <;> rfl
@[simp] theorem State.setTview_poison (s : State) (a : Agent) (v : Tab (Nat × Word)) : (s.setTview a v).poison = s.poison := by cases a <;> rfl
@[simp] theorem State.setTview_poisonFrames (s : State) (a : Agent) (v : Tab (Nat × Word)) : (s.setTview a v).poisonFrames = s.poisonFrames := by cases a <;> rfl
@[simp] theorem State.setTview_wgs (s : State) (a : Agent) (v : Tab (Nat × Word)) : (s.setTview a v).wgs = s.wgs := by cases a <;> rfl
@[simp] theorem State.setTview_cores (s : State) (a : Agent) (v : Tab (Nat × Word)) : (s.setTview a v).cores = s.cores := by cases a <;> rfl
@[simp] theorem State.setTview_clusters (s : State) (a : Agent) (v : Tab (Nat × Word)) : (s.setTview a v).clusters = s.clusters := by cases a <;> rfl
@[simp] theorem State.setTview_dies (s : State) (a : Agent) (v : Tab (Nat × Word)) : (s.setTview a v).dies = s.dies := by cases a <;> rfl
@[simp] theorem State.setTview_stations (s : State) (a : Agent) (v : Tab (Nat × Word)) : (s.setTview a v).stations = s.stations := by cases a <;> rfl
@[simp] theorem State.setTview_accesses (s : State) (a : Agent) (v : Tab (Nat × Word)) : (s.setTview a v).accesses = s.accesses := by cases a <;> rfl
@[simp] theorem State.setTview_requests (s : State) (a : Agent) (v : Tab (Nat × Word)) : (s.setTview a v).requests = s.requests := by cases a <;> rfl
@[simp] theorem State.setTview_fetches (s : State) (a : Agent) (v : Tab (Nat × Word)) : (s.setTview a v).fetches = s.fetches := by cases a <;> rfl
@[simp] theorem State.setTview_engines (s : State) (a : Agent) (v : Tab (Nat × Word)) : (s.setTview a v).engines = s.engines := by cases a <;> rfl
@[simp] theorem State.setTview_faults (s : State) (a : Agent) (v : Tab (Nat × Word)) : (s.setTview a v).faults = s.faults := by cases a <;> rfl
@[simp] theorem State.setTview_nextId (s : State) (a : Agent) (v : Tab (Nat × Word)) : (s.setTview a v).nextId = s.nextId := by cases a <;> rfl
@[simp] theorem State.setTview_nextToken (s : State) (a : Agent) (v : Tab (Nat × Word)) : (s.setTview a v).nextToken = s.nextToken := by cases a <;> rfl
@[simp] theorem State.setTview_ranges (s : State) (a : Agent) (v : Tab (Nat × Word)) : (s.setTview a v).ranges = s.ranges := by cases a <;> rfl
@[simp] theorem State.setTview_allocs (s : State) (a : Agent) (v : Tab (Nat × Word)) : (s.setTview a v).allocs = s.allocs := by cases a <;> rfl
@[simp] theorem State.setTview_monarch (s : State) (a : Agent) (v : Tab (Nat × Word)) : (s.setTview a v).monarch = s.monarch := by cases a <;> rfl
@[simp] theorem State.setTview_mgmt (s : State) (a : Agent) (v : Tab (Nat × Word)) : (s.setTview a v).mgmt = s.mgmt := by cases a <;> rfl
@[simp] theorem State.setTview_fabric (s : State) (a : Agent) (v : Tab (Nat × Word)) : (s.setTview a v).fabric = s.fabric := by cases a <;> rfl
@[simp] theorem State.setTview_due (s : State) (a : Agent) (v : Tab (Nat × Word)) : (s.setTview a v).due = s.due := by cases a <;> rfl
@[simp] theorem State.setTview_agenda (s : State) (a : Agent) (v : Tab (Nat × Word)) : (s.setTview a v).agenda = s.agenda := by cases a <;> rfl
@[simp] theorem State.setTview_turn (s : State) (a : Agent) (v : Tab (Nat × Word)) : (s.setTview a v).turn = s.turn := by cases a <;> rfl
@[simp] theorem State.setTview_cur (s : State) (a : Agent) (v : Tab (Nat × Word)) : (s.setTview a v).cur = s.cur := by cases a <;> rfl
@[simp] theorem State.setTview_behind (s : State) (a : Agent) (v : Tab (Nat × Word)) : (s.setTview a v).behind = s.behind := by cases a <;> rfl
@[simp] theorem State.setTview_free (s : State) (a : Agent) (v : Tab (Nat × Word)) : (s.setTview a v).free = s.free := by cases a <;> rfl

@[simp] theorem State.tput_clk (s : State) (a : Agent) (n w : Nat) (v : Word) : (s.tput a n w v).clk = s.clk := by cases a <;> rfl
@[simp] theorem State.tput_mem (s : State) (a : Agent) (n w : Nat) (v : Word) : (s.tput a n w v).mem = s.mem := by cases a <;> rfl
@[simp] theorem State.tput_poison (s : State) (a : Agent) (n w : Nat) (v : Word) : (s.tput a n w v).poison = s.poison := by cases a <;> rfl
@[simp] theorem State.tput_poisonFrames (s : State) (a : Agent) (n w : Nat) (v : Word) : (s.tput a n w v).poisonFrames = s.poisonFrames := by cases a <;> rfl
@[simp] theorem State.tput_wgs (s : State) (a : Agent) (n w : Nat) (v : Word) : (s.tput a n w v).wgs = s.wgs := by cases a <;> rfl
@[simp] theorem State.tput_cores (s : State) (a : Agent) (n w : Nat) (v : Word) : (s.tput a n w v).cores = s.cores := by cases a <;> rfl
@[simp] theorem State.tput_clusters (s : State) (a : Agent) (n w : Nat) (v : Word) : (s.tput a n w v).clusters = s.clusters := by cases a <;> rfl
@[simp] theorem State.tput_dies (s : State) (a : Agent) (n w : Nat) (v : Word) : (s.tput a n w v).dies = s.dies := by cases a <;> rfl
@[simp] theorem State.tput_stations (s : State) (a : Agent) (n w : Nat) (v : Word) : (s.tput a n w v).stations = s.stations := by cases a <;> rfl
@[simp] theorem State.tput_accesses (s : State) (a : Agent) (n w : Nat) (v : Word) : (s.tput a n w v).accesses = s.accesses := by cases a <;> rfl
@[simp] theorem State.tput_requests (s : State) (a : Agent) (n w : Nat) (v : Word) : (s.tput a n w v).requests = s.requests := by cases a <;> rfl
@[simp] theorem State.tput_fetches (s : State) (a : Agent) (n w : Nat) (v : Word) : (s.tput a n w v).fetches = s.fetches := by cases a <;> rfl
@[simp] theorem State.tput_engines (s : State) (a : Agent) (n w : Nat) (v : Word) : (s.tput a n w v).engines = s.engines := by cases a <;> rfl
@[simp] theorem State.tput_faults (s : State) (a : Agent) (n w : Nat) (v : Word) : (s.tput a n w v).faults = s.faults := by cases a <;> rfl
@[simp] theorem State.tput_nextToken (s : State) (a : Agent) (n w : Nat) (v : Word) : (s.tput a n w v).nextToken = s.nextToken := by cases a <;> rfl
@[simp] theorem State.tput_ranges (s : State) (a : Agent) (n w : Nat) (v : Word) : (s.tput a n w v).ranges = s.ranges := by cases a <;> rfl
@[simp] theorem State.tput_allocs (s : State) (a : Agent) (n w : Nat) (v : Word) : (s.tput a n w v).allocs = s.allocs := by cases a <;> rfl
@[simp] theorem State.tput_monarch (s : State) (a : Agent) (n w : Nat) (v : Word) : (s.tput a n w v).monarch = s.monarch := by cases a <;> rfl
@[simp] theorem State.tput_mgmt (s : State) (a : Agent) (n w : Nat) (v : Word) : (s.tput a n w v).mgmt = s.mgmt := by cases a <;> rfl
@[simp] theorem State.tput_fabric (s : State) (a : Agent) (n w : Nat) (v : Word) : (s.tput a n w v).fabric = s.fabric := by cases a <;> rfl
@[simp] theorem State.tput_due (s : State) (a : Agent) (n w : Nat) (v : Word) : (s.tput a n w v).due = s.due := by cases a <;> rfl
@[simp] theorem State.tput_agenda (s : State) (a : Agent) (n w : Nat) (v : Word) : (s.tput a n w v).agenda = s.agenda := by cases a <;> rfl
@[simp] theorem State.tput_turn (s : State) (a : Agent) (n w : Nat) (v : Word) : (s.tput a n w v).turn = s.turn := by cases a <;> rfl
@[simp] theorem State.tput_cur (s : State) (a : Agent) (n w : Nat) (v : Word) : (s.tput a n w v).cur = s.cur := by cases a <;> rfl
@[simp] theorem State.tput_behind (s : State) (a : Agent) (n w : Nat) (v : Word) : (s.tput a n w v).behind = s.behind := by cases a <;> rfl
@[simp] theorem State.tput_free (s : State) (a : Agent) (n w : Nat) (v : Word) : (s.tput a n w v).free = s.free := by cases a <;> rfl

@[simp] theorem State.first_clk (s : State) (i : Instr) : (s.first i).clk = s.clk := rfl
@[simp] theorem State.first_mem (s : State) (i : Instr) : (s.first i).mem = s.mem := rfl
@[simp] theorem State.first_poison (s : State) (i : Instr) : (s.first i).poison = s.poison := rfl
@[simp] theorem State.first_poisonFrames (s : State) (i : Instr) : (s.first i).poisonFrames = s.poisonFrames := rfl
@[simp] theorem State.first_groups (s : State) (i : Instr) : (s.first i).groups = s.groups := rfl
@[simp] theorem State.first_threads (s : State) (i : Instr) : (s.first i).threads = s.threads := rfl
@[simp] theorem State.first_wgs (s : State) (i : Instr) : (s.first i).wgs = s.wgs := rfl
@[simp] theorem State.first_cores (s : State) (i : Instr) : (s.first i).cores = s.cores := rfl
@[simp] theorem State.first_clusters (s : State) (i : Instr) : (s.first i).clusters = s.clusters := rfl
@[simp] theorem State.first_dies (s : State) (i : Instr) : (s.first i).dies = s.dies := rfl
@[simp] theorem State.first_stations (s : State) (i : Instr) : (s.first i).stations = s.stations := rfl
@[simp] theorem State.first_accesses (s : State) (i : Instr) : (s.first i).accesses = s.accesses := rfl
@[simp] theorem State.first_requests (s : State) (i : Instr) : (s.first i).requests = s.requests := rfl
@[simp] theorem State.first_fetches (s : State) (i : Instr) : (s.first i).fetches = s.fetches := rfl
@[simp] theorem State.first_engines (s : State) (i : Instr) : (s.first i).engines = s.engines := rfl
@[simp] theorem State.first_faults (s : State) (i : Instr) : (s.first i).faults = s.faults := rfl
@[simp] theorem State.first_nextId (s : State) (i : Instr) : (s.first i).nextId = s.nextId := rfl
@[simp] theorem State.first_nextToken (s : State) (i : Instr) : (s.first i).nextToken = s.nextToken := rfl
@[simp] theorem State.first_ranges (s : State) (i : Instr) : (s.first i).ranges = s.ranges := rfl
@[simp] theorem State.first_allocs (s : State) (i : Instr) : (s.first i).allocs = s.allocs := rfl
@[simp] theorem State.first_monarch (s : State) (i : Instr) : (s.first i).monarch = s.monarch := rfl
@[simp] theorem State.first_mgmt (s : State) (i : Instr) : (s.first i).mgmt = s.mgmt := rfl
@[simp] theorem State.first_fabric (s : State) (i : Instr) : (s.first i).fabric = s.fabric := rfl
@[simp] theorem State.first_agenda (s : State) (i : Instr) : (s.first i).agenda = s.agenda := rfl
@[simp] theorem State.first_turn (s : State) (i : Instr) : (s.first i).turn = s.turn := rfl
@[simp] theorem State.first_cur (s : State) (i : Instr) : (s.first i).cur = s.cur := rfl
@[simp] theorem State.first_behind (s : State) (i : Instr) : (s.first i).behind = s.behind := rfl
@[simp] theorem State.first_free (s : State) (i : Instr) : (s.first i).free = s.free := rfl

@[simp] theorem State.tPend_clk (s : State) (a : Agent) (new : List Pending) : (s.tPend a new).clk = s.clk := by
  unfold State.tPend; split
  · rfl
  · cases s.wgOf a <;> cases a <;> rfl
@[simp] theorem State.tPend_mem (s : State) (a : Agent) (new : List Pending) : (s.tPend a new).mem = s.mem := by
  unfold State.tPend; split
  · rfl
  · cases s.wgOf a <;> cases a <;> rfl
@[simp] theorem State.tPend_poison (s : State) (a : Agent) (new : List Pending) : (s.tPend a new).poison = s.poison := by
  unfold State.tPend; split
  · rfl
  · cases s.wgOf a <;> cases a <;> rfl
@[simp] theorem State.tPend_poisonFrames (s : State) (a : Agent) (new : List Pending) : (s.tPend a new).poisonFrames = s.poisonFrames := by
  unfold State.tPend; split
  · rfl
  · cases s.wgOf a <;> cases a <;> rfl
@[simp] theorem State.tPend_groups (s : State) (a : Agent) (new : List Pending) : (s.tPend a new).groups = s.groups := by
  unfold State.tPend; split
  · rfl
  · cases s.wgOf a <;> cases a <;> rfl
@[simp] theorem State.tPend_cores (s : State) (a : Agent) (new : List Pending) : (s.tPend a new).cores = s.cores := by
  unfold State.tPend; split
  · rfl
  · cases s.wgOf a <;> cases a <;> rfl
@[simp] theorem State.tPend_clusters (s : State) (a : Agent) (new : List Pending) : (s.tPend a new).clusters = s.clusters := by
  unfold State.tPend; split
  · rfl
  · cases s.wgOf a <;> cases a <;> rfl
@[simp] theorem State.tPend_dies (s : State) (a : Agent) (new : List Pending) : (s.tPend a new).dies = s.dies := by
  unfold State.tPend; split
  · rfl
  · cases s.wgOf a <;> cases a <;> rfl
@[simp] theorem State.tPend_stations (s : State) (a : Agent) (new : List Pending) : (s.tPend a new).stations = s.stations := by
  unfold State.tPend; split
  · rfl
  · cases s.wgOf a <;> cases a <;> rfl
@[simp] theorem State.tPend_accesses (s : State) (a : Agent) (new : List Pending) : (s.tPend a new).accesses = s.accesses := by
  unfold State.tPend; split
  · rfl
  · cases s.wgOf a <;> cases a <;> rfl
@[simp] theorem State.tPend_requests (s : State) (a : Agent) (new : List Pending) : (s.tPend a new).requests = s.requests := by
  unfold State.tPend; split
  · rfl
  · cases s.wgOf a <;> cases a <;> rfl
@[simp] theorem State.tPend_fetches (s : State) (a : Agent) (new : List Pending) : (s.tPend a new).fetches = s.fetches := by
  unfold State.tPend; split
  · rfl
  · cases s.wgOf a <;> cases a <;> rfl
@[simp] theorem State.tPend_engines (s : State) (a : Agent) (new : List Pending) : (s.tPend a new).engines = s.engines := by
  unfold State.tPend; split
  · rfl
  · cases s.wgOf a <;> cases a <;> rfl
@[simp] theorem State.tPend_faults (s : State) (a : Agent) (new : List Pending) : (s.tPend a new).faults = s.faults := by
  unfold State.tPend; split
  · rfl
  · cases s.wgOf a <;> cases a <;> rfl
@[simp] theorem State.tPend_nextId (s : State) (a : Agent) (new : List Pending) : (s.tPend a new).nextId = s.nextId := by
  unfold State.tPend; split
  · rfl
  · cases s.wgOf a <;> cases a <;> rfl
@[simp] theorem State.tPend_nextToken (s : State) (a : Agent) (new : List Pending) : (s.tPend a new).nextToken = s.nextToken := by
  unfold State.tPend; split
  · rfl
  · cases s.wgOf a <;> cases a <;> rfl
@[simp] theorem State.tPend_ranges (s : State) (a : Agent) (new : List Pending) : (s.tPend a new).ranges = s.ranges := by
  unfold State.tPend; split
  · rfl
  · cases s.wgOf a <;> cases a <;> rfl
@[simp] theorem State.tPend_allocs (s : State) (a : Agent) (new : List Pending) : (s.tPend a new).allocs = s.allocs := by
  unfold State.tPend; split
  · rfl
  · cases s.wgOf a <;> cases a <;> rfl
@[simp] theorem State.tPend_monarch (s : State) (a : Agent) (new : List Pending) : (s.tPend a new).monarch = s.monarch := by
  unfold State.tPend; split
  · rfl
  · cases s.wgOf a <;> cases a <;> rfl
@[simp] theorem State.tPend_mgmt (s : State) (a : Agent) (new : List Pending) : (s.tPend a new).mgmt = s.mgmt := by
  unfold State.tPend; split
  · rfl
  · cases s.wgOf a <;> cases a <;> rfl
@[simp] theorem State.tPend_fabric (s : State) (a : Agent) (new : List Pending) : (s.tPend a new).fabric = s.fabric := by
  unfold State.tPend; split
  · rfl
  · cases s.wgOf a <;> cases a <;> rfl
@[simp] theorem State.tPend_due (s : State) (a : Agent) (new : List Pending) : (s.tPend a new).due = s.due := by
  unfold State.tPend; split
  · rfl
  · cases s.wgOf a <;> cases a <;> rfl
@[simp] theorem State.tPend_agenda (s : State) (a : Agent) (new : List Pending) : (s.tPend a new).agenda = s.agenda := by
  unfold State.tPend; split
  · rfl
  · cases s.wgOf a <;> cases a <;> rfl
@[simp] theorem State.tPend_turn (s : State) (a : Agent) (new : List Pending) : (s.tPend a new).turn = s.turn := by
  unfold State.tPend; split
  · rfl
  · cases s.wgOf a <;> cases a <;> rfl
@[simp] theorem State.tPend_cur (s : State) (a : Agent) (new : List Pending) : (s.tPend a new).cur = s.cur := by
  unfold State.tPend; split
  · rfl
  · cases s.wgOf a <;> cases a <;> rfl
@[simp] theorem State.tPend_behind (s : State) (a : Agent) (new : List Pending) : (s.tPend a new).behind = s.behind := by
  unfold State.tPend; split
  · rfl
  · cases s.wgOf a <;> cases a <;> rfl
@[simp] theorem State.tPend_free (s : State) (a : Agent) (new : List Pending) : (s.tPend a new).free = s.free := by
  unfold State.tPend; split
  · rfl
  · cases s.wgOf a <;> cases a <;> rfl

@[simp] theorem State.after_clk (s : State) (a : Agent) (act : After) : (s.after a act).clk = s.clk := rfl
@[simp] theorem State.after_mem (s : State) (a : Agent) (act : After) : (s.after a act).mem = s.mem := rfl
@[simp] theorem State.after_poison (s : State) (a : Agent) (act : After) : (s.after a act).poison = s.poison := rfl
@[simp] theorem State.after_poisonFrames (s : State) (a : Agent) (act : After) : (s.after a act).poisonFrames = s.poisonFrames := rfl
@[simp] theorem State.after_groups (s : State) (a : Agent) (act : After) : (s.after a act).groups = s.groups := rfl
@[simp] theorem State.after_threads (s : State) (a : Agent) (act : After) : (s.after a act).threads = s.threads := rfl
@[simp] theorem State.after_wgs (s : State) (a : Agent) (act : After) : (s.after a act).wgs = s.wgs := rfl
@[simp] theorem State.after_cores (s : State) (a : Agent) (act : After) : (s.after a act).cores = s.cores := rfl
@[simp] theorem State.after_clusters (s : State) (a : Agent) (act : After) : (s.after a act).clusters = s.clusters := rfl
@[simp] theorem State.after_dies (s : State) (a : Agent) (act : After) : (s.after a act).dies = s.dies := rfl
@[simp] theorem State.after_stations (s : State) (a : Agent) (act : After) : (s.after a act).stations = s.stations := rfl
@[simp] theorem State.after_requests (s : State) (a : Agent) (act : After) : (s.after a act).requests = s.requests := rfl
@[simp] theorem State.after_fetches (s : State) (a : Agent) (act : After) : (s.after a act).fetches = s.fetches := rfl
@[simp] theorem State.after_engines (s : State) (a : Agent) (act : After) : (s.after a act).engines = s.engines := rfl
@[simp] theorem State.after_faults (s : State) (a : Agent) (act : After) : (s.after a act).faults = s.faults := rfl
@[simp] theorem State.after_nextToken (s : State) (a : Agent) (act : After) : (s.after a act).nextToken = s.nextToken := rfl
@[simp] theorem State.after_ranges (s : State) (a : Agent) (act : After) : (s.after a act).ranges = s.ranges := rfl
@[simp] theorem State.after_allocs (s : State) (a : Agent) (act : After) : (s.after a act).allocs = s.allocs := rfl
@[simp] theorem State.after_monarch (s : State) (a : Agent) (act : After) : (s.after a act).monarch = s.monarch := rfl
@[simp] theorem State.after_mgmt (s : State) (a : Agent) (act : After) : (s.after a act).mgmt = s.mgmt := rfl
@[simp] theorem State.after_fabric (s : State) (a : Agent) (act : After) : (s.after a act).fabric = s.fabric := rfl
@[simp] theorem State.after_due (s : State) (a : Agent) (act : After) : (s.after a act).due = s.due := rfl
@[simp] theorem State.after_agenda (s : State) (a : Agent) (act : After) : (s.after a act).agenda = s.agenda := rfl
@[simp] theorem State.after_turn (s : State) (a : Agent) (act : After) : (s.after a act).turn = s.turn := rfl
@[simp] theorem State.after_cur (s : State) (a : Agent) (act : After) : (s.after a act).cur = s.cur := rfl
@[simp] theorem State.after_behind (s : State) (a : Agent) (act : After) : (s.after a act).behind = s.behind := rfl
@[simp] theorem State.after_free (s : State) (a : Agent) (act : After) : (s.after a act).free = s.free := rfl

@[simp] theorem State.bput_clk (s : State) (w : Option Nat) (t n : Nat) (b : Bar) : (s.bput w t n b).clk = s.clk := by cases w <;> rfl
@[simp] theorem State.bput_mem (s : State) (w : Option Nat) (t n : Nat) (b : Bar) : (s.bput w t n b).mem = s.mem := by cases w <;> rfl
@[simp] theorem State.bput_poison (s : State) (w : Option Nat) (t n : Nat) (b : Bar) : (s.bput w t n b).poison = s.poison := by cases w <;> rfl
@[simp] theorem State.bput_poisonFrames (s : State) (w : Option Nat) (t n : Nat) (b : Bar) : (s.bput w t n b).poisonFrames = s.poisonFrames := by cases w <;> rfl
@[simp] theorem State.bput_groups (s : State) (w : Option Nat) (t n : Nat) (b : Bar) : (s.bput w t n b).groups = s.groups := by cases w <;> rfl
@[simp] theorem State.bput_cores (s : State) (w : Option Nat) (t n : Nat) (b : Bar) : (s.bput w t n b).cores = s.cores := by cases w <;> rfl
@[simp] theorem State.bput_clusters (s : State) (w : Option Nat) (t n : Nat) (b : Bar) : (s.bput w t n b).clusters = s.clusters := by cases w <;> rfl
@[simp] theorem State.bput_dies (s : State) (w : Option Nat) (t n : Nat) (b : Bar) : (s.bput w t n b).dies = s.dies := by cases w <;> rfl
@[simp] theorem State.bput_stations (s : State) (w : Option Nat) (t n : Nat) (b : Bar) : (s.bput w t n b).stations = s.stations := by cases w <;> rfl
@[simp] theorem State.bput_accesses (s : State) (w : Option Nat) (t n : Nat) (b : Bar) : (s.bput w t n b).accesses = s.accesses := by cases w <;> rfl
@[simp] theorem State.bput_requests (s : State) (w : Option Nat) (t n : Nat) (b : Bar) : (s.bput w t n b).requests = s.requests := by cases w <;> rfl
@[simp] theorem State.bput_fetches (s : State) (w : Option Nat) (t n : Nat) (b : Bar) : (s.bput w t n b).fetches = s.fetches := by cases w <;> rfl
@[simp] theorem State.bput_engines (s : State) (w : Option Nat) (t n : Nat) (b : Bar) : (s.bput w t n b).engines = s.engines := by cases w <;> rfl
@[simp] theorem State.bput_faults (s : State) (w : Option Nat) (t n : Nat) (b : Bar) : (s.bput w t n b).faults = s.faults := by cases w <;> rfl
@[simp] theorem State.bput_nextId (s : State) (w : Option Nat) (t n : Nat) (b : Bar) : (s.bput w t n b).nextId = s.nextId := by cases w <;> rfl
@[simp] theorem State.bput_nextToken (s : State) (w : Option Nat) (t n : Nat) (b : Bar) : (s.bput w t n b).nextToken = s.nextToken := by cases w <;> rfl
@[simp] theorem State.bput_ranges (s : State) (w : Option Nat) (t n : Nat) (b : Bar) : (s.bput w t n b).ranges = s.ranges := by cases w <;> rfl
@[simp] theorem State.bput_allocs (s : State) (w : Option Nat) (t n : Nat) (b : Bar) : (s.bput w t n b).allocs = s.allocs := by cases w <;> rfl
@[simp] theorem State.bput_monarch (s : State) (w : Option Nat) (t n : Nat) (b : Bar) : (s.bput w t n b).monarch = s.monarch := by cases w <;> rfl
@[simp] theorem State.bput_mgmt (s : State) (w : Option Nat) (t n : Nat) (b : Bar) : (s.bput w t n b).mgmt = s.mgmt := by cases w <;> rfl
@[simp] theorem State.bput_fabric (s : State) (w : Option Nat) (t n : Nat) (b : Bar) : (s.bput w t n b).fabric = s.fabric := by cases w <;> rfl
@[simp] theorem State.bput_due (s : State) (w : Option Nat) (t n : Nat) (b : Bar) : (s.bput w t n b).due = s.due := by cases w <;> rfl
@[simp] theorem State.bput_agenda (s : State) (w : Option Nat) (t n : Nat) (b : Bar) : (s.bput w t n b).agenda = s.agenda := by cases w <;> rfl
@[simp] theorem State.bput_turn (s : State) (w : Option Nat) (t n : Nat) (b : Bar) : (s.bput w t n b).turn = s.turn := by cases w <;> rfl
@[simp] theorem State.bput_cur (s : State) (w : Option Nat) (t n : Nat) (b : Bar) : (s.bput w t n b).cur = s.cur := by cases w <;> rfl
@[simp] theorem State.bput_behind (s : State) (w : Option Nat) (t n : Nat) (b : Bar) : (s.bput w t n b).behind = s.behind := by cases w <;> rfl
@[simp] theorem State.bput_free (s : State) (w : Option Nat) (t n : Nat) (b : Bar) : (s.bput w t n b).free = s.free := by cases w <;> rfl

@[simp] theorem State.spend_clk (s : State) : (s.spend).clk = s.clk := rfl
@[simp] theorem State.spend_mem (s : State) : (s.spend).mem = s.mem := rfl
@[simp] theorem State.spend_poison (s : State) : (s.spend).poison = s.poison := rfl
@[simp] theorem State.spend_poisonFrames (s : State) : (s.spend).poisonFrames = s.poisonFrames := rfl
@[simp] theorem State.spend_groups (s : State) : (s.spend).groups = s.groups := rfl
@[simp] theorem State.spend_threads (s : State) : (s.spend).threads = s.threads := rfl
@[simp] theorem State.spend_wgs (s : State) : (s.spend).wgs = s.wgs := rfl
@[simp] theorem State.spend_cores (s : State) : (s.spend).cores = s.cores := rfl
@[simp] theorem State.spend_clusters (s : State) : (s.spend).clusters = s.clusters := rfl
@[simp] theorem State.spend_dies (s : State) : (s.spend).dies = s.dies := rfl
@[simp] theorem State.spend_stations (s : State) : (s.spend).stations = s.stations := rfl
@[simp] theorem State.spend_accesses (s : State) : (s.spend).accesses = s.accesses := rfl
@[simp] theorem State.spend_requests (s : State) : (s.spend).requests = s.requests := rfl
@[simp] theorem State.spend_fetches (s : State) : (s.spend).fetches = s.fetches := rfl
@[simp] theorem State.spend_engines (s : State) : (s.spend).engines = s.engines := rfl
@[simp] theorem State.spend_faults (s : State) : (s.spend).faults = s.faults := rfl
@[simp] theorem State.spend_nextId (s : State) : (s.spend).nextId = s.nextId := rfl
@[simp] theorem State.spend_nextToken (s : State) : (s.spend).nextToken = s.nextToken := rfl
@[simp] theorem State.spend_ranges (s : State) : (s.spend).ranges = s.ranges := rfl
@[simp] theorem State.spend_allocs (s : State) : (s.spend).allocs = s.allocs := rfl
@[simp] theorem State.spend_monarch (s : State) : (s.spend).monarch = s.monarch := rfl
@[simp] theorem State.spend_mgmt (s : State) : (s.spend).mgmt = s.mgmt := rfl
@[simp] theorem State.spend_fabric (s : State) : (s.spend).fabric = s.fabric := rfl
@[simp] theorem State.spend_due (s : State) : (s.spend).due = s.due := rfl
@[simp] theorem State.spend_agenda (s : State) : (s.spend).agenda = s.agenda := rfl
@[simp] theorem State.spend_turn (s : State) : (s.spend).turn = s.turn := rfl
@[simp] theorem State.spend_cur (s : State) : (s.spend).cur = s.cur := rfl
@[simp] theorem State.spend_behind (s : State) : (s.spend).behind = s.behind := rfl

@[simp] theorem State.soon_clk (s : State) (i : Instr) : (s.soon i).clk = s.clk := rfl
@[simp] theorem State.soon_mem (s : State) (i : Instr) : (s.soon i).mem = s.mem := rfl
@[simp] theorem State.soon_poison (s : State) (i : Instr) : (s.soon i).poison = s.poison := rfl
@[simp] theorem State.soon_poisonFrames (s : State) (i : Instr) : (s.soon i).poisonFrames = s.poisonFrames := rfl
@[simp] theorem State.soon_groups (s : State) (i : Instr) : (s.soon i).groups = s.groups := rfl
@[simp] theorem State.soon_threads (s : State) (i : Instr) : (s.soon i).threads = s.threads := rfl
@[simp] theorem State.soon_wgs (s : State) (i : Instr) : (s.soon i).wgs = s.wgs := rfl
@[simp] theorem State.soon_cores (s : State) (i : Instr) : (s.soon i).cores = s.cores := rfl
@[simp] theorem State.soon_clusters (s : State) (i : Instr) : (s.soon i).clusters = s.clusters := rfl
@[simp] theorem State.soon_dies (s : State) (i : Instr) : (s.soon i).dies = s.dies := rfl
@[simp] theorem State.soon_stations (s : State) (i : Instr) : (s.soon i).stations = s.stations := rfl
@[simp] theorem State.soon_accesses (s : State) (i : Instr) : (s.soon i).accesses = s.accesses := rfl
@[simp] theorem State.soon_requests (s : State) (i : Instr) : (s.soon i).requests = s.requests := rfl
@[simp] theorem State.soon_fetches (s : State) (i : Instr) : (s.soon i).fetches = s.fetches := rfl
@[simp] theorem State.soon_engines (s : State) (i : Instr) : (s.soon i).engines = s.engines := rfl
@[simp] theorem State.soon_faults (s : State) (i : Instr) : (s.soon i).faults = s.faults := rfl
@[simp] theorem State.soon_nextId (s : State) (i : Instr) : (s.soon i).nextId = s.nextId := rfl
@[simp] theorem State.soon_nextToken (s : State) (i : Instr) : (s.soon i).nextToken = s.nextToken := rfl
@[simp] theorem State.soon_ranges (s : State) (i : Instr) : (s.soon i).ranges = s.ranges := rfl
@[simp] theorem State.soon_allocs (s : State) (i : Instr) : (s.soon i).allocs = s.allocs := rfl
@[simp] theorem State.soon_monarch (s : State) (i : Instr) : (s.soon i).monarch = s.monarch := rfl
@[simp] theorem State.soon_mgmt (s : State) (i : Instr) : (s.soon i).mgmt = s.mgmt := rfl
@[simp] theorem State.soon_fabric (s : State) (i : Instr) : (s.soon i).fabric = s.fabric := rfl
@[simp] theorem State.soon_agenda (s : State) (i : Instr) : (s.soon i).agenda = s.agenda := rfl
@[simp] theorem State.soon_turn (s : State) (i : Instr) : (s.soon i).turn = s.turn := rfl
@[simp] theorem State.soon_cur (s : State) (i : Instr) : (s.soon i).cur = s.cur := rfl
@[simp] theorem State.soon_behind (s : State) (i : Instr) : (s.soon i).behind = s.behind := rfl
@[simp] theorem State.soon_free (s : State) (i : Instr) : (s.soon i).free = s.free := rfl

@[simp] theorem State.inClk_clk (s : State) (n : Nat) (i : Instr) : (s.inClk n i).clk = s.clk := rfl
@[simp] theorem State.inClk_mem (s : State) (n : Nat) (i : Instr) : (s.inClk n i).mem = s.mem := rfl
@[simp] theorem State.inClk_poison (s : State) (n : Nat) (i : Instr) : (s.inClk n i).poison = s.poison := rfl
@[simp] theorem State.inClk_poisonFrames (s : State) (n : Nat) (i : Instr) : (s.inClk n i).poisonFrames = s.poisonFrames := rfl
@[simp] theorem State.inClk_groups (s : State) (n : Nat) (i : Instr) : (s.inClk n i).groups = s.groups := rfl
@[simp] theorem State.inClk_threads (s : State) (n : Nat) (i : Instr) : (s.inClk n i).threads = s.threads := rfl
@[simp] theorem State.inClk_wgs (s : State) (n : Nat) (i : Instr) : (s.inClk n i).wgs = s.wgs := rfl
@[simp] theorem State.inClk_cores (s : State) (n : Nat) (i : Instr) : (s.inClk n i).cores = s.cores := rfl
@[simp] theorem State.inClk_clusters (s : State) (n : Nat) (i : Instr) : (s.inClk n i).clusters = s.clusters := rfl
@[simp] theorem State.inClk_dies (s : State) (n : Nat) (i : Instr) : (s.inClk n i).dies = s.dies := rfl
@[simp] theorem State.inClk_stations (s : State) (n : Nat) (i : Instr) : (s.inClk n i).stations = s.stations := rfl
@[simp] theorem State.inClk_accesses (s : State) (n : Nat) (i : Instr) : (s.inClk n i).accesses = s.accesses := rfl
@[simp] theorem State.inClk_requests (s : State) (n : Nat) (i : Instr) : (s.inClk n i).requests = s.requests := rfl
@[simp] theorem State.inClk_fetches (s : State) (n : Nat) (i : Instr) : (s.inClk n i).fetches = s.fetches := rfl
@[simp] theorem State.inClk_engines (s : State) (n : Nat) (i : Instr) : (s.inClk n i).engines = s.engines := rfl
@[simp] theorem State.inClk_faults (s : State) (n : Nat) (i : Instr) : (s.inClk n i).faults = s.faults := rfl
@[simp] theorem State.inClk_nextId (s : State) (n : Nat) (i : Instr) : (s.inClk n i).nextId = s.nextId := rfl
@[simp] theorem State.inClk_nextToken (s : State) (n : Nat) (i : Instr) : (s.inClk n i).nextToken = s.nextToken := rfl
@[simp] theorem State.inClk_ranges (s : State) (n : Nat) (i : Instr) : (s.inClk n i).ranges = s.ranges := rfl
@[simp] theorem State.inClk_allocs (s : State) (n : Nat) (i : Instr) : (s.inClk n i).allocs = s.allocs := rfl
@[simp] theorem State.inClk_monarch (s : State) (n : Nat) (i : Instr) : (s.inClk n i).monarch = s.monarch := rfl
@[simp] theorem State.inClk_mgmt (s : State) (n : Nat) (i : Instr) : (s.inClk n i).mgmt = s.mgmt := rfl
@[simp] theorem State.inClk_fabric (s : State) (n : Nat) (i : Instr) : (s.inClk n i).fabric = s.fabric := rfl
@[simp] theorem State.inClk_due (s : State) (n : Nat) (i : Instr) : (s.inClk n i).due = s.due := rfl
@[simp] theorem State.inClk_turn (s : State) (n : Nat) (i : Instr) : (s.inClk n i).turn = s.turn := rfl
@[simp] theorem State.inClk_cur (s : State) (n : Nat) (i : Instr) : (s.inClk n i).cur = s.cur := rfl
@[simp] theorem State.inClk_behind (s : State) (n : Nat) (i : Instr) : (s.inClk n i).behind = s.behind := rfl
@[simp] theorem State.inClk_free (s : State) (n : Nat) (i : Instr) : (s.inClk n i).free = s.free := rfl

@[simp] theorem State.later_clk (s : State) (n : Nat) (i : Instr) : (s.later n i).clk = s.clk := rfl
@[simp] theorem State.later_mem (s : State) (n : Nat) (i : Instr) : (s.later n i).mem = s.mem := rfl
@[simp] theorem State.later_poison (s : State) (n : Nat) (i : Instr) : (s.later n i).poison = s.poison := rfl
@[simp] theorem State.later_poisonFrames (s : State) (n : Nat) (i : Instr) : (s.later n i).poisonFrames = s.poisonFrames := rfl
@[simp] theorem State.later_groups (s : State) (n : Nat) (i : Instr) : (s.later n i).groups = s.groups := rfl
@[simp] theorem State.later_threads (s : State) (n : Nat) (i : Instr) : (s.later n i).threads = s.threads := rfl
@[simp] theorem State.later_wgs (s : State) (n : Nat) (i : Instr) : (s.later n i).wgs = s.wgs := rfl
@[simp] theorem State.later_cores (s : State) (n : Nat) (i : Instr) : (s.later n i).cores = s.cores := rfl
@[simp] theorem State.later_clusters (s : State) (n : Nat) (i : Instr) : (s.later n i).clusters = s.clusters := rfl
@[simp] theorem State.later_dies (s : State) (n : Nat) (i : Instr) : (s.later n i).dies = s.dies := rfl
@[simp] theorem State.later_stations (s : State) (n : Nat) (i : Instr) : (s.later n i).stations = s.stations := rfl
@[simp] theorem State.later_accesses (s : State) (n : Nat) (i : Instr) : (s.later n i).accesses = s.accesses := rfl
@[simp] theorem State.later_requests (s : State) (n : Nat) (i : Instr) : (s.later n i).requests = s.requests := rfl
@[simp] theorem State.later_fetches (s : State) (n : Nat) (i : Instr) : (s.later n i).fetches = s.fetches := rfl
@[simp] theorem State.later_engines (s : State) (n : Nat) (i : Instr) : (s.later n i).engines = s.engines := rfl
@[simp] theorem State.later_faults (s : State) (n : Nat) (i : Instr) : (s.later n i).faults = s.faults := rfl
@[simp] theorem State.later_nextId (s : State) (n : Nat) (i : Instr) : (s.later n i).nextId = s.nextId := rfl
@[simp] theorem State.later_nextToken (s : State) (n : Nat) (i : Instr) : (s.later n i).nextToken = s.nextToken := rfl
@[simp] theorem State.later_ranges (s : State) (n : Nat) (i : Instr) : (s.later n i).ranges = s.ranges := rfl
@[simp] theorem State.later_allocs (s : State) (n : Nat) (i : Instr) : (s.later n i).allocs = s.allocs := rfl
@[simp] theorem State.later_monarch (s : State) (n : Nat) (i : Instr) : (s.later n i).monarch = s.monarch := rfl
@[simp] theorem State.later_mgmt (s : State) (n : Nat) (i : Instr) : (s.later n i).mgmt = s.mgmt := rfl
@[simp] theorem State.later_fabric (s : State) (n : Nat) (i : Instr) : (s.later n i).fabric = s.fabric := rfl
@[simp] theorem State.later_due (s : State) (n : Nat) (i : Instr) : (s.later n i).due = s.due := rfl
@[simp] theorem State.later_turn (s : State) (n : Nat) (i : Instr) : (s.later n i).turn = s.turn := rfl
@[simp] theorem State.later_cur (s : State) (n : Nat) (i : Instr) : (s.later n i).cur = s.cur := rfl
@[simp] theorem State.later_behind (s : State) (n : Nat) (i : Instr) : (s.later n i).behind = s.behind := rfl

@[simp] theorem State.block_clk (s : State) (a : Agent) (c : Cause) : (s.block a c).clk = s.clk := by cases a <;> rfl
@[simp] theorem State.block_mem (s : State) (a : Agent) (c : Cause) : (s.block a c).mem = s.mem := by cases a <;> rfl
@[simp] theorem State.block_poison (s : State) (a : Agent) (c : Cause) : (s.block a c).poison = s.poison := by cases a <;> rfl
@[simp] theorem State.block_poisonFrames (s : State) (a : Agent) (c : Cause) : (s.block a c).poisonFrames = s.poisonFrames := by cases a <;> rfl
@[simp] theorem State.block_wgs (s : State) (a : Agent) (c : Cause) : (s.block a c).wgs = s.wgs := by cases a <;> rfl
@[simp] theorem State.block_cores (s : State) (a : Agent) (c : Cause) : (s.block a c).cores = s.cores := by cases a <;> rfl
@[simp] theorem State.block_clusters (s : State) (a : Agent) (c : Cause) : (s.block a c).clusters = s.clusters := by cases a <;> rfl
@[simp] theorem State.block_dies (s : State) (a : Agent) (c : Cause) : (s.block a c).dies = s.dies := by cases a <;> rfl
@[simp] theorem State.block_stations (s : State) (a : Agent) (c : Cause) : (s.block a c).stations = s.stations := by cases a <;> rfl
@[simp] theorem State.block_accesses (s : State) (a : Agent) (c : Cause) : (s.block a c).accesses = s.accesses := by cases a <;> rfl
@[simp] theorem State.block_requests (s : State) (a : Agent) (c : Cause) : (s.block a c).requests = s.requests := by cases a <;> rfl
@[simp] theorem State.block_fetches (s : State) (a : Agent) (c : Cause) : (s.block a c).fetches = s.fetches := by cases a <;> rfl
@[simp] theorem State.block_engines (s : State) (a : Agent) (c : Cause) : (s.block a c).engines = s.engines := by cases a <;> rfl
@[simp] theorem State.block_faults (s : State) (a : Agent) (c : Cause) : (s.block a c).faults = s.faults := by cases a <;> rfl
@[simp] theorem State.block_nextId (s : State) (a : Agent) (c : Cause) : (s.block a c).nextId = s.nextId := by cases a <;> rfl
@[simp] theorem State.block_nextToken (s : State) (a : Agent) (c : Cause) : (s.block a c).nextToken = s.nextToken := by cases a <;> rfl
@[simp] theorem State.block_ranges (s : State) (a : Agent) (c : Cause) : (s.block a c).ranges = s.ranges := by cases a <;> rfl
@[simp] theorem State.block_allocs (s : State) (a : Agent) (c : Cause) : (s.block a c).allocs = s.allocs := by cases a <;> rfl
@[simp] theorem State.block_monarch (s : State) (a : Agent) (c : Cause) : (s.block a c).monarch = s.monarch := by cases a <;> rfl
@[simp] theorem State.block_mgmt (s : State) (a : Agent) (c : Cause) : (s.block a c).mgmt = s.mgmt := by cases a <;> rfl
@[simp] theorem State.block_fabric (s : State) (a : Agent) (c : Cause) : (s.block a c).fabric = s.fabric := by cases a <;> rfl
@[simp] theorem State.block_due (s : State) (a : Agent) (c : Cause) : (s.block a c).due = s.due := by cases a <;> rfl
@[simp] theorem State.block_agenda (s : State) (a : Agent) (c : Cause) : (s.block a c).agenda = s.agenda := by cases a <;> rfl
@[simp] theorem State.block_turn (s : State) (a : Agent) (c : Cause) : (s.block a c).turn = s.turn := by cases a <;> rfl
@[simp] theorem State.block_cur (s : State) (a : Agent) (c : Cause) : (s.block a c).cur = s.cur := by cases a <;> rfl
@[simp] theorem State.block_behind (s : State) (a : Agent) (c : Cause) : (s.block a c).behind = s.behind := by cases a <;> rfl
@[simp] theorem State.block_free (s : State) (a : Agent) (c : Cause) : (s.block a c).free = s.free := by cases a <;> rfl

@[simp] theorem State.awaitTrap_clk (s : State) (a : Agent) : (s.awaitTrap a).clk = s.clk := by cases a <;> rfl
@[simp] theorem State.awaitTrap_mem (s : State) (a : Agent) : (s.awaitTrap a).mem = s.mem := by cases a <;> rfl
@[simp] theorem State.awaitTrap_poison (s : State) (a : Agent) : (s.awaitTrap a).poison = s.poison := by cases a <;> rfl
@[simp] theorem State.awaitTrap_poisonFrames (s : State) (a : Agent) : (s.awaitTrap a).poisonFrames = s.poisonFrames := by cases a <;> rfl
@[simp] theorem State.awaitTrap_wgs (s : State) (a : Agent) : (s.awaitTrap a).wgs = s.wgs := by cases a <;> rfl
@[simp] theorem State.awaitTrap_cores (s : State) (a : Agent) : (s.awaitTrap a).cores = s.cores := by cases a <;> rfl
@[simp] theorem State.awaitTrap_clusters (s : State) (a : Agent) : (s.awaitTrap a).clusters = s.clusters := by cases a <;> rfl
@[simp] theorem State.awaitTrap_dies (s : State) (a : Agent) : (s.awaitTrap a).dies = s.dies := by cases a <;> rfl
@[simp] theorem State.awaitTrap_stations (s : State) (a : Agent) : (s.awaitTrap a).stations = s.stations := by cases a <;> rfl
@[simp] theorem State.awaitTrap_accesses (s : State) (a : Agent) : (s.awaitTrap a).accesses = s.accesses := by cases a <;> rfl
@[simp] theorem State.awaitTrap_requests (s : State) (a : Agent) : (s.awaitTrap a).requests = s.requests := by cases a <;> rfl
@[simp] theorem State.awaitTrap_fetches (s : State) (a : Agent) : (s.awaitTrap a).fetches = s.fetches := by cases a <;> rfl
@[simp] theorem State.awaitTrap_engines (s : State) (a : Agent) : (s.awaitTrap a).engines = s.engines := by cases a <;> rfl
@[simp] theorem State.awaitTrap_faults (s : State) (a : Agent) : (s.awaitTrap a).faults = s.faults := by cases a <;> rfl
@[simp] theorem State.awaitTrap_nextId (s : State) (a : Agent) : (s.awaitTrap a).nextId = s.nextId := by cases a <;> rfl
@[simp] theorem State.awaitTrap_nextToken (s : State) (a : Agent) : (s.awaitTrap a).nextToken = s.nextToken := by cases a <;> rfl
@[simp] theorem State.awaitTrap_ranges (s : State) (a : Agent) : (s.awaitTrap a).ranges = s.ranges := by cases a <;> rfl
@[simp] theorem State.awaitTrap_allocs (s : State) (a : Agent) : (s.awaitTrap a).allocs = s.allocs := by cases a <;> rfl
@[simp] theorem State.awaitTrap_monarch (s : State) (a : Agent) : (s.awaitTrap a).monarch = s.monarch := by cases a <;> rfl
@[simp] theorem State.awaitTrap_mgmt (s : State) (a : Agent) : (s.awaitTrap a).mgmt = s.mgmt := by cases a <;> rfl
@[simp] theorem State.awaitTrap_fabric (s : State) (a : Agent) : (s.awaitTrap a).fabric = s.fabric := by cases a <;> rfl
@[simp] theorem State.awaitTrap_due (s : State) (a : Agent) : (s.awaitTrap a).due = s.due := by cases a <;> rfl
@[simp] theorem State.awaitTrap_agenda (s : State) (a : Agent) : (s.awaitTrap a).agenda = s.agenda := by cases a <;> rfl
@[simp] theorem State.awaitTrap_turn (s : State) (a : Agent) : (s.awaitTrap a).turn = s.turn := by cases a <;> rfl
@[simp] theorem State.awaitTrap_cur (s : State) (a : Agent) : (s.awaitTrap a).cur = s.cur := by cases a <;> rfl
@[simp] theorem State.awaitTrap_behind (s : State) (a : Agent) : (s.awaitTrap a).behind = s.behind := by cases a <;> rfl
@[simp] theorem State.awaitTrap_free (s : State) (a : Agent) : (s.awaitTrap a).free = s.free := by cases a <;> rfl

@[simp] theorem State.drawn_clk (s : State) (a : Agent) (d : Draw) (m : Mask) : (s.drawn a d m).clk = s.clk := by
  cases a
  · cases d <;> rfl
  · rfl
@[simp] theorem State.drawn_mem (s : State) (a : Agent) (d : Draw) (m : Mask) : (s.drawn a d m).mem = s.mem := by
  cases a
  · cases d <;> rfl
  · rfl
@[simp] theorem State.drawn_poison (s : State) (a : Agent) (d : Draw) (m : Mask) : (s.drawn a d m).poison = s.poison := by
  cases a
  · cases d <;> rfl
  · rfl
@[simp] theorem State.drawn_poisonFrames (s : State) (a : Agent) (d : Draw) (m : Mask) : (s.drawn a d m).poisonFrames = s.poisonFrames := by
  cases a
  · cases d <;> rfl
  · rfl
@[simp] theorem State.drawn_threads (s : State) (a : Agent) (d : Draw) (m : Mask) : (s.drawn a d m).threads = s.threads := by
  cases a
  · cases d <;> rfl
  · rfl
@[simp] theorem State.drawn_wgs (s : State) (a : Agent) (d : Draw) (m : Mask) : (s.drawn a d m).wgs = s.wgs := by
  cases a
  · cases d <;> rfl
  · rfl
@[simp] theorem State.drawn_clusters (s : State) (a : Agent) (d : Draw) (m : Mask) : (s.drawn a d m).clusters = s.clusters := by
  cases a
  · cases d <;> rfl
  · rfl
@[simp] theorem State.drawn_dies (s : State) (a : Agent) (d : Draw) (m : Mask) : (s.drawn a d m).dies = s.dies := by
  cases a
  · cases d <;> rfl
  · rfl
@[simp] theorem State.drawn_stations (s : State) (a : Agent) (d : Draw) (m : Mask) : (s.drawn a d m).stations = s.stations := by
  cases a
  · cases d <;> rfl
  · rfl
@[simp] theorem State.drawn_accesses (s : State) (a : Agent) (d : Draw) (m : Mask) : (s.drawn a d m).accesses = s.accesses := by
  cases a
  · cases d <;> rfl
  · rfl
@[simp] theorem State.drawn_requests (s : State) (a : Agent) (d : Draw) (m : Mask) : (s.drawn a d m).requests = s.requests := by
  cases a
  · cases d <;> rfl
  · rfl
@[simp] theorem State.drawn_fetches (s : State) (a : Agent) (d : Draw) (m : Mask) : (s.drawn a d m).fetches = s.fetches := by
  cases a
  · cases d <;> rfl
  · rfl
@[simp] theorem State.drawn_engines (s : State) (a : Agent) (d : Draw) (m : Mask) : (s.drawn a d m).engines = s.engines := by
  cases a
  · cases d <;> rfl
  · rfl
@[simp] theorem State.drawn_faults (s : State) (a : Agent) (d : Draw) (m : Mask) : (s.drawn a d m).faults = s.faults := by
  cases a
  · cases d <;> rfl
  · rfl
@[simp] theorem State.drawn_nextId (s : State) (a : Agent) (d : Draw) (m : Mask) : (s.drawn a d m).nextId = s.nextId := by
  cases a
  · cases d <;> rfl
  · rfl
@[simp] theorem State.drawn_nextToken (s : State) (a : Agent) (d : Draw) (m : Mask) : (s.drawn a d m).nextToken = s.nextToken := by
  cases a
  · cases d <;> rfl
  · rfl
@[simp] theorem State.drawn_ranges (s : State) (a : Agent) (d : Draw) (m : Mask) : (s.drawn a d m).ranges = s.ranges := by
  cases a
  · cases d <;> rfl
  · rfl
@[simp] theorem State.drawn_allocs (s : State) (a : Agent) (d : Draw) (m : Mask) : (s.drawn a d m).allocs = s.allocs := by
  cases a
  · cases d <;> rfl
  · rfl
@[simp] theorem State.drawn_monarch (s : State) (a : Agent) (d : Draw) (m : Mask) : (s.drawn a d m).monarch = s.monarch := by
  cases a
  · cases d <;> rfl
  · rfl
@[simp] theorem State.drawn_mgmt (s : State) (a : Agent) (d : Draw) (m : Mask) : (s.drawn a d m).mgmt = s.mgmt := by
  cases a
  · cases d <;> rfl
  · rfl
@[simp] theorem State.drawn_fabric (s : State) (a : Agent) (d : Draw) (m : Mask) : (s.drawn a d m).fabric = s.fabric := by
  cases a
  · cases d <;> rfl
  · rfl
@[simp] theorem State.drawn_due (s : State) (a : Agent) (d : Draw) (m : Mask) : (s.drawn a d m).due = s.due := by
  cases a
  · cases d <;> rfl
  · rfl
@[simp] theorem State.drawn_agenda (s : State) (a : Agent) (d : Draw) (m : Mask) : (s.drawn a d m).agenda = s.agenda := by
  cases a
  · cases d <;> rfl
  · rfl
@[simp] theorem State.drawn_turn (s : State) (a : Agent) (d : Draw) (m : Mask) : (s.drawn a d m).turn = s.turn := by
  cases a
  · cases d <;> rfl
  · rfl
@[simp] theorem State.drawn_cur (s : State) (a : Agent) (d : Draw) (m : Mask) : (s.drawn a d m).cur = s.cur := by
  cases a
  · cases d <;> rfl
  · rfl
@[simp] theorem State.drawn_behind (s : State) (a : Agent) (d : Draw) (m : Mask) : (s.drawn a d m).behind = s.behind := by
  cases a
  · cases d <;> rfl
  · rfl
@[simp] theorem State.drawn_free (s : State) (a : Agent) (d : Draw) (m : Mask) : (s.drawn a d m).free = s.free := by
  cases a
  · cases d <;> rfl
  · rfl

@[simp] theorem State.waitIn_clk (s : State) (a : Agent) (n : Word) (w : Wait) : (s.waitIn a n w).clk = s.clk := by cases a <;> rfl
@[simp] theorem State.waitIn_mem (s : State) (a : Agent) (n : Word) (w : Wait) : (s.waitIn a n w).mem = s.mem := by cases a <;> rfl
@[simp] theorem State.waitIn_poison (s : State) (a : Agent) (n : Word) (w : Wait) : (s.waitIn a n w).poison = s.poison := by cases a <;> rfl
@[simp] theorem State.waitIn_poisonFrames (s : State) (a : Agent) (n : Word) (w : Wait) : (s.waitIn a n w).poisonFrames = s.poisonFrames := by cases a <;> rfl
@[simp] theorem State.waitIn_wgs (s : State) (a : Agent) (n : Word) (w : Wait) : (s.waitIn a n w).wgs = s.wgs := by cases a <;> rfl
@[simp] theorem State.waitIn_cores (s : State) (a : Agent) (n : Word) (w : Wait) : (s.waitIn a n w).cores = s.cores := by cases a <;> rfl
@[simp] theorem State.waitIn_clusters (s : State) (a : Agent) (n : Word) (w : Wait) : (s.waitIn a n w).clusters = s.clusters := by cases a <;> rfl
@[simp] theorem State.waitIn_dies (s : State) (a : Agent) (n : Word) (w : Wait) : (s.waitIn a n w).dies = s.dies := by cases a <;> rfl
@[simp] theorem State.waitIn_stations (s : State) (a : Agent) (n : Word) (w : Wait) : (s.waitIn a n w).stations = s.stations := by cases a <;> rfl
@[simp] theorem State.waitIn_accesses (s : State) (a : Agent) (n : Word) (w : Wait) : (s.waitIn a n w).accesses = s.accesses := by cases a <;> rfl
@[simp] theorem State.waitIn_requests (s : State) (a : Agent) (n : Word) (w : Wait) : (s.waitIn a n w).requests = s.requests := by cases a <;> rfl
@[simp] theorem State.waitIn_fetches (s : State) (a : Agent) (n : Word) (w : Wait) : (s.waitIn a n w).fetches = s.fetches := by cases a <;> rfl
@[simp] theorem State.waitIn_engines (s : State) (a : Agent) (n : Word) (w : Wait) : (s.waitIn a n w).engines = s.engines := by cases a <;> rfl
@[simp] theorem State.waitIn_faults (s : State) (a : Agent) (n : Word) (w : Wait) : (s.waitIn a n w).faults = s.faults := by cases a <;> rfl
@[simp] theorem State.waitIn_nextId (s : State) (a : Agent) (n : Word) (w : Wait) : (s.waitIn a n w).nextId = s.nextId := by cases a <;> rfl
@[simp] theorem State.waitIn_nextToken (s : State) (a : Agent) (n : Word) (w : Wait) : (s.waitIn a n w).nextToken = s.nextToken := by cases a <;> rfl
@[simp] theorem State.waitIn_ranges (s : State) (a : Agent) (n : Word) (w : Wait) : (s.waitIn a n w).ranges = s.ranges := by cases a <;> rfl
@[simp] theorem State.waitIn_allocs (s : State) (a : Agent) (n : Word) (w : Wait) : (s.waitIn a n w).allocs = s.allocs := by cases a <;> rfl
@[simp] theorem State.waitIn_monarch (s : State) (a : Agent) (n : Word) (w : Wait) : (s.waitIn a n w).monarch = s.monarch := by cases a <;> rfl
@[simp] theorem State.waitIn_mgmt (s : State) (a : Agent) (n : Word) (w : Wait) : (s.waitIn a n w).mgmt = s.mgmt := by cases a <;> rfl
@[simp] theorem State.waitIn_fabric (s : State) (a : Agent) (n : Word) (w : Wait) : (s.waitIn a n w).fabric = s.fabric := by cases a <;> rfl
@[simp] theorem State.waitIn_due (s : State) (a : Agent) (n : Word) (w : Wait) : (s.waitIn a n w).due = s.due := by cases a <;> rfl
@[simp] theorem State.waitIn_agenda (s : State) (a : Agent) (n : Word) (w : Wait) : (s.waitIn a n w).agenda = s.agenda := by cases a <;> rfl
@[simp] theorem State.waitIn_turn (s : State) (a : Agent) (n : Word) (w : Wait) : (s.waitIn a n w).turn = s.turn := by cases a <;> rfl
@[simp] theorem State.waitIn_cur (s : State) (a : Agent) (n : Word) (w : Wait) : (s.waitIn a n w).cur = s.cur := by cases a <;> rfl
@[simp] theorem State.waitIn_behind (s : State) (a : Agent) (n : Word) (w : Wait) : (s.waitIn a n w).behind = s.behind := by cases a <;> rfl
@[simp] theorem State.waitIn_free (s : State) (a : Agent) (n : Word) (w : Wait) : (s.waitIn a n w).free = s.free := by cases a <;> rfl

@[simp] theorem State.endWait_clk (s : State) (a : Agent) : (s.endWait a).clk = s.clk := by cases a <;> rfl
@[simp] theorem State.endWait_mem (s : State) (a : Agent) : (s.endWait a).mem = s.mem := by cases a <;> rfl
@[simp] theorem State.endWait_poison (s : State) (a : Agent) : (s.endWait a).poison = s.poison := by cases a <;> rfl
@[simp] theorem State.endWait_poisonFrames (s : State) (a : Agent) : (s.endWait a).poisonFrames = s.poisonFrames := by cases a <;> rfl
@[simp] theorem State.endWait_wgs (s : State) (a : Agent) : (s.endWait a).wgs = s.wgs := by cases a <;> rfl
@[simp] theorem State.endWait_cores (s : State) (a : Agent) : (s.endWait a).cores = s.cores := by cases a <;> rfl
@[simp] theorem State.endWait_clusters (s : State) (a : Agent) : (s.endWait a).clusters = s.clusters := by cases a <;> rfl
@[simp] theorem State.endWait_dies (s : State) (a : Agent) : (s.endWait a).dies = s.dies := by cases a <;> rfl
@[simp] theorem State.endWait_stations (s : State) (a : Agent) : (s.endWait a).stations = s.stations := by cases a <;> rfl
@[simp] theorem State.endWait_accesses (s : State) (a : Agent) : (s.endWait a).accesses = s.accesses := by cases a <;> rfl
@[simp] theorem State.endWait_requests (s : State) (a : Agent) : (s.endWait a).requests = s.requests := by cases a <;> rfl
@[simp] theorem State.endWait_fetches (s : State) (a : Agent) : (s.endWait a).fetches = s.fetches := by cases a <;> rfl
@[simp] theorem State.endWait_engines (s : State) (a : Agent) : (s.endWait a).engines = s.engines := by cases a <;> rfl
@[simp] theorem State.endWait_faults (s : State) (a : Agent) : (s.endWait a).faults = s.faults := by cases a <;> rfl
@[simp] theorem State.endWait_nextId (s : State) (a : Agent) : (s.endWait a).nextId = s.nextId := by cases a <;> rfl
@[simp] theorem State.endWait_nextToken (s : State) (a : Agent) : (s.endWait a).nextToken = s.nextToken := by cases a <;> rfl
@[simp] theorem State.endWait_ranges (s : State) (a : Agent) : (s.endWait a).ranges = s.ranges := by cases a <;> rfl
@[simp] theorem State.endWait_allocs (s : State) (a : Agent) : (s.endWait a).allocs = s.allocs := by cases a <;> rfl
@[simp] theorem State.endWait_monarch (s : State) (a : Agent) : (s.endWait a).monarch = s.monarch := by cases a <;> rfl
@[simp] theorem State.endWait_mgmt (s : State) (a : Agent) : (s.endWait a).mgmt = s.mgmt := by cases a <;> rfl
@[simp] theorem State.endWait_fabric (s : State) (a : Agent) : (s.endWait a).fabric = s.fabric := by cases a <;> rfl
@[simp] theorem State.endWait_due (s : State) (a : Agent) : (s.endWait a).due = s.due := by cases a <;> rfl
@[simp] theorem State.endWait_agenda (s : State) (a : Agent) : (s.endWait a).agenda = s.agenda := by cases a <;> rfl
@[simp] theorem State.endWait_turn (s : State) (a : Agent) : (s.endWait a).turn = s.turn := by cases a <;> rfl
@[simp] theorem State.endWait_cur (s : State) (a : Agent) : (s.endWait a).cur = s.cur := by cases a <;> rfl
@[simp] theorem State.endWait_behind (s : State) (a : Agent) : (s.endWait a).behind = s.behind := by cases a <;> rfl
@[simp] theorem State.endWait_free (s : State) (a : Agent) : (s.endWait a).free = s.free := by cases a <;> rfl

@[simp] theorem State.parkAt_clk (s : State) (a : Agent) (m : Mask) (t : Nat) (popped : List (Nat × Word)) : (s.parkAt a m t popped).clk = s.clk := by cases a <;> rfl
@[simp] theorem State.parkAt_mem (s : State) (a : Agent) (m : Mask) (t : Nat) (popped : List (Nat × Word)) : (s.parkAt a m t popped).mem = s.mem := by cases a <;> rfl
@[simp] theorem State.parkAt_poison (s : State) (a : Agent) (m : Mask) (t : Nat) (popped : List (Nat × Word)) : (s.parkAt a m t popped).poison = s.poison := by cases a <;> rfl
@[simp] theorem State.parkAt_poisonFrames (s : State) (a : Agent) (m : Mask) (t : Nat) (popped : List (Nat × Word)) : (s.parkAt a m t popped).poisonFrames = s.poisonFrames := by cases a <;> rfl
@[simp] theorem State.parkAt_wgs (s : State) (a : Agent) (m : Mask) (t : Nat) (popped : List (Nat × Word)) : (s.parkAt a m t popped).wgs = s.wgs := by cases a <;> rfl
@[simp] theorem State.parkAt_cores (s : State) (a : Agent) (m : Mask) (t : Nat) (popped : List (Nat × Word)) : (s.parkAt a m t popped).cores = s.cores := by cases a <;> rfl
@[simp] theorem State.parkAt_clusters (s : State) (a : Agent) (m : Mask) (t : Nat) (popped : List (Nat × Word)) : (s.parkAt a m t popped).clusters = s.clusters := by cases a <;> rfl
@[simp] theorem State.parkAt_dies (s : State) (a : Agent) (m : Mask) (t : Nat) (popped : List (Nat × Word)) : (s.parkAt a m t popped).dies = s.dies := by cases a <;> rfl
@[simp] theorem State.parkAt_stations (s : State) (a : Agent) (m : Mask) (t : Nat) (popped : List (Nat × Word)) : (s.parkAt a m t popped).stations = s.stations := by cases a <;> rfl
@[simp] theorem State.parkAt_accesses (s : State) (a : Agent) (m : Mask) (t : Nat) (popped : List (Nat × Word)) : (s.parkAt a m t popped).accesses = s.accesses := by cases a <;> rfl
@[simp] theorem State.parkAt_requests (s : State) (a : Agent) (m : Mask) (t : Nat) (popped : List (Nat × Word)) : (s.parkAt a m t popped).requests = s.requests := by cases a <;> rfl
@[simp] theorem State.parkAt_fetches (s : State) (a : Agent) (m : Mask) (t : Nat) (popped : List (Nat × Word)) : (s.parkAt a m t popped).fetches = s.fetches := by cases a <;> rfl
@[simp] theorem State.parkAt_engines (s : State) (a : Agent) (m : Mask) (t : Nat) (popped : List (Nat × Word)) : (s.parkAt a m t popped).engines = s.engines := by cases a <;> rfl
@[simp] theorem State.parkAt_faults (s : State) (a : Agent) (m : Mask) (t : Nat) (popped : List (Nat × Word)) : (s.parkAt a m t popped).faults = s.faults := by cases a <;> rfl
@[simp] theorem State.parkAt_nextId (s : State) (a : Agent) (m : Mask) (t : Nat) (popped : List (Nat × Word)) : (s.parkAt a m t popped).nextId = s.nextId := by cases a <;> rfl
@[simp] theorem State.parkAt_nextToken (s : State) (a : Agent) (m : Mask) (t : Nat) (popped : List (Nat × Word)) : (s.parkAt a m t popped).nextToken = s.nextToken := by cases a <;> rfl
@[simp] theorem State.parkAt_ranges (s : State) (a : Agent) (m : Mask) (t : Nat) (popped : List (Nat × Word)) : (s.parkAt a m t popped).ranges = s.ranges := by cases a <;> rfl
@[simp] theorem State.parkAt_allocs (s : State) (a : Agent) (m : Mask) (t : Nat) (popped : List (Nat × Word)) : (s.parkAt a m t popped).allocs = s.allocs := by cases a <;> rfl
@[simp] theorem State.parkAt_monarch (s : State) (a : Agent) (m : Mask) (t : Nat) (popped : List (Nat × Word)) : (s.parkAt a m t popped).monarch = s.monarch := by cases a <;> rfl
@[simp] theorem State.parkAt_mgmt (s : State) (a : Agent) (m : Mask) (t : Nat) (popped : List (Nat × Word)) : (s.parkAt a m t popped).mgmt = s.mgmt := by cases a <;> rfl
@[simp] theorem State.parkAt_fabric (s : State) (a : Agent) (m : Mask) (t : Nat) (popped : List (Nat × Word)) : (s.parkAt a m t popped).fabric = s.fabric := by cases a <;> rfl
@[simp] theorem State.parkAt_due (s : State) (a : Agent) (m : Mask) (t : Nat) (popped : List (Nat × Word)) : (s.parkAt a m t popped).due = s.due := by cases a <;> rfl
@[simp] theorem State.parkAt_agenda (s : State) (a : Agent) (m : Mask) (t : Nat) (popped : List (Nat × Word)) : (s.parkAt a m t popped).agenda = s.agenda := by cases a <;> rfl
@[simp] theorem State.parkAt_turn (s : State) (a : Agent) (m : Mask) (t : Nat) (popped : List (Nat × Word)) : (s.parkAt a m t popped).turn = s.turn := by cases a <;> rfl
@[simp] theorem State.parkAt_cur (s : State) (a : Agent) (m : Mask) (t : Nat) (popped : List (Nat × Word)) : (s.parkAt a m t popped).cur = s.cur := by cases a <;> rfl
@[simp] theorem State.parkAt_behind (s : State) (a : Agent) (m : Mask) (t : Nat) (popped : List (Nat × Word)) : (s.parkAt a m t popped).behind = s.behind := by cases a <;> rfl
@[simp] theorem State.parkAt_free (s : State) (a : Agent) (m : Mask) (t : Nat) (popped : List (Nat × Word)) : (s.parkAt a m t popped).free = s.free := by cases a <;> rfl

@[simp] theorem State.putBytes_clk (s : State) (a : Nat) (bs : List Byte) : (s.putBytes a bs).clk = s.clk := rfl
@[simp] theorem State.putBytes_poisonFrames (s : State) (a : Nat) (bs : List Byte) : (s.putBytes a bs).poisonFrames = s.poisonFrames := rfl
@[simp] theorem State.putBytes_groups (s : State) (a : Nat) (bs : List Byte) : (s.putBytes a bs).groups = s.groups := rfl
@[simp] theorem State.putBytes_threads (s : State) (a : Nat) (bs : List Byte) : (s.putBytes a bs).threads = s.threads := rfl
@[simp] theorem State.putBytes_wgs (s : State) (a : Nat) (bs : List Byte) : (s.putBytes a bs).wgs = s.wgs := rfl
@[simp] theorem State.putBytes_cores (s : State) (a : Nat) (bs : List Byte) : (s.putBytes a bs).cores = s.cores := rfl
@[simp] theorem State.putBytes_clusters (s : State) (a : Nat) (bs : List Byte) : (s.putBytes a bs).clusters = s.clusters := rfl
@[simp] theorem State.putBytes_dies (s : State) (a : Nat) (bs : List Byte) : (s.putBytes a bs).dies = s.dies := rfl
@[simp] theorem State.putBytes_stations (s : State) (a : Nat) (bs : List Byte) : (s.putBytes a bs).stations = s.stations := rfl
@[simp] theorem State.putBytes_accesses (s : State) (a : Nat) (bs : List Byte) : (s.putBytes a bs).accesses = s.accesses := rfl
@[simp] theorem State.putBytes_requests (s : State) (a : Nat) (bs : List Byte) : (s.putBytes a bs).requests = s.requests := rfl
@[simp] theorem State.putBytes_fetches (s : State) (a : Nat) (bs : List Byte) : (s.putBytes a bs).fetches = s.fetches := rfl
@[simp] theorem State.putBytes_engines (s : State) (a : Nat) (bs : List Byte) : (s.putBytes a bs).engines = s.engines := rfl
@[simp] theorem State.putBytes_faults (s : State) (a : Nat) (bs : List Byte) : (s.putBytes a bs).faults = s.faults := rfl
@[simp] theorem State.putBytes_nextId (s : State) (a : Nat) (bs : List Byte) : (s.putBytes a bs).nextId = s.nextId := rfl
@[simp] theorem State.putBytes_nextToken (s : State) (a : Nat) (bs : List Byte) : (s.putBytes a bs).nextToken = s.nextToken := rfl
@[simp] theorem State.putBytes_ranges (s : State) (a : Nat) (bs : List Byte) : (s.putBytes a bs).ranges = s.ranges := rfl
@[simp] theorem State.putBytes_allocs (s : State) (a : Nat) (bs : List Byte) : (s.putBytes a bs).allocs = s.allocs := rfl
@[simp] theorem State.putBytes_monarch (s : State) (a : Nat) (bs : List Byte) : (s.putBytes a bs).monarch = s.monarch := rfl
@[simp] theorem State.putBytes_mgmt (s : State) (a : Nat) (bs : List Byte) : (s.putBytes a bs).mgmt = s.mgmt := rfl
@[simp] theorem State.putBytes_fabric (s : State) (a : Nat) (bs : List Byte) : (s.putBytes a bs).fabric = s.fabric := rfl
@[simp] theorem State.putBytes_due (s : State) (a : Nat) (bs : List Byte) : (s.putBytes a bs).due = s.due := rfl
@[simp] theorem State.putBytes_agenda (s : State) (a : Nat) (bs : List Byte) : (s.putBytes a bs).agenda = s.agenda := rfl
@[simp] theorem State.putBytes_turn (s : State) (a : Nat) (bs : List Byte) : (s.putBytes a bs).turn = s.turn := rfl
@[simp] theorem State.putBytes_cur (s : State) (a : Nat) (bs : List Byte) : (s.putBytes a bs).cur = s.cur := rfl
@[simp] theorem State.putBytes_behind (s : State) (a : Nat) (bs : List Byte) : (s.putBytes a bs).behind = s.behind := rfl
@[simp] theorem State.putBytes_free (s : State) (a : Nat) (bs : List Byte) : (s.putBytes a bs).free = s.free := rfl

/-! ### Units after their update -/

@[simp] theorem State.thread_modThread_self (s : State) (t : Nat) (f : Thread → Thread) : (s.modThread t f).thread t = f (s.thread t) := by
  simp [State.thread, State.modThread]
theorem State.thread_modThread_other (s : State) (t i : Nat) (f : Thread → Thread) (h : i ≠ t) : (s.modThread t f).thread i = s.thread i := by
  simp [State.thread, State.modThread, tabGet_tabPut_other _ _ _ _ _ h]
/-- Read through a projection that the update leaves alone. -/
theorem State.thread_modThread_proj {β : Type} (s : State) (t i : Nat) (f : Thread → Thread) (p : Thread → β) (h : ∀ x, p (f x) = p x) :
    p ((s.modThread t f).thread i) = p (s.thread i) := by
  by_cases e : i = t
  · subst e; simp [h]
  · rw [State.thread_modThread_other s t i f e]
@[simp] theorem State.core_modCore_self (s : State) (c : Nat) (f : Core → Core) : (s.modCore c f).core c = f (s.core c) := by
  simp [State.core, State.modCore]
theorem State.core_modCore_other (s : State) (c i : Nat) (f : Core → Core) (h : i ≠ c) : (s.modCore c f).core i = s.core i := by
  simp [State.core, State.modCore, tabGet_tabPut_other _ _ _ _ _ h]
/-- Read through a projection that the update leaves alone. -/
theorem State.core_modCore_proj {β : Type} (s : State) (c i : Nat) (f : Core → Core) (p : Core → β) (h : ∀ x, p (f x) = p x) :
    p ((s.modCore c f).core i) = p (s.core i) := by
  by_cases e : i = c
  · subst e; simp [h]
  · rw [State.core_modCore_other s c i f e]
@[simp] theorem State.cluster_modCluster_self (s : State) (c : Nat) (f : Cluster → Cluster) : (s.modCluster c f).cluster c = f (s.cluster c) := by
  simp [State.cluster, State.modCluster]
theorem State.cluster_modCluster_other (s : State) (c i : Nat) (f : Cluster → Cluster) (h : i ≠ c) : (s.modCluster c f).cluster i = s.cluster i := by
  simp [State.cluster, State.modCluster, tabGet_tabPut_other _ _ _ _ _ h]
/-- Read through a projection that the update leaves alone. -/
theorem State.cluster_modCluster_proj {β : Type} (s : State) (c i : Nat) (f : Cluster → Cluster) (p : Cluster → β) (h : ∀ x, p (f x) = p x) :
    p ((s.modCluster c f).cluster i) = p (s.cluster i) := by
  by_cases e : i = c
  · subst e; simp [h]
  · rw [State.cluster_modCluster_other s c i f e]
@[simp] theorem State.die_modDie_self (s : State) (d : Nat) (f : Die → Die) : (s.modDie d f).die d = f (s.die d) := by
  simp [State.die, State.modDie]
theorem State.die_modDie_other (s : State) (d i : Nat) (f : Die → Die) (h : i ≠ d) : (s.modDie d f).die i = s.die i := by
  simp [State.die, State.modDie, tabGet_tabPut_other _ _ _ _ _ h]
/-- Read through a projection that the update leaves alone. -/
theorem State.die_modDie_proj {β : Type} (s : State) (d i : Nat) (f : Die → Die) (p : Die → β) (h : ∀ x, p (f x) = p x) :
    p ((s.modDie d f).die i) = p (s.die i) := by
  by_cases e : i = d
  · subst e; simp [h]
  · rw [State.die_modDie_other s d i f e]
@[simp] theorem State.station_modStation_self (s : State) (k : Nat) (f : Station → Station) : (s.modStation k f).station k = f (s.station k) := by
  simp [State.station, State.modStation]
theorem State.station_modStation_other (s : State) (k i : Nat) (f : Station → Station) (h : i ≠ k) : (s.modStation k f).station i = s.station i := by
  simp [State.station, State.modStation, tabGet_tabPut_other _ _ _ _ _ h]
/-- Read through a projection that the update leaves alone. -/
theorem State.station_modStation_proj {β : Type} (s : State) (k i : Nat) (f : Station → Station) (p : Station → β) (h : ∀ x, p (f x) = p x) :
    p ((s.modStation k f).station i) = p (s.station i) := by
  by_cases e : i = k
  · subst e; simp [h]
  · rw [State.station_modStation_other s k i f e]
theorem State.group_modGroup_self (s : State) (g : Nat) (f : Group → Group) (h : (tabFind s.groups g).isSome = true) :
    (s.modGroup g f).group g = f (s.group g) := by
  obtain ⟨x, hx⟩ := Option.isSome_iff_exists.1 h
  simp [State.group, State.modGroup, tabGet, hx]
theorem State.group_modGroup_other (s : State) (g i : Nat) (f : Group → Group) (h : i ≠ g) : (s.modGroup g f).group i = s.group i := by
  simp [State.group, State.modGroup, tabGet_tabMod_other _ _ _ _ _ h]
/-- Read through a projection that the update leaves alone. -/
theorem State.group_modGroup_proj {β : Type} (s : State) (g i : Nat) (f : Group → Group) (p : Group → β) (h : ∀ x, p (f x) = p x) :
    p ((s.modGroup g f).group i) = p (s.group i) := by
  simp only [State.group, State.modGroup]
  exact tabGet_tabMod_proj _ _ _ _ _ p h
theorem State.wg_modWg_self (s : State) (w : Nat) (f : Workgroup → Workgroup) (h : (tabFind s.wgs w).isSome = true) :
    (s.modWg w f).wg w = f (s.wg w) := by
  obtain ⟨x, hx⟩ := Option.isSome_iff_exists.1 h
  simp [State.wg, State.modWg, tabGet, hx]
theorem State.wg_modWg_other (s : State) (w i : Nat) (f : Workgroup → Workgroup) (h : i ≠ w) : (s.modWg w f).wg i = s.wg i := by
  simp [State.wg, State.modWg, tabGet_tabMod_other _ _ _ _ _ h]
/-- Read through a projection that the update leaves alone. -/
theorem State.wg_modWg_proj {β : Type} (s : State) (w i : Nat) (f : Workgroup → Workgroup) (p : Workgroup → β) (h : ∀ x, p (f x) = p x) :
    p ((s.modWg w f).wg i) = p (s.wg i) := by
  simp only [State.wg, State.modWg]
  exact tabGet_tabMod_proj _ _ _ _ _ p h

end Sys2Proof.Machine
end

