-- ==== Sys2Proof/Laws/Frame.lean ====
section
/-!
SUPPORT. Frames of the shared operations of an issue: what changes no register and nothing but slot accounts (`SameRegs`), operation
by operation, up to the use of a slot (spec/19_accounting.md R272), the draw (spec/04_stacks.md R59) and the parcels' marks (R361).
-/

namespace Sys2Proof

open Sys2Proof.Machine

/-- A relation that every update of a fold keeps, the fold keeps. -/
theorem keepFold {α : Type} (f : State → α → State) (P : State → State → Prop) (hr : ∀ s, P s s) (ht : ∀ a b c, P a b → P b c → P a c)
    (h : ∀ s x, P s (f s x)) (l : List α) (s : State) : P s (l.foldl f s) := by
  induction l generalizing s with
  | nil => exact hr s
  | cons x r ih => exact ht _ _ _ (h s x) (ih _)
/-- `SameElsewhere` and `SameRegs` hold of a state and itself, and go through. -/
theorem SameElsewhere.same (s : State) : SameElsewhere s s := ⟨rfl, rfl, ⟨rfl, rfl⟩, ⟨rfl, rfl, rfl, rfl⟩, rfl, rfl, rfl, rfl, rfl, rfl, fun _ => rfl, fun _ => rfl, fun _ => rfl⟩

theorem SameElsewhere.trans {s t u : State} (h : SameElsewhere s t) (k : SameElsewhere t u) : SameElsewhere s u :=
  ⟨k.clk.trans h.clk, k.mem.trans h.mem, ⟨k.poison.1.trans h.poison.1, k.poison.2.trans h.poison.2⟩,
   ⟨k.inFlight.1.trans h.inFlight.1, k.inFlight.2.1.trans h.inFlight.2.1, k.inFlight.2.2.1.trans h.inFlight.2.2.1, k.inFlight.2.2.2.trans h.inFlight.2.2.2⟩,
   k.dies.trans h.dies, k.stations.trans h.stations, k.ranges.trans h.ranges, k.monarch.trans h.monarch, k.mgmt.trans h.mgmt, k.fabric.trans h.fabric,
   fun c => (k.clusters c).trans (h.clusters c), fun c => (k.l1 c).trans (h.l1 c), fun c => (k.wgs c).trans (h.wgs c)⟩

theorem SameRegs.same (s : State) : SameRegs s s := ⟨SameElsewhere.same s, fun _ => rfl, fun _ _ => rfl, fun _ => rfl⟩

theorem SameRegs.trans {s t u : State} (h : SameRegs s t) (k : SameRegs t u) : SameRegs s u :=
  ⟨h.elsewhere.trans k.elsewhere, fun c => (k.groups c).trans (h.groups c), fun c d => (k.splits c d).trans (h.splits c d), fun c => (k.threads c).trans (h.threads c)⟩
/-- Updates of the shared part of a unit, and of slot accounts, change no register. -/
theorem SameElsewhere.modUnit (s : State) (u : Nat) (f : CoreUnit → CoreUnit) : SameElsewhere s (s.modUnit u f) := by
  unfold State.modUnit
  split
  · exact ⟨rfl, rfl, ⟨rfl, rfl⟩, ⟨rfl, rfl, rfl, rfl⟩, rfl, rfl, rfl, rfl, rfl, rfl, fun _ => rfl, fun c => State.core_modCore_proj s _ c _ Core.l1 (fun _ => rfl), fun _ => rfl⟩
  · exact ⟨rfl, rfl, ⟨rfl, rfl⟩, ⟨rfl, rfl, rfl, rfl⟩, rfl, rfl, rfl, rfl, rfl, rfl, fun c => State.cluster_modCluster_proj s _ c _ clusterKept (fun _ => rfl), fun _ => rfl, fun _ => rfl⟩

theorem SameRegs.modUnit (s : State) (u : Nat) (f : CoreUnit → CoreUnit) : SameRegs s (s.modUnit u f) := by
  refine ⟨SameElsewhere.modUnit s u f, ?_, ?_, ?_⟩ <;> (unfold State.modUnit; split <;> (intros; rfl))

theorem SameRegs.modCore (s : State) (u : Nat) (f : Core → Core) (h : ∀ x, (f x).l1 = x.l1) : SameRegs s (s.modCore u f) :=
  ⟨⟨rfl, rfl, ⟨rfl, rfl⟩, ⟨rfl, rfl, rfl, rfl⟩, rfl, rfl, rfl, rfl, rfl, rfl, fun _ => rfl, fun c => State.core_modCore_proj s _ c _ Core.l1 h, fun _ => rfl⟩, fun _ => rfl, fun _ _ => rfl, fun _ => rfl⟩

theorem SameRegs.modCluster (s : State) (u : Nat) (f : Cluster → Cluster) (h : ∀ x, clusterKept (f x) = clusterKept x) : SameRegs s (s.modCluster u f) :=
  ⟨⟨rfl, rfl, ⟨rfl, rfl⟩, ⟨rfl, rfl, rfl, rfl⟩, rfl, rfl, rfl, rfl, rfl, rfl, fun c => State.cluster_modCluster_proj s _ c _ clusterKept h, fun _ => rfl, fun _ => rfl⟩, fun _ => rfl, fun _ _ => rfl, fun _ => rfl⟩

theorem SameRegs.modWg (s : State) (u : Nat) (f : Workgroup → Workgroup) (h : ∀ x, wgKept (f x) = wgKept x) : SameRegs s (s.modWg u f) :=
  ⟨⟨rfl, rfl, ⟨rfl, rfl⟩, ⟨rfl, rfl, rfl, rfl⟩, rfl, rfl, rfl, rfl, rfl, rfl, fun _ => rfl, fun _ => rfl, fun w => State.wg_modWg_proj s _ w _ wgKept h⟩, fun _ => rfl, fun _ _ => rfl, fun _ => rfl⟩

theorem SameRegs.sched (s : State) (d : List Instr) (a : List (Nat × Instr)) (t : List Turn) (c : Option Agent) (b : Option (Instr × Nat)) (f : Nat) :
   SameRegs s { s with due := d, agenda := a, turn := t, cur := c, behind := b, free := f } :=
  ⟨⟨rfl, rfl, ⟨rfl, rfl⟩, ⟨rfl, rfl, rfl, rfl⟩, rfl, rfl, rfl, rfl, rfl, rfl, fun _ => rfl, fun _ => rfl, fun _ => rfl⟩, fun _ => rfl, fun _ _ => rfl, fun _ => rfl⟩

theorem SameRegs.modGroup (s : State) (g : Nat) (f : Group → Group) (h : ∀ x, groupKept (f x) = groupKept x)
   (h2 : ∀ x k, splitKept (tabGet (f x).splits k Split.blank) = splitKept (tabGet x.splits k Split.blank)) : SameRegs s (s.modGroup g f) :=
  ⟨⟨rfl, rfl, ⟨rfl, rfl⟩, ⟨rfl, rfl, rfl, rfl⟩, rfl, rfl, rfl, rfl, rfl, rfl, fun _ => rfl, fun _ => rfl, fun _ => rfl⟩,
   fun i => State.group_modGroup_proj s g i f groupKept h, fun i k => State.group_modGroup_proj s g i f (fun x => splitKept (tabGet x.splits k Split.blank)) (fun x => h2 x k), fun _ => rfl⟩

theorem SameRegs.modThread (s : State) (g : Nat) (f : Thread → Thread) (h : ∀ x, threadKept (f x) = threadKept x) : SameRegs s (s.modThread g f) :=
  ⟨⟨rfl, rfl, ⟨rfl, rfl⟩, ⟨rfl, rfl, rfl, rfl⟩, rfl, rfl, rfl, rfl, rfl, rfl, fun _ => rfl, fun _ => rfl, fun _ => rfl⟩,
   fun _ => rfl, fun _ _ => rfl, fun t => State.thread_modThread_proj s g t f threadKept h⟩

theorem SameRegs.modSplit (s : State) (g k : Nat) (f : Split → Split) (h : ∀ x, splitKept (f x) = splitKept x) : SameRegs s (s.modSplit g k f) :=
  SameRegs.modGroup s g _ (fun _ => rfl) (fun x j => tabGet_tabMod_proj x.splits k j f Split.blank splitKept h)

theorem SameRegs.modStrand (s : State) (a : Agent) (f : Strand → Strand) : SameRegs s (s.modStrand a f) := by
  cases a with
  | split g k => exact SameRegs.modSplit s g k (fun x => { x with strand := f x.strand }) (fun _ => rfl)
  | thread t => exact SameRegs.modThread s t (fun x => { x with strand := f x.strand }) (fun _ => rfl)

theorem SameRegs.mgmt (s : State) (m : Mgmt) (h : mgmtKept m = mgmtKept s.mgmt) : SameRegs s { s with mgmt := m } :=
  ⟨⟨rfl, rfl, ⟨rfl, rfl⟩, ⟨rfl, rfl, rfl, rfl⟩, rfl, rfl, rfl, rfl, h, rfl, fun _ => rfl, fun _ => rfl, fun _ => rfl⟩, fun _ => rfl, fun _ _ => rfl, fun _ => rfl⟩

theorem SameRegs.countEvent (s : State) (vi : BitVec 8) (asid : BitVec 16) (n k : Nat) : SameRegs s (s.countEvent vi asid n k) := by
  unfold State.countEvent
  simp only
  split
  · exact SameRegs.same s
  · split
    · exact SameRegs.mgmt s _ rfl
    · exact SameRegs.same s

theorem SameRegs.enqueueFrom (s : State) (f r : Nat) (b : List Byte) : SameRegs s (s.enqueueFrom f r b) := SameRegs.mgmt s _ rfl

theorem SameRegs.pcOut (s : State) (f u b : Nat) (es : List PcEntry) (n : Nat) : SameRegs s (s.pcOut f u b es n) := by
  unfold State.pcOut
  simp only
  split
  · exact SameRegs.same s
  · exact (SameRegs.countEvent s _ _ _ _).trans
      (keepFold _ SameRegs SameRegs.same (fun _ _ _ h k => h.trans k) (fun s x => SameRegs.enqueueFrom s _ _ _) _ _)

theorem SameRegs.soon (s : State) (i : Instr) : SameRegs s (s.soon i) := SameRegs.sched s _ s.agenda s.turn s.cur s.behind s.free

theorem SameRegs.copyTable (s : State) (u : Nat) : SameRegs s (s.copyTable u) := by
  unfold State.copyTable
  exact ((keepFold _ SameRegs SameRegs.same (fun _ _ _ h k => h.trans k) (fun s x => SameRegs.pcOut s _ _ _ _ _) _ s).trans
    (SameRegs.modUnit _ u _)).trans (SameRegs.soon _ _)

theorem SameRegs.chargePc (s : State) (u b : Nat) (pc : Word) (c : Cause) : SameRegs s (s.chargePc u b pc c) := by
  unfold State.chargePc
  simp only
  split
  · split
    · exact SameRegs.modUnit s u _
    · split
      · exact (SameRegs.modUnit s u _).trans (SameRegs.copyTable _ _)
      · exact SameRegs.modUnit s u _
  · split
    · exact SameRegs.modUnit s u _
    · split
      · exact SameRegs.modUnit s u _
      · exact (SameRegs.copyTable s u).trans (SameRegs.modUnit _ u _)

theorem SameRegs.charge (s : State) (u : Nat) (vi : BitVec 8) (asid : BitVec 16) (pc : Word) (c : Cause) (a : Option Agent) (w : Option Nat) :
    SameRegs s (s.charge u vi asid pc c a w) := by
  unfold State.charge
  extract_lets bank s1 s2 s3
  have h1 : SameRegs s s1 := SameRegs.modUnit s u _
  have h2 : SameRegs s1 s2 := by
    simp only [s2]; split
    · exact SameRegs.modWg _ _ _ (fun _ => rfl)
    · exact SameRegs.same _
  have h3 : SameRegs s2 s3 := by
    simp only [s3]; split
    · exact SameRegs.soon _ _
    · exact SameRegs.same _
  split
  · exact (h1.trans h2).trans h3
  · exact ((h1.trans h2).trans h3).trans (SameRegs.chargePc _ _ _ _ _)

theorem SameRegs.turn {s v : State} (h : SameRegs s v) (l : List Turn) : SameRegs s { v with turn := l } :=
  h.trans (SameRegs.sched v v.due v.agenda l v.cur v.behind v.free)

theorem SameRegs.useSlot (s : State) (a : Agent) (pc : Word) (c : Cause) : SameRegs s (s.useSlot a pc c) := by
  unfold State.useSlot
  rcases s.ctxOf a with ⟨vi, asid⟩
  have h := (SameRegs.charge s a.unit vi asid pc c (some a) (s.wgOf a)).trans
    (SameRegs.modUnit _ a.unit (fun u => { u with issued := true }))
  cases a with
  | split g k =>
    refine SameRegs.trans ?_ (SameRegs.modCore _ _ _ (fun _ => rfl))
    exact (h.trans (SameRegs.modStrand _ _ _)).turn _
  | thread t =>
    refine SameRegs.trans ?_ (SameRegs.modCluster _ _ _ (fun _ => rfl))
    exact (h.trans (SameRegs.modStrand _ _ _)).turn _

theorem SameRegs.drawn (s : State) (a : Agent) (d : Draw) (m : Mask) : SameRegs s (s.drawn a d m) := by
  cases a with
  | thread t => exact SameRegs.same s
  | split g k =>
    simp only [State.drawn]
    refine SameRegs.trans ?_ (SameRegs.modSplit _ _ _ _ (fun _ => rfl))
    split <;> exact SameRegs.modCore _ _ _ (fun _ => rfl)

theorem SameRegs.tPend (s : State) (a : Agent) (new : List Pending) : SameRegs s (s.tPend a new) := by
  unfold State.tPend
  split
  · exact SameRegs.same s
  · split
    · exact SameRegs.modWg _ _ _ (fun _ => rfl)
    · cases a with
      | split g k => exact SameRegs.same s
      | thread t => exact SameRegs.modThread _ _ _ (fun _ => rfl)

theorem SameRegs.markParcels (s : State) (a : Agent) (pc : Word) (n : Nat) : SameRegs s (s.markParcels a pc n) := by
  unfold State.markParcels
  exact keepFold _ SameRegs SameRegs.same (fun _ _ _ h k => h.trans k) (fun s x => SameRegs.modUnit s _ _) _ s

end Sys2Proof
end

