-- ==== Sys2Proof/Laws/Ops.lean ====
section
/-!
SUPPORT. What the shared operations of an issue leave as it was: the charge of a slot, the use of a slot, the parcels' marks, what
an issue leaves (spec/19_accounting.md R272 to R276, spec/04_stacks.md R59, R60, spec/08_isa_scalar.md R119).
-/

namespace Sys2Proof.Machine

/-- What every update of a fold leaves alone, the fold leaves alone. -/
theorem foldl_keeps {α β σ : Type} (p : σ → β) (f : σ → α → σ) (h : ∀ s x, p (f s x) = p s) (l : List α) (s : σ) :
    p (l.foldl f s) = p s := by
  induction l generalizing s with
  | nil => rfl
  | cons x r ih => rw [List.foldl_cons, ih, h]


@[simp] theorem State.countEvent_clk (s : State) (vi : BitVec 8) (asid : BitVec 16) (n k : Nat) : (s.countEvent vi asid n k).clk = s.clk := by
  unfold State.countEvent
  simp only
  split
  · rfl
  · split <;> rfl
@[simp] theorem State.countEvent_mem (s : State) (vi : BitVec 8) (asid : BitVec 16) (n k : Nat) : (s.countEvent vi asid n k).mem = s.mem := by
  unfold State.countEvent
  simp only
  split
  · rfl
  · split <;> rfl
@[simp] theorem State.countEvent_poison (s : State) (vi : BitVec 8) (asid : BitVec 16) (n k : Nat) : (s.countEvent vi asid n k).poison = s.poison := by
  unfold State.countEvent
  simp only
  split
  · rfl
  · split <;> rfl
@[simp] theorem State.countEvent_poisonFrames (s : State) (vi : BitVec 8) (asid : BitVec 16) (n k : Nat) : (s.countEvent vi asid n k).poisonFrames = s.poisonFrames := by
  unfold State.countEvent
  simp only
  split
  · rfl
  · split <;> rfl
@[simp] theorem State.countEvent_groups (s : State) (vi : BitVec 8) (asid : BitVec 16) (n k : Nat) : (s.countEvent vi asid n k).groups = s.groups := by
  unfold State.countEvent
  simp only
  split
  · rfl
  · split <;> rfl
@[simp] theorem State.countEvent_threads (s : State) (vi : BitVec 8) (asid : BitVec 16) (n k : Nat) : (s.countEvent vi asid n k).threads = s.threads := by
  unfold State.countEvent
  simp only
  split
  · rfl
  · split <;> rfl
@[simp] theorem State.countEvent_wgs (s : State) (vi : BitVec 8) (asid : BitVec 16) (n k : Nat) : (s.countEvent vi asid n k).wgs = s.wgs := by
  unfold State.countEvent
  simp only
  split
  · rfl
  · split <;> rfl
@[simp] theorem State.countEvent_cores (s : State) (vi : BitVec 8) (asid : BitVec 16) (n k : Nat) : (s.countEvent vi asid n k).cores = s.cores := by
  unfold State.countEvent
  simp only
  split
  · rfl
  · split <;> rfl
@[simp] theorem State.countEvent_clusters (s : State) (vi : BitVec 8) (asid : BitVec 16) (n k : Nat) : (s.countEvent vi asid n k).clusters = s.clusters := by
  unfold State.countEvent
  simp only
  split
  · rfl
  · split <;> rfl
@[simp] theorem State.countEvent_dies (s : State) (vi : BitVec 8) (asid : BitVec 16) (n k : Nat) : (s.countEvent vi asid n k).dies = s.dies := by
  unfold State.countEvent
  simp only
  split
  · rfl
  · split <;> rfl
@[simp] theorem State.countEvent_stations (s : State) (vi : BitVec 8) (asid : BitVec 16) (n k : Nat) : (s.countEvent vi asid n k).stations = s.stations := by
  unfold State.countEvent
  simp only
  split
  · rfl
  · split <;> rfl
@[simp] theorem State.countEvent_accesses (s : State) (vi : BitVec 8) (asid : BitVec 16) (n k : Nat) : (s.countEvent vi asid n k).accesses = s.accesses := by
  unfold State.countEvent
  simp only
  split
  · rfl
  · split <;> rfl
@[simp] theorem State.countEvent_requests (s : State) (vi : BitVec 8) (asid : BitVec 16) (n k : Nat) : (s.countEvent vi asid n k).requests = s.requests := by
  unfold State.countEvent
  simp only
  split
  · rfl
  · split <;> rfl
@[simp] theorem State.countEvent_fetches (s : State) (vi : BitVec 8) (asid : BitVec 16) (n k : Nat) : (s.countEvent vi asid n k).fetches = s.fetches := by
  unfold State.countEvent
  simp only
  split
  · rfl
  · split <;> rfl
@[simp] theorem State.countEvent_engines (s : State) (vi : BitVec 8) (asid : BitVec 16) (n k : Nat) : (s.countEvent vi asid n k).engines = s.engines := by
  unfold State.countEvent
  simp only
  split
  · rfl
  · split <;> rfl
@[simp] theorem State.countEvent_faults (s : State) (vi : BitVec 8) (asid : BitVec 16) (n k : Nat) : (s.countEvent vi asid n k).faults = s.faults := by
  unfold State.countEvent
  simp only
  split
  · rfl
  · split <;> rfl
@[simp] theorem State.countEvent_nextId (s : State) (vi : BitVec 8) (asid : BitVec 16) (n k : Nat) : (s.countEvent vi asid n k).nextId = s.nextId := by
  unfold State.countEvent
  simp only
  split
  · rfl
  · split <;> rfl
@[simp] theorem State.countEvent_nextToken (s : State) (vi : BitVec 8) (asid : BitVec 16) (n k : Nat) : (s.countEvent vi asid n k).nextToken = s.nextToken := by
  unfold State.countEvent
  simp only
  split
  · rfl
  · split <;> rfl
@[simp] theorem State.countEvent_ranges (s : State) (vi : BitVec 8) (asid : BitVec 16) (n k : Nat) : (s.countEvent vi asid n k).ranges = s.ranges := by
  unfold State.countEvent
  simp only
  split
  · rfl
  · split <;> rfl
@[simp] theorem State.countEvent_allocs (s : State) (vi : BitVec 8) (asid : BitVec 16) (n k : Nat) : (s.countEvent vi asid n k).allocs = s.allocs := by
  unfold State.countEvent
  simp only
  split
  · rfl
  · split <;> rfl
@[simp] theorem State.countEvent_monarch (s : State) (vi : BitVec 8) (asid : BitVec 16) (n k : Nat) : (s.countEvent vi asid n k).monarch = s.monarch := by
  unfold State.countEvent
  simp only
  split
  · rfl
  · split <;> rfl
@[simp] theorem State.countEvent_fabric (s : State) (vi : BitVec 8) (asid : BitVec 16) (n k : Nat) : (s.countEvent vi asid n k).fabric = s.fabric := by
  unfold State.countEvent
  simp only
  split
  · rfl
  · split <;> rfl
@[simp] theorem State.countEvent_due (s : State) (vi : BitVec 8) (asid : BitVec 16) (n k : Nat) : (s.countEvent vi asid n k).due = s.due := by
  unfold State.countEvent
  simp only
  split
  · rfl
  · split <;> rfl
@[simp] theorem State.countEvent_agenda (s : State) (vi : BitVec 8) (asid : BitVec 16) (n k : Nat) : (s.countEvent vi asid n k).agenda = s.agenda := by
  unfold State.countEvent
  simp only
  split
  · rfl
  · split <;> rfl
@[simp] theorem State.countEvent_turn (s : State) (vi : BitVec 8) (asid : BitVec 16) (n k : Nat) : (s.countEvent vi asid n k).turn = s.turn := by
  unfold State.countEvent
  simp only
  split
  · rfl
  · split <;> rfl
@[simp] theorem State.countEvent_cur (s : State) (vi : BitVec 8) (asid : BitVec 16) (n k : Nat) : (s.countEvent vi asid n k).cur = s.cur := by
  unfold State.countEvent
  simp only
  split
  · rfl
  · split <;> rfl
@[simp] theorem State.countEvent_behind (s : State) (vi : BitVec 8) (asid : BitVec 16) (n k : Nat) : (s.countEvent vi asid n k).behind = s.behind := by
  unfold State.countEvent
  simp only
  split
  · rfl
  · split <;> rfl
@[simp] theorem State.countEvent_free (s : State) (vi : BitVec 8) (asid : BitVec 16) (n k : Nat) : (s.countEvent vi asid n k).free = s.free := by
  unfold State.countEvent
  simp only
  split
  · rfl
  · split <;> rfl

@[simp] theorem State.enqueueFrom_clk (s : State) (f r : Nat) (b : List Byte) : (s.enqueueFrom f r b).clk = s.clk := by
  rfl
@[simp] theorem State.enqueueFrom_mem (s : State) (f r : Nat) (b : List Byte) : (s.enqueueFrom f r b).mem = s.mem := by
  rfl
@[simp] theorem State.enqueueFrom_poison (s : State) (f r : Nat) (b : List Byte) : (s.enqueueFrom f r b).poison = s.poison := by
  rfl
@[simp] theorem State.enqueueFrom_poisonFrames (s : State) (f r : Nat) (b : List Byte) : (s.enqueueFrom f r b).poisonFrames = s.poisonFrames := by
  rfl
@[simp] theorem State.enqueueFrom_groups (s : State) (f r : Nat) (b : List Byte) : (s.enqueueFrom f r b).groups = s.groups := by
  rfl
@[simp] theorem State.enqueueFrom_threads (s : State) (f r : Nat) (b : List Byte) : (s.enqueueFrom f r b).threads = s.threads := by
  rfl
@[simp] theorem State.enqueueFrom_wgs (s : State) (f r : Nat) (b : List Byte) : (s.enqueueFrom f r b).wgs = s.wgs := by
  rfl
@[simp] theorem State.enqueueFrom_cores (s : State) (f r : Nat) (b : List Byte) : (s.enqueueFrom f r b).cores = s.cores := by
  rfl
@[simp] theorem State.enqueueFrom_clusters (s : State) (f r : Nat) (b : List Byte) : (s.enqueueFrom f r b).clusters = s.clusters := by
  rfl
@[simp] theorem State.enqueueFrom_dies (s : State) (f r : Nat) (b : List Byte) : (s.enqueueFrom f r b).dies = s.dies := by
  rfl
@[simp] theorem State.enqueueFrom_stations (s : State) (f r : Nat) (b : List Byte) : (s.enqueueFrom f r b).stations = s.stations := by
  rfl
@[simp] theorem State.enqueueFrom_accesses (s : State) (f r : Nat) (b : List Byte) : (s.enqueueFrom f r b).accesses = s.accesses := by
  rfl
@[simp] theorem State.enqueueFrom_requests (s : State) (f r : Nat) (b : List Byte) : (s.enqueueFrom f r b).requests = s.requests := by
  rfl
@[simp] theorem State.enqueueFrom_fetches (s : State) (f r : Nat) (b : List Byte) : (s.enqueueFrom f r b).fetches = s.fetches := by
  rfl
@[simp] theorem State.enqueueFrom_engines (s : State) (f r : Nat) (b : List Byte) : (s.enqueueFrom f r b).engines = s.engines := by
  rfl
@[simp] theorem State.enqueueFrom_faults (s : State) (f r : Nat) (b : List Byte) : (s.enqueueFrom f r b).faults = s.faults := by
  rfl
@[simp] theorem State.enqueueFrom_nextId (s : State) (f r : Nat) (b : List Byte) : (s.enqueueFrom f r b).nextId = s.nextId := by
  rfl
@[simp] theorem State.enqueueFrom_nextToken (s : State) (f r : Nat) (b : List Byte) : (s.enqueueFrom f r b).nextToken = s.nextToken := by
  rfl
@[simp] theorem State.enqueueFrom_ranges (s : State) (f r : Nat) (b : List Byte) : (s.enqueueFrom f r b).ranges = s.ranges := by
  rfl
@[simp] theorem State.enqueueFrom_allocs (s : State) (f r : Nat) (b : List Byte) : (s.enqueueFrom f r b).allocs = s.allocs := by
  rfl
@[simp] theorem State.enqueueFrom_monarch (s : State) (f r : Nat) (b : List Byte) : (s.enqueueFrom f r b).monarch = s.monarch := by
  rfl
@[simp] theorem State.enqueueFrom_fabric (s : State) (f r : Nat) (b : List Byte) : (s.enqueueFrom f r b).fabric = s.fabric := by
  rfl
@[simp] theorem State.enqueueFrom_due (s : State) (f r : Nat) (b : List Byte) : (s.enqueueFrom f r b).due = s.due := by
  rfl
@[simp] theorem State.enqueueFrom_agenda (s : State) (f r : Nat) (b : List Byte) : (s.enqueueFrom f r b).agenda = s.agenda := by
  rfl
@[simp] theorem State.enqueueFrom_turn (s : State) (f r : Nat) (b : List Byte) : (s.enqueueFrom f r b).turn = s.turn := by
  rfl
@[simp] theorem State.enqueueFrom_cur (s : State) (f r : Nat) (b : List Byte) : (s.enqueueFrom f r b).cur = s.cur := by
  rfl
@[simp] theorem State.enqueueFrom_behind (s : State) (f r : Nat) (b : List Byte) : (s.enqueueFrom f r b).behind = s.behind := by
  rfl
@[simp] theorem State.enqueueFrom_free (s : State) (f r : Nat) (b : List Byte) : (s.enqueueFrom f r b).free = s.free := by
  rfl

@[simp] theorem State.pcOut_clk (s : State) (f u b : Nat) (es : List PcEntry) (n : Nat) : (s.pcOut f u b es n).clk = s.clk := by
  unfold State.pcOut
  simp only
  split
  · rfl
  · rw [foldl_keeps State.clk _ (fun s x => by simp)]; simp
@[simp] theorem State.pcOut_mem (s : State) (f u b : Nat) (es : List PcEntry) (n : Nat) : (s.pcOut f u b es n).mem = s.mem := by
  unfold State.pcOut
  simp only
  split
  · rfl
  · rw [foldl_keeps State.mem _ (fun s x => by simp)]; simp
@[simp] theorem State.pcOut_poison (s : State) (f u b : Nat) (es : List PcEntry) (n : Nat) : (s.pcOut f u b es n).poison = s.poison := by
  unfold State.pcOut
  simp only
  split
  · rfl
  · rw [foldl_keeps State.poison _ (fun s x => by simp)]; simp
@[simp] theorem State.pcOut_poisonFrames (s : State) (f u b : Nat) (es : List PcEntry) (n : Nat) : (s.pcOut f u b es n).poisonFrames = s.poisonFrames := by
  unfold State.pcOut
  simp only
  split
  · rfl
  · rw [foldl_keeps State.poisonFrames _ (fun s x => by simp)]; simp
@[simp] theorem State.pcOut_groups (s : State) (f u b : Nat) (es : List PcEntry) (n : Nat) : (s.pcOut f u b es n).groups = s.groups := by
  unfold State.pcOut
  simp only
  split
  · rfl
  · rw [foldl_keeps State.groups _ (fun s x => by simp)]; simp
@[simp] theorem State.pcOut_threads (s : State) (f u b : Nat) (es : List PcEntry) (n : Nat) : (s.pcOut f u b es n).threads = s.threads := by
  unfold State.pcOut
  simp only
  split
  · rfl
  · rw [foldl_keeps State.threads _ (fun s x => by simp)]; simp
@[simp] theorem State.pcOut_wgs (s : State) (f u b : Nat) (es : List PcEntry) (n : Nat) : (s.pcOut f u b es n).wgs = s.wgs := by
  unfold State.pcOut
  simp only
  split
  · rfl
  · rw [foldl_keeps State.wgs _ (fun s x => by simp)]; simp
@[simp] theorem State.pcOut_cores (s : State) (f u b : Nat) (es : List PcEntry) (n : Nat) : (s.pcOut f u b es n).cores = s.cores := by
  unfold State.pcOut
  simp only
  split
  · rfl
  · rw [foldl_keeps State.cores _ (fun s x => by simp)]; simp
@[simp] theorem State.pcOut_clusters (s : State) (f u b : Nat) (es : List PcEntry) (n : Nat) : (s.pcOut f u b es n).clusters = s.clusters := by
  unfold State.pcOut
  simp only
  split
  · rfl
  · rw [foldl_keeps State.clusters _ (fun s x => by simp)]; simp
@[simp] theorem State.pcOut_dies (s : State) (f u b : Nat) (es : List PcEntry) (n : Nat) : (s.pcOut f u b es n).dies = s.dies := by
  unfold State.pcOut
  simp only
  split
  · rfl
  · rw [foldl_keeps State.dies _ (fun s x => by simp)]; simp
@[simp] theorem State.pcOut_stations (s : State) (f u b : Nat) (es : List PcEntry) (n : Nat) : (s.pcOut f u b es n).stations = s.stations := by
  unfold State.pcOut
  simp only
  split
  · rfl
  · rw [foldl_keeps State.stations _ (fun s x => by simp)]; simp
@[simp] theorem State.pcOut_accesses (s : State) (f u b : Nat) (es : List PcEntry) (n : Nat) : (s.pcOut f u b es n).accesses = s.accesses := by
  unfold State.pcOut
  simp only
  split
  · rfl
  · rw [foldl_keeps State.accesses _ (fun s x => by simp)]; simp
@[simp] theorem State.pcOut_requests (s : State) (f u b : Nat) (es : List PcEntry) (n : Nat) : (s.pcOut f u b es n).requests = s.requests := by
  unfold State.pcOut
  simp only
  split
  · rfl
  · rw [foldl_keeps State.requests _ (fun s x => by simp)]; simp
@[simp] theorem State.pcOut_fetches (s : State) (f u b : Nat) (es : List PcEntry) (n : Nat) : (s.pcOut f u b es n).fetches = s.fetches := by
  unfold State.pcOut
  simp only
  split
  · rfl
  · rw [foldl_keeps State.fetches _ (fun s x => by simp)]; simp
@[simp] theorem State.pcOut_engines (s : State) (f u b : Nat) (es : List PcEntry) (n : Nat) : (s.pcOut f u b es n).engines = s.engines := by
  unfold State.pcOut
  simp only
  split
  · rfl
  · rw [foldl_keeps State.engines _ (fun s x => by simp)]; simp
@[simp] theorem State.pcOut_faults (s : State) (f u b : Nat) (es : List PcEntry) (n : Nat) : (s.pcOut f u b es n).faults = s.faults := by
  unfold State.pcOut
  simp only
  split
  · rfl
  · rw [foldl_keeps State.faults _ (fun s x => by simp)]; simp
@[simp] theorem State.pcOut_nextId (s : State) (f u b : Nat) (es : List PcEntry) (n : Nat) : (s.pcOut f u b es n).nextId = s.nextId := by
  unfold State.pcOut
  simp only
  split
  · rfl
  · rw [foldl_keeps State.nextId _ (fun s x => by simp)]; simp
@[simp] theorem State.pcOut_nextToken (s : State) (f u b : Nat) (es : List PcEntry) (n : Nat) : (s.pcOut f u b es n).nextToken = s.nextToken := by
  unfold State.pcOut
  simp only
  split
  · rfl
  · rw [foldl_keeps State.nextToken _ (fun s x => by simp)]; simp
@[simp] theorem State.pcOut_ranges (s : State) (f u b : Nat) (es : List PcEntry) (n : Nat) : (s.pcOut f u b es n).ranges = s.ranges := by
  unfold State.pcOut
  simp only
  split
  · rfl
  · rw [foldl_keeps State.ranges _ (fun s x => by simp)]; simp
@[simp] theorem State.pcOut_allocs (s : State) (f u b : Nat) (es : List PcEntry) (n : Nat) : (s.pcOut f u b es n).allocs = s.allocs := by
  unfold State.pcOut
  simp only
  split
  · rfl
  · rw [foldl_keeps State.allocs _ (fun s x => by simp)]; simp
@[simp] theorem State.pcOut_monarch (s : State) (f u b : Nat) (es : List PcEntry) (n : Nat) : (s.pcOut f u b es n).monarch = s.monarch := by
  unfold State.pcOut
  simp only
  split
  · rfl
  · rw [foldl_keeps State.monarch _ (fun s x => by simp)]; simp
@[simp] theorem State.pcOut_fabric (s : State) (f u b : Nat) (es : List PcEntry) (n : Nat) : (s.pcOut f u b es n).fabric = s.fabric := by
  unfold State.pcOut
  simp only
  split
  · rfl
  · rw [foldl_keeps State.fabric _ (fun s x => by simp)]; simp
@[simp] theorem State.pcOut_due (s : State) (f u b : Nat) (es : List PcEntry) (n : Nat) : (s.pcOut f u b es n).due = s.due := by
  unfold State.pcOut
  simp only
  split
  · rfl
  · rw [foldl_keeps State.due _ (fun s x => by simp)]; simp
@[simp] theorem State.pcOut_agenda (s : State) (f u b : Nat) (es : List PcEntry) (n : Nat) : (s.pcOut f u b es n).agenda = s.agenda := by
  unfold State.pcOut
  simp only
  split
  · rfl
  · rw [foldl_keeps State.agenda _ (fun s x => by simp)]; simp
@[simp] theorem State.pcOut_turn (s : State) (f u b : Nat) (es : List PcEntry) (n : Nat) : (s.pcOut f u b es n).turn = s.turn := by
  unfold State.pcOut
  simp only
  split
  · rfl
  · rw [foldl_keeps State.turn _ (fun s x => by simp)]; simp
@[simp] theorem State.pcOut_cur (s : State) (f u b : Nat) (es : List PcEntry) (n : Nat) : (s.pcOut f u b es n).cur = s.cur := by
  unfold State.pcOut
  simp only
  split
  · rfl
  · rw [foldl_keeps State.cur _ (fun s x => by simp)]; simp
@[simp] theorem State.pcOut_behind (s : State) (f u b : Nat) (es : List PcEntry) (n : Nat) : (s.pcOut f u b es n).behind = s.behind := by
  unfold State.pcOut
  simp only
  split
  · rfl
  · rw [foldl_keeps State.behind _ (fun s x => by simp)]; simp
@[simp] theorem State.pcOut_free (s : State) (f u b : Nat) (es : List PcEntry) (n : Nat) : (s.pcOut f u b es n).free = s.free := by
  unfold State.pcOut
  simp only
  split
  · rfl
  · rw [foldl_keeps State.free _ (fun s x => by simp)]; simp

@[simp] theorem State.copyTable_clk (s : State) (u : Nat) : (s.copyTable u).clk = s.clk := by
  unfold State.copyTable
  simp only [State.soon_clk, State.modUnit_clk]
  rw [foldl_keeps State.clk _ (fun s x => by simp)]
@[simp] theorem State.copyTable_mem (s : State) (u : Nat) : (s.copyTable u).mem = s.mem := by
  unfold State.copyTable
  simp only [State.soon_mem, State.modUnit_mem]
  rw [foldl_keeps State.mem _ (fun s x => by simp)]
@[simp] theorem State.copyTable_poison (s : State) (u : Nat) : (s.copyTable u).poison = s.poison := by
  unfold State.copyTable
  simp only [State.soon_poison, State.modUnit_poison]
  rw [foldl_keeps State.poison _ (fun s x => by simp)]
@[simp] theorem State.copyTable_poisonFrames (s : State) (u : Nat) : (s.copyTable u).poisonFrames = s.poisonFrames := by
  unfold State.copyTable
  simp only [State.soon_poisonFrames, State.modUnit_poisonFrames]
  rw [foldl_keeps State.poisonFrames _ (fun s x => by simp)]
@[simp] theorem State.copyTable_groups (s : State) (u : Nat) : (s.copyTable u).groups = s.groups := by
  unfold State.copyTable
  simp only [State.soon_groups, State.modUnit_groups]
  rw [foldl_keeps State.groups _ (fun s x => by simp)]
@[simp] theorem State.copyTable_threads (s : State) (u : Nat) : (s.copyTable u).threads = s.threads := by
  unfold State.copyTable
  simp only [State.soon_threads, State.modUnit_threads]
  rw [foldl_keeps State.threads _ (fun s x => by simp)]
@[simp] theorem State.copyTable_wgs (s : State) (u : Nat) : (s.copyTable u).wgs = s.wgs := by
  unfold State.copyTable
  simp only [State.soon_wgs, State.modUnit_wgs]
  rw [foldl_keeps State.wgs _ (fun s x => by simp)]
@[simp] theorem State.copyTable_dies (s : State) (u : Nat) : (s.copyTable u).dies = s.dies := by
  unfold State.copyTable
  simp only [State.soon_dies, State.modUnit_dies]
  rw [foldl_keeps State.dies _ (fun s x => by simp)]
@[simp] theorem State.copyTable_stations (s : State) (u : Nat) : (s.copyTable u).stations = s.stations := by
  unfold State.copyTable
  simp only [State.soon_stations, State.modUnit_stations]
  rw [foldl_keeps State.stations _ (fun s x => by simp)]
@[simp] theorem State.copyTable_accesses (s : State) (u : Nat) : (s.copyTable u).accesses = s.accesses := by
  unfold State.copyTable
  simp only [State.soon_accesses, State.modUnit_accesses]
  rw [foldl_keeps State.accesses _ (fun s x => by simp)]
@[simp] theorem State.copyTable_requests (s : State) (u : Nat) : (s.copyTable u).requests = s.requests := by
  unfold State.copyTable
  simp only [State.soon_requests, State.modUnit_requests]
  rw [foldl_keeps State.requests _ (fun s x => by simp)]
@[simp] theorem State.copyTable_fetches (s : State) (u : Nat) : (s.copyTable u).fetches = s.fetches := by
  unfold State.copyTable
  simp only [State.soon_fetches, State.modUnit_fetches]
  rw [foldl_keeps State.fetches _ (fun s x => by simp)]
@[simp] theorem State.copyTable_engines (s : State) (u : Nat) : (s.copyTable u).engines = s.engines := by
  unfold State.copyTable
  simp only [State.soon_engines, State.modUnit_engines]
  rw [foldl_keeps State.engines _ (fun s x => by simp)]
@[simp] theorem State.copyTable_faults (s : State) (u : Nat) : (s.copyTable u).faults = s.faults := by
  unfold State.copyTable
  simp only [State.soon_faults, State.modUnit_faults]
  rw [foldl_keeps State.faults _ (fun s x => by simp)]
@[simp] theorem State.copyTable_nextId (s : State) (u : Nat) : (s.copyTable u).nextId = s.nextId := by
  unfold State.copyTable
  simp only [State.soon_nextId, State.modUnit_nextId]
  rw [foldl_keeps State.nextId _ (fun s x => by simp)]
@[simp] theorem State.copyTable_nextToken (s : State) (u : Nat) : (s.copyTable u).nextToken = s.nextToken := by
  unfold State.copyTable
  simp only [State.soon_nextToken, State.modUnit_nextToken]
  rw [foldl_keeps State.nextToken _ (fun s x => by simp)]
@[simp] theorem State.copyTable_ranges (s : State) (u : Nat) : (s.copyTable u).ranges = s.ranges := by
  unfold State.copyTable
  simp only [State.soon_ranges, State.modUnit_ranges]
  rw [foldl_keeps State.ranges _ (fun s x => by simp)]
@[simp] theorem State.copyTable_allocs (s : State) (u : Nat) : (s.copyTable u).allocs = s.allocs := by
  unfold State.copyTable
  simp only [State.soon_allocs, State.modUnit_allocs]
  rw [foldl_keeps State.allocs _ (fun s x => by simp)]
@[simp] theorem State.copyTable_monarch (s : State) (u : Nat) : (s.copyTable u).monarch = s.monarch := by
  unfold State.copyTable
  simp only [State.soon_monarch, State.modUnit_monarch]
  rw [foldl_keeps State.monarch _ (fun s x => by simp)]
@[simp] theorem State.copyTable_fabric (s : State) (u : Nat) : (s.copyTable u).fabric = s.fabric := by
  unfold State.copyTable
  simp only [State.soon_fabric, State.modUnit_fabric]
  rw [foldl_keeps State.fabric _ (fun s x => by simp)]
@[simp] theorem State.copyTable_agenda (s : State) (u : Nat) : (s.copyTable u).agenda = s.agenda := by
  unfold State.copyTable
  simp only [State.soon_agenda, State.modUnit_agenda]
  rw [foldl_keeps State.agenda _ (fun s x => by simp)]
@[simp] theorem State.copyTable_turn (s : State) (u : Nat) : (s.copyTable u).turn = s.turn := by
  unfold State.copyTable
  simp only [State.soon_turn, State.modUnit_turn]
  rw [foldl_keeps State.turn _ (fun s x => by simp)]
@[simp] theorem State.copyTable_cur (s : State) (u : Nat) : (s.copyTable u).cur = s.cur := by
  unfold State.copyTable
  simp only [State.soon_cur, State.modUnit_cur]
  rw [foldl_keeps State.cur _ (fun s x => by simp)]
@[simp] theorem State.copyTable_behind (s : State) (u : Nat) : (s.copyTable u).behind = s.behind := by
  unfold State.copyTable
  simp only [State.soon_behind, State.modUnit_behind]
  rw [foldl_keeps State.behind _ (fun s x => by simp)]
@[simp] theorem State.copyTable_free (s : State) (u : Nat) : (s.copyTable u).free = s.free := by
  unfold State.copyTable
  simp only [State.soon_free, State.modUnit_free]
  rw [foldl_keeps State.free _ (fun s x => by simp)]

@[simp] theorem State.chargePc_clk (s : State) (u b : Nat) (pc : Word) (c : Cause) : (s.chargePc u b pc c).clk = s.clk := by
  unfold State.chargePc
  simp only
  split
  · split
    · simp
    · split <;> simp
  · split
    · simp
    · split <;> simp
@[simp] theorem State.chargePc_mem (s : State) (u b : Nat) (pc : Word) (c : Cause) : (s.chargePc u b pc c).mem = s.mem := by
  unfold State.chargePc
  simp only
  split
  · split
    · simp
    · split <;> simp
  · split
    · simp
    · split <;> simp
@[simp] theorem State.chargePc_poison (s : State) (u b : Nat) (pc : Word) (c : Cause) : (s.chargePc u b pc c).poison = s.poison := by
  unfold State.chargePc
  simp only
  split
  · split
    · simp
    · split <;> simp
  · split
    · simp
    · split <;> simp
@[simp] theorem State.chargePc_poisonFrames (s : State) (u b : Nat) (pc : Word) (c : Cause) : (s.chargePc u b pc c).poisonFrames = s.poisonFrames := by
  unfold State.chargePc
  simp only
  split
  · split
    · simp
    · split <;> simp
  · split
    · simp
    · split <;> simp
@[simp] theorem State.chargePc_groups (s : State) (u b : Nat) (pc : Word) (c : Cause) : (s.chargePc u b pc c).groups = s.groups := by
  unfold State.chargePc
  simp only
  split
  · split
    · simp
    · split <;> simp
  · split
    · simp
    · split <;> simp
@[simp] theorem State.chargePc_threads (s : State) (u b : Nat) (pc : Word) (c : Cause) : (s.chargePc u b pc c).threads = s.threads := by
  unfold State.chargePc
  simp only
  split
  · split
    · simp
    · split <;> simp
  · split
    · simp
    · split <;> simp
@[simp] theorem State.chargePc_wgs (s : State) (u b : Nat) (pc : Word) (c : Cause) : (s.chargePc u b pc c).wgs = s.wgs := by
  unfold State.chargePc
  simp only
  split
  · split
    · simp
    · split <;> simp
  · split
    · simp
    · split <;> simp
@[simp] theorem State.chargePc_dies (s : State) (u b : Nat) (pc : Word) (c : Cause) : (s.chargePc u b pc c).dies = s.dies := by
  unfold State.chargePc
  simp only
  split
  · split
    · simp
    · split <;> simp
  · split
    · simp
    · split <;> simp
@[simp] theorem State.chargePc_stations (s : State) (u b : Nat) (pc : Word) (c : Cause) : (s.chargePc u b pc c).stations = s.stations := by
  unfold State.chargePc
  simp only
  split
  · split
    · simp
    · split <;> simp
  · split
    · simp
    · split <;> simp
@[simp] theorem State.chargePc_accesses (s : State) (u b : Nat) (pc : Word) (c : Cause) : (s.chargePc u b pc c).accesses = s.accesses := by
  unfold State.chargePc
  simp only
  split
  · split
    · simp
    · split <;> simp
  · split
    · simp
    · split <;> simp
@[simp] theorem State.chargePc_requests (s : State) (u b : Nat) (pc : Word) (c : Cause) : (s.chargePc u b pc c).requests = s.requests := by
  unfold State.chargePc
  simp only
  split
  · split
    · simp
    · split <;> simp
  · split
    · simp
    · split <;> simp
@[simp] theorem State.chargePc_fetches (s : State) (u b : Nat) (pc : Word) (c : Cause) : (s.chargePc u b pc c).fetches = s.fetches := by
  unfold State.chargePc
  simp only
  split
  · split
    · simp
    · split <;> simp
  · split
    · simp
    · split <;> simp
@[simp] theorem State.chargePc_engines (s : State) (u b : Nat) (pc : Word) (c : Cause) : (s.chargePc u b pc c).engines = s.engines := by
  unfold State.chargePc
  simp only
  split
  · split
    · simp
    · split <;> simp
  · split
    · simp
    · split <;> simp
@[simp] theorem State.chargePc_faults (s : State) (u b : Nat) (pc : Word) (c : Cause) : (s.chargePc u b pc c).faults = s.faults := by
  unfold State.chargePc
  simp only
  split
  · split
    · simp
    · split <;> simp
  · split
    · simp
    · split <;> simp
@[simp] theorem State.chargePc_nextId (s : State) (u b : Nat) (pc : Word) (c : Cause) : (s.chargePc u b pc c).nextId = s.nextId := by
  unfold State.chargePc
  simp only
  split
  · split
    · simp
    · split <;> simp
  · split
    · simp
    · split <;> simp
@[simp] theorem State.chargePc_nextToken (s : State) (u b : Nat) (pc : Word) (c : Cause) : (s.chargePc u b pc c).nextToken = s.nextToken := by
  unfold State.chargePc
  simp only
  split
  · split
    · simp
    · split <;> simp
  · split
    · simp
    · split <;> simp
@[simp] theorem State.chargePc_ranges (s : State) (u b : Nat) (pc : Word) (c : Cause) : (s.chargePc u b pc c).ranges = s.ranges := by
  unfold State.chargePc
  simp only
  split
  · split
    · simp
    · split <;> simp
  · split
    · simp
    · split <;> simp
@[simp] theorem State.chargePc_allocs (s : State) (u b : Nat) (pc : Word) (c : Cause) : (s.chargePc u b pc c).allocs = s.allocs := by
  unfold State.chargePc
  simp only
  split
  · split
    · simp
    · split <;> simp
  · split
    · simp
    · split <;> simp
@[simp] theorem State.chargePc_monarch (s : State) (u b : Nat) (pc : Word) (c : Cause) : (s.chargePc u b pc c).monarch = s.monarch := by
  unfold State.chargePc
  simp only
  split
  · split
    · simp
    · split <;> simp
  · split
    · simp
    · split <;> simp
@[simp] theorem State.chargePc_fabric (s : State) (u b : Nat) (pc : Word) (c : Cause) : (s.chargePc u b pc c).fabric = s.fabric := by
  unfold State.chargePc
  simp only
  split
  · split
    · simp
    · split <;> simp
  · split
    · simp
    · split <;> simp
@[simp] theorem State.chargePc_agenda (s : State) (u b : Nat) (pc : Word) (c : Cause) : (s.chargePc u b pc c).agenda = s.agenda := by
  unfold State.chargePc
  simp only
  split
  · split
    · simp
    · split <;> simp
  · split
    · simp
    · split <;> simp
@[simp] theorem State.chargePc_turn (s : State) (u b : Nat) (pc : Word) (c : Cause) : (s.chargePc u b pc c).turn = s.turn := by
  unfold State.chargePc
  simp only
  split
  · split
    · simp
    · split <;> simp
  · split
    · simp
    · split <;> simp
@[simp] theorem State.chargePc_cur (s : State) (u b : Nat) (pc : Word) (c : Cause) : (s.chargePc u b pc c).cur = s.cur := by
  unfold State.chargePc
  simp only
  split
  · split
    · simp
    · split <;> simp
  · split
    · simp
    · split <;> simp
@[simp] theorem State.chargePc_behind (s : State) (u b : Nat) (pc : Word) (c : Cause) : (s.chargePc u b pc c).behind = s.behind := by
  unfold State.chargePc
  simp only
  split
  · split
    · simp
    · split <;> simp
  · split
    · simp
    · split <;> simp
@[simp] theorem State.chargePc_free (s : State) (u b : Nat) (pc : Word) (c : Cause) : (s.chargePc u b pc c).free = s.free := by
  unfold State.chargePc
  simp only
  split
  · split
    · simp
    · split <;> simp
  · split
    · simp
    · split <;> simp

@[simp] theorem State.charge_clk (s : State) (u : Nat) (vi : BitVec 8) (asid : BitVec 16) (pc : Word) (c : Cause) (a : Option Agent) (w : Option Nat) : (s.charge u vi asid pc c a w).clk = s.clk := by
  unfold State.charge
  cases w <;> simp only <;> split <;> split <;> simp
@[simp] theorem State.charge_mem (s : State) (u : Nat) (vi : BitVec 8) (asid : BitVec 16) (pc : Word) (c : Cause) (a : Option Agent) (w : Option Nat) : (s.charge u vi asid pc c a w).mem = s.mem := by
  unfold State.charge
  cases w <;> simp only <;> split <;> split <;> simp
@[simp] theorem State.charge_poison (s : State) (u : Nat) (vi : BitVec 8) (asid : BitVec 16) (pc : Word) (c : Cause) (a : Option Agent) (w : Option Nat) : (s.charge u vi asid pc c a w).poison = s.poison := by
  unfold State.charge
  cases w <;> simp only <;> split <;> split <;> simp
@[simp] theorem State.charge_poisonFrames (s : State) (u : Nat) (vi : BitVec 8) (asid : BitVec 16) (pc : Word) (c : Cause) (a : Option Agent) (w : Option Nat) : (s.charge u vi asid pc c a w).poisonFrames = s.poisonFrames := by
  unfold State.charge
  cases w <;> simp only <;> split <;> split <;> simp
@[simp] theorem State.charge_groups (s : State) (u : Nat) (vi : BitVec 8) (asid : BitVec 16) (pc : Word) (c : Cause) (a : Option Agent) (w : Option Nat) : (s.charge u vi asid pc c a w).groups = s.groups := by
  unfold State.charge
  cases w <;> simp only <;> split <;> split <;> simp
@[simp] theorem State.charge_threads (s : State) (u : Nat) (vi : BitVec 8) (asid : BitVec 16) (pc : Word) (c : Cause) (a : Option Agent) (w : Option Nat) : (s.charge u vi asid pc c a w).threads = s.threads := by
  unfold State.charge
  cases w <;> simp only <;> split <;> split <;> simp
@[simp] theorem State.charge_dies (s : State) (u : Nat) (vi : BitVec 8) (asid : BitVec 16) (pc : Word) (c : Cause) (a : Option Agent) (w : Option Nat) : (s.charge u vi asid pc c a w).dies = s.dies := by
  unfold State.charge
  cases w <;> simp only <;> split <;> split <;> simp
@[simp] theorem State.charge_stations (s : State) (u : Nat) (vi : BitVec 8) (asid : BitVec 16) (pc : Word) (c : Cause) (a : Option Agent) (w : Option Nat) : (s.charge u vi asid pc c a w).stations = s.stations := by
  unfold State.charge
  cases w <;> simp only <;> split <;> split <;> simp
@[simp] theorem State.charge_accesses (s : State) (u : Nat) (vi : BitVec 8) (asid : BitVec 16) (pc : Word) (c : Cause) (a : Option Agent) (w : Option Nat) : (s.charge u vi asid pc c a w).accesses = s.accesses := by
  unfold State.charge
  cases w <;> simp only <;> split <;> split <;> simp
@[simp] theorem State.charge_requests (s : State) (u : Nat) (vi : BitVec 8) (asid : BitVec 16) (pc : Word) (c : Cause) (a : Option Agent) (w : Option Nat) : (s.charge u vi asid pc c a w).requests = s.requests := by
  unfold State.charge
  cases w <;> simp only <;> split <;> split <;> simp
@[simp] theorem State.charge_fetches (s : State) (u : Nat) (vi : BitVec 8) (asid : BitVec 16) (pc : Word) (c : Cause) (a : Option Agent) (w : Option Nat) : (s.charge u vi asid pc c a w).fetches = s.fetches := by
  unfold State.charge
  cases w <;> simp only <;> split <;> split <;> simp
@[simp] theorem State.charge_engines (s : State) (u : Nat) (vi : BitVec 8) (asid : BitVec 16) (pc : Word) (c : Cause) (a : Option Agent) (w : Option Nat) : (s.charge u vi asid pc c a w).engines = s.engines := by
  unfold State.charge
  cases w <;> simp only <;> split <;> split <;> simp
@[simp] theorem State.charge_faults (s : State) (u : Nat) (vi : BitVec 8) (asid : BitVec 16) (pc : Word) (c : Cause) (a : Option Agent) (w : Option Nat) : (s.charge u vi asid pc c a w).faults = s.faults := by
  unfold State.charge
  cases w <;> simp only <;> split <;> split <;> simp
@[simp] theorem State.charge_nextId (s : State) (u : Nat) (vi : BitVec 8) (asid : BitVec 16) (pc : Word) (c : Cause) (a : Option Agent) (w : Option Nat) : (s.charge u vi asid pc c a w).nextId = s.nextId := by
  unfold State.charge
  cases w <;> simp only <;> split <;> split <;> simp
@[simp] theorem State.charge_nextToken (s : State) (u : Nat) (vi : BitVec 8) (asid : BitVec 16) (pc : Word) (c : Cause) (a : Option Agent) (w : Option Nat) : (s.charge u vi asid pc c a w).nextToken = s.nextToken := by
  unfold State.charge
  cases w <;> simp only <;> split <;> split <;> simp
@[simp] theorem State.charge_ranges (s : State) (u : Nat) (vi : BitVec 8) (asid : BitVec 16) (pc : Word) (c : Cause) (a : Option Agent) (w : Option Nat) : (s.charge u vi asid pc c a w).ranges = s.ranges := by
  unfold State.charge
  cases w <;> simp only <;> split <;> split <;> simp
@[simp] theorem State.charge_allocs (s : State) (u : Nat) (vi : BitVec 8) (asid : BitVec 16) (pc : Word) (c : Cause) (a : Option Agent) (w : Option Nat) : (s.charge u vi asid pc c a w).allocs = s.allocs := by
  unfold State.charge
  cases w <;> simp only <;> split <;> split <;> simp
@[simp] theorem State.charge_monarch (s : State) (u : Nat) (vi : BitVec 8) (asid : BitVec 16) (pc : Word) (c : Cause) (a : Option Agent) (w : Option Nat) : (s.charge u vi asid pc c a w).monarch = s.monarch := by
  unfold State.charge
  cases w <;> simp only <;> split <;> split <;> simp
@[simp] theorem State.charge_fabric (s : State) (u : Nat) (vi : BitVec 8) (asid : BitVec 16) (pc : Word) (c : Cause) (a : Option Agent) (w : Option Nat) : (s.charge u vi asid pc c a w).fabric = s.fabric := by
  unfold State.charge
  cases w <;> simp only <;> split <;> split <;> simp
@[simp] theorem State.charge_agenda (s : State) (u : Nat) (vi : BitVec 8) (asid : BitVec 16) (pc : Word) (c : Cause) (a : Option Agent) (w : Option Nat) : (s.charge u vi asid pc c a w).agenda = s.agenda := by
  unfold State.charge
  cases w <;> simp only <;> split <;> split <;> simp
@[simp] theorem State.charge_turn (s : State) (u : Nat) (vi : BitVec 8) (asid : BitVec 16) (pc : Word) (c : Cause) (a : Option Agent) (w : Option Nat) : (s.charge u vi asid pc c a w).turn = s.turn := by
  unfold State.charge
  cases w <;> simp only <;> split <;> split <;> simp
@[simp] theorem State.charge_cur (s : State) (u : Nat) (vi : BitVec 8) (asid : BitVec 16) (pc : Word) (c : Cause) (a : Option Agent) (w : Option Nat) : (s.charge u vi asid pc c a w).cur = s.cur := by
  unfold State.charge
  cases w <;> simp only <;> split <;> split <;> simp
@[simp] theorem State.charge_behind (s : State) (u : Nat) (vi : BitVec 8) (asid : BitVec 16) (pc : Word) (c : Cause) (a : Option Agent) (w : Option Nat) : (s.charge u vi asid pc c a w).behind = s.behind := by
  unfold State.charge
  cases w <;> simp only <;> split <;> split <;> simp
@[simp] theorem State.charge_free (s : State) (u : Nat) (vi : BitVec 8) (asid : BitVec 16) (pc : Word) (c : Cause) (a : Option Agent) (w : Option Nat) : (s.charge u vi asid pc c a w).free = s.free := by
  unfold State.charge
  cases w <;> simp only <;> split <;> split <;> simp

@[simp] theorem State.useSlot_clk (s : State) (a : Agent) (pc : Word) (c : Cause) : (s.useSlot a pc c).clk = s.clk := by
  cases a <;> simp [State.useSlot]
@[simp] theorem State.useSlot_mem (s : State) (a : Agent) (pc : Word) (c : Cause) : (s.useSlot a pc c).mem = s.mem := by
  cases a <;> simp [State.useSlot]
@[simp] theorem State.useSlot_poison (s : State) (a : Agent) (pc : Word) (c : Cause) : (s.useSlot a pc c).poison = s.poison := by
  cases a <;> simp [State.useSlot]
@[simp] theorem State.useSlot_poisonFrames (s : State) (a : Agent) (pc : Word) (c : Cause) : (s.useSlot a pc c).poisonFrames = s.poisonFrames := by
  cases a <;> simp [State.useSlot]
@[simp] theorem State.useSlot_dies (s : State) (a : Agent) (pc : Word) (c : Cause) : (s.useSlot a pc c).dies = s.dies := by
  cases a <;> simp [State.useSlot]
@[simp] theorem State.useSlot_stations (s : State) (a : Agent) (pc : Word) (c : Cause) : (s.useSlot a pc c).stations = s.stations := by
  cases a <;> simp [State.useSlot]
@[simp] theorem State.useSlot_accesses (s : State) (a : Agent) (pc : Word) (c : Cause) : (s.useSlot a pc c).accesses = s.accesses := by
  cases a <;> simp [State.useSlot]
@[simp] theorem State.useSlot_requests (s : State) (a : Agent) (pc : Word) (c : Cause) : (s.useSlot a pc c).requests = s.requests := by
  cases a <;> simp [State.useSlot]
@[simp] theorem State.useSlot_fetches (s : State) (a : Agent) (pc : Word) (c : Cause) : (s.useSlot a pc c).fetches = s.fetches := by
  cases a <;> simp [State.useSlot]
@[simp] theorem State.useSlot_engines (s : State) (a : Agent) (pc : Word) (c : Cause) : (s.useSlot a pc c).engines = s.engines := by
  cases a <;> simp [State.useSlot]
@[simp] theorem State.useSlot_faults (s : State) (a : Agent) (pc : Word) (c : Cause) : (s.useSlot a pc c).faults = s.faults := by
  cases a <;> simp [State.useSlot]
@[simp] theorem State.useSlot_nextId (s : State) (a : Agent) (pc : Word) (c : Cause) : (s.useSlot a pc c).nextId = s.nextId := by
  cases a <;> simp [State.useSlot]
@[simp] theorem State.useSlot_nextToken (s : State) (a : Agent) (pc : Word) (c : Cause) : (s.useSlot a pc c).nextToken = s.nextToken := by
  cases a <;> simp [State.useSlot]
@[simp] theorem State.useSlot_ranges (s : State) (a : Agent) (pc : Word) (c : Cause) : (s.useSlot a pc c).ranges = s.ranges := by
  cases a <;> simp [State.useSlot]
@[simp] theorem State.useSlot_allocs (s : State) (a : Agent) (pc : Word) (c : Cause) : (s.useSlot a pc c).allocs = s.allocs := by
  cases a <;> simp [State.useSlot]
@[simp] theorem State.useSlot_monarch (s : State) (a : Agent) (pc : Word) (c : Cause) : (s.useSlot a pc c).monarch = s.monarch := by
  cases a <;> simp [State.useSlot]
@[simp] theorem State.useSlot_fabric (s : State) (a : Agent) (pc : Word) (c : Cause) : (s.useSlot a pc c).fabric = s.fabric := by
  cases a <;> simp [State.useSlot]
@[simp] theorem State.useSlot_agenda (s : State) (a : Agent) (pc : Word) (c : Cause) : (s.useSlot a pc c).agenda = s.agenda := by
  cases a <;> simp [State.useSlot]
@[simp] theorem State.useSlot_cur (s : State) (a : Agent) (pc : Word) (c : Cause) : (s.useSlot a pc c).cur = s.cur := by
  cases a <;> simp [State.useSlot]
@[simp] theorem State.useSlot_behind (s : State) (a : Agent) (pc : Word) (c : Cause) : (s.useSlot a pc c).behind = s.behind := by
  cases a <;> simp [State.useSlot]
@[simp] theorem State.useSlot_free (s : State) (a : Agent) (pc : Word) (c : Cause) : (s.useSlot a pc c).free = s.free := by
  cases a <;> simp [State.useSlot]

@[simp] theorem State.markParcels_clk (s : State) (a : Agent) (pc : Word) (n : Nat) : (s.markParcels a pc n).clk = s.clk := by
  unfold State.markParcels
  exact foldl_keeps State.clk _ (fun s x => by simp) _ s
@[simp] theorem State.markParcels_mem (s : State) (a : Agent) (pc : Word) (n : Nat) : (s.markParcels a pc n).mem = s.mem := by
  unfold State.markParcels
  exact foldl_keeps State.mem _ (fun s x => by simp) _ s
@[simp] theorem State.markParcels_poison (s : State) (a : Agent) (pc : Word) (n : Nat) : (s.markParcels a pc n).poison = s.poison := by
  unfold State.markParcels
  exact foldl_keeps State.poison _ (fun s x => by simp) _ s
@[simp] theorem State.markParcels_poisonFrames (s : State) (a : Agent) (pc : Word) (n : Nat) : (s.markParcels a pc n).poisonFrames = s.poisonFrames := by
  unfold State.markParcels
  exact foldl_keeps State.poisonFrames _ (fun s x => by simp) _ s
@[simp] theorem State.markParcels_groups (s : State) (a : Agent) (pc : Word) (n : Nat) : (s.markParcels a pc n).groups = s.groups := by
  unfold State.markParcels
  exact foldl_keeps State.groups _ (fun s x => by simp) _ s
@[simp] theorem State.markParcels_threads (s : State) (a : Agent) (pc : Word) (n : Nat) : (s.markParcels a pc n).threads = s.threads := by
  unfold State.markParcels
  exact foldl_keeps State.threads _ (fun s x => by simp) _ s
@[simp] theorem State.markParcels_wgs (s : State) (a : Agent) (pc : Word) (n : Nat) : (s.markParcels a pc n).wgs = s.wgs := by
  unfold State.markParcels
  exact foldl_keeps State.wgs _ (fun s x => by simp) _ s
@[simp] theorem State.markParcels_dies (s : State) (a : Agent) (pc : Word) (n : Nat) : (s.markParcels a pc n).dies = s.dies := by
  unfold State.markParcels
  exact foldl_keeps State.dies _ (fun s x => by simp) _ s
@[simp] theorem State.markParcels_stations (s : State) (a : Agent) (pc : Word) (n : Nat) : (s.markParcels a pc n).stations = s.stations := by
  unfold State.markParcels
  exact foldl_keeps State.stations _ (fun s x => by simp) _ s
@[simp] theorem State.markParcels_accesses (s : State) (a : Agent) (pc : Word) (n : Nat) : (s.markParcels a pc n).accesses = s.accesses := by
  unfold State.markParcels
  exact foldl_keeps State.accesses _ (fun s x => by simp) _ s
@[simp] theorem State.markParcels_requests (s : State) (a : Agent) (pc : Word) (n : Nat) : (s.markParcels a pc n).requests = s.requests := by
  unfold State.markParcels
  exact foldl_keeps State.requests _ (fun s x => by simp) _ s
@[simp] theorem State.markParcels_fetches (s : State) (a : Agent) (pc : Word) (n : Nat) : (s.markParcels a pc n).fetches = s.fetches := by
  unfold State.markParcels
  exact foldl_keeps State.fetches _ (fun s x => by simp) _ s
@[simp] theorem State.markParcels_engines (s : State) (a : Agent) (pc : Word) (n : Nat) : (s.markParcels a pc n).engines = s.engines := by
  unfold State.markParcels
  exact foldl_keeps State.engines _ (fun s x => by simp) _ s
@[simp] theorem State.markParcels_faults (s : State) (a : Agent) (pc : Word) (n : Nat) : (s.markParcels a pc n).faults = s.faults := by
  unfold State.markParcels
  exact foldl_keeps State.faults _ (fun s x => by simp) _ s
@[simp] theorem State.markParcels_nextId (s : State) (a : Agent) (pc : Word) (n : Nat) : (s.markParcels a pc n).nextId = s.nextId := by
  unfold State.markParcels
  exact foldl_keeps State.nextId _ (fun s x => by simp) _ s
@[simp] theorem State.markParcels_nextToken (s : State) (a : Agent) (pc : Word) (n : Nat) : (s.markParcels a pc n).nextToken = s.nextToken := by
  unfold State.markParcels
  exact foldl_keeps State.nextToken _ (fun s x => by simp) _ s
@[simp] theorem State.markParcels_ranges (s : State) (a : Agent) (pc : Word) (n : Nat) : (s.markParcels a pc n).ranges = s.ranges := by
  unfold State.markParcels
  exact foldl_keeps State.ranges _ (fun s x => by simp) _ s
@[simp] theorem State.markParcels_allocs (s : State) (a : Agent) (pc : Word) (n : Nat) : (s.markParcels a pc n).allocs = s.allocs := by
  unfold State.markParcels
  exact foldl_keeps State.allocs _ (fun s x => by simp) _ s
@[simp] theorem State.markParcels_monarch (s : State) (a : Agent) (pc : Word) (n : Nat) : (s.markParcels a pc n).monarch = s.monarch := by
  unfold State.markParcels
  exact foldl_keeps State.monarch _ (fun s x => by simp) _ s
@[simp] theorem State.markParcels_mgmt (s : State) (a : Agent) (pc : Word) (n : Nat) : (s.markParcels a pc n).mgmt = s.mgmt := by
  unfold State.markParcels
  exact foldl_keeps State.mgmt _ (fun s x => by simp) _ s
@[simp] theorem State.markParcels_fabric (s : State) (a : Agent) (pc : Word) (n : Nat) : (s.markParcels a pc n).fabric = s.fabric := by
  unfold State.markParcels
  exact foldl_keeps State.fabric _ (fun s x => by simp) _ s
@[simp] theorem State.markParcels_due (s : State) (a : Agent) (pc : Word) (n : Nat) : (s.markParcels a pc n).due = s.due := by
  unfold State.markParcels
  exact foldl_keeps State.due _ (fun s x => by simp) _ s
@[simp] theorem State.markParcels_agenda (s : State) (a : Agent) (pc : Word) (n : Nat) : (s.markParcels a pc n).agenda = s.agenda := by
  unfold State.markParcels
  exact foldl_keeps State.agenda _ (fun s x => by simp) _ s
@[simp] theorem State.markParcels_turn (s : State) (a : Agent) (pc : Word) (n : Nat) : (s.markParcels a pc n).turn = s.turn := by
  unfold State.markParcels
  exact foldl_keeps State.turn _ (fun s x => by simp) _ s
@[simp] theorem State.markParcels_cur (s : State) (a : Agent) (pc : Word) (n : Nat) : (s.markParcels a pc n).cur = s.cur := by
  unfold State.markParcels
  exact foldl_keeps State.cur _ (fun s x => by simp) _ s
@[simp] theorem State.markParcels_behind (s : State) (a : Agent) (pc : Word) (n : Nat) : (s.markParcels a pc n).behind = s.behind := by
  unfold State.markParcels
  exact foldl_keeps State.behind _ (fun s x => by simp) _ s
@[simp] theorem State.markParcels_free (s : State) (a : Agent) (pc : Word) (n : Nat) : (s.markParcels a pc n).free = s.free := by
  unfold State.markParcels
  exact foldl_keeps State.free _ (fun s x => by simp) _ s

@[simp] theorem State.retire_clk (s : State) (n : Need) (c : Ctx) (pc : Word) : (s.retire n c pc).clk = s.clk := by
  unfold State.retire
  cases c.a <;> simp
@[simp] theorem State.retire_mem (s : State) (n : Need) (c : Ctx) (pc : Word) : (s.retire n c pc).mem = s.mem := by
  unfold State.retire
  cases c.a <;> simp
@[simp] theorem State.retire_poison (s : State) (n : Need) (c : Ctx) (pc : Word) : (s.retire n c pc).poison = s.poison := by
  unfold State.retire
  cases c.a <;> simp
@[simp] theorem State.retire_poisonFrames (s : State) (n : Need) (c : Ctx) (pc : Word) : (s.retire n c pc).poisonFrames = s.poisonFrames := by
  unfold State.retire
  cases c.a <;> simp
@[simp] theorem State.retire_dies (s : State) (n : Need) (c : Ctx) (pc : Word) : (s.retire n c pc).dies = s.dies := by
  unfold State.retire
  cases c.a <;> simp
@[simp] theorem State.retire_stations (s : State) (n : Need) (c : Ctx) (pc : Word) : (s.retire n c pc).stations = s.stations := by
  unfold State.retire
  cases c.a <;> simp
@[simp] theorem State.retire_accesses (s : State) (n : Need) (c : Ctx) (pc : Word) : (s.retire n c pc).accesses = s.accesses := by
  unfold State.retire
  cases c.a <;> simp
@[simp] theorem State.retire_requests (s : State) (n : Need) (c : Ctx) (pc : Word) : (s.retire n c pc).requests = s.requests := by
  unfold State.retire
  cases c.a <;> simp
@[simp] theorem State.retire_fetches (s : State) (n : Need) (c : Ctx) (pc : Word) : (s.retire n c pc).fetches = s.fetches := by
  unfold State.retire
  cases c.a <;> simp
@[simp] theorem State.retire_engines (s : State) (n : Need) (c : Ctx) (pc : Word) : (s.retire n c pc).engines = s.engines := by
  unfold State.retire
  cases c.a <;> simp
@[simp] theorem State.retire_faults (s : State) (n : Need) (c : Ctx) (pc : Word) : (s.retire n c pc).faults = s.faults := by
  unfold State.retire
  cases c.a <;> simp
@[simp] theorem State.retire_nextId (s : State) (n : Need) (c : Ctx) (pc : Word) : (s.retire n c pc).nextId = s.nextId := by
  unfold State.retire
  cases c.a <;> simp
@[simp] theorem State.retire_nextToken (s : State) (n : Need) (c : Ctx) (pc : Word) : (s.retire n c pc).nextToken = s.nextToken := by
  unfold State.retire
  cases c.a <;> simp
@[simp] theorem State.retire_ranges (s : State) (n : Need) (c : Ctx) (pc : Word) : (s.retire n c pc).ranges = s.ranges := by
  unfold State.retire
  cases c.a <;> simp
@[simp] theorem State.retire_allocs (s : State) (n : Need) (c : Ctx) (pc : Word) : (s.retire n c pc).allocs = s.allocs := by
  unfold State.retire
  cases c.a <;> simp
@[simp] theorem State.retire_monarch (s : State) (n : Need) (c : Ctx) (pc : Word) : (s.retire n c pc).monarch = s.monarch := by
  unfold State.retire
  cases c.a <;> simp
@[simp] theorem State.retire_fabric (s : State) (n : Need) (c : Ctx) (pc : Word) : (s.retire n c pc).fabric = s.fabric := by
  unfold State.retire
  cases c.a <;> simp
@[simp] theorem State.retire_agenda (s : State) (n : Need) (c : Ctx) (pc : Word) : (s.retire n c pc).agenda = s.agenda := by
  unfold State.retire
  cases c.a <;> simp
@[simp] theorem State.retire_cur (s : State) (n : Need) (c : Ctx) (pc : Word) : (s.retire n c pc).cur = s.cur := by
  unfold State.retire
  cases c.a <;> simp
@[simp] theorem State.retire_behind (s : State) (n : Need) (c : Ctx) (pc : Word) : (s.retire n c pc).behind = s.behind := by
  unfold State.retire
  cases c.a <;> simp
@[simp] theorem State.retire_free (s : State) (n : Need) (c : Ctx) (pc : Word) : (s.retire n c pc).free = s.free := by
  unfold State.retire
  cases c.a <;> simp

end Sys2Proof.Machine
end

