-- ==== Sys2Proof/Laws/Issue.lean ====
section
/-!
SUPPORT. What a sequence comes to once its gate is open (spec/29_errors_execution.md R362), one lemma for each answer of its meaning.
-/

namespace Sys2Proof.Machine

/-- An open gate answers with the agent, its address, the address behind the sequence and its active lanes. -/
theorem gate_go {n : Need} {a : Agent} {s : State} {c : Ctx} {t : State} (h : gate n a s = .go c t) :
    c.a = a ∧ c.pc = (s.strand a).pc ∧ c.next = (s.strand a).pc + BitVec.ofNat 64 n.len ∧
      c.replay = (s.strand a).park.isSome := by
  unfold gate at h
  simp only at h
  repeat' split at h
  all_goals first
    | (cases h; done)
    | (simp only [Gate.go.injEq] at h; obtain ⟨rfl, -⟩ := h; exact ⟨rfl, rfl, rfl, rfl⟩)

theorem opens_agent {n : Need} {a : Agent} {s : State} {c : Ctx} {t : State} (h : Opens n a s c t) : c.a = a := (gate_go h.2.2).1
theorem opens_pc {n : Need} {a : Agent} {s : State} {c : Ctx} {t : State} (h : Opens n a s c t) : c.pc = (s.strand a).pc :=
  (gate_go h.2.2).2.1
theorem opens_next {n : Need} {a : Agent} {s : State} {c : Ctx} {t : State} (h : Opens n a s c t) :
    c.next = (s.strand a).pc + BitVec.ofNat 64 n.len := (gate_go h.2.2).2.2.1

/-- With the gate open, the issue answers what the body does. -/
theorem issue_open {n : Need} {a : Agent} {s : State} {c : Ctx} {t : State} (h : Opens n a s c t) (body : Ctx → State → Act) :
    issue n body s = match body c t with
      | .done u => .next (u.retire n c c.next)
      | .jump u pc => .next (u.retire n c pc)
      | .wait w => .next (s.blockNeed a n w)
      | .trap code val => .next (s.takeTrap a code val)
      | .trapOn u code val => .next (u.takeTrap a code val)
      | .trapAnd f code val => .next ((f s).takeTrap a code val)
      | .sys code val => .next (s.takeTrapAs a true code val)
      | .park u mask tok => .next ((u.block a .fault).parkAt a mask tok c.popped)
      | .gone u => .next u := by
  obtain ⟨hc, ha, hg⟩ := h
  simp only [issue, hc, ha, hg, Bool.not_true, Bool.false_eq_true, if_false] <;> (cases body c t <;> rfl)

/-- A body that is done: the issue leaves its effect, and the agent goes on behind the sequence. -/
theorem issue_done {n : Need} {a : Agent} {s : State} {c : Ctx} {t u : State} (h : Opens n a s c t) {body : Ctx → State → Act}
    (hb : body c t = .done u) : issue n body s = .next (u.retire n c ((s.strand a).pc + BitVec.ofNat 64 n.len)) := by
  rw [issue_open h, hb, opens_next h]

/-- A body that jumps. -/
theorem issue_jump {n : Need} {a : Agent} {s : State} {c : Ctx} {t u : State} {pc : Word} (h : Opens n a s c t)
    {body : Ctx → State → Act} (hb : body c t = .jump u pc) : issue n body s = .next (u.retire n c pc) := by
  rw [issue_open h, hb]

/-- A body that traps: the state before the issue takes the trap. -/
theorem issue_trap {n : Need} {a : Agent} {s : State} {c : Ctx} {t : State} {code : BitVec 8} {val : Word} (h : Opens n a s c t)
    {body : Ctx → State → Act} (hb : body c t = .trap code val) : issue n body s = .next (s.takeTrap a code val) := by
  rw [issue_open h, hb]

/-- A body that waits. -/
theorem issue_wait {n : Need} {a : Agent} {s : State} {c : Ctx} {t : State} {w : Cause} (h : Opens n a s c t)
    {body : Ctx → State → Act} (hb : body c t = .wait w) : issue n body s = .next (s.blockNeed a n w) := by
  rw [issue_open h, hb]

/-- A body after which the agent's place is set, or it has ended. -/
theorem issue_gone {n : Need} {a : Agent} {s : State} {c : Ctx} {t u : State} (h : Opens n a s c t)
    {body : Ctx → State → Act} (hb : body c t = .gone u) : issue n body s = .next u := by
  rw [issue_open h, hb]

/-- A closed gate that traps. -/
theorem issue_gate_trap {n : Need} {a : Agent} {s : State} {code : BitVec 8} {val : Word} (hc : s.cur = some a)
    (ha : s.alive a = true) (hg : gate n a s = .trap code val) (body : Ctx → State → Act) :
    issue n body s = .next (s.takeTrap a code val) := by
  simp only [issue, hc, ha, hg, Bool.not_true, Bool.false_eq_true, if_false]

/-- A closed gate that waits: the agent is blocked under the cause, and nothing issues. -/
theorem issue_gate_block {n : Need} {a : Agent} {s : State} {w : Cause} (hc : s.cur = some a)
    (ha : s.alive a = true) (hg : gate n a s = .block w) (body : Ctx → State → Act) :
    issue n body s = .next (s.blockNeed a n w) := by
  simp only [issue, hc, ha, hg, Bool.not_true, Bool.false_eq_true, if_false]

/-! The same, for an outcome that is known to be an issue, in the form in which a statement gives the next state. -/

theorem done_of {n : Need} {a : Agent} {s : State} {c : Ctx} {t u v : State} {pc : Word} {o : Host.Outcome State Fault Refusal}
    (h : Opens n a s c t) {body : Ctx → State → Act} (ho : o = issue n body s) (hb : body c t = .done u)
    (hp : (s.strand a).pc + BitVec.ofNat 64 n.len = pc) (hu : u = v) : o = .next (v.retire n c pc) := by
  subst ho hp hu
  exact issue_done h hb

theorem jump_of {n : Need} {a : Agent} {s : State} {c : Ctx} {t u v : State} {pc p : Word} {o : Host.Outcome State Fault Refusal}
    (h : Opens n a s c t) {body : Ctx → State → Act} (ho : o = issue n body s) (hb : body c t = .jump u p) (hp : p = pc)
    (hu : u = v) : o = .next (v.retire n c pc) := by
  subst ho hp hu
  exact issue_jump h hb

theorem gone_of {n : Need} {a : Agent} {s : State} {c : Ctx} {t u v : State} {o : Host.Outcome State Fault Refusal}
    (h : Opens n a s c t) {body : Ctx → State → Act} (ho : o = issue n body s) (hb : body c t = .gone u) (hu : u = v) :
    o = .next v := by
  subst ho hu
  exact issue_gone h hb

theorem trap_of {n : Need} {a : Agent} {s : State} {c : Ctx} {t : State} {code : BitVec 8} {val : Word}
    {o : Host.Outcome State Fault Refusal} (h : Opens n a s c t) {body : Ctx → State → Act} (ho : o = issue n body s)
    (hb : body c t = .trap code val) : o = .next (s.takeTrap a code val) := by
  subst ho
  exact issue_trap h hb

theorem wait_of {n : Need} {a : Agent} {s : State} {c : Ctx} {t : State} {w : Cause} {o : Host.Outcome State Fault Refusal}
    (h : Opens n a s c t) {body : Ctx → State → Act} (ho : o = issue n body s) (hb : body c t = .wait w) :
    o = .next (s.blockNeed a n w) := by
  subst ho
  exact issue_wait h hb

/-- Whether the agent's gate is open and a test holds of what the issue then works with. -/
def opensAnd (n : Need) (a : Agent) (s : State) (p : Ctx → State → Bool) : Bool :=
  s.cur == some a && s.alive a && match gate n a s with
    | .go c t => p c t
    | _ => false

theorem opensAnd_spec {n : Need} {a : Agent} {s : State} {p : Ctx → State → Bool} (h : opensAnd n a s p = true) :
    ∃ c t, Opens n a s c t ∧ p c t = true := by
  unfold opensAnd at h
  simp only [Bool.and_eq_true, beq_iff_eq] at h
  obtain ⟨⟨hc, ha⟩, hg⟩ := h
  split at hg
  · next c t e => exact ⟨c, t, ⟨hc, ha, e⟩, hg⟩
  · exact absurd hg (by decide)

end Sys2Proof.Machine
end

