-- ==== Sys2Proof/Tests/Slice0.lean ====
section
/-!
SUPPORT. Tests: ill-formed instructions that the checks refuse, a word of the opcode table for every instruction, a witness for the
hypotheses of every statement, and single steps whose results are computed by hand from the spec.
-/

open Sys2Proof Sys2Proof.Machine

/-! ### Well-formedness (R93, R94, R96, R99, R100, R185, R205, R234, R239) -/

/-- A prefix with nothing in it. -/
def noPrefix : Prefix := { pb := 0, pa := 0, c := 0, rm := 0, z := false, k := 0 }

theorem test_wf_add : (Instr.add 1 2 3).wf = true := by decide
theorem test_wf_fma_prefix : (Instr.fma .f32 1 2 3 (some { noPrefix with c := 5, rm := 4, z := true, k := 7, pa := 63, pb := 20 })).wf = true := by
  decide
theorem test_wf_no_c : (Instr.vfpFadd .f32 1 2 3 (some { noPrefix with c := 5 })).wf = false := by decide
theorem test_wf_no_z : (Instr.vredFadd 1 2 (some { noPrefix with z := true })).wf = false := by decide
theorem test_wf_no_k : (Instr.vext 1 2 3 (some { noPrefix with k := 1 })).wf = false := by decide
theorem test_wf_rm_std : (Instr.vfpFadd .f32 1 2 3 (some { noPrefix with rm := 5 })).wf = false := by decide
theorem test_wf_rm_rna : (Instr.vcvtF32S32 1 2 (some { noPrefix with rm := 6 })).wf = false := by decide
theorem test_wf_rm_none : (Instr.vintAdd 1 2 3 (some { noPrefix with rm := 1 })).wf = false := by decide
theorem test_wf_pattern_xor : (Instr.vmov 1 2 (some { noPrefix with pa := 6 })).wf = false := by decide
theorem test_wf_pattern_rotate : (Instr.vintAdd 1 2 3 (some { noPrefix with pb := 21 })).wf = false := by decide
theorem test_wf_pattern_unused : (Instr.vfpFabs .f32 1 2 (some { noPrefix with pb := 1 })).wf = false := by decide
theorem test_wf_join : (Instr.vbr 1 4 0).wf = false ∧ (Instr.vbrN 1 4 0).wf = false ∧ (Instr.vbr 1 4 1).wf = true := by decide
theorem test_wf_port : (Instr.qbind 47 1).wf = false ∧ (Instr.qtry 2 56).wf = false ∧ (Instr.qstat 2 0).wf = false ∧
    (Instr.qbind 48 1).wf = true ∧ (Instr.qtry 2 55).wf = true := by decide
theorem test_wf_accrel : (Instr.accrel 127 1).wf = false ∧ (Instr.accrel 127 0).wf = true := by decide
theorem test_wf_rset : (Instr.rset 1 2 48).wf = false ∧ (Instr.rset 1 48 2).wf = true := by decide
theorem test_wf_zero_parcel : (Instr.vaddF32Compact 0 0).wf = false ∧ (Instr.vaddF32Compact 1 0).wf = true := by decide
theorem test_wf_node : (Instr.nodeL 1 2 0 3).wf = false ∧ (Instr.nodeL 1 2 3 3).wf = true := by decide
theorem test_wf_event : Instr.clk.wf = false ∧ Instr.stackTrap.wf = false ∧ Instr.deviceReset.wf = false := by decide

/-! ### Decoding: a word for every instruction, built from the fields of its row of the opcode table (R91 to R103) -/

theorem test_decode_salu_1 :
    ([0x00B19683, 0x03C92103, 0x058CC103, 0x07042D83, 0x08207183, 0x0A987603, 0x0D174183, 0x0E71BD83] : List Nat).map (decodeTableWord 32) =
      [some (.add 45 12 22), some (.sub 2 9 57), some (.and 2 38 49), some (.or 27 33 32), some (.xor 35 3 4),
      some (.shl 44 3 19), some (.shr 3 58 34), some (.sra 59 13 14)] := rfl

theorem test_decode_salu_2 :
    ([0x1195D203, 0x129FAD83, 0x155B7583, 0x171DB483, 0x19967483, 0x1B837803, 0x1DF65783, 0x1EE8E503] : List Nat).map (decodeTableWord 32) =
      [some (.min 36 46 50), some (.max 27 61 19), some (.minu 43 27 43), some (.maxu 41 45 35), some (.slt 41 51 50),
      some (.sltu 48 27 48), some (.seq 47 50 62), some (.sne 10 7 29)] := rfl

theorem test_decode_salu_3 :
    ([0x215F9403, 0x234CDB83, 0x25CCB603, 0x26BA5403, 0x290D2A03, 0x2A674B03, 0x2DB31D03, 0x2E05AC83] : List Nat).map (decodeTableWord 32) =
      [some (.mul 40 60 43), some (.mulh 55 38 41), some (.mulhu 44 37 57), some (.div 40 18 23), some (.divu 20 41 33),
      some (.rem 22 58 12), some (.remu 58 24 54), some (.clz 25 45)] := rfl

theorem test_decode_salu_4 :
    ([0x30074A03] : List Nat).map (decodeTableWord 32) =
      [some (.popc 20 58)] := rfl

theorem test_decode_salui :
    ([0x68C68B05, 0x0B4DCF05, 0x55103885, 0xA9988705, 0xC8E40785, 0xED6C0705, 0xF2318B85, 0xE8F98C85] : List Nat).map (decodeTableWord 32) =
      [some (.addi 22 52 419 none), some (.andi 30 46 45 none), some (.ori 49 1 340 none), some (.xori 14 4 678 none),
      some (.shli 15 32 803 none), some (.shri 14 32 949 none), some (.srai 23 12 968 none), some (.slti 25 12 931 none)] := rfl

theorem test_decode_sli :
    ([0xDB867F07] : List Nat).map (decodeTableWord 32) =
      [some (.sli 62 449587 none)] := rfl

theorem test_decode_br :
    ([0x5CF51009, 0x9A273589, 0x55E04D09, 0xE1297D09, 0x68AF9D09, 0xB407AA89] : List Nat).map (decodeTableWord 32) =
      [some (.brEqz 32 23797 none), some (.brNez 43 39463 none), some (.brLtz 26 21984 none), some (.brGez 58 57641 none),
      some (.brGtz 58 26799 none), some (.brLez 21 46087 none)] := rfl

theorem test_decode_jmp :
    ([0x0234B20B] : List Nat).map (decodeTableWord 32) =
      [some (.jmp 289124 none)] := rfl

theorem test_decode_call :
    ([0x8631B60D] : List Nat).map (decodeTableWord 32) =
      [some (.call 17589100 none)] := rfl

theorem test_decode_jr :
    ([0x0004000F, 0x0206A00F, 0x0400000F] : List Nat).map (decodeTableWord 32) =
      [some (.jr 32), some (.callr 53), some (.ret)] := rfl

theorem test_decode_vbr :
    ([0xAAC02911, 0x87802F91] : List Nat).map (decodeTableWord 32) =
      [some (.vbr 2 1366 5), some (.vbrN 7 1084 5)] := rfl

theorem test_decode_kbr :
    ([0xD01F7113, 0x86FD6493, 0xB225C993] : List Nat).map (decodeTableWord 32) =
      [some (.kbrAny 2 852471 none), some (.kbrAll 1 552918 none), some (.kbrNone 3 729692 none)] := rfl

theorem test_decode_sys_1 :
    ([0x00000015, 0x030C0995, 0x05E67495, 0x0604E015, 0x08000015, 0x0A000015, 0x0C000015, 0x0E000015] : List Nat).map (decodeTableWord 32) =
      [some (.nop), some (.srd 19 2144), some (.swr 3881 51), some (.trap 39), some (.eret), some (.bkpt), some (.yield),
      some (.exit)] := rfl

theorem test_decode_sys_2 :
    ([0x1004AA15, 0x12064015, 0x14024015] : List Nat).map (decodeTableWord 32) =
      [some (.setfmt 20 37), some (.scfg 50 0), some (.waitcyc 18)] := rfl

theorem test_decode_sync :
    ([0x0058E017, 0x02601B17, 0x046D3117, 0x16200117, 0x0851D497, 0x0A71C017, 0x0C042017, 0x3E054017] : List Nat).map (decodeTableWord 32) =
      [some (.barInit 11 7), some (.barArrive 54 12 false), some (.barWait 34 13 41), some (.barAw 2 4 true),
      some (.barTest 41 10 14), some (.barExpect 14 14 false), some (.fenceX 33), some (.fenceS 42 .device)] := rfl

theorem test_decode_qop :
    ([0x00067999, 0x02069C19, 0x04068099] : List Nat).map (decodeTableWord 32) =
      [some (.qbind 51 51), some (.qtry 56 52), some (.qstat 1 52)] := rfl

theorem test_decode_region :
    ([0x0000001B, 0x0200001B] : List Nat).map (decodeTableWord 32) =
      [some (.region), some (.rclose)] := rfl

theorem test_decode_vfp :
    ([0x0342EAA1, 0x0AE9AFA1, 0x10A108A1, 0x1B5759A1, 0x24ED2C21, 0x2A05E6A1, 0x30044821, 0x3D097221] : List Nat).map (decodeTableWord 32) =
      [some (.vfpFadd .bf16x2 21 23 40 none), some (.vfpFsub .bf16x2 31 13 29 none), some (.vfpFmul .f32 17 8 20 none),
      some (.vfpFmin .bf16x2 51 58 42 none), some (.vfpFmax .f16x2 24 41 29 none), some (.vfpFabs .bf16x2 13 47 none),
      some (.vfpFneg .f32 16 34 none), some (.vfpFcpysgn .f16x2 36 11 33 none)] := rfl

theorem test_decode_vfma :
    ([0x054E6B23, 0x0813A123, 0x1006D3A3, 0x1A44DB23] : List Nat).map (decodeTableWord 32) =
      [some (.fma .f16x2 22 51 41 none), some (.fms .f32 2 29 2 none), some (.nfma .f32 39 54 0 none),
      some (.nfms .bf16x2 54 38 8 none)] := rfl

theorem test_decode_vfps :
    ([0x0099B025, 0x099E4A25, 0x125F8DA5, 0x1A77D225, 0x23E18E25, 0x3C9475A5] : List Nat).map (decodeTableWord 32) =
      [some (.vfpsFadd .f32 32 13 19 none), some (.vfpsFsub .f32 20 50 51 none), some (.vfpsFmul .bf16x2 27 60 11 none),
      some (.vfpsFmin .bf16x2 36 62 14 none), some (.vfpsFmax .bf16x2 28 12 60 none),
      some (.vfpsFcpysgn .f16x2 43 35 18 none)] := rfl

theorem test_decode_vint_1 :
    ([0x01C33FA7, 0x0251FFA7, 0x049179A7, 0x0631CD27, 0x09700BA7, 0x0A9114A7, 0x0D99ACA7, 0x0E785E27] : List Nat).map (decodeTableWord 32) =
      [some (.vintAdd 63 25 56 none), some (.vintSub 63 15 10 none), some (.vintMullo 51 11 18 none),
      some (.vintMulhiS 26 14 6 none), some (.vintMulhiU 23 0 46 none), some (.vintAnd 41 8 18 none),
      some (.vintOr 25 13 51 none), some (.vintXor 60 2 15 none)] := rfl

theorem test_decode_vint_2 :
    ([0x11206D27, 0x12A84E27, 0x140E1127, 0x16E45C27, 0x19F764A7, 0x1A49FF27, 0x1DC9F627, 0x1E7469A7] : List Nat).map (decodeTableWord 32) =
      [some (.vintAndn 26 3 36 none), some (.vintShl 28 2 21 none), some (.vintShr 34 48 1 none),
      some (.vintSra 56 34 28 none), some (.vintMinS 9 59 62 none), some (.vintMaxS 62 15 9 none),
      some (.vintMinU 44 15 57 none), some (.vintMaxU 19 35 14 none)] := rfl

theorem test_decode_vint_3 :
    ([0x20049727, 0x22059BA7, 0x2400F9A7, 0x260135A7] : List Nat).map (decodeTableWord 32) =
      [some (.vintAbs 46 36 none), some (.vintClz 55 44 none), some (.vintPopc 51 7 none), some (.vintBrev 43 9 none)] := rfl

theorem test_decode_vints_1 :
    ([0x0073D429, 0x033896A9, 0x0437B3A9, 0x06CFA5A9, 0x0982AD29, 0x0B2F16A9, 0x0CC36AA9, 0x0E786DA9] : List Nat).map (decodeTableWord 32) =
      [some (.vintsAdd 40 30 14 none), some (.vintsSub 45 4 39 none), some (.vintsMullo 39 61 6 none),
      some (.vintsMulhiS 11 61 25 none), some (.vintsMulhiU 26 21 48 none), some (.vintsAnd 45 56 37 none),
      some (.vintsOr 21 27 24 none), some (.vintsXor 27 3 15 none)] := rfl

theorem test_decode_vints_2 :
    ([0x1199DF29, 0x135557A9, 0x159AFAA9, 0x16B75B29, 0x1962C029, 0x1AECAD29, 0x1C347429, 0x1E0A4FA9] : List Nat).map (decodeTableWord 32) =
      [some (.vintsAndn 62 14 51 none), some (.vintsShl 47 42 42 none), some (.vintsShr 53 23 51 none),
      some (.vintsSra 54 58 22 none), some (.vintsMinS 0 22 44 none), some (.vintsMaxS 26 37 29 none),
      some (.vintsMinU 40 35 6 none), some (.vintsMaxU 31 18 1 none)] := rfl

theorem test_decode_vinti :
    ([0xED0102AB, 0x960E162B, 0xAE5487AB, 0x6B9F14AB, 0x60E15D2B, 0x636FACAB, 0x51F17D2B, 0xB03F7F2B] : List Nat).map (decodeTableWord 32) =
      [some (.vintiAddi 5 8 948 none none), some (.vintiAndi 44 48 600 none none), some (.vintiOri 15 36 697 none none),
      some (.vintiXori 41 56 430 none none), some (.vintiShli 58 10 387 none none), some (.vintiShri 25 61 397 none none),
      some (.vintiSrai 58 11 327 none none), some (.vintiMuli 62 59 704 none none)] := rfl

theorem test_decode_vcmp_1 :
    ([0x012340AD, 0x037D012D, 0x041C212D, 0x0759402D, 0x095700AD, 0x0A33822D, 0x0C18412D, 0x0E8D23AD] : List Nat).map (decodeTableWord 32) =
      [some (.vcmpEqS32 1 26 36 none), some (.vcmpNeS32 2 40 47 none), some (.vcmpLtS32 2 33 3 none),
      some (.vcmpLeS32 0 10 43 none), some (.vcmpGtS32 1 56 42 none), some (.vcmpGeS32 4 28 6 none),
      some (.vcmpEqU32 2 2 3 none), some (.vcmpNeU32 7 41 17 none)] := rfl

theorem test_decode_vcmp_2 :
    ([0x112700AD, 0x128C43AD, 0x14D282AD, 0x169202AD, 0x181F61AD, 0x1B9BC1AD, 0x1C3101AD, 0x1E4FC32D] : List Nat).map (decodeTableWord 32) =
      [some (.vcmpLtU32 1 56 36 none), some (.vcmpLeU32 7 34 17 none), some (.vcmpGtU32 5 20 26 none),
      some (.vcmpGeU32 5 16 18 none), some (.vcmpEqF32 3 59 3 none), some (.vcmpNeF32 3 30 51 none),
      some (.vcmpLtF32 3 8 6 none), some (.vcmpLeF32 6 62 9 none)] := rfl

theorem test_decode_vcmp_3 :
    ([0x216D622D, 0x23A422AD, 0x248F42AD] : List Nat).map (decodeTableWord 32) =
      [some (.vcmpGtF32 4 43 45 none), some (.vcmpGeF32 5 33 52 none), some (.vcmpUnord 5 58 17 none)] := rfl

theorem test_decode_vsfu :
    ([0x0001952F, 0x0204F72F, 0x040209AF, 0x06007A2F, 0x0803D2AF, 0x0A049FAF, 0x0C0130AF, 0x0E032E2F] : List Nat).map (decodeTableWord 32) =
      [some (.rcp 42 12 none), some (.rsq 46 39 none), some (.sqrt 19 16 none), some (.ex2 52 3 none),
      some (.lg2 37 30 none), some (.sin 63 36 none), some (.cos 33 9 none), some (.tanh 28 25 none)] := rfl

theorem test_decode_vcvt_1 :
    ([0x000239B1, 0x020782B1, 0x040661B1, 0x06068831, 0x0902E7B1, 0x0B3FADB1, 0x0C012DB1, 0x0E0F2831] : List Nat).map (decodeTableWord 32) =
      [some (.vcvtF32S32 51 17 none), some (.vcvtF32U32 5 60 none), some (.vcvtS32F32 3 51 none),
      some (.vcvtU32F32 16 52 none), some (.vcvtBf16F32 15 23 32 none), some (.vcvtF16F32 27 61 39 none),
      some (.vcvtF32Bf16 27 9 0 none), some (.vcvtF32F16 16 57 1 none)] := rfl

theorem test_decode_vcvt_2 :
    ([0x1003DC31, 0x12013CB1] : List Nat).map (decodeTableWord 32) =
      [some (.vcvtSxF32 56 30 none), some (.vcvtF32Sx 57 9 none)] := rfl

theorem test_decode_vlane_1 :
    ([0x0007EA33, 0x020496B3, 0x04050033, 0x060543B3, 0x08047533, 0x0A0142B3, 0x0C9C7F33, 0x0F1C98B3] : List Nat).map (decodeTableWord 32) =
      [some (.vredFadd 20 63 none), some (.vredFmin 45 36 none), some (.vredFmax 0 40 none), some (.vredIadd 7 42 none),
      some (.vredIminS 42 35 none), some (.vredImaxS 5 10 none), some (.vscanFadd 62 35 19 none),
      some (.vscanIadd 49 36 35 none)] := rfl

theorem test_decode_vlane_2 :
    ([0x11C56FB3, 0x120579B3, 0x155F9F33, 0x171000B3] : List Nat).map (decodeTableWord 32) =
      [some (.vcompact 31 43 56 none), some (.vexpand 51 43 none), some (.vsel 62 60 43 none), some (.vperm 1 0 34 none)] := rfl

theorem test_decode_kop_1 :
    ([0x003880B5, 0x020043B5, 0x0438C3B5, 0x06306335, 0x080083B5, 0x0A002035, 0x0C10DD35, 0x0E0220B5] : List Nat).map (decodeTableWord 32) =
      [some (.kand 1 4 7 none), some (.kor 7 2 0 none), some (.kxor 7 6 7 none), some (.kandn 6 3 6 none),
      some (.knot 7 4 none), some (.kmov 0 1 none), some (.k2s 58 6 2 none), some (.s2k 1 17 0 none)] := rfl

theorem test_decode_kop_2 :
    ([0x100027B5, 0x1200E8B5] : List Nat).map (decodeTableWord 32) =
      [some (.kpopc 15 1 none), some (.kfirst 17 7 none)] := rfl

theorem test_decode_vmov :
    ([0x00076037, 0x02018E37, 0x05267DB7, 0x07745937, 0x08000FB7, 0x0A001437] : List Nat).map (decodeTableWord 32) =
      [some (.vmov 0 59 none), some (.vsplat 28 12 none), some (.vext 59 51 36 none), some (.vins 50 34 46 none),
      some (.vlaneid 31 none), some (.viota 40 none)] := rfl

theorem test_decode_compact_1 :
    ([0x3360, 0x5AC2, 0x52A4, 0x0026, 0x6BA8, 0xCECA, 0x870C, 0xF0EE] : List Nat).map (decodeTableWord 16) =
      [some (.vaddF32Compact 27 6), some (.vsubF32Compact 22 11), some (.vmulF32Compact 21 10), some (.vmaxF32Compact 1 0),
      some (.vminF32Compact 29 13), some (.vaddI32Compact 54 25), some (.vsubI32Compact 56 16), some (.vandCompact 7 30)] := rfl

theorem test_decode_compact_2 :
    ([0x0AF0, 0x37F2, 0x7614, 0x9D36, 0x4C58, 0x00DA, 0xDDBC, 0x6E7E] : List Nat).map (decodeTableWord 16) =
      [some (.vorCompact 23 1), some (.vxorCompact 63 6), some (.vshlCompact 48 14), some (.vshrU32Compact 41 19),
      some (.vmulLoCompact 34 9), some (.vmaxS32Compact 6 0), some (.vminS32Compact 45 27), some (.vmovCompact 51 13)] := rfl

theorem test_decode_vld :
    ([0x536947B9] : List Nat).map (decodeTableWord 32) =
      [some (.vld 15 10 45 9 .w none)] := rfl

theorem test_decode_vst :
    ([0x6AADEABB] : List Nat).map (decodeTableWord 32) =
      [some (.vst 21 47 21 5 .d none)] := rfl

theorem test_decode_vlda :
    ([0xA93A9CBD] : List Nat).map (decodeTableWord 32) =
      [some (.vlda 57 20 39 4 .n none)] := rfl

theorem test_decode_vstr :
    ([0x762BA93F] : List Nat).map (decodeTableWord 32) =
      [some (.vstr 18 29 5 11 .d none)] := rfl

theorem test_decode_sld :
    ([0x80CBCD41] : List Nat).map (decodeTableWord 32) =
      [some (.sld 26 30 25 0 .q none)] := rfl

theorem test_decode_sst :
    ([0x663CAD43] : List Nat).map (decodeTableWord 32) =
      [some (.sst 26 37 7 3 .d none)] := rfl

theorem test_decode_slda :
    ([0x10D34345] : List Nat).map (decodeTableWord 32) =
      [some (.slda 6 26 26 8 .b none)] := rfl

theorem test_decode_sstr :
    ([0x2D7B6747] : List Nat).map (decodeTableWord 32) =
      [some (.sstr 14 27 47 6 .h none)] := rfl

theorem test_decode_vatom :
    ([0x0A05E8C9, 0x20E891C9, 0x5DB8B849, 0x62A8E149, 0x96990AC9, 0xBE416A49, 0xC90E1CC9, 0xE1AE4F49] : List Nat).map (decodeTableWord 32) =
      [some (.vatomAdd 17 47 0 5 none), some (.vatomAnd 35 4 29 0 none), some (.vatomOr 48 5 55 14 none),
      some (.vatomXor 2 7 21 1 none), some (.vatomMinS 21 8 19 11 none), some (.vatomMaxS 20 11 8 15 none),
      some (.vatomXchg 57 48 33 4 none), some (.vatomCas 30 50 53 0 none)] := rfl

theorem test_decode_vatomf :
    ([0x120B514B, 0x22A8B24B, 0x5C5B0B4B, 0x6AD5C6CB, 0x8F786ACB, 0xAE3B7FCB, 0xD3E237CB] : List Nat).map (decodeTableWord 32) =
      [some (.vatomfFadd 34 26 1 9 none), some (.vatomfFmin 36 5 21 1 none), some (.vatomfFmax 22 24 11 14 none),
      some (.vatomfMinU 13 46 26 5 none), some (.vatomfMaxU 21 3 47 7 none), some (.vatomfIncw 63 27 7 7 none),
      some (.vatomfDecw 47 17 60 9 none)] := rfl

theorem test_decode_satom :
    ([0x0F2EE24D, 0x2866BDCD, 0x58DE58CD, 0x7B8CC74D, 0x9151FBCD, 0xA45073CD, 0xDA79F7CD, 0xE8AB3D4D] : List Nat).map (decodeTableWord 32) =
      [some (.satomAdd 4 55 37 7 none), some (.satomAnd 59 53 12 4 none), some (.satomOr 49 50 27 12 none),
      some (.satomXor 14 38 49 13 none), some (.satomMinS 55 15 42 8 none), some (.satomMaxS 39 3 10 2 none),
      some (.satomXchg 47 15 15 13 none), some (.satomCas 58 25 21 4 none)] := rfl

theorem test_decode_cache :
    ([0x074A804F, 0x3EE8204F, 0x55B2C04F, 0x7BC4A04F, 0x83FCC04F, 0xA481C04F] : List Nat).map (decodeTableWord 32) =
      [some (.cachePfl1 20 41 3 none), some (.cachePfl2 1 29 15 none), some (.cacheWback 22 54 10 none),
      some (.cacheInval 37 56 13 none), some (.cacheWbinv 38 63 1 none), some (.cacheZline 14 16 2 none)] := rfl

theorem test_decode_cpyl :
    ([0x01EFF2D1] : List Nat).map (decodeTableWord 32) =
      [some (.cpyl 63 61 5 .q 0)] := rfl

theorem test_decode_tdma :
    ([0x7029E553, 0x3261E4D3, 0xA41A9653, 0xF6180753] : List Nat).map (decodeTableWord 32) =
      [some (.tld 10 15 5 7), some (.tst 9 15 12 3), some (.tldw 236 20 10), some (.tzfill 14 3 15)] := rfl

theorem test_decode_bins :
    ([0x208D4355, 0x03D80555] : List Nat).map (decodeTableWord 32) =
      [some (.binsc 6 42 17 2), some (.binrst 10 59 0)] := rfl

theorem test_decode_cnt :
    ([0xB12FAAD7, 0x63724057, 0x74A0A057, 0x070E3DD7] : List Nat).map (decodeTableWord 32) =
      [some (.cwait 21 61 37 11), some (.cadd 18 46 6), some (.cset 5 20 7), some (.ctest 59 49 33 0)] := rfl

theorem test_decode_coll :
    ([0xD05D21D9, 0x4263A5D9, 0x442F82D9, 0xA62A62D9, 0xC83016D9] : List Nat).map (decodeTableWord 32) =
      [some (.allred 3 41 11 13), some (.redsc 11 29 12 4), some (.allgat 5 60 5 4), some (.bcast 5 19 5 10),
      some (.rcopy 13 0 6 8 12)] := rfl

theorem test_decode_bmrg :
    ([0xC176A15B, 0x5264A35B, 0xC5C7D5DB, 0x57087E5B, 0x7971C3DB, 0x5A070F5B] : List Nat).map (decodeTableWord 32) =
      [some (.bmopen 2 53 46 12), some (.bmstage 6 37 12 5), some (.bmclose 43 62 56 12), some (.bmnorm 60 3 33 5),
      some (.bmadd 7 14 46 7), some (.bmstat 30 56 5)] := rfl

theorem test_decode_graph :
    ([0x501B0FDD, 0x0202575D, 0xF24DE35D, 0x04056EDD, 0x0607ED5D] : List Nat).map (decodeTableWord 32) =
      [some (.emit 31 24 3 5), some (.node 46 18), some (.nodeL 6 47 9 15), some (.nedge 29 43), some (.nwait 26 63)] := rfl

theorem test_decode_range :
    ([0x00D800DF, 0x021C34DF, 0x05A81B5F] : List Nat).map (decodeTableWord 32) =
      [some (.grab 1 27), some (.rset 41 33 3), some (.rstat 54 53)] := rfl

theorem test_decode_stack :
    ([0x00024061, 0x02000761, 0x04000DE1, 0x0602A061] : List Nat).map (decodeTableWord 32) =
      [some (.burn 18), some (.shunt 14 0), some (.rdmis 27), some (.dcls 21)] := rfl

theorem test_decode_tfeed :
    ([0x20D5C763] : List Nat).map (decodeTableWord 32) =
      [some (.tfeed 14 46 26 .sx2 false none)] := rfl

theorem test_decode_tdrain :
    ([0x1033C965] : List Nat).map (decodeTableWord 32) =
      [some (.tdrain 18 94 6 none)] := rfl

theorem test_decode_mma :
    ([0x0098CAE7, 0x73001367, 0x04000367, 0x06003CE7] : List Nat).map (decodeTableWord 32) =
      [some (.mma 21 6 19), some (.mmab 102 0 3 32), some (.tzero 6), some (.tcfg 57 1)] := rfl

theorem test_decode_acc :
    ([0x003EBDE9, 0x0210ED69, 0x04F01869, 0x06080EE9] : List Nat).map (decodeTableWord 32) =
      [some (.accspill 59 53 7), some (.accfill 26 7 2), some (.accrel 48 30), some (.acclive 29 1)] := rfl

theorem test_decode_tdesc :
    ([0x000E256B, 0x0220D6EB, 0x040064EB] : List Nat).map (decodeTableWord 32) =
      [some (.tset 10 1 49), some (.tget 45 6 4), some (.tcopy 9 3)] := rfl

/-- Subcodes of refused words (R93, R360): reserved major, reserved member, unused bit, an extension before a member that takes none, a
prefix before one that takes none, a prefix field that is not used, the zero parcel. -/
theorem test_reject :
    ([[0x6D, 0, 0, 0], [0x03, 0, 0, 0xFE], [0x35, 4, 0, 0], [0x7F, 0, 0, 0, 0x03, 0, 0, 0], [0x7D, 0, 0, 0, 0x03, 0, 0, 0],
      [0x7D, 0x40, 0, 0, 0xA1, 0x40, 0x18, 0], [0, 0]] : List (List Byte)).map (fun bs => match decode bs with
        | .ok _ => 0
        | .error e => e.sub.toNat) = [1, 2, 3, 6, 6, 7, 8] := rfl

/-! ### Witnesses: states and operands that meet the hypotheses of the statements -/

/-- A machine with one group of 64 registers, whose split 0 is about to try, and control thread 0 of its workgroup. -/
noncomputable def ready : State := { State.reset.withFetchWord 32 0x15 with turn := [], cur := some (.split 0 0) }
/-- The same with the thread about to try. -/
noncomputable def readyT : State := { ready with cur := some (.thread 0) }
/-- A scalar register of the split set. -/
noncomputable def ready.set (r : Nat) (v : Word) (s : State) : State := s.sput (.split 0 0) r v

/-- A list of instructions whose gates are all open, with a test. -/
theorem opens_all {α : Type} {l : List (α × Need)} {a : Agent} {s : State} {p : Ctx → State → Bool}
    (h : l.all (fun r => opensAnd r.2 a s p) = true) : ∀ row ∈ l, ∃ c u, Opens row.2 a s c u ∧ p c u = true :=
  fun row hr => opensAnd_spec (List.all_eq_true.1 h row hr)

/-- ScalarArithmetic, FrameOfScalarResults. -/
theorem witness_scalar : ∀ row ∈ scalarForms 4 5 6 7 8 none 9 1 0 none, ∃ c u, Opens row.2 (.split 0 0) ready c u ∧
    u.alive (.split 0 0) = true := opens_all (by decide)
theorem witness_scalar_ext : ∀ row ∈ scalarForms 4 5 6 7 8 (some 3) 9 1 0 (some noPrefix), ∃ c u, Opens row.2 (.split 0 0) ready c u ∧
    u.alive (.split 0 0) = true := opens_all (by decide)
/-- VectorFloat, VectorInteger, VectorSpecial, ConversionsAndReductions, LaneMoves, FrameOfVectorResults. -/
theorem witness_vector : ∀ row ∈ vectorForms .bf16x2 1 2 3 4 5 6 1 7 none none, ∃ c u, Opens row.2 (.split 0 0) ready c u ∧
    u.alive (.split 0 0) = true := opens_all (by decide)
theorem witness_vector_prefix : ∀ row ∈ vectorForms .f32 1 2 3 4 5 6 0 7 (some 1) (some { noPrefix with k := 1, z := true }),
    ∃ c u, Opens row.2 (.split 0 0) ready c u ∧ u.alive (.split 0 0) = true := opens_all (by decide)
/-- ComparesAndMasks, FrameOfVectorResults (masks). -/
theorem witness_mask : ∀ row ∈ maskForms 0 2 3 4 5 6 2 none, ∃ c u, Opens row.2 (.split 0 0) ready c u ∧
    u.alive (.split 0 0) = true := opens_all (by decide)
/-- Branches: BR, JMP, CALL; JR to an even and to an odd address. -/
theorem witness_branch : ∀ row ∈ ([((), { src := [5] }), ((), { src := [5], len := 8 }), ((), {}), ((), { len := 8 }),
    ((), { dst := [63] }), ((), { dst := [63], len := 8 })] : List (Unit × Need)), ∃ c u, Opens row.2 (.split 0 0) ready c u ∧
    true = true := opens_all (by decide)
theorem witness_branch_even : ∃ c u, Opens { src := [5], dst := [63] } (.split 0 0) (ready.set 5 0x2000 ready) c u ∧
    (!(c.get u 5).getLsbD 0) = true := opensAnd_spec (by decide)
theorem witness_branch_odd : ∃ c u, Opens { src := [63] } (.split 0 0) (ready.set 63 0x2001 ready) c u ∧
    (c.get u 63).getLsbD 0 = true := opensAnd_spec (by decide)
/-- SpecialOperands: a negative operand, and a NaN. -/
theorem witness_special : 0 < (0x3F800000 : BitVec 31).toNat ∧ (0x3F800000 : BitVec 31).toNat ≤ 0x7F800000 ∧
    0x00800000 ≤ (0x3F800000 : BitVec 31).toNat ∧ (1 : BitVec 23) ≠ 0 := by decide
/-- SumsOfActiveLanes: a lane that is active. -/
theorem witness_sums : 95 < 96 ∧ (BitVec.allOnes 96).getLsbD 95 = true := by decide

/-! Memory. -/

/-- The scratchpad of core 0 and a slice of cluster 0 allocated to launch 1. -/
noncomputable def readyL (s : State) : State :=
  { s with allocs := [(scratchAt 0 0, 0x40000, 1, 1, 0), (sliceAt 0 0, 0x40000, 1, 2, 0)] }
/-- An address in the scratchpad window in s5. -/
noncomputable def inScratch : State := readyL (ready.set 5 0xFFF1000000040 ready)

/-- LoadsAndAtomicsIssue: a load from the scratchpad that is done at once; an atomic that waits for its data. -/
theorem witness_load : ∃ c u, Opens (scalForm 0 false false 6 5 0 2 .w none).need (.split 0 0) inScratch c u ∧
    (let f := scalForm 0 false false 6 5 0 2 .w none
     let es := f.elems c u
     let probes := es.map (fun e => u.probe (.split 0 0) (f.what == 2) e)
     (u.memTrap (.split 0 0) es probes false).isNone && !u.slotsFull 0 && decide (u.accesses = []) &&
       (u.loadLat (.split 0 0) es).isSome) = true := opensAnd_spec (by decide)
theorem witness_atomic : ∃ c u, Opens (satomForm 16 6 5 0 2 none).need (.split 0 0) inScratch c u ∧
    (let f := satomForm 16 6 5 0 2 none
     let es := f.elems c u
     let probes := es.map (fun e => u.probe (.split 0 0) (f.what == 2) e)
     (u.memTrap (.split 0 0) es probes false).isNone && !u.slotsFull 0 && decide (u.accesses = []) && !probes.any (fun p => p != .ok)) =
      true := opensAnd_spec (by decide)
theorem witness_loads_open : ∀ row ∈ (loadForms 8 5 0 2 .b .d none).map (fun r => (r.1, r.2.need)), ∃ c u,
    Opens row.2 (.split 0 0) inScratch c u ∧ true = true := opens_all (by decide)
/-- StoresIssue, LocalScalarAccess: a store to the scratchpad. -/
theorem witness_store : ∃ c u, Opens (scalForm 1 false false 6 5 0 2 .q none).need (.split 0 0) inScratch c u ∧
    (let f := scalForm 1 false false 6 5 0 2 .q none
     let es := f.elems c u
     let probes := es.map (fun e => u.storeProbe (.split 0 0) (u.stream (.split 0 0) 2) false false e)
     probes.all (fun p => p == .ok) && (u.memTrap (.split 0 0) es probes true).isNone && decide (u.accesses = []) && !u.slotsFull 0 &&
       decide ((c.get u 5).toNat % 16 = 0) && decide ((regionOf (c.get u 5).toNat 16).1 = .scratch) &&
       (u.localAt (.split 0 0) none .scratch 0x40 16).isSome && !(u.wg 1).buffers && !u.claimed (.split 0 0) &&
       (u.poisonIn (scratchAt 0 0x40) 16).isEmpty) = true := opensAnd_spec (by decide)
theorem witness_stores_open : ∀ row ∈ (storeForms 8 5 0 2 .b .d none).map (fun r => (r.1, r.2.need)), ∃ c u,
    Opens row.2 (.split 0 0) inScratch c u ∧ true = true := opens_all (by decide)
/-- CacheMembers: a line, and the address of a line. -/
theorem witness_cache : ∃ c u, Opens (cacheForm 5 0 2 none).need (.split 0 0) inScratch c u ∧ (!u.slotsFull 0) = true := opensAnd_spec (by decide)
theorem witness_inval : 0x1080 / 128 * 128 = 0x1080 ∧ 0x1080 < 0xFFF0000000000 - 127 := by decide
/-- ChecksBeforeIssue: a misaligned scalar access; registers and cores that fail checks 4 and 5. -/
theorem witness_misaligned : ∃ c u, Opens (scalForm 0 false false 6 5 0 2 .w none).need (.split 0 0) (ready.set 5 0x2002 ready) c u ∧
    (((scalForm 0 false false 6 5 0 2 .w none).elems c u).find? (fun e => e.va % e.al != 0)).isSome = true := opensAnd_spec (by decide)
theorem witness_check4 : ready.cur = some (.split 0 0) ∧ ready.alive (.split 0 0) = true ∧ (ready.group 0).nreg ≤ 64 ∧ 3 % 2 = 1 ∧
    6 % 4 ≠ 0 := by decide
theorem witness_check5 : (∀ r ∈ ([1, 2] : List Nat), r < (ready.group 0).nreg) ∧ Agent.isThread (.split 0 0) = false ∧
    readyT.cur = some (.thread 0) ∧ readyT.alive (.thread 0) = true := by decide


/-! System registers, traps, queues, ranges. -/

/-- SystemRegisters: SRD and SWR of registers the split may read and write; a number out of reach; one it may only read. -/
theorem witness_srd : ∃ c u, Opens { dst := [4], pre := srdPre 1 } (.split 0 0) ready c u ∧
    (!(u.eventOff (u.ctxOf (.split 0 0)).1 (u.ctxOf (.split 0 0)).2 1)) = true := opensAnd_spec (by decide)
theorem witness_swr : ∃ c u, Opens { src := [4], pre := swrPre 1 } (.split 0 0) ready c u ∧
    (!u.swrWaits (.split 0 0) 1 (c.get u 4)) = true := opensAnd_spec (by decide)
/-- An event whose counting is off, on an interface whose strict bit is set. -/
noncomputable def readyOff : State :=
  { ready with mgmt := { ready.mgmt with
      sessions := [(ringCtx 1 0, { select := 0xFFFF, status := 0, counts := [] })]
      used := [(1, 2 :: List.replicate 0x400 0)] } }
theorem witness_srd_off : ∃ c u, Opens { dst := [4], pre := srdPre 0x102 } (.split 0 0) readyOff c u ∧
    (u.eventOff (u.ctxOf (.split 0 0)).1 (u.ctxOf (.split 0 0)).2 2 && u.viBit (u.ctxOf (.split 0 0)).1 1) = true :=
  opensAnd_spec (by decide)
theorem witness_setfmt : ∃ c u, Opens { src := [5], dst := [4], ctl := false } (.split 0 0) ready c u ∧ true = true :=
  opensAnd_spec (by decide)
theorem witness_rights : ready.cur = some (.split 0 0) ∧ ready.alive (.split 0 0) = true ∧ ready.pending (.split 0 0) = [] ∧
    readyT.cur = some (.thread 0) ∧ readyT.alive (.thread 0) = true ∧ readyT.pending (.thread 0) = [] := by decide
/-- Numbers at the borders: 0x2F and 0x30, of which a thread may write the first only; 0x10 and 0x11; 0x12 and 0x13. -/
theorem witness_rights_numbers : readyT.right (.thread 0) 0x2F = .rw ∧ readyT.right (.thread 0) 0x30 = .none ∧
    ready.right (.split 0 0) 0x10 = .ro ∧ ready.right (.split 0 0) 0x11 = .rw ∧ ready.right (.split 0 0) 0x12 = .ro ∧
    ready.right (.split 0 0) 0x13 = .none ∧ readyT.right (.thread 0) 8 = .ro ∧ readyT.right (.thread 0) 0x20 = .rw := by decide

/-- TrapsWaitsAndEnds: plain; in a claimed context; in a handler; a thread with no matrix operation. -/
theorem witness_plain : ∃ c u, Opens {} (.split 0 0) ready c u ∧ (!u.claimed (.split 0 0)) = true := opensAnd_spec (by decide)
theorem witness_claimed : ∃ c u, Opens {} (.split 0 0) { ready with mgmt := { ready.mgmt with claims := [(1, 0)] } } c u ∧
    u.claimed (.split 0 0) = true := opensAnd_spec (by decide)
theorem witness_eret : ∃ c u, Opens eretNeed (.split 0 0) (ready.modStrand (.split 0 0) (fun x => { x with handler := true })) c u ∧
    true = true := opensAnd_spec (by decide)
theorem witness_exit_thread : ∃ c u, Opens {} (.thread 0) readyT c u ∧ u.threadIdle 0 = true := opensAnd_spec (by decide)

/-- FencesAndRegions: a fence that is ready, one that is not, a region of a group and of a control program. -/
theorem witness_fence : ∃ c u, Opens { src := [0] } (.split 0 0) ready c u ∧
    (let v := (if u.beyondCore (.split 0 0) (scopeCode .device) then u.implicitCommit (.split 0 0) else u).fenceWork (.split 0 0)
      0xFFFF (scopeCode .device)
     v.fenceReady (.split 0 0) 0xFFFF (scopeCode .device)) = true := opensAnd_spec (by decide)
/-- A remote write of the split that is not acknowledged. -/
noncomputable def readyRemote : State :=
  { ready with engines := [(1, { Engine.start (.split 0 0) (1, 0) (some 1) (.cset 0 0) 2 (Stream.ofBits 4) 0 with xids := [7] })] }
theorem witness_fence_waits : ∃ c u, Opens { src := [0] } (.split 0 0) readyRemote c u ∧
    (let v := (if u.beyondCore (.split 0 0) (scopeCode .system) then u.implicitCommit (.split 0 0) else u).fenceWork (.split 0 0)
      0xFFFF (scopeCode .system)
     !v.fenceReady (.split 0 0) 0xFFFF (scopeCode .system)) = true := opensAnd_spec (by decide)
theorem witness_region : ∃ c u, Opens regionNeed (.split 0 0) ready c u ∧ (!Agent.isThread (.split 0 0)) = true :=
  opensAnd_spec (by decide)
theorem witness_region_thread : ∃ c u, Opens regionNeed (.thread 0) readyT c u ∧ Agent.isThread (.thread 0) = true :=
  opensAnd_spec (by decide)

/-- QueuesAndRanges: unbinding; a queue of the workgroup's set; one that is not; a bound port for QTRY; ranges of the interface. -/
theorem witness_unbind : ∃ c u, Opens { src := [5] } (.split 0 0) ready c u ∧ (!(c.get u 5).getLsbD 7) = true :=
  opensAnd_spec (by decide)
/-- The workgroup's record names queue 3. -/
noncomputable def readyQ : State :=
  { ready.set 5 0x83 ready with monarch := { ready.monarch with launches := tabMod ready.monarch.launches 1 (fun l =>
      { l with record := List.replicate 0xC0 0 ++ [0x83] }) } }
theorem witness_bind : ∃ c u, Opens { src := [5] } (.split 0 0) readyQ c u ∧
    ((c.get u 5).getLsbD 7 && !u.queueRefused (.split 0 0) ((c.get u 5).setWidth 5 : BitVec 5).toNat) = true :=
  opensAnd_spec (by decide)
theorem witness_bind_refused : ∃ c u, Opens { src := [5] } (.split 0 0) (ready.set 5 0x84 readyQ) c u ∧
    ((c.get u 5).getLsbD 7 && u.queueRefused (.split 0 0) ((c.get u 5).setWidth 5 : BitVec 5).toNat) = true :=
  opensAnd_spec (by decide)
/-- Port qp0 bound to queue 3, which holds two entries, the first of them held. -/
noncomputable def readyPort : State :=
  (readyQ.modGroup 0 (fun x => { x with port := [(0, 3)] })).setQueue 0 3 [{ val := 7, held := some (1, 1) }, { val := 8, held := none }]
theorem witness_qtry : ∃ c u, Opens (qtryNeed 4 48) (.split 0 0) readyPort c u ∧ (u.front (.split 0 0) 48 == some 8) = true :=
  opensAnd_spec (by decide)
theorem witness_qstat : ∃ c u, Opens { dst := [4] } (.split 0 0) readyPort c u ∧ true = true := opensAnd_spec (by decide)
/-- PortsPopAndPush: a queue with a held entry before the first that can be popped; a push with nothing of its owner under way, and one
behind a load of its split that waits for its answer. -/
theorem witness_ports : readyPort.boundQueue (.split 0 0) 48 = some 3 ∧
    readyPort.queue 0 3 = [{ val := 7, held := some (1, 1) }] ++ { val := 8, held := none } :: [] ∧
    (∀ y ∈ ([{ val := 7, held := some (1, 1) }] : List QEntry), y.held.isSome = true) ∧
    (∀ p ∈ readyPort.accesses, p.2.agent.sameOwner (.split 0 0) = false) ∧
    (readyPort.releaseEvery (.split 0 0) readyPort.nextId 2).2 = true := by decide
/-- A load of the split that waits for its answer. -/
noncomputable def loading (s : State) : State :=
  { s with nextId := 9, accesses := [(3, { (scalForm 0 false false 6 5 0 2 .w none).access
      { a := .split 0 0, pc := 0, next := 0, popped := [], mask := 0, act := 0, replay := false } s
      [{ key := 0, own := none, va := 0x2000, n := 4, al := 4 }] false false true with token := some 1 })] }
theorem witness_ports_held : ((loading readyPort).releaseEvery (.split 0 0) 9 2).2 = false := by decide
theorem witness_ports_none : ∀ y ∈ (readyPort.setQueue 0 3 [{ val := 7, held := some (1, 1) }]).queue 0 3, y.held.isSome = true := by decide
/-- A range of interface 1 with 10 left, P 1 and MINCHUNK 1. -/
noncomputable def readyRange : State :=
  { ready.set 6 0x0001000100000005 ready with ranges := [(2, { next := 0, state := 0x000100010000000A, owner := 1 })] }
theorem witness_grab : ∃ c u, Opens (rangeNeed 4 2 readyRange) (.split 0 0) readyRange c u ∧ true = true := by
  refine ⟨_, _, ⟨rfl, rfl, rfl⟩, rfl⟩
theorem witness_rset : ∃ c u, Opens (rsetNeed 2 5 6) (.split 0 0) readyRange c u ∧
    ((c.get u 6).extractLsb' 48 12 != 0 && (c.get u 6).extractLsb' 32 16 != 0) = true := opensAnd_spec (by decide)
/-- The number of participants popped from a port: the trap is found at issue. -/
theorem witness_rset_zero : ∃ c u, Opens (rsetNeed 2 5 48) (.split 0 0) readyPort c u ∧
    ((c.get u 48).extractLsb' 48 12 == 0) = true := opensAnd_spec (by decide)
/-- StackInstructions, BurnAddsToTheWindow. -/
theorem witness_stack : ∀ row ∈ ([((), burnNeed 5), ((), { src := [5], dst := [4], ctl := false, lat := 2, cause := .balance }),
    ((), { dst := [4], ctl := false }), ((), { src := [5], ctl := false })] : List (Unit × Need)),
    ∃ c u, Opens row.2 (.split 0 0) ready c u ∧ u.alive (.split 0 0) = true := opens_all (by decide)


/-! Divergence, barriers, descriptors. -/

/-- Half of the lanes, in k1. -/
noncomputable def readyK (m : Mask) (s : State) : State := s.kput 0 1 m
/-- DivergentBranches: every active lane takes the branch; none; some, with the innermost join at the target; some, with a free split;
some, with four splits; and with the reconvergence stack full. MaskBranches. -/
theorem witness_vbr_all : ∃ c u, Opens { ksrc := [1], ctl := false } (.split 0 0) (readyK (allOnes96) ready) c u ∧
    (let T := (u.splitOf 0 0).ex &&& u.kget 0 1
     T == (u.splitOf 0 0).ex) = true := opensAnd_spec (by decide)
theorem witness_vbr_none : ∃ c u, Opens { ksrc := [1], ctl := false } (.split 0 0) (readyK 0 ready) c u ∧
    (let T := (u.splitOf 0 0).ex &&& u.kget 0 1
     T != (u.splitOf 0 0).ex && T == 0) = true := opensAnd_spec (by decide)
theorem witness_vbr_folds : ∃ c u, Opens { ksrc := [1], ctl := false } (.split 0 0)
    (readyK 7 (ready.modSplit 0 0 (fun y => { y with nest := [.pend 0x1010 7 0x1010 7 0 false] }))) c u ∧
    (let T := (u.splitOf 0 0).ex &&& u.kget 0 1
     T != (u.splitOf 0 0).ex && T != 0 && foldable u 0 0 0x1010 0x1010) = true := opensAnd_spec (by decide)
theorem witness_vbr_splits : ∃ c u, Opens { ksrc := [1], ctl := false } (.split 0 0) (readyK 7 ready) c u ∧
    (let y := u.splitOf 0 0
     let T := y.ex &&& u.kget 0 1
     T != y.ex && T != 0 && !foldable u 0 0 0x1020 0x1040 && freeSplit (u.group 0) == some 1 &&
       decide ((y.nest.filter Nest.isLink).length < 16)) = true := opensAnd_spec (by decide)
/-- Group 0 with sixteen links, and with as many pending entries as asked. -/
noncomputable def readyChain (n : Nat) : State := readyK 7 (ready.modSplit 0 0 (fun y => { y with
  nest := List.replicate 16 (.link 0x1100 1 0 true) ++ List.replicate n (.pend 0x1100 7 0x1100 7 0 true) }))
theorem witness_vbr_stack : ∃ c u, Opens { ksrc := [1], ctl := false } (.split 0 0) (readyChain 15) c u ∧
    (let y := u.splitOf 0 0
     let T := y.ex &&& u.kget 0 1
     T != y.ex && T != 0 && !foldable u 0 0 0x1020 0x1040 && decide (16 ≤ (y.nest.filter Nest.isLink).length) &&
       decide ((y.nest.filter (fun x => !x.isLink)).length < 16)) = true := opensAnd_spec (by decide)
theorem witness_vbr_full : ∃ c u, Opens { ksrc := [1], ctl := false } (.split 0 0) (readyChain 16) c u ∧
    (let y := u.splitOf 0 0
     let T := y.ex &&& u.kget 0 1
     T != y.ex && T != 0 && !foldable u 0 0 0x1020 0x1040 && decide (16 ≤ (y.nest.filter Nest.isLink).length) &&
       decide (16 ≤ (y.nest.filter (fun x => !x.isLink)).length)) = true := opensAnd_spec (by decide)
/-- Reconvergence: an entry in each phase; a link whose sibling waits, and one whose sibling does not. -/
noncomputable def readyLink (sib : Split → Split) : State :=
  (ready.modSplit 0 0 (fun y => { y with ex := 3, nest := [.link 0x1010 1 0 false] })).modGroup 0 (fun x => { x with
    splits := tabPut x.splits 1 (sib { Split.blank with ex := 4, nest := [.link 0x1010 0 0 false] }) })
theorem witness_join : (readyLink (fun y => { y with strand := { y.strand with pc := 0x1010 } })).cur = some (.split 0 0) ∧
    waitsFor ((readyLink (fun y => { y with strand := { y.strand with pc := 0x1010 } })).splitOf 0 1) ready.clk 0 0x1010 = true ∧
    waitsFor ((readyLink (fun y => y)).splitOf 0 1) ready.clk 0 0x1010 = false ∧
    ((readyLink (fun y => y)).splitOf 0 0).nest = .link 0x1010 1 0 false :: [] ∧
    ∀ b : Bool, ((ready.modSplit 0 0 (fun y => { y with nest := [.pend 0x1010 7 0x1020 1 0 b] })).splitOf 0 0).nest =
      .pend 0x1010 7 0x1020 1 0 b :: [] := by decide
/-- MergeJoinsTheLanes. -/
theorem witness_merge : (0 : Nat) ≠ 1 ∧ (tabFind (readyLink (fun y => y)).groups 0).isSome ∧
    (tabFind ((readyLink (fun y => y)).group 0).splits 0).isSome ∧ (tabFind ((readyLink (fun y => y)).group 0).splits 1).isSome := by decide

/-- Barrier 5 of the workgroup. -/
noncomputable def readyB (f : Bar → Bar) (s : State) : State := s.setBar (.split 0 0) 5 (f (s.bar (.split 0 0) 5))
/-- NamedBarriers: INIT with 1 and 255 participants, with none, and in a phase under way. -/
theorem witness_bar_init : ∀ v ∈ ([1, 255] : List Word), ∃ c u, Opens { src := [6] } (.split 0 0) (ready.set 6 v ready) c u ∧
    decide (1 ≤ (c.get u 6).toNat ∧ (c.get u 6).toNat ≤ 255 ∧ (u.bar (.split 0 0) 5).opened = false) = true :=
  fun v hv => opensAnd_spec (List.all_eq_true.1 (by decide : ([1, 255] : List Word).all (fun v => opensAnd { src := [6] } (.split 0 0)
    (ready.set 6 v ready) (fun c u => decide (1 ≤ (c.get u 6).toNat ∧ (c.get u 6).toNat ≤ 255 ∧
      (u.bar (.split 0 0) 5).opened = false))) = true) v hv)
theorem witness_bar_init_refused : ∃ c u, Opens { src := [6] } (.split 0 0) (ready.set 6 256 ready) c u ∧
    decide (¬(1 ≤ (c.get u 6).toNat ∧ (c.get u 6).toNat ≤ 255 ∧ (u.bar (.split 0 0) 5).opened = false)) = true :=
  opensAnd_spec (by decide)
theorem witness_bar_arrive : ∃ c u, Opens (arriveNeed 7 5) (.split 0 0) (readyB (fun b => { b with expa := 1, penda := 1 }) ready) c u ∧
    true = true := opensAnd_spec (by decide)
theorem witness_bar_aw : ∃ c u, Opens (awNeed 7 5) (.split 0 0) (readyB (fun b => { b with expa := 2, penda := 1 }) ready) c u ∧
    (u.strand (.split 0 0)).park.isNone = true := opensAnd_spec (by decide)
/-- A BAR.AW that waited and issues again; one that a restore brings back with its arrival standing, in the phase of its token. -/
theorem witness_bar_aw_again : ∃ c u, Opens (awNeed 7 5) (.split 0 0) ((readyB (fun b => { b with expa := 2, penda := 0 }) ready).markReplay
    (.split 0 0)) c u ∧ (c.replay && ((u.strand (.split 0 0)).park.any (fun p => p.aw.isNone))) = true := opensAnd_spec (by decide)
theorem witness_bar_aw_restored : ∃ c u, Opens (awNeed 7 5) (.split 0 0) (ready.modStrand (.split 0 0) (fun x => { x with
    park := some { mask := 1, token := none, ready := true, popped := [], aw := some false } })) c u ∧
    (u.strand (.split 0 0)).park.any (fun p => p.aw == some (u.bar (.split 0 0) 5).phase) = true := opensAnd_spec (by decide)
/-- A release that is performed at once, and one that is not: an arrival, and EXPECT.POST. -/
theorem witness_arrive : ((ready.commitWide (.split 0 0)).publish (.split 0 0) 5 |>.releaseEvery (.split 0 0) ready.nextId 1).2 = true ∧
    (((loading ready).commitWide (.split 0 0)).publish (.split 0 0) 5 |>.releaseEvery (.split 0 0) (loading ready).nextId 1).2 = false := by
  decide
theorem witness_bar_post : (List.all [(ready, true), (loading ready, false)] (fun r => opensAnd (expectNeed 5 6) (.split 0 0) (ready.set 6 64
    (readyB (fun b => { b with expa := 1 }) r.1)) (fun _ u => ((u.commitWide (.split 0 0)).releaseEvery (.split 0 0) u.nextId 1).2 == r.2))) = true := by decide
/-- A phase that has passed; one that has not; one that ended with poison, on an interface that traps on it. -/
theorem witness_bar_wait : ∃ c u, Opens { src := [6], dst := [7] } (.split 0 0) (readyB (fun b => { b with expa := 2, phase := true }) ready)
    c u ∧ ((u.bar (.split 0 0) 5).phase != (c.get u 6).getLsbD 0 && !u.barPoisons (.split 0 0) 5) = true := opensAnd_spec (by decide)
theorem witness_bar_waits : ∃ c u, Opens { src := [6], dst := [7] } (.split 0 0) ready c u ∧
    ((u.bar (.split 0 0) 5).phase == (c.get u 6).getLsbD 0 && !c.replay) = true := opensAnd_spec (by decide)
theorem witness_bar_poison : ∃ c u, Opens { src := [6], dst := [7] } (.split 0 0)
    { readyB (fun b => { b with expa := 2, phase := true, status := 1 }) ready with mem := [(0, 1)] } c u ∧
    ((u.bar (.split 0 0) 5).phase != (c.get u 6).getLsbD 0 && u.barPoisons (.split 0 0) 5 && !c.replay) = true :=
  opensAnd_spec (by decide)
theorem witness_bar_expect : ∃ c u, Opens (expectNeed 5 6) (.split 0 0) (ready.set 6 4096 (readyB (fun b => { b with expa := 1 }) ready)) c u ∧
    (let v := (c.get u 6).toInt
     let x := u.bar (.split 0 0) 5
     bytesFit (x.expb + v) && bytesFit (x.pendb + v) && bytesFit (x.pendb - v)) = true := opensAnd_spec (by decide)
theorem witness_bar_expect_refused : ∃ c u, Opens (expectNeed 5 6) (.split 0 0)
    (ready.set 6 0x7FFFFFFFFFFFFFFF (readyB (fun b => { b with expa := 1 }) ready)) c u ∧
    (let v := (c.get u 6).toInt
     let x := u.bar (.split 0 0) 5
     !(bytesFit (x.expb + v) && bytesFit (x.pendb + v))) = true := opensAnd_spec (by decide)
/-- PhaseCompletes: a phase that is complete, and one that lacks bytes. -/
theorem witness_phase : (tabFind ready.wgs 1).isSome ∧
    (let b := (readyB (fun b => { b with expa := 2, penda := 0, pendb := 0, opened := true }) ready).bget (some 1) 0 5
     b.expa ≠ 0 ∧ b.opened = true ∧ b.penda = 0 ∧ b.pendb ≤ 0) ∧
    (let b := (readyB (fun b => { b with expa := 2, penda := 0, pendb := 1, opened := true }) ready).bget (some 1) 0 5
     ¬(b.expa ≠ 0 ∧ b.opened = true ∧ b.penda = 0 ∧ b.pendb ≤ 0)) := by decide
/-- TileDescriptors. -/
theorem witness_tset : ∀ row ∈ ([((), { src := [6], tdst := [3] }), ((), { dst := [6], tsrc := [3] }),
    ((), { tsrc := [3], tdst := [4] })] : List (Unit × Need)), ∃ c u, Opens row.2 (.split 0 0) ready c u ∧ u.alive (.split 0 0) = true := opens_all (by decide)
/-- RegisterWriteSteps: no operation under way; one that a change of owner meets; a slot that is in use; bytes that are allocated. -/
theorem witness_accowner : ready.ownerWaits 0 0 = false ∧
    (ready.modCluster 0 (fun k => { k with mq := [(3, [matOp 0 false 3 0 0 0 none 0])] })).ownerWaits 0 5 = true := by decide
theorem witness_acclive : (ready.modCluster 0 (fun k => { k with run := [matOp 0 false 3 0 0 0 none 0], acclive := 8 })).tileBusy 0 3 = true ∧
    (ready.modCluster 0 (fun k => { k with acclive := 8 })).tileBusy 0 3 = false := by decide
theorem witness_chrycfg : ((ready.die 0).nslot = 0 ∧ ¬(16 < 2)) ∧
    ((0 : Nat) < 2 ∧ ∃ a ∈ ([(chipAt 0 0x3C00000, 0x100000, 1, 1, 0)] : List (Nat × Nat × Nat × Nat × Nat)),
      chipAt 0 (0x4000000 - 0x200000 * 2) < a.1 + a.2.1 ∧ a.1 < chipAt 0 (0x4000000 - 0x200000 * 0)) := by decide


/-! The matrix unit. -/

/-- Control thread 0 holds the accumulators of its cluster, and is about to try; and the split of its workgroup. -/
noncomputable def readyM : State := readyT.modCluster 0 (fun k => { k with accowner := 4 })
noncomputable def readyMS : State := ready.modCluster 0 (fun k => { k with accowner := 4 })
/-- A value in a scalar register of the thread. -/
noncomputable def readyM.set (r : Nat) (v : Word) (s : State) : State := s.sput (.thread 0) r v
/-- The queue of cell 3 is full. -/
noncomputable def readyFull : State := readyM.modCluster 0 (fun k => { k with mq := [(3, List.replicate 8 (matOp 0 false 3 0 0 0 none 0))] })
/-- MatrixOperationsEnqueue, SwapsMatrixConfiguration: an owner with room, one without, and a thread that owns nothing. -/
theorem witness_mma : ∃ c u, Opens { vec := false } (.thread 0) readyM c u ∧
    (u.ownsAcc (.thread 0) && decide ((tabGet (u.cluster 0).mq 3 []).length < 8)) = true := opensAnd_spec (by decide)
theorem witness_mma_full : ∃ c u, Opens { vec := false } (.thread 0) readyFull c u ∧
    (u.ownsAcc (.thread 0) && !decide ((tabGet (u.cluster 0).mq 3 []).length < 8)) = true := opensAnd_spec (by decide)
theorem witness_mma_refused : ∃ c u, Opens { vec := false } (.thread 0) readyT c u ∧ (!u.ownsAcc (.thread 0)) = true :=
  opensAnd_spec (by decide)
/-- A geometry that fits, with the sequencer idle and running; one with a field beyond bit 15; one that passes the last handle. -/
theorem witness_mmab : ∃ c u, Opens { src := [6], vec := false } (.thread 0) (readyM.set 6 0x70 readyM) c u ∧
    (let g := c.get u 6
     !decide (g.toNat / 2 ^ 16 ≠ 0 ∨ 255 < 8 * 31 + geomNT g * geomKT g - 1) && u.ownsAcc (.thread 0) &&
       (u.thread 0).seqr.isNone) = true := opensAnd_spec (by decide)
theorem witness_mmab_runs : ∃ c u, Opens { src := [6], vec := false } (.thread 0)
    (readyM.set 6 0x70 (readyM.modThread 0 (fun x => { x with seqr := some { word := 0, geom := 0, kk := 0, ij := 0, cfg := 0, node := none, at_ := 0 } })))
    c u ∧ (u.ownsAcc (.thread 0) && (u.thread 0).seqr.isSome) = true := opensAnd_spec (by decide)
theorem witness_mmab_bad : (∃ c u, Opens { src := [6], vec := false } (.thread 0) (readyM.set 6 0x10070 readyM) c u ∧
    decide ((c.get u 6).toNat / 2 ^ 16 ≠ 0) = true) ∧
    ∃ c u, Opens { src := [6], vec := false } (.thread 0) (readyM.set 6 0x80 readyM) c u ∧
      decide (255 < 8 * 31 + geomNT (c.get u 6) * geomKT (c.get u 6) - 1) = true :=
  ⟨opensAnd_spec (by decide), opensAnd_spec (by decide)⟩
theorem witness_mmab_refused : ∃ c u, Opens { src := [6], vec := false } (.thread 0) readyT c u ∧ (!u.ownsAcc (.thread 0)) = true :=
  opensAnd_spec (by decide)
theorem witness_tcfg : ∃ c u, Opens { src := [6], dst := [7], vec := false } (.thread 0) readyT c u ∧ true = true :=
  opensAnd_spec (by decide)

/-- An address in the cluster-shared memory, which the launch holds, in s6 of the thread. -/
noncomputable def readyAcc : State := readyM.set 6 0xFFF2000000000 (readyL readyM)
/-- An engine's place in the order of the thread, for the run of 4,096 bytes that a spill or a fill moves. -/
def run4096 (u : State) (va : Nat) : Engine :=
  { Engine.start (.thread 0) (u.ctxOf (.thread 0)) (u.wgOf (.thread 0)) (.binrst 0) 2 (u.stream (.thread 0) 2) u.clk with
    spans := [(va, 4096)] }
/-- AccumulatorInstructions: a run that can be written, and read; tiles to release; the live bits. -/
theorem witness_accspill : ∃ c u, Opens (accNeed 6 2) (.thread 0) readyAcc c u ∧
    (let va := (c.get u 6).toNat
     let v := u.flush (.thread 0) u.nextId
     decide (va % 16 = 0) && v.ownsAcc (.thread 0) && !v.tileBusy 0 9 && !v.engineWaits v.nextId (run4096 v va) &&
       match v.writeFor (v.wgOf (.thread 0)) (.thread 0) none (u.ctxOf (.thread 0)).1 (u.ctxOf (.thread 0)).2 va (tileBytes (v.tile 0 9))
         ((u.cluster 0).accPoison.contains 9) with
       | .ok _ _ => true
       | _ => false) = true := opensAnd_spec (by decide +kernel)
theorem witness_accfill : ∃ c u, Opens (accNeed 6 2) (.thread 0) readyAcc c u ∧
    (let v := u.flush (.thread 0) u.nextId
     !v.engineWaits v.nextId (run4096 v (c.get u 6).toNat) &&
     match v.readFor (v.wgOf (.thread 0)) (.thread 0) none (u.ctxOf (.thread 0)).1 (u.ctxOf (.thread 0)).2 (c.get u 6).toNat 4096 with
     | .ok _ (_, false) => true
     | _ => false) = true := opensAnd_spec (by decide +kernel)
theorem witness_accrel : ∃ c u, Opens { vec := false } (.thread 0) readyM c u ∧
    (u.ownsAcc (.thread 0) && !([9, 10].any (u.tileBusy 0))) = true := opensAnd_spec (by decide)
theorem witness_acclive_read : ∃ c u, Opens { dst := [6], vec := false } (.thread 0) readyM c u ∧
    (u.ownsAcc (.thread 0) && !(List.range 64).any (fun i => u.tileBusy 0 (64 * 1 + i))) = true := opensAnd_spec (by decide)
theorem witness_acclive_waits : ∃ c u, Opens { dst := [6], vec := false } (.thread 0) readyFull c u ∧
    (u.ownsAcc (.thread 0) && (List.range 64).any (fun i => u.tileBusy 0 (64 * 0 + i))) = true := opensAnd_spec (by decide)
/-- FeedingAndDraining: a slot that is not READY, with rows in the sealing format or in another; a slot that is READY. -/
theorem witness_tfeed : ∃ c u, Opens (tfeedNeed 2 6 none) (.split 0 0) ready c u ∧
    (let x := (u.cluster 0).feedOf 4
     !x.ready && !x.clash .fp16) = true := opensAnd_spec (by decide)
theorem witness_tfeed_clash : ∃ c u, Opens (tfeedNeed 2 6 none) (.split 0 0) (ready.setFeed 0 4 { Feed.reset with wrote := some .bf16 }) c u ∧
    (let x := (u.cluster 0).feedOf 4
     !x.ready && x.clash .fp16) = true := opensAnd_spec (by decide)
theorem witness_tfeed_waits : ∃ c u, Opens (tfeedNeed 2 6 none) (.split 0 0) (ready.setFeed 0 4 { Feed.reset with ready := true }) c u ∧
    ((u.cluster 0).feedOf 4).ready = true := opensAnd_spec (by decide)
theorem witness_tdrain : ∃ c u, Opens (tdrainNeed 2 9 6 none) (.split 0 0) readyMS c u ∧
    (!u.tileBusy 0 9 && u.drainOwned (.split 0 0) && !(u.cluster 0).accPoison.contains 9) = true := opensAnd_spec (by decide)
theorem witness_tdrain_waits : ∃ c u, Opens (tdrainNeed 2 9 6 none) (.split 0 0) ready c u ∧ (!u.drainOwned (.split 0 0)) = true :=
  opensAnd_spec (by decide)
/-- MatrixResults: a pass that began 32 clk ago; an operation whose results are due; a TZERO. -/
noncomputable def readyRun (o : MatOp) : State := { ready with clk := 40 }.modCluster 0 (fun k => { k with run := [o] })
theorem witness_pass : (((readyRun { matOp 0 false 3 1 2 0 none 0 with start := some 8 }).cluster 0).run.find? (fun o =>
      !o.zero && o.release && o.n % 16 == 3 && match o.start with
        | some t => decide (t + 32 ≤ 40)
        | none => false)).isSome = true ∧
    (let o := { matOp 0 false 3 1 2 0 none 0 with id := 5, a := some Feed.reset, b := some Handle.reset }
     ((readyRun o).cluster 0).run.find? (fun o => o.id == 5) = some o ∧ (readyRun o).opsBefore 0 o = []) ∧
    (let o := { matOp 0 true 3 0 0 0 none 0 with id := 5 }
     ((readyRun o).cluster 0).run.find? (fun o => o.id == 5) = some o ∧ o.zero = true ∧ o.a = none ∧ o.passed = []) := by decide
/-- MatrixArbiter: a sequencer that runs, in front of a queue with room and of one without. -/
theorem witness_sequencer : let q : Sequencer := { word := 0, geom := 0, kk := 0, ij := 0, cfg := 0, node := none, at_ := 0 }
    ((readyT.modThread 0 (fun x => { x with seqr := some q })).thread 0).seqr = some q ∧
    ((readyT.modThread 0 (fun x => { x with seqr := some q })).thread 0).halt = false ∧
    ((readyT.modThread 0 (fun x => { x with seqr := some q })).thread 0).spill = false ∧
    ((readyT.modThread 0 (fun x => { x with seqr := some q, halt := true })).thread 0).halt = true ∧
    ((readyT.modThread 0 (fun x => { x with seqr := some q, spill := true })).thread 0).spill = true ∧
    (tabGet (readyT.cluster 0).mq ((q.pass 0 0).1 % 16) []).length < 8 ∧
    ¬((tabGet ((readyT.modCluster 0 (fun k => { k with mq := [((q.pass 0 0).1 % 16, List.replicate 8 (matOp 0 false 3 0 0 0 none 0))]
      })).cluster 0).mq ((q.pass 0 0).1 % 16) []).length < 8) := by decide


/-! Engines, counters, the command graph. -/

/-- Barrier 5 registered for, and two descriptors of one tile of one fp32 element. -/
noncomputable def readyE : State :=
  ([(3, 0xFFF2000000000), (4, 0xFFF2000000100)].flatMap (fun p => (([p.2, 4, 0x10001, 0, 0x10001] : List Word).zip (List.range 5)).map
    (fun r => (p.1, r)))).foldl (fun s r => s.tput (.split 0 0) r.1 r.2.2 r.2.1) (readyB (fun b => { b with expa := 1 }) ready)
/-- Sixteen operations of core 0 under way. -/
noncomputable def readySixteen : State :=
  { readyE with engines := (List.range 16).map (fun i => (i, Engine.start (.split 0 0) (1, 0) (some 1) (.cset 0 0) 2 (Stream.ofBits 4) 0)) }
/-- The needs of EngineIssues, with operands. -/
noncomputable def engineNeeds : List (Unit × Need) := [
  ((), laneNeed [2, 4] [] 5), ((), tldNeed 3 4 5), ((), tstNeed 3 4 5), ((), tzfillNeed 3 5), ((), laneNeed [2] [6] 5), ((), binrstNeed 5 6),
  ((), rcopyNeed 3 4 6 5), ((), { src := [6, 7] })]
theorem witness_engines : ∀ row ∈ engineNeeds, ∃ c u, Opens row.2 (.split 0 0) readyE c u ∧ decide (u.engineSlots 0 ≠ 0) = true :=
  opens_all (by decide)
theorem witness_engines_wait : ∀ row ∈ engineNeeds, ∃ c u, Opens row.2 (.split 0 0) readySixteen c u ∧ decide (u.engineSlots 0 = 0) = true :=
  opens_all (by decide)
/-- WeightLoadIssues. -/
theorem witness_tldw : ∃ c u, Opens { src := [6] } (.split 0 0) readyE c u ∧ (!u.handleBusy 0 5 && decide (u.engineSlots 0 ≠ 0)) = true :=
  opensAnd_spec (by decide)
theorem witness_tldw_waits : ∃ c u, Opens { src := [6] } (.split 0 0)
    (readyE.modCluster 0 (fun k => { k with mq := [(3, [matOp 0 false 3 0 5 0 none 0])] })) c u ∧ u.handleBusy 0 5 = true :=
  opensAnd_spec (by decide)
/-- EngineForks. -/
theorem witness_fork : readyE.wgOf (.split 0 0) = some 1 ∧ (tabFind (readyE.engineEdge { Engine.start (.split 0 0) (readyE.ctxOf (.split 0 0))
    (some 1) (.cset 0 0) 2 (readyE.stream (.split 0 0) 2) readyE.clk with bar := some 5 } []).wgs 1).isSome := by decide
/-- EngineCompletes: an operation that only posts; one that performs its work; one whose slot is READY. -/
noncomputable def readyOp (e : Engine) : State := { readyE with engines := [(9, e)], nextId := 10 }
theorem witness_completes :
    (let e := Engine.start (.split 0 0) (1, 0) (some 1) (.cset 0xFFF2000000000 7) 2 (Stream.ofBits 4) 0
     tabFind (readyOp e).engines 9 = some e ∧ e.xids = [] ∧ e.phase ≠ 3 ∧ e.stopped = false ∧
       ((readyOp e).flush e.agent 9).engineWaits 9 e = false ∧ e.op.slot = none ∧
       ((readyOp e).flush e.agent 9).engineRemote e = none) ∧
    (let e := { Engine.start (.split 0 0) (1, 0) (some 1) (.cset 0 7) 2 (Stream.ofBits 4) 0 with phase := 3 }
     tabFind (readyOp e).engines 9 = some e ∧ e.xids = [] ∧ e.phase = 3) ∧
    (let e := Engine.start (.split 0 0) (1, 0) (some 1) (.tzfill [4, 0, 0x200020, 0x11, 0]) 2 (Stream.ofBits 4) 0
     let s := (readyOp e).setFeed 0 4 { Feed.reset with ready := true }
     e.op.slot = some 4 ∧ (((s.flush e.agent 9).cluster e.cluster).feedOf 4).ready = true) := by decide
/-- Tables that map the first GiB of the context to device 2. -/
noncomputable def readyFar (s : State) : State := { s with mem := [(1, 1), (0x100, 1), (0x101, 8), (0x200, 0x8F), (0x206, 1)] }
theorem witness_completes_remote :
    let e := Engine.start (.split 0 0) (1, 0) (some 1) (.cset 0x40 7) 2 (Stream.ofBits 4) 0
    let v := (readyFar (readyOp e)).flush e.agent 9
    v.engineWaits 9 e = false ∧ v.engineRemote e = some (2, 0x40) := by decide
/-- EnginePosts: a barrier with poison, and one without. -/
theorem witness_post : (readyE.bar (.split 0 0) 5).poison = false ∧ { readyE.bar (.split 0 0) 5 with poison := true }.poison = true := by
  decide
/-- CounterWaits: a counter of 0 in the cluster-shared memory, which reaches 0 and not 1; a misaligned address. -/
noncomputable def readyC : State := readyL (ready.set 6 0xFFF2000000000 ready)
theorem witness_counter : ∃ c u, Opens (cwaitNeed 8 6 7 2) (.split 0 0) readyC c u ∧
    (decide ((c.get u 6).toNat % 8 = 0) && match u.readFor (u.wgOf (.split 0 0)) (.split 0 0) none (u.ctxOf (.split 0 0)).1
        (u.ctxOf (.split 0 0)).2 (c.get u 6).toNat 8 with
      | .ok _ (bs, false) => decide ((c.get u 7).toNat ≤ ofBytes bs)
      | _ => false) = true := opensAnd_spec (by decide)
theorem witness_counter_waits : ∃ c u, Opens (cwaitNeed 8 6 7 2) (.split 0 0) (ready.set 7 1 readyC) c u ∧
    (match u.readFor (u.wgOf (.split 0 0)) (.split 0 0) none (u.ctxOf (.split 0 0)).1 (u.ctxOf (.split 0 0)).2 (c.get u 6).toNat 8 with
      | .ok _ (bs, false) => decide (ofBytes bs < (c.get u 7).toNat)
      | _ => false) = true := opensAnd_spec (by decide)
theorem witness_counter_misaligned : ∃ c u, Opens (cwaitNeed 8 6 7 2) (.split 0 0) (ready.set 6 0xFFF2000000004 readyC) c u ∧
    decide ((c.get u 6).toNat % 8 ≠ 0) = true := opensAnd_spec (by decide)

/-- A NODE in front of an MMA, on a thread that owns the accumulators. -/
noncomputable def readyN : State := { readyM with behind := some (.mma 9 1 2, 4) }
/-- GraphInstructions. -/
theorem witness_node : ∃ c u, Opens (nodeNeed (some (.mma 9 1 2))) (.thread 0) readyN c u ∧
    ((bodyTrap c u (.mma 9 1 2)).isNone && (captureBody c u (.mma 9 1 2)).isSome && !u.nodeHeld 0 3) = true := opensAnd_spec (by decide)
theorem witness_node_behind : readyN.behind = some (.mma 9 1 2, 4) := rfl
theorem witness_node_held : ∃ c u, Opens (nodeNeed (some (.mma 9 1 2))) (.thread 0)
    (readyN.setNode 0 3 { Node.blank with state := .armed }) c u ∧ u.nodeHeld 0 3 = true := opensAnd_spec (by decide)
theorem witness_nodeL : ∃ c u, Opens (nodeLNeed 6 2) (.thread 0) readyAcc c u ∧
    (let f := u.flush (.thread 0) u.nextId
     let e := Engine.start (.thread 0) (u.ctxOf (.thread 0)) (u.wgOf (.thread 0)) (.binrst 0) 2 (u.stream (.thread 0) 2) u.clk
     !u.nodeHeld 0 3 && !f.engineWaits f.nextId { e with spans := [((c.get u 6).toNat, 512)] } &&
      match f.readFor (f.wgOf (.thread 0)) (.thread 0) none (u.ctxOf (.thread 0)).1 (u.ctxOf (.thread 0)).2 (c.get u 6).toNat 512 with
      | .ok _ (_, false) => true
      | _ => false) = true := opensAnd_spec (by decide +kernel)
theorem witness_nedge : ∃ c u, Opens { vec := false } (.thread 0) readyT c u ∧ true = true := opensAnd_spec (by decide)
theorem witness_nwait : (∃ c u, Opens { dst := [8] } (.split 0 0) (ready.setNode 0 3 { Node.blank with state := .done }) c u ∧
    decide ((u.node 0 3).state = .done) = true) ∧ ∃ c u, Opens { dst := [8] } (.split 0 0) ready c u ∧
    decide ((u.node 0 3).state ≠ .done) = true := ⟨opensAnd_spec (by decide), opensAnd_spec (by decide)⟩
/-- NodesFireAndComplete: an ARMED node with count 0, one with count 1, a FIRED one without and with an error. -/
theorem witness_nodes : ∀ b ∈ ([.tile 0 [] [] 5 2 (Stream.ofBits 4), .weight 5 0 2 (Stream.ofBits 4), .mat false 9 1 2 0, .macro_ 0 0 0,
      .launch [] 0 0 0 0] : List Body),
    ((readyT.setNode 0 3 { Node.blank with state := .armed, count := 0, body := some b }).node 0 3).state = .armed ∧
    ((readyT.setNode 0 3 { Node.blank with state := .armed, count := 0, body := some b }).node 0 3).count = 0 ∧
    ((readyT.setNode 0 3 { Node.blank with state := .armed, count := 0, body := some b }).node 0 3).body = some b := by
  intro b _; exact ⟨rfl, rfl, rfl⟩
theorem witness_nodes_end : (∀ e ∈ ([0, 5] : List Word), ((readyT.setNode 0 3 { Node.blank with state := .fired, error := e }).node 0 3).error = e ∧
      ((readyT.setNode 0 3 { Node.blank with state := .fired, error := e }).node 0 3).state = .fired) ∧
    ((readyT.setNode 0 3 { Node.blank with state := .armed, count := 1 }).node 0 3).count = 1 := ⟨fun _ _ => ⟨rfl, rfl⟩, rfl⟩

/-- The workgroup's launch is node 0 of graph 4, whose node 1 takes records of 4 bytes, 64 of them. -/
noncomputable def readyG (n : Nat) : State :=
  let table := ([1, 0, 0, 0, 0, 0, 0, 0, 0, 0, 0, 0, 0, 0, 0, 0, 64, 0, 0, 0, 4, 0, 1, 0, 129, 0, 0, 0, 0, 0, 0, 0] : List Byte)
  { ready with monarch := { ready.monarch with
      launches := tabMod ready.monarch.launches 1 (fun l => { l with graph := some (4, 0) })
      graphs := [(4, { vi := 1, asid := 0, record := [], prio := 0, arrival := 0, active := true, table := table ++ table
                       queues := [(1, List.replicate n [0, 0, 0, 0])], spilled := [], ending := none, reported := [], launches := [], wgs := 1, ended := 0, kpid := 0
                       ktid := 0, resv := [] })] } }
/-- EmitAllOrNothing: records of the active lanes; no active lane. -/
theorem witness_emit : ∃ c u, Opens (emitNeed 8 2 0 (readyG 0) (.split 0 0)) (.split 0 0) (readyG 0) c u ∧
    ((u.emitTo (.split 0 0) 0).isSome &&
     (let e := (u.implicitCommit (.split 0 0)).releaseEvery (.split 0 0) u.nextId 3
      e.2 && (tabFind e.1.spend.monarch.graphs 4).isSome) && !((List.range 96).filter (fun i => c.act.getLsbD i)).isEmpty) = true :=
  opensAnd_spec (by decide)
theorem witness_emit_none : ∃ c u, Opens (emitNeed 8 2 0 ((readyG 0).modSplit 0 0 (fun y => { y with ex := 0 })) (.split 0 0)) (.split 0 0)
    ((readyG 0).modSplit 0 0 (fun y => { y with ex := 0 })) c u ∧ ((List.range 96).filter (fun i => c.act.getLsbD i)).isEmpty = true :=
  opensAnd_spec (by decide)
/-- A release that is not performed at the issue. -/
theorem witness_emit_later : ∃ c u, Opens (emitNeed 8 2 0 (loading (readyG 0)) (.split 0 0)) (.split 0 0) (loading (readyG 0)) c u ∧
    ((u.emitTo (.split 0 0) 0).isSome && !((u.implicitCommit (.split 0 0)).releaseEvery (.split 0 0) u.nextId 3).2) = true :=
  opensAnd_spec (by decide)
/-- Room for 64 records in an empty queue; no room behind a full spill area. -/
theorem witness_takes : ∀ g ∈ ((readyG 0).monarch.graphs.map (·.2)), g.takes 1 64 = true ∧
    ({ g with spilled := [(1, (0, 64))] } : Graph).takes 1 1 = false := by
  intro g hg
  have h : nodeCap g.table 1 = 64 ∧ (g.out 1).2 = 0 := by
    have e := List.mem_singleton.1 hg
    rw [e]; exact ⟨rfl, rfl⟩
  constructor
  · simp [Graph.takes, h]
  · have q : ({ g with spilled := [(1, (0, 64))] } : Graph).out 1 = (0, 64) := rfl
    simp [Graph.takes, Graph.room, q, h]


/-! Collectives and the merge. -/

/-- A communicator of two ranks: this one's rank, chunks of one row, counters at 0x1000 of the cluster-shared memory. -/
def commRecord (rank : Byte) : List Byte :=
  [2, 0, 0, 0, rank, 0, 0, 0] ++ List.replicate 16 0 ++ [0, 0x10, 0, 0, 0x20, 0xFF, 0x0F, 0] ++ List.replicate 8 0 ++ [1] ++ List.replicate 23 0
/-- The workgroup's launch has a communication group, and its record stands at the start of the cluster-shared memory, in s6. -/
noncomputable def readyComm (p comm : Byte) (va : Word) : State :=
  let s := readyL (ready.set 6 va readyE)
  { s with
    mem := (if p = 0 then [] else [(0x400008000000, p)]) ++ [(0x400008000019, 0x10), (0x40000800001C, 0x20), (0x40000800001D, 0xFF),
      (0x40000800001E, 0x0F), (0x400008000028, 1)]
    monarch := { s.monarch with launches := tabMod s.monarch.launches 1 (fun l => { l with record := List.replicate 0x11 0 ++ [comm] }) } }
/-- The test of a collective's issue: the record is read, and the barrier is registered for. -/
def collTest (bad : Bool) (c : Ctx) (u : State) : Bool :=
  match u.readFor (some 1) (.split 0 0) none (u.ctxOf (.split 0 0)).1 (u.ctxOf (.split 0 0)).2 (c.get u 6).toNat 64 with
  | .ok v (r, false) => u.wgOf (.split 0 0) == some 1 && (regPre 5 u (.split 0 0)).isNone &&
      (recordBad 5 u (.split 0 0) (recComm (u.record 1) == some (u.group 0).idx) r).isSome == bad && decide (v.engineSlots 0 ≠ 0) &&
      (v.wg 1).coll.isNone &&
      (let ws := v.tget (.split 0 0) 3
       let runs := ((c.get u 6).toNat, 64) :: (crArrive r, 16 * (((descOf ws).rows + crRows r - 1) / crRows r)) :: (descOf ws).tileRuns
       let e := { Engine.start (.split 0 0) (v.ctxOf (.split 0 0)) (v.wgOf (.split 0 0)) (.binrst 0) 2 (v.stream (.split 0 0) 2) v.clk with
         spans := runs }
       let x := v.engineEdge e runs
       bad || !x.engineWaits x.nextId e)
  | _ => false
/-- CollectivesIssue: by the communication group, by another, a broken record, a misaligned one. -/
theorem witness_coll : ∀ op ∈ [0, 1, 2, 3], ∃ c u, Opens (collNeed op 3 6 5) (.split 0 0) (readyComm 2 0x80 0xFFF2000000000) c u ∧
    (collTest false c u && recComm (u.record 1) == some (u.group 0).idx) = true :=
  fun op h => opensAnd_spec (List.all_eq_true.1 (by decide : [0, 1, 2, 3].all (fun op => opensAnd (collNeed op 3 6 5) (.split 0 0)
    (readyComm 2 0x80 0xFFF2000000000) (fun c u => collTest false c u && recComm (u.record 1) == some (u.group 0).idx)) = true) op h)
theorem witness_coll_other : ∃ c u, Opens (collNeed 0 3 6 5) (.split 0 0) (readyComm 2 0x81 0xFFF2000000000) c u ∧
    (collTest false c u && !(recComm (u.record 1) == some (u.group 0).idx)) = true := opensAnd_spec (by decide)
theorem witness_coll_broken : ∃ c u, Opens (collNeed 0 3 6 5) (.split 0 0) (readyComm 0 0x80 0xFFF2000000000) c u ∧
    collTest true c u = true := opensAnd_spec (by decide)
theorem witness_coll_misaligned : ∃ c u, Opens (collNeed 0 3 6 5) (.split 0 0) (readyComm 2 0x80 0xFFF2000000000 |> ready.set 6
    0xFFF2000000010) c u ∧ decide ((c.get u 6).toNat % 64 ≠ 0) = true := opensAnd_spec (by decide)

/-- A collective of the workgroup under way. -/
def collAt (op : BitVec 2) (rank : Byte) (pos phase : Nat) (sends : List Send) (abort : Option (BitVec 8 × BitVec 32)) : Coll :=
  { op := op, record := commRecord rank, va := 0xFFF2000000000, tile := [0xFFF2000002000, 4, 0x10001, 0, 0x10001], bar := 5, stream := 2
    st := Stream.ofBits 4, agent := some (.split 0 0), issued := [0], started := true, chunks := 1, pos := pos, sends := sends, abort := abort
    phase := phase, told := false }
/-- With a byte of its reduce counter. -/
noncomputable def readyRing (q : Coll) (at_ : Nat) (b : Byte) : State :=
  let s := readyL ((readyE.setColl 1 (some q)).modStrand (.split 0 0) (fun x => { x with wait := some .coll }))
  { s with mem := [(0x400008001000 + at_, b)] }
/-- CollectivesRun: an addition at position 0, and behind a counter that has been reached, has not, is aborted; the sends; the end. -/
theorem witness_ring :
    (let q := collAt 0 0 0 0 [] none
     ((readyRing q 0 1).wg 1).coll = some q ∧ q.agent = some (.split 0 0) ∧ ((readyRing q 0 1).unit 0).issued = false ∧
       ((readyRing q 0 1).strand (.split 0 0)).wait = some .coll ∧ q.steps[q.pos]? = some (0, 0) ∧ q.pos_ (0 % q.p) = 0 ∧ q.finals 0 0 = false) ∧
    (let q := collAt 0 1 0 0 [] none
     q.steps[q.pos]? = some (0, 0) ∧ q.pos_ (0 % q.p) ≠ 0) ∧
    (let q := collAt 0 0 1 0 [] none
     q.steps[q.pos]? = some (1, 0)) ∧
    (let q := collAt 2 0 1 0 [] none
     q.steps[q.pos]? = some (3, 0)) ∧
    (let q := collAt 0 0 3 0 [] none
     q.steps[q.pos]? = none ∧ q.sends = []) ∧
    (let q := collAt 0 0 3 0 [{ xids := [4], raise := none }] none
     q.sends ≠ []) := by decide
theorem witness_arrival :
    (let q := collAt 0 1 0 0 [] none
     let f := fun (s : State) => match s.arrival (s.collEngine 1 q) q 0 0 with
       | .ready => 1
       | .waits => 2
       | .aborted => 3
       | _ => 0
     [f (readyRing q 0 1), f (readyRing q 0x40 1), f (readyRing q 7 0x80)] = [1, 2, 3]) := by decide
/-- An abort that has not begun; one in phase 0, with and without a send; one that has heard the previous rank, and one that has not. -/
theorem witness_abort :
    (let q := collAt 0 1 0 0 [] none
     ((readyRing q 0 1).wg 1).coll = some q ∧ q.abort = none ∧ (0x71 : BitVec 8) ≠ 0) ∧
    (∀ l ∈ ([[], [{ xids := [4], raise := none }]] : List (List Send)), (collAt 0 1 0 0 l (some (0x73, 3))).phase = 0 ∧
      (collAt 0 1 0 0 l (some (0x73, 3))).abort.isSome = true) ∧
    (let q := collAt 0 1 0 1 [] (some (0x73, 3))
     q.phase ≠ 0 ∧ (readyRing q 0 1).abortHeard 1 { q with told := true } = true ∧ (readyRing q 0 1).abortHeard 1 q = false) := by decide
/-- RingPositions: both ranks. -/
theorem witness_rank : ∀ r ∈ ([0, 1] : List Byte), let q := collAt 0 r 0 0 [] none
    0 < q.p ∧ q.rank < q.p ∧ 0 < q.chunks := by decide

/-- MergeMembers: a record that is read, with an engine slot free. -/
theorem witness_merge_members : ∀ row ∈ ([((), bmNeed 8 6 [7] 2), ((), bmcloseNeed 8 6 7 2 readyC), ((), bmstatNeed 8 6 2 readyC)] :
    List (Unit × Need)), ∃ c u, Opens row.2 (.split 0 0) readyC c u ∧ (decide (u.engineSlots 0 ≠ 0) &&
      (let e := { Engine.start (.split 0 0) (u.ctxOf (.split 0 0)) (u.wgOf (.split 0 0)) (.binrst 0) 2 (u.stream (.split 0 0) 2) u.clk with
         spans := [((c.get u 6).toNat, 64)] }
       let t := u.engineEdge e [((c.get u 6).toNat, 64)]
       !t.engineWaits t.nextId e && match t.readFor (u.wgOf (.split 0 0)) (.split 0 0) none (u.ctxOf (.split 0 0)).1
         (u.ctxOf (.split 0 0)).2 (c.get u 6).toNat 64 with
       | .ok v (r, false) => (v.slotOf (mrDie r) (u.ctxOf (.split 0 0)).1 (u.ctxOf (.split 0 0)).2 (c.get u 6) 0).isNone
       | _ => false)) = true := opens_all (by decide)
/-- A tile of 32 rows of 32 fp32 elements, and an accumulation tensor. -/
noncomputable def readyTile : State :=
  readyL ((([(3, 0xFFF2000000000, 0), (4, 0xFFF2000001000, 0x10001)] : List (Nat × Word × Word)).flatMap (fun p =>
    (([p.2.1, 128, 0x200020, 0, p.2.2] : List Word).zip (List.range 5)).map (fun r => (p.1, r)))).foldl
      (fun s r => s.tput (.split 0 0) r.1 r.2.2 r.2.1) readyE)
theorem witness_bmstage : ∃ c u, Opens (bmstageNeed 4 6 5) (.split 0 0) readyTile c u ∧ decide (u.engineSlots 0 ≠ 0) = true :=
  opensAnd_spec (by decide)
theorem witness_bmnorm : ∃ c u, Opens (bmnormNeed 8 4 6 2) (.split 0 0) readyTile c u ∧ (decide (u.engineSlots 0 ≠ 0) &&
    (let ws := u.tget (.split 0 0) 4
     let e := { Engine.start (.split 0 0) (u.ctxOf (.split 0 0)) (u.wgOf (.split 0 0)) (.binrst 0) 2 (u.stream (.split 0 0) 2) u.clk with
       spans := (descOf ws).tensorRuns }
     let t := u.engineEdge e (descOf ws).tensorRuns
     let g := ((Work.start t).aligned (descAlign (descOf ws).fmt) (descOf ws).rowAddrs).mergeTile e (descOf ws)
     !t.engineWaits t.nextId e && g.1.flt.isNone && g.1.err.isNone)) = true := opensAnd_spec (by decide +kernel)
theorem witness_bmadd : ∃ c u, Opens (bmaddNeed 3 4 6 2) (.split 0 0) readyTile c u ∧
    (let runs := (descOf (u.tget (.split 0 0) 3)).tensorRuns ++ (descOf (u.tget (.split 0 0) 4)).tensorRuns
     let e := { Engine.start (.split 0 0) (u.ctxOf (.split 0 0)) (u.wgOf (.split 0 0)) (.binrst 0) 2 (u.stream (.split 0 0) 2) u.clk with
       spans := runs }
     let t := u.engineEdge e runs
     let g := addWork e (u.tget (.split 0 0) 3) (u.tget (.split 0 0) 4) ((c.get u 6).toNat % 2 ^ 32) t
     decide (u.engineSlots 0 ≠ 0) && !t.engineWaits t.nextId e && g.flt.isNone && g.err.isNone) = true := opensAnd_spec (by decide +kernel)
/-- A merge's record of one contributor and one tile. -/
def mergeRecord : List Byte := List.replicate 12 0 ++ [2, 0, 1] ++ List.replicate 49 0
/-- MERGE_COMMIT: nothing to commit; an absent contributor at NEXT, and one that is not; its record stands at 0x4000 of a mapped GiB. -/
noncomputable def readyAbsent (i : Nat) : State :=
  { ready with mem := [(1, 1), (0x100, 1), (0x101, 8), (0x200, 0x0F), (0x400C, 2), (0x400E, 1)] }.modDie 0 (fun d => { d with
    absent := [{ asid := 0, record := 0x4000, index := i, vi := 1 }] })
theorem witness_commit : (ready.die 0).ready = [] ∧ ((readyAbsent 0).die 0).ready.length = 1 ∧
    ([0, 1].all (fun i => match (readyAbsent i).readHome 1 0 0x4000 64 with
      | .ok _ (r, _) => mrNext r == 0 && mergeOk 0x4000 r
      | _ => false)) = true ∧
    (match (readyAbsent 0).readHome 1 0 0x4000 64, ((readyAbsent 0).die 0).ready with
      | .ok _ (r, _), [x] => x.index == 0 && ((readyAbsent 0).commitOne 0 x r).2.isNone &&
          (((readyAbsent 0).commitOne 0 x r).1.die 0).ready.isEmpty
      | _, _ => false) = true := ⟨rfl, by decide, by decide +kernel, by decide +kernel⟩
/-- MergeSlots: two free slots, one, none; an open contributor, a closed one, a committed one. -/
noncomputable def readySlots (n : Nat) (l : Tab Slot) : State := ready.modDie 0 (fun d => { d with nslot := n, slots := l })
theorem witness_slots : mergeOk 0x4000 mergeRecord = true ∧ 0 < mrCont mergeRecord ∧ 1 < mrCont mergeRecord ∧ mrDie mergeRecord = 0 ∧
    (readySlots 2 []).contrib 1 0 0x4000 mergeRecord 0 = .pending ∧
    (List.range ((readySlots 2 []).die 0).nslot).filter (fun j => (tabFind ((readySlots 2 []).die 0).slots j).isNone) = [0, 1] ∧
    (readySlots 1 []).contrib 1 0 0x4000 mergeRecord 1 = .pending ∧ 1 ≠ mrNext mergeRecord ∧
    (readySlots 1 []).slotOf 0 1 0 0x4000 (mrNext mergeRecord) = none ∧
    (readySlots 1 [(0, newSlot 2 0 0 0)]).contrib 1 0 0x4000 mergeRecord 0 = .pending ∧
    (List.range 1).filter (fun j => (tabFind ((readySlots 1 [(0, newSlot 2 0 0 0)]).die 0).slots j).isNone) = [] ∧
    (readySlots 1 [(0, newSlot 1 0 0x4000 0)]).contrib 1 0 0x4000 mergeRecord 0 = .opened 0 ∧
    (readySlots 1 [(0, { newSlot 1 0 0x4000 0 with closed := true })]).contrib 1 0 0x4000 mergeRecord 0 = .closed ∧
    (readySlots 1 []).contrib 1 0 0x4000 (mergeRecord.set 0x18 1) 0 = .committed := by decide


/-! Lines, launches, placement, accounts, commands, packets, power. -/

/-- Virtual interface 1 in use: enabled, HYP as asked, launch queue 0 at 0x5000, one cluster, cluster 0. -/
def viBytes (ctl : Byte) : List Byte := (((List.replicate 0x101 0).set 0 ctl).set 0x41 0x50).set 0x98 1
/-- Tables that map the first GiB to memory, the context's ring at 0x4000, queue 0 with one entry, the record at 0x7000. -/
noncomputable def readyVi (ctl tail : Byte) : State :=
  { ready with
    mem := [(1, 1), (9, 0x40), (0x100, 1), (0x101, 8), (0x200, 0x0F), (0x5001, 0x60), (0x5008, 16)] ++
      (if tail = 0 then [] else [(0x5010, tail)]) ++ [(0x6001, 0x70)]
    mgmt := { ready.mgmt with used := [(1, viBytes ctl)], parts := [(0, wholePart)] } }
/-- MissingLines: a walk that translates, one that faults, a buffered translation; a line to fill, one that stands, a ceiling. -/
noncomputable def readyReq (t : Option Tlb) (s : State) : State :=
  { s with requests := [(3, { asid := 0, vi := 1, line := 0x4000, write := false, fetch := false, waiters := [], token := none, tlb := t, walk := none })] }
def tlbOne : Tlb := { pa := 0, size := 3, w := true, x := true, kind := 0, ochk := true, remote := none, vmid := 0, asid := 0, page := 0, used := 0 }
theorem witness_walk : (tabFind (readyReq none (readyVi 1 1)).requests 3).isSome = true ∧ (readyVi 1 1).tlbFind 1 0 0x4000 = none ∧
    (match (readyVi 1 1).translate 1 0 0x4000 with
      | .ok _ t => t.pa == 0
      | _ => false) = true ∧
    (match ready.translate 1 0 0x4000 with
      | .fault _ _ _ => true
      | _ => false) = true ∧
    (match (readyVi 1 1).translate 1 0 0x4000 with
      | .ok v _ => (v.tlbFind 1 0 0x4000).isSome
      | _ => false) = true ∧
    (match ({ readyVi 1 1 with mem := [(1, 1), (0x100, 1), (0x101, 8), (0x200, 0x6F)] } : State).translate 1 0 0x4000 with
      | .bad _ => true
      | _ => false) = true := by decide
/-- A walk of its own; one of the same page in progress; sixteen others in progress; reads within the interface's ceiling, and not. -/
noncomputable def readyWalks (n : Nat) (line : Nat) : State :=
  { readyVi 1 1 with requests := (List.range n).map (fun i => (4 + i, ({
      asid := 0, vi := 1, line := line * i + 0x4000, write := false, fetch := false, waiters := [], token := none, tlb := none, walk := some (4 + i)
    } : Request))) }
def oneRequest : Request :=
  { asid := 0, vi := 1, line := 0x4000, write := false, fetch := false, waiters := [], token := none, tlb := none, walk := none }
/-- Interface 1 beyond its ceiling on die 0. -/
noncomputable def readyCeiling : State :=
  ({ readyVi 1 1 with mgmt := { (readyVi 1 1).mgmt with used := [(1, (viBytes 1).take 0x92 ++ [1])] } } : State).modDie 0 (fun d => { d with
    band := [(1, 1000)] })
theorem witness_walks :
    (let walks := fun (s : State) => s.requests.filter (fun p => p.2.walk == some p.1)
     (walks (readyWalks 0 0)) = [] ∧
     ((walks (readyWalks 1 0)).find? (fun p => (readyWalks 1 0).pageOf p.2 == (readyWalks 1 0).pageOf oneRequest)).isSome = true ∧
     ((walks (readyWalks 17 0x10000)).tail.find? (fun p => (readyWalks 17 0x10000).pageOf p.2 == (readyWalks 17 0x10000).pageOf oneRequest)).isNone
       = true) ∧
    ((readyVi 1 1).hops 1 0 0x4000).all (fun h => match h.pa with
      | some pa => !hasMemory pa || !(readyVi 1 1).atCeiling 1 (pa / 0x200000000 / 12)
      | none => true) = true ∧
    (readyCeiling.hops 1 0 0x4000).any (fun h => match h.pa with
      | some pa => hasMemory pa && readyCeiling.atCeiling 1 (pa / 0x200000000 / 12)
      | none => false) = true := by decide +kernel
theorem witness_walks_full : let s := readyWalks 16 0x10000
    let r : Request := { oneRequest with line := 0x104000 }
    (s.requests.filter (fun p => p.2.walk == some p.1)).find? (fun p => s.pageOf p.2 == s.pageOf r) = none ∧
    16 ≤ ((s.requests.filter (fun p => p.2.walk == some p.1)).filter (fun p => (s.pageOf p.2).1 == (s.pageOf r).1)).length := by decide +kernel
/-- A walk meters its three reads of 8 bytes and leaves its pointer entry in the station (R294, R301), and a purge of the page takes it
(R296). -/
theorem test_walk_pointer : (match (readyVi 1 1).translate 1 0 0x4000 with
      | .ok v _ => tabGet (v.die 0).band 1 0 == 24 && v.stations.any (fun x => x.2.ptrs.length == 1) &&
        !(v.purge (v.purgeOf 1 { flags := 0, asid := 0, count := 1, addr := 0, done := 0 })).stations.any (fun x => x.2.ptrs.length == 1)
      | _ => false) = true := by decide
theorem witness_fill : (readyVi 1 1).l2 (lineKey 0 0x4000) = none ∧ (readyVi 1 1).atCeiling 1 (tlbOne.at 0x4000 / 0x200000000 / 12) = false ∧
    ((readyVi 1 1).fill 1 0x4000 tlbOne).isSome = true ∧
    (match (readyVi 1 1).fill 1 0x4000 tlbOne with
      | some v => (v.l2 (lineKey 0 0x4000)).isSome
      | none => false) = true ∧
    ((readyVi 1 1).fill 1 0x4000 { tlbOne with pa := 0x6000000000 }).isNone = true ∧
    ((({ readyVi 1 1 with mgmt := { ready.mgmt with used := [(1, (viBytes 1).take 0x92 ++ [1])] } } : State).modDie 0 (fun d => { d with
      band := [(1, 1000)] })).atCeiling 1 0 = true) := by decide
theorem witness_fetch : ready.cur = some (.split 0 0) ∧ ready.fetches = [] ∧
    (tabFind ({ ready with fetches := [(4, { die := 0, asid := 0, vi := 1, line := 0x4000, kernels := [ready.kernelOf (.split 0 0)], agent := .split 0 0 })] } : State).fetches 4).isSome = true := by
  decide
/-- AccessesComplete: a load of the scratchpad; an atomic and a store to it; a load whose owner has gone; one whose line is missing; one that
follows a load which waits for its answer; poison. -/
noncomputable def readyAccess (what : Nat) (a : Agent) (va : Word) (s : State) : State :=
  { s with nextId := 8, accesses := s.accesses ++ [(7, { Access.blank a 1 0 1 with
      what := what, op := 128, dest := (1, 6, 2, 0), lanes := [(0, va, toBytes 5 4)] })] }
/-- The state in which the access is performed, or what it still waits for. -/
noncomputable def accessAt (s : State) : Option (State × Access × Bool) :=
  (tabFind s.accesses 7).bind (fun x =>
    let v := s.upsetFor x .none
    let w := if v.mustWait 7 x then v.flush x.agent 7 else v
    (tabFind w.accesses 7).map (fun y => (w, y, !v.orphan x && !(w.mustWait 7 x || w.releaseWaits x || w.releaseHeld x))))
/-- What the statement asks of a load or atomic that is performed. -/
noncomputable def accessTest (s : State) : Bool :=
  match accessAt s with
  | none => false
  | some (w, y, go) =>
    let q : State := { w with accesses := tabMod w.accesses 7 (fun x => { x with token := none }) }
    go && (w.missing y).isNone && (q.lateTrap y).isNone && (q.performOne 7).2.isNone
theorem witness_access : (∀ w ∈ [0, 2], accessTest (readyAccess w (.split 0 0) 0xFFF1000000000 (readyL ready)) = true) ∧
    (let s := readyAccess 1 (.split 0 0) 0xFFF1000000000 (readyL ready)
     (tabFind s.accesses 7).any (fun x => x.what == 1 && !(s.upsetFor x .none).mustWait 7 x && !(s.upsetFor x .none).releaseWaits x &&
       !x.via)) = true ∧
    (let s := readyAccess 0 (.split 1 0) 0xFFF1000000000 (readyL ready)
     (tabFind s.accesses 7).any (fun x => (s.upsetFor x .none).orphan x)) = true ∧
    (accessAt (readyAccess 0 (.split 0 0) 0x4000 (readyVi 1 1))).any (fun r => r.2.2 && (r.1.missing r.2.1).isSome) = true ∧
    (accessAt (readyAccess 0 (.split 0 0) 0x2000 (loading ready))).any (fun r => !r.2.2) = true ∧
    (let s := readyAccess 4 (.split 0 0) 0x4000 (readyVi 1 1)
     (tabFind s.accesses 7).any (fun x => x.what == 4)) = true := by decide
theorem witness_access_poison : (let s := readyAccess 0 (.split 0 0) 0xFFF1000000000 (readyL { ready with poison := [scratchAt 0 0 / 16] })
    (accessAt s).any (fun r => r.2.2 && (r.1.missing r.2.1).isNone && (r.1.lateTrap r.2.1).isSome)) = true := by decide
/-- R354: a second error on one row in one clk writes no second record. -/
theorem test_one_record : let s := ready.upset (.row (scratchAt 0 0)) 0 (0, 0) noName .double
    s.mgmt.errSeq = ready.mgmt.errSeq + 1 ∧ (s.upset (.row (scratchAt 0 0)) 0 (0, 0) noName .double).mgmt.errSeq = s.mgmt.errSeq := by decide
/-- R373: four lanes of a word each cover a sector, in any order; three do not. -/
theorem test_store_covers : coversSector [(32, 4), (40, 4), (36, 4), (44, 4)] 2 = true ∧ coversSector [(32, 4), (40, 4), (36, 4)] 2 = false := by
  decide
/-- LaunchQueues: a good queue with an entry, served up to its TAIL; one served whole; one that keeps no rule. -/
theorem witness_queue : (readyVi 1 1).viBit 1 0 = true ∧
    (match (readyVi 1 1).launchQueue 1 0 with
      | some (_, d) => d.good && decide (d.waiting ≤ d.size) && decide (d.head ≠ 1)
      | none => false) = true ∧
    (match (readyVi 1 0).launchQueue 1 0 with
      | some (_, d) => decide (d.head = 0)
      | none => false) = true ∧
    (match ({ readyVi 1 1 with mem := [(1, 1), (0x100, 1), (0x101, 8), (0x200, 0x0F)] } : State).launchQueue 1 0 with
      | some (_, d) => !d.good
      | none => false) = true := by decide
/-- The queue is under service: up to its entry, or at its end, with and without a doorbell that has come since; the doorbell that finds it so. -/
noncomputable def readyBell (tail : Nat) (again : Option (BitVec 32 × BitVec 32)) : State :=
  (readyVi 1 1).setBells (fun _ => [{ key := 8, kpid := 2, ktid := 1, tail := tail, again := again }])
theorem witness_arrival_queue : (∀ x ∈ ([(1, none), (0, none), (0, some (2, 1))] : List (Nat × Option (BitVec 32 × BitVec 32))),
      let s := readyBell x.1 x.2
      (s.monarch.bells.find? (fun b => b.key == 8 * (1 : BitVec 8).toNat + (0 : BitVec 3).toNat)).any (fun b => b.again == x.2 && b.tail == x.1) =
        true ∧
      s.monarch.closed.contains 1 = false ∧ s.heldBy 1 < 64 ∧ s.heldAll < 4096 ∧
      s.firstFault 1 (BitVec.ofNat 16 (s.viField 1 0x80 2)) [(s.viField 1 0x40 8, 64)] = none) ∧
    (let s := readyBell 1 none
     match s.launchQueue 1 0 with
      | some (u, d) => decide (d.head = 0) && decide (d.waiting ≤ d.size) &&
          (u.firstFault 1 d.asid (u.entryReads 1 d (d.base + 8 * (d.head % d.size)))).isNone &&
          (match u.monRead 1 d.asid (d.base + 8 * (d.head % d.size)) 8 with
            | some (v, bs) => decide (ofBytes bs % 64 = 0) && (v.monRead 1 d.asid (ofBytes bs) 512).isSome
            | none => false)
      | none => false) = true := by decide +kernel
/-- PlacementAndGraphs: nothing to place; a launch of one workgroup of one group that fits. -/
def launchRecord : List Byte :=
  let one : List Byte := 1 :: List.replicate 15 0
  List.replicate 64 0 ++ one ++ (1 :: List.replicate 7 0 ++ 3 :: List.replicate 7 0) ++ one ++ one ++ one ++ one ++ one ++ one
noncomputable def readyLaunch : State :=
  { readyVi 1 1 with
    groups := [], threads := [], wgs := []
    monarch := { ready.monarch with launches := [(2, { Launch.blank with vi := 1, eligible := true, record := launchRecord })] } }
theorem witness_place : ready.order = [] ∧
    (match readyLaunch.order with
      | [(k, l)] => (match l.candidate with
        | some (num, back) => k == 2 && (readyLaunch.placeFor 0 k num back).isSome
        | none => false)
      | _ => false) = true := by decide +kernel
/-- A graph without kernels, to be activated, and one whose table lies on a page that faults; a flush; a discard, with and without an engine;
a grace that has run out; a suspended program. -/
noncomputable def readyGraph (b : Byte) : State :=
  { readyVi 1 1 with monarch := { ready.monarch with graphs := [(4, {
        vi := 1, asid := 0, record := (List.replicate 64 0).set 3 b, prio := 0, arrival := 0, active := false, table := [], queues := []
        spilled := [], ending := none, reported := [], launches := [], wgs := 0, ended := 0, kpid := 0, ktid := 0, resv := [] })] } }
theorem witness_graph : (tabFind (readyGraph 0).monarch.graphs 4).any (fun g => !g.active && g.reserved && field g.record 0x10 4 == 0 &&
        ((readyGraph 0).monRead g.vi g.asid (field g.record 0 8) 2048).isSome &&
        ((readyGraph 0).firstFault g.vi g.asid [(field g.record 0 8, 2048)]).isNone) = true ∧
    (tabFind (readyGraph 0x40).monarch.graphs 4).any (fun g => !g.active && g.reserved && field g.record 0x10 4 == 0 &&
        ((readyGraph 0x40).monRead g.vi g.asid (field g.record 0 8) 2048).isNone &&
        ((readyGraph 0x40).firstFault g.vi g.asid [(field g.record 0 8, 2048)]).isSome) = true ∧
    (tabFind (readyG 0).monarch.graphs 4).any (fun g => !(readyG 0).flushes g 1) = true ∧
    (let s := { readyG 1 with monarch := { (readyG 1).monarch with graphs := tabMod (readyG 1).monarch.graphs 4 (fun g => { g with
        table := ((g.table.set 22 9).set 54 9).set 24 0 }) } }
     (tabFind s.monarch.graphs 4).any (fun g => s.flushes g 1)) = true := by decide +kernel
/-- A migration record for an interface that is enabled. -/
theorem witness_place_moved : (readyVi 1 1).viBit ({ vi := 1, launches := [] } : Migration).vi 0 = true := by decide
theorem witness_discard : (let s := ready.modWg 1 (fun x => { x with ctl := none })
     (tabFind s.wgs 1).any (fun x => x.ctl.isNone && !x.ctlDone) && !(s.dropGroups 1).enginesOf 1) = true ∧
    (let s := { (ready.modWg 1 (fun x => { x with ctl := none })) with
       engines := [(9, Engine.start (.split 0 0) (1, 0) (some 1) (.cset 0 0) 2 (Stream.ofBits 4) 0)] }
     (s.dropGroups 1).enginesOf 1) = true ∧
    (let s := ready.modWg 1 (fun x => { x with ctlDone := true })
     (tabFind s.wgs 1).any (fun x => x.ctl.isSome && x.ctlDone)) = true := by decide
noncomputable def readyGrace : State := ready.modWg 1 (fun x => { x with grace := some 0, preempt := true })
theorem witness_grace : ((readyGrace.wg 1).grace = some 0 ∧ (readyGrace.wg 1).ctl = some 0 ∧ 0 ≤ readyGrace.clk ∧ (readyGrace.wg 1).preempt = true ∧
      (readyGrace.wg 1).discard = none ∧ (readyGrace.wg 1).ctlDone = false) ∧
    (readyGrace.modThread 0 (fun y => { y with halt := true })).saveReady 0 = true ∧ readyGrace.holdsAcc 1 = false ∧
    ((readyGrace.modWg 1 (fun x => { x with ctlDone := true })).modCluster 0 (fun k => { k with accowner := 4 })).holdsAcc 1 = true ∧
    ((readyGrace.modCluster 0 (fun k => { k with run := [matOp 0 false 3 0 0 0 none 0] })).modThread 0 (fun y => { y with halt := true })).saveReady 0 = false :=
  by decide
theorem witness_suspended : (let s := ready.modWg 1 (fun x => { x with suspended := some Thread.reset })
    (s.wg 1).suspended = some Thread.reset ∧ s.freeThreads (s.wg 1).cluster = 1 :: [] ∧ s.monarch.closed.contains (s.wg 1).vi.toNat = false ∧
      ({ s with monarch := { s.monarch with closed := [1] } } : State).monarch.closed.contains (s.wg 1).vi.toNat = true) := by decide
/-- WindowsAndAccounts: four layers within the threshold; keeping that ends and that does not; a charge to sample and one to pass; the limit. -/
theorem witness_window : ∀ l < 4, (((ready.core l).draw : Nat) : Int) - 0 ≤ ((ready.cluster 0).stkcfg.extractLsb' 16 16).toNat := by decide
theorem witness_keeping : ((ready.modCore 0 (fun k => { k with keeping := some 0 })).core 0).keeping = some 0 ∧ ¬(0 + 4096 ≤ ready.clk) ∧
    0 + 4096 ≤ ({ ready with clk := 4096 } : State).clk := by decide
def chargeOne : Charge := { vi := 1, asid := 0, pc := 0x1000, cause := .issue, agent := none, name := noName }
noncomputable def readySample (per : Byte) : State :=
  let s := readyVi 1 1
  { s with clk := 1025, mem := [(1, 1), (9, 0x40), (0x100, 1), (0x101, 8), (0x200, 0x0F), (0x4014, per)] }.modUnit 0 (fun u => { u with
    banks := [(1, { vi := 1, asid := 0, cur := [(0, 1048576)], base := [] })], charged := some chargeOne })
theorem witness_sample : ((readySample 10).unit 0).charged = some chargeOne ∧
    (readySample 10).speriod 1 0 = 10 ∧ ((readySample 10).clk - 1) % 2 ^ 10 = 0 ∧ (readySample 10).eventOff 1 0 17 = false ∧
    (readySample 9).speriod 1 0 = 0 ∧ (∃ x ∈ (tabGet ((readySample 10).unit 0).banks 1 Bank.blank).cur, 2 ^ 20 ≤ x.2) := by
  refine ⟨rfl, by decide, by decide, by decide, by decide, (0, 1048576), by decide, by decide⟩
theorem witness_clk : (ready.wgs.all (fun p => !p.2.preempt) && ready.threads.all (fun p => !p.2.halt)) = true ∧
    (∀ c ∈ ready.clusters, ∀ i < 2, (tabFind (ready.unit (384 + c.1)).banks (1 + i)).all (fun b =>
      (ready.thread (2 * c.1 + i)).ctx == some (b.vi, b.asid)) = true) := by decide

/-- Commands: READY with a partition; a mailbox under STATE 0, and one that has answered; a command out of range, outside, unable, and able. -/
theorem witness_command : (readyVi 1 1).mgmt.state = 4 ∧ ((readyVi 1 1).setBox 0 { Mailbox.idle with state := 0 }).box 0 =
      { Mailbox.idle with state := 0 } ∧ ((readyVi 1 1).box 0).state = 1 ∧ tabFind (readyVi 1 1).mgmt.parts 0 = some wholePart ∧
    (decide ((2 : BitVec 8).toNat < 2) = false ∧ decide ((1 : BitVec 8).toNat < 2) = true) ∧
    (decide (wholePart.viBase ≤ (1 : BitVec 8).toNat) && decide ((1 : BitVec 8).toNat < wholePart.viBase + wholePart.viCount)) = true ∧
    (decide (({ wholePart with viBase := 2 } : Partition).viBase ≤ (1 : BitVec 8).toNat) && decide ((1 : BitVec 8).toNat < 258)) = false ∧
    ((readyVi 1 1).named { part := 0, vi := 1, launch := 1, group := 0 }).isSome = true ∧
    ((readyVi 1 1).named { part := 0, vi := 1, launch := 9, group := 0 }).isSome = false ∧
    (readyVi 1 1).ownsRun wholePart 0x20000 512 = true ∧ (field ((readyVi 1 1).viTable 1) 0 8).testBit 0 = false ∧
    bits (field (cleanRecord ((readyVi 1 1).getBytes 0x20000 512)) 0 8) 4 3 = 0 := by decide +kernel
/-- TranslationCommands: an interface with HYP, and one without; a fault with who waits on it, and a token of none. -/
theorem witness_tcmd : (readyVi 9 1).viBit 1 0 = true ∧ (readyVi 9 1).viBit 1 3 = true ∧ (readyVi 1 1).viBit 1 3 = false ∧
    (0 : BitVec 8).getLsbD 1 = false ∧ (2 : BitVec 8).getLsbD 1 = true ∧ (readyVi 9 1).viPart 1 = 0 ∧ wholePart.hasPa 0x20000 = true ∧
    tabFind (readyVi 9 1).faults (5 % 2 ^ 32) = none ∧
    (tabFind ({ readyVi 9 1 with faults := [(5, {
        vi := 1, stage := 1, page := 0, asid := 0, va := 0, splits := [(.split 0 0, 0)], steps := [], told := true, bytes := []
      })] } : State).faults (5 % 2 ^ 32)).isSome = true := by decide
theorem witness_session : (readyVi 1 1).viBit 1 0 = true ∧ (readyVi 1 1).viBit 1 1 = false ∧
    (match (readyVi 1 1).ringAt (ringCtx 1 0) with
      | some r => (match r.read (readyVi 1 1) (r.base + 0x18) 8 with
        | some (v, sel) => (r.write v (r.base + 0x20) (toBytes sel 8)).isSome
        | none => false)
      | none => false) = true := by decide

/-- A key entry for interface 1 that is local and open to every port, under key 7. -/
def keyOne : BitVec 128 := (7 : BitVec 16) ++ (0xFFFFFF : BitVec 24) ++ (3 : BitVec 2) ++ (1 : BitVec 8) ++ (0 : BitVec 78)
noncomputable def readyNet : State :=
  { readyVi 1 1 with fabric := { ready.fabric with
      keys := [(0, keyOne)]
      sent := [{ xid := 6, hdr := { len := 24, op := 2, oseq := 0, rsv := 0, flow := 0, mgmt := false, unordered := false, pkey := 7,
                                               src := 0, dest := 5 }, rva := 0x4000, va := 0x4000, engine := none, coll := none }] } }
def hdrOne (len : BitVec 16) (op : BitVec 8) (m u : Bool) (pkey : BitVec 16) : PktHdr :=
  { len := len, op := op, oseq := 0, rsv := 0, flow := 0, mgmt := m, unordered := u, pkey := pkey, src := 5, dest := 0 }
/-- A packet that has passed ingress, and one that has not. -/
theorem witness_passed : (let h := hdrOne 32 1 false true 7
    readyNet.fabric.passed.contains (3, h) = false ∧
    ({ readyNet with fabric := { readyNet.fabric with passed := [(3, h)] } } : State).fabric.passed.contains (3, h) = true) := by decide
/-- PacketsArrive: a WRITE of 16 bytes, counter packets, an ACK, an MREQ and a LINKDOWN pass; a packet under another key does not. -/
theorem witness_packets : ([hdrOne 32 1 false true 7, hdrOne 24 2 false false 7, hdrOne 16 5 false true 7, hdrOne 32 8 true false 0].all
      (fun h => (readyNet.fromHere h || (readyNet.port 3).up) && readyNet.passes 3 h true)) = true ∧
    readyNet.passes 3 (hdrOne 24 2 false false 8) true = false ∧
    (hdrOne 24 2 false false 7).oseq.toNat = tabGet readyNet.fabric.oseqRx (5 * 4096) 0 ∧
    readyNet.keyFor 3 (hdrOne 32 1 false true 7) true = some keyOne ∧ keyVi keyOne = 1 ∧ keyAsid keyOne = 0 ∧
    (match readyNet.writeHome 1 0 0x4000 (List.replicate 16 1) false with
      | .ok _ _ => true
      | _ => false) = true ∧
    (match readyNet.readHome 1 0 0x4000 8 with
      | .ok t (bs, false) => (match t.writeHome 1 0 0x4000 (toBytes (ofBytes bs) 8) false with
        | .ok _ _ => true
        | _ => false)
      | _ => false) = true ∧
    (readyNet.fabric.sent.find? (fun x => x.xid == 6 && x.hdr.dest == 5)).isSome = true := by decide
theorem witness_undeliv : let dr : BitVec 128 := BitVec.ofNat 128 (24 * 2 ^ 112 + 2 * 2 ^ 104 + 5)
    (hdrOf dr.toNat).src = readyNet.fabric.self ∧ 1 ≤ (hdrOf dr.toNat).op.toNat ∧ (hdrOf dr.toNat).op.toNat ≤ 4 ∧
    (readyNet.fabric.sent.find? (fun x => x.xid == 6 && x.hdr.dest == (hdrOf dr.toNat).dest)).isSome = true := by decide
/-- FlitsAndTimers: flits with a good and a bad CRC; a timer of a packet that is out; a held packet alone. -/
def flitOne (f : Flit) (type : Nat) (bad : BitVec 64) : Flit := { f with crc := crc64 (flitBytes type f) ^^^ bad }
theorem flitOne_good (f : Flit) (t : Nat) (b : BitVec 64) (h : f.payload.length = 240) :
    flitGood t (flitOne f t b) = (crc64 (flitBytes t f) == crc64 (flitBytes t f) ^^^ b) := by
  have e : flitBytes t (flitOne f t b) = flitBytes t f := rfl
  rw [flitGood, e]
  simp [flitOne, h]
theorem witness_flits (f : Flit) (t : Nat) (h : f.payload.length = 240) :
    flitGood t (flitOne f t 0) = true ∧ flitGood t (flitOne f t 1) = false := by
  rw [flitOne_good f t 0 h, flitOne_good f t 1 h]
  generalize crc64 (flitBytes t f) = c
  refine ⟨by simp, beq_eq_false_iff_ne.2 fun e => ?_⟩
  have := congrArg (c ^^^ ·) e
  simp only [BitVec.xor_self, ← BitVec.xor_assoc, BitVec.zero_xor] at this
  exact absurd this (by decide)
theorem witness_payload : (List.replicate 240 (0 : Byte)).length = 240 := List.length_replicate
theorem witness_port : (ready.port 3).up = true ∧ (0 : Nat) % 4096 = (ready.port 3).rxSeq ∧ (ready.port 3).nakked = false ∧
    flitPlain { seq := 0, ackSeq := 0, rsv := 0, payload := [], crc := 0 } = true ∧
    ((ready.modPort 3 (fun x => { x with nakked := true })).port 3).nakked = true := by decide
theorem witness_timers : (readyNet.fabric.sent.find? (fun x => x.xid == 6)).isSome = true ∧
    (let p : Nat × Nat × PktHdr × List Byte := (3, 0, hdrOne 24 2 false false 7, List.replicate 24 0)
     let s : State := { readyNet with clk := 120000, fabric := { readyNet.fabric with hold := [p] } }
     s.fabric.hold = [p] ∧ p.2.2.1.src = 5 ∧ p.2.2.1.flow = 0 ∧ s.faults = [] ∧ p.2.1 + 120000 ≤ s.clk) := by decide
/-- PowerAndBringUp: the states of bring-up, a map with a partition that stands and one that does not. -/
noncomputable def readyBoot (n : BitVec 3) (map : List Byte) : State := { ready with mgmt := { ready.mgmt with state := n, map := map } }
theorem witness_boot : (∀ n < 3, (readyBoot n []).mgmt.state = n ∧ (readyBoot n []).mgmt.reason = 0) ∧
    partsOk (readyBoot 2 []).mgmt.map [] = true ∧ partsOk (readyBoot 2 (List.replicate 0x20 0 ++ 1 :: List.replicate 0x1F 0)).mgmt.map [] = false ∧
    ((699 : BitVec 16).toNat < 700) ∧ (95 < 96 ∧ 3 < 4 ∧ 96 ≤ 111 ∧ 111 < 112) := by decide


/-! The step, registers, traps, loads. -/

/-- The state in which split 0 is about to be tried, with bytes in front of it, an address and a queued trap. -/
noncomputable def readyStep (a : Agent) (bs : List Byte) (pc : Word) (traps : List (BitVec 8 × Word)) : State :=
  let s := ({ State.reset.withFetchWord 32 0x15 with turn := [.run a], due := [] } : State).modStrand a (fun x => { x with pc := pc, traps := traps })
  s.modUnit a.unit (fun u => { u with icache := [(lineKey (s.tagAsid 1 0 0x1000) 0x1000, { placedLine 32 0x15 with bytes := bs ++ List.replicate (128 - bs.length) 0 })] })
/-- What StepRunsDecoded asks of that state. -/
def stepTest (s : State) (a : Agent) : Bool :=
  let x := s.strand a
  s.due.isEmpty && s.turn == [.run a] && s.alive a && !s.discarding a.unit && !x.stopped && !s.halted a && !s.faulting a && x.park.isNone && x.wait.isNone &&
    decide (x.delay ≤ s.clk) && (match a with
      | .split g k => !(s.splitOf g k).atJoin s.clk && (s.splitOf g k).ex != 0
      | .thread t => !(s.thread t).spill) && !(s.fetchFrom a.unit (s.ctxOf a).1 (s.ctxOf a).2 x.pc.toNat 12 13).bad &&
    (match tabFind (s.unit a.unit).icache (lineKey (s.tagAsid (s.ctxOf a).1 (s.ctxOf a).2 x.pc.toNat) x.pc.toNat) with
      | some l => tabGet l.marks (x.pc.toNat % 128 / 2) 0 != 2
      | none => true)
/-- The bytes in front of an agent. -/
noncomputable def readyBytes (s : State) (a : Agent) : List Byte :=
  (s.fetchFrom a.unit (s.ctxOf a).1 (s.ctxOf a).2 (s.strand a).pc.toNat 12 13).bytes
/-- StepRunsDecoded: a sequence; with a trap queued; bytes that are none; bytes that are missing; an address beyond global memory. -/
theorem witness_step : stepTest (readyStep (.split 0 0) [0x03, 0x81, 0x08, 0x00] 0x1000 []) (.split 0 0) = true ∧
    fetchable 0x1000 = true ∧
    (match decode (readyBytes (readyStep (.split 0 0) [0x03, 0x81, 0x08, 0x00] 0x1000 []) (.split 0 0)) with
      | .ok (.add 2 4 1, _) => true
      | _ => false) = true := by decide
theorem witness_step_trap : stepTest (readyStep (.split 0 0) [0x03, 0x81, 0x08, 0x00] 0x1000 [(0x09, 5)]) (.split 0 0) = true ∧
    ((readyStep (.split 0 0) [0x03, 0x81, 0x08, 0x00] 0x1000 [(0x09, 5)]).strand (.split 0 0)).traps = (0x09, 5) :: [] ∧
    (∀ y ∈ ([] : List (BitVec 8 × Word)), y.1 = 0x09) ∧
    ∃ t, exec (.add 2 4 1) { readyStep (.split 0 0) [0x03, 0x81, 0x08, 0x00] 0x1000 [(0x09, 5)] with turn := [], cur := some (.split 0 0) } = .next t :=
  ⟨by decide, by decide, by simp, _, rfl⟩
theorem witness_step_none : stepTest (readyStep (.split 0 0) [0x6D, 0, 0, 0] 0x1000 []) (.split 0 0) = true ∧
    (match decode (readyBytes (readyStep (.split 0 0) [0x6D, 0, 0, 0] 0x1000 []) (.split 0 0)) with
      | .error e => e.inner.isNone
      | _ => false) = true := by decide
theorem witness_step_miss : stepTest (readyStep (.split 0 0) [] 0x2000 []) (.split 0 0) = true ∧ fetchable 0x2000 = true ∧
    decode (readyBytes (readyStep (.split 0 0) [] 0x2000 []) (.split 0 0)) = .error .short ∧
    ((readyStep (.split 0 0) [] 0x2000 []).fetchFrom 0 1 0 0x2000 12 13).missing = some 0x2000 ∧
    (readyStep (.split 0 0) [] 0x2000 []).peekSeq (.split 0 0) = none := ⟨by decide, by decide, rfl, by decide, by decide⟩
/-- A line that is missing and whose bytes, at 0x2000 of the context's first GiB, are an ADD whose source is pending. -/
noncomputable def readyPeek : State :=
  { readyStep (.split 0 0) [] 0x2000 [] with
    mem := [(1, 1), (0x100, 1), (0x101, 8), (0x200, 0x1F), (0x2000, 0x03), (0x2001, 0x81), (0x2002, 0x08)]
    mgmt := { State.reset.mgmt with used := [(1, viBytes 1)], parts := [(0, wholePart)] } }
theorem witness_step_peek : (match readyPeek.peekSeq (.split 0 0) with
      | some (.add 2 4 1) => true
      | _ => false) = true ∧
    (match exec (.fetchMiss ⟨0x2000, .none⟩) { readyPeek with cur := some (.split 0 0) },
        exec (.add 2 4 1) ({ readyPeek with cur := some (.split 0 0) }.block (.split 0 0) .fetch) with
      | .next _, .next _ => true
      | _, _ => false) = true := by decide
theorem witness_step_window : stepTest (readyStep (.split 0 0) [] 0xFFF1000000000 []) (.split 0 0) = true ∧ fetchable 0xFFF1000000000 = false := by
  decide
/-- A NODE in front of a TZERO, on the control thread: as the encoder lays them out. -/
theorem witness_step_node : stepTest (readyStep (.thread 0) (encode (.node 3 0) ++ encode (.tzero 9)) 0x1000 []) (.thread 0) = true ∧
    (match decode (readyBytes (readyStep (.thread 0) (encode (.node 3 0) ++ encode (.tzero 9)) 0x1000 []) (.thread 0)) with
      | .ok (.node 3 0, _) => true
      | _ => false) = true ∧
    (match decode ((readyStep (.thread 0) (encode (.node 3 0) ++ encode (.tzero 9)) 0x1000 []).fetchFrom (Agent.thread 0).unit 1 0 0x1004 12 13).bytes with
      | .ok (.tzero 9, _) => true
      | _ => false) = true := by decide
/-- The bytes of a line; a due step; a clk with nothing left to try; a look that is a run's. -/
theorem witness_step_line : (tabFind ((readyStep (.split 0 0) [] 0x1000 []).unit 0).icache (lineKey ((readyStep (.split 0 0) [] 0x1000 []).tagAsid 1 0
    0x1000) 0x1000)).isSome = true ∧ 0x1000 % 128 + 12 ≤ 128 ∧ State.reset.due = .verify :: [.memtrain none, .lanemap ⟨[], []⟩] ∧
    ready.due = [] ∧ ready.turn = [] := by decide
theorem witness_step_look : ∃ t, ({ readyStep (.split 0 0) [] 0x2000 [] with turn := [.look (.split 0 0)] } : State).turn = .look (.split 0 0) :: [] ∧
    step { readyStep (.split 0 0) [] 0x2000 [] with turn := .run (.split 0 0) :: [] } = .next t := ⟨_, rfl, rfl⟩
/-- StepKeepsMemoryCanonical: a state in form, and a step of it. -/
theorem witness_safe : Safe State.reset ∧ ∃ t, step State.reset = .next t := ⟨rfl, by
  cases h : Config.keyFused <;> cases g : Config.imageOk Config.firmware <;> cases k : Config.signatureOk Config.firmware <;>
    exact ⟨_, by simp [step, State.reset, exec, execVerify, State.setBoot, Mgmt.reset, h, g, k]; rfl⟩⟩
/-- IssueLeaves, ScalarRegistersHold, VectorWriteLanes: an agent that lives. -/
theorem witness_alive : ready.alive (.split 0 0) = true ∧ readyT.alive (.thread 0) = true ∧ (tabFind ready.groups 0).isSome = true ∧
    (Agent.thread 0).isThread = true := by decide
/-- TrapTakenAndReturned: a handler; a handler that another split is in; a code that is always a system trap, and the others of SystemTraps. -/
noncomputable def readyV (s : State) : State := s.modGroup 0 (fun x => { x with tvec := 0x3000 })
theorem witness_trap : (readyV ready).alive (.split 0 0) = true ∧ (readyV ready).trapWaits (.split 0 0) = false ∧ (readyV ready).tvec (.split 0 0) ≠ 0 ∧
    ((readyV ready).strand (.split 0 0)).handler = false ∧ (readyV ready).sup (.split 0 0) = false ∧ alwaysSystem 0x0C = false ∧
    ((readyV (readyLink (fun y => { y with strand := { y.strand with handler := true } }))).trapWaits (.split 0 0)) = true ∧
    (readyStep (.split 0 0) [] 0x1000 [(0x09, 5)] |>.strand (.split 0 0)).traps = (0x09, 5) :: [] := by decide
theorem witness_system : ready.alive (.split 0 0) = true ∧ ready.trapWaits (.split 0 0) = false ∧ ready.tvec (.split 0 0) = 0 ∧
    alwaysSystem 0x08 = true ∧ ((0x01 : BitVec 8) = 0x0A → (Agent.split 0 0).isThread = true) ∧ ready.wgOf (.split 0 0) = some 1 ∧
    ((readyT.modThread 0 (fun x => { x with tvec := 0x3000, wg := none, ctx := some (1, 0) })).alive (.thread 0) = true) ∧
    (readyT.modThread 0 (fun x => { x with tvec := 0x3000, wg := none, ctx := some (1, 0), sup := true })).sup (.thread 0) = true ∧
    (readyT.modThread 0 (fun x => { x with tvec := 0x3000, wg := none, ctx := some (1, 0) })).wgOf (.thread 0) = none := by decide
/-- LoadedValues, NoSignedLoad: what a scalar load, a vector load and a conversion have got. -/
theorem witness_loaded : (let x := { Access.blank (.split 0 0) 1 0 1 with dest := (1, 6, 0, 0), got := [(0, [0x85])] }
    x.dest = (1, 6, 0, 0) ∧ tabFind x.got 0 = some [0x85] ∧ ([0x85] : List Byte).length = 0 + 1) ∧
    (let x := { Access.blank (.split 0 0) 1 0 1 with dest := (0, 6, 1, 0), got := [(95, [0x34, 0x92])] }
     x.dest = (0, 6, 1, 0) ∧ tabFind x.got 95 = some [0x34, 0x92] ∧ ([0x34, 0x92] : List Byte).length = 1 + 1 ∧ 95 < 96) ∧
    (let x := { Access.blank (.split 0 0) 1 0 1 with dest := (0, 6, 5, 3), got := [(5, [1])] }
     x.dest = (0, 6, 5, 3) ∧ ¬(3 < 3)) := by decide
/-- A push that stands for a load's port: of the load 7 into qp0. -/
theorem witness_load_push : let y := { Access.blank (.split 0 0) 1 0 1 with
      what := 5, op := 7, dest := (1, 48, 0, 0), act := some (.push 0 3 none) }
    let s : State := { ready with accesses := [(8, y)] }
    tabFind s.accesses 8 = some y ∧ y.what = 5 ∧ y.op = 7 ∧ y.dest.2.1 = 48 ∧ y.act = some (.push 0 3 none) ∧
    (∀ p ∈ s.accesses, ¬(p.2.what = 5 ∧ p.2.op = 7 ∧ p.2.dest.2.1 = 49)) ∧
    (∀ p ∈ s.accesses, p.2.what = 5 → p.2.op = 7 → p.2.dest.2.1 = 48 → p.1 = 8) := by decide
/-- LoadsAConstant: SLI into s5, in its two lengths. -/
theorem witness_sli : ∀ row ∈ ([((), { dst := [5], len := lenX none }), ((), { dst := [5], len := lenX (some 1) })] : List (Unit × Need)),
    ∃ c u, Opens row.2 (.split 0 0) ready c u ∧ (u.alive (.split 0 0) && !Machine.isPort 5) = true := opens_all (by decide)


/-! ### One step, with results worked out by hand from the rules -/

/-- A scalar register after an instruction of the split, and its PC. -/
noncomputable def after (i : Instr) (s : State) (r : Nat) : Option (Word × Word) :=
  match exec i s with
  | .next t => some (t.sget (.split 0 0) r, (t.strand (.split 0 0)).pc)
  | _ => none
/-- Lanes 0 and 95 of a vector register after it. -/
noncomputable def afterV (i : Instr) (s : State) (r : Nat) : Option (Lane × Lane) :=
  match exec i s with
  | .next t => some (lane (t.vget 0 r) 0, lane (t.vget 0 r) 95)
  | _ => none
/-- Registers s5 and s6 of the split, which stands at 0x1000. -/
noncomputable def two (x y : Word) : State := ready.set 6 y (ready.set 5 x ready)
/-- Registers v1, v2 and v3 of the group, in every lane. -/
noncomputable def vecs (x y z : Lane) : State :=
  ((ready.vmove (.split 0 0) 1 (allOnes96) false (fun _ => x)).vmove (.split 0 0) 2 (allOnes96) false (fun _ => y)).vmove (.split 0 0) 3
    (allOnes96) false (fun _ => z)

/-- R120: a sum wraps at 64 bits; a difference borrows. -/
theorem test_add : after (.add 7 5 6) (two 0xFFFFFFFFFFFFFFFF 2) 7 = some (1, 0x1004) := by decide
theorem test_sub : after (.sub 5 5 6) (two 1 2) 5 = some (0xFFFFFFFFFFFFFFFF, 0x1004) := by decide
/-- R105: s0 takes nothing. -/
theorem test_zero : after (.add 0 5 6) (two 3 4) 0 = some (0, 0x1004) := by decide
/-- R120: shift counts are modulo 64; the arithmetic one keeps the sign. -/
theorem test_shl : after (.shl 7 5 6) (two 3 65) 7 = some (6, 0x1004) := by decide
theorem test_sra : after (.sra 7 5 6) (two 0x8000000000000000 67) 7 = some (0xF000000000000000, 0x1004) := by decide
/-- R120: signed and unsigned order differ at the top bit. -/
theorem test_slt : after (.slt 7 5 6) (two 0xFFFFFFFFFFFFFFFF 0) 7 = some (1, 0x1004) := by decide
theorem test_minu : after (.minu 7 5 6) (two 0xFFFFFFFFFFFFFFFF 3) 7 = some (3, 0x1004) := by decide
/-- R120: the upper half of -1 times 1, signed, and of 2^63 times 2, unsigned. -/
theorem test_mulh : after (.mulh 7 5 6) (two 0xFFFFFFFFFFFFFFFF 1) 7 = some (0xFFFFFFFFFFFFFFFF, 0x1004) := by decide
theorem test_mulhu : after (.mulhu 7 5 6) (two 0x8000000000000000 2) 7 = some (1, 0x1004) := by decide
/-- R24, R120: division truncates to zero; by zero it gives all ones and the dividend. -/
theorem test_div : after (.div 7 5 6) (two 0xFFFFFFFFFFFFFFF9 2) 7 = some (0xFFFFFFFFFFFFFFFD, 0x1004) := by decide
theorem test_rem : after (.rem 7 5 6) (two 0xFFFFFFFFFFFFFFF9 2) 7 = some (0xFFFFFFFFFFFFFFFF, 0x1004) := by decide
theorem test_div_zero : after (.divu 7 5 6) (two 9 0) 7 = some (0xFFFFFFFFFFFFFFFF, 0x1004) := by decide
theorem test_rem_zero : after (.remu 7 5 6) (two 9 0) 7 = some (9, 0x1004) := by decide
/-- R120: the leading zeros of 1 and of 0. -/
theorem test_clz : after (.clz 7 5) (two 1 0) 7 = some (63, 0x1004) := by decide
theorem test_clz_zero : after (.clz 7 6) (two 1 0) 7 = some (64, 0x1004) := by decide
/-- R97, R121: ten bits are sign-extended; with XIMM, thirty-five. -/
theorem test_addi : after (.addi 7 5 (-3) none) (two 1 0) 7 = some (0xFFFFFFFFFFFFFFFE, 0x1004) := by decide
theorem test_addi_wide : after (.addi 7 5 1 (some 1)) (two 1 0) 7 = some (0x402, 0x1008) := by decide
/-- R123: a branch that is taken goes to its own address and twice the offset; CALL links behind itself. -/
theorem test_branch : after (.brLtz 5 (-2) none) (two 0x8000000000000000 0) 5 = some (0x8000000000000000, 0xFFC) := by decide
theorem test_call : after (.call 8 none) ready 63 = some (0x1004, 0x1010) := by decide
/-- R124, R363: an odd target is MISALIGN, taken at TVEC. -/
theorem test_odd : (match exec (.jr 5) (readyV (two 0x2001 0)) with
    | .next t => some ((t.group 0).tcause, (t.group 0).tval, (t.strand (.split 0 0)).pc)
    | _ => none) = some (3, 0x2001, 0x3000) := by decide
/-- R19, R134: 1 and half of its last place, a tie, rounds to even in every active lane; a lane that is not active keeps its value. -/
theorem test_fadd : afterV (.vfpFadd .f32 4 1 2 none) (vecs 0x3F800001 0x33800000 0) 4 = some (0x3F800002, 0x3F800002) := by decide
theorem test_fadd_lane : afterV (.vfpFadd .f32 1 1 2 none) ((vecs 0x3F800000 0x3F800000 0).modSplit 0 0 (fun y => { y with ex := 1 })) 1 =
    some (0x40000000, 0x3F800000) := by decide
/-- R135: one rounding: the square of 1 + 2^-23, less 1 + 2^-22, is 2^-46. -/
theorem test_fma : afterV (.fma .f32 3 1 2 none) (vecs 0x3F800001 0x3F800001 0xBF800002) 3 = some (0x28800000, 0x28800000) := by decide
/-- R22: infinity less infinity is a NaN and raises NV, which no other split sees. -/
theorem test_invalid : (match exec (.vfpFsub .f32 4 1 2 none) (vecs 0x7F800000 0x7F800000 0) with
    | .next t => some (lane (t.vget 0 4) 0, (t.splitOf 0 0).flags.getLsbD 4)
    | _ => none) = some (0x7FC00000, true) := by decide +kernel
/-- R137: the signed upper half of -2 times 2^30; the arithmetic shift. -/
theorem test_mulhi : afterV (.vintMulhiS 4 1 2 none) (vecs 0xFFFFFFFE 0x40000000 0) 4 = some (0xFFFFFFFF, 0xFFFFFFFF) := by decide
theorem test_vsra : afterV (.vintSra 4 1 2 none) (vecs 0x80000000 33 0) 4 = some (0xC0000000, 0xC0000000) := by decide
/-- R139: a compare writes the mask bits of the active lanes only. -/
theorem test_compare : (match exec (.vcmpLtS32 1 1 2 none) ((vecs 0xFFFFFFFF 0 0).modSplit 0 0 (fun y => { y with ex := 5 })) with
    | .next t => some (t.kget 0 1)
    | _ => none) = some 5 := by decide
/-- R156, R162: four bytes of s6 at 0x40 of the scratchpad, lowest first; a load of two of them, zero-extended. -/
theorem test_store : (match exec (.sst 6 5 0 2 .w none) (readyL (two 0xFFF1000000040 0x89ABCDEF)) with
    | .next t => t.mem
    | _ => []) = [(0x400000000040, 0xEF), (0x400000000041, 0xCD), (0x400000000042, 0xAB), (0x400000000043, 0x89)] := by decide
theorem test_load : after (.sld 7 5 0 2 .h none) { readyL (two 0xFFF1000000040 0) with mem := [(0x400000000040, 0xEF), (0x400000000041, 0xCD),
    (0x400000000042, 0xAB)] } 7 = some (0xCDEF, 0x1004) := by decide
/-- R66: the count that BURN adds stops at 4,095. -/
theorem test_burn : (match exec (.burn 5) ((two 10 0).modCore 0 (fun k => { k with burned := 4090 })) with
    | .next t => (t.core 0).burned
    | _ => 0) = 4095 := by decide
/-- R180: TCFG swaps. -/
theorem test_tcfg : (match exec (.tcfg 7 6) (readyM.set 6 2 (readyM.modThread 0 (fun x => { x with mcfg := 1 }))) with
    | .next t => some ((t.thread 0).mcfg, t.sget (.thread 0) 7)
    | _ => none) = some (2, 1) := by decide
/-- R193: an arrival lowers PENDA and answers PHASE. -/
theorem test_arrive : (match exec (.barArrive 7 5 true) (readyB (fun b => { b with expa := 2, penda := 2, phase := true }) ready) with
    | .next t => some ((t.bar (.split 0 0) 5).penda, t.sget (.split 0 0) 7)
    | _ => none) = some (1, 1) := by decide
/-- R93: a word of a reserved major takes ILLEGAL with subcode 1 through the step. -/
theorem test_illegal : (match step ((readyStep (.split 0 0) [0x6D, 0, 0, 0] 0x1000 []).modGroup 0 (fun x => { x with tvec := 0x3000 })) with
    | .next t => some ((t.group 0).tcause, (t.group 0).tval.extractLsb' 56 8, (t.group 0).tpc)
    | _ => none) = some (1, 1, 0x1000) := by decide
/-- R267: the step runs the sequence in front of the agent. -/
theorem test_step : (match step (State.reset.withFetchWord 32 0x00088103) with
    | .next t => some ((t.strand (.split 0 0)).pc, (t.unit 0).issued, t.clk)
    | _ => none) = some (0x1004, true, 0) := by decide
end

section
/-!
Frames of what an issue leaves behind a body (spec/19_accounting.md R272): beside `SameRegs`, what slot accounting keeps of the draw
counts (spec/04_stacks.md R59, R60, R66), and the slot that an issue uses.
-/

namespace Sys2Proof

open Sys2Proof.Machine

/-- A vector core without its slot accounts and the clk of its last issue: its L1, its layer's counts of the window and the next. -/
def coreKept (x : Core) : Core := { x with unit := CoreUnit.reset, lastIssue := none }

/-- No core differs but in its slot accounts and the clk of its last issue, and no split's own draw differs. -/
structure SameDraws (s t : State) : Prop where
  cores  : ∀ l, coreKept (t.core l) = coreKept (s.core l)
  splits : ∀ g k, (t.splitOf g k).draw = (s.splitOf g k).draw ∧ (t.splitOf g k).drawNext = (s.splitOf g k).drawNext

theorem SameDraws.same (s : State) : SameDraws s s := ⟨fun _ => rfl, fun _ _ => ⟨rfl, rfl⟩⟩

theorem SameDraws.trans {s t u : State} (h : SameDraws s t) (k : SameDraws t u) : SameDraws s u :=
  ⟨fun l => (k.cores l).trans (h.cores l),
   fun i j => ⟨(k.splits i j).1.trans (h.splits i j).1, (k.splits i j).2.trans (h.splits i j).2⟩⟩

section
variable {s t : State} (h : SameDraws s t) (l : Nat)
include h

theorem SameDraws.burned : (t.core l).burned = (s.core l).burned := by
  have e := congrArg Core.burned (h.cores l)
  exact e
theorem SameDraws.draw : (t.core l).draw = (s.core l).draw := by
  have e := congrArg Core.draw (h.cores l)
  exact e
theorem SameDraws.drawNext : (t.core l).drawNext = (s.core l).drawNext := by
  have e := congrArg Core.drawNext (h.cores l)
  exact e

end

/-! ### What one update reads back as -/

/-- A core is read from the table of cores and, where it has no entry, from the clk. -/
theorem core_of_cores {s t : State} (hk : t.clk = s.clk) (hc : t.cores = s.cores) (l : Nat) : t.core l = s.core l := by
  simp [State.core, hk, hc]

theorem splitOf_of_groups {s t : State} (hg : t.groups = s.groups) (g k : Nat) : t.splitOf g k = s.splitOf g k := by
  simp [State.splitOf, State.group, hg]

theorem unit_of_tables {s t : State} (hk : t.clk = s.clk) (hc : t.cores = s.cores) (hl : t.clusters = s.clusters) (u : Nat) :
    t.unit u = s.unit u := by
  simp [State.unit, State.core, State.cluster, hk, hc, hl]

/-- A split that stands reads as updated. -/
theorem splitOf_modSplit_self (s : State) (g k : Nat) (f : Split → Split) (h : s.alive (.split g k) = true) :
    (s.modSplit g k f).splitOf g k = f (s.splitOf g k) := by
  have hg : (tabFind s.groups g).isSome = true := by
    cases e : tabFind s.groups g with
    | none => simp [State.alive, State.group, tabGet, e, Group.blank] at h
    | some x => rfl
  obtain ⟨x, hx⟩ := Option.isSome_iff_exists.1 h
  simp [State.splitOf, State.modSplit, State.group_modGroup_self s g _ hg, tabGet, hx]

/-- Read through a projection that the update leaves alone. -/
theorem splitOf_modSplit_proj {β : Type} (s : State) (g k i j : Nat) (f : Split → Split) (p : Split → β) (h : ∀ x, p (f x) = p x) :
    p ((s.modSplit g k f).splitOf i j) = p (s.splitOf i j) :=
  State.group_modGroup_proj s g i _ (fun x => p (tabGet x.splits j Split.blank))
    (fun x => tabGet_tabMod_proj x.splits k j f Split.blank p h)

theorem unit_modUnit_self (s : State) (u : Nat) (f : CoreUnit → CoreUnit) : (s.modUnit u f).unit u = f (s.unit u) := by
  unfold State.modUnit State.unit
  split <;> simp

theorem unit_modCore (s : State) (l u : Nat) (f : Core → Core) (h : ∀ x, (f x).unit = x.unit) : (s.modCore l f).unit u = s.unit u := by
  unfold State.unit
  split
  · exact State.core_modCore_proj s l u f Core.unit h
  · rfl

theorem unit_modCluster (s : State) (l u : Nat) (f : Cluster → Cluster) (h : ∀ x, (f x).unit = x.unit) :
    (s.modCluster l f).unit u = s.unit u := by
  unfold State.unit
  split
  · rfl
  · exact State.cluster_modCluster_proj s l _ f Cluster.unit h

theorem unit_drawn (s : State) (a : Agent) (d : Draw) (m : Mask) (u : Nat) : (s.drawn a d m).unit u = s.unit u := by
  cases a with
  | thread t => rfl
  | split g k =>
    have h : ∀ v : State, (v.modSplit g k (fun x => { x with
        draw := x.draw + (d.split m s.clk).1, drawNext := x.drawNext + (d.split m s.clk).2 })).unit u = v.unit u := fun _ => rfl
    simp only [State.drawn, h]
    split <;> exact unit_modCore _ _ _ _ (fun _ => rfl)

/-! ### Slot accounting leaves the draw counts -/

/-- Updates that keep clk, cores and groups. -/
theorem SameDraws.of_tables {s t : State} (hk : t.clk = s.clk) (hc : t.cores = s.cores) (hg : t.groups = s.groups) : SameDraws s t :=
  ⟨fun l => by rw [core_of_cores hk hc], fun g k => by rw [splitOf_of_groups hg]; exact ⟨rfl, rfl⟩⟩

theorem SameDraws.modCore (s : State) (l : Nat) (f : Core → Core) (h : ∀ x, coreKept (f x) = coreKept x) : SameDraws s (s.modCore l f) :=
  ⟨fun i => State.core_modCore_proj s l i f coreKept h, fun _ _ => ⟨rfl, rfl⟩⟩

theorem SameDraws.modCluster (s : State) (l : Nat) (f : Cluster → Cluster) : SameDraws s (s.modCluster l f) :=
  SameDraws.of_tables rfl rfl rfl

theorem SameDraws.modUnit (s : State) (u : Nat) (f : CoreUnit → CoreUnit) : SameDraws s (s.modUnit u f) := by
  unfold State.modUnit
  split
  · exact SameDraws.modCore s u _ (fun _ => rfl)
  · exact SameDraws.modCluster s _ _

theorem SameDraws.modSplit (s : State) (g k : Nat) (f : Split → Split) (h : ∀ x, (f x).draw = x.draw) (h' : ∀ x, (f x).drawNext = x.drawNext) :
    SameDraws s (s.modSplit g k f) :=
  ⟨fun _ => rfl, fun i j => ⟨splitOf_modSplit_proj s g k i j f Split.draw h, splitOf_modSplit_proj s g k i j f Split.drawNext h'⟩⟩

/-- A group's update that leaves its splits. -/
theorem SameDraws.modGroup (s : State) (g : Nat) (f : Group → Group) (h : ∀ x, (f x).splits = x.splits) : SameDraws s (s.modGroup g f) := by
  have hs : ∀ i k, (s.modGroup g f).splitOf i k = s.splitOf i k := fun i k => by
    simp only [State.splitOf, State.group_modGroup_proj s g i f Group.splits h]
  exact ⟨fun _ => rfl, fun i k => by rw [hs]; exact ⟨rfl, rfl⟩⟩

theorem SameDraws.modStrand (s : State) (a : Agent) (f : Strand → Strand) : SameDraws s (s.modStrand a f) := by
  cases a with
  | split g k => exact SameDraws.modSplit s g k _ (fun _ => rfl) (fun _ => rfl)
  | thread t => exact SameDraws.of_tables rfl rfl rfl

theorem SameDraws.tPend (s : State) (a : Agent) (new : List Pending) : SameDraws s (s.tPend a new) :=
  SameDraws.of_tables (by simp) (by simp) (by simp)

theorem SameDraws.markParcels (s : State) (a : Agent) (pc : Word) (n : Nat) : SameDraws s (s.markParcels a pc n) := by
  unfold State.markParcels
  exact keepFold _ SameDraws SameDraws.same (fun _ _ _ h k => h.trans k) (fun s x => SameDraws.modUnit s _ _) _ s

theorem SameDraws.copyTable (s : State) (u : Nat) : SameDraws s (s.copyTable u) := by
  unfold State.copyTable
  exact ((keepFold _ SameDraws SameDraws.same (fun _ _ _ h k => h.trans k)
    (fun s x => SameDraws.of_tables (by simp) (by simp) (by simp)) _ s).trans (SameDraws.modUnit _ u _)).trans
      (SameDraws.of_tables rfl rfl rfl)

theorem SameDraws.chargePc (s : State) (u b : Nat) (pc : Word) (c : Cause) : SameDraws s (s.chargePc u b pc c) := by
  unfold State.chargePc
  simp only
  split
  · split
    · exact SameDraws.modUnit s u _
    · split
      · exact (SameDraws.modUnit s u _).trans (SameDraws.copyTable _ _)
      · exact SameDraws.modUnit s u _
  · split
    · exact SameDraws.modUnit s u _
    · split
      · exact SameDraws.modUnit s u _
      · exact (SameDraws.copyTable s u).trans (SameDraws.modUnit _ u _)

theorem SameDraws.charge (s : State) (u : Nat) (vi : BitVec 8) (asid : BitVec 16) (pc : Word) (c : Cause) (a : Option Agent) (w : Option Nat) :
    SameDraws s (s.charge u vi asid pc c a w) := by
  unfold State.charge
  extract_lets bank s1 s2 s3
  have h1 : SameDraws s s1 := SameDraws.modUnit s u _
  have h2 : SameDraws s1 s2 := by cases w <;> exact SameDraws.of_tables rfl rfl rfl
  have h3 : SameDraws s2 s3 := by
    simp only [s3]
    split <;> exact SameDraws.of_tables rfl rfl rfl
  split
  · exact (h1.trans h2).trans h3
  · exact ((h1.trans h2).trans h3).trans (SameDraws.chargePc _ _ _ _ _)

theorem SameDraws.turn {s v : State} (h : SameDraws s v) (l : List Turn) : SameDraws s { v with turn := l } :=
  h.trans (SameDraws.of_tables rfl rfl rfl)

theorem SameDraws.useSlot (s : State) (a : Agent) (pc : Word) (c : Cause) : SameDraws s (s.useSlot a pc c) := by
  unfold State.useSlot
  rcases s.ctxOf a with ⟨vi, asid⟩
  have h := (SameDraws.charge s a.unit vi asid pc c (some a) (s.wgOf a)).trans
    (SameDraws.modUnit _ a.unit (fun u => { u with issued := true }))
  cases a with
  | split g k =>
    refine SameDraws.trans ?_ (SameDraws.modCore _ _ _ (fun _ => rfl))
    exact (h.trans (SameDraws.modStrand _ _ _)).turn _
  | thread t =>
    refine SameDraws.trans ?_ (SameDraws.modCluster _ _ _)
    exact (h.trans (SameDraws.modStrand _ _ _)).turn _

/-- A sequence without a draw class of its own adds nothing. -/
theorem SameDraws.drawn_none (s : State) (a : Agent) (m : Mask) : SameDraws s (s.drawn a .none m) := by
  cases a with
  | thread t => exact SameDraws.same s
  | split g k => exact (SameDraws.modCore s _ _ (fun _ => rfl)).trans (SameDraws.modSplit _ g k _ (fun _ => rfl) (fun _ => rfl))

/-! ### What an issue leaves -/

theorem useSlot_issued (s : State) (a : Agent) (pc : Word) (c : Cause) : ((s.useSlot a pc c).unit a.unit).issued = true := by
  unfold State.useSlot
  split
  extract_lets s1 s2 s3 s4
  have h2 : (s2.unit a.unit).issued = true := congrArg CoreUnit.issued (unit_modUnit_self s1 a.unit _)
  have h3 : s3.unit a.unit = s2.unit a.unit :=
    unit_of_tables (s2.modStrand_clk a _) (s2.modStrand_cores a _) (s2.modStrand_clusters a _) a.unit
  have h4 : (s4.unit a.unit).issued = true := by rw [← h2, ← h3]; rfl
  clear_value s4
  cases a with
  | split g k =>
    have h5 := unit_modCore s4 (g / 32) (g / 32) (fun k => { k with lastIssue := some s4.clk }) (fun _ => rfl)
    exact (congrArg CoreUnit.issued h5).trans h4
  | thread t =>
    have h5 := unit_modCluster s4 (t / 2) (384 + t / 2) (fun k => { k with turn := t % 2 == 0 }) (fun _ => rfl)
    exact (congrArg CoreUnit.issued h5).trans h4

section
variable (s : State) (n : Need) (c : Ctx) (pc : Word)

theorem SameRegs.retire : SameRegs s (s.retire n c pc) := by
  unfold State.retire
  extract_lets a s1 s2 s3 until_ new upd s4 s5 s6
  have h3 : SameRegs s s3 := ((SameRegs.markParcels s a c.pc n.len).trans (SameRegs.useSlot _ a c.pc n.cause)).trans
    (SameRegs.drawn _ a n.draw c.act)
  have h4 : SameRegs s3 s4 := by
    clear_value a
    cases a with
    | split g k => exact SameRegs.modGroup _ _ _ (fun _ => rfl) (fun _ _ => rfl)
    | thread t => exact SameRegs.modThread _ _ _ (fun _ => rfl)
  exact (((h3.trans h4).trans (SameRegs.tPend _ a _)).trans (SameRegs.modUnit _ a.unit _)).trans (SameRegs.modStrand _ a _)

theorem SameDraws.retire (hd : n.draw = .none) : SameDraws s (s.retire n c pc) := by
  unfold State.retire
  extract_lets a s1 s2 s3 until_ new upd s4 s5 s6
  have h2 : SameDraws s s2 := (SameDraws.markParcels s a c.pc n.len).trans (SameDraws.useSlot _ a c.pc n.cause)
  have h3 : SameDraws s2 s3 := by
    simp only [s3, hd]
    exact SameDraws.drawn_none s2 a c.act
  have h4 : SameDraws s3 s4 := by
    clear_value a
    cases a with
    | split g k => exact SameDraws.modGroup _ _ _ (fun _ => rfl)
    | thread t => exact SameDraws.of_tables rfl rfl rfl
  exact ((((h2.trans h3).trans h4).trans (SameDraws.tPend _ a _)).trans (SameDraws.modUnit _ a.unit _)).trans (SameDraws.modStrand _ a _)

/-- An issue uses the slot of its agent's unit. -/
theorem retire_issued : ((s.retire n c pc).unit c.a.unit).issued = true := by
  unfold State.retire
  extract_lets a s1 s2 s3 until_ new upd s4 s5 s6
  have h2 : (s2.unit a.unit).issued = true := useSlot_issued s1 a c.pc n.cause
  have h3 : s3.unit a.unit = s2.unit a.unit := unit_drawn s2 a n.draw c.act a.unit
  have h4 : s4.unit a.unit = s3.unit a.unit := by
    clear_value a
    cases a <;> rfl
  have h5 : s5.unit a.unit = s4.unit a.unit := unit_of_tables (by simp [s5]) (by simp [s5]) (by simp [s5]) a.unit
  rw [unit_of_tables (s6.modStrand_clk a _) (s6.modStrand_cores a _) (s6.modStrand_clusters a _), unit_modUnit_self, h5, h4, h3, h2]

end

end Sys2Proof
end

section
/-!
BURN (spec/04_stacks.md R66).
-/

namespace Sys2Proof

open Sys2Proof.Machine

/-- The draw of a BURN of `n` du joins the burned count of its layer's core, and its split's own draw. -/
theorem drawn_burn (s : State) (g k n : Nat) (m : Mask) :
    s.drawn (.split g k) (.burn n) m =
      (s.modCore (g / 32) (fun x => { x with burned := x.burned + n })).modSplit g k (fun x => { x with draw := x.draw + n }) := rfl

/-- BURN at an open gate (R66, R238): the count stops at 4,095 in the window, and the rest is what every issue leaves. -/
theorem exec_burn_open {a : SReg} {s u : State} {g k : Nat} {c : Ctx} (h : Opens (burnNeed a) (.split g k) s c u) :
    exec (.burn a) s = .next ((u.drawn (.split g k)
      (.burn (min (c.get u a.toNat).toNat (4095 - (u.core (g / 32)).burned))) 0).retire (burnNeed a) c
        ((s.strand (.split g k)).pc + 4)) := by
  have hb : execBurn a s = .next _ := issue_done h rfl
  rw [exec_burn, hb, opens_agent h]
  rfl

theorem core_drawn_burn (s : State) (g k n l : Nat) (m : Mask) : (s.drawn (.split g k) (.burn n) m).core l =
    if l = g / 32 then { s.core l with burned := (s.core l).burned + n } else s.core l := by
  rw [drawn_burn, core_of_cores (State.modSplit_clk _ _ _ _) (State.modSplit_cores _ _ _ _)]
  split
  · next e => rw [e, State.core_modCore_self]
  · next e => exact State.core_modCore_other s _ l _ e

theorem splitOf_drawn_burn (s : State) (g k n : Nat) (m : Mask) (h : s.alive (.split g k) = true) :
    (s.drawn (.split g k) (.burn n) m).splitOf g k = { s.splitOf g k with draw := (s.splitOf g k).draw + n } := by
  rw [drawn_burn]
  exact splitOf_modSplit_self (s.modCore (g / 32) _) g k _ h

/-- Settles O55: the draw joins the layer's burned count and the split's own, and what the issue leaves behind it (`SameDraws.retire`,
`SameRegs.retire`, `retire_issued`) touches neither counts nor registers. -/
theorem burnAddsToTheWindow : Obligations.BurnAddsToTheWindow := by
  intro a s g k c u h halive b n
  let v := u.drawn (.split g k) (.burn n) 0
  let pc := (s.strand (.split g k)).pc + 4
  have hv : SameDraws v (v.retire (burnNeed a) c pc) := SameDraws.retire v _ c _ rfl
  have hcore := core_drawn_burn u g k n
  have hissued := retire_issued v (burnNeed a) c pc
  rw [opens_agent h] at hissued
  refine ⟨v.retire (burnNeed a) c pc, exec_burn_open h, ?_, ?_, ?_, ?_, fun l hl => ⟨?_, ?_⟩,
    (SameRegs.drawn u _ _ _).trans (SameRegs.retire v _ c _), hissued⟩
  · rw [hv.burned, hcore, if_pos rfl]
  · rw [hv.draw, hcore, if_pos rfl]
  · rw [hv.drawNext, hcore, if_pos rfl]
  · rw [(hv.splits g k).1, splitOf_drawn_burn u g k n 0 halive]
  · rw [hv.burned, hcore, if_neg hl]
  · rw [hv.draw, hcore, if_neg hl]

end Sys2Proof
end

section
/-!
Scalar registers read back: the value that `sput` writes, and reads through what an issue leaves (`SameRegs`).
-/

namespace Sys2Proof

open Sys2Proof.Machine

/-- No scalar register differs, the parts of EXEC included. -/
theorem SameRegs.sget {s t : State} (h : SameRegs s t) (a : Agent) (r : Nat) : t.sget a r = s.sget a r := by
  cases a with
  | split g k =>
    have hs : (t.group g).s = (s.group g).s := by
      have e := congrArg Group.s (h.groups g)
      exact e
    have hex : (t.splitOf g k).ex = (s.splitOf g k).ex := by
      have e := congrArg Split.ex (h.splits g k)
      exact e
    simp only [State.sget, hs, hex]
  | thread i =>
    have hs : (t.thread i).s = (s.thread i).s := by
      have e := congrArg Thread.s (h.threads i)
      exact e
    simp only [State.sget, hs]

/-- The group of a split that stands is in the table of groups. -/
theorem groups_isSome_of_alive {s : State} {g k : Nat} (h : s.alive (.split g k) = true) : (tabFind s.groups g).isSome = true := by
  cases e : tabFind s.groups g with
  | none => simp [State.alive, State.group, tabGet, e, Group.blank] at h
  | some x => rfl

/-- A scalar register reads as written, but for s0 and, of a split, the parts of EXEC (R35, R46, R105). -/
theorem sget_sput_self {s : State} {a : Agent} {r : Nat} (v : Word) (halive : s.alive a = true) (hr : r ≠ 0)
    (hex : a.isThread = true ∨ ¬(60 ≤ r ∧ r ≤ 62)) : (s.sput a r v).sget a r = v := by
  cases a with
  | split g k =>
    have hex : ¬(60 ≤ r ∧ r ≤ 62) := hex.resolve_left Bool.false_ne_true
    simp [State.sget, State.sput, hr, hex, State.group_modGroup_self s g _ (groups_isSome_of_alive halive)]
  | thread t => simp [State.sget, State.sput, hr]

/-- The port test on a register's number is that on its field. -/
theorem isPort_toNat (d : SReg) : Machine.isPort d.toNat = Sys2Proof.isPort d := by
  simp [Machine.isPort, Sys2Proof.isPort]

/-- A destination that is no queue port is a register written (R105). -/
theorem sset_of_not_port (s : State) (a : Agent) {d : SReg} (v : Word) (h : Sys2Proof.isPort d = false) :
    s.sset a d.toNat v = s.sput a d.toNat v := by
  simp [State.sset, isPort_toNat, h]

/-- A scalar destination reads as set, also behind what the issue leaves. -/
theorem sget_retire_sset {s : State} {a : Agent} {d : SReg} (v : Word) (n : Need) (c : Ctx) (pc : Word) (halive : s.alive a = true)
    (hd : d ≠ 0) (hport : Sys2Proof.isPort d = false) (hex : a.isThread = true ∨ ¬(60 ≤ d.toNat ∧ d.toNat ≤ 62)) :
    ((s.sset a d.toNat v).retire n c pc).sget a d.toNat = v := by
  have hr : d.toNat ≠ 0 := fun e => hd (BitVec.eq_of_toNat_eq e)
  rw [(SameRegs.retire _ n c pc).sget, sset_of_not_port s a v hport, sget_sput_self v halive hr hex]

end Sys2Proof
end

section
/-!
SLI (spec/08_isa_scalar.md R122).
-/

namespace Sys2Proof

open Sys2Proof.Machine

/-- SLI at an open gate: its destination is set to the immediate of R97. -/
theorem exec_sli_open {d : SReg} {i : BitVec 19} {x : Option (BitVec 25)} {s u : State} {a : Agent} {c : Ctx}
    (h : Opens (sliNeed d x) a s c u) :
    exec (.sli d i x) s = .next ((u.sset a d.toNat (immValue i x)).retire (sliNeed d x) c
      ((s.strand a).pc + BitVec.ofNat 64 (lenX x))) := by
  have hb : execSli d i x s = .next _ := issue_done h rfl
  rw [exec_sli, hb, opens_agent h]
  rfl

/-- A word is its bits [63:20], shifted up by 20, with its bits [19:0] joined in: the first have room in the 44 bits of SLI, the second
below the sign of the 35 bits of ORI. -/
theorem shiftLeft_or_low_bits (w : Word) :
    ((w.extractLsb' 20 44).signExtend 64) <<< 20 ||| ((w.extractLsb' 0 20).setWidth 35).signExtend 64 = w := by
  have hsign : ((w.extractLsb' 0 20).setWidth 35).msb = false := by simp [BitVec.msb_eq_getLsbD_last]
  rw [BitVec.signExtend_eq_setWidth_of_msb_false hsign]
  ext j hj
  by_cases hlow : j < 20
  · simp [hlow, hj]
  · have h44 : j - 20 < 44 := by omega
    have hback : 20 + (j - 20) = j := by omega
    simp [BitVec.getElem_signExtend, hlow, h44, hback, hj]

/-- Settles O56: SLI sets its destination to the immediate (`exec_sli_open`), which reads as set behind the issue (`sget_retire_sset`);
a constant's upper 44 bits are SLI's, its lower 20 ORI's (`shiftLeft_or_low_bits`). -/
theorem loadsAConstant : Obligations.LoadsAConstant := by
  refine ⟨fun d i x s a c u => ?_, fun w => ⟨w.extractLsb' 20 44, (w.extractLsb' 0 20).setWidth 35, shiftLeft_or_low_bits w⟩⟩
  intro n h halive v
  have hv : immValue i x = v := by cases x <;> rfl
  have hexec := hv ▸ exec_sli_open h
  exact ⟨hexec, fun hd hport hex => ⟨_, hexec, sget_retire_sset v n c _ halive hd hport hex⟩⟩

end Sys2Proof
end

section
/-!
Loads of one and two bytes (spec/11_isa_memory.md R157, R160, R162): what `deliver` writes of them, which is the number that their
bytes are, and no more bits; and the signed value that a shift left and back makes of a lane.
-/

namespace Sys2Proof

open Sys2Proof.Machine

/-! ### Bytes as a number -/

/-- The lowest byte comes first. -/
theorem ofBytes_cons (b : Byte) (bs : List Byte) : ofBytes (b :: bs) = b.toNat + 256 * ofBytes bs := by
  simp [ofBytes, field]

theorem ofBytes_lt (bs : List Byte) : ofBytes bs < 2 ^ (8 * bs.length) := by
  induction bs with
  | nil => decide
  | cons b bs ih =>
    have hb : b.toNat < 256 := b.isLt
    rw [ofBytes_cons, List.length_cons, Nat.mul_succ, Nat.pow_add]
    omega

/-- A field that reaches the end of its bytes is all of them. -/
theorem field_zero_of_length_le {bs : List Byte} {n : Nat} (h : bs.length ≤ n) : field bs 0 n = ofBytes bs := by
  simp [ofBytes, field, List.take_of_length_le h]

/-- Bytes that fit a register read back from it as their number, with zeros above them. -/
theorem toNat_ofNat_ofBytes {w : Nat} {bs : List Byte} (h : 8 * bs.length ≤ w) : (BitVec.ofNat w (ofBytes bs)).toNat = ofBytes bs :=
  Nat.mod_eq_of_lt ((ofBytes_lt bs).trans_le (Nat.pow_le_pow_right Nat.two_pos h))

/-! ### What a load writes -/

theorem lane_lanes (f : Nat → Lane) {i : Nat} (h : i < 96) : lane (lanes f) i = f i := by
  simp [lane, lanes, h]

/-- Four bytes or fewer go to one register (R157). -/
theorem sizeRegs_of_lt {sz : Nat} (h : sz < 3) : sizeRegs sz = 1 := by
  rw [sizeRegs, if_neg (by omega), if_neg (by omega)]

/-- A vector register of a group that is in the table of groups reads as written. -/
theorem vget_vput_self {s : State} {g : Nat} (r : Nat) (v : List Lane) (h : (tabFind s.groups g).isSome = true) :
    (s.vput g r v).vget g r = v := by
  simp [State.vget, State.vput, State.group_modGroup_self s g _ h]

section
variable {s : State} {id : Nat} {x : Access} {d sz conv : Nat} {bs : List Byte}

/-- A scalar load of eight bytes or fewer sets its destination to its bytes (R162). -/
theorem deliver_scalar (hdest : x.dest = (1, d, sz, conv)) (hsz : sz ≠ 4) (hgot : tabFind x.got 0 = some bs) :
    s.deliver id x = s.loadSet id x.agent d (BitVec.ofNat 64 (ofBytes bs)) := by
  simp [State.deliver, hdest, hsz, hgot]

/-- A vector load of four bytes or fewer in a lane writes the bytes of the lanes that have got theirs (R157). -/
theorem lane_deliver_vector {g k i : Nat} (hdest : x.dest = (0, d, sz, conv)) (hsz : sz < 3) (hagent : x.agent = .split g k) (hi : i < 96)
    (hgroup : (tabFind s.groups g).isSome = true) (hgot : tabFind x.got i = some bs) (hlen : bs.length ≤ 4) :
    lane ((s.deliver id x).vget g d) i = BitVec.ofNat 32 (ofBytes bs) := by
  have h5 : sz < 5 := by omega
  simp [State.deliver, hdest, h5, sizeRegs_of_lt hsz, hagent, Agent.groupNo, vget_vput_self _ _ hgroup, lane_lanes _ hi, hgot,
    field_zero_of_length_le hlen]

end

/-! ### The sign of a lane -/

/-- A shift left drops the upper `n` bits, and an arithmetic one back extends the sign of those that are left. -/
theorem sshiftRight_shiftLeft {w n : Nat} (v : BitVec w) (h : n < w) :
    (v <<< n).sshiftRight n = (v.setWidth (w - n)).signExtend w := by
  have htop : w - 1 - n = w - n - 1 := by omega
  have hmsb : (v <<< n).msb = (v.setWidth (w - n)).msb := by
    rw [BitVec.msb_shiftLeft, BitVec.getMsbD, htop, BitVec.msb_eq_getLsbD_last]
    simp [h]
  ext j hj
  by_cases hlow : n + j < w
  · have hkept : j < w - n := by omega
    simp [BitVec.getElem_sshiftRight, BitVec.getElem_signExtend, hlow, hkept, BitVec.getLsbD_eq_getElem hj]
  · have hsign : ¬ j < w - n := by omega
    simp [BitVec.getElem_sshiftRight, BitVec.getElem_signExtend, hlow, hsign, hmsb]

/-- The lowest `m` bits of a number in a register, shifted to its top and back, read as their signed number. -/
theorem toInt_sshiftRight_shiftLeft_ofNat {w m n : Nat} (x : Nat) (hw : m + n = w) (hm : 0 < m) :
    ((BitVec.ofNat w x <<< n).sshiftRight n).toInt = (BitVec.ofNat m x).toInt := by
  have hback : w - n = m := by omega
  have hle : m ≤ w := by omega
  rw [sshiftRight_shiftLeft _ (by omega), hback, BitVec.toInt_signExtend_of_le hle, BitVec.setWidth_ofNat_of_le hle]

/-- Settles O54: a short load writes the number of its bytes (`deliver_scalar`, `lane_deliver_vector`), which zeros stand above
(`toNat_ofNat_ofBytes`), and the shifts by the rest of the lane extend its sign (`toInt_sshiftRight_shiftLeft_ofNat`). -/
theorem noSignedLoad : Obligations.NoSignedLoad := by
  constructor
  · intro s id x d sz conv bs hdest hsz hgot hlen
    exact ⟨_, deliver_scalar hdest (by omega) hgot, toNat_ofNat_ofBytes (by omega),
      (toNat_ofNat_ofBytes (by omega)).trans_lt (ofBytes_lt bs)⟩
  · intro s id x g k d sz conv i bs hdest hsz hagent hi hgroup hgot hlen v n
    have hv : v = BitVec.ofNat 32 (ofBytes bs) := lane_deliver_vector hdest (by omega) hagent hi hgroup hgot (by omega)
    have hnat : v.toNat = ofBytes bs := hv ▸ toNat_ofNat_ofBytes (by omega)
    have hshift : 8 * bs.length + n = 32 := by
      simp only [n]
      split <;> omega
    refine ⟨hnat, hnat.trans_lt (ofBytes_lt bs), ?_⟩
    rw [hv]
    exact toInt_sshiftRight_shiftLeft_ofNat _ hshift (by omega)

end Sys2Proof
end

section
/-!
TCFG and the configuration that an MMA enqueues with (spec/12_isa_matrix.md R174, R178, R180).
-/

namespace Sys2Proof

open Sys2Proof.Machine

/-! ### The word of TCFG -/

section
variable {w : Nat} (v : BitVec w) {n j len : Nat}

/-- A field placed in a word reads as placed. -/
theorem extractLsb'_setWidth_shiftLeft_self (h : n + w ≤ 32) : (v.setWidth 32 <<< n).extractLsb' n w = v := by
  ext i hi
  have hn : n + i < 32 := by omega
  simp [hn, BitVec.getLsbD_eq_getElem hi]

/-- Another field of the word is zero there. -/
theorem extractLsb'_setWidth_shiftLeft_apart (h : j + len ≤ n ∨ n + w ≤ j) : (v.setWidth 32 <<< n).extractLsb' j len = 0#len := by
  ext i hi
  have hout : j + i < n ∨ v.getLsbD (j + i - n) = false := by
    rcases h with hbelow | habove
    · exact .inl (by omega)
    · exact .inr (BitVec.getLsbD_of_ge v _ (by omega))
  rcases hout with hbelow | hzero
  · simp [hbelow]
  · simp [hzero]

end

/-- The word of major 0x33, op 3 (format E) is TCFG of its fields at bits 7 and 13. -/
theorem decodeWord_tcfg (d a : SReg) (p : Option Prefix) (x : Option (BitVec 25)) :
    decodeWord (0x06000067#32 ||| (d.setWidth 32 <<< 7) ||| (a.setWidth 32 <<< 13)) p x = .ok (.tcfg d a) := by
  let w := 0x06000067#32 ||| (d.setWidth 32 <<< 7) ||| (a.setWidth 32 <<< 13)
  have hfield (j len : Nat) : w.extractLsb' j len = (0x06000067#32).extractLsb' j len ||| (d.setWidth 32 <<< 7).extractLsb' j len |||
      (a.setWidth 32 <<< 13).extractLsb' j len := by simp only [w, BitVec.extractLsb'_or]
  have hmajor : w.extractLsb' 1 6 = 0x33#6 := by
    simp [hfield, extractLsb'_setWidth_shiftLeft_apart]
  have hop : w.extractLsb' 25 3 = 3#3 := by
    simp [hfield, extractLsb'_setWidth_shiftLeft_apart]
  have hd : w.extractLsb' 7 6 = d := by
    simp [hfield, extractLsb'_setWidth_shiftLeft_apart, extractLsb'_setWidth_shiftLeft_self]
  have ha : w.extractLsb' 13 6 = a := by
    simp [hfield, extractLsb'_setWidth_shiftLeft_apart, extractLsb'_setWidth_shiftLeft_self]
  have hunused : w &&& 0xF1F80000#32 = 0#32 := by
    ext i hi
    interval_cases i <;> simp [w]
  change decodeWord w p x = _
  simp [decodeWord, decMma, row, hmajor, hop, hd, ha, hunused]

/-! ### An operation in its queue -/

/-- An operation stands last in the queue of its tile's cell (R174). -/
theorem mq_enqueueOp (s : State) (c : Nat) (o : MatOp) :
    tabGet ((s.enqueueOp c o).cluster c).mq (o.n % 16) [] =
      tabGet (s.cluster c).mq (o.n % 16) [] ++ [{ o with id := s.nextId }] := by
  have hc : (s.enqueueOp c o).cluster c = (s.modCluster c (fun k => { k with
    mq := tabPut k.mq (o.n % 16) (tabGet k.mq (o.n % 16) [] ++ [{ o with id := s.nextId }])
    acclive := k.acclive ||| (1 : BitVec 128) <<< o.n })).cluster c := rfl
  rw [hc, State.cluster_modCluster_self]
  exact tabGet_tabPut_self _ _ _ _

/-- What changes no register leaves the queues of the matrix units. -/
theorem SameRegs.mq {s t : State} (h : SameRegs s t) (c : Nat) : (t.cluster c).mq = (s.cluster c).mq := by
  have e := congrArg Cluster.mq (h.elsewhere.clusters c)
  exact e

/-! ### At an open gate -/

/-- TCFG at an open gate (R180): its destination is set to the thread's MCFG, which takes bits [1:0] of the source; no owner is asked for. -/
theorem exec_tcfg_open {d a : SReg} {s u : State} {t : Nat} {c : Ctx} (h : Opens (tcfgNeed d a) (.thread t) s c u) :
    exec (.tcfg d a) s = .next (((u.modThread t (fun x => { x with mcfg := (c.get u a.toNat).extractLsb' 0 2 })).sset (.thread t) d.toNat
      ((u.thread t).mcfg.setWidth 64)).retire (tcfgNeed d a) c ((s.strand (.thread t)).pc + 4)) := by
  have hb : execTcfg d a s = .next _ := issue_done h rfl
  rw [exec_tcfg, hb, opens_agent h]
  rfl

/-- MMA of an owner with room in its tile's queue enters it with the thread's configuration (R174, R178, R184). -/
theorem exec_mma_open {i : AccNo} {m : FeedNo} {k : HandleNo} {s u : State} {t : Nat} {c : Ctx}
    (h : Opens mmaNeed (.thread t) s c u) (howns : u.ownsAcc (.thread t) = true)
    (hroom : (u.cluster (t / 2)).room i.toNat = true) :
    exec (.mma i m k) s = .next ((u.enqueueOp (t / 2) (matOp t false i.toNat m.toNat k.toNat (u.thread t).mcfg none u.clk)).retire
      mmaNeed c ((s.strand (.thread t)).pc + 4)) := by
  refine done_of h exec_mma ?_ rfl rfl
  simp [opens_agent h, howns, Agent.cluster, Agent.threadNo, hroom]

/-- Settles O27: TCFG's word decodes by its fields (`decodeWord_tcfg`), its issue swaps (`exec_tcfg_open`), and an MMA that issues
(`exec_mma_open`) stands behind it in its queue with the thread's MCFG (`mq_enqueueOp`, which `SameRegs.retire` keeps). -/
theorem swapsMatrixConfiguration : Obligations.SwapsMatrixConfiguration := by
  refine ⟨fun d a => decodeWord_tcfg d a none none, fun d a s t c u => ?_⟩
  intro ag n h
  refine ⟨exec_tcfg_open h, by rw [State.thread_modThread_self], fun v w c' i m k hopen howns hroom => ?_⟩
  let o := matOp t false i.toNat m.toNat k.toNat (w.thread t).mcfg none w.clk
  let z := (w.enqueueOp (t / 2) o).retire mmaNeed c' ((v.strand ag).pc + 4)
  have hqueue : tabGet (z.cluster (t / 2)).mq (i.toNat % 16) [] =
      tabGet (w.cluster (t / 2)).mq (i.toNat % 16) [] ++ [{ o with id := w.nextId }] := by
    rw [(SameRegs.retire _ mmaNeed c' _).mq]
    exact mq_enqueueOp w (t / 2) o
  refine ⟨z, exec_mma_open hopen howns (decide_eq_true hroom), { o with id := w.nextId }, ?_, rfl, rfl, rfl, rfl, rfl⟩
  rw [hqueue]
  exact List.mem_append_right _ (List.mem_singleton_self _)

end Sys2Proof
end

section
/-!
Decoding against encoding (spec/06_encoding.md R91 to R103). What a row of the decoder's table takes is the encoding of the row's
instruction (`Decodes`, one for each major), and every encoding is taken by its row (`decodeWord_of_inWord`), so a sequence is read back
as what was encoded, and only that is read.
-/

namespace Sys2Proof

open Sys2Proof.Machine

/-- The major opcode of an instruction's word (R102). -/
def Instr.major : Instr → Nat
  | .add .. | .sub .. | .and .. | .or .. | .xor .. | .shl .. | .shr .. | .sra .. | .min .. | .max .. | .minu .. | .maxu ..
  | .slt .. | .sltu .. | .seq .. | .sne .. | .mul .. | .mulh .. | .mulhu .. | .div .. | .divu .. | .rem .. | .remu ..
  | .clz .. | .popc .. => 0x01
  | .addi .. | .andi .. | .ori .. | .xori .. | .shli .. | .shri .. | .srai .. | .slti .. => 0x02
  | .sli .. => 0x03
  | .brEqz .. | .brNez .. | .brLtz .. | .brGez .. | .brGtz .. | .brLez .. => 0x04
  | .jmp .. => 0x05
  | .call .. => 0x06
  | .jr .. | .callr .. | .ret .. => 0x07
  | .vbr .. | .vbrN .. => 0x08
  | .kbrAny .. | .kbrAll .. | .kbrNone .. => 0x09
  | .nop .. | .srd .. | .swr .. | .trap .. | .eret .. | .bkpt .. | .yield .. | .exit .. | .setfmt .. | .scfg ..
  | .waitcyc .. => 0x0A
  | .barInit .. | .barArrive .. | .barWait .. | .barAw .. | .barTest .. | .barExpect .. | .fenceX .. | .fenceS .. => 0x0B
  | .qbind .. | .qtry .. | .qstat .. => 0x0C
  | .region .. | .rclose .. => 0x0D
  | .vfpFadd .. | .vfpFsub .. | .vfpFmul .. | .vfpFmin .. | .vfpFmax .. | .vfpFabs .. | .vfpFneg .. | .vfpFcpysgn .. => 0x10
  | .fma .. | .fms .. | .nfma .. | .nfms .. => 0x11
  | .vfpsFadd .. | .vfpsFsub .. | .vfpsFmul .. | .vfpsFmin .. | .vfpsFmax .. | .vfpsFcpysgn .. => 0x12
  | .vintAdd .. | .vintSub .. | .vintMullo .. | .vintMulhiS .. | .vintMulhiU .. | .vintAnd .. | .vintOr .. | .vintXor ..
  | .vintAndn .. | .vintShl .. | .vintShr .. | .vintSra .. | .vintMinS .. | .vintMaxS .. | .vintMinU .. | .vintMaxU ..
  | .vintAbs .. | .vintClz .. | .vintPopc .. | .vintBrev .. => 0x13
  | .vintsAdd .. | .vintsSub .. | .vintsMullo .. | .vintsMulhiS .. | .vintsMulhiU .. | .vintsAnd .. | .vintsOr ..
  | .vintsXor .. | .vintsAndn .. | .vintsShl .. | .vintsShr .. | .vintsSra .. | .vintsMinS .. | .vintsMaxS ..
  | .vintsMinU .. | .vintsMaxU .. => 0x14
  | .vintiAddi .. | .vintiAndi .. | .vintiOri .. | .vintiXori .. | .vintiShli .. | .vintiShri .. | .vintiSrai ..
  | .vintiMuli .. => 0x15
  | .vcmpEqS32 .. | .vcmpNeS32 .. | .vcmpLtS32 .. | .vcmpLeS32 .. | .vcmpGtS32 .. | .vcmpGeS32 .. | .vcmpEqU32 ..
  | .vcmpNeU32 .. | .vcmpLtU32 .. | .vcmpLeU32 .. | .vcmpGtU32 .. | .vcmpGeU32 .. | .vcmpEqF32 .. | .vcmpNeF32 ..
  | .vcmpLtF32 .. | .vcmpLeF32 .. | .vcmpGtF32 .. | .vcmpGeF32 .. | .vcmpUnord .. => 0x16
  | .rcp .. | .rsq .. | .sqrt .. | .ex2 .. | .lg2 .. | .sin .. | .cos .. | .tanh .. => 0x17
  | .vcvtF32S32 .. | .vcvtF32U32 .. | .vcvtS32F32 .. | .vcvtU32F32 .. | .vcvtBf16F32 .. | .vcvtF16F32 .. | .vcvtF32Bf16 ..
  | .vcvtF32F16 .. | .vcvtSxF32 .. | .vcvtF32Sx .. => 0x18
  | .vredFadd .. | .vredFmin .. | .vredFmax .. | .vredIadd .. | .vredIminS .. | .vredImaxS .. | .vscanFadd ..
  | .vscanIadd .. | .vcompact .. | .vexpand .. | .vsel .. | .vperm .. => 0x19
  | .kand .. | .kor .. | .kxor .. | .kandn .. | .knot .. | .kmov .. | .k2s .. | .s2k .. | .kpopc .. | .kfirst .. => 0x1A
  | .vmov .. | .vsplat .. | .vext .. | .vins .. | .vlaneid .. | .viota .. => 0x1B
  | .vld .. => 0x1C
  | .vst .. => 0x1D
  | .vlda .. => 0x1E
  | .vstr .. => 0x1F
  | .sld .. => 0x20
  | .sst .. => 0x21
  | .slda .. => 0x22
  | .sstr .. => 0x23
  | .vatomAdd .. | .vatomAnd .. | .vatomOr .. | .vatomXor .. | .vatomMinS .. | .vatomMaxS .. | .vatomXchg .. | .vatomCas .. => 0x24
  | .vatomfFadd .. | .vatomfFmin .. | .vatomfFmax .. | .vatomfMinU .. | .vatomfMaxU .. | .vatomfIncw .. | .vatomfDecw .. => 0x25
  | .satomAdd .. | .satomAnd .. | .satomOr .. | .satomXor .. | .satomMinS .. | .satomMaxS .. | .satomXchg .. | .satomCas .. => 0x26
  | .cachePfl1 .. | .cachePfl2 .. | .cacheWback .. | .cacheInval .. | .cacheWbinv .. | .cacheZline .. => 0x27
  | .cpyl .. => 0x28
  | .tld .. | .tst .. | .tldw .. | .tzfill .. => 0x29
  | .binsc .. | .binrst .. => 0x2A
  | .cwait .. | .cadd .. | .cset .. | .ctest .. => 0x2B
  | .allred .. | .redsc .. | .allgat .. | .bcast .. | .rcopy .. => 0x2C
  | .bmopen .. | .bmstage .. | .bmclose .. | .bmnorm .. | .bmadd .. | .bmstat .. => 0x2D
  | .emit .. | .node .. | .nodeL .. | .nedge .. | .nwait .. => 0x2E
  | .grab .. | .rset .. | .rstat .. => 0x2F
  | .burn .. | .shunt .. | .rdmis .. | .dcls .. => 0x30
  | .tfeed .. => 0x31
  | .tdrain .. => 0x32
  | .mma .. | .mmab .. | .tzero .. | .tcfg .. => 0x33
  | .accspill .. | .accfill .. | .accrel .. | .acclive .. => 0x34
  | .tset .. | .tget .. | .tcopy .. => 0x35
  | _ => 0
/-! ### Fields of a word -/

section
variable {m n : Nat} (hi : BitVec m) (lo : BitVec n)

/-- A word made of two parts is `w` when they are its fields. -/
theorem append_eq_iff (w : BitVec (m + n)) :
    @HAppend.hAppend (BitVec m) (BitVec n) no_index(BitVec (m + n)) _ hi lo = w ↔ hi = w.extractLsb' n m ∧ lo = w.extractLsb' 0 n := by
  constructor
  · rintro rfl
    simp [BitVec.extractLsb'_append_eq_of_le, BitVec.extractLsb'_append_eq_of_add_le, BitVec.extractLsb'_eq_self]
  · rintro ⟨rfl, rfl⟩
    rw [BitVec.extractLsb'_append_extractLsb'_eq_extractLsb' (by simp)]
    simp

variable {s k : Nat}

theorem extract_append_low (h : s + k ≤ n) :
    (@HAppend.hAppend (BitVec m) (BitVec n) no_index(BitVec (m + n)) _ hi lo).extractLsb' s k = lo.extractLsb' s k :=
  BitVec.extractLsb'_append_eq_of_add_le h

theorem extract_append_high (h : n ≤ s) :
    (@HAppend.hAppend (BitVec m) (BitVec n) no_index(BitVec (m + n)) _ hi lo).extractLsb' s k = hi.extractLsb' (s - n) k :=
  BitVec.extractLsb'_append_eq_of_le h

/-- No bit of a mask is set in a word when none is in its parts. -/
theorem append_and_eq_zero_iff (u : BitVec (m + n)) :
    @Eq no_index(BitVec (m + n)) no_index((hi ++ lo) &&& u) no_index(0#(m + n)) ↔
      hi &&& u.extractLsb' n m = 0#m ∧ lo &&& u.extractLsb' 0 n = 0#n := by
  have hu : u = u.extractLsb' n m ++ u.extractLsb' 0 n := ((append_eq_iff _ _ u).2 ⟨rfl, rfl⟩).symm
  have hzero : 0#(m + n) = 0#m ++ 0#n := by simp
  conv_lhs => rw [hu, BitVec.and_append, hzero]
  simp [append_eq_iff]

end

/-- A field of a field is a field of the word. -/
theorem extract_extract {w : Nat} (v : BitVec w) {s n t k : Nat} (h : t + k ≤ n) :
    (v.extractLsb' s n).extractLsb' t k = v.extractLsb' (s + t) k := by
  ext i hi
  have hin : t + i < n := by omega
  simp [hin, Nat.add_assoc]

/-- The bits of a word's field. -/
def fieldMask (s n : Nat) : BitVec 32 := (BitVec.allOnes n).setWidth 32 <<< s

theorem and_fieldMask (w : BitVec 32) (s n : Nat) :
    w &&& fieldMask s n = BitVec.ofNat 32 ((w.extractLsb' s n).toNat <<< s) := by
  ext i hi
  have hfield : (BitVec.ofNat 32 ((w.extractLsb' s n).toNat <<< s))[i] = (decide (s ≤ i) && (w.extractLsb' s n).getLsbD (i - s)) := by
    rw [← BitVec.getLsbD_eq_getElem, BitVec.getLsbD_ofNat, Nat.testBit_shiftLeft, BitVec.testBit_toNat]
    simp [hi]
  rw [hfield]
  by_cases hs : s ≤ i
  · have hback : s + (i - s) = i := by omega
    simp [fieldMask, hs, Nat.not_lt.2 hs, hback, BitVec.getLsbD_eq_getElem hi, Bool.and_comm]
  · simp [fieldMask, hs, Nat.not_le.1 hs]

/-- A constant of a word's encoding, whose bits are the major's `m`, those of the member `k`, or unused: the word holds it. -/
theorem const_eq_extract {w u : BitVec 32} {m : BitVec 7} {s n k j l : Nat} {c : BitVec l} (hm : w.extractLsb' 0 7 = m)
    (hk : (w.extractLsb' s n).toNat = k) (hu : w &&& u = 0#32)
    (h : (fieldMask s n ||| u ||| fieldMask 0 7).extractLsb' j l = BitVec.allOnes l ∧
      (BitVec.ofNat 32 (k <<< s) ||| BitVec.ofNat 32 m.toNat).extractLsb' j l = c) : c = w.extractLsb' j l := by
  obtain ⟨hall, hc⟩ := h
  have hfixed : w &&& (fieldMask s n ||| u ||| fieldMask 0 7) = BitVec.ofNat 32 (k <<< s) ||| BitVec.ofNat 32 m.toNat := by
    rw [BitVec.and_or_distrib_left, BitVec.and_or_distrib_left, and_fieldMask, and_fieldMask, hk, hm, hu]
    simp
  rw [← hc, ← hfixed, BitVec.extractLsb'_and, hall, BitVec.and_allOnes]

theorem row_eq_ok {w u : BitVec 32} {o : Option Instr} {i : Instr} : row w u o = .ok i ↔ o = some i ∧ w &&& u = 0#32 := by
  cases o with
  | none => simp [row]
  | some j => by_cases h : w &&& u = 0#32 <;> simp [row, h]

/-- A word is its field of all its bits. -/
theorem encoded_word {v w : BitVec 32} (h : v = w.extractLsb' 0 32) : some (Code.word v) = some (Code.word w) := by
  rw [h, BitVec.extractLsb'_eq_self]

/-- A word's major is its instruction's. -/
theorem major_of_encodeUnit {i : Instr} {w : BitVec 32} (h : encodeUnit i = some (.word w)) : (w.extractLsb' 1 6).toNat = i.major := by
  cases i
  all_goals first
    | (cases h; done)
    | (cases h; rw [extract_append_low _ _ (by decide)]; rfl)
    | (cases h; rfl)

theorem major_eq_of_low {i : Instr} {w : BitVec 32} {m : BitVec 7} (h : encodeUnit i = some (.word w)) (hm : w.extractLsb' 0 7 = m) :
    i.major = (m.extractLsb' 1 6).toNat := by
  rw [← major_of_encodeUnit h, ← hm, extract_extract w (by decide)]

/-! ### Codes of sizes, types and small fields -/

section
variable {c : BitVec 2} {e : BitVec 3} {f : BitVec 6}

theorem FType.dec_eq_some {t : FType} : FType.dec c = some t ↔ t.enc = c := by cases t <;> (revert c; decide)
theorem CpSize.dec_eq_some {t : CpSize} : CpSize.dec c = some t ↔ t.enc = c := by cases t <;> (revert c; decide)
theorem MemSize.dec_eq_some {t : MemSize} : MemSize.dec e = some t ↔ t.enc = e := by cases t <;> (revert e; decide)
theorem SMemSize.dec_eq_some {t : SMemSize} : SMemSize.dec e = some t ↔ t.enc = e := by cases t <;> (revert e; decide)
theorem FeedFmt.dec_eq_some {t : FeedFmt} : FeedFmt.dec e = some t ↔ t.enc = e := by cases t <;> (revert e; decide)
theorem ScopeCode.dec_eq_some {t : ScopeCode} : ScopeCode.dec e = some t ↔ t.enc = e := by cases t <;> (revert e; decide)
theorem bit6_eq_some {t : BitVec 1} : bit6 f = some t ↔ t.setWidth 6 = f := by revert f t; decide
theorem fin3_eq_some {t : Fin 3} : fin3 f = some t ↔ BitVec.ofNat 6 t.val = f := by revert f t; decide
theorem fin5_eq_some {t : Fin 5} : fin5 f = some t ↔ BitVec.ofNat 6 t.val = f := by revert f t; decide

end

theorem zero_append_bit (b : BitVec 1) : 0#5 ++ b = b.setWidth 6 := by revert b; decide
theorem ofBool_beq_one (b : BitVec 1) : BitVec.ofBool (b == 1#1) = b := by revert b; decide
theorem ofBool_beq (b : Bool) : (BitVec.ofBool b == 1#1) = b := by cases b <;> rfl



/-! ### The decoder of a major (R102) -/

/-- What the decoder of major `k` reads in a word is the instruction of that word, with the prefix and the payload that the major may
carry (R92, R95). -/
def Decodes (k : Nat) (dec : BitVec 32 → Option Prefix → Option (BitVec 25) → Except Reject Instr) : Prop :=
  ∀ (w : BitVec 32) (p : Option Prefix) (x : Option (BitVec 25)) (i : Instr), w.extractLsb' 0 7 = BitVec.ofNat 7 (2 * k + 1) →
    dec w p x = .ok i → encodeUnit i = some (.word w) ∧ i.pfx = (if takesPrefix k then p else none) ∧
      i.ext = if takesExt k then x else none

/-- SALU. -/
theorem decodes_salu : Decodes 0x01 (fun w _ _ => decSalu w) := by
  intro w p x i hw h
  simp only [decSalu] at h
  split at h
  all_goals simp only [row_eq_ok, Option.some.injEq, reduceCtorEq] at h
  all_goals
    rename_i hk
    obtain ⟨rfl, hu⟩ := h
    refine ⟨encoded_word ?_, rfl, rfl⟩
    try simp (disch := decide) only [append_eq_iff, extract_extract, Nat.reduceAdd, and_true]
    and_intros
    all_goals first | (apply const_eq_extract hw hk hu; decide)

/-- SALUI, BR, JR, VBR, KBR. -/
theorem decodes_scalar : Decodes 0x02 (fun w _ x => decSalui w x) ∧ Decodes 0x04 (fun w _ x => decBr w x) ∧ Decodes 0x07 (fun w _ _ => decJr
    w) ∧ Decodes 0x08 (fun w _ _ => decVbr w) ∧ Decodes 0x09 (fun w _ x => decKbr w x) := by
  and_intros
  all_goals
    intro w p x i hw h
    simp only [decSalui, decBr, decJr, decVbr, decKbr] at h
    split at h
    all_goals simp only [row_eq_ok, Option.some.injEq, reduceCtorEq] at h
    all_goals
      rename_i hk
      obtain ⟨rfl, hu⟩ := h
      refine ⟨encoded_word ?_, rfl, rfl⟩
      try simp (disch := decide) only [append_eq_iff, extract_extract, Nat.reduceAdd, and_true, true_and]
      and_intros
      all_goals first | (apply const_eq_extract hw hk hu; decide)

/-- SYS, SYNC, QOP, REGION. -/
theorem decodes_system : Decodes 0x0A (fun w _ _ => decSys w) ∧ Decodes 0x0B (fun w _ _ => decSync w) ∧ Decodes 0x0C (fun w _ _ => decQop w)
    ∧ Decodes 0x0D (fun w _ _ => decRegion w) := by
  and_intros
  all_goals
    intro w p x i hw h
    simp only [decSys, decSync, decQop, decRegion] at h
    split at h
    all_goals simp only [row_eq_ok, Option.some.injEq, reduceCtorEq, Option.map_eq_some_iff, ScopeCode.dec_eq_some, bit6_eq_some] at h
    all_goals
      rename_i hk
      obtain ⟨hi, hu⟩ := h
      first | subst hi | obtain ⟨t, ht, rfl⟩ := hi
      refine ⟨encoded_word ?_, rfl, rfl⟩
      try simp (disch := decide) only [zero_append_bit, append_eq_iff, extract_extract, ofBool_beq_one, extract_append_low, extract_append_high,
        Nat.reduceSub, Nat.reduceAdd, and_true]
      and_intros
      all_goals first | exact ht | (apply const_eq_extract hw hk hu; decide)

/-- VFP, VFMA, VFPS. -/
theorem decodes_vfp : Decodes 0x10 (fun w p _ => decVfp w p) ∧ Decodes 0x11 (fun w p _ => decVfma w p) ∧ Decodes 0x12 (fun w p _ => decVfps
    w p) := by
  and_intros
  all_goals
    intro w p x i hw h
    simp only [decVfp, decVfma, decVfps] at h
    split at h
    all_goals simp only [row_eq_ok, reduceCtorEq, Option.map_eq_some_iff, FType.dec_eq_some] at h
    all_goals
      rename_i hk
      obtain ⟨⟨t, ht, rfl⟩, hu⟩ := h
      refine ⟨encoded_word ?_, rfl, rfl⟩
      try simp (disch := decide) only [append_eq_iff, extract_extract, Nat.reduceAdd, and_true]
      and_intros
      all_goals first | exact ht | (apply const_eq_extract hw hk hu; decide)

/-- VINT. -/
theorem decodes_vint : Decodes 0x13 (fun w p _ => decVint w p) := by
  intro w p x i hw h
  simp only [decVint] at h
  split at h
  all_goals simp only [row_eq_ok, Option.some.injEq, reduceCtorEq] at h
  all_goals
    rename_i hk
    obtain ⟨rfl, hu⟩ := h
    refine ⟨encoded_word ?_, rfl, rfl⟩
    try simp (disch := decide) only [append_eq_iff, extract_extract, Nat.reduceAdd, and_true]
    and_intros
    all_goals first | (apply const_eq_extract hw hk hu; decide)

/-- VINTS, VINTI. -/
theorem decodes_vints : Decodes 0x14 (fun w p _ => decVints w p) ∧ Decodes 0x15 decVinti := by
  and_intros
  all_goals
    intro w p x i hw h
    simp only [decVints, decVinti] at h
    split at h
    all_goals simp only [row_eq_ok, Option.some.injEq, reduceCtorEq] at h
    all_goals
      rename_i hk
      obtain ⟨rfl, hu⟩ := h
      refine ⟨encoded_word ?_, rfl, rfl⟩
      try simp (disch := decide) only [append_eq_iff, extract_extract, Nat.reduceAdd, and_true, true_and]
      and_intros
      all_goals first | (apply const_eq_extract hw hk hu; decide)

/-- VCMP, VSFU. -/
theorem decodes_vcmp : Decodes 0x16 (fun w p _ => decVcmp w p) ∧ Decodes 0x17 (fun w p _ => decVsfu w p) := by
  and_intros
  all_goals
    intro w p x i hw h
    simp only [decVcmp, decVsfu] at h
    split at h
    all_goals simp only [row_eq_ok, Option.some.injEq, reduceCtorEq] at h
    all_goals
      rename_i hk
      obtain ⟨rfl, hu⟩ := h
      refine ⟨encoded_word ?_, rfl, rfl⟩
      try simp (disch := decide) only [append_eq_iff, extract_extract, Nat.reduceAdd, and_true]
      and_intros
      all_goals first | (apply const_eq_extract hw hk hu; decide)

/-- VCVT, VLANE. -/
theorem decodes_vcvt : Decodes 0x18 (fun w p _ => decVcvt w p) ∧ Decodes 0x19 (fun w p _ => decVlane w p) := by
  and_intros
  all_goals
    intro w p x i hw h
    simp only [decVcvt, decVlane] at h
    split at h
    all_goals simp only [row_eq_ok, Option.some.injEq, reduceCtorEq, Option.map_eq_some_iff, bit6_eq_some] at h
    all_goals
      rename_i hk
      obtain ⟨hi, hu⟩ := h
      first | subst hi | obtain ⟨t, ht, rfl⟩ := hi
      refine ⟨encoded_word ?_, rfl, rfl⟩
      try simp (disch := decide) only [zero_append_bit, append_eq_iff, extract_extract, Nat.reduceAdd, and_true]
      and_intros
      all_goals first | exact ht | (apply const_eq_extract hw hk hu; decide)

/-- KOP, VMOV. -/
theorem decodes_kop : Decodes 0x1A (fun w p _ => decKop w p) ∧ Decodes 0x1B (fun w p _ => decVmov w p) := by
  and_intros
  all_goals
    intro w p x i hw h
    simp only [decKop, decVmov] at h
    split at h
    all_goals simp only [row_eq_ok, Option.some.injEq, reduceCtorEq, Option.map_eq_some_iff, fin3_eq_some] at h
    all_goals
      rename_i hk
      obtain ⟨hi, hu⟩ := h
      first | subst hi | obtain ⟨t, ht, rfl⟩ := hi
      refine ⟨encoded_word ?_, rfl, rfl⟩
      try simp (disch := decide) only [append_eq_iff, extract_extract, Nat.reduceAdd, and_true]
      and_intros
      all_goals first | exact ht | (apply const_eq_extract hw hk hu; decide)

/-- VATOM, VATOMF, SATOM, CACHE. -/
theorem decodes_atomic : Decodes 0x24 (fun w _ x => decVatom w x) ∧ Decodes 0x25 (fun w _ x => decVatomf w x) ∧ Decodes 0x26 (fun w _ x =>
    decSatom w x) ∧ Decodes 0x27 (fun w _ x => decCache w x) := by
  and_intros
  all_goals
    intro w p x i hw h
    simp only [decVatom, decVatomf, decSatom, decCache] at h
    split at h
    all_goals simp only [row_eq_ok, Option.some.injEq, reduceCtorEq] at h
    all_goals
      rename_i hk
      obtain ⟨rfl, hu⟩ := h
      refine ⟨encoded_word ?_, rfl, rfl⟩
      try simp (disch := decide) only [append_eq_iff, extract_extract, Nat.reduceAdd, and_true]
      and_intros
      all_goals first | (apply const_eq_extract hw hk hu; decide)

/-- CPYL, TDMA, BINS, CNT, COLL, BMRG. -/
theorem decodes_engine : Decodes 0x28 (fun w _ _ => decCpyl w) ∧ Decodes 0x29 (fun w _ _ => decTdma w) ∧ Decodes 0x2A (fun w _ _ => decBins
    w) ∧ Decodes 0x2B (fun w _ _ => decCnt w) ∧ Decodes 0x2C (fun w _ _ => decColl w) ∧ Decodes 0x2D (fun w _ _ => decBmrg w) := by
  and_intros
  all_goals
    intro w p x i hw h
    simp only [decCpyl, decTdma, decBins, decCnt, decColl, decBmrg] at h
    split at h
    all_goals simp only [row_eq_ok, Option.some.injEq, reduceCtorEq, Option.map_eq_some_iff, CpSize.dec_eq_some] at h
    all_goals
      rename_i hk
      obtain ⟨hi, hu⟩ := h
      first | subst hi | obtain ⟨t, ht, rfl⟩ := hi
      refine ⟨encoded_word ?_, rfl, rfl⟩
      try simp (disch := decide) only [append_eq_iff, extract_extract, extract_append_low, extract_append_high, Nat.reduceSub, Nat.reduceAdd,
        and_true, true_and]
      and_intros
      all_goals first | exact ht | (apply const_eq_extract hw hk hu; decide)

/-- RANGE, STACK, TFEED, TDRAIN, MMA, ACC, TDESC. -/
theorem decodes_matrix : Decodes 0x2F (fun w _ _ => decRange w) ∧ Decodes 0x30 (fun w _ _ => decStack w) ∧ Decodes 0x31 (fun w p _ =>
    decTfeed w p) ∧ Decodes 0x32 (fun w p _ => decTdrain w p) ∧ Decodes 0x33 (fun w _ _ => decMma w) ∧ Decodes 0x34 (fun w _ _ => decAcc w)
    ∧ Decodes 0x35 (fun w _ _ => decTdesc w) := by
  and_intros
  all_goals
    intro w p x i hw h
    simp only [decRange, decStack, decTfeed, decTdrain, decMma, decAcc, decTdesc] at h
    split at h
    all_goals simp only [row_eq_ok, Option.some.injEq, reduceCtorEq, Option.map_eq_some_iff, FeedFmt.dec_eq_some, bit6_eq_some,
      fin5_eq_some] at h
    all_goals
      rename_i hk
      obtain ⟨hi, hu⟩ := h
      first | subst hi | obtain ⟨t, ht, rfl⟩ := hi
      refine ⟨encoded_word ?_, rfl, rfl⟩
      try simp (disch := decide) only [zero_append_bit, append_eq_iff, extract_extract, ofBool_beq_one, extract_append_low, extract_append_high,
        Nat.reduceSub, Nat.reduceAdd, and_true, true_and]
      and_intros
      all_goals first | exact ht | (apply const_eq_extract hw hk hu; decide)

/-- Majors of one member: SLI, JMP, CALL. -/
theorem decodes_one : Decodes 0x03 (fun w _ x => decSli w x) ∧ Decodes 0x05 (fun w _ x => decJmp w x) ∧ Decodes 0x06 (fun w _ x => decCall w
    x) := by
  and_intros
  all_goals
    intro w p x i hw h
    simp only [decSli, decJmp, decCall, row_eq_ok, Option.some.injEq] at h
    have hk : (w.extractLsb' 0 0).toNat = 0 := by simp
    obtain ⟨rfl, hu⟩ := h
    refine ⟨encoded_word ?_, rfl, rfl⟩
    try simp (disch := decide) only [append_eq_iff, extract_extract, Nat.reduceAdd, and_true, true_and]
    all_goals first | (apply const_eq_extract hw hk hu; decide)

/-- Loads and stores. -/
theorem decodes_access : Decodes 0x1C (fun w _ x => decVld w x) ∧ Decodes 0x1D (fun w _ x => decVst w x) ∧ Decodes 0x1E (fun w _ x =>
    decVlda w x) ∧ Decodes 0x1F (fun w _ x => decVstr w x) ∧ Decodes 0x20 (fun w _ x => decSld w x) ∧ Decodes 0x21 (fun w _ x => decSst w x)
    ∧ Decodes 0x22 (fun w _ x => decSlda w x) ∧ Decodes 0x23 (fun w _ x => decSstr w x) := by
  and_intros
  all_goals
    intro w p x i hw h
    simp only [decVld, decVst, decVlda, decVstr, decSld, decSst, decSlda, decSstr, row_eq_ok, Option.map_eq_some_iff, MemSize.dec_eq_some,
      SMemSize.dec_eq_some] at h
    have hk : (w.extractLsb' 0 0).toNat = 0 := by simp
    obtain ⟨⟨t, ht, rfl⟩, hu⟩ := h
    refine ⟨encoded_word ?_, rfl, rfl⟩
    try simp (disch := decide) only [append_eq_iff, extract_extract, Nat.reduceAdd, and_true]
    and_intros
    all_goals first | exact ht | (apply const_eq_extract hw hk hu; decide)


/-! ### The encoding of a word decodes to it -/

/-- The instruction of a word under a prefix and a payload that its major may carry. A NODE.L without a register would be a NODE. -/
def InWord (w : BitVec 32) (p : Option Prefix) (x : Option (BitVec 25)) (i : Instr) : Prop :=
  encodeUnit i = some (.word w) ∧ (∀ d c st, i ≠ .nodeL d c 0 st) ∧ i.pfx = (if takesPrefix i.major then p else none) ∧
    i.ext = if takesExt i.major then x else none

/-- The decoder takes the instruction's word for it. -/
def ReadsBack (i : Instr) : Prop := ∀ w p x, InWord w p x i → decodeWord w p x = .ok i

/-- Whether the instruction's major is one of `lo` to `hi` (R102). -/
def Instr.inMajors (lo hi : Nat) (i : Instr) : Bool := Nat.ble lo i.major && Nat.ble i.major hi

section
variable {w : BitVec 32} {p : Option Prefix} {x : Option (BitVec 25)} {i : Instr}

/-- SALU. -/
theorem readsBack_salu (hi : i.inMajors 0x01 0x01 = true) : ReadsBack i := by
  cases i
  all_goals first
    | exact absurd hi Bool.false_ne_true
    | (rintro w p x ⟨henc, hnode, hp, hx⟩
       cases henc
       simp (disch := decide) only [decodeWord, decSalu, row_eq_ok, extract_append_low, extract_append_high, append_and_eq_zero_iff,
         BitVec.extractLsb'_eq_self, Nat.reduceSub, BitVec.reduceExtractLsb', BitVec.reduceToNat]
       simp)

/-- SALUI to KBR. -/
theorem readsBack_scalar (hi : i.inMajors 0x02 0x09 = true) : ReadsBack i := by
  cases i
  all_goals first
    | exact absurd hi Bool.false_ne_true
    | (rintro w p x ⟨henc, hnode, hp, hx⟩
       cases henc
       simp (disch := decide) only [decodeWord, decSalui, decSli, decBr, decJmp, decCall, decJr, decVbr, decKbr, row_eq_ok,
         extract_append_low, extract_append_high, append_and_eq_zero_iff, BitVec.extractLsb'_eq_self, Nat.reduceSub,
         BitVec.reduceExtractLsb', BitVec.reduceToNat]
       simp
       all_goals first | exact hx.symm)

/-- SYS to REGION. -/
theorem readsBack_system (hi : i.inMajors 0x0A 0x0D = true) : ReadsBack i := by
  cases i
  all_goals first
    | exact absurd hi Bool.false_ne_true
    | (rintro w p x ⟨henc, hnode, hp, hx⟩
       cases henc
       simp (disch := decide) only [decodeWord, decSys, decSync, decQop, decRegion, zero_append_bit, row_eq_ok, extract_append_low,
         extract_append_high, append_and_eq_zero_iff, BitVec.extractLsb'_eq_self, Nat.reduceSub, BitVec.reduceExtractLsb',
         BitVec.reduceToNat]
       simp [append_eq_iff, ofBool_beq, ScopeCode.dec_eq_some, bit6_eq_some])

/-- VFP to VFPS. -/
theorem readsBack_vfp (hi : i.inMajors 0x10 0x12 = true) : ReadsBack i := by
  cases i
  all_goals first
    | exact absurd hi Bool.false_ne_true
    | (rintro w p x ⟨henc, hnode, hp, hx⟩
       cases henc
       simp (disch := decide) only [decodeWord, decVfp, decVfma, decVfps, row_eq_ok, extract_append_low, extract_append_high,
         append_and_eq_zero_iff, BitVec.extractLsb'_eq_self, Nat.reduceSub, BitVec.reduceExtractLsb', BitVec.reduceToNat]
       simp [FType.dec_eq_some]
       exact hp.symm)

/-- VINT. -/
theorem readsBack_vint (hi : i.inMajors 0x13 0x13 = true) : ReadsBack i := by
  cases i
  all_goals first
    | exact absurd hi Bool.false_ne_true
    | (rintro w p x ⟨henc, hnode, hp, hx⟩
       cases henc
       simp (disch := decide) only [decodeWord, decVint, row_eq_ok, extract_append_low, extract_append_high, append_and_eq_zero_iff,
         BitVec.extractLsb'_eq_self, Nat.reduceSub, BitVec.reduceExtractLsb', BitVec.reduceToNat]
       simp
       exact hp.symm)

/-- VINTS and VINTI. -/
theorem readsBack_vints (hi : i.inMajors 0x14 0x15 = true) : ReadsBack i := by
  cases i
  all_goals first
    | exact absurd hi Bool.false_ne_true
    | (rintro w p x ⟨henc, hnode, hp, hx⟩
       cases henc
       simp (disch := decide) only [decodeWord, decVints, decVinti, row_eq_ok, extract_append_low, extract_append_high,
         append_and_eq_zero_iff, BitVec.extractLsb'_eq_self, Nat.reduceSub, BitVec.reduceExtractLsb', BitVec.reduceToNat]
       simp
       all_goals first | exact ⟨hp.symm, hx.symm⟩ | exact hp.symm)

/-- VCMP and VSFU. -/
theorem readsBack_vcmp (hi : i.inMajors 0x16 0x17 = true) : ReadsBack i := by
  cases i
  all_goals first
    | exact absurd hi Bool.false_ne_true
    | (rintro w p x ⟨henc, hnode, hp, hx⟩
       cases henc
       simp (disch := decide) only [decodeWord, decVcmp, decVsfu, row_eq_ok, extract_append_low, extract_append_high,
         append_and_eq_zero_iff, BitVec.extractLsb'_eq_self, Nat.reduceSub, BitVec.reduceExtractLsb', BitVec.reduceToNat]
       simp
       exact hp.symm)

/-- VCVT and VLANE. -/
theorem readsBack_vcvt (hi : i.inMajors 0x18 0x19 = true) : ReadsBack i := by
  cases i
  all_goals first
    | exact absurd hi Bool.false_ne_true
    | (rintro w p x ⟨henc, hnode, hp, hx⟩
       cases henc
       simp (disch := decide) only [decodeWord, decVcvt, decVlane, zero_append_bit, row_eq_ok, extract_append_low, extract_append_high,
         append_and_eq_zero_iff, BitVec.extractLsb'_eq_self, Nat.reduceSub, BitVec.reduceExtractLsb', BitVec.reduceToNat]
       simp [bit6_eq_some]
       exact hp.symm)

/-- KOP and VMOV. -/
theorem readsBack_kop (hi : i.inMajors 0x1A 0x1B = true) : ReadsBack i := by
  cases i
  all_goals first
    | exact absurd hi Bool.false_ne_true
    | (rintro w p x ⟨henc, hnode, hp, hx⟩
       cases henc
       simp (disch := decide) only [decodeWord, decKop, decVmov, row_eq_ok, extract_append_low, extract_append_high,
         append_and_eq_zero_iff, BitVec.extractLsb'_eq_self, Nat.reduceSub, BitVec.reduceExtractLsb', BitVec.reduceToNat]
       simp [fin3_eq_some]
       exact hp.symm)

/-- VLD to SSTR. -/
theorem readsBack_access (hi : i.inMajors 0x1C 0x23 = true) : ReadsBack i := by
  cases i
  all_goals first
    | exact absurd hi Bool.false_ne_true
    | (rintro w p x ⟨henc, hnode, hp, hx⟩
       cases henc
       simp (disch := decide) only [decodeWord, decVld, decVst, decVlda, decVstr, decSld, decSst, decSlda, decSstr, row_eq_ok,
         extract_append_low, extract_append_high, append_and_eq_zero_iff, BitVec.extractLsb'_eq_self, Nat.reduceSub,
         BitVec.reduceExtractLsb', BitVec.reduceToNat]
       simp [MemSize.dec_eq_some, SMemSize.dec_eq_some]
       exact hx.symm)

/-- VATOM to CACHE. -/
theorem readsBack_atomic (hi : i.inMajors 0x24 0x27 = true) : ReadsBack i := by
  cases i
  all_goals first
    | exact absurd hi Bool.false_ne_true
    | (rintro w p x ⟨henc, hnode, hp, hx⟩
       cases henc
       simp (disch := decide) only [decodeWord, decVatom, decVatomf, decSatom, decCache, row_eq_ok, extract_append_low,
         extract_append_high, append_and_eq_zero_iff, BitVec.extractLsb'_eq_self, Nat.reduceSub, BitVec.reduceExtractLsb',
         BitVec.reduceToNat]
       simp
       exact hx.symm)

/-- CPYL to BMRG. -/
theorem readsBack_engine (hi : i.inMajors 0x28 0x2D = true) : ReadsBack i := by
  cases i
  all_goals first
    | exact absurd hi Bool.false_ne_true
    | (rintro w p x ⟨henc, hnode, hp, hx⟩
       cases henc
       simp (disch := decide) only [decodeWord, decCpyl, decTdma, decBins, decCnt, decColl, decBmrg, row_eq_ok, extract_append_low,
         extract_append_high, append_and_eq_zero_iff, BitVec.extractLsb'_eq_self, Nat.reduceSub, BitVec.reduceExtractLsb',
         BitVec.reduceToNat]
       simp [append_eq_iff, CpSize.dec_eq_some])

/-- GRAPH. -/
theorem readsBack_graph (hi : i.inMajors 0x2E 0x2E = true) : ReadsBack i := by
  cases i
  all_goals first
    | exact absurd hi Bool.false_ne_true
    | (rintro w p x ⟨henc, hnode, hp, hx⟩
       cases henc
       simp (disch := decide) only [decodeWord, decGraph, row_eq_ok, extract_append_low, extract_append_high, append_and_eq_zero_iff,
         BitVec.extractLsb'_eq_self, Nat.reduceSub, BitVec.reduceExtractLsb', BitVec.reduceToNat]
       try simp)
  case node d c => simp (disch := decide) [row_eq_ok, append_and_eq_zero_iff]
  case nodeL d c b st =>
    have hreg : b ≠ 0#6 := fun h => hnode d c st (by rw [h]; rfl)
    simp (disch := decide) [hreg, row_eq_ok]

/-- RANGE to TDESC. -/
theorem readsBack_matrix (hi : i.inMajors 0x2F 0x35 = true) : ReadsBack i := by
  cases i
  all_goals first
    | exact absurd hi Bool.false_ne_true
    | (rintro w p x ⟨henc, hnode, hp, hx⟩
       cases henc
       simp (disch := decide) only [decodeWord, decRange, decStack, decTfeed, decTdrain, decMma, decAcc, decTdesc, zero_append_bit,
         row_eq_ok, extract_append_low, extract_append_high, append_and_eq_zero_iff, BitVec.extractLsb'_eq_self, Nat.reduceSub,
         BitVec.reduceExtractLsb', BitVec.reduceToNat]
       simp [append_eq_iff, ofBool_beq, FeedFmt.dec_eq_some, bit6_eq_some, fin5_eq_some]
       all_goals first | exact hp.symm)

/-- The majors that name an instruction (R102). -/
def namesInstr (k : Nat) : Bool := (1 ≤ k ∧ k ≤ 0x0D) ∨ (0x10 ≤ k ∧ k ≤ 0x35)

theorem namesInstr_major (henc : encodeUnit i = some (.word w)) : namesInstr i.major = true := by
  cases i
  all_goals first
    | (cases henc; done)
    | rfl

theorem Instr.inMajors_iff {lo hi : Nat} : i.inMajors lo hi = true ↔ lo ≤ i.major ∧ i.major ≤ hi := by
  simp [Instr.inMajors]

theorem decodeWord_of_inWord (h : InWord w p x i) : decodeWord w p x = .ok i := by
  have hnames := namesInstr_major h.1
  rw [namesInstr, decide_eq_true_eq] at hnames
  have hin {lo hi : Nat} (hlo : lo ≤ i.major) (hhi : i.major ≤ hi) : i.inMajors lo hi = true := Instr.inMajors_iff.2 ⟨hlo, hhi⟩
  rcases Nat.lt_or_ge i.major 0x1C with hlow | hhigh
  · rcases Nat.lt_or_ge i.major 0x13 with hscalar | hvector
    · rcases Nat.lt_or_ge i.major 0x02 with h1 | h2
      · exact readsBack_salu (hin (by omega) (by omega)) w p x h
      rcases Nat.lt_or_ge i.major 0x0A with h3 | h4
      · exact readsBack_scalar (hin h2 (by omega)) w p x h
      rcases Nat.lt_or_ge i.major 0x10 with h5 | h6
      · exact readsBack_system (hin h4 (by omega)) w p x h
      · exact readsBack_vfp (hin h6 (by omega)) w p x h
    · rcases Nat.lt_or_ge i.major 0x14 with h1 | h2
      · exact readsBack_vint (hin hvector (by omega)) w p x h
      rcases Nat.lt_or_ge i.major 0x16 with h3 | h4
      · exact readsBack_vints (hin h2 (by omega)) w p x h
      rcases Nat.lt_or_ge i.major 0x18 with h5 | h6
      · exact readsBack_vcmp (hin h4 (by omega)) w p x h
      rcases Nat.lt_or_ge i.major 0x1A with h7 | h8
      · exact readsBack_vcvt (hin h6 (by omega)) w p x h
      · exact readsBack_kop (hin h8 (by omega)) w p x h
  · rcases Nat.lt_or_ge i.major 0x24 with h1 | h2
    · exact readsBack_access (hin hhigh (by omega)) w p x h
    rcases Nat.lt_or_ge i.major 0x28 with h3 | h4
    · exact readsBack_atomic (hin h2 (by omega)) w p x h
    rcases Nat.lt_or_ge i.major 0x2E with h5 | h6
    · exact readsBack_engine (hin h4 (by omega)) w p x h
    rcases Nat.lt_or_ge i.major 0x2F with h7 | h8
    · exact readsBack_graph (hin h6 (by omega)) w p x h
    · exact readsBack_matrix (hin h8 (by omega)) w p x h

end

/-- GRAPH: the member that names no stream is a NODE, and a NODE.L has a register other than s0 (R205). -/
theorem decodes_graph {w : BitVec 32} (hw : w.extractLsb' 0 7 = 93#7) {i : Instr} (h : decGraph w = .ok i) :
    encodeUnit i = some (.word w) ∧ (∀ d c st, i ≠ .nodeL d c 0 st) ∧ i.pfx = none ∧ i.ext = none := by
  simp only [decGraph] at h
  split at h
  case h_2 hk =>
    split at h
    case isTrue hb =>
      obtain ⟨hi, hu⟩ := row_eq_ok.1 h
      cases hi
      refine ⟨encoded_word ?_, fun _ _ _ => nofun, rfl, rfl⟩
      simp (disch := decide) only [append_eq_iff, extract_extract, Nat.reduceAdd, and_true]
      and_intros
      all_goals apply const_eq_extract hw hk hu; decide
    case isFalse hb =>
      obtain ⟨hi, hu⟩ := row_eq_ok.1 h
      cases hi
      refine ⟨encoded_word ?_, fun _ _ _ he => hb (Instr.nodeL.inj he).2.2.1, rfl, rfl⟩
      simp (disch := decide) only [append_eq_iff, extract_extract, Nat.reduceAdd, and_true, true_and]
      and_intros
      all_goals apply const_eq_extract hw hk hu; decide
  case h_5 => cases h
  all_goals
    rename_i hk
    obtain ⟨hi, hu⟩ := row_eq_ok.1 h
    cases hi
    refine ⟨encoded_word ?_, fun _ _ _ => nofun, rfl, rfl⟩
    simp (disch := decide) only [append_eq_iff, extract_extract, Nat.reduceAdd, and_true, true_and]
    and_intros
    all_goals apply const_eq_extract hw hk hu; decide

/-! ### Words and parcels -/

/-- A word's low seven bits hold its major above the bit that says it is no parcel (R91, R95). -/
theorem low_of_majorOf {w : BitVec 32} {k : Nat} (htag : w.extractLsb' 0 1 = 1#1) (hk : majorOf w = k) :
    w.extractLsb' 0 7 = BitVec.ofNat 7 (2 * k + 1) := by
  have htag' := congrArg BitVec.toNat htag
  simp only [majorOf, BitVec.extractLsb'_toNat, Nat.shiftRight_eq_div_pow, BitVec.toNat_ofNat] at hk htag'
  apply BitVec.eq_of_toNat_eq
  simp only [BitVec.extractLsb'_toNat, Nat.shiftRight_eq_div_pow, BitVec.toNat_ofNat]
  omega

theorem majorOf_of_low {w : BitVec 32} {m : BitVec 7} (h : w.extractLsb' 0 7 = m) : majorOf w = (m.extractLsb' 1 6).toNat := by
  rw [← h, extract_extract w (by decide)]
  rfl

theorem tag_of_low {w : BitVec 32} {m : BitVec 7} (h : w.extractLsb' 0 7 = m) : w.extractLsb' 0 1 = m.extractLsb' 0 1 := by
  rw [← h, extract_extract w (by decide)]

section
variable {w : BitVec 32} {p : Option Prefix} {x : Option (BitVec 25)} {i : Instr}

theorem Decodes.inWord {k : Nat} {dec : BitVec 32 → Option Prefix → Option (BitVec 25) → Except Reject Instr} (h : Decodes k dec)
    (hgraph : k ≠ 0x2E) (htag : w.extractLsb' 0 1 = 1#1) (hk : majorOf w = k) (hd : dec w p x = .ok i) : InWord w p x i := by
  obtain ⟨henc, hp, hx⟩ := h w p x i (low_of_majorOf htag hk) hd
  have hmajor : i.major = k := (major_of_encodeUnit henc).symm.trans hk
  refine ⟨henc, ?_, by rw [hp, hmajor], by rw [hx, hmajor]⟩
  rintro d c st rfl
  exact hgraph hmajor.symm

theorem graph_inWord (htag : w.extractLsb' 0 1 = 1#1) (hk : majorOf w = 0x2E) (hd : decGraph w = .ok i) : InWord w p x i := by
  obtain ⟨henc, hnode, hp, hx⟩ := decodes_graph (low_of_majorOf htag hk) hd
  have hmajor : i.major = 0x2E := (major_of_encodeUnit henc).symm.trans hk
  exact ⟨henc, hnode, by rw [hp, hmajor]; rfl, by rw [hx, hmajor]; rfl⟩

theorem decodeWord_eq_ok (htag : w.extractLsb' 0 1 = 1#1) : decodeWord w p x = .ok i ↔ InWord w p x i := by
  obtain ⟨salui, br, jr, vbr, kbr⟩ := decodes_scalar
  obtain ⟨sys, sync, qop, region⟩ := decodes_system
  obtain ⟨vfp, vfma, vfps⟩ := decodes_vfp
  obtain ⟨vints, vinti⟩ := decodes_vints
  obtain ⟨vcmp, vsfu⟩ := decodes_vcmp
  obtain ⟨vcvt, vlane⟩ := decodes_vcvt
  obtain ⟨kop, vmov⟩ := decodes_kop
  obtain ⟨vatom, vatomf, satom, cache⟩ := decodes_atomic
  obtain ⟨cpyl, tdma, bins, cnt, coll, bmrg⟩ := decodes_engine
  obtain ⟨range, stack, tfeed, tdrain, mma, acc, tdesc⟩ := decodes_matrix
  obtain ⟨sli, jmp, call⟩ := decodes_one
  obtain ⟨vld, vst, vlda, vstr, sld, sst, slda, sstr⟩ := decodes_access
  refine ⟨fun hd => ?_, decodeWord_of_inWord⟩
  rw [decodeWord] at hd
  split at hd
  case h_44 hk => exact graph_inWord htag hk hd
  case h_52 => cases hd
  · exact decodes_salu.inWord (by decide) htag ‹_› hd
  · exact salui.inWord (by decide) htag ‹_› hd
  · exact sli.inWord (by decide) htag ‹_› hd
  · exact br.inWord (by decide) htag ‹_› hd
  · exact jmp.inWord (by decide) htag ‹_› hd
  · exact call.inWord (by decide) htag ‹_› hd
  · exact jr.inWord (by decide) htag ‹_› hd
  · exact vbr.inWord (by decide) htag ‹_› hd
  · exact kbr.inWord (by decide) htag ‹_› hd
  · exact sys.inWord (by decide) htag ‹_› hd
  · exact sync.inWord (by decide) htag ‹_› hd
  · exact qop.inWord (by decide) htag ‹_› hd
  · exact region.inWord (by decide) htag ‹_› hd
  · exact vfp.inWord (by decide) htag ‹_› hd
  · exact vfma.inWord (by decide) htag ‹_› hd
  · exact vfps.inWord (by decide) htag ‹_› hd
  · exact decodes_vint.inWord (by decide) htag ‹_› hd
  · exact vints.inWord (by decide) htag ‹_› hd
  · exact vinti.inWord (by decide) htag ‹_› hd
  · exact vcmp.inWord (by decide) htag ‹_› hd
  · exact vsfu.inWord (by decide) htag ‹_› hd
  · exact vcvt.inWord (by decide) htag ‹_› hd
  · exact vlane.inWord (by decide) htag ‹_› hd
  · exact kop.inWord (by decide) htag ‹_› hd
  · exact vmov.inWord (by decide) htag ‹_› hd
  · exact vld.inWord (by decide) htag ‹_› hd
  · exact vst.inWord (by decide) htag ‹_› hd
  · exact vlda.inWord (by decide) htag ‹_› hd
  · exact vstr.inWord (by decide) htag ‹_› hd
  · exact sld.inWord (by decide) htag ‹_› hd
  · exact sst.inWord (by decide) htag ‹_› hd
  · exact slda.inWord (by decide) htag ‹_› hd
  · exact sstr.inWord (by decide) htag ‹_› hd
  · exact vatom.inWord (by decide) htag ‹_› hd
  · exact vatomf.inWord (by decide) htag ‹_› hd
  · exact satom.inWord (by decide) htag ‹_› hd
  · exact cache.inWord (by decide) htag ‹_› hd
  · exact cpyl.inWord (by decide) htag ‹_› hd
  · exact tdma.inWord (by decide) htag ‹_› hd
  · exact bins.inWord (by decide) htag ‹_› hd
  · exact cnt.inWord (by decide) htag ‹_› hd
  · exact coll.inWord (by decide) htag ‹_› hd
  · exact bmrg.inWord (by decide) htag ‹_› hd
  · exact range.inWord (by decide) htag ‹_› hd
  · exact stack.inWord (by decide) htag ‹_› hd
  · exact tfeed.inWord (by decide) htag ‹_› hd
  · exact tdrain.inWord (by decide) htag ‹_› hd
  · exact mma.inWord (by decide) htag ‹_› hd
  · exact acc.inWord (by decide) htag ‹_› hd
  · exact tdesc.inWord (by decide) htag ‹_› hd

end

/-- A parcel's low five bits hold its operation above the bit that says it is a parcel (R91, R94). -/
theorem low_of_op {h : BitVec 16} {k : Nat} (htag : h.extractLsb' 0 1 = 0#1) (hk : (h.extractLsb' 1 4).toNat = k) :
    BitVec.ofNat 5 (2 * k) = h.extractLsb' 0 5 := by
  have htag' := congrArg BitVec.toNat htag
  simp only [BitVec.extractLsb'_toNat, Nat.shiftRight_eq_div_pow, BitVec.toNat_ofNat] at hk htag'
  apply BitVec.eq_of_toNat_eq
  simp only [BitVec.extractLsb'_toNat, Nat.shiftRight_eq_div_pow, BitVec.toNat_ofNat]
  omega

theorem encoded_parcel {v h : BitVec 16} (he : v = h.extractLsb' 0 16) : some (Code.parcel v) = some (Code.parcel h) := by
  rw [he, BitVec.extractLsb'_eq_self]

/-- A word is no parcel. -/
theorem word_ne_parcel {w : BitVec 32} {h : BitVec 16} : some (Code.word w) ≠ some (Code.parcel h) := nofun

theorem decodeCompact_eq_ok {h : BitVec 16} {i : Instr} (htag : h.extractLsb' 0 1 = 0#1) :
    decodeCompact h = .ok i ↔ encodeUnit i = some (.parcel h) ∧ h ≠ 0#16 := by
  constructor
  · intro hd
    simp only [decodeCompact] at hd
    split at hd
    case isTrue => cases hd
    case isFalse hne =>
      refine ⟨?_, hne⟩
      split at hd
      case h_17 => cases hd
      all_goals
        rename_i hk
        cases hd
        refine encoded_parcel ?_
        simp (disch := decide) only [append_eq_iff, extract_extract, Nat.reduceAdd, true_and]
        exact low_of_op htag hk
  · rintro ⟨henc, hne⟩
    cases i
    all_goals first
      | exact (word_ne_parcel henc).elim
      | exact (Option.some_ne_none _ henc.symm).elim
      | (cases henc
         simp only [decodeCompact, if_neg hne]
         simp (disch := decide) only [extract_append_low, extract_append_high, BitVec.extractLsb'_eq_self, Nat.reduceSub,
           BitVec.reduceExtractLsb', BitVec.reduceToNat])

/-! ### Sequences -/

/-- Bit 0 of the first byte tells a parcel from a word (R91). -/
def Code.Tagged : Code → Prop
  | .parcel h => h.extractLsb' 0 1 = 0#1
  | .word w => w.extractLsb' 0 1 = 1#1

theorem tagged_of_encodeUnit {i : Instr} {c : Code} (h : encodeUnit i = some c) : c.Tagged := by
  cases i
  all_goals first
    | exact (Option.some_ne_none _ h.symm).elim
    | (cases h
       simp (disch := decide) only [Code.Tagged, extract_append_low]
       rfl)

theorem bit_ne_zero_iff (b : BitVec 1) : b ≠ 0#1 ↔ b = 1#1 := by
  revert b; decide

theorem parcel_of_bytes (b0 b1 : Byte) : (Code.parcel (b1 ++ b0)).bytes = [b0, b1] := by
  simp (disch := decide) [Code.bytes, extract_append_low, extract_append_high, BitVec.extractLsb'_eq_self]

theorem word_of_bytes (b0 b1 b2 b3 : Byte) : bytes32 (b3 ++ b2 ++ b1 ++ b0) = [b0, b1, b2, b3] := by
  simp (disch := decide) [bytes32, extract_append_low, extract_append_high, BitVec.extractLsb'_eq_self]

theorem bytes_parcel (h : BitVec 16) : h.extractLsb' 8 8 ++ h.extractLsb' 0 8 = h :=
  (append_eq_iff _ _ _).2 ⟨rfl, rfl⟩

theorem bytes_word (w : BitVec 32) : w.extractLsb' 24 8 ++ w.extractLsb' 16 8 ++ w.extractLsb' 8 8 ++ w.extractLsb' 0 8 = w := by
  simp (disch := decide) only [append_eq_iff, extract_extract, Nat.reduceAdd, and_true]

/-- A byte list begins with the bytes of its first parcel or word. -/
theorem code_eq_some {bs r : List Byte} {c : Code} : code bs = some (c, r) ↔ bs = c.bytes ++ r ∧ c.Tagged := by
  constructor
  · intro h
    unfold code at h
    split at h
    case h_2 => cases h
    case h_1 b0 b1 r1 =>
      split at h
      case isTrue h0 =>
        cases h
        exact ⟨by simp [parcel_of_bytes], by rwa [Code.Tagged, extract_append_low _ _ (by decide)]⟩
      case isFalse h0 =>
        split at h
        case h_2 => cases h
        case h_1 b2 b3 r2 =>
          cases h
          exact ⟨by simp [Code.bytes, word_of_bytes],
            by rw [Code.Tagged, extract_append_low _ _ (by decide)]; exact (bit_ne_zero_iff _).1 h0⟩
  · rintro ⟨rfl, htag⟩
    cases c with
    | parcel h =>
      have hbit : (h.extractLsb' 0 8).extractLsb' 0 1 = 0#1 := (extract_extract h (by decide)).trans htag
      simp only [Code.bytes, List.cons_append, List.nil_append, code, if_pos hbit, bytes_parcel]
    | word w =>
      have hbit : ¬ (w.extractLsb' 0 8).extractLsb' 0 1 = 0#1 :=
        (bit_ne_zero_iff _).2 ((extract_extract w (by decide)).trans htag)
      simp only [Code.bytes, bytes32, List.cons_append, List.nil_append, code, if_neg hbit, bytes_word]

/-- A VPFX word's low bits (R98). -/
theorem Prefix.low_word (p : Prefix) : p.word.extractLsb' 0 7 = 0x7D#7 := by
  simp (disch := decide) only [Prefix.word, extract_append_low]
  rfl

@[simp] theorem prefixOf_word (p : Prefix) : prefixOf p.word = p := by
  cases p
  simp (disch := decide) only [Prefix.word, prefixOf, extract_append_low, extract_append_high, BitVec.extractLsb'_eq_self, Nat.reduceSub]
  simp [ofBool_beq]

theorem word_prefixOf {w : BitVec 32} (h : w.extractLsb' 0 7 = 0x7D#7) : (prefixOf w).word = w := by
  simp (disch := decide) only [Prefix.word, prefixOf, append_eq_iff, extract_extract, Nat.reduceAdd, ofBool_beq_one, and_true, true_and]
  exact h.symm

/-- An XIMM word's low bits (R97). -/
theorem low_ximmWord (x : BitVec 25) : (ximmWord x).extractLsb' 0 7 = 0x7F#7 := by
  simp (disch := decide) only [ximmWord, extract_append_low]
  rfl

@[simp] theorem payload_ximmWord (x : BitVec 25) : (ximmWord x).extractLsb' 7 25 = x := by
  simp (disch := decide) only [ximmWord, extract_append_high, BitVec.extractLsb'_eq_self, Nat.reduceSub]

theorem ximmWord_payload {w : BitVec 32} (h : w.extractLsb' 0 7 = 0x7F#7) : ximmWord (w.extractLsb' 7 25) = w := by
  simp only [ximmWord, append_eq_iff, true_and]
  exact h.symm

/-! ### Well-formed instructions -/

/-- An instruction that no bit pattern of its fields excludes by a rule of its own is well formed when its fields and its prefix are. -/
theorem wf_iff_of_eq {i : Instr} (h : i.wf = (i.fieldsOk && match i.pfx with | some p => (prefixUse i).allows p | none => true)) :
    i.wf = true ↔ i.fieldsOk = true ∧ ∀ p, i.pfx = some p → (prefixUse i).allows p = true := by
  rw [h]
  cases i.pfx <;> simp

theorem wf_of_word {i : Instr} {w : BitVec 32} (henc : encodeUnit i = some (.word w)) :
    i.wf = true ↔ i.fieldsOk = true ∧ (∀ d c st, i ≠ .nodeL d c 0 st) ∧ ∀ p, i.pfx = some p → (prefixUse i).allows p = true := by
  by_cases hnode : ∃ d c b st, i = .nodeL d c b st
  case pos =>
    obtain ⟨d, c, b, st, rfl⟩ := hnode
    have hwf : (Instr.nodeL d c b st).wf = (b != 0#6) := rfl
    have hpfx : (Instr.nodeL d c b st).pfx = none := rfl
    have hfields : (Instr.nodeL d c b st).fieldsOk = true := rfl
    rw [hwf, hpfx, hfields]
    simp only [bne_iff_ne, ne_eq, reduceCtorEq, IsEmpty.forall_iff, implies_true, and_true, true_and, Instr.nodeL.injEq]
    exact ⟨fun hb _ _ _ he => hb he.2.2.1, fun h hb => h d c st ⟨rfl, rfl, hb, rfl⟩⟩
  case neg =>
    have hne : ∀ d c st, i ≠ .nodeL d c 0 st := fun d c st he => hnode ⟨d, c, 0, st, he⟩
    suffices i.wf = (i.fieldsOk && match i.pfx with | some p => (prefixUse i).allows p | none => true) by
      rw [wf_iff_of_eq this]
      exact ⟨fun ⟨hf, hp⟩ => ⟨hf, hne, hp⟩, fun ⟨hf, _, hp⟩ => ⟨hf, hp⟩⟩
    cases i
    case nodeL d c b st => exact absurd ⟨d, c, b, st, rfl⟩ hnode
    all_goals first
      | (cases henc; done)
      | rfl

theorem parcel_ne_zero {b : BitVec 5} {d : BitVec 6} {k : BitVec 5} (hk : k ≠ 0#5) : b ++ d ++ k ≠ 0#16 := by
  rw [Ne, append_eq_iff]
  exact fun he => hk he.2

theorem wf_of_parcel {i : Instr} {h : BitVec 16} (henc : encodeUnit i = some (.parcel h)) : i.wf = true ↔ h ≠ 0#16 := by
  by_cases hadd : ∃ d b, i = .vaddF32Compact d b
  case pos =>
    obtain ⟨d, b, rfl⟩ := hadd
    cases henc
    have hwf : (Instr.vaddF32Compact d b).wf = !(d == 0#6 && b == 0#5) := rfl
    have hzero : b ++ d ++ 0#5 = 0#16 ↔ b = 0#5 ∧ d = 0#6 := by
      simp only [append_eq_iff, Nat.reduceAdd, BitVec.reduceExtractLsb', and_true]
    rw [hwf, Ne, hzero]
    simp only [Bool.not_eq_true', Bool.and_eq_false_iff, beq_eq_false_iff_ne]
    tauto
  case neg =>
    suffices i.wf = true ∧ h ≠ 0#16 from iff_of_true this.1 this.2
    cases i
    case vaddF32Compact d b => exact absurd ⟨d, b, rfl⟩ hadd
    all_goals first
      | exact (word_ne_parcel henc).elim
      | exact (Option.some_ne_none _ henc.symm).elim
      | (cases henc
         exact ⟨rfl, parcel_ne_zero (by decide)⟩)

theorem pfx_ext_of_parcel {i : Instr} {h : BitVec 16} (henc : encodeUnit i = some (.parcel h)) : i.pfx = none ∧ i.ext = none := by
  cases i
  all_goals first
    | exact (word_ne_parcel henc).elim
    | exact (Option.some_ne_none _ henc.symm).elim
    | exact ⟨rfl, rfl⟩

theorem encodeUnit_isSome_of_wf {i : Instr} (h : i.wf = true) : (encodeUnit i).isSome = true := by
  cases i
  all_goals first
    | rfl
    | cases h

theorem takesPrefix_major {i : Instr} (h : i.pfx.isSome = true) : takesPrefix i.major = true := by
  cases i
  all_goals first
    | rfl
    | cases h

theorem takesExt_major {i : Instr} (h : i.ext.isSome = true) : takesExt i.major = true := by
  cases i
  all_goals first
    | rfl
    | cases h

/-! ### Decoding and encoding -/

theorem encode_eq {i : Instr} {p : Option Prefix} {x : Option (BitVec 25)} {c : Code} (henc : encodeUnit i = some c) (hp : i.pfx = p)
    (hx : i.ext = x) : encode i = p.elim [] (fun p => bytes32 p.word) ++ x.elim [] (fun x => bytes32 (ximmWord x)) ++ c.bytes := by
  simp only [encode, henc, hp, hx]
  cases p <;> cases x <;> rfl

theorem map_rest_eq_ok {e : Except Reject Instr} {i : Instr} {r r' : List Byte} :
    e.map (·, r') = .ok (i, r) ↔ e = .ok i ∧ r' = r := by
  cases e <;> simp [Except.map]

theorem code_word {w : BitVec 32} (htag : w.extractLsb' 0 1 = 1#1) (r : List Byte) : code (bytes32 w ++ r) = some (.word w, r) :=
  code_eq_some.2 ⟨rfl, htag⟩

/-- A word with nothing before it (R92). -/
theorem decodeUnder_none {w first : BitVec 32} (hp : majorOf w ≠ 0x3E) (hx : majorOf w ≠ 0x3F) :
    decodeUnder first none none (.word w) = (decodeWord w none none).bind (fieldsOk w) := by
  simp only [decodeUnder, hp, hx, or_self, if_false, Option.map_none]
  cases decodeWord w none none with
  | error e => rfl
  | ok i =>
    simp only [Except.bind]
    cases fieldsOk w i <;> simp

/-- What a sequence's last word is read as, behind what stands before it (R92, R93, R99). -/
theorem decodeUnder_eq_ok {first : BitVec 32} {pw : Option (BitVec 32)} {x : Option (BitVec 25)} {c : Code} {i : Instr}
    (htag : c.Tagged) : decodeUnder first pw x c = .ok i ↔
      i.wf = true ∧ (∃ w, c = .word w ∧ encodeUnit i = some (.word w)) ∧ i.pfx = pw.map prefixOf ∧ i.ext = x := by
  cases c with
  | parcel h =>
    simp only [decodeUnder]
    split <;> simp
  | word w =>
    simp only [Code.word.injEq, exists_eq_left']
    constructor
    · intro h
      simp only [decodeUnder] at h
      split at h
      case isTrue => cases h
      case isFalse hmajor =>
        split at h
        case h_1 => cases h
        case h_2 j hword =>
          obtain ⟨henc, hnode, hp, hx⟩ := (decodeWord_eq_ok htag).1 hword
          have hm : j.major = majorOf w := (major_of_encodeUnit henc).symm
          rw [hm] at hp hx
          by_cases hfields : j.fieldsOk = true
          case neg => simp [fieldsOk, hfields] at h
          case pos =>
            simp only [fieldsOk, hfields, if_true] at h
            split at h
            case isTrue => cases h
            case isFalse hext =>
              have hx' : j.ext = x := by
                rw [hx]
                cases x with
                | none => simp
                | some _ => simpa using hext
              cases pw with
              | none =>
                cases h
                have hp' : i.pfx = none := by simpa using hp
                exact ⟨(wf_of_word henc).2 ⟨hfields, hnode, by simp [hp']⟩, henc, hp', hx'⟩
              | some v =>
                simp only at h
                split at h
                case isTrue => cases h
                case isFalse hpfx =>
                  split at h
                  case isFalse => cases h
                  case isTrue hallow =>
                    cases h
                    have hp' : i.pfx = some (prefixOf v) := by
                      rw [hp]
                      simpa using hpfx
                    exact ⟨(wf_of_word henc).2 ⟨hfields, hnode, by simpa [hp'] using hallow⟩, henc, hp', hx'⟩
    · rintro ⟨hwf, henc, hp, hx⟩
      obtain ⟨hfields, hnode, hallow⟩ := (wf_of_word henc).1 hwf
      have hm : majorOf w = i.major := major_of_encodeUnit henc
      have hnames : namesInstr (majorOf w) = true := by rw [hm]; exact namesInstr_major henc
      have hmajor : ¬ (majorOf w = 0x3E ∨ majorOf w = 0x3F) := by
        rintro (he | he) <;> (rw [he] at hnames; cases hnames)
      have hext : x.isSome = true → takesExt (majorOf w) = true := by
        rw [hm, ← hx]; exact takesExt_major
      have hpfx : pw.isSome = true → takesPrefix (majorOf w) = true := fun h => by
        rw [hm]
        exact takesPrefix_major (by rw [hp]; simpa using h)
      have hword : decodeWord w (pw.map prefixOf) x = .ok i := by
        refine decodeWord_of_inWord ⟨henc, hnode, ?_, ?_⟩ <;> rw [← hm]
        · cases pw with
          | none => simpa using hp
          | some v => rw [hpfx rfl]; exact hp
        · cases x with
          | none => simpa using hx
          | some y => rw [hext rfl]; exact hx
      have hext' : ¬ (x.isSome = true ∧ ¬ takesExt (majorOf w) = true) := fun h => h.2 (hext h.1)
      simp only [decodeUnder, if_neg hmajor, hword, fieldsOk, hfields, if_true, if_neg hext']
      cases pw with
      | none => rfl
      | some v =>
        have hallow' := hallow _ hp
        simp [hpfx rfl, hallow']

/-- A prefix or an extension begins with the majors of its word (R92). -/
theorem decode_of_decode_eq_ok {bs r : List Byte} {i : Instr} (h : decode bs = .ok (i, r)) : i.wf = true ∧ bs = encode i ++ r := by
  unfold decode at h
  split at h
  case h_1 => cases h
  case h_2 p r1 hcode =>
    obtain ⟨rfl, htag⟩ := code_eq_some.1 hcode
    obtain ⟨hdec, rfl⟩ := map_rest_eq_ok.1 h
    obtain ⟨henc, hne⟩ := (decodeCompact_eq_ok htag).1 hdec
    obtain ⟨hp, hx⟩ := pfx_ext_of_parcel henc
    exact ⟨(wf_of_parcel henc).2 hne, by rw [encode_eq henc hp hx]; rfl⟩
  case h_3 w r1 hcode =>
    obtain ⟨rfl, htag⟩ := code_eq_some.1 hcode
    split at h
    case isTrue hpfx =>
      have hw := word_prefixOf (low_of_majorOf htag hpfx)
      split at h
      case h_1 => cases h
      case h_2 v r2 hcode2 =>
        obtain ⟨rfl, htag2⟩ := code_eq_some.1 hcode2
        split at h
        case isTrue hext =>
          have hv := ximmWord_payload (low_of_majorOf htag2 hext)
          split at h
          case h_1 => cases h
          case h_2 c r3 hcode3 =>
            obtain ⟨rfl, htag3⟩ := code_eq_some.1 hcode3
            obtain ⟨hdec, rfl⟩ := map_rest_eq_ok.1 h
            obtain ⟨hwf, ⟨u, rfl, henc⟩, hp, hx⟩ := (decodeUnder_eq_ok htag3).1 hdec
            refine ⟨hwf, ?_⟩
            rw [encode_eq henc hp hx]
            simp [Code.bytes, hw, hv]
        case isFalse hext =>
          obtain ⟨hdec, rfl⟩ := map_rest_eq_ok.1 h
          obtain ⟨hwf, ⟨u, hu, henc⟩, hp, hx⟩ := (decodeUnder_eq_ok htag2).1 hdec
          cases hu
          refine ⟨hwf, ?_⟩
          rw [encode_eq henc hp hx]
          simp [Code.bytes, hw]
      case h_3 c r2 hnot hcode2 =>
        obtain ⟨rfl, htag2⟩ := code_eq_some.1 hcode2
        obtain ⟨hdec, rfl⟩ := map_rest_eq_ok.1 h
        obtain ⟨hwf, ⟨u, rfl, henc⟩, hp, hx⟩ := (decodeUnder_eq_ok htag2).1 hdec
        exact absurd rfl (hnot u)
    case isFalse hpfx =>
      split at h
      case isTrue hext =>
        have hw := ximmWord_payload (low_of_majorOf htag hext)
        split at h
        case h_1 => cases h
        case h_2 c r2 hcode2 =>
          obtain ⟨rfl, htag2⟩ := code_eq_some.1 hcode2
          obtain ⟨hdec, rfl⟩ := map_rest_eq_ok.1 h
          obtain ⟨hwf, ⟨u, rfl, henc⟩, hp, hx⟩ := (decodeUnder_eq_ok htag2).1 hdec
          refine ⟨hwf, ?_⟩
          rw [encode_eq henc hp hx]
          simp [Code.bytes, hw]
      case isFalse hext =>
        rw [← decodeUnder_none (first := w) hpfx hext] at h
        obtain ⟨hdec, rfl⟩ := map_rest_eq_ok.1 h
        obtain ⟨hwf, ⟨u, hu, henc⟩, hp, hx⟩ := (decodeUnder_eq_ok (c := .word w) htag).1 hdec
        cases hu
        refine ⟨hwf, ?_⟩
        rw [encode_eq henc hp hx]
        simp [Code.bytes]

theorem decode_word {w : BitVec 32} {i : Instr} (hwf : i.wf = true) (henc : encodeUnit i = some (.word w)) (r : List Byte) :
    decode (encode i ++ r) = .ok (i, r) := by
  have htag : w.extractLsb' 0 1 = 1#1 := tagged_of_encodeUnit henc
  have hnames : namesInstr (majorOf w) = true := by rw [← namesInstr_major henc, ← major_of_encodeUnit henc]; rfl
  have hpfx : majorOf w ≠ 0x3E := fun he => by rw [he] at hnames; cases hnames
  have hext : majorOf w ≠ 0x3F := fun he => by rw [he] at hnames; cases hnames
  have hpword (p : Prefix) : majorOf p.word = 0x3E := majorOf_of_low p.low_word
  have hptag (p : Prefix) : p.word.extractLsb' 0 1 = 1#1 := tag_of_low p.low_word
  have hxword (x : BitVec 25) : majorOf (ximmWord x) = 0x3F := majorOf_of_low (low_ximmWord x)
  have hxtag (x : BitVec 25) : (ximmWord x).extractLsb' 0 1 = 1#1 := tag_of_low (low_ximmWord x)
  have hdec {first : BitVec 32} {pw : Option (BitVec 32)} (hp : i.pfx = pw.map prefixOf) :
      decodeUnder first pw i.ext (.word w) = .ok i :=
    (decodeUnder_eq_ok (c := .word w) htag).2 ⟨hwf, ⟨w, rfl, henc⟩, hp, rfl⟩
  rw [encode_eq henc rfl rfl]
  cases hp : i.pfx with
  | none =>
    have hdec := fun first => hdec (first := first) (pw := none) hp
    cases hx : i.ext with
    | none =>
      rw [hx] at hdec
      simp only [Option.elim, List.nil_append, Code.bytes, decode, code_word htag, if_neg hpfx, if_neg hext,
        ← decodeUnder_none (first := w) hpfx hext, hdec, Except.map]
    | some x =>
      rw [hx] at hdec
      simp [Code.bytes, decode, code_word htag, code_word (hxtag x), hxword, hdec, Except.map]
  | some p =>
    have hdec := fun first => hdec (first := first) (pw := some p.word) (by simpa using hp)
    cases hx : i.ext with
    | none =>
      rw [hx] at hdec
      simp [Code.bytes, decode, code_word htag, code_word (hptag p), hpword, hext, hdec, Except.map]
    | some x =>
      rw [hx] at hdec
      simp [Code.bytes, decode, code_word htag, code_word (hptag p), code_word (hxtag x), hpword, hxword, hdec, Except.map]

/-- Settles O43: a sequence is read word by word, each as the table of its major reads it. -/
theorem decodeEncode : Obligations.DecodeEncode := by
  intro i r hwf
  obtain ⟨c, henc⟩ := Option.isSome_iff_exists.1 (encodeUnit_isSome_of_wf hwf)
  cases c with
  | word w => exact decode_word hwf henc r
  | parcel h =>
    obtain ⟨hp, hx⟩ := pfx_ext_of_parcel henc
    have htag : h.extractLsb' 0 1 = 0#1 := tagged_of_encodeUnit henc
    have hcode : code ((Code.parcel h).bytes ++ r) = some (.parcel h, r) := code_eq_some.2 ⟨rfl, htag⟩
    have hdec := (decodeCompact_eq_ok htag).2 ⟨henc, (wf_of_parcel henc).1 hwf⟩
    rw [encode_eq henc hp hx]
    simp only [Option.elim, List.nil_append, decode, hcode, hdec, Except.map]

/-- Settles O44: each row of the table takes a word only with every bit outside its fields as the encoding has it. -/
theorem encodeDecode : Obligations.EncodeDecode := fun _ _ _ h => decode_of_decode_eq_ok h

end Sys2Proof

end

section
/-!
What an issue leaves (spec/06_encoding.md R91, spec/19_accounting.md R272): no agent comes or goes by it, and its own goes on.
-/

namespace Sys2Proof

open Sys2Proof.Machine

theorem alive_of_tables {s t : State} (hg : t.groups = s.groups) (ht : t.threads = s.threads) (b : Agent) : t.alive b = s.alive b := by
  cases b <;> simp [State.alive, State.group, State.thread, hg, ht]

/-- An agent stands while its group's splits, or its thread's context, do. -/
theorem alive_modGroup (s : State) (g : Nat) (f : Group → Group)
    (h : ∀ x k, (tabFind (f x).splits k).isSome = (tabFind x.splits k).isSome) (b : Agent) : (s.modGroup g f).alive b = s.alive b := by
  cases b with
  | split i k => exact State.group_modGroup_proj s g i f (fun x => (tabFind x.splits k).isSome) (fun x => h x k)
  | thread t => rfl

theorem isSome_tabMod {α : Type} (t : Tab α) (k l : Nat) (f : α → α) : (tabFind (tabMod t k f) l).isSome = (tabFind t l).isSome := by
  by_cases h : l = k
  · simp [h]
  · rw [tabFind_tabMod_other t k l f h]

theorem alive_modSplit (s : State) (g k : Nat) (f : Split → Split) (b : Agent) : (s.modSplit g k f).alive b = s.alive b :=
  alive_modGroup s g _ (fun x l => isSome_tabMod x.splits k l f) b

theorem alive_modThread (s : State) (t : Nat) (f : Thread → Thread) (h : ∀ x, (f x).ctx = x.ctx) (b : Agent) :
    (s.modThread t f).alive b = s.alive b := by
  cases b with
  | split g k => rfl
  | thread i => exact congrArg Option.isSome (State.thread_modThread_proj s t i f Thread.ctx h)

theorem alive_modStrand (s : State) (a : Agent) (f : Strand → Strand) (b : Agent) : (s.modStrand a f).alive b = s.alive b := by
  cases a with
  | split g k => exact alive_modSplit s g k _ b
  | thread t => exact alive_modThread s t _ (by intro; rfl) b

theorem alive_modUnit (s : State) (u : Nat) (f : CoreUnit → CoreUnit) (b : Agent) : (s.modUnit u f).alive b = s.alive b :=
  alive_of_tables (by simp) (by simp) b

theorem alive_useSlot (s : State) (a : Agent) (pc : Word) (c : Cause) (b : Agent) : (s.useSlot a pc c).alive b = s.alive b := by
  unfold State.useSlot
  split
  extract_lets s1 s2 s3 s4
  have h2 : s2.alive b = s.alive b := (alive_modUnit s1 _ _ b).trans (alive_of_tables (by simp [s1]) (by simp [s1]) b)
  have h4 : s4.alive b = s.alive b := (alive_modStrand s2 a _ b).trans h2
  clear_value s4
  cases a <;> exact h4

theorem alive_drawn (s : State) (a : Agent) (d : Draw) (m : Mask) (b : Agent) : (s.drawn a d m).alive b = s.alive b := by
  cases a with
  | thread t => rfl
  | split g k =>
    simp only [State.drawn, alive_modSplit]
    split <;> rfl

theorem alive_tPend (s : State) (a : Agent) (new : List Pending) (b : Agent) : (s.tPend a new).alive b = s.alive b := by
  unfold State.tPend
  split
  · rfl
  · split
    · rfl
    · cases a with
      | split g k => rfl
      | thread t => exact alive_modThread s t _ (by intro; rfl) b

/-- An agent that stands is where it is put. -/
theorem strand_modStrand_self (s : State) (a : Agent) (f : Strand → Strand) (h : s.alive a = true) :
    (s.modStrand a f).strand a = f (s.strand a) := by
  cases a with
  | split g k => exact congrArg Split.strand (splitOf_modSplit_self s g k _ h)
  | thread t => simp [State.modStrand, State.strand]

section
variable (s : State) (n : Need) (c : Ctx) (pc : Word)

/-- An issue ends with its agent's place, set on a state in which the same agents stand. -/
theorem retire_eq_modStrand : ∃ t : State, (∀ b, t.alive b = s.alive b) ∧
    s.retire n c pc = t.modStrand c.a (fun x => { x with pc := pc, park := none }) := by
  unfold State.retire
  extract_lets a s1 s2 s3 until_ new upd s4 s5 s6
  refine ⟨s6, fun b => ?_, rfl⟩
  have h3 : s3.alive b = s.alive b := by
    rw [alive_drawn, alive_useSlot]
    exact alive_of_tables (by simp [s1]) (by simp [s1]) b
  have h4 : s4.alive b = s3.alive b := by
    clear_value a
    cases a with
    | split g k => exact alive_modGroup s3 g _ (by intros; rfl) b
    | thread t => exact alive_modThread s3 t _ (by intro; rfl) b
  rw [alive_modUnit, alive_tPend, h4, h3]

theorem alive_retire (b : Agent) : (s.retire n c pc).alive b = s.alive b := by
  obtain ⟨t, ht, he⟩ := retire_eq_modStrand s n c pc
  rw [he, alive_modStrand, ht]

theorem strand_retire_self (h : s.alive c.a = true) : ((s.retire n c pc).strand c.a).pc = pc ∧
    ((s.retire n c pc).strand c.a).park = none := by
  obtain ⟨t, ht, he⟩ := retire_eq_modStrand s n c pc
  rw [he, strand_modStrand_self t c.a _ ((ht c.a).trans h)]
  exact ⟨rfl, rfl⟩

end

/-- Settles O49: what an issue leaves is a frame (`SameRegs.retire`) that ends with its agent's place. -/
theorem issueLeaves : Obligations.IssueLeaves := by
  intro t n c pc h v
  have hframe : SameRegs t v := SameRegs.retire t n c pc
  obtain ⟨hpc, hpark⟩ := strand_retire_self t n c pc h
  exact ⟨hframe, hpc, hpark, retire_issued t n c pc, (alive_retire t n c pc c.a).trans h, hframe.sget c.a⟩

end Sys2Proof
end

section
/-!
Scalar and mask registers read back (spec/03_execution.md R35, R46, spec/07_assembly.md R105, R106).
-/

namespace Sys2Proof

open Sys2Proof.Machine

/-- A part of EXEC that is written holds the new lanes, the other two hold theirs. -/
theorem extract_maskPart (m : Mask) (w : Lane) {i j : Nat} (hi : i < 3) (hj : j < 3) :
    (maskPart m i w).extractLsb' (32 * j) 32 = if j = i then w else m.extractLsb' (32 * j) 32 := by
  have hones : (0xFFFFFFFF : Mask) = (BitVec.allOnes 32).setWidth 96 := by decide
  ext b hb
  have hbit : 32 * j + b < 96 := by omega
  simp only [maskPart, BitVec.getElem_extractLsb', BitVec.getLsbD_or, BitVec.getLsbD_and, BitVec.getLsbD_not, BitVec.getLsbD_shiftLeft,
    BitVec.getLsbD_setWidth, BitVec.getLsbD_allOnes, hones, hbit, decide_true, Bool.true_and]
  by_cases hij : j = i
  · subst hij
    have hlow : b < 96 := by omega
    simp [hb, hbit, hlow]
  · by_cases hlt : j < i
    · have h : 32 * j + b < 32 * i := by omega
      simp [hij, h]
    · have h : ¬ 32 * j + b < 32 * i := by omega
      have h' : ¬ 32 * j + b - 32 * i < 32 := by omega
      have hw : w.getLsbD (32 * j + b - 32 * i) = false := BitVec.getLsbD_of_ge _ _ (by omega)
      simp [hij, h, hw]
      omega

/-- A part of a scalar register's low half (R35). -/
theorem setWidth_and_not (x y : Lane) : (x &&& ~~~y).setWidth 64 = x.setWidth 64 &&& ~~~(y.setWidth 64) := by
  ext b hb
  have hx (h : ¬b < 32) : x.getLsbD b = false := BitVec.getLsbD_of_ge x b (by omega)
  by_cases h : b < 32
  · simp [h]
  · simp [h, hx h]

section
variable {s : State}

theorem sget_zero (s : State) (a : Agent) : s.sget a 0 = 0 := by simp [State.sget]

/-- A register's number that is not one of EXEC's parts is written in the table, and the others stay. -/
theorem sget_sput_other {a : Agent} {r q : Nat} (v : Word) (hex : a.isThread = true ∨ ¬(60 ≤ r ∧ r ≤ 62)) (hq : q ≠ r) :
    (s.sput a r v).sget a q = s.sget a q := by
  by_cases hr : r = 0
  · simp [State.sput, hr]
  cases a with
  | split g k =>
    have hex : ¬(60 ≤ r ∧ r ≤ 62) := hex.resolve_left Bool.false_ne_true
    have hs : tabGet ((s.modGroup g (fun x => { x with s := tabPut x.s r v })).group g).s q 0 = tabGet (s.group g).s q 0 :=
      State.group_modGroup_proj s g g _ (fun x => tabGet x.s q 0) (fun x => tabGet_tabPut_other x.s r q v 0 hq)
    have hx : (s.modGroup g (fun x => { x with s := tabPut x.s r v })).splitOf g k = s.splitOf g k :=
      State.group_modGroup_proj s g g _ (fun x => tabGet x.splits k Split.blank) (fun _ => rfl)
    simp only [State.sput, if_neg hr, if_neg hex, State.sget, hs, hx]
  | thread t =>
    simp [State.sput, hr, State.sget, tabGet_tabPut_other _ _ _ _ _ hq]

theorem exMask_sput {a : Agent} {r : Nat} (v : Word) (hex : a.isThread = true ∨ ¬(60 ≤ r ∧ r ≤ 62)) :
    (s.sput a r v).exMask a = s.exMask a := by
  unfold State.sput
  split
  · rfl
  · cases a with
    | split g k =>
      have hex : ¬(60 ≤ r ∧ r ≤ 62) := hex.resolve_left Bool.false_ne_true
      simp only [if_neg hex]
      exact State.group_modGroup_proj s g g _ (fun x => (tabGet x.splits k Split.blank).ex) (fun _ => rfl)
    | thread t => rfl

/-- A part of EXEC written is a write of its split's EXEC. -/
theorem sput_exec (s : State) (g k i : Nat) (v : Word) (hi : i < 3) : s.sput (.split g k) (60 + i) v =
    s.modGroup g (fun x => { x with
      splits := tabMod x.splits k (fun y => { y with ex := maskPart y.ex i (v.setWidth 32) &&& ~~~x.retired }) }) := by
  have h0 : ¬ 60 + i = 0 := by omega
  have hex : 60 ≤ 60 + i ∧ 60 + i ≤ 62 := by omega
  have hsub : 60 + i - 60 = i := by omega
  simp only [State.sput, if_neg h0, if_pos hex, hsub]

theorem sget_exec (s : State) (g k j : Nat) (hj : j < 3) :
    s.sget (.split g k) (60 + j) = ((s.splitOf g k).ex.extractLsb' (32 * j) 32).setWidth 64 := by
  have h0 : ¬ 60 + j = 0 := by omega
  have hex : 60 ≤ 60 + j ∧ 60 + j ≤ 62 := by omega
  have hsub : 60 + j - 60 = j := by omega
  simp only [State.sget, if_neg h0, if_pos hex, hsub]

/-- EXEC after a write of one of its parts: the lanes that have retired stay out (R46). -/
theorem ex_sput_exec {g k i : Nat} (v : Word) (halive : s.alive (.split g k) = true) (hi : i < 3) :
    ((s.sput (.split g k) (60 + i) v).splitOf g k).ex =
      maskPart (s.splitOf g k).ex i (v.setWidth 32) &&& ~~~(s.group g).retired := by
  obtain ⟨x, hx⟩ := Option.isSome_iff_exists.1 halive
  rw [sput_exec s g k i v hi]
  simp only [State.splitOf, State.group_modGroup_self s g _ (groups_isSome_of_alive halive)]
  simp [tabGet, hx]

theorem sget_sput_exec {g k i j : Nat} (v : Word) (halive : s.alive (.split g k) = true) (hi : i < 3) (hj : j < 3) :
    (s.sput (.split g k) (60 + i) v).sget (.split g k) (60 + j) =
      ((if j = i then v.setWidth 32 else (s.splitOf g k).ex.extractLsb' (32 * j) 32) &&&
        ~~~((s.group g).retired.extractLsb' (32 * j) 32)).setWidth 64 := by
  have hnot : (~~~(s.group g).retired).extractLsb' (32 * j) 32 = ~~~((s.group g).retired.extractLsb' (32 * j) 32) := by
    ext b hb
    have hbit : 32 * j + b < 96 := by omega
    simp [hbit]
  rw [sget_exec _ g k j hj, ex_sput_exec v halive hi, BitVec.extractLsb'_and, extract_maskPart _ _ hi hj, hnot]

theorem sget_sput_exec_other {g k i q : Nat} (v : Word) (hi : i < 3) (hq : q < 60 ∨ q = 63) :
    (s.sput (.split g k) (60 + i) v).sget (.split g k) q = s.sget (.split g k) q := by
  have hex : ¬(60 ≤ q ∧ q ≤ 62) := by omega
  rw [sput_exec s g k i v hi]
  have hs : ∀ f : Group → Group, (∀ x, (f x).s = x.s) → ((s.modGroup g f).group g).s = (s.group g).s :=
    fun f hf => State.group_modGroup_proj s g g f Group.s hf
  simp only [State.sget, if_neg hex]
  rw [hs _ (by intro; rfl)]

theorem exMask_sput_exec_other {g k i h l : Nat} (v : Word) (hi : i < 3) (hne : Agent.split h l ≠ .split g k) :
    (s.sput (.split g k) (60 + i) v).exMask (.split h l) = s.exMask (.split h l) := by
  rw [sput_exec s g k i v hi]
  by_cases hg : h = g
  · subst hg
    have hl : l ≠ k := fun e => hne (by rw [e])
    exact State.group_modGroup_proj s h h _ (fun x => (tabGet x.splits l Split.blank).ex)
      (fun x => by rw [tabGet_tabMod_other _ _ _ _ _ hl])
  · simp only [State.exMask, State.splitOf, State.group_modGroup_other s g h _ hg]

theorem kget_kput_self {g r : Nat} (m : Mask) (hg : (tabFind s.groups g).isSome = true) (hr : 0 < r) : (s.kput g r m).kget g r = m := by
  have hr : r ≠ 0 := by omega
  simp [State.kput, State.kget, hr, State.group_modGroup_self s g _ hg]

theorem kget_kput_other {g r h q : Nat} (m : Mask) (hne : h ≠ g ∨ q ≠ r) : (s.kput g r m).kget h q = s.kget h q := by
  unfold State.kput
  split
  · rfl
  · unfold State.kget
    split
    · rfl
    · rcases hne with hg | hq
      · rw [State.group_modGroup_other s g h _ hg]
      · exact State.group_modGroup_proj s g h _ (fun x => tabGet x.k q 0) (fun x => tabGet_tabPut_other x.k r q m 0 hq)

/-- A mask register written keeps or clears the lanes that are not active (R99). -/
theorem getLsbD_kwrite {g d i : Nat} (act m : Mask) (z : Bool) (hg : (tabFind s.groups g).isSome = true) (hd : 0 < d) (hi : i < 96) :
    ((s.kwrite g d act z m).kget g d).getLsbD i = if act.getLsbD i then m.getLsbD i else !z && (s.kget g d).getLsbD i := by
  rw [State.kwrite, kget_kput_self _ hg hd]
  rw [BitVec.getLsbD_eq_getElem hi]
  cases z <;> cases hact : act[i] <;> simp [hact, hi]

end

/-- Settles O50: each register file is a table, read where it was written (`sget_sput_self`, `kget_kput_self`) or elsewhere; the parts of
EXEC are fields of one mask (`extract_maskPart`). -/
theorem scalarRegistersHold : Obligations.ScalarRegistersHold := by
  refine ⟨fun s a v => ⟨sget_zero s a, by simp [State.sput]⟩, fun s a r v halive hr _ hex => ?_, fun s g k i v halive hi => ?_,
    fun s g r m => ⟨by simp [State.kget, allOnes96], by simp [State.kput], fun hg hr => ?_⟩, fun s g d act m z i hg hd hi => ?_⟩
  · exact ⟨sget_sput_self v halive (by omega) hex, fun q hq => sget_sput_other v hex hq, by simp, exMask_sput v hex⟩
  · refine ⟨?_, fun j hj hne => ?_, fun q hq => sget_sput_exec_other v hi hq, fun h l hne => exMask_sput_exec_other v hi hne⟩
    · rw [sget_sput_exec v halive hi hi, if_pos rfl]
    · rw [sget_sput_exec v halive hi hj, if_neg hne, setWidth_and_not, sget_exec s g k j hj]
  · exact ⟨kget_kput_self m hg hr, fun h q hne => kget_kput_other m hne⟩
  · exact getLsbD_kwrite act m z hg hd hi

end Sys2Proof
end

section
/-!
Vector registers read back, lane by lane, and the flags a split gathers (spec/00_scope.md R3, spec/02_formats.md R22, spec/06_encoding.md
R98).
-/

namespace Sys2Proof

open Sys2Proof.Machine

section
variable (s : State) (g r : Nat) (v : List Lane)

theorem vget_vput_other {h q : Nat} (hne : h ≠ g ∨ q ≠ r) : (s.vput g r v).vget h q = s.vget h q := by
  rcases hne with hg | hq
  · simp only [State.vget, State.vput, State.group_modGroup_other s g h _ hg]
  · exact State.group_modGroup_proj s g h _ (fun x => tabGet x.v q (List.replicate 96 0)) (fun x => tabGet_tabPut_other x.v r q v _ hq)

theorem kget_vput (h q : Nat) : (s.vput g r v).kget h q = s.kget h q := by
  unfold State.kget
  split
  · rfl
  · exact State.group_modGroup_proj s g h _ (fun x => tabGet x.k q 0) (fun _ => rfl)

theorem splitOf_vput (h l : Nat) : (s.vput g r v).splitOf h l = s.splitOf h l :=
  State.group_modGroup_proj s g h _ (fun x => tabGet x.splits l Split.blank) (fun _ => rfl)

theorem alive_vput (a : Agent) : (s.vput g r v).alive a = s.alive a := by
  cases a with
  | split h l => exact State.group_modGroup_proj s g h _ (fun x => (tabFind x.splits l).isSome) (fun _ => rfl)
  | thread t => rfl

end

section
variable (s : State) (a : Agent) (f : FFlags)

/-- A split's flags are its own. -/
theorem groupOf_raiseFlags {β : Type} (p : Group → β) (h : ∀ x y, p { x with splits := y } = p x) (g : Nat) :
    p ((s.raiseFlags a f).group g) = p (s.group g) := by
  cases a with
  | split i k => exact State.group_modGroup_proj s i g _ p (fun x => h x _)
  | thread t => rfl

theorem vget_raiseFlags (g r : Nat) : (s.raiseFlags a f).vget g r = s.vget g r :=
  groupOf_raiseFlags s a f (fun x => tabGet x.v r (List.replicate 96 0)) (fun _ _ => rfl) g

theorem kget_raiseFlags (g r : Nat) : (s.raiseFlags a f).kget g r = s.kget g r := by
  unfold State.kget
  split
  · rfl
  · exact groupOf_raiseFlags s a f (fun x => tabGet x.k r 0) (fun _ _ => rfl) g

theorem splitOf_raiseFlags_self {g k : Nat} (h : s.alive (.split g k) = true) :
    (s.raiseFlags (.split g k) f).splitOf g k = { s.splitOf g k with flags := (s.splitOf g k).flags ||| f } :=
  splitOf_modSplit_self s g k _ h

end

/-- Another split of the group, or of another, is not changed. -/
theorem splitOf_modSplit_other (s : State) {g k h l : Nat} (f : Split → Split) (hne : Agent.split h l ≠ .split g k) :
    (s.modSplit g k f).splitOf h l = s.splitOf h l := by
  by_cases hg : h = g
  · subst hg
    have hl : l ≠ k := fun e => hne (by rw [e])
    exact State.group_modGroup_proj s h h _ (fun x => tabGet x.splits l Split.blank) (fun x => tabGet_tabMod_other _ _ _ _ _ hl)
  · simp only [State.splitOf, State.modSplit, State.group_modGroup_other s g h _ hg]

/-- A flag gathered from a list is one that something in it raises. -/
theorem getLsbD_foldl_or {α : Type} (xs : List α) (p : α → FFlags) (m : FFlags) (b : Nat) :
    (xs.foldl (fun m x => m ||| p x) m).getLsbD b = (m.getLsbD b || xs.any (fun x => (p x).getLsbD b)) := by
  induction xs generalizing m with
  | nil => simp
  | cons x xs ih => simp [ih, Bool.or_assoc]

section
variable (s : State) (a : Agent) (d : Nat) (act : Mask) (z : Bool) (f : Nat → Lane × FFlags)

/-- The flags that the active lanes of a write raise. -/
def lanesFlags : FFlags :=
  ((List.range 96).map (fun i => if act.getLsbD i then f i else (if z then 0 else lane (s.vget a.groupNo d) i, (0 : FFlags)))).foldl
    (fun m x => m ||| x.2) 0

theorem getLsbD_lanesFlags (b : Nat) :
    (lanesFlags s a d act z f).getLsbD b = (List.range 96).any (fun i => act.getLsbD i && (f i).2.getLsbD b) := by
  rw [lanesFlags, getLsbD_foldl_or, List.any_map]
  have hzero : (0 : FFlags).getLsbD b = false := BitVec.getLsbD_zero
  rw [hzero, Bool.false_or]
  congr 1
  funext i
  cases hact : act.getLsbD i <;> simp [hact]

/-- A vector write is a move of its values, with the flags they raise. -/
theorem vwrite_eq_raiseFlags :
    s.vwrite a d act z f = (s.vmove a d act z (fun i => (f i).1)).raiseFlags a (lanesFlags s a d act z f) := by
  have hlanes : ((List.range 96).map (fun i => if act.getLsbD i then f i else (if z then 0 else lane (s.vget a.groupNo d) i,
        (0 : FFlags)))).map (·.1) =
      lanes (fun i => if act.getLsbD i then (f i).1 else if z then 0 else lane (s.vget a.groupNo d) i) := by
    rw [lanes, List.map_map]
    congr 1
    funext i
    dsimp only [Function.comp]
    split <;> rfl
  simp only [State.vwrite, State.vmove, lanesFlags, hlanes]

/-- A move writes the active lanes, and keeps or zeroes the others (R98). -/
theorem lane_vmove (m : Nat → Lane) {i : Nat} (hi : i < 96) (hg : (tabFind s.groups a.groupNo).isSome = true) :
    lane ((s.vmove a d act z m).vget a.groupNo d) i =
      if act.getLsbD i then m i else if z then 0 else lane (s.vget a.groupNo d) i := by
  simp only [State.vmove]
  rw [vget_vput_self _ _ hg, lane_lanes _ hi]

end

/-- Settles O51: a vector write is a move with the flags of its lanes (`vwrite_eq_raiseFlags`), and a move is one register written. -/
theorem vectorWriteLanes : Obligations.VectorWriteLanes := by
  intro s g k d act z f halive t m
  have ht : t = m.raiseFlags (.split g k) (lanesFlags s (.split g k) d act z f) := vwrite_eq_raiseFlags s (.split g k) d act z f
  have hlane := fun i hi => lane_vmove s (.split g k) d act z (fun i => (f i).1) (i := i) hi (groups_isSome_of_alive halive)
  have hsplit : ∀ h l, m.splitOf h l = s.splitOf h l := fun h l => splitOf_vput s g d _ h l
  have hm : m.alive (.split g k) = true := (alive_vput s g d _ _).trans halive
  have hv : ∀ h r, t.vget h r = m.vget h r := fun h r => by rw [ht, vget_raiseFlags]
  refine ⟨fun i hi => ⟨?_, ?_⟩, fun h r hne => ⟨?_, ?_⟩, fun h r => ?_, ?_, hsplit g k, fun b _ => ?_, fun h l hne => ?_⟩
  · rw [hv]
    exact hlane i hi
  · rw [hv]
  · rw [hv]
    exact vget_vput_other s g d _ hne
  · exact vget_vput_other s g d _ hne
  · rw [ht, kget_raiseFlags]
    exact kget_vput s g d _ h r
  · rw [ht]
    rfl
  · rw [ht, splitOf_raiseFlags_self m _ hm, BitVec.getLsbD_or, getLsbD_lanesFlags, hsplit]
  · rw [ht, State.raiseFlags, splitOf_modSplit_other m _ hne, hsplit]

end Sys2Proof
end

section
/-!
Frames of the members whose result is one register (spec/00_scope.md R3, spec/02_formats.md R22, spec/03_execution.md R36): what the
write of a register leaves, and what the issue behind it does.
-/

namespace Sys2Proof

open Sys2Proof.Machine

/-! ### Writes of one register -/

theorem SameElsewhere.of_groups (s : State) (x : Tab Group) : SameElsewhere s { s with groups := x } :=
  ⟨rfl, rfl, ⟨rfl, rfl⟩, ⟨rfl, rfl, rfl, rfl⟩, rfl, rfl, rfl, rfl, rfl, rfl, fun _ => rfl, fun _ => rfl, fun _ => rfl⟩

theorem SameElsewhere.of_threads (s : State) (x : Tab Thread) : SameElsewhere s { s with threads := x } :=
  ⟨rfl, rfl, ⟨rfl, rfl⟩, ⟨rfl, rfl, rfl, rfl⟩, rfl, rfl, rfl, rfl, rfl, rfl, fun _ => rfl, fun _ => rfl, fun _ => rfl⟩

section
variable {a : Agent} {ss vs ks : List Nat}

theorem WritesOnly.trans {s t u : State} (h : WritesOnly a ss vs ks s t) (h' : WritesOnly a ss vs ks t u) :
    WritesOnly a ss vs ks s u where
  elsewhere := h.elsewhere.trans h'.elsewhere
  scalars b r hr := (h'.scalars b r hr).trans (h.scalars b r hr)
  vectors g r hr := (h'.vectors g r hr).trans (h.vectors g r hr)
  masks g r hr := (h'.masks g r hr).trans (h.masks g r hr)
  group g := (h'.group g).trans (h.group g)
  groups g hg := (h'.groups g hg).trans (h.groups g hg)
  splits g k hk := (h'.splits g k hk).trans (h.splits g k hk)
  own g k hk := by
    obtain ⟨hfmt, hnest, hflags⟩ := h.own g k hk
    obtain ⟨hfmt', hnest', hflags'⟩ := h'.own g k hk
    refine ⟨hfmt'.trans hfmt, hnest'.trans hnest, ?_⟩
    rw [← hflags, ← BitVec.and_assoc, hflags']
  threads i hi := (h'.threads i hi).trans (h.threads i hi)
  thread i hi := (h'.thread i hi).trans (h.thread i hi)

/-- What changes no register writes none. -/
theorem SameRegs.writesOnly {s t : State} (h : SameRegs s t) : WritesOnly a ss vs ks s t where
  elsewhere := h.elsewhere
  scalars b r _ := h.sget b r
  vectors g r _ := by
    have hv : (t.group g).v = (s.group g).v := by
      have e := congrArg Group.v (h.groups g)
      exact e
    simp only [State.vget, hv]
  masks g r _ := by
    have hk : (t.group g).k = (s.group g).k := by
      have e := congrArg Group.k (h.groups g)
      exact e
    simp only [State.kget, hk]
  group g := congrArg (fun x : Group => { x with s := [], v := [], k := [] }) (h.groups g)
  groups g _ := h.groups g
  splits g k _ := h.splits g k
  own g k _ := by
    have hfmt : (t.splitOf g k).fmt = (s.splitOf g k).fmt := by
      have e := congrArg Split.fmt (h.splits g k)
      exact e
    have hnest : (t.splitOf g k).nest = (s.splitOf g k).nest := by
      have e := congrArg Split.nest (h.splits g k)
      exact e
    have hflags : (t.splitOf g k).flags = (s.splitOf g k).flags := by
      have e := congrArg Split.flags (h.splits g k)
      exact e
    exact ⟨hfmt, hnest, by rw [hflags, BitVec.and_self]⟩
  threads i _ := h.threads i
  thread i _ := congrArg (fun x : Thread => { x with s := [] }) (h.threads i)

theorem WritesOnly.same (s : State) : WritesOnly a ss vs ks s s := (SameRegs.same s).writesOnly

/-- A change of a group's registers that leaves its splits. -/
theorem WritesOnly.modGroup (s : State) (g k : Nat) (f : Group → Group) (hs : ∀ x r, r ∉ ss → tabGet (f x).s r 0 = tabGet x.s r 0)
    (hv : ∀ x r, r ∉ vs → tabGet (f x).v r (List.replicate 96 0) = tabGet x.v r (List.replicate 96 0))
    (hk : ∀ x r, r ∉ ks → tabGet (f x).k r 0 = tabGet x.k r 0)
    (hrest : ∀ x, ({ f x with s := [], v := [], k := [] } : Group) = { x with s := [], v := [], k := [] }) :
    WritesOnly (.split g k) ss vs ks s (s.modGroup g f) := by
  have hsplits : ∀ x, (f x).splits = x.splits := fun x => by
    have e := congrArg Group.splits (hrest x)
    exact e
  have hsplit : ∀ i j, (s.modGroup g f).splitOf i j = s.splitOf i j := fun i j =>
    State.group_modGroup_proj s g i f (fun x => tabGet x.splits j Split.blank) (fun x => by rw [hsplits])
  have hother : ∀ i, inGroup (.split g k) i = false → (s.modGroup g f).group i = s.group i := fun i hi =>
    State.group_modGroup_other s g i f (fun e => by simp [inGroup, e] at hi)
  refine ⟨SameElsewhere.of_groups s _, fun b r hr => ?_, fun i r hr => ?_, fun i r hr => ?_, fun i => ?_, fun i hi => ?_, fun i j _ => ?_,
    fun i j _ => ?_, fun _ _ => rfl, fun _ _ => rfl⟩
  · cases b with
    | split i j =>
      simp only [State.sget, hsplit, State.group_modGroup_proj s g i f (fun x => tabGet x.s r 0) (fun x => hs x r hr)]
    | thread t => rfl
  · rcases hr with hi | hr
    · simp only [State.vget, hother i hi]
    · exact State.group_modGroup_proj s g i f (fun x => tabGet x.v r (List.replicate 96 0)) (fun x => hv x r hr)
  · rcases hr with hi | hr
    · simp only [State.kget, hother i hi]
    · simp only [State.kget, State.group_modGroup_proj s g i f (fun x => tabGet x.k r 0) (fun x => hk x r hr)]
  · exact State.group_modGroup_proj s g i f (fun x => groupKept { x with s := [], v := [], k := [] })
      (fun x => congrArg groupKept (hrest x))
  · rw [hother i hi]
  · rw [hsplit]
  · rw [hsplit, BitVec.and_self]
    exact ⟨rfl, rfl, rfl⟩

/-- A change of a split's EXEC or flags that loses no flag. -/
theorem WritesOnly.modSplits (s : State) (g k : Nat) (f : Group → Split → Split)
    (hex : (∀ x y, (f x y).ex = y.ex) ∨ 60 ∈ ss ∧ 61 ∈ ss ∧ 62 ∈ ss)
    (hown : ∀ x y, (f x y).fmt = y.fmt ∧ (f x y).nest = y.nest ∧ (f x y).flags &&& y.flags = y.flags) :
    WritesOnly (.split g k) ss vs ks s (s.modGroup g (fun x => { x with splits := tabMod x.splits k (f x) })) := by
  let t := s.modGroup g (fun x => { x with splits := tabMod x.splits k (f x) })
  have hproj {β : Type} (p : Group → β) (h : ∀ x y, p { x with splits := y } = p x) (i : Nat) : p (t.group i) = p (s.group i) :=
    State.group_modGroup_proj s g i _ p (fun x => h x _)
  have hsplit : ∀ i j, Agent.split i j ≠ .split g k → t.splitOf i j = s.splitOf i j := by
    intro i j hne
    by_cases hi : i = g
    · have hj : j ≠ k := fun e => hne (by rw [hi, e])
      exact State.group_modGroup_proj s g i _ (fun x => tabGet x.splits j Split.blank) (fun x => tabGet_tabMod_other _ _ _ _ _ hj)
    · simp only [t, State.splitOf, State.group_modGroup_other s g i _ hi]
  have hexec : ∀ i j r, r ∉ ss → 60 ≤ r ∧ r ≤ 62 → (t.splitOf i j).ex = (s.splitOf i j).ex := by
    intro i j r hr hpart
    rcases hex with hex | ⟨h60, h61, h62⟩
    · exact State.group_modGroup_proj s g i _ (fun x => (tabGet x.splits j Split.blank).ex)
        (fun x => tabGet_tabMod_proj x.splits k j (f x) Split.blank Split.ex (hex x))
    · have hcases : r = 60 ∨ r = 61 ∨ r = 62 := by omega
      rcases hcases with rfl | rfl | rfl <;> contradiction
  refine ⟨SameElsewhere.of_groups s _, fun b r hr => ?_, fun i r _ => ?_, fun i r _ => ?_, fun i => ?_, fun i _ => ?_, fun i j hne => ?_,
    fun i j he => ?_, fun _ _ => rfl, fun _ _ => rfl⟩
  · cases b with
    | split i j =>
      unfold State.sget
      split
      · rfl
      · dsimp only
        split
        · next hpart => rw [hexec i j r hr hpart]
        · exact hproj (fun x => tabGet x.s r 0) (fun _ _ => rfl) i
    | thread i => rfl
  · exact hproj (fun x => tabGet x.v r (List.replicate 96 0)) (fun _ _ => rfl) i
  · have h := hproj (fun x => tabGet x.k r 0) (fun _ _ => rfl) i
    simp only [State.kget]
    rw [h]
  · exact hproj (fun x => groupKept { x with s := [], v := [], k := [] }) (fun _ _ => rfl) i
  · exact hproj groupKept (fun _ _ => rfl) i
  · exact congrArg splitKept (hsplit i j hne)
  · cases he
    have h {β : Type} (p : Split → β) (hp : ∀ x y, p (f x y) = p y) : p (t.splitOf g k) = p (s.splitOf g k) :=
      State.group_modGroup_proj s g g _ (fun x => p (tabGet x.splits k Split.blank))
        (fun x => tabGet_tabMod_proj x.splits k k (f x) Split.blank p (hp x))
    refine ⟨h Split.fmt (fun x y => (hown x y).1), h Split.nest (fun x y => (hown x y).2.1), ?_⟩
    change (t.splitOf g k).flags &&& (s.splitOf g k).flags = (s.splitOf g k).flags
    cases hx : tabFind s.groups g with
    | none => simp [t, State.splitOf, State.group, State.modGroup, tabGet, tabMod, hx]
    | some x =>
      have hsplits : (t.group g).splits = tabMod (s.group g).splits k (f (s.group g)) := by
        rw [State.group_modGroup_self s g _ (by rw [hx]; rfl)]
      simp only [State.splitOf, hsplits]
      cases hy : tabFind (s.group g).splits k with
      | none => simp [tabGet, hy]
      | some y => simpa [tabGet, hy] using (hown (s.group g) y).2.2

theorem WritesOnly.raiseFlags (s : State) (a : Agent) (f : FFlags) : WritesOnly a ss vs ks s (s.raiseFlags a f) := by
  cases a with
  | split g k =>
    refine WritesOnly.modSplits s g k (fun _ y => { y with flags := y.flags ||| f }) (.inl fun _ _ => rfl) (fun _ y => ⟨rfl, rfl, ?_⟩)
    ext b hb
    simp +contextual
  | thread t => exact WritesOnly.same s

/-- The scalar registers that a write of one can change (R46, R105). -/
def written (a : Agent) (r : Nat) : List Nat := if a.isThread = false ∧ 60 ≤ r ∧ r ≤ 62 then [60, 61, 62] else [r]

theorem WritesOnly.sput (s : State) (a : Agent) (r : Nat) (v : Word) : WritesOnly a (written a r) vs ks s (s.sput a r v) := by
  by_cases hr : r = 0
  · subst hr
    exact WritesOnly.same s
  cases a with
  | split g k =>
    by_cases hex : 60 ≤ r ∧ r ≤ 62
    · have hw : written (.split g k) r = [60, 61, 62] := if_pos ⟨rfl, hex⟩
      simp only [State.sput, if_neg hr, if_pos hex, hw]
      exact WritesOnly.modSplits s g k (fun x y => { y with ex := maskPart y.ex (r - 60) (v.setWidth 32) &&& ~~~x.retired })
        (.inr (by decide)) (fun _ _ => ⟨rfl, rfl, BitVec.and_self⟩)
    · have hw : written (.split g k) r = [r] := if_neg (fun h => hex h.2)
      simp only [State.sput, if_neg hr, if_neg hex, hw]
      exact WritesOnly.modGroup s g k _ (fun x q hq => tabGet_tabPut_other x.s r q v 0 (by simpa using hq)) (fun _ _ _ => rfl)
        (fun _ _ _ => rfl) (fun _ => rfl)
  | thread t =>
    have hw : written (.thread t) r = [r] := if_neg (fun h => nomatch h.1)
    have hthread {β : Type} (p : Thread → β) (h : ∀ x y, p { x with s := y } = p x) (i : Nat) :
        p ((s.modThread t (fun x => { x with s := tabPut x.s r v })).thread i) = p (s.thread i) :=
      State.thread_modThread_proj s t i _ p (fun x => h x _)
    simp only [State.sput, if_neg hr, hw]
    refine ⟨SameElsewhere.of_threads s _, fun b q hq => ?_, fun _ _ _ => rfl, fun _ _ _ => rfl, fun _ => rfl, fun _ _ => rfl,
      fun _ _ _ => rfl, fun _ _ _ => ⟨rfl, rfl, BitVec.and_self⟩, fun i hi => ?_, fun i hi => ?_⟩
    · cases b with
      | split g k => rfl
      | thread i =>
        have h := State.thread_modThread_proj s t i (fun x => { x with s := tabPut x.s r v }) (fun x => tabGet x.s q 0)
          (fun x => tabGet_tabPut_other x.s r q v 0 (by simpa using hq))
        simp only [State.sget]
        rw [h]
    · rw [State.thread_modThread_other s t i _ (fun e => hi (by rw [e]))]
    · exact hthread (fun x => threadKept { x with s := [] }) (fun _ _ => rfl) i

theorem WritesOnly.vput (s : State) (g k r : Nat) (v : List Lane) : WritesOnly (.split g k) ss [r] ks s (s.vput g r v) :=
  WritesOnly.modGroup s g k _ (fun _ _ _ => rfl) (fun x q hq => tabGet_tabPut_other x.v r q v _ (by simpa using hq))
    (fun _ _ _ => rfl) (fun _ => rfl)

theorem WritesOnly.kput (s : State) (g k : Nat) (d : KReg) (m : Mask) :
    WritesOnly (.split g k) ss vs (if d = 0 then [] else [d.toNat]) s (s.kput g d.toNat m) := by
  by_cases hd : d = 0
  · rw [hd]
    exact WritesOnly.same s
  · have hr : ¬ d.toNat = 0 := fun e => hd (BitVec.eq_of_toNat_eq e)
    rw [if_neg hd, State.kput, if_neg hr]
    exact WritesOnly.modGroup s g k _ (fun _ _ _ => rfl) (fun _ _ _ => rfl)
      (fun x q hq => tabGet_tabPut_other x.k d.toNat q m 0 (by simpa using hq)) (fun _ => rfl)

end

/-! ### Members whose result is one register -/

/-- A member that no control core runs has no thread as its agent (R93, check 5). -/
theorem not_thread_of_opens {n : Need} {a : Agent} {s u : State} {c : Ctx} (h : Opens n a s c u) (hctl : n.ctl = false) :
    a.isThread = false := by
  cases a with
  | split g k => rfl
  | thread t =>
    exfalso
    obtain ⟨sub, hsub⟩ : ∃ sub, n.illegal s (.thread t) = some sub := by
      by_cases hreg : (n.lim.any (fun r => decide (64 ≤ r)) || n.even.any (fun r => r % 2 != 0) || n.quad.any (fun r => r % 4 != 0)) = true
      · exact ⟨4, if_pos hreg⟩
      · exact ⟨5, (if_neg hreg).trans (if_pos (by simp [Agent.isThread, hctl]))⟩
    have hg := h.2.2
    simp only [gate, hsub] at hg
    cases hg

section
variable {i : Instr} {n : Need} {ag : Agent} {s u : State} {c : Ctx} {ss vs ks : List Nat}

/-- A member that is done with a write leaves it, and what every issue leaves. -/
theorem frame_of_done {v : State} {body : Ctx → State → Act} (h : Opens n ag s c u) (he : exec i s = issue n body s)
    (hb : body c u = .done v) (hw : WritesOnly ag ss vs ks u v) : ∃ t, exec i s = .next t ∧ WritesOnly ag ss vs ks u t :=
  ⟨_, he.trans (issue_done h hb), hw.trans (SameRegs.retire v n c _).writesOnly⟩

/-- A destination that is no queue port is the one scalar register that a write changes. -/
theorem WritesOnly.sset (s : State) (a : Agent) {d : SReg} (v : Word) (hport : Sys2Proof.isPort d = false) :
    WritesOnly a (written a d.toNat) vs ks s (s.sset a d.toNat v) := by
  rw [sset_of_not_port s a v hport]
  exact WritesOnly.sput s a d.toNat v

theorem frame_sset {d : SReg} {val : Ctx → State → Word} (h : Opens n ag s c u)
    (he : exec i s = issue n (fun c s => .done (s.sset c.a d.toNat (val c s))) s) (hport : Sys2Proof.isPort d = false) :
    ∃ t, exec i s = .next t ∧ WritesOnly ag (written ag d.toNat) [] [] u t :=
  frame_of_done h he rfl (by rw [opens_agent h]; exact WritesOnly.sset u ag _ hport)

theorem frame_vred {f : Rnd → Bool → Lane → Lane → Lane × FFlags} {ident : Lane} {ext : Lane → Word} {pipe lat : Nat} {draw : Draw}
    {d : SReg} {a : VReg} {p : Option Prefix} (h : Opens (vredNeed d a p pipe lat draw) ag s c u)
    (he : exec i s = vred f ident ext pipe lat draw d a p s) (hport : Sys2Proof.isPort d = false) :
    ∃ t, exec i s = .next t ∧ WritesOnly ag (written ag d.toNat) [] [] u t :=
  frame_of_done h he rfl (by
    rw [opens_agent h]
    exact (WritesOnly.sset u ag _ hport).trans (WritesOnly.raiseFlags _ ag _))

end

/-- Settles O57: each member sets its destination (`frame_sset`), the reductions with the flags they raise (`frame_vred`). -/
theorem frameOfScalarResults : Obligations.FrameOfScalarResults := by
  intro d a b i j x v k m p row hrow s ag c u h _ hport
  simp only [scalarForms, List.mem_append, List.mem_cons, List.not_mem_nil, or_false] at hrow
  rcases hrow with hrow | hrow
  · iterate 34
      rcases hrow with rfl | hrow
      · exact frame_sset h rfl hport
    rcases hrow with rfl | rfl | rfl | rfl | rfl | rfl
    · exact frame_vred h exec_vredFadd hport
    · exact frame_vred h exec_vredFmin hport
    · exact frame_vred h exec_vredFmax hport
    · exact frame_vred h exec_vredIadd hport
    · exact frame_vred h exec_vredIminS hport
    · exact frame_vred h exec_vredImaxS hport
  · rcases hrow with rfl | rfl | rfl | rfl
    all_goals exact frame_sset h rfl hport

section
variable {i : Instr} {n : Need} {ag : Agent} {s u : State} {c : Ctx} {act : Ctx → State → Mask} {z : Bool}

theorem frame_vput {d : VReg} {val : Ctx → State → List Lane} (h : Opens n ag s c u) (hctl : n.ctl = false)
    (he : exec i s = issue n (fun c s => .done (s.vput c.a.groupNo d.toNat (val c s))) s) :
    ∃ t, exec i s = .next t ∧ WritesOnly ag [] [d.toNat] [] u t := by
  have hthread := not_thread_of_opens h hctl
  refine frame_of_done h he rfl ?_
  rw [opens_agent h]
  cases ag with
  | split g k => exact WritesOnly.vput u g k d.toNat _
  | thread t => cases hthread

/-- The same, with flags that the split gathers. -/
theorem frame_vput_flags {d : VReg} {val : List Lane} {f : FFlags} {body : Ctx → State → Act} (h : Opens n ag s c u)
    (hctl : n.ctl = false) (he : exec i s = issue n body s)
    (hb : body c u = .done ((u.vput c.a.groupNo d.toNat val).raiseFlags c.a f)) :
    ∃ t, exec i s = .next t ∧ WritesOnly ag [] [d.toNat] [] u t := by
  have hthread := not_thread_of_opens h hctl
  refine frame_of_done h he hb ?_
  rw [opens_agent h]
  cases ag with
  | split g k => exact (WritesOnly.vput u g k d.toNat _).trans (WritesOnly.raiseFlags _ _ _)
  | thread t => cases hthread

theorem frame_vmove {d : VReg} {f : Ctx → State → Nat → Lane} (h : Opens n ag s c u) (hctl : n.ctl = false)
    (he : exec i s = issue n (fun c s => .done (s.vmove c.a d.toNat (act c s) z (f c s))) s) :
    ∃ t, exec i s = .next t ∧ WritesOnly ag [] [d.toNat] [] u t :=
  frame_vput h hctl he

theorem frame_vwrite {d : VReg} {f : Ctx → State → Nat → Lane × FFlags} (h : Opens n ag s c u) (hctl : n.ctl = false)
    (he : exec i s = issue n (fun c s => .done (s.vwrite c.a d.toNat (act c s) z (f c s))) s) :
    ∃ t, exec i s = .next t ∧ WritesOnly ag [] [d.toNat] [] u t :=
  frame_vput_flags h hctl he rfl

/-- The pair of a scan's lanes and flags, taken apart. -/
theorem vmove_flags_of_pair (u : State) (a : Agent) (d : Nat) (m : Mask) (z : Bool) (pr : List Lane × FFlags) :
    (match pr with
      | (r, fl) => Act.done ((u.vmove a d m z (fun i => lane r i)).raiseFlags a fl)) =
      .done ((u.vmove a d m z (fun i => lane pr.1 i)).raiseFlags a pr.2) := rfl

theorem frame_vscan {f : Rnd → Bool → Lane → Lane → Lane × FFlags} {pipe lat : Nat} {draw : Draw} {d a : VReg} {b : SReg}
    {p : Option Prefix} (h : Opens { vecNeed p [a.toNat] d pipe lat draw with src := [b.toNat] } ag s c u)
    (he : exec i s = vscan f pipe lat draw d a b p s) : ∃ t, exec i s = .next t ∧ WritesOnly ag [] [d.toNat] [] u t := by
  have hb := vmove_flags_of_pair u c.a d.toNat c.act (pfxZ p) (scan (f (modeOf (u.fmt c.a) p) (fmtFtz (u.fmt c.a)))
    (u.vsrc c.a.groupNo a.toNat (pfxA p)) c.act 96 0 ((c.get u b.toNat).setWidth 32))
  exact frame_vput_flags h rfl he hb

theorem frame_kput {d : KReg} {val : Ctx → State → Mask} (h : Opens n ag s c u) (hctl : n.ctl = false)
    (he : exec i s = issue n (fun c s => .done (s.kput c.a.groupNo d.toNat (val c s))) s) :
    ∃ t, exec i s = .next t ∧ WritesOnly ag [] [] (if d = 0 then [] else [d.toNat]) u t := by
  have hthread := not_thread_of_opens h hctl
  refine frame_of_done h he rfl ?_
  rw [opens_agent h]
  cases ag with
  | split g k => exact WritesOnly.kput u g k d _
  | thread t => cases hthread

theorem frame_vcmp {f : State → Agent → Lane → Lane → Bool × FFlags} {pipe : Nat} {draw : Draw} {d : KReg} {a b : VReg}
    {p : Option Prefix} (h : Opens (vcmpNeed d a b p pipe draw) ag s c u) (he : exec i s = vcmp f pipe draw d a b p s) :
    ∃ t, exec i s = .next t ∧ WritesOnly ag [] [] (if d = 0 then [] else [d.toNat]) u t := by
  have hthread := not_thread_of_opens h rfl
  refine frame_of_done h he rfl ?_
  rw [opens_agent h]
  cases ag with
  | split g k => exact (WritesOnly.kput u g k d _).trans (WritesOnly.raiseFlags _ _ _)
  | thread t => cases hthread

theorem frame_vcmpI {f : Lane → Lane → Bool} {d : KReg} {a b : VReg} {p : Option Prefix}
    (h : Opens (vcmpNeed d a b p 1 .vint) ag s c u) (he : exec i s = vcmpI f d a b p s) :
    ∃ t, exec i s = .next t ∧ WritesOnly ag [] [] (if d = 0 then [] else [d.toNat]) u t :=
  frame_vcmp (f := fun _ _ x y => (f x y, 0)) h he

theorem frame_vcmpF {f : FVal → FVal → Bool} {d : KReg} {a b : VReg} {p : Option Prefix}
    (h : Opens (vcmpNeed d a b p 0 .vfp) ag s c u) (he : exec i s = vcmpF f d a b p s) :
    ∃ t, exec i s = .next t ∧ WritesOnly ag [] [] (if d = 0 then [] else [d.toNat]) u t :=
  frame_vcmp h he

end

/-- The members with a vector result (R131): floating ones write values and flags, the others move values. -/
theorem frame_vectorForms (t : FType) (d a b : VReg) (r q : SReg) (i : BitVec 10) (h : BitVec 1) (w : BitVec 5) (x : Option (BitVec 25))
    (p : Option Prefix) : ∀ row ∈ vectorForms t d a b r q i h w x p, ∀ (s : State) (ag : Agent) (c : Ctx) (u : State),
    Opens row.2 ag s c u → ∃ y, exec row.1 s = .next y ∧ WritesOnly ag [] [d.toNat] [] u y := by
  intro row hrow s ag c u hopen
  simp only [vectorForms, List.mem_append, List.mem_cons, List.not_mem_nil, or_false] at hrow
  rcases hrow with (hrow | hrow) | hrow
  · iterate 18
      rcases hrow with rfl | hrow
      · exact frame_vwrite hopen rfl rfl
    iterate 21
      rcases hrow with rfl | hrow
      · exact frame_vmove hopen rfl rfl
    subst hrow
    exact frame_vmove hopen rfl rfl
  · iterate 22
      rcases hrow with rfl | hrow
      · exact frame_vmove hopen rfl rfl
    iterate 16
      rcases hrow with rfl | hrow
      · exact frame_vwrite hopen rfl rfl
    rcases hrow with rfl | rfl
    · exact frame_vput_flags hopen rfl exec_vcvtSxF32 rfl
    · exact frame_vmove hopen rfl exec_vcvtF32Sx
  · rcases hrow with rfl | rfl | rfl | hrow
    · exact frame_vscan hopen exec_vscanFadd
    · exact frame_vscan hopen exec_vscanIadd
    · exact frame_vput hopen rfl exec_vcompact
    iterate 8
      rcases hrow with rfl | hrow
      · exact frame_vmove hopen rfl rfl
    iterate 5
      rcases hrow with rfl | hrow
      · exact frame_vwrite hopen rfl rfl
    iterate 10
      rcases hrow with rfl | hrow
      · exact frame_vmove hopen rfl rfl
    subst hrow
    exact frame_vmove hopen rfl rfl

/-- The members with a mask result (R139, R151): the compares with the flags of signaling NaNs, the mask operations with none. -/
theorem frame_maskForms (d a b : KReg) (x y : VReg) (r : SReg) (m : Fin 3) (p : Option Prefix) :
    ∀ row ∈ maskForms d a b x y r m p, ∀ (s : State) (ag : Agent) (c : Ctx) (u : State), Opens row.2 ag s c u →
      ∃ t, exec row.1 s = .next t ∧ WritesOnly ag [] [] (if d = 0 then [] else [d.toNat]) u t := by
  intro row hrow s ag c u hopen
  simp only [maskForms, List.mem_cons, List.not_mem_nil, or_false] at hrow
  rcases hrow with rfl | rfl | rfl | rfl | rfl | rfl | rfl | rfl | rfl | rfl | rfl | rfl | rfl | rfl | rfl | rfl | rfl | rfl | rfl | hrow
  · exact frame_vcmpI hopen exec_vcmpEqS32
  · exact frame_vcmpI hopen exec_vcmpEqU32
  · exact frame_vcmpI hopen exec_vcmpNeS32
  · exact frame_vcmpI hopen exec_vcmpNeU32
  · exact frame_vcmpI hopen exec_vcmpLtS32
  · exact frame_vcmpI hopen exec_vcmpLtU32
  · exact frame_vcmpI hopen exec_vcmpLeS32
  · exact frame_vcmpI hopen exec_vcmpLeU32
  · exact frame_vcmpI hopen exec_vcmpGtS32
  · exact frame_vcmpI hopen exec_vcmpGtU32
  · exact frame_vcmpI hopen exec_vcmpGeS32
  · exact frame_vcmpI hopen exec_vcmpGeU32
  · exact frame_vcmpF hopen exec_vcmpEqF32
  · exact frame_vcmpF hopen exec_vcmpNeF32
  · exact frame_vcmpF hopen exec_vcmpLtF32
  · exact frame_vcmpF hopen exec_vcmpLeF32
  · exact frame_vcmpF hopen exec_vcmpGtF32
  · exact frame_vcmpF hopen exec_vcmpGeF32
  · exact frame_vcmpF hopen exec_vcmpUnord
  iterate 6
    rcases hrow with rfl | hrow
    · exact frame_kput hopen rfl rfl
  subst hrow
  exact frame_kput hopen rfl rfl

/-- Settles O58: `frame_vectorForms` and `frame_maskForms`. -/
theorem frameOfVectorResults : Obligations.FrameOfVectorResults :=
  ⟨fun t d a b r q i h w x p row hrow s ag c u hopen _ => frame_vectorForms t d a b r q i h w x p row hrow s ag c u hopen,
    fun d a b x y r m p row hrow s ag c u hopen _ => frame_maskForms d a b x y r m p row hrow s ag c u hopen⟩

end Sys2Proof
end

section
/-!
What caches, translation and records change (spec/05_memory.md R81 to R87, spec/20_vm.md R290, spec/28_errors_model.md R355): nothing of
groups, threads and clusters, and memory only within its canonical form.
-/

namespace Sys2Proof

open Sys2Proof.Machine

/-- The tables of groups, threads and clusters stand, and memory keeps its form. -/
structure Below (s t : State) : Prop where
  groups   : t.groups = s.groups
  threads  : t.threads = s.threads
  clusters : t.clusters = s.clusters
  form     : Memory.wf s.mem = true → Memory.wf t.mem = true

theorem Below.same (s : State) : Below s s := ⟨rfl, rfl, rfl, id⟩

theorem Below.trans {s t u : State} (h : Below s t) (h' : Below t u) : Below s u :=
  ⟨h'.groups.trans h.groups, h'.threads.trans h.threads, h'.clusters.trans h.clusters, fun w => h'.form (h.form w)⟩

theorem Below.foldl {α : Type} {f : State → α → State} (h : ∀ s x, Below s (f s x)) (l : List α) (s : State) : Below s (l.foldl f s) :=
  keepFold f Below Below.same (fun _ _ _ => Below.trans) h l s

/-- A change of any other part of the state. -/
theorem Below.of_mem {s t : State} (hg : t.groups = s.groups) (ht : t.threads = s.threads) (hc : t.clusters = s.clusters)
    (hm : t.mem = s.mem) : Below s t := ⟨hg, ht, hc, fun w => by rw [hm]; exact w⟩

section
variable (s : State)

theorem Below.modDie (d : Nat) (f : Die → Die) : Below s (s.modDie d f) := Below.of_mem rfl rfl rfl rfl
theorem Below.modStation (k : Nat) (f : Station → Station) : Below s (s.modStation k f) := Below.of_mem rfl rfl rfl rfl
theorem Below.modCore (c : Nat) (f : Core → Core) : Below s (s.modCore c f) := Below.of_mem rfl rfl rfl rfl
theorem Below.modLaunch (k : Nat) (f : Launch → Launch) : Below s (s.modLaunch k f) := Below.of_mem rfl rfl rfl rfl
theorem Below.putBytes (a : Nat) (bs : List Byte) : Below s (s.putBytes a bs) := ⟨rfl, rfl, rfl, State.putBytes_wf s a bs⟩

theorem Below.addPoison (a : Nat) : Below s (s.addPoison a) := by
  unfold State.addPoison
  split
  · exact Below.same s
  · split <;> exact Below.of_mem rfl rfl rfl rfl

theorem Below.enqueue (ring : Nat) (r : List Byte) : Below s (s.enqueue ring r) := Below.of_mem rfl rfl rfl rfl
theorem Below.soon (i : Instr) : Below s (s.soon i) := Below.of_mem rfl rfl rfl rfl
theorem Below.meter (pa n : Nat) (vi : BitVec 8) : Below s (s.meter pa n vi) := Below.modDie s _ _

theorem Below.report (cls sev unit : Nat) (ctx : BitVec 8 × BitVec 16) (addr retry addrk code : Nat) (name : List Byte) :
    Below s (s.report cls sev unit ctx addr retry addrk code name) := by
  unfold State.report
  extract_lets die seq dev mk m s1 s2 s3 s4
  split
  · exact Below.modDie s _ _
  · have h3 : Below s s3 := ((Below.of_mem rfl rfl rfl rfl : Below s s1).trans (Below.modDie s1 _ _)).trans (Below.enqueue s2 _ _)
    have h4 : Below s3 s4 := by
      simp only [s4]
      split
      · exact Below.same s3
      · exact (Below.enqueue s3 _ _).trans (Below.enqueue _ _ _)
    split
    · exact (h3.trans h4).trans (Below.soon s4 _)
    · exact h3.trans h4

/-! ### Translation -/

theorem Below.walked (vi : BitVec 8) (asid : BitVec 16) (va : Nat) : Below s (s.walked vi asid va) := by
  unfold State.walked
  refine Below.foldl (fun s h => ?_) _ s
  extract_lets s1
  have h1 : Below s s1 := by
    simp only [s1]
    split
    · split
      · exact Below.meter s _ _ _
      · exact Below.same s
    · exact Below.same s
  split
  · exact h1.trans (Below.modStation s1 _ _)
  · exact h1

/-- Translating changes stations and meters only. -/
theorem Below.translate {vi : BitVec 8} {asid : BitVec 16} {va : Nat} {t : State} {l : Tlb} (h : s.translate vi asid va = .ok t l) :
    Below s t := by
  unfold State.translate at h
  split at h
  · cases h
    exact Below.of_mem rfl rfl rfl rfl
  · split at h
    · cases h
      exact (Below.walked s vi asid va).trans (Below.of_mem rfl rfl rfl rfl)
    · cases h
    · cases h

/-! ### The L2 -/

theorem Below.setL2 (key : Nat) (l : L2Line) : Below s (s.setL2 key l) := Below.modDie s _ _
theorem Below.dropL2 (key : Nat) : Below s (s.dropL2 key) := Below.modDie s _ _

theorem Below.writeBack (key : Nat) : Below s (s.writeBack key) := by
  unfold State.writeBack
  split
  · exact Below.same s
  · split
    · exact Below.same s
    · split
      · refine Below.trans ?_ (Below.setL2 _ _ _)
        refine Below.trans (Below.foldl (fun s i => ?_) _ s) (Below.meter _ _ _ _)
        split
        · split
          · exact (Below.putBytes s _ _).trans (Below.addPoison _ _)
          · exact Below.putBytes s _ _
        · exact Below.same s
      · exact (Below.report s _ _ _ _ _ _ _ _ _).trans (Below.setL2 _ _ _)

theorem Below.trimSet (die key need fuel : Nat) : Below s (s.trimSet die key need fuel) := by
  induction fuel generalizing s with
  | zero => exact Below.same s
  | succ f ih =>
    unfold State.trimSet
    extract_lets d set oldest
    split
    · exact Below.same s
    · split
      · exact Below.same s
      · exact ((Below.writeBack s _).trans (Below.dropL2 _ _)).trans (ih _)

theorem Below.makeRoom (key : Nat) (bs : List Byte) : Below s (s.makeRoom key bs) := by
  unfold State.makeRoom
  extract_lets die d
  split
  · exact Below.same s
  · exact Below.trimSet s _ _ _ _

theorem Below.fill {vi : BitVec 8} {va : Nat} {l : Tlb} {t : State} (h : s.fill vi va l = some t) : Below s t := by
  unfold State.fill at h
  extract_lets pa key s1 poison line at h
  split at h
  · cases h
  · cases h
    exact ((Below.makeRoom s _ _).trans (Below.meter _ _ _ _)).trans (Below.setL2 _ _ _)

theorem Below.home {vi : BitVec 8} {asid : BitVec 16} {va : Nat} {write fetch : Bool} {t : State}
    (h : s.home vi asid va write fetch = .ok t) : Below s t := by
  have hrights {w x : Bool} {s' : State} : s'.rights vi asid va write fetch w x ≠ some (.ok t) := by
    unfold State.rights
    split
    · exact nofun
    · split <;> exact nofun
  unfold State.home at h
  extract_lets key at h
  split at h
  · split at h
    · next hr => exact absurd (by rw [hr, h]) hrights
    · cases h
      exact Below.setL2 s _ _
  · split at h
    · cases h
    · cases h
    · next u l htrans =>
      split at h
      · cases h
      · split at h
        · next hr => exact absurd (by rw [hr, h]) hrights
        · split at h
          · next hfill =>
            cases h
            exact (Below.translate s htrans).trans (Below.fill u hfill)
          · cases h

theorem Below.homePut (key va : Nat) (bs : List Byte) (bad : Bool) : Below s (s.homePut key va bs bad) := by
  unfold State.homePut
  split
  · exact Below.same s
  · exact (Below.makeRoom s _ _).trans (Below.setL2 _ _ _)

theorem Below.raise (vi : BitVec 8) (asid : BitVec 16) (va stage ipa flags : Nat) (name : List Byte) (w : Waiter) :
    Below s (s.raise vi asid va stage ipa flags name w).1 := by
  unfold State.raise
  extract_lets join page
  split <;> exact Below.of_mem rfl rfl rfl rfl

end

end Sys2Proof
end

section
/-!
Write-backs and releases (spec/05_memory.md R83 to R85, spec/16_memory_model.md R244, R245) change no register and no queue; the trap of
a write that fails waits in its writer's place (spec/30_errors_memory.md R376).
-/

namespace Sys2Proof

open Sys2Proof.Machine

/-- No scalar register, no queue and no agent's being differs, and memory keeps its form. -/
structure Apart (s t : State) : Prop where
  alive  : ∀ b, t.alive b = s.alive b
  queues : ∀ c q, t.queue c q = s.queue c q
  regs   : ∀ b r, t.sget b r = s.sget b r
  form   : Memory.wf s.mem = true → Memory.wf t.mem = true

theorem Apart.same (s : State) : Apart s s := ⟨fun _ => rfl, fun _ _ => rfl, fun _ _ => rfl, id⟩

theorem Apart.trans {s t u : State} (h : Apart s t) (h' : Apart t u) : Apart s u :=
  ⟨fun b => (h'.alive b).trans (h.alive b),
    fun c q => (h'.queues c q).trans (h.queues c q), fun b r => (h'.regs b r).trans (h.regs b r), fun w => h'.form (h.form w)⟩

theorem queue_of_clusters {s t : State} (h : t.clusters = s.clusters) (c q : Nat) : t.queue c q = s.queue c q := by
  simp only [State.queue, State.cluster, h, tabGet]
  cases tabFind s.clusters c <;> rfl

theorem sget_of_tables {s t : State} (hg : t.groups = s.groups) (ht : t.threads = s.threads) (b : Agent) (r : Nat) :
    t.sget b r = s.sget b r := by
  cases b <;> simp [State.sget, State.splitOf, State.group, State.thread, hg, ht]

theorem Below.apart {s t : State} (h : Below s t) : Apart s t :=
  ⟨alive_of_tables h.groups h.threads, queue_of_clusters h.clusters, sget_of_tables h.groups h.threads, h.form⟩

section
variable (s : State)

theorem Apart.modStrand (a : Agent) (f : Strand → Strand) : Apart s (s.modStrand a f) :=
  ⟨alive_modStrand s a f,
    queue_of_clusters (s.modStrand_clusters a f), (SameRegs.modStrand s a f).sget, fun w => by rw [s.modStrand_mem]; exact w⟩

theorem Apart.failWrite (x : Access) (id va : Nat) (code : BitVec 8) (word : Word) : Apart s (s.failWrite x id va code word) := by
  unfold State.failWrite
  split
  · unfold State.queueTrap
    split
    · exact Apart.modStrand s _ _
    · exact Apart.same s
  · exact (Below.modLaunch s _ _).apart
  · exact Apart.same s

theorem Apart.hold (x : Access) (id va stage ipa : Nat) (perm : Bool) : Apart s (s.hold x id va stage ipa perm) := by
  unfold State.hold
  extract_lets die word s1 s2
  split
  · have h2 : Apart s s2 := (Below.report s _ _ _ _ _ _ _ _ _).apart.trans (Apart.failWrite s1 _ _ _ _ _)
    exact h2.trans (Below.apart (Below.of_mem rfl rfl rfl rfl))
  · refine Below.apart (Below.trans (Below.raise s x.vi x.asid va stage ipa (2 + if perm then 16 else 0) (s.joined x.agent)
      (.step (.storePerformed id .none))) ?_)
    exact Below.of_mem rfl rfl rfl rfl

theorem Apart.refuseWrite (x : Access) (va : Nat) (code : BitVec 8) : Apart s (s.refuseWrite x va code) := by
  unfold State.refuseWrite
  extract_lets word s1
  refine Apart.trans ?_ (Apart.failWrite s1 _ _ _ _ _)
  simp only [s1]
  split
  · exact Apart.same s
  · exact (Below.report s _ _ _ _ _ _ _ _ _).apart

theorem Apart.putHome (a : Agent) (vi : BitVec 8) (asid : BitVec 16) (wg va : Nat) (tags : BitVec 16) (bs : List Byte) (bad : Bool) :
    Apart s (s.putHome a vi asid wg va tags bs bad) := by
  unfold State.putHome
  split
  · next h => exact ((Below.home s h).trans (Below.homePut _ _ _ _ _)).apart
  · refine Apart.trans ?_ (Apart.hold _ _ _ _ _ _ _)
    exact Below.apart (Below.of_mem rfl rfl rfl rfl)
  · exact (Below.report s _ _ _ _ _ _ _ _ _).apart.trans (Apart.failWrite _ _ _ _ _ _)
  · exact Apart.refuseWrite s _ _ _
  · exact Apart.refuseWrite s _ _ _

theorem Apart.mergeHome (a : Agent) (vi : BitVec 8) (asid : BitVec 16) (wg va : Nat) (tags : BitVec 16) (bs : List Byte) (bad : Bool) :
    Apart s (s.mergeHome a vi asid wg va tags bs bad) := by
  unfold State.mergeHome
  split
  · exact Apart.putHome s _ _ _ _ _ _ _ _
  · exact Below.apart (Below.of_mem rfl rfl rfl rfl)

theorem Apart.foldl {α : Type} {f : State → α → State} (h : ∀ s x, Apart s (f s x)) (l : List α) (s : State) : Apart s (l.foldl f s) :=
  keepFold f Apart Apart.same (fun _ _ _ => Apart.trans) h l s

theorem Apart.backSector (core key i : Nat) (leaves : Bool) : Apart s (s.backSector core key i leaves) := by
  unfold State.backSector
  split
  · exact Apart.same s
  · split
    · exact Apart.same s
    · extract_lets x base w wg s1 y
      split
      · exact Apart.same s
      · have h1 : Apart s s1 := Apart.foldl (fun s r => by
          split
          · exact (Below.putBytes s _ _).apart
          · exact Apart.mergeHome s _ _ _ _ _ _ _ _) _ s
        exact h1.trans (Below.modCore s1 _ _).apart

theorem Apart.backWhere (core : Nat) (p : Nat → Sector → Bool) : Apart s (s.backWhere core p) :=
  Apart.foldl (fun s _ => Apart.backSector s _ _ _ _) _ s

theorem Apart.releaseL1 (a : Agent) (streams : BitVec 16) (scope : BitVec 3) : Apart s (s.releaseL1 a streams scope) := by
  cases a with
  | split g k =>
    unfold State.releaseL1
    dsimp only
    split
    · exact Apart.backWhere s _ _
    · exact Apart.same s
  | thread t => exact Apart.same s

/-- With nothing under way of its owner, a release is its write-backs (R161). -/
theorem releaseEvery_of_none_under_way {a : Agent} (upto : Nat) (scope : BitVec 3)
    (h : ∀ p ∈ s.accesses, p.2.agent.sameOwner a = false) :
    (s.releaseEvery a upto scope).1 = s.releaseL1 a (BitVec.allOnes 16) scope := by
  have hnone : s.accesses.filter (fun p => p.2.agent.sameOwner a && p.2.what < 3 && p.1 < upto) = [] :=
    List.filter_eq_nil_iff.2 (fun p hp => by simp [h p hp])
  simp only [State.releaseEvery, State.flush, hnone, List.map_nil, State.flushIds]

end

end Sys2Proof
end

section
/-!
Queue ports (spec/07_assembly.md R105, spec/15_isa_system.md R232, R233).
-/

namespace Sys2Proof

open Sys2Proof.Machine

section
variable {s : State} {a : Agent} {r q : Nat}

theorem queue_setQueue_self (s : State) (c q : Nat) (l : List QEntry) : (s.setQueue c q l).queue c q = l := by
  simp [State.setQueue, State.queue]

theorem queue_setQueue_other (s : State) (c q : Nat) (l : List QEntry) {p : Nat} (h : p ≠ q) :
    (s.setQueue c q l).queue c p = s.queue c p := by
  simp [State.setQueue, State.queue, tabGet_tabPut_other _ _ _ _ _ h]

theorem sget_setQueue (s : State) (c q : Nat) (l : List QEntry) (b : Agent) (n : Nat) : (s.setQueue c q l).sget b n = s.sget b n :=
  sget_of_tables rfl rfl b n

/-- Room for one more push (R232). -/
theorem roomFor_one (h : s.boundQueue a r = some q) :
    s.roomFor a [r] = decide ((s.queue a.cluster q).length + s.pushing a.cluster q < 16) := by
  simp only [State.roomFor, List.all_cons, List.all_nil, Bool.and_true, h]
  congr 1
  simp [h]

theorem sset_of_port {v : Word} (hlo : 48 ≤ r) (hhi : r ≤ 55) : s.sset a r v = s.push a r v := by
  simp [State.sset, Machine.isPort, hlo, hhi]

theorem push_of_bound {v : Word} (h : s.boundQueue a r = some q) : s.push a r v =
    if (s.releaseEvery a s.nextId 2).2 then (s.releaseEvery a s.nextId 2).1.pushEntry a.cluster q v
    else (s.releaseEvery a s.nextId 2).1.after a (.push a.cluster q (some v)) := by
  simp only [State.push, h]

theorem queue_after (s : State) (a : Agent) (f : After) (c q : Nat) : (s.after a f).queue c q = s.queue c q :=
  queue_of_clusters rfl c q

/-- The entries behind a pop: the first that no workgroup holds leaves, or is held under a workgroup and a number (R233). -/
theorem take_append {keep : Option Nat} {number : Nat} {pre post : List QEntry} {e : QEntry} (hpre : ∀ y ∈ pre, y.held.isSome = true)
    (he : e.held = none) : State.pop.take keep number (pre ++ e :: post) = pre ++ match keep with
      | some w => { e with held := some (w, number) } :: post
      | none => post := by
  induction pre with
  | nil => cases keep <;> simp [State.pop.take, he]
  | cons y pre ih =>
    obtain ⟨hy, hrest⟩ := List.forall_mem_cons.1 hpre
    have hy' : ¬ y.held.isNone = true := by
      rw [Option.isNone_iff_eq_none]
      intro e
      simp [e] at hy
    simp only [List.cons_append, State.pop.take, if_neg hy', ih hrest]

/-- The workgroup that holds what an agent pops: one that buffers in an open region (R233). -/
def popKeeper (s : State) (a : Agent) : Option Nat :=
  match a with
  | .split g _ => if (s.wg (s.group g).wg).buffers then some (s.group g).wg else none
  | .thread _ => none

/-- The number of a pop's hold: behind those of the queue (R233). -/
def popNumber (s : State) (c q : Nat) : Nat := ((s.queue c q).map (fun e => (e.held.getD (0, 0)).2)).foldl Nat.max 0 + 1

/-- A pop changes its queue, and an acquire follows it. -/
theorem pop_of_bound (h : s.boundQueue a r = some q) : ∃ t : State,
    t = s.setQueue a.cluster q (State.pop.take (popKeeper s a) (popNumber s a.cluster q) (s.queue a.cluster q)) ∧
      (∀ p, (s.pop a r).queue a.cluster p = t.queue a.cluster p) ∧ ∀ b n, (s.pop a r).sget b n = t.sget b n := by
  refine ⟨_, rfl, ?_⟩
  simp only [State.pop, h]
  cases a with
  | split g k => exact ⟨fun p => queue_of_clusters rfl _ p, fun b n => sget_of_tables rfl rfl b n⟩
  | thread t => exact ⟨fun _ => rfl, fun _ _ => rfl⟩

theorem front_of_append {pre post : List QEntry} {e : QEntry} (h : s.boundQueue a r = some q)
    (hq : s.queue a.cluster q = pre ++ e :: post) (hpre : ∀ y ∈ pre, y.held.isSome = true) (he : e.held = none) :
    s.front a r = some e.val := by
  have hfind : pre.find? (fun e => e.held.isNone) = none :=
    List.find?_eq_none.2 (fun y hy => by
      obtain ⟨x, hx⟩ := Option.isSome_iff_exists.1 (hpre y hy)
      simp [hx])
  simp [State.front, h, hq, List.find?_append, hfind, he]

theorem front_of_all_held (h : s.boundQueue a r = some q) (hq : ∀ y ∈ s.queue a.cluster q, y.held.isSome = true) :
    s.front a r = none := by
  have hfind : (s.queue a.cluster q).find? (fun e => e.held.isNone) = none :=
    List.find?_eq_none.2 (fun y hy => by
      obtain ⟨x, hx⟩ := Option.isSome_iff_exists.1 (hq y hy)
      simp [hx])
  simp only [State.front, h, hfind, Option.map_none]

end

/-- Settles O52: a push is its release and then its entry, a pop takes the first entry that stands free (`take_append`), and neither a
release nor an acquire touches queues and registers (`Apart.releaseL1`). -/
theorem portsPopAndPush : Obligations.PortsPopAndPush := by
  intro s a r q v hlo hhi hbound
  obtain ⟨t, ht, hqueue, hregs⟩ := pop_of_bound hbound
  refine ⟨roomFor_one hbound, fun e he => ?_, fun pre post e hq hpre he => ⟨front_of_append hbound hq hpre he, ?_⟩,
    front_of_all_held hbound, fun p hp => ?_, fun b n => ?_⟩
  · subst he
    rw [sset_of_port hlo hhi, push_of_bound hbound]
    refine ⟨fun hok => ?_, fun hok => ?_, fun hnone => ?_⟩
    · rw [if_pos hok]
      exact ⟨rfl, queue_setQueue_self _ _ _ _, fun p hp => queue_setQueue_other _ _ _ _ hp, sget_setQueue _ _ _ _⟩
    · rw [hok, if_neg Bool.false_ne_true]
      exact ⟨rfl, queue_after _ _ _ _ _⟩
    · have hrelease := Apart.releaseL1 s a (BitVec.allOnes 16) 2
      rw [releaseEvery_of_none_under_way s s.nextId 2 hnone]
      exact ⟨hrelease.queues _ _, hrelease.regs⟩
  · rw [hqueue, ht, queue_setQueue_self, hq, take_append hpre he]
    cases a with
    | split g k =>
      by_cases hb : (s.wg (s.group g).wg).buffers = true
      · simp only [popKeeper, popNumber, hq, if_pos hb]
      · simp only [popKeeper, if_neg hb]
    | thread i => rfl
  · rw [hqueue, ht, queue_setQueue_other _ _ _ _ hp]
  · rw [hregs, ht, sget_setQueue]

end Sys2Proof
end

section
/-!
The queued STACK trap of a split whose sibling is in its handler (spec/07_assembly.md R108, spec/04_stacks.md R64).
-/

namespace Sys2Proof

open Sys2Proof.Machine

/-- Two splits of a group: split 0 tries with a STACK trap queued, split 1 is in its handler. -/
def siblingInHandler : State :=
  { State.reset with
    cur := some (.split 0 0)
    groups := [(0, { Group.blank with splits := [
      (0, { Split.blank with strand := { Strand.start 0 0 with traps := [(0x0E, 0)] } }),
      (1, { Split.blank with strand := { Strand.start 0 0 with handler := true } })] })] }

/-- While the sibling is in its handler, the trap waits, and it stays queued. -/
theorem exec_stackTrap_siblingInHandler :
    exec .stackTrap siblingInHandler = .next (siblingInHandler.awaitTrap (.split 0 0)) := rfl

/-- Refutes O53: of a split whose sibling is in its handler, the queued STACK trap stays queued (`exec_stackTrap_siblingInHandler`),
where the statement has it taken off the queue before the trap waits. -/
theorem not_trapTakenAndReturned : ¬ Obligations.TrapTakenAndReturned := by
  rintro ⟨⟨_, _, _, hqueued, _⟩, _⟩
  have hstep := hqueued siblingInHandler (.split 0 0) 0x0E 0 [] rfl rfl
  have hstate := Host.Outcome.next.inj (exec_stackTrap_siblingInHandler.symm.trans hstep)
  have htraps := congrArg (fun t => (t.strand (.split 0 0)).traps.length) hstate
  exact absurd htraps (by decide)

end Sys2Proof
end

section
/-!
Special operands of VSFU (spec/09_isa_vector.md R141).
-/

namespace Sys2Proof

open Sys2Proof.Machine

/-- A negative operand, negative infinity among them, that FTZ does not take as a zero. -/
theorem val_negative {ftz : Bool} {x : Nat} (hpos : 0 < x) (hle : x ≤ 0x7F800000) (hftz : ftz = true → 0x00800000 ≤ x) :
    fp32.val ftz (0x80000000 + x) = .inf true ∨ ∃ m e, m ≠ 0 ∧ fp32.val ftz (0x80000000 + x) = .num true m e := by
  have hsign : (0x80000000 + x).testBit 31 = true := by
    rw [Nat.testBit_eq_decide_div_mod_eq]
    exact decide_eq_true (by omega)
  have hex : (0x80000000 + x) / 2 ^ 23 % 2 ^ 8 = x / 2 ^ 23 := by omega
  have hfr : (0x80000000 + x) % 2 ^ 23 = x % 2 ^ 23 := by omega
  simp only [FFmt.val, fp32, Nat.reduceAdd, hsign, hex, hfr]
  by_cases htop : x / 2 ^ 23 = 2 ^ 8 - 1
  · have hzero : x % 2 ^ 23 = 0 := by omega
    rw [if_pos htop, if_pos hzero]
    exact .inl rfl
  · rw [if_neg htop]
    by_cases hsub : x / 2 ^ 23 = 0
    · have hkeep : ¬ ftz = true := fun h => by have := hftz h; omega
      rw [if_pos hsub, if_neg hkeep]
      exact .inr ⟨_, _, by omega, rfl⟩
    · rw [if_neg hsub]
      exact .inr ⟨_, _, by omega, rfl⟩

theorem sfu_negative {f : Sfu} {rm : Rnd} {ftz : Bool} {x : Nat} (hf : f ∈ [Sfu.rsq, .sqrt, .lg2])
    (hx : fp32.val ftz x = .inf true ∨ ∃ m e, m ≠ 0 ∧ fp32.val ftz x = .num true m e) :
    sfu f rm ftz x = (0x7FC00000, flagNV) := by
  simp only [List.mem_cons, List.not_mem_nil, or_false] at hf
  rcases hx with hx | ⟨m, e, hm, hx⟩
  · rcases hf with rfl | rfl | rfl <;> simp only [sfu, hx] <;> rfl
  · rcases hf with rfl | rfl | rfl <;> simp only [sfu, hx, if_neg hm] <;> rfl

/-- A NaN: its top fraction bit tells a quiet one. -/
theorem val_nan {ftz neg : Bool} {fr : BitVec 23} (hfr : fr ≠ 0) :
    fp32.val ftz ((if neg then 0xFF800000 else 0x7F800000) + fr.toNat) = .nan (decide (fr.toNat < 0x400000)) := by
  have hlt : fr.toNat < 2 ^ 23 := fr.isLt
  have hne : fr.toNat ≠ 0 := fun h => hfr (BitVec.eq_of_toNat_eq h)
  have hquiet : (!fr.toNat.testBit 22) = decide (fr.toNat < 0x400000) := by
    rw [Nat.testBit_eq_decide_div_mod_eq, ← decide_not]
    exact decide_eq_decide.2 (by omega)
  have hex : ((if neg then 0xFF800000 else 0x7F800000) + fr.toNat) / 2 ^ 23 % 2 ^ 8 = 2 ^ 8 - 1 := by
    cases neg <;> simp only [Bool.false_eq_true, if_true, if_false] <;> omega
  have hmod : ((if neg then 0xFF800000 else 0x7F800000) + fr.toNat) % 2 ^ 23 = fr.toNat := by
    cases neg <;> simp only [Bool.false_eq_true, if_true, if_false] <;> omega
  simp only [FFmt.val, fp32, Nat.reduceSub, hex, hmod, if_true, if_neg hne, hquiet]

theorem sfu_nan (f : Sfu) (rm : Rnd) (ftz neg : Bool) (fr : BitVec 23) (hfr : fr ≠ 0) :
    sfu f rm ftz ((if neg then 0xFF800000 else 0x7F800000) + fr.toNat) =
      (0x7FC00000, if fr.toNat < 0x400000 then flagNV else 0) := by
  simp only [sfu, val_nan hfr, decide_eq_true_eq]
  rfl

/-- Settles O7: the listed operands are values of the function itself; negative ones (`val_negative`) and NaNs (`val_nan`) are read from
their fields. -/
theorem specialOperands : Obligations.SpecialOperands := by
  intro rm ftz
  have hnegative : ∀ f ∈ [Sfu.rsq, .sqrt, .lg2], ∀ x : BitVec 31, 0 < x.toNat → x.toNat ≤ 0x7F800000 →
      (ftz = true → 0x00800000 ≤ x.toNat) → sfu f rm ftz (0x80000000 + x.toNat) = (0x7FC00000, flagNV) :=
    fun f hf x hpos hle hftz => sfu_negative hf (val_negative hpos hle hftz)
  have hnan := fun f neg fr hfr => sfu_nan f rm ftz neg fr hfr
  cases ftz
  all_goals exact ⟨rfl, rfl, rfl, rfl, rfl, rfl, rfl, rfl, rfl, rfl, rfl, rfl, rfl, rfl, rfl, rfl, rfl, rfl, rfl, rfl, rfl, rfl, rfl, rfl, rfl,
    rfl, rfl, rfl, rfl, rfl, hnegative, hnan⟩

end Sys2Proof
end

section
/-!
Integer sums of lanes by the fixed tree and by the scan (spec/02_formats.md R32, spec/10_isa_lanes.md R149).
-/

namespace Sys2Proof

open Sys2Proof.Machine

/-- Integer addition of lanes; it raises nothing. -/
def addLane (a b : Lane) : Lane × FFlags := (a + b, 0)

/-- A lane's share of a sum: nothing where it is not active. -/
def activeLane (x : List Lane) (act : Mask) (i : Nat) : Lane := if act.getLsbD i then lane x i else 0

/-- A sum over the active lanes is one over all lanes' shares. -/
theorem foldl_active (x : List Lane) (act : Mask) (init : Lane) (n : Nat) :
    ((List.range n).filter (fun i => act.getLsbD i)).foldl (fun m i => m + lane x i) init =
      init + ∑ i ∈ Finset.range n, activeLane x act i := by
  induction n with
  | zero => simp
  | succ n ih =>
    rw [List.range_succ, List.filter_append, List.foldl_append, ih, Finset.sum_range_succ, ← add_assoc]
    cases h : act.getLsbD n <;> simp [activeLane, h]

/-! ### The tree -/

theorem length_treeLevel (f : Lane → Lane → Lane × FFlags) (n : Nat) (y : List Lane × FFlags) :
    (treeLevel f n y).1.length = y.1.length := by
  simp [treeLevel]

/-- A level adds to each block the block behind it. -/
theorem lane_treeLevel {n i : Nat} {y : List Lane × FFlags} (hi : i < y.1.length) (h : i % (2 * n) = 0) :
    lane (treeLevel addLane n y).1 i = lane y.1 i + lane y.1 (i + n) := by
  simp [treeLevel, lane, hi, h, addLane]

theorem flags_treeLevel (n : Nat) (y : List Lane × FFlags) : (treeLevel addLane n y).2 = y.2 := by
  have hzero (l : List (Lane × FFlags)) (m : FFlags) (h : ∀ x ∈ l, x.2 = 0) : l.foldl (fun m x => m ||| x.2) m = m := by
    induction l generalizing m with
    | nil => rfl
    | cons x l ih =>
      obtain ⟨hx, hl⟩ := List.forall_mem_cons.1 h
      rw [List.foldl_cons, hx, ih _ hl]
      exact BitVec.or_zero
  refine hzero _ _ (fun x hx => ?_)
  obtain ⟨i, -, rfl⟩ := List.mem_map.1 hx
  split <;> rfl

/-- The lanes at the heads of blocks of `n` hold the sums of their blocks, and no flag is raised. -/
def Blocks (v : Nat → Lane) (n : Nat) (y : List Lane × FFlags) : Prop :=
  y.1.length = 32 ∧ y.2 = 0 ∧ ∀ i, i < 32 → i % n = 0 → lane y.1 i = ∑ j ∈ Finset.range n, v (i + j)

theorem Blocks.level {v : Nat → Lane} {n : Nat} {y : List Lane × FFlags} (h : Blocks v n y) (hn : 2 * n ∣ 32) :
    Blocks v (2 * n) (treeLevel addLane n y) := by
  obtain ⟨hlen, hflags, hsum⟩ := h
  refine ⟨(length_treeLevel _ n y).trans hlen, (flags_treeLevel n y).trans hflags, fun i hi hmod => ?_⟩
  obtain ⟨k, rfl⟩ := Nat.dvd_of_mod_eq_zero hmod
  obtain ⟨q, hq⟩ := hn
  have hpos : 0 < n := by
    rcases Nat.eq_zero_or_pos n with h | h
    · simp [h] at hq
    · exact h
  have hkq : k < q := by
    rw [hq] at hi
    exact lt_of_mul_lt_mul_left hi (Nat.zero_le _)
  have hnext : 2 * n * k + n < 32 := by
    have hstep : 2 * n * (k + 1) ≤ 2 * n * q := Nat.mul_le_mul_left _ hkq
    rw [Nat.mul_succ] at hstep
    omega
  have hm : 2 * n * k % n = 0 := by
    rw [Nat.mul_comm 2 n, Nat.mul_assoc]
    exact Nat.mul_mod_right n _
  have hm' : (2 * n * k + n) % n = 0 := by rw [Nat.add_mod_right, hm]
  rw [lane_treeLevel (by omega) hmod, hsum _ hi hm, hsum _ hnext hm', two_mul n, Finset.sum_range_add]
  simp only [Nat.add_assoc]

/-- A block of the tree behind its five levels (R32). -/
def blockTree (v : Nat → Lane) : List Lane × FFlags :=
  [1, 2, 4, 8, 16].foldl (fun y n => treeLevel addLane n y) ((List.range 32).map v, (0 : FFlags))

theorem blocks_blockTree (v : Nat → Lane) : Blocks v 32 (blockTree v) := by
  have h1 : Blocks v 1 ((List.range 32).map v, (0 : FFlags)) := by
    refine ⟨by simp, rfl, fun i hi _ => ?_⟩
    simp [lane, hi]
  have h2 := h1.level (by decide)
  have h4 := h2.level (by decide)
  have h8 := h4.level (by decide)
  have h16 := h8.level (by decide)
  exact h16.level (by decide)

theorem lane_blockTree (v : Nat → Lane) : lane (blockTree v).1 0 = ∑ j ∈ Finset.range 32, v j := by
  obtain ⟨-, -, hsum⟩ := blocks_blockTree v
  have h := hsum 0 (by decide) (by decide)
  simpa only [Nat.zero_add] using h

theorem flags_blockTree (v : Nat → Lane) : (blockTree v).2 = 0 := (blocks_blockTree v).2.1

/-- The tree joins three blocks (R32). -/
theorem reduceTree_eq (x : List Lane) (act : Mask) : reduceTree addLane 0 x act =
    let b := fun k => blockTree (fun i => activeLane x act (32 * k + i))
    (lane (b 0).1 0 + lane (b 1).1 0 + lane (b 2).1 0, (b 0).2 ||| (b 1).2 ||| (b 2).2 ||| 0 ||| 0) := by
  simp only [reduceTree, blockTree, activeLane]
  simp only [addLane]

theorem reduceTree_add (x : List Lane) (act : Mask) :
    reduceTree addLane 0 x act = (∑ i ∈ Finset.range 96, activeLane x act i, 0) := by
  have h64 := Finset.sum_range_add (activeLane x act) 64 32
  have h32 := Finset.sum_range_add (activeLane x act) 32 32
  simp only [Nat.reduceAdd] at h64 h32
  simp only [reduceTree_eq, lane_blockTree, flags_blockTree, h64, h32, Nat.mul_zero, Nat.zero_add, Nat.mul_one, Nat.reduceMul]
  rfl

/-! ### The scan -/

/-- A scan leaves in every lane the start value and the shares up to it. -/
theorem lane_scan (x : List Lane) (act : Mask) (n i k : Nat) (acc : Lane) (hk : k < n) :
    lane (scan addLane x act n i acc).1 k = acc + ∑ j ∈ Finset.range (k + 1), activeLane x act (i + j) := by
  induction n generalizing i k acc with
  | zero => omega
  | succ n ih =>
    have hacc : (if act.getLsbD i then addLane acc (lane x i) else (acc, 0)) = (acc + activeLane x act i, 0) := by
      cases h : act.getLsbD i <;> simp [activeLane, addLane, h]
    simp only [scan, hacc]
    cases k with
    | zero => simp [lane]
    | succ k =>
      have h := ih (i + 1) k (acc + activeLane x act i) (by omega)
      rw [Finset.sum_range_succ', ← add_assoc]
      simp only [lane, List.getD_cons_succ] at h ⊢
      rw [h, add_right_comm]
      simp only [Nat.add_assoc, Nat.add_comm 1, Nat.add_zero]

/-- Settles O9: each level of the tree doubles the blocks whose sums stand at their heads (`Blocks.level`), and the scan carries its sum
(`lane_scan`). -/
theorem sumsOfActiveLanes : Obligations.SumsOfActiveLanes := by
  intro x act init
  refine ⟨?_, fun i hi _ => ?_⟩
  · rw [foldl_active, zero_add]
    exact reduceTree_add x act
  · rw [foldl_active]
    have h := lane_scan x act 96 0 i init hi
    simp only [Nat.zero_add] at h
    exact h

end Sys2Proof
end

section
/-!
What loads write and what atomics store (spec/11_isa_memory.md R156 to R159, R162, R165, R166).
-/

namespace Sys2Proof

open Sys2Proof.Machine

/-! ### Atomics -/

theorem signedOf_toNat {w : Nat} (x : BitVec (w + 1)) : signedOf (w + 1) x.toNat = x.toInt := by
  rw [BitVec.toInt_eq_toNat_cond, signedOf, Nat.add_sub_cancel]
  by_cases h : x.toNat < 2 ^ w
  · rw [if_pos h, if_pos (by omega)]
  · rw [if_neg h, if_neg (by omega)]
    push_cast
    rfl

/-- The integer operations on a word, as their codes name them (R165, R166). -/
theorem atomNew_integer {w op : Nat} (x y z : BitVec (w + 1)) (hwidth : atomWidth op = w + 1) (hop : op < 8 ∨ 15 < op) :
    atomNew op x.toNat y.toNat z.toNat = match op % 8 with
      | 0 => some (x + y).toNat
      | 1 => some (x &&& y).toNat
      | 2 => some (x ||| y).toNat
      | 3 => some (x ^^^ y).toNat
      | 4 => some (if y.toInt < x.toInt then y else x).toNat
      | 5 => some (if x.toInt < y.toInt then y else x).toNat
      | 6 => some y.toNat
      | _ => if x = y then some z.toNat else none := by
  unfold atomNew
  simp only [hwidth]
  split
  case h_8 =>
    generalize op % 8 = k
    match k with
    | 0 => exact congrArg some (BitVec.toNat_add x y).symm
    | 1 => exact congrArg some (BitVec.toNat_and x y).symm
    | 2 => exact congrArg some (BitVec.toNat_or x y).symm
    | 3 => exact congrArg some (BitVec.toNat_xor x y).symm
    | 4 => simp only [signedOf_toNat, apply_ite BitVec.toNat]
    | 5 => simp only [signedOf_toNat, apply_ite BitVec.toNat]
    | 6 => rfl
    | _ + 7 => simp only [BitVec.toNat_inj]
  all_goals omega

/-- Minimum and maximum of unsigned words, and the wrapping counts (R166). -/
theorem atomNew_unsigned (x y z : BitVec 32) :
    atomNew 11 x.toNat y.toNat z.toNat = some (if x.toNat ≤ y.toNat then x else y).toNat ∧
    atomNew 12 x.toNat y.toNat z.toNat = some (if x.toNat ≤ y.toNat then y else x).toNat ∧
    atomNew 13 x.toNat y.toNat z.toNat = some (if y.toNat ≤ x.toNat then 0 else x + 1).toNat ∧
    atomNew 14 x.toNat y.toNat z.toNat = some (if x = 0 ∨ y.toNat < x.toNat then y else x - 1).toNat := by
  have hx : x.toNat < 2 ^ 32 := x.isLt
  have hy : y.toNat < 2 ^ 32 := y.isLt
  have hzero : x = 0 ↔ x.toNat = 0 := BitVec.toNat_inj.symm
  refine ⟨?_, ?_, ?_, ?_⟩
  · change some (Nat.min x.toNat y.toNat) = _
    congr 1
    change min x.toNat y.toNat = _
    split <;> omega
  · change some (Nat.max x.toNat y.toNat) = _
    congr 1
    change max x.toNat y.toNat = _
    split <;> omega
  · change some (if y.toNat ≤ x.toNat then 0 else x.toNat + 1) = _
    congr 1
    split
    · rfl
    · rw [BitVec.toNat_add]
      change _ = (x.toNat + 1) % 2 ^ 32
      omega
  · change some (if (decide (x.toNat = 0) || decide (y.toNat < x.toNat)) = true then y.toNat else x.toNat - 1) = _
    congr 1
    simp only [hzero, Bool.or_eq_true, decide_eq_true_eq]
    by_cases h : x.toNat = 0 ∨ y.toNat < x.toNat
    · rw [if_pos h, if_pos h]
    · rw [if_neg h, if_neg h, BitVec.toNat_sub]
      change _ = (2 ^ 32 - 1 + x.toNat) % 2 ^ 32
      omega

/-! ### Loads -/

theorem field_eq_ofBytes (bs : List Byte) (off n : Nat) : field bs off n = ofBytes ((bs.drop off).take n) := by
  simp only [ofBytes, field, List.drop_zero, List.take_length]

theorem mem_of_tabFind {α : Type} {t : Tab α} {k : Nat} {x : α} (h : tabFind t k = some x) : (k, x) ∈ t := by
  induction t with
  | nil => cases h
  | cons p t ih =>
    obtain ⟨j, y⟩ := p
    by_cases hj : j = k
    · subst hj
      simp only [tabFind, if_true] at h
      cases h
      exact List.mem_cons_self
    · simp only [tabFind, if_neg hj] at h
      exact List.mem_cons_of_mem _ (ih h)

section
variable {s : State} {id : Nat} {x : Access} {d sz conv : Nat} {bs : List Byte}

/-- A scalar load of sixteen bytes sets two registers (R162). -/
theorem deliver_scalar_two (hdest : x.dest = (1, d, 4, conv)) (hgot : tabFind x.got 0 = some bs) :
    s.deliver id x = (s.loadSet id x.agent d (BitVec.ofNat 64 (ofBytes (bs.take 8)))).loadSet id x.agent (d + 1)
      (BitVec.ofNat 64 (ofBytes ((bs.drop 8).take 8))) := by
  simp [State.deliver, hdest, hgot, field_eq_ofBytes]

/-- Without a push of its own under way, a load sets a register. -/
theorem loadSet_of_no_push {a : Agent} {r : Nat} (v : Word) (h : ∀ p ∈ s.accesses, ¬(p.2.what = 5 ∧ p.2.op = id ∧ p.2.dest.2.1 = r)) :
    s.loadSet id a r v = s.sset a r v := by
  have hnone : s.accesses.find? (fun p => p.2.what == 5 && p.2.op == id && p.2.dest.2.1 == r) = none :=
    List.find?_eq_none.2 (fun p hp => by simpa [and_assoc] using h p hp)
  simp only [State.loadSet, hnone]

/-- The push that stands for a load's port takes the load's value (R233). -/
theorem loadSet_of_push {a : Agent} {r p c q : Nat} {w : Option Word} {y : Access} (v : Word) (hfind : tabFind s.accesses p = some y)
    (hy : y.what = 5 ∧ y.op = id ∧ y.dest.2.1 = r)
    (hone : ∀ n z, (n, z) ∈ s.accesses → z.what = 5 → z.op = id → z.dest.2.1 = r → n = p) (hact : y.act = some (.push c q w)) :
    ∃ z, tabFind (s.loadSet id a r v).accesses p = some z ∧ z.act = some (.push c q (some v)) ∧ z.agent = y.agent := by
  obtain ⟨hwhat, hop, hreg⟩ := hy
  obtain ⟨⟨n, z⟩, hfirst⟩ : ∃ e, s.accesses.find? (fun p => p.2.what == 5 && p.2.op == id && p.2.dest.2.1 == r) = some e := by
    rw [← Option.isSome_iff_exists, List.find?_isSome]
    exact ⟨(p, y), mem_of_tabFind hfind, by simp [hwhat, hop, hreg]⟩
  have hz := List.find?_some hfirst
  simp only [Bool.and_eq_true, beq_iff_eq] at hz
  obtain ⟨⟨hzw, hzo⟩, hzr⟩ := hz
  have hn : n = p := hone n z (List.mem_of_find?_eq_some hfirst) hzw hzo hzr
  subst hn
  simp only [State.loadSet, hfirst, tabFind_tabMod_self, hfind, Option.map_some, Option.some.injEq, exists_eq_left', hact, and_self]

/-- Registers written one after the other from `d` on: each by its own, reading what stood there. -/
theorem vget_foldl_vput {g : Nat} (f : Nat → List Lane → List Lane) (n j : Nat) (hg : (tabFind s.groups g).isSome = true) :
    let t := (List.range n).foldl (fun s j => s.vput g (d + j) (f j (s.vget g (d + j)))) s
    (tabFind t.groups g).isSome = true ∧ t.vget g (d + j) = if j < n then f j (s.vget g (d + j)) else s.vget g (d + j) := by
  induction n with
  | zero => simp [hg]
  | succ n ih =>
    obtain ⟨hgroup, hreg⟩ := ih
    rw [List.range_succ, List.foldl_append]
    simp only [List.foldl_cons, List.foldl_nil]
    refine ⟨?_, ?_⟩
    · simpa [State.vput, State.modGroup] using hgroup
    · by_cases hj : j = n
      · subst hj
        rw [vget_vput_self _ _ hgroup, hreg, if_neg (Nat.lt_irrefl _), if_pos (Nat.lt_succ_self _)]
      · rw [vget_vput_other _ _ _ _ (.inr (by omega)), hreg]
        by_cases hlt : j < n
        · rw [if_pos hlt, if_pos (by omega)]
        · rw [if_neg hlt, if_neg (by omega)]

/-- A vector load of B to Q writes its words over the next registers (R157). -/
theorem lane_deliver_words {g k i j : Nat} (hdest : x.dest = (0, d, sz, conv)) (hagent : x.agent = .split g k) (hsz : sz < 5) (hi : i < 96)
    (hg : (tabFind s.groups g).isSome = true) : lane ((s.deliver id x).vget g (d + j)) i =
      if j < sizeRegs sz then
        match tabFind x.got i with
        | some bs => BitVec.ofNat 32 (ofBytes ((bs.drop (4 * j)).take 4))
        | none => lane (s.vget g (d + j)) i
      else lane (s.vget g (d + j)) i := by
  have hfold := vget_foldl_vput (s := s) (d := d) (fun j old => lanes (fun i => match tabFind x.got i with
    | some bs => BitVec.ofNat 32 (field bs (4 * j) 4)
    | none => lane old i)) (sizeRegs sz) j hg
  have hdeliver : s.deliver id x = (List.range (sizeRegs sz)).foldl (fun s j => s.vput g (d + j) (lanes (fun i =>
      match tabFind x.got i with
      | some bs => BitVec.ofNat 32 (field bs (4 * j) 4)
      | none => lane (s.vget g (d + j)) i))) s := by
    simp only [State.deliver, hdest, Nat.zero_ne_one, if_false, if_pos hsz, hagent, Agent.groupNo] <;> rfl
  rw [hdeliver, hfold.2]
  split
  · rw [lane_lanes _ hi]
    simp only [field_eq_ofBytes]
  · rfl

/-- A converting load of elements writes the widened value (R158), one of blocks its elements (R159). -/
theorem lane_deliver_converted {g k i : Nat} (hdest : x.dest = (0, d, 5, conv)) (hagent : x.agent = .split g k) (hi : i < 96)
    (hg : (tabFind s.groups g).isSome = true) : lane ((s.deliver id x).vget g d) i =
      if conv < 3 then
        match tabFind x.got i with
        | some bs => (widen1 conv (ofBytes bs)).1
        | none => lane (s.vget g d) i
      else
        match tabFind x.got (i / 16) with
        | some bs => if x.mask.getLsbD i then sxLane conv bs i else lane (s.vget g d) i
        | none => lane (s.vget g d) i := by
  have h5 : ¬ 5 < 5 := Nat.lt_irrefl 5
  simp only [State.deliver, hdest, Nat.zero_ne_one, if_false, if_neg h5, hagent, Agent.groupNo]
  by_cases hconv : conv < 3
  · rw [if_pos hconv, if_pos hconv, vget_raiseFlags, vget_vput_self _ _ hg]
    simp [lane, hi]
    cases tabFind x.got i <;> rfl
  · rw [if_neg hconv, if_neg hconv, vget_vput_self _ _ hg, lane_lanes _ hi] <;> rfl

end

theorem widen1_eq (conv x : Nat) : (widen1 conv x).1 =
    if conv = 0 then BitVec.ofNat 32 x else BitVec.ofNat 32 (convF (if conv = 1 then bf16 else fp16) fp32 .ne false x).1 := by
  unfold widen1
  split <;> rfl

/-- Settles O14: a load's bytes are fields of what it has got (`field_eq_ofBytes`), lane by lane and register by register
(`lane_deliver_words`, `lane_deliver_converted`); atomics are arithmetic of words (`atomNew_integer`). -/
theorem loadedValues : Obligations.LoadedValues := by
  refine ⟨⟨fun s id x d sz conv bs hdest hgot => ⟨fun hsz => deliver_scalar hdest hsz hgot, fun hsz => ?_⟩,
    fun s id a r v => ⟨loadSet_of_no_push v, fun p y hfind hwhat hop hreg hone c q w hact =>
      loadSet_of_push v hfind ⟨hwhat, hop, hreg⟩ hone hact⟩,
    fun s id x g k d sz conv i j hdest hagent hsz hi hg => lane_deliver_words hdest hagent hsz hi hg,
    fun s id x g k d conv i hdest hagent hi hg => ?_⟩, fun x y z p q v => ?_⟩
  · subst hsz
    exact deliver_scalar_two hdest hgot
  · rw [lane_deliver_converted hdest hagent hi hg]
    simp only [widen1_eq] <;> rfl
  · obtain ⟨h11, h12, h13, h14⟩ := atomNew_unsigned x y z
    have h32 {op : Nat} := atomNew_integer (w := 31) (op := op) x y z
    have h64 {op : Nat} := atomNew_integer (w := 63) (op := op) p q v
    exact ⟨h32 rfl (by decide), h32 rfl (by decide), h32 rfl (by decide), h32 rfl (by decide), h32 rfl (by decide),
      h32 rfl (by decide), h32 rfl (by decide), h32 rfl (by decide), rfl, rfl, rfl, h11, h12, h13, h14,
      h64 rfl (by decide), h64 rfl (by decide), h64 rfl (by decide), h64 rfl (by decide), h64 rfl (by decide),
      h64 rfl (by decide), h64 rfl (by decide), h64 rfl (by decide)⟩

end Sys2Proof
end

section
/-!
Checks before an issue (spec/06_encoding.md R93) and before a memory access (spec/11_isa_memory.md R155, spec/29_errors_execution.md
R360, R362).
-/

namespace Sys2Proof

open Sys2Proof.Machine

/-- TVAL of an ILLEGAL trap as its two fields (R360). -/
theorem illegalVal_eq_append {sub : Nat} (hsub : sub < 2 ^ 8) (v : Nat) :
    illegalVal sub v = BitVec.ofNat 8 sub ++ BitVec.ofNat 56 (v % 2 ^ 48) := by
  apply BitVec.eq_of_toNat_eq
  have hlow : v % 2 ^ 48 < 2 ^ 56 := by omega
  rw [BitVec.toNat_append, BitVec.toNat_ofNat, BitVec.toNat_ofNat, Nat.mod_eq_of_lt hsub, Nat.mod_eq_of_lt hlow,
    ← Nat.shiftLeft_add_eq_or_of_lt hlow, Nat.shiftLeft_eq, illegalVal, BitVec.toNat_ofNat]
  exact Nat.mod_eq_of_lt (by omega)

/-- A check of R93 that fails is the issue's trap (R360, R362). -/
theorem issue_illegal {n : Need} {a : Agent} {s : State} {sub : Nat} (hcur : s.cur = some a) (halive : s.alive a = true)
    (hill : n.illegal s a = some sub) (body : Ctx → State → Act) :
    issue n body s = .next (s.takeTrap a 0x01 (illegalVal sub (s.insnWord a (s.strand a).pc n.len))) := by
  refine issue_gate_trap hcur halive ?_ body
  simp only [gate, hill]

/-- The registers that an agent has declared. -/
def declaredRegs (s : State) : Agent → Nat
  | .split g _ => (s.group g).nreg
  | .thread _ => 64

/-- Check 4 fails on a register beyond the declared count, or on one that is not aligned. -/
theorem illegal_of_register {n : Need} {a : Agent} {s : State} (h : (∃ r ∈ n.lim, declaredRegs s a ≤ r) ∨ (∃ r ∈ n.even, r % 2 = 1) ∨
    ∃ r ∈ n.quad, r % 4 ≠ 0) : n.illegal s a = some 4 := by
  refine if_pos ?_
  simp only [Bool.or_eq_true, List.any_eq_true, decide_eq_true_eq, bne_iff_ne]
  rcases h with h | ⟨r, hr, hodd⟩ | h
  · exact .inl (.inl h)
  · exact .inl (.inr ⟨r, hr, by omega⟩)
  · exact .inr h

/-- Check 5 is made when check 4 passes, and fails on a member that the agent's kind of core does not have. -/
theorem illegal_of_core {n : Need} {a : Agent} {s : State} (hlim : ∀ r ∈ n.lim, r < declaredRegs s a) (heven : ∀ r ∈ n.even, r % 2 = 0)
    (hquad : ∀ r ∈ n.quad, r % 4 = 0) (hcore : (a.isThread = true ∧ n.ctl = false) ∨ (a.isThread = false ∧ n.vec = false)) :
    n.illegal s a = some 5 := by
  refine (if_neg ?_).trans (if_pos ?_)
  · simp only [Bool.or_eq_true, List.any_eq_true, decide_eq_true_eq, bne_iff_ne]
    rintro ((⟨r, hr, hle⟩ | ⟨r, hr, hne⟩) | ⟨r, hr, hne⟩)
    · exact absurd hle (Nat.not_le_of_lt (hlim r hr))
    · exact hne (heven r hr)
    · exact hne (hquad r hr)
  · simpa using hcore

/-- MISALIGN comes first among the traps of accesses (R362). -/
theorem memTrap_misaligned {es : List Elem} {l : Elem} (h : es.find? (fun e => e.va % e.al != 0) = some l) (s : State) (a : Agent)
    (probes : List Probe) (early : Bool) : s.memTrap a es probes early = some (0x03, l.va) := by
  simp only [State.memTrap, h]

/-- A memory instruction with a misaligned access traps, whether it loads or stores. -/
theorem memIssue_misaligned {f : MemForm} {s : State} {a : Agent} {c : Ctx} {u : State} {l : Elem} (hopen : Opens f.need a s c u)
    (h : (f.elems c u).find? (fun e => e.va % e.al != 0) = some l) :
    memIssue f s = .next (s.takeTrap a 0x03 (BitVec.ofNat 64 l.va)) := by
  refine issue_trap hopen ?_
  split
  · simp only [storeBody, storeOf, memTrap_misaligned h]
    exact if_neg (by decide)
  · simp only [loadBody, memTrap_misaligned h]

/-- Loads, atomics and stores run the memory instruction of their form. -/
theorem exec_memForms (d r x : BitVec 6) (st : StreamNo) (zv : MemSize) (zs : SMemSize) (e : Option (BitVec 25)) (s : State) :
    ∀ row ∈ loadForms d r x st zv zs e ++ storeForms d r x st zv zs e, exec row.1 s = memIssue row.2 s := by
  unfold loadForms storeForms
  repeat refine List.forall_mem_cons.2 ⟨rfl, ?_⟩
  exact List.forall_mem_nil _

/-- Settles O16: the subcode of a failed check (`illegal_of_register`, `illegal_of_core`) is the issue's trap, and MISALIGN is the first
trap of an access (`memIssue_misaligned`). -/
theorem checksBeforeIssue : Obligations.ChecksBeforeIssue := by
  refine ⟨fun n a s body hcur halive => ⟨fun h => ?_, fun hlim heven hquad hcore => ?_⟩,
    fun d r x st zv zs e row hrow s ag c u l hopen hfind => ?_⟩
  · rw [issue_illegal hcur halive (illegal_of_register h), illegalVal_eq_append (by decide)]
    rfl
  · rw [issue_illegal hcur halive (illegal_of_core hlim heven hquad hcore), illegalVal_eq_append (by decide)]
    rfl
  · rw [exec_memForms d r x st zv zs e s row hrow]
    exact memIssue_misaligned hopen hfind

end Sys2Proof
end

section
/-!
Loads, atomics and stores as they issue (spec/11_isa_memory.md R155 to R166).
-/

namespace Sys2Proof

open Sys2Proof.Machine

/-! ### Stores -/

/-- A store that is not performed in its core yet is performed by a later step (R161). -/
def storeGoesOn (t : State) (id : Nat) : State :=
  match tabFind t.accesses id with
  | some y => if y.via then t.later 1 (.storePerformed id .none) else t
  | none => t

theorem storeGoesOn_eq (t : State) (id : Nat) : storeGoesOn t id =
    if (match tabFind t.accesses id with | some y => y.via | none => false) = true then t.later 1 (.storePerformed id .none) else t := by
  unfold storeGoesOn
  cases tabFind t.accesses id <;> rfl

/-- What a store leaves when every home answers (R53, R84, R155, R161). -/
def storeLeft (f : MemForm) (es : List Elem) (data : Elem → List Byte × FFlags) (c : Ctx) (s : State) : State :=
  let sp := s.stream c.a f.st
  let rel := f.release && !s.allUo c.a es
  let beyond := rel && s.beyondCore c.a sp.scope
  let buffers := (s.wg ((s.wgOf c.a).getD 0)).buffers && !c.a.isThread && !beyond
  let v := if beyond then s.implicitCommit c.a else s
  let w := if rel then v.flush c.a v.nextId else es.foldl (fun s e => s.settle c.a s.nextId e.va e.n) v
  let z := w.raiseFlags c.a (es.foldl (fun m e => m ||| (data e).2) 0)
  let acc := f.store c s es (fun e => (data e).1) rel buffers
  let put : State := { z with accesses := tabPut z.accesses z.nextId acc, nextId := z.nextId + 1 }
  let out := if put.mustWait z.nextId acc || put.releaseWaits acc then put else put.storeVia z.nextId
  if es.isEmpty then z else storeGoesOn out z.nextId

theorem storeOf_done {f : MemForm} {es : List Elem} {data : Elem → List Byte × FFlags} {c : Ctx} {s : State} {probes : List Probe}
    (hprobes : probes = es.map (fun e => s.storeProbe c.a (s.stream c.a f.st)
      ((f.release && !s.allUo c.a es) && s.beyondCore c.a (s.stream c.a f.st).scope)
      ((s.wg ((s.wgOf c.a).getD 0)).buffers && !c.a.isThread &&
        !((f.release && !s.allUo c.a es) && s.beyondCore c.a (s.stream c.a f.st).scope)) e))
    (hok : probes.all (fun p => p == .ok) = true) (htrap : s.memTrap c.a es probes true = none) (hslots : s.slotsFull c.a.unit = false) :
    storeOf f es data c s = .done (storeLeft f es data c s) := by
  have hlen : probes.length = es.length := by rw [hprobes, List.length_map]
  have hzip : ∀ x ∈ es.zip probes, x.2 = .ok := fun x hx => by
    simpa using List.all_eq_true.1 hok x.2 (List.of_mem_zip hx).2
  have hgood : ((es.zip probes).filter (fun x => x.2 == .ok)).map (·.1) = es := by
    rw [List.filter_eq_self.2 (fun x hx => by simp [hzip x hx]), List.map_fst_zip (by omega)]
  have hbad : (es.zip probes).filter (fun x => x.2 != .ok) = [] := List.filter_eq_nil_iff.2 (fun x hx => by simp [hzip x hx])
  unfold storeOf
  split
  extract_lets st rel beyond buffers probes' good bad v w z id acc put out left
  obtain rfl : probes' = probes := hprobes.symm
  have hgood' : good = es := hgood
  have hbad' : bad = [] := hbad
  clear_value good bad
  subst hgood' hbad'
  have hacc : acc = f.store c s good (fun e => (data e).1) rel buffers := by simp only [acc, List.isEmpty_nil, Bool.and_true]
  clear_value acc
  subst hacc
  simp -zeta only [htrap, hslots, Bool.false_eq_true, if_false]
  rfl

/-! ### Loads and atomics -/

/-- How a load or an atomic goes on once it has entered, by its latency, if that is known, and whether it acquires (R156, R161, R163). -/
def loadEnds (f : MemForm) (c : Ctx) (conv id : Nat) (acc : Access) (held : Bool) (pc next : Word) (put : State) :
    Option Nat → Bool → State
  | some l, false =>
    let t := (put.performOne id).1
    (({ t with accesses := tabDel t.accesses id } : State).deliver id ((tabFind t.accesses id).getD acc)).retire
      { f.need with lat := l + convExtra f.size conv } c next
  | some l, true => ((f.need.dst.foldl (fun t r => t.reservePush c.a id r) put).inClk l (.loadComplete id .none)).retire
      { f.need with open_ := true } c next
  | none, _ =>
    let t := (f.need.dst.foldl (fun t r => t.reservePush c.a id r) put).later 16 (.loadComplete id .none)
    if held then (t.retire { f.need with open_ := true } c pc).modStrand c.a (fun y => { y with wait := some (.access id), resume := next })
    else t.retire { f.need with open_ := true } c next

/-- What a load or an atomic leaves at its issue (R155, R156, R161, R163, R164). -/
def loadIssued (f : MemForm) (c : Ctx) (s : State) (pc next : Word) : State :=
  let es := f.elems c s
  let v := es.foldl (fun s e => s.settle c.a s.nextId e.va e.n) s
  let w := if f.what = 2 then v.implicitCommit c.a else v
  let uo := s.allUo c.a es
  let ord := (s.stream c.a f.st).ord
  let acq := !uo && (f.acquire || (f.what == 2 && ord.getLsbD 0))
  let held := (es.map (fun e => s.probe c.a (f.what == 2) e)).any (fun p => p != .ok)
  let acc := f.access c s es acq (!uo && f.what == 2 && ord.getLsbD 1) held
  let put : State := { w with accesses := tabPut w.accesses w.nextId acc, nextId := w.nextId + 1 }
  loadEnds f c (s.conv c.a) w.nextId acc held pc next put
    (if held || f.what = 2 || put.mustWait w.nextId acc then none else put.loadLat c.a es) acq

theorem loadEnds_eq (f : MemForm) (c : Ctx) (conv id : Nat) (acc : Access) (held : Bool) (pc next : Word) (put : State) (lat : Option Nat)
    (acq : Bool) : loadEnds f c conv id acc held pc next put lat acq = match lat, acq with
      | some l, false =>
        let t := (put.performOne id).1
        (({ t with accesses := tabDel t.accesses id } : State).deliver id ((tabFind t.accesses id).getD acc)).retire
          { f.need with lat := l + convExtra f.size conv } c next
      | some l, true => ((f.need.dst.foldl (fun t r => t.reservePush c.a id r) put).inClk l (.loadComplete id .none)).retire
          { f.need with open_ := true } c next
      | none, _ =>
        let t := (f.need.dst.foldl (fun t r => t.reservePush c.a id r) put).later 16 (.loadComplete id .none)
        if held then (t.retire { f.need with open_ := true } c pc).modStrand c.a (fun y =>
          { y with wait := some (.access id), resume := next })
        else t.retire { f.need with open_ := true } c next := by
  cases lat with
  | some l => cases acq <;> rfl
  | none => cases held <;> rfl

theorem loadBody_gone {f : MemForm} {c : Ctx} {s : State}
    (htrap : s.memTrap c.a (f.elems c s) ((f.elems c s).map (fun e => s.probe c.a (f.what == 2) e)) false = none)
    (hslots : s.slotsFull c.a.unit = false) : loadBody f c s = .gone (loadIssued f c s c.pc c.next) := by
  unfold loadBody
  extract_lets es probes uo ord acq rel v w id held acc put lat
  have htrap' : s.memTrap c.a es probes false = none := htrap
  simp -zeta only [htrap', hslots, Bool.false_eq_true, if_false]
  change _ = Act.gone (loadEnds f c (s.conv c.a) id acc held c.pc c.next put lat acq)
  clear_value lat put acc held acq
  cases lat with
  | some l => cases acq <;> rfl
  | none => cases held <;> rfl

/-- Loads and atomics run the load of their form. -/
theorem exec_loadForms (d r x : BitVec 6) (st : StreamNo) (zv : MemSize) (zs : SMemSize) (e : Option (BitVec 25)) (s : State) :
    ∀ row ∈ loadForms d r x st zv zs e, exec row.1 s = issue row.2.need (loadBody row.2) s := by
  unfold loadForms
  repeat refine List.forall_mem_cons.2 ⟨rfl, ?_⟩
  exact List.forall_mem_nil _

/-- Settles O11: a load or an atomic is its body (`loadBody_gone`) at an open gate. -/
theorem loadsAndAtomicsIssue : Obligations.LoadsAndAtomicsIssue := by
  intro d r x st zv zs e row hrow s ag c u f hopen es probes htrap hslots
  obtain rfl : c.a = ag := opens_agent hopen
  refine gone_of hopen (exec_loadForms d r x st zv zs e s row hrow) (loadBody_gone htrap hslots) ?_
  rw [opens_pc hopen, opens_next hopen]
  exact loadEnds_eq ..

/-- Settles O12: a store is its body (`storeOf_done`) at an open gate. -/
theorem storesIssue : Obligations.StoresIssue := by
  intro d r x st zv zs e row hrow s ag c u f hopen es data sp rel beyond buffers probes hok htrap hslots v w z acc put out kept
  obtain rfl : c.a = ag := opens_agent hopen
  have hbody := storeOf_done (data := data) (probes := probes) rfl hok htrap hslots
  have hleft : storeLeft f es data c u = if es.isEmpty then z else if kept then out.later 1 (.storePerformed z.nextId .none) else out :=
    congrArg (fun t => if es.isEmpty then z else t) (storeGoesOn_eq out z.nextId)
  simp only [List.mem_cons, List.not_mem_nil, or_false] at hrow
  rcases hrow with rfl | rfl | rfl | rfl | rfl
  all_goals exact done_of hopen rfl hbody rfl hleft

end Sys2Proof
end

section
/-!
Accesses as they are performed (spec/05_memory.md R78 to R84, spec/03_execution.md R53, spec/11_isa_memory.md R155, R161 to R166): no
agent comes or goes, and memory keeps its canonical form.
-/

namespace Sys2Proof

open Sys2Proof.Machine

/-- The agents are the same, and memory keeps its form. -/
structure Firm (s t : State) : Prop where
  alive : ∀ b, t.alive b = s.alive b
  form  : Memory.wf s.mem = true → Memory.wf t.mem = true

theorem Firm.same (s : State) : Firm s s := ⟨fun _ => rfl, id⟩

theorem Firm.trans {s t u : State} (h : Firm s t) (h' : Firm t u) : Firm s u :=
  ⟨fun b => (h'.alive b).trans (h.alive b), fun w => h'.form (h.form w)⟩

theorem Firm.foldl {α : Type} {f : State → α → State} (h : ∀ s x, Firm s (f s x)) (l : List α) (s : State) : Firm s (l.foldl f s) :=
  keepFold f Firm Firm.same (fun _ _ _ => Firm.trans) h l s

/-- A change of a part of the state that is neither memory nor a table of agents. -/
theorem Firm.of_tables {s t : State} (hg : t.groups = s.groups) (ht : t.threads = s.threads) (hm : t.mem = s.mem) : Firm s t :=
  ⟨alive_of_tables hg ht, fun w => by rw [hm]; exact w⟩

theorem Below.firm {s t : State} (h : Below s t) : Firm s t := ⟨alive_of_tables h.groups h.threads, h.form⟩

theorem Apart.firm {s t : State} (h : Apart s t) : Firm s t := ⟨h.alive, h.form⟩

section
variable (s : State)

theorem Firm.modWg (w : Nat) (f : Workgroup → Workgroup) : Firm s (s.modWg w f) := Firm.of_tables rfl rfl rfl
theorem Firm.modCluster (c : Nat) (f : Cluster → Cluster) : Firm s (s.modCluster c f) := Firm.of_tables rfl rfl rfl
theorem Firm.modCore (c : Nat) (f : Core → Core) : Firm s (s.modCore c f) := Firm.of_tables rfl rfl rfl
theorem Firm.setL1 (c key : Nat) (l : L1Line) : Firm s (s.setL1 c key l) := Firm.of_tables rfl rfl rfl
theorem Firm.mapL1 (c : Nat) (f : Nat → L1Line → Sector → Option Sector) : Firm s (s.mapL1 c f) := Firm.of_tables rfl rfl rfl
theorem Firm.inClk (n : Nat) (i : Instr) : Firm s (s.inClk n i) := Firm.of_tables rfl rfl rfl
theorem Firm.later (n : Nat) (i : Instr) : Firm s (s.later n i) := Firm.of_tables rfl rfl rfl
theorem Firm.putBytes (a : Nat) (bs : List Byte) : Firm s (s.putBytes a bs) := (Below.putBytes s a bs).firm
theorem Firm.modSplit (g k : Nat) (f : Split → Split) : Firm s (s.modSplit g k f) := ⟨alive_modSplit s g k f, id⟩

theorem Firm.raiseFlags (a : Agent) (f : FFlags) : Firm s (s.raiseFlags a f) := by
  cases a with
  | split g k => exact Firm.modSplit s g k _
  | thread t => exact Firm.same s

/-! ### A commit and the L1 (R53, R81 to R84) -/

theorem Firm.countEvent (vi : BitVec 8) (asid : BitVec 16) (n k : Nat) : Firm s (s.countEvent vi asid n k) := by
  unfold State.countEvent
  extract_lets key
  split
  · exact Firm.same s
  · split
    · exact Firm.of_tables rfl rfl rfl
    · exact Firm.same s

theorem Firm.traceEvent (vi : BitVec 8) (asid : BitVec 16) (name : List Byte) (event value : Nat) (pc : Word) :
    Firm s (s.traceEvent vi asid name event value pc) := by
  unfold State.traceEvent
  split
  · exact Firm.same s
  · exact (Firm.countEvent s _ _ _ _).trans (Below.enqueue _ _ _).firm

theorem Firm.settleL2 (key : Nat) (policy : BitVec 2) (fresh : Bool) : Firm s (s.settleL2 key policy fresh) := by
  unfold State.settleL2
  split
  · exact ((Below.writeBack s key).trans (Below.dropL2 _ key)).firm
  · split
    · split
      · exact (Below.setL2 s _ _).firm
      · exact Firm.same s
    · exact Firm.same s

theorem Firm.commitSector (core key i : Nat) (wide : Bool) (ps : List (BitVec 2)) : Firm s (s.commitSector core key i wide ps) := by
  unfold State.commitSector
  extract_lets fresh s1
  have h1 : Firm s s1 := by
    simp only [s1]
    split
    · exact (Apart.backSector s _ _ _ _).firm
    · exact Firm.same s
  split
  · exact h1
  · split
    · exact h1
    · exact h1.trans (Firm.settleL2 s1 _ _ _)

theorem Firm.commitStores (w : Nat) : Firm s (s.commitStores w) := by
  unfold State.commitStores
  extract_lets wide s1 s2
  have h1 : Firm s s1 := Firm.foldl (fun s c => (Firm.mapL1 s c _).trans (Firm.foldl (fun s p => Firm.commitSector s _ _ _ _ _) _ _)) _ s
  exact h1.trans (Firm.of_tables rfl rfl rfl)

theorem Firm.commitRegion (w : Nat) : Firm s (s.commitRegion w) := by
  unfold State.commitRegion
  split
  · exact ((Firm.commitStores s w).trans (Firm.modWg _ w _)).trans (Firm.traceEvent _ _ _ _ _ _ _)
  · exact Firm.same s

theorem Firm.implicitCommit (a : Agent) : Firm s (s.implicitCommit a) := by
  unfold State.implicitCommit
  split
  · exact Firm.commitRegion s _
  · exact Firm.same s

theorem Firm.evictL1 (core key : Nat) : Firm s (s.evictL1 core key) := by
  unfold State.evictL1
  split
  · exact Firm.same s
  · exact ((Firm.foldl Firm.commitRegion _ s).trans (Apart.backWhere _ _ _).firm).trans (Firm.modCore _ _ _)

theorem Firm.roomL1 (core key : Nat) : Firm s (s.roomL1 core key) := by
  unfold State.roomL1
  split
  · exact Firm.same s
  · extract_lets set
    split
    · exact Firm.same s
    · clear_value set
      cases set with
      | nil => exact Firm.same s
      | cons l r => exact Firm.evictL1 s _ _

theorem Firm.fillL1 (core key stream : Nat) : Firm s (s.fillL1 core key stream) := by
  unfold State.fillL1
  split
  · exact Firm.same s
  · exact (Firm.roomL1 s core key).trans (Firm.setL1 _ _ _ _)

theorem Firm.touchL1 (core key stream : Nat) : Firm s (s.touchL1 core key stream) := by
  unfold State.touchL1
  split
  · exact Firm.same s
  · exact Firm.setL1 s _ _ _

theorem Firm.writeL1 (core key va stream wg : Nat) (a : Agent) (region : Bool) (policy : Option (BitVec 2)) (covers : Nat → Bool)
    (bs : List Byte) : Firm s (s.writeL1 core key va stream wg a region policy covers bs) := Firm.of_tables rfl rfl rfl

theorem Firm.homeWhole (key va n : Nat) (covers : Nat → Bool) : Firm s (s.homeWhole key va n covers) := by
  unfold State.homeWhole
  split
  · exact Firm.same s
  · split
    · exact Firm.same s
    · exact (Below.setL2 s _ _).firm

theorem Firm.wholeBytes (a n : Nat) (covers : Nat → Bool) : Firm s (s.wholeBytes a n covers) := Firm.of_tables rfl rfl rfl

/-! ### Stores (R84, R155) -/

theorem Firm.storeLanes (x : Access) (id : Nat) (ls : List (Nat × Word × List Byte)) : Firm s (s.storeLanes x id ls) := by
  induction ls generalizing s with
  | nil => exact Firm.of_tables rfl rfl rfl
  | cons l r ih =>
    obtain ⟨i, va, bs⟩ := l
    unfold State.storeLanes
    split
    · exact ih s
    · split
      · split
        · exact (Apart.hold s _ _ _ _ _ _).firm
        · exact Firm.same s
      · refine Firm.trans (Firm.foldl (fun s n => ?_) _ s) (ih _)
        extract_lets part key t
        split
        · exact (Apart.putHome s _ _ _ _ _ _ _ _).firm.trans (Firm.homeWhole _ _ _ _ _)
        · have ht : Firm s t := (Apart.mergeHome s _ _ _ _ _ _ _ _).firm
          split
          · exact ht.trans (Firm.homeWhole t _ _ _ _)
          · exact ht

theorem Firm.releaseStep (x : Access) : Firm s (s.releaseStep x).1 := by
  unfold State.releaseStep
  split
  · exact (Apart.releaseL1 s _ _ _).firm
  · exact Firm.same s

theorem Firm.storeOne (id : Nat) : Firm s (s.storeOne id) := by
  unfold State.storeOne
  split
  · exact Firm.same s
  · next x _ =>
    split
    · exact Firm.same s
    · have hstep := Firm.releaseStep s x
      split
      next t ok heq =>
        rw [heq] at hstep
        split
        · exact hstep
        · extract_lets fresh u
          have hu : Firm t u := (Firm.of_tables rfl rfl rfl : Firm t (t.unhold id)).trans (Firm.storeLanes _ _ _ _)
          exact (hstep.trans hu).trans (Firm.foldl (fun s k => Firm.settleL2 s _ _ _) _ u)

/-- One element of a store, whose parts go on one from the other. -/
theorem Firm.foldPut {α : Type} {f : Put → α → Put} (h : ∀ p x, Firm p.s (f p x).s) (l : List α) (p : Put) : Firm p.s (l.foldl f p).s := by
  induction l generalizing p with
  | nil => exact Firm.same p.s
  | cons x r ih => exact (h p x).trans (ih (f p x))

theorem Firm.storeElem (p : Put) (x : Access) (i va : Nat) (bs : List Byte) : Firm p.s (State.storeElem p x i va bs).s := by
  unfold State.storeElem
  extract_lets buffers
  split
  · split
    · exact Firm.same p.s
    · refine Firm.foldPut (fun p n => ?_) _ p
      extract_lets part key out0 out s
      have hs : Firm p.s s := by
        simp only [s]
        split
        · exact Firm.roomL1 p.s _ _
        · exact Firm.same p.s
      split
      · exact hs.trans (Firm.writeL1 s _ _ _ _ _ _ _ _ _ _)
      · split
        · dsimp only
          split
          · exact hs.trans (Firm.evictL1 s _ _)
          · exact hs
        · exact hs.trans (Firm.writeL1 s _ _ _ _ _ _ _ _ _ _)
  · split
    · exact Firm.same p.s
    · split
      · split
        · refine Firm.foldPut (fun p n => ?_) _ p
          extract_lets s part
          have hs : Firm p.s s := Firm.roomL1 p.s _ _
          split
          · exact hs.trans (Firm.writeL1 s _ _ _ _ _ _ _ _ _ _)
          · exact hs.trans ((Firm.putBytes s _ _).trans (Firm.wholeBytes _ _ _ _))
        · exact (Firm.putBytes p.s _ _).trans (Firm.wholeBytes _ _ _ _)
      · exact (Firm.putBytes p.s _ _).trans (Firm.wholeBytes _ _ _ _)

theorem Firm.storeVia (id : Nat) : Firm s (s.storeVia id) := by
  unfold State.storeVia
  split
  · exact Firm.same s
  · next x _ =>
    split
    · exact Firm.same s
    · have hstep (b : Bool) : Firm s (if b = true then (s, true) else s.releaseStep x).1 := by
        cases b
        · exact Firm.releaseStep s x
        · exact Firm.same s
      specialize hstep (x.lanes.all (fun l => (regionOf l.2.1.toNat l.2.2.length).1 == .global) && s.beyondCore x.agent x.st.scope)
      split
      next t ok heq =>
        rw [heq] at hstep
        split
        · exact hstep
        · extract_lets p
          have hp : Firm t p.s := Firm.foldPut (f := fun p l => State.storeElem p x l.1 l.2.1.toNat l.2.2)
            (fun p l => Firm.storeElem p x _ _ _) x.lanes { s := t, left := [] }
          split
          · exact (hstep.trans hp).trans (Firm.of_tables rfl rfl rfl)
          · exact (hstep.trans hp).trans (Firm.of_tables rfl rfl rfl)

/-! ### Loads and atomics (R155, R164) -/

/-- What an element leaves, where it can be performed. -/
def Got.firm (s : State) (g : Got) : Prop := ∀ t bs bad, g = .ok t bs bad → Firm s t

theorem Got.firm_ok {t : State} (bs : List Byte) (bad : Bool) (h : Firm s t) : Got.firm s (.ok t bs bad) := by
  intro u bs' bad' e
  cases e
  exact h

theorem Got.firm_stop (w : Stop) : Got.firm s (.stop w) := fun _ _ _ e => Got.noConfusion e

theorem Firm.loadLine (x : Access) (core : Option Nat) (va n : Nat) : Got.firm s (s.loadLine x core va n) := by
  unfold State.loadLine
  extract_lets key
  split
  · exact Got.firm_ok s _ _ (Firm.touchL1 s _ _ _)
  · split
    · next t hhome =>
      have ht : Firm s t := (Below.home s hhome).firm
      split
      extract_lets so
      split
      · extract_lets bs' u
        have hu : Firm t u := by
          simp only [u]
          split
          · exact Firm.fillL1 t _ _ _
          · exact Firm.same t
        exact Got.firm_ok s _ _ ((ht.trans hu).trans (Firm.settleL2 u _ _ _))
      · exact Got.firm_ok s _ _ (ht.trans (Firm.settleL2 t _ _ _))
    · exact Got.firm_stop s _

theorem Firm.loadRuns (x : Access) (core : Option Nat) (acc : List Byte) (bad : Bool) (runs : List (Nat × Nat)) :
    Got.firm s (s.loadRuns x core acc bad runs) := by
  induction runs generalizing s acc bad with
  | nil => exact Got.firm_ok s _ _ (Firm.same s)
  | cons r rest ih =>
    obtain ⟨va, n⟩ := r
    unfold State.loadRuns
    split
    · next t bs b hline =>
      have ht := Firm.loadLine s x core va n t bs b hline
      exact fun u bs' bad' e => ht.trans (ih t _ _ u bs' bad' e)
    · next g hg => exact fun u bs' bad' e => absurd e (hg u bs' bad')

theorem Firm.loadElem (x : Access) (i va n : Nat) : Got.firm s (s.loadElem x i va n) := by
  unfold State.loadElem
  split
  · exact Firm.loadRuns s x _ _ _ _
  · split
    · exact Got.firm_ok s _ _ (Firm.same s)
    · exact Got.firm_stop s _

theorem stop_ne_ok {α : Type} (h : Home) (va : Nat) (t : State) (x : α) : h.stop va ≠ Reach.ok t x := by
  cases h <;> nofun

theorem Firm.atomicElem (x : Access) (i va : Nat) (y y2 : List Byte) : Got.firm s (s.atomicElem x i va y y2) := by
  unfold State.atomicElem
  extract_lets n new
  split
  · next key core fill fresh _ _ _ =>
    split
    · have hfill : ∀ t, fill = Reach.ok t () → Firm s t := by
        intro t e
        simp only [fill] at e
        split at e
        · cases e
          exact Firm.same s
        · split at e
          · next u hhome =>
            cases e
            exact (Below.home s hhome).firm.trans (Firm.fillL1 u _ _ _)
          · exact absurd e (stop_ne_ok _ _ _ _)
      clear_value fill
      cases fill with
      | ok t u =>
        have ht : Firm s t := hfill t rfl
        dsimp only
        split
        · exact Got.firm_ok s _ _ ht
        · split
          · exact Got.firm_ok s _ _ (ht.trans (Firm.writeL1 t _ _ _ _ _ _ _ _ _ _))
          · exact Got.firm_ok s _ _ ht
        · exact Got.firm_stop s _
      | fault va' st i p => exact Got.firm_stop s _
      | denied code va' => exact Got.firm_stop s _
      | remote va' d r => exact Got.firm_stop s _
    · split
      · next t hhome =>
        have ht : Firm s t := (Below.home s hhome).firm
        extract_lets u
        have hu : Firm t u := by
          simp only [u]
          split
          · split
            · exact Firm.evictL1 t _ _
            · exact Firm.same t
          · exact Firm.same t
        split
        split
        · exact Got.firm_ok s _ _ (ht.trans hu)
        · split
          · exact Got.firm_ok s _ _ ((ht.trans hu).trans ((Below.homePut u _ _ _ _).firm.trans (Firm.settleL2 _ _ _ _)))
          · exact Got.firm_ok s _ _ ((ht.trans hu).trans (Firm.settleL2 u _ _ _))
      · exact Got.firm_stop s _
  · split
    · extract_lets bs
      split
      · exact Got.firm_ok s _ _ (Firm.same s)
      · split
        · exact Got.firm_ok s _ _ (Firm.putBytes s _ _)
        · exact Got.firm_ok s _ _ (Firm.same s)
    · exact Got.firm_stop s _

theorem Firm.performLanes (x : Access) (ls : List ((Nat × Word × List Byte) × List Byte)) : Firm s (s.performLanes x ls).1 := by
  induction ls generalizing s x with
  | nil => exact Firm.same s
  | cons l r ih =>
    obtain ⟨⟨i, va, y⟩, y2⟩ := l
    have hgot : Got.firm s (if x.what = 2 then s.atomicElem x i va.toNat y y2 else s.loadElem x i va.toNat y.length) := by
      split
      · exact Firm.atomicElem s _ _ _ _ _
      · exact Firm.loadElem s _ _ _ _
    unfold State.performLanes
    split
    · exact ih s x
    · split
      · next t bs bad heq => exact (hgot t bs bad heq).trans (ih t _)
      · exact Firm.same s

theorem Firm.performOne (id : Nat) : Firm s (s.performOne id).1 := by
  unfold State.performOne
  split
  · exact Firm.same s
  · next x _ =>
    extract_lets s1
    have h1 : Firm s s1 := by
      simp only [s1]
      split
      · exact Firm.releaseStep s x
      · exact Firm.same s
    exact (h1.trans (Firm.performLanes s1 x _)).trans (Firm.of_tables rfl rfl rfl)

/-! ### Releases (R161, R194) -/

theorem Firm.flushIds (ids : List Nat) : Firm s (s.flushIds ids) := by
  induction ids generalizing s with
  | nil => exact Firm.same s
  | cons i r ih =>
    unfold State.flushIds
    split
    · exact ih s
    · split
      · exact ih s
      · split
        · extract_lets t
          have ht : Firm s t := Firm.storeVia s i
          split
          · split
            · exact ht.trans (ih t)
            · exact ht.trans ((Firm.storeOne t i).trans (ih _))
          · exact ht.trans (ih t)
        · split
          · exact ih s
          · exact (Firm.performOne s i).trans (ih _)

theorem Firm.flush (a : Agent) (upto : Nat) : Firm s (s.flush a upto) := Firm.flushIds s _

theorem Firm.releaseEvery (a : Agent) (upto : Nat) (scope : BitVec 3) : Firm s (s.releaseEvery a upto scope).1 :=
  (Firm.flush s a upto).trans (Apart.releaseL1 _ _ _ _).firm

theorem Firm.settle (a : Agent) (upto va n : Nat) : Firm s (s.settle a upto va n) := by
  unfold State.settle
  split
  · exact Firm.flush s a upto
  · exact Firm.same s

theorem Firm.after (a : Agent) (act : After) : Firm s (s.after a act) := Firm.of_tables rfl rfl rfl

/-! ### Queue ports and scalar registers (R105, R233) -/

theorem Firm.setQueue (c q : Nat) (l : List QEntry) : Firm s (s.setQueue c q l) := Firm.modCluster s _ _

theorem Firm.pop (a : Agent) (r : Nat) : Firm s (s.pop a r) := by
  unfold State.pop
  split
  · exact Firm.same s
  · extract_lets keep es number t
    have ht : Firm s t := Firm.setQueue s _ _ _
    split
    · exact ht.trans (Firm.mapL1 t _ _)
    · exact ht

theorem Firm.popAll {a : Agent} {ports : List Nat} {p : State × List (Nat × Word)} (h : s.popAll a ports = some p) : Firm s p.1 := by
  induction ports generalizing s p with
  | nil =>
    cases h
    exact Firm.same s
  | cons r rest ih =>
    unfold State.popAll at h
    split at h
    · cases h
    · rw [Option.map_eq_some_iff] at h
      obtain ⟨q, hq, rfl⟩ := h
      have hrest := ih (s.pop a r) hq
      exact (Firm.pop s a r).trans hrest

theorem Firm.push (a : Agent) (r : Nat) (v : Word) : Firm s (s.push a r v) := by
  unfold State.push
  split
  · exact Firm.same s
  · have hrel := Firm.releaseEvery s a s.nextId 2
    split
    next t ok heq =>
      rw [heq] at hrel
      split
      · exact hrel.trans (Firm.setQueue t _ _ _)
      · exact hrel.trans (Firm.after t _ _)

theorem Firm.sput (a : Agent) (r : Nat) (v : Word) : Firm s (s.sput a r v) := by
  refine ⟨fun b => ?_, fun w => by rw [State.sput_mem]; exact w⟩
  unfold State.sput
  split
  · rfl
  · split
    · split
      · exact alive_modGroup s _ _ (fun x l => isSome_tabMod x.splits _ l _) b
      · exact alive_modGroup s _ _ (by intros; rfl) b
    · exact alive_modThread s _ _ (by intros; rfl) b

theorem Firm.sset (a : Agent) (r : Nat) (v : Word) : Firm s (s.sset a r v) := by
  unfold State.sset
  split
  · exact Firm.push s a r v
  · exact Firm.sput s a r v

/-- What an issue works with has the agents that there were. -/
theorem Firm.gate {n : Need} {a : Agent} {c : Ctx} {t : State} (h : gate n a s = .go c t) : Firm s t := by
  have hcommit {u : State} (h : Firm s u) (b : Bool) : Firm s (if b = true then u else u.implicitCommit a) := by
    cases b
    · exact h.trans (Firm.implicitCommit u a)
    · exact h
  unfold Machine.gate at h
  extract_lets x ports regs held at h
  split at h
  · cases h
  · iterate 4
      split at h
      · cases h
    split at h
    · cases h
    · split at h
      · cases h
      · next got mask _ _ _ _ _ _ _ _ _ _ =>
        have hgot : ∀ p, got = some p → Firm s p.1 := by
          intro p e
          simp only [got] at e
          split at e
          · cases e
            exact Firm.same s
          · exact Firm.popAll s e
        clear_value got
        split at h
        · cases h
        · next u popped heq =>
          iterate 2
            split at h
            · cases h
          split at h <;> split at h
          all_goals first
            | cases h; done
            | (obtain ⟨-, rfl⟩ := Gate.go.inj h; exact hcommit (hgot _ rfl) _)

theorem alive_of_opens {n : Need} {a : Agent} {s u : State} {c : Ctx} (h : Opens n a s c u) : u.alive a = true := by
  rw [(Firm.gate s h.2.2).alive]
  exact h.2.1

end

end Sys2Proof
end

section
/-!
Scalar accesses to local windows (spec/05_memory.md R75 to R78, spec/11_isa_memory.md R155, R156, R160, R162).
-/

namespace Sys2Proof

open Sys2Proof.Machine

/-! ### With no access under way -/

section
variable {s : State} {a : Agent}

theorem overlaps_of_no_accesses (h : s.accesses = []) (upto va n : Nat) : s.overlaps a upto va n = false := by
  simp [State.overlaps, h]

theorem settle_of_no_accesses (h : s.accesses = []) (upto va n : Nat) : s.settle a upto va n = s :=
  if_neg (by simp [overlaps_of_no_accesses h])

theorem slotsFull_of_no_accesses (h : s.accesses = []) (u : Nat) : s.slotsFull u = false := by
  simp [State.slotsFull, h]

/-- An access entered where none is under way waits for none. -/
theorem mustWait_of_first {id : Nat} {x : Access} (h : s.accesses = [(id, x)]) : s.mustWait id x = false := by
  simp [State.mustWait, State.overlaps, h]

/-- The storage behind a window is a matter of the workgroup, its launch and the allocations (R77). -/
theorem localAt_congr {s t : State} {b : Agent} (hwg : t.wgOf b = s.wgOf b) (hwgs : t.wgs = s.wgs) (hallocs : t.allocs = s.allocs)
    (lane : Option Nat) (r : Region) (o n : Nat) : t.localAt b lane r o n = s.localAt b lane r o n := by
  have hcovered (launch a n fuel : Nat) : t.covered launch a n fuel = s.covered launch a n fuel := by
    induction fuel generalizing a n with
    | zero => rfl
    | succ fuel ih => simp only [State.covered, hallocs, ih]
  have hentitled (launch a n : Nat) : t.entitled launch a n = s.entitled launch a n := by
    simp only [State.entitled, hallocs, hcovered]
  have hslice (g i o n : Nat) : t.sliceOf g i o n = s.sliceOf g i o n := by
    simp only [State.sliceOf, hallocs]
  have hlaunch (w : Nat) : t.wg w = s.wg w := by simp only [State.wg, hwgs]
  simp only [State.localAt, hwg, State.localIn, hentitled, hslice, hlaunch]

theorem wgOf_raiseFlags (s : State) (a : Agent) (f : FFlags) (b : Agent) : (s.raiseFlags a f).wgOf b = s.wgOf b := by
  cases b with
  | split g k => exact congrArg some (groupOf_raiseFlags s a f Group.wg (fun _ _ => rfl) g)
  | thread t => cases a <;> rfl

theorem raiseFlags_other {α : Type} (s : State) (a : Agent) (f : FFlags) (p : State → α) (h : ∀ s x, p { s with groups := x } = p s) :
    p (s.raiseFlags a f) = p s := by
  cases a with
  | split g k => exact h s _
  | thread t => rfl

end

/-! ### The one element of a scalar access -/

section
variable {s : State} {a : Agent} {e : Elem} {p : Nat}

/-- An element of a local window to which the launch is entitled. -/
structure InWindow (s : State) (a : Agent) (e : Elem) (p : Nat) : Prop where
  aligned : e.va % e.al = 0
  notGlobal : (regionOf e.va e.n).1 ≠ .global
  notNone : (regionOf e.va e.n).1 ≠ .none
  place : s.localAt a e.own (regionOf e.va e.n).1 (regionOf e.va e.n).2 e.n = some p

theorem InWindow.windowFails (h : InWindow s a e p) : s.windowFails a e = false := by
  obtain ⟨-, hglobal, hnone, hplace⟩ := h
  unfold State.windowFails
  split
  · next heq => exact absurd (by rw [heq]) hnone
  · next heq => exact absurd (by rw [heq]) hglobal
  · next r o _ _ heq =>
    rw [heq] at hplace
    rw [hplace]
    rfl

theorem InWindow.memTrap (h : InWindow s a e p) (hwatch : s.claimed a = false) (early : Bool) : s.memTrap a [e] [.ok] early = none := by
  simp [State.memTrap, h.aligned, h.windowFails, hwatch]

theorem InWindow.storeProbe (h : InWindow s a e p) (st : Stream) (beyond buffers : Bool) : s.storeProbe a st beyond buffers e = .ok := by
  unfold State.storeProbe
  dsimp only
  split
  · next heq => exact absurd (by rw [heq]) h.notGlobal
  · rfl

theorem InWindow.probe (h : InWindow s a e p) (write : Bool) (hpoison : s.poisonIn p e.n = []) : s.probe a write e = .ok := by
  obtain ⟨-, hglobal, -, hplace⟩ := h
  unfold State.probe
  split
  · next heq => exact absurd (by rw [heq]) hglobal
  · next r o _ heq =>
    rw [heq] at hplace
    simp only [hplace, hpoison]

end

/-! ### Stores -/

/-- A store of one element, under way in its core and in no region, is performed in the storage of its window (R78). -/
theorem storeVia_window {s : State} {id p va : Nat} {x : Access} {w : Word} {bs : List Byte} (hacc : s.accesses = [(id, x)])
    (hlanes : x.lanes = [(0, w, bs)]) (hw : w.toNat = va) (hvia : x.via = true) (hrel : x.release = false) (hbuf : x.buf = false)
    (hlane : x.laneOf 0 = none) (hglobal : (regionOf va bs.length).1 ≠ .global)
    (hplace : s.localAt x.agent none (regionOf va bs.length).1 (regionOf va bs.length).2 bs.length = some p) :
    (s.storeVia id).mem = memWrite s.mem p bs ∧ tabFind (s.storeVia id).accesses id = none := by
  subst hw
  have helem (t : State) (ht : t.localAt x.agent none (regionOf w.toNat bs.length).1 (regionOf w.toNat bs.length).2 bs.length = some p) :
      State.storeElem { s := t, left := [] } x 0 w.toNat bs =
        { s := (t.putBytes p bs).wholeBytes p bs.length (t.coversAt x), left := [] } := by
    unfold State.storeElem
    split
    · next heq => exact absurd (by rw [heq]) hglobal
    · next r o _ heq =>
      rw [heq] at ht
      simp only [hlane, ht, hbuf, Bool.false_and, Bool.false_eq_true, if_false]
      cases x.agent <;> rfl
  have hstep : s.releaseStep x = (s, true) := if_neg (by simp [hrel])
  simp [State.storeVia, hvia, hstep, hlanes, hglobal, helem s hplace, hacc, State.wholeBytes, State.putBytes, tabDel, tabFind]

/-- A store of one element to a window to which its launch is entitled, with nothing under way: its bytes stand in the window's storage,
and the agents are the same. -/
theorem storeOf_window {f : MemForm} {c : Ctx} {s : State} {e : Elem} {p : Nat} {data : Elem → List Byte × FFlags}
    (hwin : InWindow s c.a e p) (hkey : e.key = 0) (hown : e.own = none) (hva : e.va < 2 ^ 64) (hrel : f.release = false)
    (hvec : f.vec = false) (hbytes : (data e).1.length = e.n) (hacc : s.accesses = [])
    (hbuf : (s.wg ((s.wgOf c.a).getD 0)).buffers = false) (hwatch : s.claimed c.a = false) :
    ∃ t, storeOf f [e] data c s = .done t ∧ t.mem = memWrite s.mem p (data e).1 ∧ Firm s t := by
  have hbody := storeOf_done (f := f) (es := [e]) (data := data) (c := c) (s := s) rfl (by simp [hwin.storeProbe])
    (by rw [List.map_singleton, hwin.storeProbe]; exact hwin.memTrap hwatch true) (slotsFull_of_no_accesses hacc _)
  refine ⟨_, hbody, ?_⟩
  unfold storeLeft
  extract_lets sp rel beyond buffers v w z acc put out
  have hrel' : rel = false := by simp only [rel, hrel, Bool.false_and]
  have hv : v = s := if_neg (by simp [beyond, hrel'])
  have hw : w = s := by simp only [w, hrel', hv, Bool.false_eq_true, if_false, List.foldl_cons, List.foldl_nil, settle_of_no_accesses hacc]
  have hz {α : Type} (q : State → α) (h : ∀ s x, q { s with groups := x } = q s) : q z = q s := by
    simp only [z, hw]
    exact raiseFlags_other s _ _ q h
  have hput : put.accesses = [(z.nextId, acc)] := by
    change tabPut z.accesses z.nextId acc = _
    rw [hz State.accesses (fun _ _ => rfl), hacc]
    rfl
  have hnoRel : acc.release = false := hrel'
  have hnoBuf : acc.buf = false := by
    change buffers = false
    simp only [buffers, hbuf, Bool.false_and]
  have hout : out = put.storeVia z.nextId :=
    if_neg (by rw [mustWait_of_first hput, State.releaseWaits, hnoRel]; exact Bool.false_ne_true)
  have hwg : put.wgOf c.a = s.wgOf c.a := by
    change z.wgOf c.a = s.wgOf c.a
    simp only [z, hw, wgOf_raiseFlags]
  have hplace : put.localAt c.a none (regionOf e.va (data e).1.length).1 (regionOf e.va (data e).1.length).2 (data e).1.length = some p := by
    rw [localAt_congr hwg (hz State.wgs (fun _ _ => rfl)) (hz State.allocs (fun _ _ => rfl)), hbytes, ← hown]
    exact hwin.place
  have hlane : acc.laneOf 0 = none := by
    change (if ((if f.vec then 0 else 1) != 0) = true then none else _) = none
    rw [hvec]
    rfl
  have hlanes : acc.lanes = [(0, BitVec.ofNat 64 e.va, (data e).1)] := by
    change [(e.key, _, _)] = _
    rw [hkey]
  obtain ⟨hmem, hgone⟩ := storeVia_window hput hlanes (by rw [BitVec.toNat_ofNat]; exact Nat.mod_eq_of_lt hva) rfl hnoRel hnoBuf hlane
    (by rw [hbytes]; exact hwin.notGlobal) hplace
  have hends : (if [e].isEmpty = true then z else storeGoesOn out z.nextId) = put.storeVia z.nextId := by
    rw [hout]
    simp [storeGoesOn, hgone]
  rw [hends, hmem]
  have hmemz : put.mem = s.mem := hz State.mem (fun _ _ => rfl)
  refine ⟨by rw [hmemz], Firm.trans ?_ (Firm.storeVia put _)⟩
  have hfirm : Firm s z := by
    simp only [z, hw]
    exact Firm.raiseFlags s _ _
  exact hfirm.trans (Firm.of_tables rfl rfl rfl)

/-! ### Loads -/

/-- A load of one element of the scratchpad that is performed gets the bytes of its storage. -/
theorem performOne_window {s : State} {id p n : Nat} {x : Access} {w : Word} {y : List Byte} (hacc : s.accesses = [(id, x)])
    (hlanes : x.lanes = [(0, w, y)]) (hn : y.length = n) (hwhat : x.what = 0) (hrel : x.release = false) (hgot : x.got = [])
    (hlane : x.laneOf 0 = none) (hscratch : (regionOf w.toNat n).1 = .scratch)
    (hplace : s.localAt x.agent none .scratch (regionOf w.toNat n).2 n = some p) :
    ∃ y, (s.performOne id).1 = { s with accesses := [(id, y)] } ∧ y.agent = x.agent ∧ y.dest = x.dest ∧
      tabFind y.got 0 = some (s.localBytes x.agent p n).1 := by
  have hfind : tabFind s.accesses id = some x := by simp [hacc, tabFind]
  have hreg : regionOf w.toNat y.length = (.scratch, (regionOf w.toNat n).2) := by rw [hn, ← hscratch]
  have hload : s.loadElem x 0 w.toNat y.length = .ok s (s.localBytes x.agent p n).1 (s.localBytes x.agent p n).2 := by
    simp only [State.loadElem, hreg, hlane]
    rw [hn, hplace]
  refine ⟨{ x with got := [(0, (s.localBytes x.agent p n).1)], bad := x.bad || (s.localBytes x.agent p n).2 }, ?_, rfl, rfl, rfl⟩
  have hlanes' (y2 : List Byte) : s.performLanes x [((0, w, y), y2)] =
      (s, { x with got := [(0, (s.localBytes x.agent p n).1)], bad := x.bad || (s.localBytes x.agent p n).2 }, none) := by
    simp [State.performLanes, hgot, hwhat, hload, tabPut]
  have hzip : x.lanes.zip (x.cas ++ List.replicate x.lanes.length []) = [((0, w, y), (x.cas ++ [[]]).headD [])] := by
    rw [hlanes]
    cases x.cas <;> rfl
  have hno : (x.release && !s.stopsNow x) = false := by rw [hrel, Bool.false_and]
  have hput (y : Access) : tabPut s.accesses id y = [(id, y)] := by simp [hacc, tabPut]
  unfold State.performOne
  simp only [hfind, hno, Bool.false_eq_true, if_false, hzip, hlanes', hput]

/-- A load of one element of the scratchpad, with nothing under way: its bytes are delivered at once (R156). -/
theorem loadIssued_window {f : MemForm} {c : Ctx} {s : State} {e : Elem} {p : Nat} {pc next : Word} (helems : f.elems c s = [e])
    (hwin : InWindow s c.a e p) (hscratch : (regionOf e.va e.n).1 = .scratch) (hkey : e.key = 0) (hown : e.own = none) (hva : e.va < 2 ^ 64)
    (hwhat : f.what = 0) (hacq : f.acquire = false) (hvec : f.vec = false) (hacc : s.accesses = []) (hpoison : s.poisonIn p e.n = []) :
    ∃ (t : State) (x : Access) (n : Need), loadIssued f c s pc next = (t.deliver s.nextId x).retire n c next ∧ t.mem = s.mem ∧
      t.accesses = [] ∧ Firm s t ∧ x.agent = c.a ∧ x.dest = (1, f.d, f.size, s.conv c.a) ∧
      tabFind x.got 0 = some (s.localBytes c.a p e.n).1 := by
  unfold loadIssued
  extract_lets es v w uo ord acq held acc put
  have hes : es = [e] := helems
  have hv : v = s := by simp only [v, hes, List.foldl_cons, List.foldl_nil, settle_of_no_accesses hacc]
  have hw : w = s := by simp only [w, hwhat, hv]; rfl
  clear_value v w
  subst w
  have hheld : held = false := by simp only [held, hes, List.map_singleton, hwin.probe _ hpoison]; rfl
  have hacqs : acq = false := by simp [acq, hacq, hwhat]
  have hput : put.accesses = [(s.nextId, acc)] := by
    change tabPut s.accesses s.nextId acc = _
    rw [hacc]
    rfl
  have hlat : put.loadLat c.a es = some 10 := by
    have helem : put.elemLat c.a e = some 10 := by
      obtain ⟨o, ho⟩ : ∃ o, regionOf e.va e.n = (.scratch, o) := ⟨_, Prod.ext hscratch rfl⟩
      simp only [State.elemLat, ho]
    rw [hes]
    change (match some 10, put.elemLat c.a e with | some x, some y => some (Nat.max x y) | _, _ => none) = some 10
    rw [helem]
    rfl
  have hwait : (held || decide (f.what = 2) || put.mustWait s.nextId acc) = false := by
    rw [hheld, mustWait_of_first hput, hwhat]
    rfl
  rw [hwait, hacqs, hlat]
  have hlanes : acc.lanes = [(0, BitVec.ofNat 64 e.va, List.replicate e.n 0)] := by
    change es.map (fun e => (e.key, BitVec.ofNat 64 e.va, if f.what = 2 then _ else List.replicate e.n 0)) = _
    rw [hes, List.map_singleton, hkey, if_neg (by rw [hwhat]; decide)]
  have hplace : put.localAt c.a none .scratch (regionOf e.va e.n).2 e.n = some p := by
    have hat := hwin.place
    rw [hown, hscratch] at hat
    exact (localAt_congr (s := s) (t := put) rfl rfl rfl _ _ _ _).trans hat
  have hlane : acc.laneOf 0 = none := by
    change (if ((if f.vec then 0 else 1) != 0) = true then none else _) = none
    rw [hvec]
    rfl
  have hnoRel : acc.release = false := by
    change (!uo && f.what == 2 && ord.getLsbD 1) = false
    simp [hwhat]
  have htoNat : (BitVec.ofNat 64 e.va).toNat = e.va := by rw [BitVec.toNat_ofNat]; exact Nat.mod_eq_of_lt hva
  obtain ⟨y, hone, hagent, hdest, hgot⟩ := performOne_window (p := p) (n := e.n) hput hlanes List.length_replicate hwhat hnoRel rfl hlane
    (by rw [htoNat]; exact hscratch) (by rw [htoNat]; exact hplace)
  have hfind : tabFind [(s.nextId, y)] s.nextId = some y := by simp [tabFind]
  refine ⟨{ put with accesses := [] }, y, { f.need with lat := 10 + convExtra f.size (s.conv c.a) }, ?_, rfl, rfl, ?_,
    hagent, hdest.trans ?_, ?_⟩
  · have hdel : tabDel [(s.nextId, y)] s.nextId = [] := by simp [tabDel]
    change (({ (put.performOne s.nextId).1 with accesses := tabDel (put.performOne s.nextId).1.accesses s.nextId } : State).deliver
      s.nextId ((tabFind (put.performOne s.nextId).1.accesses s.nextId).getD acc)).retire _ c next = _
    simp only [hone, hfind, hdel, Option.getD_some]
  · exact Firm.of_tables rfl rfl rfl
  · change ((if f.vec then 0 else 1), _) = _
    rw [hvec]
    rfl
  · rw [hgot]
    rfl

/-- A register that is neither s0, a port nor a part of EXEC. -/
def PlainReg (q : Nat) : Prop := q ≠ 0 ∧ q < 48 ∨ q = 56 ∨ q = 57 ∨ q = 58 ∨ q = 59 ∨ q = 63

theorem PlainReg.not_port {q : Nat} (h : PlainReg q) : Machine.isPort q = false := by
  unfold PlainReg at h
  unfold Machine.isPort
  simp only [Bool.and_eq_false_iff, decide_eq_false_iff_not]
  omega

theorem PlainReg.sget_sput {q : Nat} (h : PlainReg q) {s : State} {a : Agent} (v : Word) (halive : s.alive a = true) :
    (s.sput a q v).sget a q = v := by
  unfold PlainReg at h
  exact sget_sput_self v halive (by omega) (.inr (by omega))

theorem PlainReg.sget_sput_other {q r : Nat} (h : PlainReg q) {s : State} {a : Agent} (v : Word) (hne : r ≠ q) :
    (s.sput a q v).sget a r = s.sget a r := by
  unfold PlainReg at h
  exact Sys2Proof.sget_sput_other v (.inr (by omega)) hne

theorem Firm.loadSet (s : State) (id : Nat) (a : Agent) (r : Nat) (v : Word) : Firm s (s.loadSet id a r v) := by
  unfold State.loadSet
  split
  · exact Firm.of_tables rfl rfl rfl
  · exact Firm.sset s a r v

section
variable {s : State} {id d sz conv : Nat} {x : Access} {bs : List Byte}

/-- What a scalar load delivers (R162). -/
theorem deliver_eq_loadSet (hdest : x.dest = (1, d, sz, conv)) (hgot : tabFind x.got 0 = some bs) : s.deliver id x =
    if sz = 4 then (s.loadSet id x.agent d (BitVec.ofNat 64 (field bs 0 8))).loadSet id x.agent (d + 1) (BitVec.ofNat 64 (field bs 8 8))
    else s.loadSet id x.agent d (BitVec.ofNat 64 (ofBytes bs)) := by
  simp only [State.deliver, hdest, hgot, if_true]

theorem Firm.deliver_scalar (hdest : x.dest = (1, d, sz, conv)) (hgot : tabFind x.got 0 = some bs) : Firm s (s.deliver id x) := by
  rw [deliver_eq_loadSet hdest hgot]
  split
  · exact (Firm.loadSet s _ _ _ _).trans (Firm.loadSet _ _ _ _ _)
  · exact Firm.loadSet s _ _ _ _

/-- With nothing under way, a load sets a register that is no port. -/
theorem loadSet_eq_sput {a : Agent} (hacc : s.accesses = []) (hport : Machine.isPort d = false) (v : Word) :
    s.loadSet id a d v = s.sput a d v :=
  (loadSet_of_no_push v (by simp [hacc])).trans (if_neg (by rw [hport]; exact Bool.false_ne_true))

theorem deliver_eq_sput (hacc : s.accesses = []) (hdest : x.dest = (1, d, sz, conv)) (hgot : tabFind x.got 0 = some bs)
    (hport : Machine.isPort d = false) (hnext : sz = 4 → Machine.isPort (d + 1) = false) : s.deliver id x =
    if sz = 4 then (s.sput x.agent d (BitVec.ofNat 64 (field bs 0 8))).sput x.agent (d + 1) (BitVec.ofNat 64 (field bs 8 8))
    else s.sput x.agent d (BitVec.ofNat 64 (ofBytes bs)) := by
  rw [deliver_eq_loadSet hdest hgot, loadSet_eq_sput hacc hport, loadSet_eq_sput hacc hport]
  split
  · next h => rw [loadSet_eq_sput ((State.sput_accesses ..).trans hacc) (hnext h)]
  · rfl

end

/-! ### At an open gate -/

/-- An open gate has found the registers aligned (R93). -/
theorem even_of_opens {n : Need} {a : Agent} {s u : State} {c : Ctx} (h : Opens n a s c u) {r : Nat} (hr : r ∈ n.even) : r % 2 = 0 := by
  obtain ⟨hcur, halive, hgate⟩ := h
  by_contra hodd
  have hill : n.illegal s a = some 4 := illegal_of_register (.inr (.inl ⟨r, hr, by omega⟩))
  simp only [gate, hill] at hgate
  cases hgate

/-- Bytes of a scalar access (R162). -/
def scalBytes : SMemSize → Nat
  | .b => 1
  | .h => 2
  | .w => 4
  | .d => 8
  | .q => 16

/-- The element of a scalar access. -/
def scalElem (c : Ctx) (u : State) (r x : SReg) (z : SMemSize) (e : Option (BitVec 25)) : Elem :=
  { key := 0, own := none, va := (c.get u r.toNat + c.get u x.toNat + dispValue e).toNat, n := scalBytes z, al := scalBytes z }

section
variable {what : Nat} {acq rel : Bool} {d r x : SReg} {st : StreamNo} {z : SMemSize} {e : Option (BitVec 25)} {c : Ctx} {u : State}

theorem elems_scalForm (hwhat : what ≠ 2) : (scalForm what acq rel d r x st z e).elems c u = [scalElem c u r x z e] := by
  have hsize : (scalForm what acq rel d r x st z e).size = smemCode z := if_neg hwhat
  simp only [MemForm.elems, hsize]
  cases z <;> rfl

/-- The bytes of a scalar store: the low ones of s[d], for .Q those of s[d] and s[d + 1] (R162). -/
def scalData (c : Ctx) (u : State) (d : SReg) (z : SMemSize) : List Byte :=
  match z with
  | .q => toBytes (c.get u d.toNat).toNat 8 ++ toBytes (c.get u (d.toNat + 1)).toNat 8
  | _ => toBytes (c.get u d.toNat).toNat (scalBytes z)

theorem length_scalData : (scalData c u d z).length = scalBytes z := by
  cases z <;> simp [scalData, scalBytes, toBytes]

theorem data_scalForm : (scalForm 1 acq rel d r x st z e).data c u (scalElem c u r x z e) = (scalData c u d z, 0) := by
  cases z <;> rfl

/-- SST to a window to which the launch is entitled (R78, R162). -/
theorem exec_sst_window {s : State} {ag : Agent} {p : Nat} (hopen : Opens (scalForm 1 false false d r x st z e).need ag s c u)
    (hwin : InWindow u ag (scalElem c u r x z e) p) (hacc : u.accesses = []) (hbuf : (u.wg ((u.wgOf ag).getD 0)).buffers = false)
    (hwatch : u.claimed ag = false) : ∃ t, exec (.sst d r x st z e) s = .next t ∧
      (t.strand ag).pc = (s.strand ag).pc + BitVec.ofNat 64 (lenX e) ∧ t.mem = memWrite u.mem p (scalData c u d z) := by
  have halive := alive_of_opens hopen
  obtain rfl : c.a = ag := opens_agent hopen
  obtain ⟨t, hbody, hmem, hfirm⟩ := storeOf_window (f := scalForm 1 false false d r x st z e)
    (data := (scalForm 1 false false d r x st z e).data c u) hwin rfl rfl (BitVec.isLt _) rfl rfl
    (by rw [data_scalForm]; exact length_scalData) hacc hbuf hwatch
  rw [data_scalForm] at hmem
  have hstore : storeBody (scalForm 1 false false d r x st z e) c u = .done t := by
    unfold storeBody
    rw [elems_scalForm (by decide)]
    exact hbody
  refine ⟨_, done_of hopen rfl hstore rfl rfl, (strand_retire_self t _ c _ (by rw [hfirm.alive]; exact halive)).1, ?_⟩
  rw [State.retire_mem, hmem]

/-- SLD from the scratchpad (R156, R162). -/
theorem exec_sld_window {s : State} {ag : Agent} {p : Nat} (hopen : Opens (scalForm 0 false false d r x st z e).need ag s c u)
    (hwin : InWindow u ag (scalElem c u r x z e) p)
    (hscratch : (regionOf (scalElem c u r x z e).va (scalBytes z)).1 = .scratch) (hacc : u.accesses = [])
    (hpoison : u.poisonIn p (scalBytes z) = []) (hwatch : u.claimed ag = false) :
    ∃ (t : State) (y : Access) (n : Need), exec (.sld d r x st z e) s =
        .next ((t.deliver u.nextId y).retire n c ((s.strand ag).pc + BitVec.ofNat 64 (lenX e))) ∧ t.mem = u.mem ∧ t.accesses = [] ∧
      t.alive ag = true ∧ y.agent = ag ∧ y.dest = (1, d.toNat, smemCode z, u.conv ag) ∧
      tabFind y.got 0 = some (u.localBytes ag p (scalBytes z)).1 := by
  have halive := alive_of_opens hopen
  obtain rfl : c.a = ag := opens_agent hopen
  have helems : (scalForm 0 false false d r x st z e).elems c u = [scalElem c u r x z e] := elems_scalForm (by decide)
  obtain ⟨t, y, n, hissued, hmem, htacc, hfirm, hagent, hdest, hgot⟩ := loadIssued_window (pc := c.pc) (next := c.next) helems hwin hscratch
    rfl rfl (BitVec.isLt _) rfl rfl rfl hacc hpoison
  have hbody : loadBody (scalForm 0 false false d r x st z e) c u = .gone ((t.deliver u.nextId y).retire n c c.next) := by
    rw [loadBody_gone ?_ (slotsFull_of_no_accesses hacc _), hissued]
    rw [helems, List.map_singleton, hwin.probe _ hpoison]
    exact hwin.memTrap hwatch false
  exact ⟨t, y, n, gone_of hopen rfl hbody (by rw [opens_next hopen]; rfl), hmem, htacc, by rw [hfirm.alive]; exact halive, hagent, hdest, hgot⟩

end

/-- Settles O15: the one element of the access is performed at its issue, a store by `exec_sst_window`, a load by `exec_sld_window`. -/
theorem localScalarAccess : Obligations.LocalScalarAccess := by
  constructor
  · intro d r x st z e s ag c u p f n hopen va hal hglobal hnone hplace hacc hbuf hwatch bytes
    have hn : n = scalBytes z := by cases z <;> rfl
    have hbytes : bytes = scalData c u d z := by cases z <;> rfl
    clear_value n bytes
    subst hn hbytes
    obtain ⟨t, hexec, hpc, hmem⟩ := exec_sst_window hopen ⟨hal, hglobal, hnone, hplace⟩ hacc hbuf hwatch
    refine ⟨t, hexec, hpc, fun a => ?_⟩
    rw [hmem, ← length_scalData (c := c) (u := u) (d := d)]
    split
    · next h =>
      obtain ⟨i, rfl⟩ := Nat.exists_eq_add_of_le h.1
      rw [memGet_memWrite_self _ _ _ _ (by omega), Nat.add_sub_cancel_left]
    · exact memGet_memWrite_other _ _ _ _ (by omega)
  · intro d r x st z e s ag c u p f n hopen va hal hscratch hplace hacc hpoison hwatch bytes plain
    have hn : n = scalBytes z := by cases z <;> rfl
    clear_value n
    subst hn
    have hwin : InWindow u ag (scalElem c u r x z e) p := ⟨hal, fun h => Region.noConfusion (hscratch.symm.trans h),
      fun h => Region.noConfusion (hscratch.symm.trans h), (congrArg (fun w => u.localAt ag none w _ _) hscratch).trans hplace⟩
    obtain ⟨t, y, m, hexec, hmem, htacc, halive, hagent, hdest, hgot⟩ := exec_sld_window hopen hwin hscratch hacc
      (List.isEmpty_iff.1 hpoison) hwatch
    have hca : c.a = ag := opens_agent hopen
    have hdeliver : (t.deliver u.nextId y).alive c.a = true := by rw [(Firm.deliver_scalar hdest hgot).alive, hca]; exact halive
    have hnext (hport : Machine.isPort d.toNat = false) (hq : smemCode z = 4) : Machine.isPort (d.toNat + 1) = false := by
      have heven : d.toNat % 2 = 0 := by
        cases z with
        | q => exact even_of_opens hopen (List.mem_singleton.2 rfl)
        | _ => exact absurd hq (by decide)
      unfold Machine.isPort at hport ⊢
      simp only [Bool.and_eq_false_iff, decide_eq_false_iff_not] at hport ⊢
      omega
    have hput (hport : Machine.isPort d.toNat = false) := deliver_eq_sput (id := u.nextId) htacc hdest hgot hport (hnext hport)
    rw [hagent] at hput
    have hregs : ∀ q, ((t.deliver u.nextId y).retire m c ((s.strand ag).pc + BitVec.ofNat 64 (lenX e))).sget ag q =
        (t.deliver u.nextId y).sget ag q := (SameRegs.retire _ _ _ _).sget ag
    refine ⟨_, hexec, ?_, fun hport => ?_, fun hq hplain => ?_, fun hq hplain hplain' => ?_⟩
    · rw [← hca]
      exact (strand_retire_self _ m c _ hdeliver).1
    · rw [State.retire_mem, hput hport]
      split
      · rw [State.sput_mem, State.sput_mem, hmem]
      · rw [State.sput_mem, hmem]
    · have h4 : smemCode z ≠ 4 := by cases z <;> first | exact absurd rfl hq | decide
      rw [hregs, hput (PlainReg.not_port hplain), if_neg h4]
      exact PlainReg.sget_sput hplain _ halive
    · subst hq
      have h4 : smemCode .q = 4 := rfl
      rw [hregs, hregs, hput (PlainReg.not_port hplain), if_pos h4]
      refine ⟨?_, ?_⟩
      · rw [PlainReg.sget_sput_other hplain' _ (by omega)]
        exact PlainReg.sget_sput hplain _ halive
      · exact PlainReg.sget_sput hplain' _ (by rw [(Firm.sput _ _ _ _).alive]; exact halive)

end Sys2Proof
end

section
/-!
Scalar arithmetic (spec/08_isa_scalar.md R118 to R122, spec/02_formats.md R24).
-/

namespace Sys2Proof

open Sys2Proof.Machine

/-! ### Words -/

/-- The zero bits above the highest one bit of a number, counted from bit n - 1 down. -/
theorem length_takeWhile_zeros {x n : Nat} (h : x < 2 ^ n) :
    ((List.range n).reverse.takeWhile (fun i => !x.testBit i)).length = if x = 0 then n else n - 1 - Nat.log2 x := by
  induction n with
  | zero =>
    obtain rfl : x = 0 := by omega
    rfl
  | succ n ih =>
    rw [List.range_succ, List.reverse_append, List.reverse_singleton, List.singleton_append]
    by_cases hlow : x < 2 ^ n
    · rw [List.takeWhile_cons_of_pos (by simp [Nat.testBit_lt_two_pow hlow]), List.length_cons, ih hlow]
      split
      · rfl
      · next h0 =>
        have hlog := (Nat.log2_lt h0).2 hlow
        omega
    · have hn : x ≠ 0 := fun h0 => hlow (h0 ▸ Nat.two_pow_pos n)
      have hlog : Nat.log2 x = n := by
        have hup := (Nat.log2_lt hn).2 h
        have hdown := mt (Nat.log2_lt hn).1 hlow
        omega
      have hbit : x.testBit n = true := hlog ▸ Nat.testBit_log2 hn
      rw [List.takeWhile_cons_of_neg (by simp [hbit]), if_neg hn, hlog]
      simp

theorem leadingZeros_eq_length (x : Word) :
    leadingZeros x = ((List.range 64).reverse.takeWhile (fun i => !x.getLsbD i)).length := by
  have h := length_takeWhile_zeros x.isLt
  rw [leadingZeros]
  simp only [BitVec.getLsbD] at h ⊢
  rw [h]
  simp only [← BitVec.toNat_inj]
  rfl

theorem foldl_count {α : Type} (p : α → Bool) (l : List α) (k : Nat) :
    l.foldl (fun n i => if p i then n + 1 else n) k = k + (l.filter p).length := by
  induction l generalizing k with
  | nil => rfl
  | cons x l ih =>
    rw [List.foldl_cons, ih]
    cases h : p x
    · rw [List.filter_cons_of_neg (by simp [h])]; rfl
    · rw [List.filter_cons_of_pos h, List.length_cons, if_pos rfl]; omega

theorem popc_eq_length (x : Word) : Machine.popc x = ((List.range 64).filter (fun i => x.getLsbD i)).length := by
  rw [Machine.popc, foldl_count, Nat.zero_add]

theorem mul_eq_ofNat (x y : Word) : x * y = BitVec.ofNat 64 (x.toNat * y.toNat) := by
  apply BitVec.eq_of_toNat_eq
  rw [BitVec.toNat_mul, BitVec.toNat_ofNat]

theorem divS_eq (x y : Word) : divS x y = if y = 0 then BitVec.allOnes 64 else BitVec.ofInt 64 (x.toInt.tdiv y.toInt) := by
  have hdiv : x.sdiv y = BitVec.ofInt 64 (x.toInt.tdiv y.toInt) := by
    apply BitVec.eq_of_toInt_eq
    rw [BitVec.toInt_sdiv, BitVec.toInt_ofInt]
  rw [divS, hdiv]

theorem divU_eq (x y : Word) : divU x y = if y = 0 then BitVec.allOnes 64 else BitVec.ofNat 64 (x.toNat / y.toNat) := by
  have hdiv : x / y = BitVec.ofNat 64 (x.toNat / y.toNat) := by
    apply BitVec.eq_of_toNat_eq
    rw [BitVec.toNat_udiv, BitVec.toNat_ofNat, Nat.mod_eq_of_lt (Nat.lt_of_le_of_lt (Nat.div_le_self _ _) x.isLt)]
  rw [divU, hdiv]

theorem remS_eq (x y : Word) : remS x y = if y = 0 then x else BitVec.ofInt 64 (x.toInt.tmod y.toInt) := by
  rw [remS, ← BitVec.toInt_srem, BitVec.ofInt_toInt]

theorem remU_eq (x y : Word) : remU x y = if y = 0 then x else BitVec.ofNat 64 (x.toNat % y.toNat) := by
  have hmod : x % y = BitVec.ofNat 64 (x.toNat % y.toNat) := by
    apply BitVec.eq_of_toNat_eq
    rw [BitVec.toNat_umod, BitVec.toNat_ofNat, Nat.mod_eq_of_lt (Nat.lt_of_le_of_lt (Nat.mod_le _ _) x.isLt)]
  rw [remU, hmod]

theorem ite_slt {α : Type} (x y : Word) (p q : α) : (if x.slt y then p else q) = if x.toInt < y.toInt then p else q := by
  simp only [BitVec.slt, decide_eq_true_eq]

/-! ### At an open gate -/

section
variable {s u : State} {ag : Agent} {c : Ctx} {d a : SReg}

/-- A member of two sources sets its destination to their value (R118 to R120). -/
theorem salu_open {b : SReg} {f g : Word → Word → Word} {lat : Nat} {div : Bool} (hfg : ∀ x y, f x y = g x y)
    (h : Opens (saluNeed d a b lat div) ag s c u) : salu f d a b lat div s =
      .next ((u.sset ag d.toNat (g (c.get u a.toNat) (c.get u b.toNat))).retire (saluNeed d a b lat div) c ((s.strand ag).pc + 4)) := by
  obtain rfl : f = g := funext fun x => funext (hfg x)
  have hdone : salu f d a b lat div s = .next _ := issue_done h rfl
  rw [hdone, opens_agent h]
  rfl

/-- A member of one source likewise. -/
theorem scalar1_open {f g : Word → Word} {len : Nat} (hfg : ∀ x, f x = g x) (h : Opens (scalar1Need d a len) ag s c u) :
    scalar1 f d a len s = .next ((u.sset ag d.toNat (g (c.get u a.toNat))).retire (scalar1Need d a len) c
      ((s.strand ag).pc + BitVec.ofNat 64 len)) := by
  have hlen : (scalar1Need d a len).len = len := rfl
  obtain rfl : f = g := funext hfg
  have hdone : scalar1 f d a len s = .next _ := issue_done h rfl
  rw [hdone, opens_agent h, hlen]

/-- A member with an immediate, its field alone or extended (R97, R121). -/
theorem salui_open {f g : Word → Word → Word} {i : BitVec 10} {x : Option (BitVec 25)} (hfg : ∀ y v, f y v = g y v)
    (h : Opens (scalar1Need d a (lenX x)) ag s c u) : salui f d a i x s =
      .next ((u.sset ag d.toNat (g (c.get u a.toNat) (immValue i x))).retire (scalar1Need d a (lenX x)) c
        ((s.strand ag).pc + BitVec.ofNat 64 (lenX x))) :=
  scalar1_open (f := fun y => f y (immValue i x)) (g := fun y => g y (immValue i x)) (fun y => hfg y _) h

end

/-- Settles O1: every member runs its function of the sources (`salu_open`, `scalar1_open`, `salui_open`), and that is the value R120
gives. -/
theorem scalarArithmetic : Obligations.ScalarArithmetic := by
  refine ⟨?_, ?_, ?_, ?_⟩
  · intro row hrow d a b s ag c u n h
    simp only [List.mem_cons, List.not_mem_nil, or_false] at hrow
    rcases hrow with rfl | rfl | rfl | rfl | rfl | rfl | rfl | rfl | rfl | rfl | rfl | rfl | rfl | rfl | rfl | rfl | rfl | rfl | rfl | rfl |
      rfl | rfl | rfl
    · exact exec_add.trans (salu_open (by intros; rfl) h)
    · exact exec_sub.trans (salu_open (by intros; rfl) h)
    · exact exec_and.trans (salu_open (by intros; rfl) h)
    · exact exec_or.trans (salu_open (by intros; rfl) h)
    · exact exec_xor.trans (salu_open (by intros; rfl) h)
    · exact exec_shl.trans (salu_open (by intros; rfl) h)
    · exact exec_shr.trans (salu_open (by intros; rfl) h)
    · exact exec_sra.trans (salu_open (by intros; rfl) h)
    · exact exec_min.trans (salu_open (by intro x y; exact ite_slt x y _ _) h)
    · exact exec_max.trans (salu_open (by intro x y; exact ite_slt x y _ _) h)
    · exact exec_minu.trans (salu_open (by intros; rfl) h)
    · exact exec_maxu.trans (salu_open (by intros; rfl) h)
    · exact exec_slt.trans (salu_open (by intro x y; exact ite_slt x y _ _) h)
    · exact exec_sltu.trans (salu_open (by intro x y; simp [flagWord, BitVec.lt_def]) h)
    · exact exec_seq.trans (salu_open (by intro x y; simp [flagWord]) h)
    · exact exec_sne.trans (salu_open (by intro x y; by_cases e : x = y <;> simp [flagWord, e]) h)
    · exact exec_mul.trans (salu_open mul_eq_ofNat h)
    · exact exec_mulh.trans (salu_open (by intros; rfl) h)
    · exact exec_mulhu.trans (salu_open (by intros; rfl) h)
    · exact exec_div.trans (salu_open divS_eq h)
    · exact exec_divu.trans (salu_open divU_eq h)
    · exact exec_rem.trans (salu_open remS_eq h)
    · exact exec_remu.trans (salu_open remU_eq h)
  · intro row hrow d a s ag c u n h
    simp only [List.mem_cons, List.not_mem_nil, or_false] at hrow
    rcases hrow with rfl | rfl
    · exact exec_clz.trans (scalar1_open (by intro x; rw [leadingZeros_eq_length]) h)
    · exact exec_popc.trans (scalar1_open (by intro x; rw [popc_eq_length]) h)
  · intro row hrow d a i e s ag c u
    simp only [List.mem_cons, List.not_mem_nil, or_false] at hrow
    rcases hrow with rfl | rfl | rfl | rfl | rfl | rfl | rfl | rfl
    · exact ⟨fun h => exec_addi.trans (salui_open (by intros; rfl) h), fun h => exec_addi.trans (salui_open (by intros; rfl) h)⟩
    · exact ⟨fun h => exec_andi.trans (salui_open (by intros; rfl) h), fun h => exec_andi.trans (salui_open (by intros; rfl) h)⟩
    · exact ⟨fun h => exec_ori.trans (salui_open (by intros; rfl) h), fun h => exec_ori.trans (salui_open (by intros; rfl) h)⟩
    · exact ⟨fun h => exec_xori.trans (salui_open (by intros; rfl) h), fun h => exec_xori.trans (salui_open (by intros; rfl) h)⟩
    · exact ⟨fun h => exec_shli.trans (salui_open (by intros; rfl) h), fun h => exec_shli.trans (salui_open (by intros; rfl) h)⟩
    · exact ⟨fun h => exec_shri.trans (salui_open (by intros; rfl) h), fun h => exec_shri.trans (salui_open (by intros; rfl) h)⟩
    · exact ⟨fun h => exec_srai.trans (salui_open (by intros; rfl) h), fun h => exec_srai.trans (salui_open (by intros; rfl) h)⟩
    · exact ⟨fun h => exec_slti.trans (salui_open (by intro y v; exact ite_slt y v _ _) h), fun h => exec_slti.trans (salui_open (by intro y v; exact ite_slt y v _ _) h)⟩
  · exact fun d i e s ag c u => ⟨fun h => exec_sli_open (x := none) h, fun h => exec_sli_open (x := some e) h⟩

end Sys2Proof
end

section
/-!
Uniform branches (spec/08_isa_scalar.md R123, R124).
-/

namespace Sys2Proof

open Sys2Proof.Machine

section
variable {s u : State} {ag : Agent} {c : Ctx} {a : SReg}

/-- A conditional branch goes to its target or on behind it (R123). -/
theorem branch_open {cond p : Word → Bool} {o : BitVec 16} {x : Option (BitVec 25)} (hcond : cond = p) (h : Opens (branchNeed a x) ag s c u) :
    branch cond a o x s = .next (u.retire (branchNeed a x) c (if p (c.get u a.toNat) then target (s.strand ag).pc o x
      else (s.strand ag).pc + BitVec.ofNat 64 (lenX x))) := by
  subst hcond
  have hjump : branch cond a o x s = .next _ := issue_jump h rfl
  have hlen : (branchNeed a x).len = lenX x := rfl
  rw [hjump, opens_pc h, opens_next h, hlen]

/-- JMP (R123). -/
theorem jmp_open {o : BitVec 25} {x : Option (BitVec 25)} (h : Opens (jmpNeed x) ag s c u) :
    execJmp o x s = .next (u.retire (jmpNeed x) c (target (s.strand ag).pc o x)) := by
  have hjump : execJmp o x s = .next _ := issue_jump h rfl
  rw [hjump, opens_pc h]

/-- CALL (R123). -/
theorem call_open {o : BitVec 25} {x : Option (BitVec 25)} (h : Opens (callNeed x) ag s c u) :
    execCall o x s = .next ((u.sput ag 63 ((s.strand ag).pc + BitVec.ofNat 64 (lenX x))).retire (callNeed x) c
      (target (s.strand ag).pc o x)) := by
  have hjump : execCall o x s = .next _ := issue_jump h rfl
  have hlen : (callNeed x).len = lenX x := rfl
  rw [hjump, opens_pc h, opens_next h, opens_agent h, hlen]

/-- A branch to an even address in a register goes there; one to an odd address traps (R124). -/
theorem jumpTo_even {t : State} {w : Word} {link : State → State} (h : w.getLsbD 0 = false) : jumpTo t w link = .jump (link t) w :=
  if_neg (by rw [h]; exact Bool.false_ne_true)

theorem jumpTo_odd {t : State} {w : Word} {link : State → State} (h : w.getLsbD 0 = true) : jumpTo t w link = .trap 0x03 w := if_pos h

end

/-- Settles O2: branches with an offset by `branch_open`, `jmp_open` and `call_open`, those to a register by `jumpTo_even` and
`jumpTo_odd`. -/
theorem branches : Obligations.Branches := by
  refine ⟨⟨?_, ?_⟩, ?_⟩
  · intro row hrow a o e s ag c u pc
    simp only [List.mem_cons, List.not_mem_nil, or_false] at hrow
    rcases hrow with rfl | rfl | rfl | rfl | rfl | rfl
    · exact ⟨fun h => exec_brEqz.trans (branch_open rfl h), fun h => exec_brEqz.trans (branch_open rfl h)⟩
    · have hne : (fun x : Word => x != 0) = fun x => decide (x ≠ 0) := funext fun x => Bool.eq_iff_iff.2 (by simp)
      exact ⟨fun h => exec_brNez.trans (branch_open hne h), fun h => exec_brNez.trans (branch_open hne h)⟩
    · exact ⟨fun h => exec_brLtz.trans (branch_open rfl h), fun h => exec_brLtz.trans (branch_open rfl h)⟩
    · have hge : (fun x : Word => !x.slt 0) = fun x => decide (0 ≤ x.toInt) := funext fun x => by simp [BitVec.slt, ← decide_not]
      exact ⟨fun h => exec_brGez.trans (branch_open hge h), fun h => exec_brGez.trans (branch_open hge h)⟩
    · exact ⟨fun h => exec_brGtz.trans (branch_open rfl h), fun h => exec_brGtz.trans (branch_open rfl h)⟩
    · have hle : (fun x : Word => !(0 : Word).slt x) = fun x => decide (x.toInt ≤ 0) := funext fun x => by simp [BitVec.slt, ← decide_not]
      exact ⟨fun h => exec_brLez.trans (branch_open hle h), fun h => exec_brLez.trans (branch_open hle h)⟩
  · intro o e s ag c u pc
    exact ⟨fun h => exec_jmp.trans (jmp_open (x := none) h), fun h => exec_jmp.trans (jmp_open (x := some e) h),
      fun h => exec_call.trans (call_open (x := none) h), fun h => exec_call.trans (call_open (x := some e) h)⟩
  · intro a s ag c u
    refine ⟨fun h heven => jump_of h exec_jr (jumpTo_even heven) rfl rfl, fun h hodd => trap_of h exec_jr (jumpTo_odd hodd),
      fun h heven => ?_, fun h hodd => trap_of h exec_callr (jumpTo_odd hodd),
      fun h heven => jump_of h exec_ret (jumpTo_even heven) rfl rfl, fun h hodd => trap_of h exec_ret (jumpTo_odd hodd)⟩
    refine jump_of h exec_callr (jumpTo_even heven) rfl ?_
    rw [opens_agent h, opens_next h]
    rfl

end Sys2Proof
end

section
/-!
FCPYSGN of a quiet NaN by a signaling NaN (spec/09_isa_vector.md R134, spec/02_formats.md R21).
-/

namespace Sys2Proof

open Sys2Proof.Machine

/-- A split with one active lane, whose v1 holds a quiet NaN and v2 a signaling NaN, about to try. -/
def nanOperands : State :=
  { State.reset with
    cur := some (.split 0 0)
    groups := [(0, { Group.blank with
      nreg := 64
      v := [(1, lanes (fun _ => 0x7FC00000)), (2, lanes (fun _ => 0x7F800001))]
      splits := [(0, { Split.blank with strand := Strand.start 0 0, ex := 1 })] })] }

/-- FCPYSGN on a lane by the statement: the value of x with the sign of y, whatever y is. -/
def signOnly (u : State) (x y : List Lane) (i : Nat) : Lane × FFlags :=
  onLane .f32 (fun f x y _ => f.signV (f.val (fmtFtz (u.fmt (.split 0 0))) x) (y.testBit (f.ebits + f.fbits))) (lane x i) (lane y i) 0

/-- FCPYSGN on a lane by the model (`vfp_open`): a signaling NaN y raises NV where x is a NaN. -/
def signOrNan (u : State) (x y : List Lane) (i : Nat) : Lane × FFlags := vfpLane .cpysgn .f32 u (.split 0 0) none (lane x i) (lane y i)

/-- The flags of the split after a write of v0. -/
def flagsAfter (c : Ctx) (u : State) (f : State → List Lane → List Lane → Nat → Lane × FFlags) : FFlags :=
  ((u.vwrite (.split 0 0) 0 c.act false (f u (u.vsrc 0 1 0) (u.vsrc 0 2 0))).splitOf 0 0).flags

set_option maxRecDepth 8000 in
theorem opens_nanOperands : ∃ c u, Opens (vecNeed none [1, 2] 0 0 6 .vfp) (.split 0 0) nanOperands c u ∧
    (flagsAfter c u signOnly != flagsAfter c u signOrNan) = true := opensAnd_spec (by decide)

/-- VFP on two registers at an open gate. -/
theorem vfp_open {op : FOp} {t : FType} {d a b : VReg} {p : Option Prefix} {len : Nat} {s u : State} {ag : Agent} {c : Ctx}
    (h : Opens (vfpNeed d a [b.toNat] p len) ag s c u) :
    vfp op t d a b p len s = .next ((u.vwrite ag d.toNat c.act (pfxZ p) (fun i => vfpLane op t u ag p
      (lane (u.vsrc ag.groupNo a.toNat (pfxA p)) i) (lane (u.vsrc ag.groupNo b.toNat (pfxB p)) i))).retire (vfpNeed d a [b.toNat] p len) c
      ((s.strand ag).pc + BitVec.ofNat 64 len)) := by
  have hdone : vfp op t d a b p len s = .next _ := issue_done h rfl
  rw [hdone, opens_agent h]
  rfl

/-- Refutes O3: a quiet NaN in v1 and a signaling NaN in v2 make FCPYSGN raise NV (`vfp_open`), where the statement has it
raise what v1 alone raises. -/
theorem not_vectorFloat : ¬ Obligations.VectorFloat := by
  rintro ⟨⟨hvfp, _⟩, _⟩
  obtain ⟨c, u, hopen, hne⟩ := opens_nanOperands
  have hstated := hvfp (Instr.vfpFcpysgn, fun f _ ftz x y => f.signV (f.val ftz x) (y.testBit (f.ebits + f.fbits)))
    (by simp only [List.mem_cons, or_true, true_or]) .f32 0 1 2 none nanOperands (.split 0 0) c u hopen
  have hmodel := vfp_open (op := .cpysgn) (t := .f32) (d := 0) (a := 1) (b := 2) (p := none) (len := 4) hopen
  have hstates := Host.Outcome.next.inj (hmodel.symm.trans (exec_vfpFcpysgn.symm.trans hstated))
  have hflags (n : Need) (pc : Word) (t : State) : ((t.retire n c pc).splitOf 0 0).flags = (t.splitOf 0 0).flags := by
    have h := congrArg Split.flags ((SameRegs.retire t n c pc).splits 0 0)
    exact h
  have hsame := congrArg (fun t => (t.splitOf 0 0).flags) hstates
  simp only [hflags] at hsame
  exact bne_iff_ne.1 hne hsame.symm

end Sys2Proof
end

section
/-!
Vector integer arithmetic and the compact forms (spec/09_isa_vector.md R137, R138, spec/06_encoding.md R94).
-/

namespace Sys2Proof

open Sys2Proof.Machine

/-! ### Lanes and masks -/

theorem mullo_eq_ofNat (x y : Lane) : x * y = BitVec.ofNat 32 (x.toNat * y.toNat) := by
  apply BitVec.eq_of_toNat_eq
  rw [BitVec.toNat_mul, BitVec.toNat_ofNat]

theorem minS_eq (x y : Lane) : minS x y = if x.toInt < y.toInt then x else y := by
  simp only [minS, BitVec.slt, decide_eq_true_eq]

theorem maxS_eq (x y : Lane) : maxS x y = if x.toInt < y.toInt then y else x := by
  simp only [maxS, BitVec.slt, decide_eq_true_eq]

theorem absL_eq (x : Lane) : absL x = BitVec.ofInt 32 x.toInt.natAbs := by
  have hslt : x.slt 0 = decide (x.toInt < 0) := rfl
  rw [absL, hslt]
  by_cases h : x.toInt < 0
  · rw [if_pos (decide_eq_true h), Int.ofNat_natAbs_of_nonpos (by omega), BitVec.ofInt_neg, BitVec.ofInt_toInt]
  · rw [if_neg (by simpa using h), Int.natAbs_of_nonneg (by omega), BitVec.ofInt_toInt]

theorem clzL_eq (x : Lane) : clzL x = BitVec.ofNat 32 ((List.range 32).reverse.takeWhile (fun i => !x.getLsbD i)).length := by
  have h := length_takeWhile_zeros x.isLt
  have hzero : x = 0 ↔ x.toNat = 0 := by rw [← BitVec.toNat_inj]; rfl
  rw [clzL]
  simp only [BitVec.getLsbD] at h ⊢
  rw [h]
  simp only [hzero]
  split <;> rfl

theorem popcL_eq (x : Lane) : popcL x = BitVec.ofNat 32 ((List.range 32).filter (fun i => x.getLsbD i)).length := by
  rw [popcL, Machine.popc, foldl_count, Nat.zero_add]

/-- The bits that a loop over positions sets. -/
theorem getLsbD_foldl_set {w : Nat} (p : Nat → Bool) (g : Nat → Nat) (l : List Nat) (m : BitVec w) {i : Nat} (hi : i < w) :
    (l.foldl (fun m j => if p j then m ||| (1 : BitVec w) <<< g j else m) m).getLsbD i =
      (m.getLsbD i || l.any (fun j => p j && g j == i)) := by
  induction l generalizing m with
  | nil => simp
  | cons j l ih =>
    rw [List.foldl_cons, ih, List.any_cons]
    cases hp : p j
    · simp
    · have hbit : ((1 : BitVec w) <<< g j).getLsbD i = (g j == i) := by
        rw [Bool.eq_iff_iff]
        simp only [BitVec.getLsbD_shiftLeft, BitVec.ofNat_eq_ofNat, BitVec.getLsbD_one, Bool.and_eq_true, Bool.not_eq_true',
          decide_eq_true_eq, decide_eq_false_iff_not, beq_iff_eq]
        omega
      rw [if_pos rfl, BitVec.getLsbD_or, hbit, Bool.true_and, Bool.or_assoc]

theorem brevL_eq (x : Lane) : brevL x = x.reverse := by
  apply BitVec.eq_of_getLsbD_eq
  intro i hi
  rw [brevL, getLsbD_foldl_set _ _ _ _ hi, BitVec.getLsbD_reverse, BitVec.getMsbD_eq_getLsbD, Bool.eq_iff_iff]
  simp only [BitVec.ofNat_eq_ofNat, BitVec.getLsbD_zero, Bool.false_or, List.any_eq_true, List.mem_range, Bool.and_eq_true, beq_iff_eq,
    decide_eq_true_eq]
  constructor
  · rintro ⟨j, hj, hbit, rfl⟩
    have hback : 32 - 1 - (31 - j) = j := by omega
    exact ⟨hi, hback.symm ▸ hbit⟩
  · rintro ⟨-, hbit⟩
    exact ⟨31 - i, by omega, hbit, by omega⟩

theorem getLsbD_maskOf (f : Nat → Bool) {i : Nat} (hi : i < 96) : (maskOf f).getLsbD i = f i := by
  rw [maskOf, getLsbD_foldl_set f (fun j => j) _ _ hi, Bool.eq_iff_iff]
  simp only [BitVec.ofNat_eq_ofNat, BitVec.getLsbD_zero, Bool.false_or, List.any_eq_true, List.mem_range, Bool.and_eq_true, beq_iff_eq]
  exact ⟨fun ⟨j, _, hf, he⟩ => he ▸ hf, fun h => ⟨i, hi, h, rfl⟩⟩

theorem maskOf_congr {f g : Nat → Bool} (h : ∀ i < 96, f i = g i) : maskOf f = maskOf g := by
  apply BitVec.eq_of_getLsbD_eq
  intro i hi
  rw [getLsbD_maskOf f hi, getLsbD_maskOf g hi, h i hi]

/-! ### At an open gate -/

section
variable {s u : State} {ag : Agent} {c : Ctx} {d a : VReg} {p : Option Prefix} {lat len : Nat}

/-- VINT on two registers (R137). -/
theorem vint_open {b : VReg} {f g : Lane → Lane → Lane} (hfg : ∀ x y, f x y = g x y)
    (h : Opens { vecNeed p [a.toNat, b.toNat] d 1 lat .vint with len := len } ag s c u) :
    vint f lat d a b p len s = .next ((u.vmove ag d.toNat c.act (pfxZ p) (fun i =>
      g (lane (u.vsrc ag.groupNo a.toNat (pfxA p)) i) (lane (u.vsrc ag.groupNo b.toNat (pfxB p)) i))).retire
      { vecNeed p [a.toNat, b.toNat] d 1 lat .vint with len := len } c ((s.strand ag).pc + BitVec.ofNat 64 len)) := by
  obtain rfl : f = g := funext fun x => funext (hfg x)
  have hdone : vint f lat d a b p len s = .next _ := issue_done h rfl
  rw [hdone, opens_agent h]

/-- VINT on one register. -/
theorem vint1_open {f g : Lane → Lane} (hfg : ∀ x, f x = g x) (h : Opens (vecNeed p [a.toNat] d 1 4 .vint) ag s c u) :
    vint1 f d a p s = .next ((u.vmove ag d.toNat c.act (pfxZ p) (fun i => g (lane (u.vsrc ag.groupNo a.toNat (pfxA p)) i))).retire
      (vecNeed p [a.toNat] d 1 4 .vint) c ((s.strand ag).pc + BitVec.ofNat 64 (lenP p))) := by
  have hlen : (vecNeed p [a.toNat] d 1 4 .vint).len = lenP p := rfl
  obtain rfl : f = g := funext hfg
  have hdone : vint1 f d a p s = .next _ := issue_done h rfl
  rw [hdone, opens_agent h, hlen]

/-- VINTS (R138). -/
theorem vints_open {b : SReg} {f g : Lane → Lane → Lane} (hfg : ∀ x y, f x y = g x y)
    (h : Opens { vecNeed p [a.toNat] d 1 lat .vint with src := [b.toNat] } ag s c u) :
    vints f lat d a b p s = .next ((u.vmove ag d.toNat c.act (pfxZ p) (fun i =>
      g (lane (u.vsrc ag.groupNo a.toNat (pfxA p)) i) ((c.get u b.toNat).setWidth 32))).retire
      { vecNeed p [a.toNat] d 1 lat .vint with src := [b.toNat] } c ((s.strand ag).pc + BitVec.ofNat 64 (lenP p))) := by
  have hlen : ({ vecNeed p [a.toNat] d 1 lat .vint with src := [b.toNat] } : Need).len = lenP p := rfl
  obtain rfl : f = g := funext fun x => funext (hfg x)
  have hdone : vints f lat d a b p s = .next _ := issue_done h rfl
  rw [hdone, opens_agent h, hlen]

/-- VINTI (R138). -/
theorem vinti_open {i : BitVec 10} {e : Option (BitVec 25)} {f g : Lane → Lane → Lane} (hfg : ∀ x y, f x y = g x y)
    (h : Opens { vecNeed p [a.toNat] d 1 lat .vint with len := lenPX p e } ag s c u) :
    vinti f lat d a i p e s = .next ((u.vmove ag d.toNat c.act (pfxZ p) (fun j =>
      g (lane (u.vsrc ag.groupNo a.toNat (pfxA p)) j) ((immValue i e).setWidth 32))).retire
      { vecNeed p [a.toNat] d 1 lat .vint with len := lenPX p e } c ((s.strand ag).pc + BitVec.ofNat 64 (lenPX p e))) := by
  have hlen : ({ vecNeed p [a.toNat] d 1 lat .vint with len := lenPX p e } : Need).len = lenPX p e := rfl
  obtain rfl : f = g := funext fun x => funext (hfg x)
  have hdone : vinti f lat d a i p e s = .next _ := issue_done h rfl
  rw [hdone, opens_agent h, hlen]

theorem lenPX_eq (p : Option Prefix) (e : Option (BitVec 25)) :
    lenPX p e = 4 + (if p.isSome then 4 else 0) + if e.isSome then 4 else 0 := by
  cases p <;> rfl

/-- The low word of an immediate, with or without its extension. -/
theorem immValue_low (i : BitVec 10) (e : Option (BitVec 25)) : (immValue i e).setWidth 32 = match e with
    | some h => ((h ++ i : BitVec 35).signExtend 64).setWidth 32
    | none => i.signExtend 32 := by
  cases e with
  | some h => rfl
  | none =>
    apply BitVec.eq_of_getLsbD_eq
    intro j hj
    have hwide : j < 64 := by omega
    simp only [immValue, BitVec.getLsbD_setWidth, BitVec.getLsbD_signExtend, hj, hwide, decide_true, Bool.true_and]

/-- The register of a compact form (R94). -/
theorem toNat_low_register (b : BitVec 5) : (b.setWidth 6).toNat = b.toNat := by
  simp only [BitVec.toNat_setWidth]
  omega

/-- A compact integer form: v[d] and v[b], no prefix, two bytes. -/
theorem vintCompact_open {b : BitVec 5} {f g : Lane → Lane → Lane} (hfg : ∀ x y, f x y = g x y)
    (h : Opens { vecNeed none [d.toNat, b.toNat] d 1 lat .vint with len := 2 } ag s c u) :
    vint f lat d d (b.setWidth 6) none 2 s = .next ((u.vmove ag d.toNat c.act false (fun i =>
      g (lane (u.vget ag.groupNo d.toNat) i) (lane (u.vget ag.groupNo b.toNat) i))).retire
      { vecNeed none [d.toNat, b.toNat] d 1 lat .vint with len := 2 } c ((s.strand ag).pc + 2)) := by
  have hb := toNat_low_register b
  rw [vint_open hfg (by rw [hb]; exact h), hb]
  rfl

/-- A compact FP32 form likewise. -/
theorem vfpCompact_open {b : BitVec 5} {op : FOp} (h : Opens { vecNeed none [d.toNat, b.toNat] d 0 6 .vfp with len := 2 } ag s c u) :
    vfp op .f32 d d (b.setWidth 6) none 2 s = .next ((u.vwrite ag d.toNat c.act false (fun i =>
      let r := fop fp32 op (fmtRnd (u.fmt ag)) (fmtFtz (u.fmt ag)) (lane (u.vget ag.groupNo d.toNat) i).toNat
        (lane (u.vget ag.groupNo b.toNat) i).toNat
      (BitVec.ofNat 32 r.1, r.2))).retire { vecNeed none [d.toNat, b.toNat] d 0 6 .vfp with len := 2 } c ((s.strand ag).pc + 2)) := by
  have hb := toNat_low_register b
  have hopen : Opens (vfpNeed d d [(b.setWidth 6).toNat] none 2) ag s c u := by rw [hb]; exact h
  rw [vfp_open hopen, hb]
  rfl

theorem vmovOf_open (h : Opens { vecNeed p [a.toNat] d 1 4 .vint with len := len } ag s c u) :
    vmovOf d a p len s = .next ((u.vmove ag d.toNat c.act (pfxZ p) (lane (u.vsrc ag.groupNo a.toNat (pfxA p)))).retire
      { vecNeed p [a.toNat] d 1 4 .vint with len := len } c ((s.strand ag).pc + BitVec.ofNat 64 len)) := by
  have hdone : vmovOf d a p len s = .next _ := issue_done h rfl
  rw [hdone, opens_agent h]

end

/-- Settles O4: every member runs its function lane by lane (`vint_open`, `vints_open`, `vinti_open`, `vintCompact_open`), and that is
the value R137 gives. -/
theorem vectorInteger : Obligations.VectorInteger := by
  refine ⟨⟨?_, ?_⟩, ⟨?_, ?_⟩, ?_, ?_, ?_⟩
  · intro row hrow d a b p s ag c u n h
    simp only [List.mem_cons, List.not_mem_nil, or_false] at hrow
    rcases hrow with rfl | rfl | rfl | rfl | rfl | rfl | rfl | rfl | rfl | rfl | rfl | rfl | rfl | rfl | rfl | rfl
    · exact exec_vintAdd.trans (vint_open (by intros; rfl) h)
    · exact exec_vintSub.trans (vint_open (by intros; rfl) h)
    · exact exec_vintMullo.trans (vint_open mullo_eq_ofNat h)
    · exact exec_vintMulhiS.trans (vint_open (by intros; rfl) h)
    · exact exec_vintMulhiU.trans (vint_open (by intros; rfl) h)
    · exact exec_vintAnd.trans (vint_open (by intros; rfl) h)
    · exact exec_vintOr.trans (vint_open (by intros; rfl) h)
    · exact exec_vintXor.trans (vint_open (by intros; rfl) h)
    · exact exec_vintAndn.trans (vint_open (by intros; rfl) h)
    · exact exec_vintShl.trans (vint_open (by intros; rfl) h)
    · exact exec_vintShr.trans (vint_open (by intros; rfl) h)
    · exact exec_vintSra.trans (vint_open (by intros; rfl) h)
    · exact exec_vintMinS.trans (vint_open minS_eq h)
    · exact exec_vintMaxS.trans (vint_open maxS_eq h)
    · exact exec_vintMinU.trans (vint_open (by intros; rfl) h)
    · exact exec_vintMaxU.trans (vint_open (by intros; rfl) h)
  · intro row hrow d a p s ag c u n h
    simp only [List.mem_cons, List.not_mem_nil, or_false] at hrow
    rcases hrow with rfl | rfl | rfl | rfl
    · exact exec_vintAbs.trans (vint1_open absL_eq h)
    · exact exec_vintClz.trans (vint1_open clzL_eq h)
    · exact exec_vintPopc.trans (vint1_open popcL_eq h)
    · exact exec_vintBrev.trans (vint1_open brevL_eq h)
  · intro row hrow d a b p s ag c u n h
    simp only [List.mem_cons, List.not_mem_nil, or_false] at hrow
    rcases hrow with rfl | rfl | rfl | rfl | rfl | rfl | rfl | rfl | rfl | rfl | rfl | rfl | rfl | rfl | rfl | rfl
    · exact exec_vintsAdd.trans (vints_open (by intros; rfl) h)
    · exact exec_vintsSub.trans (vints_open (by intros; rfl) h)
    · exact exec_vintsMullo.trans (vints_open mullo_eq_ofNat h)
    · exact exec_vintsMulhiS.trans (vints_open (by intros; rfl) h)
    · exact exec_vintsMulhiU.trans (vints_open (by intros; rfl) h)
    · exact exec_vintsAnd.trans (vints_open (by intros; rfl) h)
    · exact exec_vintsOr.trans (vints_open (by intros; rfl) h)
    · exact exec_vintsXor.trans (vints_open (by intros; rfl) h)
    · exact exec_vintsAndn.trans (vints_open (by intros; rfl) h)
    · exact exec_vintsShl.trans (vints_open (by intros; rfl) h)
    · exact exec_vintsShr.trans (vints_open (by intros; rfl) h)
    · exact exec_vintsSra.trans (vints_open (by intros; rfl) h)
    · exact exec_vintsMinS.trans (vints_open minS_eq h)
    · exact exec_vintsMaxS.trans (vints_open maxS_eq h)
    · exact exec_vintsMinU.trans (vints_open (by intros; rfl) h)
    · exact exec_vintsMaxU.trans (vints_open (by intros; rfl) h)
  · intro row hrow d a i p e s ag c u len n h x y
    have hlen : len = lenPX p e := (lenPX_eq p e).symm
    have hy : y = (immValue i e).setWidth 32 := (immValue_low i e).symm
    clear_value len y
    subst hlen hy
    simp only [List.mem_cons, List.not_mem_nil, or_false] at hrow
    rcases hrow with rfl | rfl | rfl | rfl | rfl | rfl | rfl | rfl
    · exact exec_vintiAddi.trans (vinti_open (by intros; rfl) h)
    · exact exec_vintiAndi.trans (vinti_open (by intros; rfl) h)
    · exact exec_vintiOri.trans (vinti_open (by intros; rfl) h)
    · exact exec_vintiXori.trans (vinti_open (by intros; rfl) h)
    · exact exec_vintiShli.trans (vinti_open (by intros; rfl) h)
    · exact exec_vintiShri.trans (vinti_open (by intros; rfl) h)
    · exact exec_vintiSrai.trans (vinti_open (by intros; rfl) h)
    · exact exec_vintiMuli.trans (vinti_open mullo_eq_ofNat h)
  · intro row hrow d b s ag c u n h
    simp only [List.mem_cons, List.not_mem_nil, or_false] at hrow
    rcases hrow with rfl | rfl | rfl | rfl | rfl
    · exact exec_vaddF32Compact.trans (vfpCompact_open h)
    · exact exec_vsubF32Compact.trans (vfpCompact_open h)
    · exact exec_vmulF32Compact.trans (vfpCompact_open h)
    · exact exec_vmaxF32Compact.trans (vfpCompact_open h)
    · exact exec_vminF32Compact.trans (vfpCompact_open h)
  · intro row hrow d b s ag c u n h
    simp only [List.mem_cons, List.not_mem_nil, or_false] at hrow
    rcases hrow with rfl | rfl | rfl | rfl | rfl | rfl | rfl | rfl | rfl | rfl
    · exact exec_vaddI32Compact.trans (vintCompact_open (by intros; rfl) h)
    · exact exec_vsubI32Compact.trans (vintCompact_open (by intros; rfl) h)
    · exact exec_vandCompact.trans (vintCompact_open (by intros; rfl) h)
    · exact exec_vorCompact.trans (vintCompact_open (by intros; rfl) h)
    · exact exec_vxorCompact.trans (vintCompact_open (by intros; rfl) h)
    · exact exec_vshlCompact.trans (vintCompact_open (by intros; rfl) h)
    · exact exec_vshrU32Compact.trans (vintCompact_open (by intros; rfl) h)
    · exact exec_vmulLoCompact.trans (vintCompact_open mullo_eq_ofNat h)
    · exact exec_vmaxS32Compact.trans (vintCompact_open maxS_eq h)
    · exact exec_vminS32Compact.trans (vintCompact_open minS_eq h)
  · intro d b s ag c u n h
    have hb := toNat_low_register b
    have hopen : Opens { vecNeed none [(b.setWidth 6).toNat] d 1 4 .vint with len := 2 } ag s c u := by rw [hb]; exact h
    refine exec_vmovCompact.trans ((vmovOf_open hopen).trans ?_)
    rw [hb]
    rfl

end Sys2Proof
end

section
/-!
Compares, mask operations and special functions (spec/09_isa_vector.md R139, R140, spec/10_isa_lanes.md R151).
-/

namespace Sys2Proof

open Sys2Proof.Machine

/-! ### Masks -/

/-- The results of a compare, gathered into a mask: a lane that is not active gives no bit. -/
theorem maskOf_active (act : Mask) (f : Nat → Bool × FFlags) :
    maskOf (fun i => (((List.range 96).map (fun i => if act.getLsbD i then f i else (false, (0 : FFlags)))).getD i (false, 0)).1) =
      maskOf (fun i => act.getLsbD i && (f i).1) := by
  refine maskOf_congr fun i hi => ?_
  have hin : i < ((List.range 96).map (fun i => if act.getLsbD i then f i else (false, (0 : FFlags)))).length := by simpa using hi
  rw [List.getD_eq_getElem _ _ hin, List.getElem_map, List.getElem_range]
  cases act.getLsbD i <;> rfl

/-- Flags that lanes raise alike: the flag, when some active lane raises it. -/
theorem foldl_flags (act : Mask) (f : Nat → Bool × FFlags) (p : Nat → Bool) (v : FFlags)
    (hf : ∀ i, (f i).2 = if p i then v else 0) (l : List Nat) (m : FFlags) :
    (l.map (fun i => if act.getLsbD i then f i else (false, (0 : FFlags)))).foldl (fun m x => m ||| x.2) m =
      m ||| if l.any (fun i => act.getLsbD i && p i) then v else 0 := by
  induction l generalizing m with
  | nil => simp
  | cons i l ih =>
    rw [List.map_cons, List.foldl_cons, ih, List.any_cons]
    cases hact : act.getLsbD i
    · simp
    · cases hp : p i
      · simp [hf, hp]
      · cases hl : l.any (fun i => act.getLsbD i && p i) <;> simp [hf, hp, BitVec.or_assoc]

theorem eqBool_of_iff {p : Prop} [Decidable p] {b : Bool} (h : b = true ↔ p) : b = decide p := by
  rw [Bool.eq_iff_iff, h, decide_eq_true_eq]

theorem popc_and (m act : Mask) : Machine.popc (m &&& act) = ((List.range 96).filter (fun i => m.getLsbD i && act.getLsbD i)).length := by
  rw [Machine.popc, foldl_count, Nat.zero_add]
  exact congrArg List.length (List.filter_congr fun i _ => BitVec.getLsbD_and)

theorem activeLanes_and (m act : Mask) : activeLanes (m &&& act) = (List.range 96).filter (fun i => m.getLsbD i && act.getLsbD i) := by
  simp only [activeLanes, BitVec.getLsbD_and]

/-- S2K's mask, bit by bit (R151). -/
theorem s2k_mask (old act : Mask) (v : Word) (n : Fin 3) (z : Bool) :
    (old &&& ~~~((0xFFFFFFFF : Mask) <<< (32 * n.val))) |||
      (((v.setWidth 32 : Lane).setWidth 96 <<< (32 * n.val)) &&& act &&& ((0xFFFFFFFF : Mask) <<< (32 * n.val))) |||
      (if z then 0 else old &&& ((0xFFFFFFFF : Mask) <<< (32 * n.val)) &&& ~~~act) =
    maskOf (fun i => if i / 32 = n.val then if act.getLsbD i then v.getLsbD (i % 32) else !z && old.getLsbD i else old.getLsbD i) := by
  apply BitVec.eq_of_getLsbD_eq
  intro i hi
  rw [getLsbD_maskOf _ hi]
  have hown : ((0xFFFFFFFF : Mask) <<< (32 * n.val)).getLsbD i = decide (i / 32 = n.val) := by
    have hlow : (0xFFFFFFFF : Mask) = (BitVec.allOnes 32).setWidth 96 := rfl
    rw [hlow, BitVec.getLsbD_shiftLeft, BitVec.getLsbD_setWidth, BitVec.getLsbD_allOnes, Bool.eq_iff_iff]
    simp only [Bool.and_eq_true, Bool.not_eq_true', decide_eq_true_eq, decide_eq_false_iff_not]
    omega
  have hval (hin : i / 32 = n.val) : ((v.setWidth 32 : Lane).setWidth 96 <<< (32 * n.val)).getLsbD i = v.getLsbD (i % 32) := by
    have hback : i - 32 * n.val = i % 32 := by omega
    have hlow : i % 32 < 96 ∧ i % 32 < 32 ∧ ¬ i < 32 * n.val := by omega
    obtain ⟨h96, h32, hge⟩ := hlow
    simp only [BitVec.getLsbD_shiftLeft, BitVec.getLsbD_setWidth, hback, hi, h96, h32, hge, decide_true, decide_false, Bool.not_false,
      Bool.true_and]
  have hz : ((if z then (0 : Mask) else old &&& ((0xFFFFFFFF : Mask) <<< (32 * n.val)) &&& ~~~act)).getLsbD i =
      (!z && (old.getLsbD i && decide (i / 32 = n.val) && !act.getLsbD i)) := by
    cases z
    · simp only [Bool.false_eq_true, if_false, BitVec.getLsbD_and, hown, BitVec.getLsbD_not, hi, decide_true, Bool.true_and, Bool.not_false]
    · simp
  simp only [BitVec.getLsbD_or, BitVec.getLsbD_and, BitVec.getLsbD_not, hi, decide_true, Bool.true_and, hown, hz]
  by_cases hin : i / 32 = n.val
  · simp only [hin, hval hin, decide_true, Bool.not_true, Bool.and_false, Bool.and_true, Bool.false_or, if_true]
    cases act.getLsbD i <;> simp
  · simp [hin]

/-! ### At an open gate -/

section
variable {s u : State} {ag : Agent} {c : Ctx} {p : Option Prefix}

/-- VCMP at an open gate: the bits of the active lanes, and the flag that those raise for which `q` holds. -/
theorem vcmp_open {f : State → Agent → Lane → Lane → Bool × FFlags} {pipe : Nat} {draw : Draw} {d : KReg} {a b : VReg}
    {g : Nat → Bool} {q : Nat → Bool} {v : FFlags} (h : Opens (vcmpNeed d a b p pipe draw) ag s c u)
    (hfg : ∀ i, f u ag (lane (u.vsrc ag.groupNo a.toNat (pfxA p)) i) (lane (u.vsrc ag.groupNo b.toNat (pfxB p)) i) =
      (g i, if q i then v else 0)) :
    vcmp f pipe draw d a b p s = .next (((u.kwrite ag.groupNo d.toNat c.act (pfxZ p) (maskOf (fun i => c.act.getLsbD i && g i))).raiseFlags
      ag (if (List.range 96).any (fun i => c.act.getLsbD i && q i) then v else 0)).retire (vcmpNeed d a b p pipe draw) c
      ((s.strand ag).pc + BitVec.ofNat 64 (lenP p))) := by
  have hlen : (vcmpNeed d a b p pipe draw).len = lenP p := rfl
  have hdone : vcmp f pipe draw d a b p s = .next _ := issue_done h rfl
  have hflags := foldl_flags c.act (fun i => (g i, if q i then v else 0)) q v (by intro i; rfl) (List.range 96) 0
  rw [hdone, opens_agent h, hlen]
  simp only [hfg]
  rw [maskOf_active c.act (fun i => (g i, if q i then v else 0)), hflags]
  simp only [BitVec.ofNat_eq_ofNat, BitVec.zero_or]

/-- VCMP with an integer condition raises nothing (R139). -/
theorem vcmpI_open {f g : Lane → Lane → Bool} {d : KReg} {a b : VReg} (hfg : ∀ x y, f x y = g x y)
    (h : Opens (vcmpNeed d a b p 1 .vint) ag s c u) :
    vcmpI f d a b p s = .next (((u.kwrite ag.groupNo d.toNat c.act (pfxZ p) (maskOf (fun i => c.act.getLsbD i &&
      g (lane (u.vsrc ag.groupNo a.toNat (pfxA p)) i) (lane (u.vsrc ag.groupNo b.toNat (pfxB p)) i)))).raiseFlags ag 0).retire
      (vcmpNeed d a b p 1 .vint) c ((s.strand ag).pc + BitVec.ofNat 64 (lenP p))) := by
  obtain rfl : f = g := funext fun x => funext (hfg x)
  refine (vcmp_open (q := fun _ => false) (v := 0) h (by intro i; rfl)).trans ?_
  simp only [ite_self]

/-- VCMP with a condition on FP32 values: a signaling NaN in an active lane raises NV. -/
theorem vcmpF_open {f g : FVal → FVal → Bool} {d : KReg} {a b : VReg} (hfg : ∀ x y, f x y = g x y)
    (h : Opens (vcmpNeed d a b p 0 .vfp) ag s c u) {x y : Nat → FVal}
    (hx : x = fun i => fp32.val (fmtFtz (u.fmt ag)) (lane (u.vsrc ag.groupNo a.toNat (pfxA p)) i).toNat)
    (hy : y = fun i => fp32.val (fmtFtz (u.fmt ag)) (lane (u.vsrc ag.groupNo b.toNat (pfxB p)) i).toNat) :
    vcmpF f d a b p s = .next (((u.kwrite ag.groupNo d.toNat c.act (pfxZ p) (maskOf (fun i => c.act.getLsbD i && g (x i) (y i)))).raiseFlags
      ag (if (List.range 96).any (fun i => c.act.getLsbD i && (x i == .nan true || y i == .nan true)) then flagNV else 0)).retire
      (vcmpNeed d a b p 0 .vfp) c ((s.strand ag).pc + BitVec.ofNat 64 (lenP p))) := by
  obtain rfl : f = g := funext fun x => funext (hfg x)
  subst hx hy
  refine vcmp_open h fun i => ?_
  simp only [sigFlag, List.any_cons, List.any_nil, Bool.or_false]

theorem kop2_open {f : Mask → Mask → Mask} {d a b : KReg} (h : Opens (kopNeed d [a.toNat, b.toNat] p) ag s c u) :
    kop2 f d a b p s = .next ((u.kwrite ag.groupNo d.toNat c.act (pfxZ p) (f (u.kget ag.groupNo a.toNat) (u.kget ag.groupNo b.toNat))).retire
      (kopNeed d [a.toNat, b.toNat] p) c ((s.strand ag).pc + BitVec.ofNat 64 (lenP p))) := by
  have hlen : (kopNeed d [a.toNat, b.toNat] p).len = lenP p := rfl
  have hdone : kop2 f d a b p s = .next _ := issue_done h rfl
  rw [hdone, opens_agent h, hlen]

theorem kop1_open {f : Mask → Mask} {d a : KReg} (h : Opens (kopNeed d [a.toNat] p) ag s c u) :
    kop1 f d a p s = .next ((u.kwrite ag.groupNo d.toNat c.act (pfxZ p) (f (u.kget ag.groupNo a.toNat))).retire
      (kopNeed d [a.toNat] p) c ((s.strand ag).pc + BitVec.ofNat 64 (lenP p))) := by
  have hlen : (kopNeed d [a.toNat] p).len = lenP p := rfl
  have hdone : kop1 f d a p s = .next _ := issue_done h rfl
  rw [hdone, opens_agent h, hlen]

theorem kscalar_open {f g : Mask → Mask → Word} {d : SReg} {a : KReg} (hfg : ∀ m act, f m act = g m act) (h : Opens (k2sNeed d a p) ag s c u) :
    kscalar f d a p s = .next ((u.sset ag d.toNat (g (u.kget ag.groupNo a.toNat) c.act)).retire
      (k2sNeed d a p) c ((s.strand ag).pc + BitVec.ofNat 64 (lenP p))) := by
  have hlen : (k2sNeed d a p).len = lenP p := rfl
  obtain rfl : f = g := funext fun x => funext (hfg x)
  have hdone : kscalar f d a p s = .next _ := issue_done h rfl
  rw [hdone, opens_agent h, hlen]

theorem s2k_open {d : KReg} {a : SReg} {n : Fin 3} (h : Opens (s2kNeed d a p) ag s c u) :
    execS2k d a n p s = .next ((u.kput ag.groupNo d.toNat (maskOf (fun i =>
      if i / 32 = n.val then
        if c.act.getLsbD i then (c.get u a.toNat).getLsbD (i % 32) else !pfxZ p && (u.kget ag.groupNo d.toNat).getLsbD i
      else (u.kget ag.groupNo d.toNat).getLsbD i))).retire (s2kNeed d a p) c ((s.strand ag).pc + BitVec.ofNat 64 (lenP p))) := by
  have hlen : (s2kNeed d a p).len = lenP p := rfl
  have hdone : execS2k d a n p s = .next _ := issue_done h rfl
  rw [hdone, opens_agent h, hlen, s2k_mask]

theorem vsfu_open {f : Sfu} {d a : VReg} (h : Opens (vecNeed p [a.toNat] d 1 12 .sfu) ag s c u) :
    vsfu f d a p s = .next ((u.vwrite ag d.toNat c.act (pfxZ p) (fun i =>
      let r := sfu f (modeOf (u.fmt ag) p) (fmtFtz (u.fmt ag)) (lane (u.vsrc ag.groupNo a.toNat (pfxA p)) i).toNat
      (BitVec.ofNat 32 r.1, r.2))).retire (vecNeed p [a.toNat] d 1 12 .sfu) c ((s.strand ag).pc + BitVec.ofNat 64 (lenP p))) := by
  have hlen : (vecNeed p [a.toNat] d 1 12 .sfu).len = lenP p := rfl
  have hdone : vsfu f d a p s = .next _ := issue_done h rfl
  rw [hdone, opens_agent h, hlen]

end

/-- Settles O6: every member writes its function of the lanes (`vsfu_open`). -/
theorem vectorSpecial : Obligations.VectorSpecial := by
  intro row hrow d a p s ag c u n h
  simp only [List.mem_cons, List.not_mem_nil, or_false] at hrow
  rcases hrow with rfl | rfl | rfl | rfl | rfl | rfl | rfl | rfl
  · exact exec_rcp.trans (vsfu_open h)
  · exact exec_rsq.trans (vsfu_open h)
  · exact exec_sqrt.trans (vsfu_open h)
  · exact exec_ex2.trans (vsfu_open h)
  · exact exec_lg2.trans (vsfu_open h)
  · exact exec_sin.trans (vsfu_open h)
  · exact exec_cos.trans (vsfu_open h)
  · exact exec_tanh.trans (vsfu_open h)

/-- Settles O5: a compare gathers the bits and the flags of its active lanes (`vcmpI_open`, `vcmpF_open`), and a mask operation writes
its function of the masks. -/
theorem comparesAndMasks : Obligations.ComparesAndMasks := by
  refine ⟨⟨?_, ?_⟩, ?_, ?_, ?_, ?_⟩
  · intro row hrow d a b p s ag c u n h
    simp only [List.mem_cons, List.not_mem_nil, or_false] at hrow
    rcases hrow with rfl | rfl | rfl | rfl | rfl | rfl | rfl | rfl | rfl | rfl | rfl | rfl
    · exact exec_vcmpEqS32.trans (vcmpI_open (by intro x y; exact eqBool_of_iff beq_iff_eq) h)
    · exact exec_vcmpNeS32.trans (vcmpI_open (by intro x y; exact eqBool_of_iff bne_iff_ne) h)
    · exact exec_vcmpLtS32.trans (vcmpI_open (by intros; rfl) h)
    · exact exec_vcmpLeS32.trans (vcmpI_open (by intro x y; exact eqBool_of_iff (by simp [BitVec.slt])) h)
    · exact exec_vcmpGtS32.trans (vcmpI_open (by intros; rfl) h)
    · exact exec_vcmpGeS32.trans (vcmpI_open (by intro x y; exact eqBool_of_iff (by simp [BitVec.slt])) h)
    · exact exec_vcmpEqU32.trans (vcmpI_open (by intro x y; exact eqBool_of_iff beq_iff_eq) h)
    · exact exec_vcmpNeU32.trans (vcmpI_open (by intro x y; exact eqBool_of_iff bne_iff_ne) h)
    · exact exec_vcmpLtU32.trans (vcmpI_open (by intros; rfl) h)
    · exact exec_vcmpLeU32.trans (vcmpI_open (by intros; rfl) h)
    · exact exec_vcmpGtU32.trans (vcmpI_open (by intros; rfl) h)
    · exact exec_vcmpGeU32.trans (vcmpI_open (by intros; rfl) h)
  · intro row hrow d a b p s ag c u n h x y signaling
    simp only [List.mem_cons, List.not_mem_nil, or_false] at hrow
    rcases hrow with rfl | rfl | rfl | rfl | rfl | rfl | rfl
    · exact exec_vcmpEqF32.trans (vcmpF_open (by intros; rfl) h rfl rfl)
    · exact exec_vcmpNeF32.trans (vcmpF_open (by intros; rfl) h rfl rfl)
    · exact exec_vcmpLtF32.trans (vcmpF_open (by intros; rfl) h rfl rfl)
    · exact exec_vcmpLeF32.trans (vcmpF_open (by intros; rfl) h rfl rfl)
    · exact exec_vcmpGtF32.trans (vcmpF_open (by intros; rfl) h rfl rfl)
    · exact exec_vcmpGeF32.trans (vcmpF_open (by intros; rfl) h rfl rfl)
    · exact exec_vcmpUnord.trans (vcmpF_open (by intros; rfl) h rfl rfl)
  · intro row hrow d a b p s ag c u n h
    simp only [List.mem_cons, List.not_mem_nil, or_false] at hrow
    rcases hrow with rfl | rfl | rfl | rfl
    · exact exec_kand.trans (kop2_open h)
    · exact exec_kor.trans (kop2_open h)
    · exact exec_kxor.trans (kop2_open h)
    · exact exec_kandn.trans (kop2_open h)
  · intro row hrow d a p s ag c u n h
    simp only [List.mem_cons, List.not_mem_nil, or_false] at hrow
    rcases hrow with rfl | rfl
    · exact exec_knot.trans (kop1_open h)
    · exact exec_kmov.trans (kop1_open h)
  · intro row hrow d a p s ag c u n h
    simp only [List.mem_cons, List.not_mem_nil, or_false] at hrow
    rcases hrow with rfl | rfl | rfl | rfl | rfl
    · exact exec_k2s.trans (kscalar_open (by intros; rfl) h)
    · exact exec_k2s.trans (kscalar_open (by intros; rfl) h)
    · exact exec_k2s.trans (kscalar_open (by intros; rfl) h)
    · exact exec_kpopc.trans (kscalar_open (by intro m act; rw [popc_and]) h)
    · exact exec_kfirst.trans (kscalar_open (by intro m act; rw [activeLanes_and]) h)
  · intro d a m p s ag c u n h old
    exact exec_s2k.trans (s2k_open h)

end Sys2Proof
end

section
/-!
Conversions, reductions, scans, rearrangements and moves of lanes (spec/10_isa_lanes.md R145 to R152).
-/

namespace Sys2Proof

open Sys2Proof.Machine

/-! ### Lanes -/

theorem lanes_congr {f g : Nat → Lane} (h : ∀ i < 96, f i = g i) : lanes f = lanes g :=
  List.map_congr_left fun i hi => h i (List.mem_range.1 hi)

/-- A move takes the new lanes of its active lanes only. -/
theorem vmove_congr {u : State} {ag : Agent} {d : Nat} {act : Mask} {z : Bool} {f g : Nat → Lane}
    (h : ∀ i < 96, act.getLsbD i = true → f i = g i) : u.vmove ag d act z f = u.vmove ag d act z g := by
  refine congrArg (u.vput ag.groupNo d) (lanes_congr fun i hi => ?_)
  cases hact : act.getLsbD i
  · rfl
  · exact h i hi hact

/-- An active lane's place among the active ones is the number of active ones below it. -/
theorem idxOf_active (act : Mask) {i : Nat} (hi : i < 96) (hact : act.getLsbD i = true) :
    (activeLanes act).idxOf i = ((List.range i).filter (fun j => act.getLsbD j)).length := by
  have hsplit : List.range 96 = List.range i ++ (i :: (List.range (96 - (i + 1))).map (fun j => i + 1 + j)) := by
    have hlen : 96 = i + 1 + (96 - (i + 1)) := by omega
    conv_lhs => rw [hlen, List.range_add, List.range_succ]
    simp
  have hbelow : i ∉ (List.range i).filter (fun j => act.getLsbD j) := fun h =>
    Nat.lt_irrefl i (List.mem_range.1 (List.mem_filter.1 h).1)
  rw [activeLanes, hsplit, List.filter_append, List.idxOf_append_of_notMem hbelow, List.filter_cons_of_pos hact, List.idxOf_cons_self]
  rfl

theorem active_below (act : Mask) {i : Nat} (hi : i < 96) :
    (activeLanes act).filter (· < i) = (List.range i).filter (fun j => act.getLsbD j) := by
  have hsplit : List.range 96 = List.range i ++ (List.range (96 - i)).map (fun j => i + j) := by
    have hlen : 96 = i + (96 - i) := by omega
    conv_lhs => rw [hlen, List.range_add]
  have hlow : ∀ j ∈ (List.range i).filter (fun j => act.getLsbD j), decide (j < i) = true := fun j hj =>
    decide_eq_true (List.mem_range.1 (List.mem_filter.1 hj).1)
  have hhigh : ∀ j ∈ ((List.range (96 - i)).map (fun j => i + j)).filter (fun j => act.getLsbD j), ¬ decide (j < i) = true := by
    intro j hj
    obtain ⟨k, -, rfl⟩ := List.mem_map.1 (List.mem_filter.1 hj).1
    simp
  rw [activeLanes, hsplit, List.filter_append, List.filter_append, List.filter_eq_self.2 hlow, List.filter_eq_nil_iff.2 hhigh,
    List.append_nil]

theorem getD_map_range {α : Type} (f : Nat → α) (e : α) {n i : Nat} (hi : i < n) : ((List.range n).map f).getD i e = f i := by
  rw [List.getD_eq_getElem _ _ (by simpa using hi), List.getElem_map, List.getElem_range]

/-- A loop that adds up and gathers flags. -/
theorem foldl_add_flags {α : Type} (w : α → Nat) (f : α → FFlags) (l : List α) (acc : Nat × FFlags) :
    l.foldl (fun acc g => (acc.1 + w g, acc.2 ||| f g)) acc = (acc.1 + (l.map w).sum, l.foldl (fun m g => m ||| f g) acc.2) := by
  induction l generalizing acc with
  | nil => rfl
  | cons x l ih => rw [List.foldl_cons, ih, List.map_cons, List.sum_cons, List.foldl_cons, Nat.add_assoc]

/-- The image is the sum of its six blocks at their places, and raises what they raise (R146). -/
theorem sxImage_eq (m : Nat) (rm : Rnd) (x : Nat → Lane) {blocks : List (SxBlock × FFlags)}
    (hblocks : blocks = (List.range 6).map (fun g => sxPack m rm ((List.range 16).map (fun j => x (16 * g + j))))) :
    sxImage m rm x = (((List.range 6).map (fun g => ((blocks.map (fun q => q.1.toNat m)).getD g 0) * 2 ^ (8 * sxBytes m * g))).sum,
      blocks.foldl (fun f q => f ||| q.2) 0) := by
  have hstep : (fun (acc : Nat × FFlags) g =>
        let (b, fl) := sxPack m rm ((List.range 16).map (fun j => x (16 * g + j)))
        (acc.1 + b.toNat m * 2 ^ (8 * sxBytes m * g), acc.2 ||| fl)) =
      fun acc g => (acc.1 + (sxPack m rm ((List.range 16).map (fun j => x (16 * g + j)))).1.toNat m * 2 ^ (8 * sxBytes m * g),
        acc.2 ||| (sxPack m rm ((List.range 16).map (fun j => x (16 * g + j)))).2) := by
    funext acc g
    generalize sxPack m rm ((List.range 16).map (fun j => x (16 * g + j))) = q
    rfl
  have hplaces : (List.range 6).map (fun g => ((blocks.map (fun q => q.1.toNat m)).getD g 0) * 2 ^ (8 * sxBytes m * g)) =
      (List.range 6).map (fun g => (sxPack m rm ((List.range 16).map (fun j => x (16 * g + j)))).1.toNat m * 2 ^ (8 * sxBytes m * g)) := by
    refine List.map_congr_left fun g hg => ?_
    rw [hblocks, List.map_map, getD_map_range _ _ (List.mem_range.1 hg)]
    rfl
  rw [sxImage, hstep, foldl_add_flags, hplaces, hblocks, List.foldl_map, Nat.zero_add]

/-! ### At an open gate -/

section
variable {s u : State} {ag : Agent} {c : Ctx} {p : Option Prefix} {d a : VReg}

theorem cvt1_open {f g : Rnd → Bool → Bool → Lane → Lane × FFlags} (hfg : ∀ rm ftz isat x, f rm ftz isat x = g rm ftz isat x)
    (h : Opens (vecNeed p [a.toNat] d 0 6 .vfp) ag s c u) :
    cvt1 f d a p s = .next ((u.vwrite ag d.toNat c.act (pfxZ p) (fun i =>
      g (modeOf (u.fmt ag) p) (fmtFtz (u.fmt ag)) (fmtIsat (u.fmt ag)) (lane (u.vsrc ag.groupNo a.toNat (pfxA p)) i))).retire
      (vecNeed p [a.toNat] d 0 6 .vfp) c ((s.strand ag).pc + BitVec.ofNat 64 (lenP p))) := by
  have hlen : (vecNeed p [a.toNat] d 0 6 .vfp).len = lenP p := rfl
  obtain rfl : f = g := funext fun _ => funext fun _ => funext fun _ => funext fun _ => hfg _ _ _ _
  have hdone : cvt1 f d a p s = .next _ := issue_done h rfl
  rw [hdone, opens_agent h, hlen]

theorem cvt2_open {dst : FFmt} {b : VReg} (h : Opens (vecNeed p [a.toNat, b.toNat] d 0 6 .vfp) ag s c u) :
    cvt2 dst d a b p s = .next ((u.vwrite ag d.toNat c.act (pfxZ p) (fun i =>
      let lo := convF fp32 dst (modeOf (u.fmt ag) p) (fmtFtz (u.fmt ag)) (lane (u.vsrc ag.groupNo a.toNat (pfxA p)) i).toNat
      let hi := convF fp32 dst (modeOf (u.fmt ag) p) (fmtFtz (u.fmt ag)) (lane (u.vget ag.groupNo b.toNat) i).toNat
      (BitVec.ofNat 32 (lo.1 + 65536 * hi.1), lo.2 ||| hi.2))).retire
      (vecNeed p [a.toNat, b.toNat] d 0 6 .vfp) c ((s.strand ag).pc + BitVec.ofNat 64 (lenP p))) := by
  have hlen : (vecNeed p [a.toNat, b.toNat] d 0 6 .vfp).len = lenP p := rfl
  have hdone : cvt2 dst d a b p s = .next _ := issue_done h rfl
  rw [hdone, opens_agent h, hlen]

/-- A scalar result and flags, taken apart. -/
theorem sset_flags_of_pair (u : State) (ag : Agent) (d : Nat) (ext : Lane → Word) (pr : Lane × FFlags) :
    (match pr with
      | (r, fl) => Act.done ((u.sset ag d (ext r)).raiseFlags ag fl)) = .done ((u.sset ag d (ext pr.1)).raiseFlags ag pr.2) := rfl

theorem vred_open {f g : Rnd → Bool → Lane → Lane → Lane × FFlags} {ident : Lane} {ext : Lane → Word} {pipe lat : Nat} {draw : Draw}
    {d : SReg} (hfg : ∀ rm ftz x y, f rm ftz x y = g rm ftz x y) (h : Opens (vredNeed d a p pipe lat draw) ag s c u) {r : Lane × FFlags}
    (hr : r = reduceTree (g (modeOf (u.fmt ag) p) (fmtFtz (u.fmt ag))) ident (u.vsrc ag.groupNo a.toNat (pfxA p)) c.act) :
    vred f ident ext pipe lat draw d a p s = .next (((u.sset ag d.toNat (ext r.1)).raiseFlags ag r.2).retire
      (vredNeed d a p pipe lat draw) c ((s.strand ag).pc + BitVec.ofNat 64 (lenP p))) := by
  obtain rfl : f = g := funext fun _ => funext fun _ => funext fun _ => funext fun _ => hfg _ _ _ _
  obtain rfl : c.a = ag := opens_agent h
  subst hr
  exact issue_done h (sset_flags_of_pair u c.a d.toNat ext
    (reduceTree (f (modeOf (u.fmt c.a) p) (fmtFtz (u.fmt c.a))) ident (u.vsrc c.a.groupNo a.toNat (pfxA p)) c.act))

theorem vscan_open {f g : Rnd → Bool → Lane → Lane → Lane × FFlags} {pipe lat : Nat} {draw : Draw} {b : SReg}
    (hfg : ∀ rm ftz x y, f rm ftz x y = g rm ftz x y) (h : Opens { vecNeed p [a.toNat] d pipe lat draw with src := [b.toNat] } ag s c u)
    {r : List Lane × FFlags} (hr : r = scan (g (modeOf (u.fmt ag) p) (fmtFtz (u.fmt ag))) (u.vsrc ag.groupNo a.toNat (pfxA p)) c.act 96 0
      ((c.get u b.toNat).setWidth 32)) :
    vscan f pipe lat draw d a b p s = .next (((u.vmove ag d.toNat c.act (pfxZ p) (fun i => lane r.1 i)).raiseFlags ag r.2).retire
      { vecNeed p [a.toNat] d pipe lat draw with src := [b.toNat] } c ((s.strand ag).pc + BitVec.ofNat 64 (lenP p))) := by
  obtain rfl : f = g := funext fun _ => funext fun _ => funext fun _ => funext fun _ => hfg _ _ _ _
  obtain rfl : c.a = ag := opens_agent h
  subst hr
  exact issue_done h (vmove_flags_of_pair u c.a d.toNat c.act (pfxZ p) (scan (f (modeOf (u.fmt c.a) p) (fmtFtz (u.fmt c.a)))
    (u.vsrc c.a.groupNo a.toNat (pfxA p)) c.act 96 0 ((c.get u b.toNat).setWidth 32)))

/-- The image and its flags, taken apart. -/
theorem vput_flags_of_pair (u : State) (ag : Agent) (d : Nat) (pr : Nat × FFlags) :
    (match pr with
      | (img, fl) => Act.done ((u.vput ag.groupNo d (lanes (fun i => BitVec.ofNat 32 (img / 2 ^ (32 * i))))).raiseFlags ag fl)) =
      .done ((u.vput ag.groupNo d (lanes (fun i => BitVec.ofNat 32 (pr.1 / 2 ^ (32 * i))))).raiseFlags ag pr.2) := rfl

theorem vcvtSxF32_open (h : Opens (vecNeed p [a.toNat] d 0 8 .vfp) ag s c u) {blocks : List (SxBlock × FFlags)}
    (hblocks : blocks = (List.range 6).map (fun g => sxPack (sxBits (fmtSxw (u.fmt ag))) (modeOf (u.fmt ag) p) ((List.range 16).map (fun j =>
      if c.act.getLsbD (16 * g + j) then lane (u.vsrc ag.groupNo a.toNat (pfxA p)) (16 * g + j) else 0)))) {image : Nat}
    (himage : image = ((List.range 6).map (fun g => ((blocks.map (fun q => q.1.toNat (sxBits (fmtSxw (u.fmt ag))))).getD g 0) *
      2 ^ (8 * sxBytes (sxBits (fmtSxw (u.fmt ag))) * g))).sum) :
    execVcvtSxF32 d a p s = .next (((u.vput ag.groupNo d.toNat (lanes (fun i => BitVec.ofNat 32 (image / 2 ^ (32 * i))))).raiseFlags ag
      (blocks.foldl (fun f q => f ||| q.2) 0)).retire (vecNeed p [a.toNat] d 0 8 .vfp) c
      ((s.strand ag).pc + BitVec.ofNat 64 (lenP p))) := by
  obtain rfl : c.a = ag := opens_agent h
  have hsum := sxImage_eq (sxBits (fmtSxw (u.fmt c.a))) (modeOf (u.fmt c.a) p)
    (fun i => if c.act.getLsbD i then lane (u.vsrc c.a.groupNo a.toNat (pfxA p)) i else 0) hblocks
  have hpair := vput_flags_of_pair u c.a d.toNat (sxImage (sxBits (fmtSxw (u.fmt c.a))) (modeOf (u.fmt c.a) p)
    (fun i => if c.act.getLsbD i then lane (u.vsrc c.a.groupNo a.toNat (pfxA p)) i else 0))
  have hdone : execVcvtSxF32 d a p s = .next _ := issue_done h hpair
  have hlen : (vecNeed p [a.toNat] d 0 8 .vfp).len = lenP p := rfl
  rw [hdone, hsum, himage, hlen]

theorem vcvtF32Sx_open (h : Opens (vecNeed p [a.toNat] d 0 8 .vfp) ag s c u) {m image : Nat} (hm : m = sxBits (fmtSxw (u.fmt ag)))
    (himage : image = ((List.range (6 * sxBytes m / 4)).map (fun i => (lane (u.vget ag.groupNo a.toNat) i).toNat * 2 ^ (32 * i))).sum) :
    execVcvtF32Sx d a p s = .next ((u.vmove ag d.toNat c.act (pfxZ p) (fun i =>
      if i < 96 then
        let b := SxBlock.ofNat m (image / 2 ^ (8 * sxBytes m * (i / 16)))
        sxUnpack m b.e (b.u.getD (i % 16 / 4) 0) (b.xs.getD (i % 16) 0)
      else 0)).retire (vecNeed p [a.toNat] d 0 8 .vfp) c ((s.strand ag).pc + BitVec.ofNat 64 (lenP p))) := by
  have hlen : (vecNeed p [a.toNat] d 0 8 .vfp).len = lenP p := rfl
  have hdone : execVcvtF32Sx d a p s = .next _ := issue_done h rfl
  subst hm
  rw [hdone, opens_agent h, hlen, ← himage]
  refine congrArg (fun t : State => Host.Outcome.next (t.retire _ _ _)) (vmove_congr fun i hi _ => ?_)
  have hblock : i / 16 < 6 := by omega
  simp only [getD_map_range _ _ hblock, if_pos hi]

theorem vcompact_open {b : SReg} (h : Opens { vecNeed p [a.toNat] d 1 6 .vint with src := [b.toNat] } ag s c u) :
    execVcompact d a b p s = .next ((u.vput ag.groupNo d.toNat (lanes (fun i =>
      match ((List.range 96).filter (fun i => c.act.getLsbD i))[i]? with
      | some j => lane (u.vsrc ag.groupNo a.toNat (pfxA p)) j
      | none => (c.get u b.toNat).setWidth 32))).retire { vecNeed p [a.toNat] d 1 6 .vint with src := [b.toNat] } c
      ((s.strand ag).pc + BitVec.ofNat 64 (lenP p))) := by
  have hlen : ({ vecNeed p [a.toNat] d 1 6 .vint with src := [b.toNat] } : Need).len = lenP p := rfl
  have hdone : execVcompact d a b p s = .next _ := issue_done h rfl
  rw [hdone, opens_agent h, hlen]
  refine congrArg (fun f => Host.Outcome.next ((u.vput ag.groupNo d.toNat (lanes f)).retire _ _ _)) (funext fun i => ?_)
  rw [List.getD_eq_getElem?_getD, List.getElem?_map, activeLanes]
  cases ((List.range 96).filter (fun i => c.act.getLsbD i))[i]? <;> rfl

theorem vexpand_open (h : Opens (vecNeed p [a.toNat] d 1 6 .vint) ag s c u) :
    execVexpand d a p s = .next ((u.vmove ag d.toNat c.act (pfxZ p) (fun i =>
      lane (u.vsrc ag.groupNo a.toNat (pfxA p)) ((List.range i).filter (fun j => c.act.getLsbD j)).length)).retire
      (vecNeed p [a.toNat] d 1 6 .vint) c ((s.strand ag).pc + BitVec.ofNat 64 (lenP p))) := by
  have hlen : (vecNeed p [a.toNat] d 1 6 .vint).len = lenP p := rfl
  have hdone : execVexpand d a p s = .next _ := issue_done h rfl
  rw [hdone, opens_agent h, hlen]
  refine congrArg (fun t : State => Host.Outcome.next (t.retire _ _ _)) (vmove_congr fun i hi hact => ?_)
  rw [idxOf_active _ hi hact]

theorem vsel_open {b : VReg} (h : Opens (vecNeed p [a.toNat, b.toNat] d 1 4 .vint) ag s c u) :
    execVsel d a b p s = .next ((u.vmove ag d.toNat c.mask false (fun i => if c.act.getLsbD i then
      lane (u.vsrc ag.groupNo a.toNat (pfxA p)) i else lane (u.vsrc ag.groupNo b.toNat (pfxB p)) i)).retire
      (vecNeed p [a.toNat, b.toNat] d 1 4 .vint) c ((s.strand ag).pc + BitVec.ofNat 64 (lenP p))) := by
  have hlen : (vecNeed p [a.toNat, b.toNat] d 1 4 .vint).len = lenP p := rfl
  have hdone : execVsel d a b p s = .next _ := issue_done h rfl
  rw [hdone, opens_agent h, hlen]

theorem vperm_open {b : VReg} (h : Opens (vecNeed p [a.toNat, b.toNat] d 1 6 .vint) ag s c u) :
    execVperm d a b p s = .next ((u.vmove ag d.toNat c.act (pfxZ p) (fun i =>
      if (lane (u.vsrc ag.groupNo b.toNat (pfxB p)) i).toNat % 128 < 96 then
        lane (u.vsrc ag.groupNo a.toNat (pfxA p)) ((lane (u.vsrc ag.groupNo b.toNat (pfxB p)) i).toNat % 128) else 0)).retire
      (vecNeed p [a.toNat, b.toNat] d 1 6 .vint) c ((s.strand ag).pc + BitVec.ofNat 64 (lenP p))) := by
  have hlen : (vecNeed p [a.toNat, b.toNat] d 1 6 .vint).len = lenP p := rfl
  have hdone : execVperm d a b p s = .next _ := issue_done h rfl
  rw [hdone, opens_agent h, hlen]

theorem vsplat_open {a : SReg} (h : Opens { vecNeed p [] d 1 4 .vint with src := [a.toNat] } ag s c u) :
    execVsplat d a p s = .next ((u.vmove ag d.toNat c.act (pfxZ p) (fun _ => (c.get u a.toNat).setWidth 32)).retire
      { vecNeed p [] d 1 4 .vint with src := [a.toNat] } c ((s.strand ag).pc + BitVec.ofNat 64 (lenP p))) := by
  have hlen : ({ vecNeed p [] d 1 4 .vint with src := [a.toNat] } : Need).len = lenP p := rfl
  have hdone : execVsplat d a p s = .next _ := issue_done h rfl
  rw [hdone, opens_agent h, hlen]

theorem vext_open {d b : SReg} (h : Opens { vredNeed d a p 1 4 .vint with src := [b.toNat] } ag s c u) :
    execVext d a b p s = .next ((u.sset ag d.toNat (if (c.get u b.toNat).toNat % 128 < 96 then
      (lane (u.vsrc ag.groupNo a.toNat (pfxA p)) ((c.get u b.toNat).toNat % 128)).setWidth 64 else 0)).retire
      { vredNeed d a p 1 4 .vint with src := [b.toNat] } c ((s.strand ag).pc + BitVec.ofNat 64 (lenP p))) := by
  have hlen : ({ vredNeed d a p 1 4 .vint with src := [b.toNat] } : Need).len = lenP p := rfl
  have hdone : execVext d a b p s = .next _ := issue_done h rfl
  rw [hdone, opens_agent h, hlen]

theorem vins_open {a b : SReg} (h : Opens { vecNeed p [] d 1 4 .vint with src := [a.toNat, b.toNat] } ag s c u) :
    execVins d a b p s = .next ((u.vput ag.groupNo d.toNat (lanes (fun i =>
      if i = (c.get u b.toNat).toNat % 128 ∧ c.act.getLsbD i = true then (c.get u a.toNat).setWidth 32
      else lane (u.vget ag.groupNo d.toNat) i))).retire { vecNeed p [] d 1 4 .vint with src := [a.toNat, b.toNat] } c
      ((s.strand ag).pc + BitVec.ofNat 64 (lenP p))) := by
  have hlen : ({ vecNeed p [] d 1 4 .vint with src := [a.toNat, b.toNat] } : Need).len = lenP p := rfl
  have hdone : execVins d a b p s = .next _ := issue_done h rfl
  rw [hdone, opens_agent h, hlen]
  refine congrArg (fun v : List Lane => Host.Outcome.next ((u.vput ag.groupNo d.toNat v).retire _ _ _)) (lanes_congr fun i hi => ?_)
  have hbit : (c.act &&& (1 : Mask) <<< ((c.get u b.toNat).toNat % 128)).getLsbD i = true ↔
      i = (c.get u b.toNat).toNat % 128 ∧ c.act.getLsbD i = true := by
    rw [BitVec.getLsbD_and, Bool.and_eq_true, and_comm]
    refine and_congr_left fun _ => ?_
    simp only [BitVec.getLsbD_shiftLeft, BitVec.ofNat_eq_ofNat, BitVec.getLsbD_one, Bool.and_eq_true, Bool.not_eq_true',
      decide_eq_true_eq, decide_eq_false_iff_not]
    omega
  simp only [hbit, Bool.false_eq_true, if_false]

theorem vlaneid_open (h : Opens (vecNeed p [] d 1 4 .vint) ag s c u) :
    execVlaneid d p s = .next ((u.vmove ag d.toNat c.act (pfxZ p) (fun i => BitVec.ofNat 32 i)).retire (vecNeed p [] d 1 4 .vint) c
      ((s.strand ag).pc + BitVec.ofNat 64 (lenP p))) := by
  have hlen : (vecNeed p [] d 1 4 .vint).len = lenP p := rfl
  have hdone : execVlaneid d p s = .next _ := issue_done h rfl
  rw [hdone, opens_agent h, hlen]

theorem viota_open (h : Opens (vecNeed p [] d 1 6 .vint) ag s c u) :
    execViota d p s = .next ((u.vmove ag d.toNat c.act (pfxZ p) (fun i => BitVec.ofNat 32
      ((List.range i).filter (fun j => c.act.getLsbD j)).length)).retire (vecNeed p [] d 1 6 .vint) c
      ((s.strand ag).pc + BitVec.ofNat 64 (lenP p))) := by
  have hlen : (vecNeed p [] d 1 6 .vint).len = lenP p := rfl
  have hdone : execViota d p s = .next _ := issue_done h rfl
  rw [hdone, opens_agent h, hlen]
  refine congrArg (fun t : State => Host.Outcome.next (t.retire _ _ _)) (vmove_congr fun i hi _ => ?_)
  rw [active_below _ hi]

end

/-- Settles O10: each member writes its lanes; where it looks for an active lane's place, that is the number of active lanes below it
(`idxOf_active`, `active_below`). -/
theorem laneMoves : Obligations.LaneMoves := by
  refine ⟨⟨?_, ?_, ?_, ?_⟩, ?_, ?_, ?_, ?_, ?_⟩
  · intro d a b p s ag c u n h x on
    exact exec_vcompact.trans (vcompact_open h)
  · intro d a p s ag c u n h x
    exact exec_vexpand.trans (vexpand_open h)
  · intro d a b p s ag c u n h x y
    exact exec_vsel.trans (vsel_open h)
  · intro d a b p s ag c u n h x y
    exact exec_vperm.trans (vperm_open h)
  · intro d a p s ag c u n h
    exact exec_vmov.trans (vmovOf_open h)
  · intro d a p s ag c u n h
    exact exec_vsplat.trans (vsplat_open h)
  · intro d a b p s ag c u n h j
    exact exec_vext.trans (vext_open h)
  · intro d a b p s ag c u n h j
    exact exec_vins.trans (vins_open h)
  · intro d p s ag c u
    exact ⟨fun h => exec_vlaneid.trans (vlaneid_open h), fun h => exec_viota.trans (viota_open h)⟩

/-- Settles O8: each member writes its function of the lanes or of the tree or scan over them; an image is the sum of its blocks
(`sxImage_eq`). -/
theorem conversionsAndReductions : Obligations.ConversionsAndReductions := by
  refine ⟨⟨?_, ?_, ?_⟩, ?_, ?_⟩
  · intro row hrow d a p s ag c u n h x
    simp only [List.mem_cons, List.not_mem_nil, or_false] at hrow
    rcases hrow with rfl | rfl | rfl | rfl | rfl | rfl | rfl | rfl
    · exact exec_vcvtF32S32.trans (cvt1_open (by intros; rfl) h)
    · exact exec_vcvtF32U32.trans (cvt1_open (by intros; rfl) h)
    · exact exec_vcvtS32F32.trans (cvt1_open (by intros; rfl) h)
    · exact exec_vcvtU32F32.trans (cvt1_open (by intros; rfl) h)
    · exact exec_vcvtF32Bf16.trans (cvt1_open (by intros; rfl) h)
    · exact exec_vcvtF32Bf16.trans (cvt1_open (by intros; rfl) h)
    · exact exec_vcvtF32F16.trans (cvt1_open (by intros; rfl) h)
    · exact exec_vcvtF32F16.trans (cvt1_open (by intros; rfl) h)
  · intro row hrow d a b p s ag c u n h conv
    simp only [List.mem_cons, List.not_mem_nil, or_false] at hrow
    rcases hrow with rfl | rfl
    · exact exec_vcvtBf16F32.trans (cvt2_open h)
    · exact exec_vcvtF16F32.trans (cvt2_open h)
  · intro d a p s ag c u n h m
    constructor
    · intro x blocks image
      exact exec_vcvtSxF32.trans (vcvtSxF32_open h rfl rfl)
    · intro v image
      exact exec_vcvtF32Sx.trans (vcvtF32Sx_open h rfl rfl)
  · intro row hrow d a p s ag c u n h r
    simp only [List.mem_cons, List.not_mem_nil, or_false] at hrow
    rcases hrow with rfl | rfl | rfl | rfl | rfl | rfl
    · exact exec_vredFadd.trans (vred_open (by intros; rfl) h rfl)
    · exact exec_vredFmin.trans (vred_open (by intros; rfl) h rfl)
    · exact exec_vredFmax.trans (vred_open (by intros; rfl) h rfl)
    · exact exec_vredIadd.trans (vred_open (by intros; rfl) h rfl)
    · exact exec_vredIminS.trans (vred_open (by intro rm ftz x y; rw [minS_eq]) h rfl)
    · exact exec_vredImaxS.trans (vred_open (by intro rm ftz x y; rw [maxS_eq]) h rfl)
  · intro row hrow d a b p s ag c u n h r
    simp only [List.mem_cons, List.not_mem_nil, or_false] at hrow
    rcases hrow with rfl | rfl
    · exact exec_vscanFadd.trans (vscan_open (by intros; rfl) h rfl)
    · exact exec_vscanIadd.trans (vscan_open (by intros; rfl) h rfl)

end Sys2Proof
end

section
/-!
System registers, traps, ends and fences; queues, ranges and the stack instructions; CACHE (spec/15_isa_system.md, spec/07_assembly.md,
spec/11_isa_memory.md R167).
-/

namespace Sys2Proof

open Sys2Proof.Machine

/-! ### System registers -/

section
variable {s u : State} {ag : Agent} {c : Ctx}

/-- A body that makes a system trap. -/
theorem sys_of {n : Need} {code : BitVec 8} {val : Word} {o : Host.Outcome State Fault Refusal} (h : Opens n ag s c u)
    {body : Ctx → State → Act} (ho : o = issue n body s) (hb : body c u = .sys code val) : o = .next (s.takeTrapAs ag true code val) := by
  rw [ho, issue_open h, hb]

theorem eventOf_eq (n : Nat) : eventOf n = if 0x100 ≤ n ∧ n ≤ 0x11F then some (n % 16) else none := by
  simp only [eventOf, Bool.and_eq_true, decide_eq_true_eq]

/-- A closed gate of a sequence without registers pending: the misuse that its operands call for. -/
theorem issue_pre {n : Need} {t : BitVec 8 × Word} (hcur : s.cur = some ag) (halive : s.alive ag = true) (hpend : s.pending ag = [])
    (hill : n.illegal s ag = none) (hwaits : n.waits s ag = none) (hpre : n.pre s ag = some t) (body : Ctx → State → Act) :
    issue n body s = .next (s.takeTrap ag t.1 t.2) := by
  refine issue_gate_trap hcur halive ?_ body
  simp [gate, hill, hpend, hwaits, hpre]

theorem rightV_eq_none (n : Nat) : rightV n = .none ↔ ¬((0x20 ≤ n ∧ n ≤ 0x2F) ∨ (n = 1 ∨ n = 2 ∨ (0x08 ≤ n ∧ n ≤ 0x0B) ∨ n = 0x11 ∨
    (0x30 ≤ n ∧ n ≤ 0x37)) ∨ (n = 0 ∨ n = 3 ∨ n = 4 ∨ (0x40 ≤ n ∧ n ≤ 0x4F) ∨ (0x51 ≤ n ∧ n ≤ 0x57) ∨ (0x100 ≤ n ∧ n ≤ 0x10F) ∨
    n = 0x201 ∨ n = 0x301 ∨ n = 0x302) ∨ (n = 0x10 ∨ n = 0x12 ∨ (0x110 ≤ n ∧ n ≤ 0x11F) ∨ n = 0x200 ∨ n = 0x300)) := by
  unfold rightV
  simp only [Bool.or_eq_true, Bool.and_eq_true, decide_eq_true_eq]
  split
  · simp only [reduceCtorEq, false_iff]; omega
  · split
    · simp only [reduceCtorEq, false_iff]; omega
    · simp only [true_iff]; omega

theorem rightV_eq_rw (n : Nat) : rightV n = .rw ↔ (0x20 ≤ n ∧ n ≤ 0x2F) ∨ (n = 1 ∨ n = 2 ∨ (0x08 ≤ n ∧ n ≤ 0x0B) ∨ n = 0x11 ∨
    (0x30 ≤ n ∧ n ≤ 0x37)) := by
  unfold rightV
  simp only [Bool.or_eq_true, Bool.and_eq_true, decide_eq_true_eq]
  split
  · simp only [true_iff]; omega
  · split
    · simp only [reduceCtorEq, false_iff]; omega
    · simp only [reduceCtorEq, false_iff]; omega

theorem rightC_eq_none (sup : Bool) (n : Nat) : rightC sup n = .none ↔ ¬((0x20 ≤ n ∧ n ≤ 0x2F) ∨ (n = 0 ∨ n = 3 ∨ n = 4 ∨
    (0x40 ≤ n ∧ n ≤ 0x4F) ∨ (0x51 ≤ n ∧ n ≤ 0x57) ∨ (0x100 ≤ n ∧ n ≤ 0x10F) ∨ n = 0x201 ∨ n = 0x301 ∨ n = 0x302) ∨
    ((0x08 ≤ n ∧ n ≤ 0x0B) ∨ n = 0x200 ∨ n = 0x300) ∨ (0x210 ≤ n ∧ n ≤ 0x212)) := by
  unfold rightC
  simp only [Bool.or_eq_true, Bool.and_eq_true, decide_eq_true_eq]
  split
  · simp only [reduceCtorEq, false_iff]; omega
  · split
    · cases sup <;> (simp only [Bool.false_eq_true, if_true, if_false, reduceCtorEq, false_iff]; omega)
    · split
      · simp only [reduceCtorEq, false_iff]; omega
      · simp only [true_iff]; omega

theorem rightC_eq_rw (sup : Bool) (n : Nat) : rightC sup n = .rw ↔ (0x20 ≤ n ∧ n ≤ 0x2F) ∨ sup = true ∧
    (((0x08 ≤ n ∧ n ≤ 0x0B) ∨ n = 0x200 ∨ n = 0x300) ∨ (0x210 ≤ n ∧ n ≤ 0x212)) := by
  unfold rightC
  simp only [Bool.or_eq_true, Bool.and_eq_true, decide_eq_true_eq]
  split
  · simp only [true_iff]; omega
  · split
    · cases sup
      · simp only [Bool.false_eq_true, if_false, reduceCtorEq, false_iff, false_and, or_false]; omega
      · simp only [if_true, true_iff, true_and]; omega
    · split
      · simp only [reduceCtorEq, false_iff]; omega
      · simp only [reduceCtorEq, false_iff]; omega

/-- A number without a right takes ILLEGAL 10, one that may only be read PRIV (R360, R364). -/
theorem srd_of_no_right {d : SReg} {n : BitVec 12} (hcur : s.cur = some ag) (halive : s.alive ag = true) (hpend : s.pending ag = [])
    (hright : s.right ag n.toNat = .none) :
    exec (.srd d n) s = .next (s.takeTrap ag 0x01 (BitVec.ofNat 64 (10 * 2 ^ 56 + n.toNat))) := by
  have hill : (srdNeed d n).illegal s ag = none := by cases ag <;> rfl
  have hval : illegalVal 10 n.toNat = BitVec.ofNat 64 (10 * 2 ^ 56 + n.toNat) := by
    rw [illegalVal, Nat.mod_eq_of_lt (Nat.lt_of_lt_of_le n.isLt (by decide))]
  have hpre : (srdNeed d n).pre s ag = some (0x01, illegalVal 10 n.toNat) := if_pos hright
  rw [← hval]
  exact exec_srd.trans (issue_pre hcur halive hpend hill rfl hpre _)

theorem swr_of_no_right {a : SReg} {n : BitVec 12} (hcur : s.cur = some ag) (halive : s.alive ag = true) (hpend : s.pending ag = [])
    (hright : s.right ag n.toNat = .none) :
    exec (.swr n a) s = .next (s.takeTrap ag 0x01 (BitVec.ofNat 64 (10 * 2 ^ 56 + n.toNat))) := by
  have hill : (swrNeed n a).illegal s ag = none := by cases ag <;> rfl
  have hval : illegalVal 10 n.toNat = BitVec.ofNat 64 (10 * 2 ^ 56 + n.toNat) := by
    rw [illegalVal, Nat.mod_eq_of_lt (Nat.lt_of_lt_of_le n.isLt (by decide))]
  have hpre : (swrNeed n a).pre s ag = some (0x01, illegalVal 10 n.toNat) := by
    change swrPre n.toNat s ag = _
    rw [swrPre, hright]
  rw [← hval]
  exact exec_swr.trans (issue_pre hcur halive hpend hill rfl hpre _)

theorem swr_of_read_only {a : SReg} {n : BitVec 12} (hcur : s.cur = some ag) (halive : s.alive ag = true) (hpend : s.pending ag = [])
    (hright : s.right ag n.toNat = .ro) : exec (.swr n a) s = .next (s.takeTrap ag 0x02 (BitVec.ofNat 64 n.toNat)) := by
  have hill : (swrNeed n a).illegal s ag = none := by cases ag <;> rfl
  have hpre : (swrNeed n a).pre s ag = some (0x02, BitVec.ofNat 64 n.toNat) := by
    change swrPre n.toNat s ag = _
    rw [swrPre, hright]
  exact exec_swr.trans (issue_pre hcur halive hpend hill rfl hpre _)

/-- SRD at an open gate: the register, unless it counts an event that is off and the interface is strict (R285, R396). -/
theorem srd_open {d : SReg} {n : BitVec 12} (h : Opens (srdNeed d n) ag s c u) : exec (.srd d n) s =
    if (0x100 ≤ n.toNat ∧ n.toNat ≤ 0x11F) ∧ u.eventOff (u.ctxOf ag).1 (u.ctxOf ag).2 (n.toNat % 16) = true ∧ u.viBit (u.ctxOf ag).1 1 = true then
      .next (s.takeTrapAs ag true 0x06 (BitVec.ofNat 64 (n.toNat % 16)))
    else .next ((u.sset ag d.toNat (u.sysRead ag n.toNat)).retire (srdNeed d n) c ((s.strand ag).pc + 4)) := by
  obtain rfl : c.a = ag := opens_agent h
  by_cases hrange : 0x100 ≤ n.toNat ∧ n.toNat ≤ 0x11F
  · have hevent : eventOf n.toNat = some (n.toNat % 16) := by rw [eventOf_eq, if_pos hrange]
    by_cases hoff : u.eventOff (u.ctxOf c.a).1 (u.ctxOf c.a).2 (n.toNat % 16) = true ∧ u.viBit (u.ctxOf c.a).1 1 = true
    · rw [if_pos ⟨hrange, hoff⟩]
      refine sys_of h exec_srd ?_
      simp only [hevent, hoff.1, hoff.2, Bool.and_self, if_true]
    · rw [if_neg fun hall => hoff hall.2]
      refine done_of h exec_srd ?_ rfl rfl
      simp only [hevent]
      exact if_neg (by rwa [Bool.and_eq_true])
  · have hevent : eventOf n.toNat = none := by rw [eventOf_eq, if_neg hrange]
    rw [if_neg fun hall => hrange hall.1]
    refine done_of h exec_srd ?_ rfl rfl
    simp only [hevent]

theorem eq_ro_of_ne {r : Right} (hnone : r ≠ .none) (hrw : r ≠ .rw) : r = .ro := by
  cases r
  · exact absurd rfl hnone
  · rfl
  · exact absurd rfl hrw

end

/-- Settles O17: the rights are those of the two tables (`rightV_eq_none`, `rightC_eq_none`, and those with `rw`). -/
theorem systemRegisters : Obligations.SystemRegisters := by
  refine ⟨⟨?_, ?_, ?_, ?_⟩, ?_⟩
  · intro d n s ag c u h ctx off
    have hsrd := srd_open h
    constructor
    · intro hoff
      rwa [if_neg hoff] at hsrd
    · intro hoff
      rwa [if_pos hoff] at hsrd
  · intro n a s ag c u h hwaits
    obtain rfl : c.a = ag := opens_agent h
    refine done_of h exec_swr ?_ rfl rfl
    exact if_neg (by rw [hwaits]; decide)
  · intro d a s ag c u n h
    obtain rfl : c.a = ag := opens_agent h
    exact done_of h exec_setfmt rfl rfl rfl
  · intro a b s ag c u n h
    obtain rfl : c.a = ag := opens_agent h
    exact done_of h exec_scfg rfl rfl rfl
  · intro d a n s ag hcur halive hpend
    cases ag with
    | split g k =>
      intro mine priv shared vecRw vecRo writes reads
      constructor
      · intro hreads
        have hright : s.right (.split g k) n.toNat = .none := (rightV_eq_none _).2 fun hin => hreads <| by
          rcases hin with hin | hin | hin | hin
          · exact .inl (.inl hin)
          · exact .inl (.inr hin)
          · exact .inr (.inl hin)
          · exact .inr (.inr hin)
        exact ⟨srd_of_no_right hcur halive hpend hright, swr_of_no_right hcur halive hpend hright⟩
      · intro hreads hwrites
        refine swr_of_read_only hcur halive hpend (eq_ro_of_ne (fun hright => ?_) fun hright => ?_)
        · refine (rightV_eq_none _).1 hright ?_
          rcases hreads with (hin | hin) | hin | hin
          · exact .inl hin
          · exact .inr (.inl hin)
          · exact .inr (.inr (.inl hin))
          · exact .inr (.inr (.inr hin))
        · exact hwrites ((rightV_eq_rw _).1 hright)
    | thread t =>
      intro mine priv shared vecRw vecRo writes reads
      have hpriv : priv ↔ (0x08 ≤ n.toNat ∧ n.toNat ≤ 0x0B) ∨ n.toNat = 0x200 ∨ n.toNat = 0x300 := by
        refine or_congr Iff.rfl (or_congr ?_ ?_) <;> (rw [← BitVec.toNat_inj]; rfl)
      constructor
      · intro hreads
        have hright : s.right (.thread t) n.toNat = .none := (rightC_eq_none _ _).2 fun hin => hreads <| by
          rcases hin with hin | hin | hin | hin
          · exact .inl (.inl hin)
          · exact .inr (.inl hin)
          · exact .inr (.inr (.inl (hpriv.2 hin)))
          · exact .inr (.inr (.inr hin))
        exact ⟨srd_of_no_right hcur halive hpend hright, swr_of_no_right hcur halive hpend hright⟩
      · intro hreads hwrites
        refine swr_of_read_only hcur halive hpend (eq_ro_of_ne (fun hright => ?_) fun hright => ?_)
        · refine (rightC_eq_none _ _).1 hright ?_
          rcases hreads with (hin | ⟨-, hin | hin⟩) | hin | hin | hin
          · exact .inl hin
          · exact .inr (.inr (.inl (hpriv.1 hin)))
          · exact .inr (.inr (.inr hin))
          · exact .inr (.inl hin)
          · exact .inr (.inr (.inl (hpriv.1 hin)))
          · exact .inr (.inr (.inr hin))
        · rcases (rightC_eq_rw _ _).1 hright with hin | ⟨hsup, hin | hin⟩
          · exact hwrites (.inl hin)
          · exact hwrites (.inr ⟨hsup, .inl (hpriv.2 hin)⟩)
          · exact hwrites (.inr ⟨hsup, .inr hin⟩)

end Sys2Proof
end

section
/-!
EXIT with EXEC pending (spec/15_isa_system.md R228, spec/19_accounting.md R270), and GRAB of a range that no RSET has set (R237).
-/

namespace Sys2Proof

open Sys2Proof.Machine

/-! ### EXIT reads EXEC -/

/-- A split of one active lane whose s60 is being written, about to try. -/
def execPending : State :=
  { State.reset with
    cur := some (.split 0 0)
    groups := [(0, { Group.blank with
      nreg := 64
      pend := [{ reg := .bank 0 60, at_ := 5, cause := .depend }]
      splits := [(0, { Split.blank with strand := Strand.start 0 0, ex := 1, nest := [.link 0 1 0 false] })] })] }

set_option maxRecDepth 8000 in
theorem gate_exit_execPending : gate exitNeed (.split 0 0) execPending = .block .depend := rfl

set_option maxRecDepth 8000 in
/-- A sequence without operands finds its gate open there, and with EXIT's effect the lane would have retired. -/
theorem opens_execPending : ∃ c u, Opens {} (.split 0 0) execPending c u ∧
    ((((u.retire {} c ((execPending.strand (.split 0 0)).pc + 4)).exitSplit 0 0).group 0).retired !=
      ((execPending.blockNeed (.split 0 0) exitNeed .depend).group 0).retired) = true := opensAnd_spec (by decide)

/-- Refutes O18: EXIT reads EXEC, so it waits for a write of s60 under way, where the statement asks only that a sequence without
operands may issue (`execPending`). -/
theorem not_trapsWaitsAndEnds : ¬ Obligations.TrapsWaitsAndEnds := by
  intro hall
  obtain ⟨c, u, hopen, hne⟩ := opens_execPending
  obtain ⟨_, _, _, _, _, _, _, hexit, _⟩ := hall 0 execPending (.split 0 0) c u
  have hstated := hexit hopen 0 0 rfl
  have hblocked : exec .exit execPending = .next (execPending.blockNeed (.split 0 0) exitNeed .depend) :=
    exec_exit.trans (issue_gate_block hopen.1 hopen.2.1 gate_exit_execPending _)
  have hstates := Host.Outcome.next.inj (hblocked.symm.trans hstated)
  exact bne_iff_ne.1 hne (congrArg (fun t : State => (t.group 0).retired) hstates).symm

/-! ### A range that no RSET has set -/

/-- A split about to try, with no range set. -/
def noRanges : State :=
  { State.reset with
    cur := some (.split 0 0)
    groups := [(0, { Group.blank with
      nreg := 64
      splits := [(0, { Split.blank with strand := Strand.start 0 0, ex := 1 })] })] }

/-- What GRAB of range 0 into s2 and s3 leaves when the range becomes `y` in the table `ranges`. -/
def grabbed (c : Ctx) (u : State) (ranges : Tab Range) (count : Nat) : State :=
  ((({ (u.implicitCommit (.split 0 0)).spend with ranges := ranges } : State).sset (.split 0 0) 2
    (tabGet u.ranges 0 Range.blank).next).sset (.split 0 0) 3 (BitVec.ofNat 64 count)).retire (rangeNeed 2 0 noRanges) c 4

/-- GRAB's count by the model. -/
def countOf (u : State) : Nat := grabCount (tabGet u.ranges 0 Range.blank).state

/-- GRAB's range afterwards. -/
def advanced (u : State) (x : Range) : Range :=
  { x with next := x.next + BitVec.ofNat 64 (countOf u), state := x.state - BitVec.ofNat 64 (countOf u) }

set_option maxRecDepth 8000 in
/-- The model changes the range where there is one; the statement enters it where there is none. -/
theorem opens_noRanges : ∃ c u, Opens (rangeNeed 2 0 noRanges) (.split 0 0) noRanges c u ∧
    ((grabbed c u (tabMod (u.implicitCommit (.split 0 0)).spend.ranges 0 (advanced u)) (countOf u)).ranges.length !=
      (grabbed c u (tabPut (u.implicitCommit (.split 0 0)).spend.ranges 0 (advanced u (tabGet u.ranges 0 Range.blank))) (countOf u)
        ).ranges.length) = true :=
  opensAnd_spec (by decide)

theorem toNat_extractLsb' (w : Word) (lo n : Nat) : (w.extractLsb' lo n).toNat = bits w.toNat lo n := by
  rw [BitVec.extractLsb'_toNat, Nat.shiftRight_eq_div_pow]
  rfl

/-- GRAB's count by the statement. -/
theorem grabCount_eq (w : Word) : grabCount w = if (w.extractLsb' 0 32).toNat = 0 then 0 else Nat.min (w.extractLsb' 0 32).toNat
    (Nat.max (w.extractLsb' 32 16).toNat (((w.extractLsb' 0 32).toNat +
      ((w.extractLsb' 60 3).toNat + 1) * (w.extractLsb' 48 12).toNat - 1) /
      (((w.extractLsb' 60 3).toNat + 1) * (w.extractLsb' 48 12).toNat))) := by
  simp only [toNat_extractLsb']
  rfl

/-- Refutes O20: GRAB of a range that no RSET has set leaves it nobody's, where the statement enters an empty range (`noRanges`). -/
theorem not_queuesAndRanges : ¬ Obligations.QueuesAndRanges := by
  intro hall
  obtain ⟨c, u, hopen, hne⟩ := opens_noRanges
  obtain ⟨_, hgrab, _⟩ := hall
  obtain ⟨hstated, _⟩ := hgrab 2 0 noRanges (.split 0 0) c u hopen
  have hagent : c.a = .split 0 0 := opens_agent hopen
  have hmodel : exec (.grab 2 0) noRanges = .next (grabbed c u (tabMod (u.implicitCommit (.split 0 0)).spend.ranges 0 (advanced u))
      (countOf u)) := by
    refine done_of hopen exec_grab rfl rfl ?_
    rw [hagent]
    rfl
  simp only [← grabCount_eq] at hstated
  have hstates := Host.Outcome.next.inj (hmodel.symm.trans hstated)
  exact bne_iff_ne.1 hne (congrArg (fun t : State => t.ranges.length) hstates)

end Sys2Proof
end

section
/-!
Fences, regions, the stack instructions and CACHE (spec/15_isa_system.md R230 to R238, spec/11_isa_memory.md R167).
-/

namespace Sys2Proof

open Sys2Proof.Machine

/-! ### Fences and regions -/

section
variable {s u : State} {ag : Agent} {c : Ctx}

theorem extractLsb'_zero_eq (w : Word) (n : Nat) : w.extractLsb' 0 n = w.setWidth n := by
  apply BitVec.eq_of_toNat_eq
  simp

theorem fenceMask_eq (c : Ctx) (u : State) (a : SReg) : fenceMask c u a = if a = 0 then 0xFFFF else (c.get u a.toNat).setWidth 16 := by
  have hzero : a.toNat = 0 ↔ a = 0 := by rw [← BitVec.toNat_inj]; rfl
  simp only [fenceMask, hzero, extractLsb'_zero_eq]
  rfl

/-- A group arrives at a region's edge. -/
theorem regionBody_split {buffers : Bool} {g k : Nat} (ha : c.a = .split g k) : regionBody buffers c u =
    .jump (((u.waitIn (.split g k) c.next .region).modWg (u.group g).wg (fun x => { x with
      arrived := (u.group g).idx :: x.arrived, nextPc := c.next, nextBuffers := buffers })).regionCheck (u.group g).wg) c.pc := by
  have hidx : ((u.waitIn (.split g k) c.next .region).group g).idx = (u.group g).idx :=
    tabGet_tabMod_proj _ _ _ _ _ Group.idx (fun _ => rfl)
  simp only [regionBody, ha, hidx]

end

/-- Settles O19. -/
theorem fencesAndRegions : Obligations.FencesAndRegions := by
  constructor
  · intro a s ag c u n h m
    have hm : fenceMask c u a = m := fenceMask_eq c u a
    obtain rfl : c.a = ag := opens_agent h
    have hnext : c.next = (s.strand c.a).pc + 4 := opens_next h
    have hpc : c.pc = (s.strand c.a).pc := opens_pc h
    clear_value m
    subst hm
    refine ⟨done_of h exec_fenceX rfl rfl rfl, fun sc => ⟨fun hready => ?_, fun hready => ?_⟩⟩
    · exact done_of h exec_fenceS (if_pos hready) rfl rfl
    · refine jump_of h exec_fenceS (if_neg (by rw [hready]; decide)) hpc ?_
      rw [hnext]
  · intro row hrow s ag c u h pc
    have hnext : c.next = pc + 4 := opens_next h
    have hpc : c.pc = pc := opens_pc h
    simp only [List.mem_cons, List.not_mem_nil, or_false] at hrow
    constructor
    · intro hthread
      have hbody (buffers : Bool) : regionBody buffers c u = .done u := by
        cases ag with
        | split g k => cases hthread
        | thread t => simp only [regionBody, opens_agent h]
      rcases hrow with rfl | rfl
      · exact done_of h exec_region (hbody true) rfl rfl
      · exact done_of h exec_rclose (hbody false) rfl rfl
    · rintro g k rfl w
      rcases hrow with rfl | rfl
      · refine jump_of h exec_region (regionBody_split (opens_agent h)) hpc ?_
        rw [hnext]
      · refine jump_of h exec_rclose (regionBody_split (opens_agent h)) hpc ?_
        rw [hnext]

/-! ### Stack instructions -/

/-- Settles O21. -/
theorem stackInstructions : Obligations.StackInstructions := by
  intro d a s ag c u pc
  refine ⟨fun h => ?_, fun h => ?_, fun h => ?_, fun h => ?_⟩
  · obtain rfl : c.a = ag := opens_agent h
    exact done_of h exec_burn rfl rfl rfl
  · obtain rfl : c.a = ag := opens_agent h
    refine done_of h exec_shunt rfl rfl ?_
    simp only [toNat_extractLsb']
  · obtain rfl : c.a = ag := opens_agent h
    refine done_of h exec_rdmis rfl rfl ?_
    rw [mismOf, extractLsb'_zero_eq]
  · obtain rfl : c.a = ag := opens_agent h
    refine done_of h exec_dcls rfl rfl ?_
    rw [extractLsb'_zero_eq]

/-! ### CACHE -/

/-- A CACHE member that writes nothing into the line, with a slot free (R167). -/
theorem cacheBody_open {s u : State} {ag : Agent} {c : Ctx} {r x : SReg} {st : StreamNo} {e : Option (BitVec 25)} {commit : Bool}
    {eff : State → Agent → Nat → State} (h : Opens (cacheForm r x st e).need ag s c u) (hslots : u.slotsFull ag.unit = false) {va : Nat}
    (hva : va = (c.get u r.toNat + c.get u x.toNat + dispValue e).toNat / 128 * 128) :
    issue (cacheForm r x st e).need (cacheBody (cacheForm r x st e) commit eff) s = .next ((if (regionOf va 128).1 != .global then u
      else eff (if commit then (u.settle ag u.nextId va 128).implicitCommit ag else u.settle ag u.nextId va 128) ag va).retire
      (cacheForm r x st e).need c ((s.strand ag).pc + BitVec.ofNat 64 (lenX e))) := by
  obtain rfl : c.a = ag := opens_agent h
  subst hva
  refine done_of h rfl ?_ rfl rfl
  have hline : cacheLine (cacheForm r x st e) c u = (c.get u r.toNat + c.get u x.toNat + dispValue e).toNat / 128 * 128 := rfl
  simp only [cacheBody, hslots, Bool.false_eq_true, if_false, hline]
  split <;> rfl

theorem core_modCore_self (s : State) (l : Nat) (f : Core → Core) : (s.modCore l f).core l = f (s.core l) := tabGet_tabPut_self _ _ _ _

theorem core_modCore_other (s : State) {l m : Nat} (f : Core → Core) (h : m ≠ l) : (s.modCore l f).core m = s.core m :=
  tabGet_tabPut_other _ _ _ _ _ h

theorem regionOf_line {va : Nat} (h : va < 0xFFF0000000000 - 127) : (regionOf va 128).1 = .global := by
  have hlast : va + 128 - 1 < 0xFFF0000000000 := by omega
  simp only [regionOf, hlast, if_true]

/-- INVAL on a vector core takes the line out of the core's L1 (R167). -/
theorem invalL1_split (s : State) (g k : Nat) {va : Nat} (h : va < 0xFFF0000000000 - 127) : s.invalL1 (.split g k) va =
    s.modCore (g / 32) (fun c => { c with l1 := tabDel c.l1 (lineKey (s.tagAsid (s.ctxOf (.split g k)).1 (s.ctxOf (.split g k)).2 va) va) }) := by
  simp only [State.invalL1, regionOf_line h]
  rfl

/-- Settles O13: the members run their effect on the line (`cacheBody_open`), and INVAL's is `invalL1_split`. -/
theorem cacheMembers : Obligations.CacheMembers := by
  constructor
  · intro row hrow r x st e s ag c u n h hslots va v
    simp only [List.mem_cons, List.not_mem_nil, or_false] at hrow
    rcases hrow with rfl | rfl | rfl | rfl | rfl
    · exact exec_cachePfl1.trans (cacheBody_open h hslots rfl)
    · exact exec_cachePfl2.trans (cacheBody_open h hslots rfl)
    · exact exec_cacheWback.trans (cacheBody_open h hslots rfl)
    · exact exec_cacheInval.trans (cacheBody_open h hslots rfl)
    · exact exec_cacheWbinv.trans (cacheBody_open h hslots rfl)
  · intro s g k va _ hva ag key
    have hinval := invalL1_split s g k hva
    refine ⟨?_, ?_, ?_, ?_⟩
    · rw [hinval, State.l1, core_modCore_self]
      exact tabFind_tabDel_self _ _
    · rw [hinval]
      rfl
    · intro l key' hne
      rw [hinval, State.l1, State.l1]
      by_cases hl : l = g / 32
      · subst hl
        rw [core_modCore_self]
        exact tabFind_tabDel_other _ _ _ (hne.resolve_left (fun h => h rfl))
      · rw [core_modCore_other _ _ hl]
    · intro i
      simp only [State.invalL1, regionOf_line hva]
      split <;> rfl

end Sys2Proof
end

section
/-!
Divergence and reconvergence (spec/08_isa_scalar.md R126 to R129, spec/03_execution.md R36 to R39).
-/

namespace Sys2Proof

open Sys2Proof.Machine

/-- A split's update is what it makes of the split as it stands. -/
theorem modSplit_congr {s : State} {g k : Nat} {f f' : Split → Split} (h : f (s.splitOf g k) = f' (s.splitOf g k)) :
    s.modSplit g k f = s.modSplit g k f' := by
  simp only [State.modSplit, State.modGroup, tabMod]
  cases hg : tabFind s.groups g with
  | none => rfl
  | some x =>
    cases hk : tabFind x.splits k with
    | none => simp only [hk]
    | some y =>
      have hx : s.group g = x := by simp [State.group, tabGet, hg]
      have hy : s.splitOf g k = y := by simp [State.splitOf, hx, tabGet, hk]
      rw [hy] at h
      simp only [hk, h]

/-! ### Divergent branches -/

section
variable {s u : State} {g k : Nat} {c : Ctx} {T : Mask} {tgt join : Word}

theorem divergeOn_all (ha : c.a = .split g k) (hT : T = (u.splitOf g k).ex) : divergeOn c u T tgt join = .jump u tgt := by
  simp only [divergeOn, ha, hT, if_true]

theorem divergeOn_none (ha : c.a = .split g k) (hT : T ≠ (u.splitOf g k).ex) (hzero : T = 0) : divergeOn c u T tgt join = .jump u c.next := by
  subst hzero
  simp only [divergeOn, ha, if_neg hT, if_true]

/-- The folding rule: the lanes that take the branch join the sibling that waits there (R127). -/
theorem divergeOn_fold (ha : c.a = .split g k) (hT : T ≠ (u.splitOf g k).ex) (hzero : T ≠ 0) (hfold : foldable u g k tgt join = true) :
    divergeOn c u T tgt join = .jump ((match (u.splitOf g k).nest with
      | .link _ b _ _ :: _ => u.modSplit g b (fun z => { z with ex := z.ex ||| T })
      | _ => u).modSplit g k (fun y => { y with ex := (u.splitOf g k).ex &&& ~~~T })) c.next := by
  simp only [divergeOn, ha, if_neg hT, if_neg hzero, hfold, if_true]
  generalize (u.splitOf g k).nest = nest
  rcases nest with _ | ⟨_ | _, _⟩ <;> rfl

/-- A free split number and a chain that is not full: the group splits (R127). -/
theorem divergeOn_split {f : Nat} (ha : c.a = .split g k) (hT : T ≠ (u.splitOf g k).ex) (hzero : T ≠ 0)
    (hfold : foldable u g k tgt join = false) (hfree : freeSplit (u.group g) = some f)
    (hlinks : ((u.splitOf g k).nest.filter Nest.isLink).length < 16) :
    divergeOn c u T tgt join = .jump ((u.modSplit g k (fun y => { y with
        ex := (u.splitOf g k).ex &&& ~~~T, nest := .link join f y.fmt false :: y.nest })).modGroup g (fun x => { x with
          splits := tabPut x.splits f { Split.blank with
            strand := { Strand.start tgt u.clk with handler := (u.splitOf g k).strand.handler }
            ex := T, fmt := (u.splitOf g k).fmt, flags := (u.splitOf g k).flags
            nest := [.link join k (u.splitOf g k).fmt false] } })) c.next := by
  have hchain : chainDepth (u.splitOf g k).nest < 16 := hlinks
  simp only [divergeOn, ha, if_neg hT, if_neg hzero, hfold, Bool.false_eq_true, if_false, hfree, if_pos hchain]
  rfl

/-- No number free, or a full chain: the reconvergence stack takes the entry (R127). -/
theorem divergeOn_stack (ha : c.a = .split g k) (hT : T ≠ (u.splitOf g k).ex) (hzero : T ≠ 0)
    (hfold : foldable u g k tgt join = false)
    (hfull : freeSplit (u.group g) = none ∨ 16 ≤ ((u.splitOf g k).nest.filter Nest.isLink).length)
    (hentries : ((u.splitOf g k).nest.filter (fun x => !x.isLink)).length < 16) :
    divergeOn c u T tgt join = .jump (u.modSplit g k (fun y => { y with
      ex := (u.splitOf g k).ex &&& ~~~T, nest := .pend join y.ex tgt T y.fmt false :: y.nest })) c.next := by
  have hsplit : u.modSplit g k (fun y => { y with
        ex := (u.splitOf g k).ex &&& ~~~T, nest := .pend join (u.splitOf g k).ex tgt T y.fmt false :: y.nest }) =
      u.modSplit g k (fun y => { y with
        ex := (u.splitOf g k).ex &&& ~~~T, nest := .pend join y.ex tgt T y.fmt false :: y.nest }) := modSplit_congr rfl
  have hstack : stackDepth (u.splitOf g k).nest < 16 := hentries
  rw [← hsplit]
  simp only [divergeOn, ha, if_neg hT, if_neg hzero, hfold, Bool.false_eq_true, if_false]
  cases hfree : freeSplit (u.group g) with
  | none => simp only [if_pos hstack]
  | some f =>
    have hchain : ¬ chainDepth (u.splitOf g k).nest < 16 := by
      rcases hfull with hnone | hlinks
      · rw [hfree] at hnone; cases hnone
      · exact Nat.not_lt.2 hlinks
    simp only [if_neg hchain, if_pos hstack]

/-- That stack full too: RECONV. -/
theorem divergeOn_full (ha : c.a = .split g k) (hT : T ≠ (u.splitOf g k).ex) (hzero : T ≠ 0)
    (hfold : foldable u g k tgt join = false)
    (hfull : freeSplit (u.group g) = none ∨ 16 ≤ ((u.splitOf g k).nest.filter Nest.isLink).length)
    (hentries : 16 ≤ ((u.splitOf g k).nest.filter (fun x => !x.isLink)).length) :
    divergeOn c u T tgt join = .trap 0x0C join := by
  have hstack : ¬ stackDepth (u.splitOf g k).nest < 16 := Nat.not_lt.2 hentries
  simp only [divergeOn, ha, if_neg hT, if_neg hzero, hfold, Bool.false_eq_true, if_false]
  cases hfree : freeSplit (u.group g) with
  | none => simp only [if_neg hstack]
  | some f =>
    have hchain : ¬ chainDepth (u.splitOf g k).nest < 16 := by
      rcases hfull with hnone | hlinks
      · rw [hfree] at hnone; cases hnone
      · exact Nat.not_lt.2 hlinks
    simp only [if_neg hchain, if_neg hstack]

/-- KBR at an open gate (R129). -/
theorem maskBranch_open {test test' : Mask → Mask → Bool} {kr : KReg} {o : BitVec 20} {e : Option (BitVec 25)}
    (htest : ∀ m ex, test m ex = test' m ex) (h : Opens (kbrNeed kr e) (.split g k) s c u) :
    maskBranch test kr o e s = .next (u.retire (kbrNeed kr e) c
      (if test' ((u.splitOf g k).ex &&& u.kget g kr.toNat) (u.splitOf g k).ex then (s.strand (.split g k)).pc + 2 * immValue o e
      else (s.strand (.split g k)).pc + BitVec.ofNat 64 (lenX e))) := by
  obtain rfl : test = test' := funext fun m => funext (htest m)
  have hnext : c.next = (s.strand (.split g k)).pc + BitVec.ofNat 64 (lenX e) := opens_next h
  have hpc : c.pc = (s.strand (.split g k)).pc := opens_pc h
  refine jump_of h rfl rfl ?_ rfl
  rw [opens_agent h, hpc, hnext]
  rfl

end

/-- Settles O22: one lemma for each course of the branch (`divergeOn_all` and its fellows). -/
theorem divergentBranches : Obligations.DivergentBranches := by
  constructor
  · intro row hrow kr o j s g k c u ag n h pc y m T tgt join rest links entries
    have hnext : c.next = pc + 4 := opens_next h
    have hpc : c.pc = pc := opens_pc h
    have ha : c.a = .split g k := opens_agent h
    have hexec : exec (row.1 kr o j) s = issue (vbrNeed kr) (fun c s => divergeOn c s (s.exMask c.a &&&
        (if row.2 then ~~~(s.kget c.a.groupNo kr.toNat) else s.kget c.a.groupNo kr.toNat)) (target c.pc o none)
        (c.pc + 2 * j.setWidth 64)) s := by
      simp only [List.mem_cons, List.not_mem_nil, or_false] at hrow
      rcases hrow with rfl | rfl
      · exact exec_vbr
      · exact exec_vbrN
    have hbody : divergeOn c u (u.exMask c.a &&& (if row.2 then ~~~(u.kget c.a.groupNo kr.toNat) else u.kget c.a.groupNo kr.toNat))
        (target c.pc o none) (c.pc + 2 * j.setWidth 64) = divergeOn c u T tgt join := by
      rw [ha, hpc]
      rfl
    refine ⟨fun hT => ?_, fun hT hzero => ?_, fun hT hzero hfold => ?_, fun hT hzero hfold => ⟨fun f hfree hlinks => ?_,
      fun hfull hentries => ?_, fun hfull hentries => ?_⟩⟩
    · exact jump_of h hexec (hbody.trans (divergeOn_all ha hT)) rfl rfl
    · exact jump_of h hexec (hbody.trans (divergeOn_none ha hT hzero)) hnext rfl
    · exact jump_of h hexec (hbody.trans (divergeOn_fold ha hT hzero hfold)) hnext rfl
    · exact jump_of h hexec (hbody.trans (divergeOn_split ha hT hzero hfold hfree hlinks)) hnext rfl
    · exact jump_of h hexec (hbody.trans (divergeOn_stack ha hT hzero hfold hfull hentries)) hnext rfl
    · exact trap_of h hexec (hbody.trans (divergeOn_full ha hT hzero hfold hfull hentries))
  · intro row hrow kr o e s g k c u n h pc ex v
    have hv : immValue o e = v := rfl
    simp only [List.mem_cons, List.not_mem_nil, or_false] at hrow
    rw [← hv]
    rcases hrow with rfl | rfl | rfl
    · exact exec_kbrAny.trans (maskBranch_open (by intro m ex; exact eqBool_of_iff bne_iff_ne) h)
    · exact exec_kbrAll.trans (maskBranch_open (by intro m ex; exact eqBool_of_iff beq_iff_eq) h)
    · exact exec_kbrNone.trans (maskBranch_open (by intro m ex; exact eqBool_of_iff beq_iff_eq) h)

/-! ### Reconvergence -/

/-- A merge puts one split under the lower number of the two and takes the higher away (R22, R38). -/
theorem splits_mergeSplits {s : State} {g k b : Nat} {j : Word} {f : BitVec 9} (hg : (tabFind s.groups g).isSome = true) :
    ∃ (rename : Nat → Split → Split) (m : Split),
      ((s.mergeSplits g k b j f).group g).splits =
        tabPut (tabMap (tabDel (s.group g).splits (Nat.max k b)) rename) (Nat.min k b) m ∧
      m.ex = (s.splitOf g (Nat.min k b)).ex ||| (s.splitOf g (Nat.max k b)).ex ∧
      m.flags = (s.splitOf g (Nat.min k b)).flags ||| (s.splitOf g (Nat.max k b)).flags ∧ m.fmt = f ∧ m.strand.pc = j :=
  ⟨_, _, congrArg Group.splits (State.group_modGroup_self s g _ hg), rfl, rfl, rfl, rfl⟩

/-- Settles O23. -/
theorem reconvergence : Obligations.Reconvergence := by
  constructor
  · intro s g k hcur y live
    have hexec : exec .reconvergence s = .next (s.resolve g k) := by
      rw [exec_reconvergence, execReconvergence, hcur]
    refine ⟨?_, ?_, ?_, ?_, ?_, ?_, ?_⟩
    · intro j x t m f r hnest
      rw [hexec, State.resolve, hnest]
    · intro j x t m f r hnest
      rw [hexec, State.resolve, hnest]
    · intro j b f r hnest hwaits
      rw [hexec, State.resolve, hnest]
      simp only [hwaits, if_true]
    · intro j b f r hnest hwaits
      rw [hexec, State.resolve, hnest]
      simp only [hwaits, Bool.false_eq_true, if_false]
    · intro j b f r hnest
      rw [hexec, State.resolve, hnest]
    · intro hnest
      rw [hexec, State.resolve, hnest]
    · rintro t rfl halive
      have hsplit : (s.resolved (.split g k)).splitOf g k = { s.splitOf g k with
          strand := { (s.splitOf g k).strand with delay := Nat.max (s.splitOf g k).strand.delay (s.clk + 1), why := .sync } } :=
        splitOf_modSplit_self s g k _ halive
      have hdelay : decide (Nat.max (s.splitOf g k).strand.delay (s.clk + 1) ≤ s.clk) = false :=
        decide_eq_false (Nat.not_le.2 (Nat.lt_of_succ_le (Nat.le_max_right _ _)))
      refine ⟨?_, by rw [hsplit]⟩
      rw [hsplit, Split.atJoin]
      cases (s.splitOf g k).nest with
      | nil => rfl
      | cons n r => simp only [hdelay, Bool.and_false, Bool.false_and]
  · intro s g k b j f hne hg _ _ t lo
    have horder : (Nat.min k b = k ∧ Nat.max k b = b) ∨ (Nat.min k b = b ∧ Nat.max k b = k) := by
      rcases Nat.le_total k b with hle | hle
      · exact .inl ⟨Nat.min_eq_left hle, Nat.max_eq_right hle⟩
      · exact .inr ⟨Nat.min_eq_right hle, Nat.max_eq_left hle⟩
    obtain ⟨rename, m, hsplits, hex, hflags, hfmt, hpc⟩ := splits_mergeSplits (k := k) (b := b) (j := j) (f := f) hg
    have hlow : t.splitOf g lo = m := by rw [State.splitOf, hsplits, tabGet_tabPut_self]
    have hhigh : tabFind (t.group g).splits (Nat.max k b) = none := by
      have hapart : Nat.max k b ≠ Nat.min k b := by omega
      rw [hsplits, tabFind_tabPut_other _ _ _ _ hapart, tabFind_tabMap, tabFind_tabDel_self]
      rfl
    rw [hlow, hex, hflags, hfmt, hpc]
    refine ⟨?_, ?_, rfl, rfl, hhigh, rfl⟩
    · rcases horder with ⟨hmin, hmax⟩ | ⟨hmin, hmax⟩
      · rw [hmin, hmax]
      · rw [hmin, hmax, BitVec.or_comm]
    · rcases horder with ⟨hmin, hmax⟩ | ⟨hmin, hmax⟩
      · rw [hmin, hmax]
      · rw [hmin, hmax, BitVec.or_comm]

end Sys2Proof
end


section
/-!
The words of the spec (O45) and the state that device reset leaves (O48), by evaluation.
-/

namespace Sys2Proof

open Sys2Proof.Machine

/-- Settles O45: the eleven sequences, decoded by evaluation. -/
theorem decodedWords : Obligations.DecodedWords := by
  unfold Obligations.DecodedWords
  exact ⟨rfl, rfl, rfl, rfl, rfl, rfl, rfl, rfl, rfl, rfl, rfl⟩

/-- After reset no split and no context exists: the tables are empty. -/
theorem alive_reset (a : Agent) : State.reset.alive a = false := by
  cases a <;> rfl

/-- Settles O48: the tables of the reset state are empty, so each unit reads as its reset value. -/
theorem resetState : Obligations.ResetState := by
  unfold Obligations.ResetState
  refine ⟨rfl, rfl, rfl, rfl, rfl, rfl, rfl, rfl, rfl, rfl, alive_reset,
    fun c => ⟨rfl, rfl, rfl, rfl, rfl, fun q => rfl, fun h => rfl⟩,
    fun d => rfl, fun p => ⟨rfl, rfl⟩, fun g n => rfl, fun c => ⟨rfl, rfl, rfl, rfl⟩⟩

end Sys2Proof
end


section
/-!
Named barriers and tile descriptors (spec/13_isa_engines.md R192 to R198).
-/

namespace Sys2Proof

open Sys2Proof.Machine

/-! ### Issues at a barrier -/

section
variable {s u : State} {ag : Agent} {c : Ctx}

theorem trapOn_of {n : Need} {v w : State} {code : BitVec 8} {val : Word} {o : Host.Outcome State Fault Refusal} (h : Opens n ag s c u)
    {body : Ctx → State → Act} (ho : o = issue n body s) (hb : body c u = .trapOn v code val) (hv : v = w) :
    o = .next (w.takeTrap ag code val) := by
  subst ho hv
  rw [issue_open h, hb]

theorem ne_zero_of_toNat_pos {w : Word} (h : 1 ≤ w.toNat) : w ≠ 0 := by
  rintro rfl
  exact absurd h (by decide)

/-- The values that BAR.INIT refuses: the test of the model in numbers. -/
theorem badInit_eq (v : Word) (opened : Bool) :
    (v = 0 || 255 < v.toNat || opened) = !decide (1 ≤ v.toNat ∧ v.toNat ≤ 255 ∧ opened = false) := by
  have hzero : (v = 0) = (v.toNat = 0) := propext ⟨fun h => h ▸ rfl, fun h => BitVec.eq_of_toNat_eq h⟩
  have hle : (255 < v.toNat) = ¬ v.toNat ≤ 255 := by simp
  have hpos : (v.toNat = 0) = ¬ 1 ≤ v.toNat := by simp
  simp only [hzero, hle, hpos]
  rw [Bool.eq_iff_iff]
  cases opened <;> simp

/-- TVAL of a barrier's misuse: a barrier's number fills few of the 48 bits. -/
theorem barTrap_val (b : BarNo) : illegalVal 13 b.toNat = BitVec.ofNat 64 (13 * 2 ^ 56 + b.toNat) := by
  rw [illegalVal, Nat.mod_eq_of_lt (b.isLt.trans (by decide))]

theorem barInit_open (b : BarNo) (a : SReg) (h : Opens (trapNeed a) ag s c u) :
    (1 ≤ (c.get u a.toNat).toNat ∧ (c.get u a.toNat).toNat ≤ 255 ∧ (u.bar ag b.toNat).opened = false →
      exec (.barInit b a) s = .next ((u.setBar ag b.toNat { u.bar ag b.toNat with
        expa := (c.get u a.toNat).toNat, penda := (c.get u a.toNat).toNat, expb := 0, pendb := 0, poison := false, seq := 0 }).retire
          (trapNeed a) c ((s.strand ag).pc + 4))) ∧
    (¬(1 ≤ (c.get u a.toNat).toNat ∧ (c.get u a.toNat).toNat ≤ 255 ∧ (u.bar ag b.toNat).opened = false) →
      exec (.barInit b a) s = .next (s.takeTrap ag 0x01 (illegalVal 13 b.toNat))) := by
  obtain rfl : c.a = ag := opens_agent h
  refine ⟨fun hok => done_of h exec_barInit (if_neg ?_) rfl rfl, fun hbad => trap_of h exec_barInit (if_pos ?_)⟩
  · rw [badInit_eq, decide_eq_true hok]
    decide
  · rw [badInit_eq, decide_eq_false hbad]
    decide

/-- A wait that is over: the status word, or POISON. -/
theorem barDone_word {b : BarNo} (d : SReg) (h : u.barPoisons c.a b.toNat = false ∨ c.replay = true) :
    barDone c u d b = .done ((u.acquireAll c.a b.toNat).sset c.a d.toNat (u.bar c.a b.toNat).word) := by
  refine if_neg ?_
  rcases h with h | h <;> simp [h]

theorem barDone_poison {b : BarNo} (d : SReg) (h : u.barPoisons c.a b.toNat = true) (hr : c.replay = false) :
    barDone c u d b = .trapOn (u.markReplay c.a) 0x10 0 := by
  refine if_pos ?_
  simp [h, hr]

/-- An arrival as it issues, by whether its release has been performed. -/
theorem arrive_rlx (s : State) (a : Agent) (b : Nat) : s.arrive a b true = s.arriveAt (s.wgOf a) a.threadNo b := rfl
theorem arrive_release (s : State) (a : Agent) (b : Nat) {e : State × Bool}
    (he : ((s.commitWide a).publish a b).releaseEvery a s.nextId 1 = e) :
    s.arrive a b false = if e.2 then e.1.arriveAt (e.1.wgOf a) a.threadNo b
      else e.1.after a (.arrive (e.1.wgOf a) a.threadNo b) := by
  subst he
  rfl

/-- The body of BAR.EXPECT.POST once its count fits. -/
theorem expectPost_eq (s : State) (a : Agent) (b : Nat) (v : Int) {e : State × Bool}
    (he : (s.commitWide a).releaseEvery a s.nextId 1 = e) :
    (match (s.commitWide a).releaseEvery a s.nextId 1 with
      | (s, ok) => Act.done (if ok then s.postAt (s.wgOf a) a.threadNo b v else s.after a (.post (s.wgOf a) a.threadNo b v))) =
      Act.done (if e.2 then e.1.postAt (e.1.wgOf a) a.threadNo b v else e.1.after a (.post (e.1.wgOf a) a.threadNo b v)) := by
  subst he
  rfl

theorem barExpect_open (b : BarNo) (a : SReg) (h : Opens (expectNeed b a) ag s c u) {e : State × Bool}
    (he : (u.commitWide ag).releaseEvery ag u.nextId 1 = e) :
    ((bytesFit ((u.bar ag b.toNat).expb + (c.get u a.toNat).toInt) && bytesFit ((u.bar ag b.toNat).pendb + (c.get u a.toNat).toInt)) = true →
      exec (.barExpect b a false) s = .next ((u.setBar ag b.toNat { u.bar ag b.toNat with
        expb := (u.bar ag b.toNat).expb + (c.get u a.toNat).toInt, pendb := (u.bar ag b.toNat).pendb + (c.get u a.toNat).toInt,
        opened := true }).retire (expectNeed b a) c ((s.strand ag).pc + 4))) ∧
    ((bytesFit ((u.bar ag b.toNat).expb + (c.get u a.toNat).toInt) && bytesFit ((u.bar ag b.toNat).pendb + (c.get u a.toNat).toInt)) = false →
      exec (.barExpect b a false) s = .next (s.takeTrap ag 0x01 (illegalVal 13 b.toNat))) ∧
    (bytesFit ((u.bar ag b.toNat).pendb - (c.get u a.toNat).toInt) = true → exec (.barExpect b a true) s =
      .next ((if e.2 then e.1.postAt (e.1.wgOf ag) ag.threadNo b.toNat (c.get u a.toNat).toInt
        else e.1.after ag (.post (e.1.wgOf ag) ag.threadNo b.toNat (c.get u a.toNat).toInt)).retire (expectNeed b a) c
          ((s.strand ag).pc + 4))) ∧
    (bytesFit ((u.bar ag b.toNat).pendb - (c.get u a.toNat).toInt) = false →
      exec (.barExpect b a true) s = .next (s.takeTrap ag 0x01 (illegalVal 13 b.toNat))) := by
  obtain rfl : c.a = ag := opens_agent h
  refine ⟨fun hfit => done_of h exec_barExpect ((if_neg (by decide)).trans (if_neg ?_)) rfl rfl,
    fun hbad => trap_of h exec_barExpect ((if_neg (by decide)).trans (if_pos ?_)),
    fun hfit => done_of h exec_barExpect
      ((if_pos rfl).trans ((if_neg ?_).trans (expectPost_eq u c.a b.toNat (c.get u a.toNat).toInt he))) rfl rfl,
    fun hbad => trap_of h exec_barExpect ((if_pos rfl).trans (if_pos ?_))⟩
  · rw [← Bool.not_and, hfit]
    decide
  · rw [← Bool.not_and, hbad]
    decide
  · rw [hfit]
    decide
  · rw [hbad]
    decide

end

/-! ### The end of a phase -/

@[simp] theorem enqueue_wgs (s : State) (ring : Nat) (r : List Byte) : (s.enqueue ring r).wgs = s.wgs := rfl

/-- A record leaves every workgroup as it is. -/
@[simp] theorem report_wgs (s : State) (cls sev unit : Nat) (ctx : BitVec 8 × BitVec 16) (addr retry addrk code : Nat) (name : List Byte) :
    (s.report cls sev unit ctx addr retry addrk code name).wgs = s.wgs := by
  unfold State.report
  simp only
  split
  · rfl
  · split <;> split <;> rfl

theorem bget_congr {s t : State} (h : t.wgs = s.wgs) (w n : Nat) : t.bget (some w) 0 n = s.bget (some w) 0 n := by
  simp only [State.bget, State.wg, h]

theorem bget_bput_self {s : State} {w : Nat} (h : (tabFind s.wgs w).isSome = true) (t n : Nat) (b : Bar) :
    (s.bput (some w) t n b).bget (some w) t n = b := by
  simp only [State.bput, State.bget, State.wg_modWg_self s w _ h, tabGet_tabPut_self]

theorem bget_bput_other (s : State) (w t n m : Nat) (b : Bar) (h : m ≠ n) :
    (s.bput (some w) t n b).bget (some w) t m = s.bget (some w) t m := by
  simp only [State.bput, State.bget]
  by_cases hw : (tabFind s.wgs w).isSome = true
  · rw [State.wg_modWg_self s w _ hw, tabGet_tabPut_other _ _ _ _ _ h]
  · simp only [State.wg, State.modWg, tabGet, tabFind_tabMod_self, Option.not_isSome_iff_eq_none.1 hw, Option.map_none]

theorem complete_iff (b : Bar) : b.complete = true ↔ b.expa ≠ 0 ∧ b.opened = true ∧ b.penda = 0 ∧ b.pendb ≤ 0 := by
  simp only [Bar.complete, Bool.and_eq_true, bne_iff_ne, beq_iff_eq, decide_eq_true_eq, and_assoc]

/-- A phase that completes: the flipped barrier, on a state with the same workgroups. -/
theorem testBar_complete {s : State} {w n : Nat} (h : (s.bget (some w) 0 n).complete = true) :
    ∃ v : State, v.wgs = s.wgs ∧ s.testBar (some w) 0 n = v.bput (some w) 0 n ((s.bget (some w) 0 n).flip s.mgmt.errSeq) := by
  refine ⟨_, ?_, if_neg (by rw [h]; decide)⟩
  split
  · exact report_wgs ..
  · rfl

theorem testBar_incomplete {s : State} {w n : Nat} (h : (s.bget (some w) 0 n).complete = false) : s.testBar (some w) 0 n = s :=
  if_pos (by rw [h]; decide)

/-- Settles O24: the issues by the branches of their bodies, the end of a phase by whether the barrier is complete. -/
theorem namedBarriers : Obligations.NamedBarriers := by
  refine ⟨⟨?_, ?_, ?_, ?_, ?_, ?_⟩, ?_⟩
  · intro b a s ag c u n h v x
    rw [← barTrap_val]
    exact barInit_open b a h
  · intro s ag b rlx e v x
    constructor
    · intro hor
      cases rlx
      · have hok : e.2 = true := hor.resolve_left (by decide)
        rw [arrive_release s ag b rfl]
        exact if_pos hok
      · rfl
    · rintro rfl hno
      rw [arrive_release s ag b rfl]
      exact if_neg (by rw [hno]; decide)
  · intro d b rlx s ag c u h
    obtain rfl : c.a = ag := opens_agent h
    exact done_of h exec_barArrive rfl rfl rfl
  · intro d b a s ag c u n h x tok next
    obtain rfl : c.a = ag := opens_agent h
    have hpc : c.pc = (s.strand c.a).pc := opens_pc h
    have hnext : c.next = next := opens_next h
    refine ⟨fun hpast hquiet => ?_, fun hpast hpoison hreplay => ?_, fun hsame hreplay => ?_, fun hpast => ?_, fun hsame => ?_⟩
    · refine done_of h exec_barWait ((if_pos ?_).trans (barDone_word d hquiet)) rfl rfl
      simp only [Bool.or_eq_true, bne_iff_ne]
      exact hpast.symm
    · refine trapOn_of h exec_barWait ((if_pos ?_).trans (barDone_poison d hpoison hreplay)) rfl
      simp only [Bool.or_eq_true, bne_iff_ne]
      exact .inr hpast
    · refine jump_of h exec_barWait (if_neg ?_) hpc (by rw [hnext])
      simp only [Bool.or_eq_true, bne_iff_ne, hreplay]
      exact fun hor => hor.elim (by decide) (fun hne => hne hsame)
    · exact done_of h exec_barTest (if_pos (bne_iff_ne.2 hpast)) rfl rfl
    · exact done_of h exec_barTest (if_neg (fun hne => bne_iff_ne.1 hne hsame)) rfl rfl
  · intro d b rlx s ag c u h x aw
    obtain rfl : c.a = ag := opens_agent h
    have hpc : c.pc = (s.strand c.a).pc := opens_pc h
    have hnext : c.next = (s.strand c.a).pc + 4 := opens_next h
    refine ⟨fun p hpark tok haw hsame => ?_, fun hpark => ?_, fun p hpark hpast hreplay => ?_⟩
    · refine jump_of h exec_barAw ?_ hpc (by rw [← hnext])
      simp only [hpark, haw]
      exact if_neg (fun hne => bne_iff_ne.1 hne hsame)
    · refine jump_of h exec_barAw ?_ hpc (by rw [← hnext])
      simp only [hpark]
      rfl
    · refine done_of h exec_barAw ?_ rfl rfl
      simp only [hpark]
      cases haw : p.aw with
      | none => exact barDone_word d (.inr hreplay)
      | some tok => exact (if_pos (bne_iff_ne.2 (hpast tok haw))).trans (barDone_word d (.inr hreplay))
  · intro b a post s ag c u h v x y e z done fits
    obtain ⟨hadd, hover, hpost, hunder⟩ := barExpect_open b a h (e := e) rfl
    refine ⟨fun hfit hp => ?_, fun hfit hp hok => ?_, fun hfit hp hno => ?_, fun hbad => ?_⟩
    · subst hp
      exact hadd hfit
    · subst hp
      exact (hpost hfit).trans (by rw [if_pos hok]; rfl)
    · subst hp
      exact (hpost hfit).trans (by rw [if_neg (by rw [hno]; decide)])
    · rw [← barTrap_val]
      cases post
      · exact hover hbad
      · exact hunder hbad
  · intro s w n hw b t
    refine ⟨fun hdone => ?_, fun hnot => ?_, fun m hm => ?_⟩
    · obtain ⟨v, hv, ht⟩ := testBar_complete ((complete_iff b).2 hdone)
      have hflip : t.bget (some w) 0 n = b.flip s.mgmt.errSeq := by
        simp only [t, ht]
        exact bget_bput_self (by rw [hv]; exact hw) 0 n _
      rw [hflip]
      exact ⟨rfl, rfl, rfl, rfl, rfl, rfl, rfl⟩
    · exact testBar_incomplete (Bool.eq_false_iff.2 (fun hc => hnot ((complete_iff b).1 hc)))
    · cases hc : b.complete with
      | false => exact congrArg (fun x : State => x.bget (some w) 0 m) (testBar_incomplete hc)
      | true =>
        obtain ⟨v, hv, ht⟩ := testBar_complete hc
        calc t.bget (some w) 0 m = v.bget (some w) 0 m := by simp only [t, ht]; exact bget_bput_other v w 0 n m _ hm
          _ = s.bget (some w) 0 m := bget_congr hv w m

end Sys2Proof
end


section
/-!
Tile descriptors, the steps of register writes, and what the matrix unit's instructions do as they issue
(spec/13_isa_engines.md R197, R198; spec/12_isa_matrix.md R171 to R184).
-/

namespace Sys2Proof

open Sys2Proof.Machine

/-! ### Tile descriptors -/

section
variable {s u : State} {ag : Agent} {c : Ctx}

theorem tview_setTview (v : Tab (Nat × Word)) (halive : s.alive ag = true) : (s.setTview ag v).tview ag = v := by
  cases ag with
  | split g k => simp only [State.setTview, State.tview, State.group_modGroup_self s g _ (groups_isSome_of_alive halive)]
  | thread t => simp only [State.setTview, State.tview, State.thread_modThread_self]

/-- A word of a descriptor as the agent sees it. -/
theorem getD_tget (s : State) (ag : Agent) (n : Nat) {w : Nat} (hw : w < 5) :
    (s.tget ag n).getD w 0 = (tabGet (s.tview ag) (5 * n + w) (0, 0)).2 := getD_map_range _ _ hw

theorem getD_tget_tput (n w : Nat) (v : Word) (halive : s.alive ag = true) (j : Nat) {i : Nat} (hi : i < 5) :
    ((s.tput ag n w v).tget ag j).getD i 0 = if 5 * j + i = 5 * n + w then v else (s.tget ag j).getD i 0 := by
  have hview : (s.tput ag n w v).tview ag = tabPut (s.tview ag) (5 * n + w) (s.nextId, v) := tview_setTview _ halive
  rw [getD_tget _ _ _ hi, getD_tget _ _ _ hi, hview, tabGet_tabPut]
  split <;> rfl

theorem tset_open (n : TReg) (wd : Fin 5) (a : SReg) (h : Opens (tsetNeed n a) ag s c u) :
    exec (.tset n wd a) s = .next ((u.tput ag n.toNat wd (c.get u a.toNat)).retire (tsetNeed n a) c ((s.strand ag).pc + 4)) := by
  obtain rfl : c.a = ag := opens_agent h
  exact done_of h exec_tset rfl rfl rfl

theorem tget_open (d : SReg) (n : TReg) (wd : Fin 5) (h : Opens (tgetNeed d n) ag s c u) :
    exec (.tget d n wd) s =
      .next ((u.sset ag d.toNat ((u.tget ag n.toNat).getD wd 0)).retire (tgetNeed d n) c ((s.strand ag).pc + 4)) := by
  obtain rfl : c.a = ag := opens_agent h
  exact done_of h exec_tget rfl rfl rfl

theorem tcopy_open (d a : TReg) (h : Opens (tcopyNeed d a) ag s c u) :
    exec (.tcopy d a) s = .next (((List.range 5).foldl (fun t w => t.tput ag d.toNat w ((u.tget ag a.toNat).getD w 0)) u).retire
      (tcopyNeed d a) c ((s.strand ag).pc + 4)) := by
  obtain rfl : c.a = ag := opens_agent h
  exact done_of h exec_tcopy rfl rfl rfl

end

/-- The two grounds on which CHRYCFG is ignored besides its value, as propositions. -/
theorem chrycfg_ignored (s : State) (die : Fin 4) (n : Nat) :
    (16 < n || (List.range 16).any (fun j => n ≤ j && j < (s.die die).nslot && (tabFind (s.die die).slots j).isSome) ||
      s.allocs.any (fun a => n > (s.die die).nslot && chipAt die (0x4000000 - 0x200000 * n) < a.1 + a.2.1 &&
        a.1 < chipAt die (0x4000000 - 0x200000 * (s.die die).nslot))) = true ↔
    (16 < n ∨ (∃ j, n ≤ j ∧ j < (s.die die).nslot ∧ j < 16 ∧ (tabFind (s.die die).slots j).isSome = true) ∨
      ((s.die die).nslot < n ∧ ∃ a ∈ s.allocs, chipAt die (0x4000000 - 0x200000 * n) < a.1 + a.2.1 ∧
        a.1 < chipAt die (0x4000000 - 0x200000 * (s.die die).nslot))) := by
  simp only [Bool.or_eq_true, decide_eq_true_eq, List.any_eq_true, List.mem_range, Bool.and_eq_true, or_assoc]
  refine or_congr Iff.rfl (or_congr ⟨?_, ?_⟩ ⟨?_, ?_⟩)
  · rintro ⟨j, hj, ⟨hn, hslot⟩, hused⟩
    exact ⟨j, hn, hslot, hj, hused⟩
  · rintro ⟨j, hn, hslot, hj, hused⟩
    exact ⟨j, hj, ⟨hn, hslot⟩, hused⟩
  · rintro ⟨a, ha, ⟨hn, hlow⟩, htop⟩
    exact ⟨hn, a, ha, hlow, htop⟩
  · rintro ⟨hn, a, ha, hlow, htop⟩
    exact ⟨a, ha, ⟨hn, hlow⟩, htop⟩

/-- Settles O25. -/
theorem tileDescriptors : Obligations.TileDescriptors := by
  refine ⟨⟨?_, ?_, ?_⟩, ?_, ?_, ?_⟩
  · intro n wd a s ag c u m h v
    refine ⟨tset_open n wd a h, fun halive => ⟨fun w hw => ?_, fun j hj _ w hw => ?_⟩⟩
    · refine (getD_tget_tput n.toNat wd (c.get u a.toNat) halive n.toNat hw).trans (if_congr ?_ rfl rfl)
      omega
    · refine (getD_tget_tput n.toNat wd (c.get u a.toNat) halive j hw).trans (if_neg ?_)
      have := wd.isLt
      omega
  · intro d n wd s ag c u m h
    exact tget_open d n wd h
  · intro d a s ag c u m h put
    exact tcopy_open d a h
  · intro n v s
    refine ⟨?_, fun h => if_neg (by rw [h]; decide), fun h => if_pos h⟩
    rw [toNat_extractLsb']
    rfl
  · intro n h v s gone
    exact ⟨fun hidle => if_neg (by rw [show (s.liveCleared n h.toNat v).any (s.tileBusy n) = false from hidle]; decide),
      fun hbusy => if_pos hbusy⟩
  · intro die v s old n inUse taken
    exact ⟨fun h => if_pos ((chrycfg_ignored s die n).2 h), fun h => if_neg (fun hc => h ((chrycfg_ignored s die n).1 hc))⟩

/-! ### Matrix operations enqueue -/

/-- The geometry that MMAB may not have, as the statement names it. -/
theorem geomBad_iff (k : Nat) (g : Word) :
    geomBad k g = true ↔ (g.toNat / 2 ^ 16 ≠ 0 ∨ 255 < k + geomNT g * geomKT g - 1) := by
  have hbits : bits g.toNat 16 48 = g.toNat / 2 ^ 16 := Nat.mod_eq_of_lt (by have := g.isLt; omega)
  simp only [geomBad, hbits, Bool.or_eq_true, bne_iff_ne, decide_eq_true_eq]

theorem toNat_append_word {m n : Nat} (x : BitVec m) (y : BitVec n) : (x ++ y).toNat = x.toNat * 2 ^ n + y.toNat := by
  rw [BitVec.toNat_append, ← Nat.shiftLeft_add_eq_or_of_lt y.isLt, Nat.shiftLeft_eq]

/-- The word that a sequencer keeps is the word of the MMAB as R181 encodes it. -/
theorem mmabWord_eq (n : AccNo) (m : FeedNo) (k : BitVec 5) (b : SReg) : BitVec.ofNat 32 (mmabWord n.toNat m.toNat (8 * k.toNat) b.toNat) =
    (k.extractLsb' 0 3 ++ n.extractLsb' 6 1 ++ 1#3 ++ b ++ k.extractLsb' 3 2 ++ m ++ n.extractLsb' 0 6 ++ 0x67#7 : BitVec 32) := by
  apply BitVec.eq_of_toNat_eq
  simp only [toNat_append_word, BitVec.extractLsb'_toNat, BitVec.toNat_ofNat, mmabWord, Nat.shiftRight_eq_div_pow, Nat.reducePow, Nat.div_one]
  have hn := n.isLt
  have hm := m.isLt
  have hk := k.isLt
  have hb := b.isLt
  have hhigh : 8 * k.toNat / 64 = k.toNat / 8 := by omega
  have hlow : 8 * k.toNat / 8 = k.toNat := by omega
  rw [hhigh, hlow, Nat.mod_eq_of_lt (by omega), Nat.mod_eq_of_lt (a := n.toNat / 64) (by omega),
    Nat.mod_eq_of_lt (a := k.toNat / 8) (by omega)]
  omega

section
variable {s u : State} {t : Nat} {c : Ctx}

/-- MMA and TZERO: the operation's body, by who owns the accumulators and the room of the queue. -/
theorem enqueue_body {n : AccNo} (x : MatOp) :
    (u.ownsAcc c.a = true → (u.cluster c.a.cluster).room n.toNat = true →
      (if !u.ownsAcc c.a then accown n.toNat else if !(u.cluster c.a.cluster).room n.toNat then .wait .matrix
        else .done (u.enqueueOp c.a.cluster x)) = Act.done (u.enqueueOp c.a.cluster x)) ∧
    (u.ownsAcc c.a = true → (u.cluster c.a.cluster).room n.toNat = false →
      (if !u.ownsAcc c.a then accown n.toNat else if !(u.cluster c.a.cluster).room n.toNat then .wait .matrix
        else .done (u.enqueueOp c.a.cluster x)) = Act.wait .matrix) ∧
    (u.ownsAcc c.a = false →
      (if !u.ownsAcc c.a then accown n.toNat else if !(u.cluster c.a.cluster).room n.toNat then .wait .matrix
        else .done (u.enqueueOp c.a.cluster x)) = accown n.toNat) := by
  refine ⟨fun howns hroom => ?_, fun howns hroom => ?_, fun howns => ?_⟩
  · simp only [howns, hroom, Bool.not_true, Bool.false_eq_true, if_false]
  · simp only [howns, hroom, Bool.not_true, Bool.false_eq_true, if_false, Bool.not_false, if_true]
  · simp only [howns, Bool.not_false, if_true]

end

/-- Settles O26: the bodies by their tests, in the order in which the model makes them. -/
theorem matrixOperationsEnqueue : Obligations.MatrixOperationsEnqueue := by
  constructor
  · intro n m k s t c u ag need h pc room x
    have ha : c.a = ag := opens_agent h
    have hroom : (u.cluster (t / 2)).room n.toNat = true ↔ room := decide_eq_true_iff
    clear_value room
    have hmma := enqueue_body (u := u) (c := c) (n := n) (x false m.toNat k.toNat (u.thread t).mcfg)
    have hzero := enqueue_body (u := u) (c := c) (n := n) (x true 0 0 0)
    simp only [ha] at hmma hzero
    obtain ⟨hm1, hm2, hm3⟩ := hmma
    obtain ⟨hz1, hz2, hz3⟩ := hzero
    refine ⟨fun howns hr => ⟨done_of h exec_mma ?_ rfl rfl, done_of h exec_tzero ?_ rfl rfl⟩,
      fun howns hr => ⟨wait_of h exec_mma ?_, wait_of h exec_tzero ?_⟩, fun howns => ⟨trap_of h exec_mma ?_, trap_of h exec_tzero ?_⟩⟩
    · simp only [ha]
      exact hm1 howns (hroom.2 hr)
    · simp only [ha]
      exact hz1 howns (hroom.2 hr)
    · simp only [ha]
      exact hm2 howns (Bool.eq_false_iff.2 (fun hc => hr (hroom.1 hc)))
    · simp only [ha]
      exact hz2 howns (Bool.eq_false_iff.2 (fun hc => hr (hroom.1 hc)))
    · simp only [ha]
      exact hm3 howns
    · simp only [ha]
      exact hz3 howns
  · intro n m k b s t c u ag need h g bad
    have ha : c.a = ag := opens_agent h
    have hbad : geomBad (8 * k.toNat) g = true ↔ bad := geomBad_iff _ _
    clear_value bad
    refine ⟨fun hb => trap_of h exec_mmab (if_pos (hbad.2 hb)), fun hb howns => ?_, fun hb howns hfree => ?_, fun hb howns hbusy => ?_⟩
    · refine trap_of h exec_mmab ((if_neg (fun hc => hb (hbad.1 hc))).trans (if_pos ?_))
      rw [ha, howns]
      rfl
    · refine done_of h exec_mmab ((if_neg (fun hc => hb (hbad.1 hc))).trans ((if_neg ?_).trans (if_neg ?_))) rfl ?_
      · rw [ha, howns]
        decide
      · rw [ha, show (u.thread (Agent.threadNo ag)).seqr = none from hfree]
        decide
      · rw [mmabWord_eq, ha]
        rfl
    · refine wait_of h exec_mmab ((if_neg (fun hc => hb (hbad.1 hc))).trans ((if_neg ?_).trans (if_pos ?_)))
      · rw [ha, howns]
        decide
      · rw [ha]
        exact hbusy

/-! ### Feeding and draining -/

/-- Settles O29: TFEED by the slot's READY and the clash of formats, TDRAIN by the tile's operations and its owner. -/
theorem feedingAndDraining : Obligations.FeedingAndDraining := by
  constructor
  · intro m a b f sl p s g k c u ag h x row0 src r0 r1 r2 y
    have ha : c.a = ag := opens_agent h
    refine ⟨fun hready hclash => ?_, fun hready hsl hclash => ?_, fun hready => ?_⟩
    · refine done_of h exec_tfeed ((if_neg ?_).trans (if_neg ?_)) rfl ?_
      · rw [ha]
        exact fun hc => Bool.false_ne_true (hready.symm.trans hc)
      · rw [ha, Bool.and_eq_true]
        exact fun hc => Bool.false_ne_true ((hclash hc.1).symm.trans hc.2)
      · rw [ha]
        rfl
    · rw [exec_tfeed, execTfeed, issue_open h]
      have hbody : ∀ x', x' = x → (x'.ready = false) := fun _ e => e ▸ hready
      simp only [ha]
      rw [if_neg (show ¬x.ready = true by rw [hready]; decide), if_pos (show (sl && x.clash f) = true by rw [hsl, hclash]; rfl)]
    · refine wait_of h exec_tfeed (if_pos ?_)
      rw [ha]
      exact hready
  · intro d n b p s g k c u ag h row0 act free
    have ha : c.a = ag := opens_agent h
    have hfree : (u.tileBusy ag.cluster n.toNat || !u.drainOwned ag) = true ↔ ¬free := by
      simp only [free, Bool.or_eq_true, Bool.not_eq_true', not_and_or, Bool.not_eq_false, Bool.not_eq_true]
    clear_value free
    refine ⟨fun hf hpoison => ?_, fun hf => ?_⟩
    · refine done_of h exec_tdrain ((if_neg ?_).trans (if_neg ?_)) rfl ?_
      · rw [ha]
        exact fun hc => hfree.1 hc hf
      · rw [ha, hpoison, Bool.and_false]
        decide
      · rw [ha]
    · refine wait_of h exec_tdrain (if_pos ?_)
      rw [ha]
      exact hfree.2 hf

end Sys2Proof
end


section
/-!
EMIT, engine issues and the engines themselves (spec/15_isa_system.md R236, spec/13_isa_engines.md R190 to R203, spec/14_isa_collectives.md
R215).
-/

namespace Sys2Proof

open Sys2Proof.Machine

/-! ### EMIT -/

/-- The queue's answer: nothing to put, room for all of it, or too little. -/
theorem emitAnswer_nil (s : State) (a : Agent) (gid t : Nat) : s.emitAnswer a gid t [] = (s, 0) := by
  unfold State.emitAnswer
  cases tabFind s.monarch.graphs gid <;> rfl

theorem emitAnswer_some {s : State} {gid : Nat} {g : Graph} (hg : tabFind s.monarch.graphs gid = some g) (a : Agent) (t : Nat)
    {recs : List (List Byte)} (hrecs : recs ≠ []) :
    s.emitAnswer a gid t recs = if g.takes t recs.length then (s.arrive_ gid t recs, 0) else (s.emitFull a gid g t, 1) := by
  simp only [State.emitAnswer, hg, if_neg hrecs]

theorem emit_open {d : SReg} {a : VReg} {n : BitVec 2} {st : StreamNo} {s u : State} {ag : Agent} {c : Ctx} {gid t : Nat} {g0 : Graph}
    (h : Opens (emitNeed d a n s ag) ag s c u) (hto : u.emitTo ag n.toNat = some (gid, g0, t)) {recs : List (List Byte)}
    (hrecs : recs = ((List.range 96).filter (fun i => c.act.getLsbD i)).map (fun i =>
      (u.emitRegs ag a.toNat n.toNat).flatMap (fun r => toBytes (lane (u.vget ag.groupNo r) i).toNat 4)))
    {e : State × Bool} (he : (u.implicitCommit ag).releaseEvery ag u.nextId 3 = e) :
    exec (.emit d a n st) s = .next ((if e.2 = true then (e.1.spend.emitAnswer ag gid t recs).1.sset ag d.toNat
        (e.1.spend.emitAnswer ag gid t recs).2
      else (({ e.1.after ag (.emit gid t recs d.toNat) with
        accesses := tabMod (e.1.after ag (.emit gid t recs d.toNat)).accesses e.1.nextId (fun x => { x with dest := (1, d.toNat, 0, 0) }) } :
          State).reservePush ag e.1.nextId d.toNat)).retire (emitNeed d a n s ag) c ((s.strand ag).pc + 4)) := by
  obtain rfl : c.a = ag := opens_agent h
  have hcur : s.cur.getD .device = c.a := by rw [h.1]; rfl
  rw [exec_emit, execEmit, hcur]
  refine done_of h rfl ?_ rfl rfl
  simp only [hto, ← hrecs]
  rw [he]
  obtain ⟨v, performed⟩ := e
  cases performed <;> rfl

/-- Settles O34: by whether the release has been performed, then by the answer of the node's queue. -/
theorem emitAllOrNothing : Obligations.EmitAllOrNothing := by
  intro d a n st s ag c u gid t g0 g need h hto on recs e w hg next
  have hexec := emit_open (st := st) h hto (recs := recs) rfl (e := e) rfl
  have hne : on ≠ [] → recs ≠ [] := fun hon hr => hon (List.map_eq_nil_iff.1 hr)
  refine ⟨fun hok hon => ?_, fun hok hon hroom => ?_, fun hok hon hfull => ?_, fun hno => ?_⟩
  · have hnil : recs = [] := List.map_eq_nil_iff.2 hon
    rw [hexec, if_pos hok, hnil, emitAnswer_nil]
  · rw [hexec, if_pos hok, emitAnswer_some hg ag t (hne hon), if_pos hroom]
  · rw [hexec, if_pos hok, emitAnswer_some hg ag t (hne hon), if_neg (by rw [hfull]; decide)]
  · rw [hexec, if_neg (by rw [hno]; decide)]

/-! ### Engine issues -/

section
variable {s u : State} {ag : Agent} {c : Ctx}

/-- A member whose issue is a fork: with a slot free it forks, else it waits under ASYNC (R190). -/
theorem fork_open {i : Instr} {need : Need} {st : StreamNo} {bar : Option Nat} {f : Ctx → State → (State → Nat) × EngineOp}
    (h : Opens need ag s c u) (hlen : need.len = 4)
    (hexec : exec i s = issue need (fun c s => forkBody c s st bar (f c s).1 (f c s).2) s) :
    (u.engineSlots ag.unit ≠ 0 → exec i s =
      .next ((u.fork ag st.toNat (u.stream ag st.toNat) bar (f c u).1 (f c u).2 none).retire need c ((s.strand ag).pc + 4))) ∧
    (u.engineSlots ag.unit = 0 → exec i s = .next (s.blockNeed ag need .async)) := by
  obtain rfl : c.a = ag := opens_agent h
  exact ⟨fun hfree => done_of h hexec (if_neg hfree) (by rw [hlen]; rfl) rfl, fun hnone => wait_of h hexec (if_pos hnone)⟩

/-- A counter that can be read takes no trap. -/
theorem counterTrap_misaligned {va : Nat} (h : va % 8 ≠ 0) : u.counterTrap ag va = some 0x03 :=
  if_pos (bne_iff_ne.2 h)

theorem counterTrap_read {va : Nat} (hva : va % 8 = 0) {t : State} {bs : List Byte}
    (hread : u.readFor (u.wgOf ag) ag none (u.ctxOf ag).1 (u.ctxOf ag).2 va 8 = .ok t (bs, false)) : u.counterTrap ag va = none := by
  have hsee : u.seeCounter ag va = .ok t (bs, false) := hread
  refine (if_neg (fun hc => bne_iff_ne.1 hc hva)).trans ?_
  rw [hsee]
  rfl

end

/-- Settles O31: each engine member is a fork; TLDW by its handle, then its slot; CWAIT and CTEST by what the counter answers. -/
theorem engineIssues : Obligations.EngineIssues := by
  refine ⟨?_, ?_, ?_⟩
  · intro v w d a x y n z st row hrow s ag c u h
    simp only [List.mem_cons, List.not_mem_nil, or_false] at hrow
    rcases hrow with rfl | rfl | rfl | rfl | rfl | rfl | rfl | rfl | rfl
    · exact fork_open h rfl (by cases z <;> rfl)
    all_goals exact fork_open h rfl rfl
  · intro k a st s ag c u n h v
    obtain rfl : c.a = ag := opens_agent h
    refine ⟨fun hidle hfree => done_of h exec_tldw ((if_neg ?_).trans (if_neg hfree)) rfl rfl, fun hbusy => wait_of h exec_tldw (if_pos hbusy)⟩
    rw [hidle]
    decide
  · intro d a b st s ag c u h va v next
    obtain rfl : c.a = ag := opens_agent h
    have hnext : c.next = next := opens_next h
    have hpc : c.pc = (s.strand c.a).pc := opens_pc h
    refine ⟨fun hodd => ?_, fun t bs heven hread => ?_⟩
    · have htrap : u.counterTrap c.a (c.get u a.toNat).toNat = some 0x03 := counterTrap_misaligned hodd
      exact ⟨trap_of h exec_cwait (by simp only [htrap]; rfl), trap_of h exec_ctest (by simp only [htrap]; rfl)⟩
    · have hnone : u.counterTrap c.a (c.get u a.toNat).toNat = none := counterTrap_read heven hread
      have hsee : u.seeCounter c.a (c.get u a.toNat).toNat = .ok t (bs, false) := hread
      refine ⟨fun hle => ⟨done_of h exec_cwait ?_ rfl rfl, done_of h exec_ctest ?_ rfl rfl⟩,
        fun hlt => ⟨jump_of h exec_cwait ?_ hpc (by rw [← hnext]), done_of h exec_ctest ?_ rfl rfl⟩⟩
      · simp only [hnone, hsee]
        exact if_pos hle
      · simp only [hnone, hsee]
        exact if_pos hle
      · simp only [hnone, hsee]
        exact if_neg (Nat.not_le.2 hlt)
      · simp only [hnone, hsee]
        exact if_neg (Nat.not_le.2 hlt)

/-! ### Engines run -/

/-- What a fork leaves: its edge, the registration, the operation under its number, and the step that completes it. -/
theorem fork_eq (s : State) (a : Agent) (st : Nat) (sc : Stream) (n : Nat) (bytes : State → Nat) (op : EngineOp) {w : Nat}
    (hw : s.wgOf a = some w) {e0 : Engine} (he0 : e0 = { Engine.start a (s.ctxOf a) (some w) op st sc s.clk with bar := some n })
    {v : State} (hv : v = s.engineEdge e0 op.head) {edge : State} (hedge : edge = v.backSpans e0 (op.spans v a)) :
    s.fork a st sc (some n) bytes op none =
      ({ edge.bput (some w) a.threadNo n ((edge.bget (some w) a.threadNo n).register (bytes edge)) with
        engines := tabPut (edge.bput (some w) a.threadNo n ((edge.bget (some w) a.threadNo n).register (bytes edge))).engines edge.nextId
          { e0 with bytes := bytes edge, spans := op.spans v a }
        nextId := edge.nextId + 1 } : State).later 1 (.engineComplete edge.nextId) := by
  subst hedge hv he0
  rw [State.fork, hw]
  rfl

theorem engineRun_rcopy (s : State) (id : Nat) {e : Engine} {dst src : List Word} {x : Word} (hop : e.op = .rcopy dst src x)
    (hphase : e.phase = 0) : s.engineRun id e = s.sendTile id e dst src := by
  simp only [State.engineRun, hop, hphase]

/-- Every other work: here, or where the counter lies. -/
theorem engineRun_other (s : State) (id : Nat) {e : Engine} (h : ¬(e.phase = 0 ∧ ∃ dst src x, e.op = .rcopy dst src x)) :
    s.engineRun id e = match s.engineRemote e with
      | some (dev, rva) => s.engineSend id e dev rva
      | none => (engineWork e s, []) := by
  unfold State.engineRun
  split
  · next dst src x hop hphase => exact absurd ⟨hphase, dst, src, x, hop⟩ h
  · generalize s.engineRemote e = r
    cases r <;> rfl

/-- ENGINE_COMPLETE of an operation that has work left: it waits, or its work is settled. -/
theorem engineComplete_open {s : State} {id : Nat} {e : Engine} (hfind : tabFind s.engines id = some e) (hx : e.xids = [])
    (hphase : e.phase ≠ 3) (hstopped : e.stopped = false) {v : State} (hv : v = s.flush e.agent id) {waits : Bool}
    (hwaits : waits = (v.engineWaits id e || match e.op.slot with
      | some m => ((v.cluster e.cluster).feedOf m).ready
      | none => false)) :
    exec (.engineComplete id) s = .next (if waits = true then v.inClk 1 (.engineComplete id)
      else v.settleWork id e (v.engineRun id e).1 (v.engineRun id e).2) := by
  have hopen : ¬(!e.xids.isEmpty) = true := by rw [hx]; decide
  have hgo : ¬(decide (e.phase = 3) || e.stopped) = true := by simp [hphase, hstopped]
  subst hv
  rw [exec_engineComplete]
  simp only [execEngineComplete, hfind, if_neg hopen, if_neg hgo]
  cases waits
  · refine if_neg ?_
    exact fun hc => Bool.false_ne_true (hwaits.trans hc)
  · exact if_pos hwaits.symm

/-- Settles O32. -/
theorem enginesRun : Obligations.EnginesRun := by
  refine ⟨?_, ?_, ?_⟩
  · intro s a st sc n bytes op w hw e0 v edge t
    have ht := fork_eq s a st sc n bytes op hw (e0 := e0) rfl (v := v) rfl (edge := edge) rfl
    refine ⟨⟨{ e0 with bytes := bytes edge, spans := op.spans v a }, ?_, rfl, rfl, rfl, rfl, rfl, rfl, rfl, rfl, rfl, rfl, rfl⟩, ?_,
      fun hpresent => ?_, edge.clk + (1 + edge.delay), ?_, ?_⟩
    · simp only [t, ht]
      exact tabFind_tabPut_self _ _ _
    · simp only [t, ht]
      rfl
    · simp only [t, ht]
      exact bget_bput_self hpresent 0 n _
    · omega
    · simp only [t, ht]
      exact List.mem_append_right _ (List.mem_singleton.2 rfl)
  · intro id e s hfind hx
    have hopen : (!e.xids.isEmpty) ≠ true := by rw [hx]; decide
    refine ⟨fun hdone => ?_, fun hphase hstopped => ?_⟩
    · rw [exec_engineComplete]
      simp only [execEngineComplete, hfind, if_neg hopen]
      refine if_pos ?_
      simpa only [Bool.or_eq_true, decide_eq_true_eq] using hdone
    · intro v waits done
      have hexec := engineComplete_open hfind hx hphase hstopped (v := v) rfl (waits := waits) rfl
      refine ⟨fun hw => ?_, fun dst src x hw hop hzero => ?_, fun hw hother => ⟨fun hhere => ?_, fun dev rva hthere => ?_⟩⟩
      · rw [hexec, if_pos hw]
      · rw [hexec, if_neg (by rw [hw]; decide), engineRun_rcopy v id hop hzero]
      · rw [hexec, if_neg (by rw [hw]; decide), engineRun_other v id hother, hhere]
      · rw [hexec, if_neg (by rw [hw]; decide), engineRun_other v id hother, hthere]
  · intro b bytes q
    refine ⟨rfl, rfl, rfl, fun h => ?_, fun h => ?_, ?_, ?_, rfl⟩
    · exact if_neg (by simp [h])
    · exact if_pos h
    · exact Int.add_sub_cancel _ _
    · exact Int.add_sub_cancel _ _

end Sys2Proof
end


section
/-!
What a step runs (spec/05_memory.md R89, spec/18_scheduling.md R267, spec/29_errors_execution.md R361).
-/

namespace Sys2Proof

open Sys2Proof.Machine

/-! ### The bytes at an address -/

theorem fetchFrom_none (s : State) (u : Nat) (vi : BitVec 8) (asid : BitVec 16) (va f : Nat) :
    s.fetchFrom u vi asid va 0 (f + 1) = { bytes := [], missing := none, bad := false } := rfl

/-- Twelve bytes within one line. -/
theorem fetchFrom_line {s : State} {u : Nat} {vi : BitVec 8} {asid : BitVec 16} {va : Nat} {l : ILine}
    (hline : tabFind (s.unit u).icache (lineKey (s.tagAsid vi asid va) va) = some l) (hfit : va % 128 + 12 ≤ 128) :
    s.fetchFrom u vi asid va 12 13 = { bytes := (l.bytes.drop (va % 128)).take 12, missing := none, bad := l.bad } := by
  have hhere : Nat.min 12 (128 - va % 128) = 12 := Nat.min_eq_left (by omega)
  rw [State.fetchFrom, if_neg (by decide)]
  simp only [hline, hhere, Nat.sub_self]
  rw [fetchFrom_none, List.append_nil, Bool.or_false]

/-- The bytes at an address are a matter of the unit's instruction cache and the names of address spaces. -/
theorem fetchFrom_congr {s t : State} {u : Nat} (hunit : t.unit u = s.unit u)
    (htag : ∀ vi asid va, t.tagAsid vi asid va = s.tagAsid vi asid va) (vi : BitVec 8) (asid : BitVec 16) (va n f : Nat) :
    t.fetchFrom u vi asid va n f = s.fetchFrom u vi asid va n f := by
  induction f generalizing va n with
  | zero => rfl
  | succ f ih => simp only [State.fetchFrom, hunit, htag, ih]

/-- No bytes decode to a step of the machine itself. -/
theorem decode_ne_fetchMiss {bs r : List Byte} {i : Instr} (h : decode bs = .ok (i, r)) (m : CodeMiss) : i ≠ .fetchMiss m := by
  rintro rfl
  exact Bool.false_ne_true (encodeDecode _ _ _ h).1

/-! ### What the sequence at an agent's PC comes to -/

section
variable {v : State} {a : Agent} {pc : Word}

theorem fetchSeq_unfetchable (h : fetchable pc.toNat = false) : v.fetchSeq a pc = .idle (v.takeTrap a 0x04 pc) := by
  simp only [State.fetchSeq, h, Bool.not_false, if_true]

theorem fetchSeq_missing (h : fetchable pc.toNat = true) {m : Nat}
    (hdec : decode (v.fetchFrom a.unit (v.ctxOf a).1 (v.ctxOf a).2 pc.toNat 12 13).bytes = .error .short)
    (hmiss : (v.fetchFrom a.unit (v.ctxOf a).1 (v.ctxOf a).2 pc.toNat 12 13).missing = some m) (hm : fetchable m = true) :
    v.fetchSeq a pc = .run (.fetchMiss ⟨BitVec.ofNat 64 m, .none⟩) v := by
  simp only [State.fetchSeq, h, hdec, hmiss, hm, Bool.not_true, Bool.false_eq_true, if_false]

theorem fetchSeq_ok (h : fetchable pc.toNat = true) {i : Instr} {rest : List Byte}
    (hdec : decode (v.fetchFrom a.unit (v.ctxOf a).1 (v.ctxOf a).2 pc.toNat 12 13).bytes = .ok (i, rest))
    (hbad : (v.fetchFrom a.unit (v.ctxOf a).1 (v.ctxOf a).2 pc.toNat 12 13).bad = false)
    (hmark : ∀ l, tabFind (v.unit a.unit).icache (lineKey (v.tagAsid (v.ctxOf a).1 (v.ctxOf a).2 pc.toNat) pc.toNat) = some l →
      tabGet l.marks (pc.toNat % 128 / 2) 0 ≠ 2) : v.fetchSeq a pc = .run i v := by
  simp only [State.fetchSeq, h, hdec, hbad, Bool.not_true, Bool.false_eq_true, if_false]
  refine if_neg ?_
  split
  · next l hl => simpa using hmark l hl
  · decide

theorem fetchSeq_error (h : fetchable pc.toNat = true) {e : Reject}
    (hdec : decode (v.fetchFrom a.unit (v.ctxOf a).1 (v.ctxOf a).2 pc.toNat 12 13).bytes = .error e)
    (hbad : (v.fetchFrom a.unit (v.ctxOf a).1 (v.ctxOf a).2 pc.toNat 12 13).bad = false)
    (hshort : e = .short → (v.fetchFrom a.unit (v.ctxOf a).1 (v.ctxOf a).2 pc.toNat 12 13).missing = none) :
    v.fetchSeq a pc = .reject e.sub e.value e.inner v := by
  simp only [State.fetchSeq, h, hdec, hbad, Bool.not_true, Bool.false_eq_true, if_false]
  split
  · next m he hm => cases he; rw [hshort rfl] at hm; cases hm
  · rfl

end

/-! ### The attempt -/

/-- Nothing holds the agent back: it looks at the bytes at its PC (R272). -/
def Tries (s : State) (a : Agent) : Prop :=
  s.alive a = true ∧ s.discarding a.unit = false ∧ (s.strand a).stopped = false ∧ s.halted a = false ∧
  (∀ p, (s.strand a).park = some p → p.ready = true) ∧ s.faulting a = false ∧ (s.strand a).wait = none ∧ (s.strand a).delay ≤ s.clk ∧
  (∀ t, a = .thread t → (s.thread t).spill = false) ∧
  (∀ g k, a = .split g k → (s.splitOf g k).atJoin s.clk = false ∧ (s.splitOf g k).ex ≠ 0) ∧
  (s.strand a).traps.find? (fun t => t.1 != 0x09) = none

theorem attempt_of_tries {s v : State} {a : Agent} (hv : v = { s with cur := some a, behind := none }) (h : Tries v a) {p : Pick}
    (hp : p = v.fetchSeq a (v.strand a).pc) :
    (∀ d c t, p = .run (.node d c) t → s.attempt a = t.latchBody a (v.strand a).pc (.node d c)) ∧
    ((∀ d c t, p ≠ .run (.node d c) t) → s.attempt a = p) := by
  suffices hattempt : s.attempt a = match (motive := Pick → Pick) p with
      | .run (.node d c) t => t.latchBody a (v.strand a).pc (.node d c)
      | p => p by
    rw [hattempt]
    refine ⟨fun d c t hnode => by subst hnode; rfl, fun hnode => ?_⟩
    split
    · next d c t => exact absurd rfl (hnode d c t)
    · rfl
  subst hp
  obtain ⟨halive, hdiscard, hstopped, hhalted, hpark, hfault, hwait, hdelay, hspill, hjoin, htraps⟩ := h
  have hclk : v.clk = s.clk := by rw [hv]
  rw [hclk] at hdelay hjoin
  have hparked : ∀ p, (v.strand a).park = some p → (!p.ready) = false := fun p hp => by rw [hpark p hp]; rfl
  have hspilling : ∀ t, a = .thread t → (v.thread t).spill = false := hspill
  unfold State.attempt
  simp only [← hv, halive, hdiscard, hstopped, hhalted, hfault, hwait, htraps, Bool.not_true, Bool.or_self, Bool.false_eq_true,
    if_false, Bool.false_or, Bool.or_false, if_neg (Nat.not_lt.2 hdelay)]
  cases hp : (v.strand a).park with
  | none =>
    cases a with
    | thread t =>
      simp only [hspill t rfl, Bool.false_eq_true, if_false] <;> rfl
    | split g k =>
      obtain ⟨hat, hex⟩ := hjoin g k rfl
      simp only [hat, Bool.false_or, beq_iff_eq, hex, Bool.false_eq_true, if_false] <;> rfl
  | some p =>
    cases a with
    | thread t =>
      simp only [hparked p hp, hspill t rfl, Bool.false_eq_true, if_false] <;> rfl
    | split g k =>
      obtain ⟨hat, hex⟩ := hjoin g k rfl
      simp only [hparked p hp, hat, Bool.false_or, beq_iff_eq, hex, Bool.false_eq_true, if_false] <;> rfl

theorem tryAgent_idle {s t : State} {a : Agent} (h : s.attempt a = .idle t) : tryAgent a s = .next t := by
  simp only [tryAgent, h]

theorem tryAgent_run {s t : State} {a : Agent} {i : Instr} (h : s.attempt a = .run i t) (hmiss : ∀ m, i ≠ .fetchMiss m) :
    tryAgent a s = runSeq i a t := by
  rw [tryAgent, h]
  split
  · next heq => cases heq
  · next m u heq => exact absurd (Pick.run.inj heq).1 (hmiss m)
  · next heq =>
    obtain ⟨rfl, rfl⟩ := Pick.run.inj heq
    rfl
  · next heq => cases heq

theorem tryAgent_miss {s t : State} {a : Agent} {m : CodeMiss} (h : s.attempt a = .run (.fetchMiss m) t) :
    tryAgent a s = runMiss (.fetchMiss m) a t := by
  simp only [tryAgent, h]

theorem tryAgent_reject {s t : State} {a : Agent} {sub : BitVec 8} {val : BitVec 48} {inner : Option Instr}
    (h : s.attempt a = .reject sub val inner t) : tryAgent a s = runReject sub val inner a t := by
  simp only [tryAgent, h]

theorem runSeq_plain {i : Instr} {a : Agent} {s : State} (h : (s.strand a).traps = []) : runSeq i a s = exec i s := by
  simp only [runSeq, h]

/-- A queued STACK trap takes the place of an issue. -/
theorem runSeq_trapping {i : Instr} {a : Agent} {s t : State} {x : BitVec 8 × Word} {more : List (BitVec 8 × Word)}
    (h : (s.strand a).traps = x :: more) (hexec : exec i s = .next t) :
    runSeq i a s = if (t.unit a.unit).issued then exec .stackTrap s else .next t := by
  simp only [runSeq, h, runTrapping, hexec]

theorem runMiss_plain {i : Instr} {a : Agent} {s : State} (h : s.peekSeq a = none) : runMiss i a s = exec i s := by
  simp only [runMiss, h]
  cases exec i s <;> rfl

theorem runMiss_charged {i j : Instr} {a : Agent} {s t u : State} (hpeek : s.peekSeq a = some j) (hi : exec i s = .next t)
    (hj : exec j (s.block a .fetch) = .next u) : runMiss i a s =
      .next (if (u.strand a).why.beforeFetch && !(u.unit a.unit).issued then t.block a (u.strand a).why else t) := by
  simp only [runMiss, hpeek, hi, hj]

theorem latchBody_ok {v : State} {a : Agent} {pc : Word} {i b : Instr} {r : List Byte}
    (hdec : decode (v.fetchFrom a.unit (v.ctxOf a).1 (v.ctxOf a).2 (pc.toNat + 4) 12 13).bytes = .ok (b, r)) :
    v.latchBody a pc i = .run i { v with behind := some (b, b.len) } := by
  simp only [State.latchBody, hdec]

theorem step_run {s : State} {a : Agent} {q : List Turn} (hdue : s.due = []) (hturn : s.turn = .run a :: q) :
    step s = tryAgent a { s with turn := q } := by
  simp only [step, hdue, hturn]

/-- Settles O46: the attempt of an agent that nothing holds back, by what its bytes decode to. -/
theorem stepRunsDecoded : Obligations.StepRunsDecoded := by
  refine ⟨?_, fun s u vi asid va l hline hfit => fetchFrom_line hline hfit, ?_, ?_, ?_⟩
  · intro s a q hdue hturn v x pc vi asid f halive hdiscard hstopped hhalted hpark hfault hwait hdelay hspill hjoin
    have hstep : step s = tryAgent a { s with turn := q } := step_run hdue hturn
    have hfetch (va n k : Nat) : v.fetchFrom a.unit (v.ctxOf a).1 (v.ctxOf a).2 va n k = s.fetchFrom a.unit vi asid va n k :=
      fetchFrom_congr (s := s) (t := v) rfl (fun _ _ _ => rfl) vi asid va n k
    have htries (htraps : x.traps.find? (fun t => t.1 != 0x09) = none) : Tries v a :=
      ⟨halive, hdiscard, hstopped, hhalted, hpark, hfault, hwait, hdelay, hspill, hjoin, htraps⟩
    have hattempt (htraps : x.traps.find? (fun t => t.1 != 0x09) = none) {p : Pick} (hp : p = v.fetchSeq a x.pc) :=
      attempt_of_tries (s := { s with turn := q }) (v := v) rfl (htries htraps) hp
    have hquiet (h : x.traps = []) : x.traps.find? (fun t => t.1 != 0x09) = none := by rw [h]; rfl
    refine ⟨fun hno htraps => ?_, fun hyes hbad hmark => ⟨?_, ?_, ?_, ?_⟩, fun hyes m hdec hmissing hm htraps => ?_⟩
    · have hidle := (hattempt (hquiet htraps) (fetchSeq_unfetchable (v := v) hno).symm).2 (fun d c t h => by cases h)
      rw [hstep, tryAgent_idle hidle]
    · intro i rest hdec hnode htraps
      have hrun := (hattempt (hquiet htraps) (fetchSeq_ok (v := v) hyes (by rw [hfetch]; exact hdec) (by rw [hfetch]; exact hbad) hmark).symm).2
        (fun d c t h => hnode d c (Pick.run.inj h).1)
      rw [hstep, tryAgent_run hrun (decode_ne_fetchMiss hdec)]
      exact runSeq_plain htraps
    · intro d c rest hdec htraps g b r2 hbody
      have hrun := (hattempt (hquiet htraps) (fetchSeq_ok (v := v) hyes (by rw [hfetch]; exact hdec) (by rw [hfetch]; exact hbad) hmark).symm).1
        d c v rfl
      rw [latchBody_ok (by rw [hfetch]; exact hbody)] at hrun
      rw [hstep, tryAgent_run hrun (decode_ne_fetchMiss hdec)]
      exact runSeq_plain htraps
    · intro i rest val more t hdec hnode htraps hmore hexec
      have hstack : x.traps.find? (fun t => t.1 != 0x09) = none := by
        rw [htraps, List.find?_eq_none]
        intro y hy
        rcases List.mem_cons.1 hy with rfl | hy
        · exact fun h => bne_iff_ne.1 h rfl
        · simp [hmore y hy]
      have hrun := (hattempt hstack (fetchSeq_ok (v := v) hyes (by rw [hfetch]; exact hdec) (by rw [hfetch]; exact hbad) hmark).symm).2
        (fun d c t h => hnode d c (Pick.run.inj h).1)
      rw [hstep, tryAgent_run hrun (decode_ne_fetchMiss hdec)]
      exact runSeq_trapping htraps hexec
    · intro e hdec hinner htraps hshort
      have hrej := (hattempt (hquiet htraps) (fetchSeq_error (v := v) hyes (by rw [hfetch]; exact hdec) (by rw [hfetch]; exact hbad)
        (fun he => by rw [hfetch]; exact hshort he)).symm).2 (fun d c t h => by cases h)
      rw [hstep, tryAgent_reject hrej, hinner]
      exact runSeq_plain htraps
    · have hrun := (hattempt (hquiet htraps) (fetchSeq_missing (v := v) hyes (by rw [hfetch]; exact hdec) (by rw [hfetch]; exact hmissing) hm).symm).2
        (fun d c t h => by cases h)
      intro miss
      refine ⟨fun hpeek => ?_, fun j t u hpeek hi hj => ?_⟩
      · rw [hstep, tryAgent_miss hrun]
        exact runMiss_plain hpeek
      · rw [hstep, tryAgent_miss hrun]
        exact runMiss_charged hpeek hi hj
  · intro s i r hdue
    simp only [step, hdue]
  · intro s hdue hturn
    simp only [step, hdue, hturn]
  · intro s t a q hdue hturn hrun
    have htry : tryAgent a { s with turn := q } = .next t := (step_run (s := { s with turn := .run a :: q }) hdue rfl).symm.trans hrun
    unfold step
    split
    · next heq => rw [hdue] at heq; cases heq
    · split
      · next heq =>
        rw [hturn] at heq
        obtain ⟨rfl, rfl⟩ : a = _ ∧ q = _ := by simpa using heq
        rw [htry]
      all_goals next heq => rw [hturn] at heq; cases heq

end Sys2Proof
end


section
/-!
Passes, the arbiter and the sequencer of the matrix unit (spec/12_isa_matrix.md R174 to R182, spec/04_stacks.md R73, R74).
-/

namespace Sys2Proof

open Sys2Proof.Machine

theorem tile_setTile_self (s : State) (c n : Nat) (v : List Lane) (bad : Bool) : (s.setTile c n v bad).tile c n = v := by
  simp only [State.setTile, State.tile, State.cluster_modCluster_self, tabGet_tabPut_self]

theorem tile_setTile_other (s : State) (c n m : Nat) (v : List Lane) (bad : Bool) (h : m ≠ n) : (s.setTile c n v bad).tile c m = s.tile c m := by
  simp only [State.setTile, State.tile, State.cluster_modCluster_self, tabGet_tabPut_other _ _ _ _ _ h]

/-- A product reads the tile that it goes to, and no other. -/
theorem product_congr {s t : State} {c j : Nat} {o : MatOp} (h : t.tile c (o.n + 16 * j) = s.tile c (o.n + 16 * j)) (f : Feed) (b : Handle) :
    t.product c o f b j = s.product c o f b j := by
  simp only [State.product, h]

/-- A pass writes its tiles one after another, each from what it held before the pass. -/
theorem tile_passes (c : Nat) (o : MatOp) (f : Feed) (h : Handle) (bad : Bool) (l : List Nat) (hnodup : l.Nodup) (s : State) (j : Nat) :
    (l.foldl (fun s j => s.setTile c (o.n + 16 * j) (s.product c o f h j) bad) s).tile c (o.n + 16 * j) =
      if j ∈ l then s.product c o f h j else s.tile c (o.n + 16 * j) := by
  induction l generalizing s with
  | nil => rfl
  | cons i l ih =>
    obtain ⟨hi, hl⟩ := List.nodup_cons.1 hnodup
    rw [List.foldl_cons, ih hl]
    by_cases hij : j = i
    · subst hij
      rw [if_neg hi, if_pos (List.mem_cons_self ..), tile_setTile_self]
    · have htile := tile_setTile_other s c (o.n + 16 * i) (o.n + 16 * j) (s.product c o f h i) bad (by omega)
      simp only [List.mem_cons, hij, false_or, product_congr htile, htile]

/-- A pass none of whose tiles a later TZERO has taken. -/
theorem tile_writePass (s : State) (c : Nat) {o : MatOp} (f : Feed) (h : Handle) (hpassed : o.passed = []) {j : Nat} (hj : j < o.w) :
    (s.writePass c o f h).tile c (o.n + 16 * j) = s.product c o f h j := by
  have hall : (List.range o.w).filter (fun j => !o.passed.contains (o.n + 16 * j)) = List.range o.w := by
    rw [hpassed]
    exact List.filter_eq_self.2 (fun _ _ => rfl)
  simp only [State.writePass, hall]
  rw [tile_passes c o f h _ _ List.nodup_range s j, if_pos (List.mem_range.2 hj)]

theorem tile_zeroOp (s : State) (c : Nat) (o : MatOp) : (s.zeroOp c o).tile c o.n = List.replicate 1024 0 := by
  simp only [State.zeroOp, State.zeroAcc, State.tile, State.cluster_modCluster_self, tabGet, tabFind_tabDel_self, Option.getD_none]
  rfl

/-- Settles O30: each step by the branch of its meaning; an element of a pass from the tile it goes to. -/
theorem matrixRuns : Obligations.MatrixRuns := by
  refine ⟨⟨?_, ?_, ?_, ?_⟩, ?_, ?_⟩
  · intro n cell o s hfind
    rw [exec_passEnd, execPassEnd]
    generalize hr : List.find? _ _ = r
    obtain rfl : r = some o := hr.symm.trans hfind
    rfl
  · intro n op o f h s hfind hzero ha hb hfirst
    rw [exec_mmaComplete]
    simp only [execMmaComplete, hfind, hzero, ha, hb, hfirst, State.matUpset]
    rfl
  · intro n op o s hfind hzero ha
    refine ⟨?_, tile_zeroOp s n o⟩
    rw [exec_mmaComplete]
    simp only [execMmaComplete, hfind, hzero, ha, State.matUpset]
    rfl
  · intro n o f h s hpassed j hj r hr q hq
    have hrow : (32 * r + q) / 32 = r := by omega
    have hcol : (32 * r + q) % 32 = q := by omega
    rw [tile_writePass s n f h hpassed hj, State.product, getD_map_range _ _ (by omega), hrow, hcol]
    rfl
  · intro n s v cands first w rest
    have hbudget (k : Cluster) : k.mbudget = (k.stkcfg.extractLsb' 48 16).toNat := (toNat_extractLsb' _ _ _).symm
    rw [exec_matrixAdmit]
    simp only [execMatrixAdmit, hbudget]
    rfl
  · intro t q s hq p nt o last r v room
    have hroom : (s.cluster (t / 2)).room p.1 = true ↔ room := decide_eq_true_iff
    refine ⟨fun hhalt => ?_, fun hgo hheld => ?_, fun hgo hspill hr hend => ?_, fun hgo hspill hr hmore => ?_⟩
    · rw [exec_sequencerEnqueue]
      simp only [execSequencerEnqueue, hq]
      exact if_pos hhalt
    · rw [exec_sequencerEnqueue]
      simp only [execSequencerEnqueue, hq]
      refine (if_neg (by rw [hgo]; decide)).trans (if_pos ?_)
      rcases hheld with hspill | hfull
      · rw [hspill]
        rfl
      · rw [show (s.cluster (t / 2)).room p.1 = false from Bool.eq_false_iff.2 (fun h => hfull (hroom.1 h))]
        exact Bool.or_true _
    · have hopen : ¬((s.thread t).spill || !(s.cluster (t / 2)).room p.1) = true := by
        rw [hspill, hroom.2 hr]
        decide
      rw [exec_sequencerEnqueue]
      simp only [execSequencerEnqueue, hq]
      exact (if_neg (by rw [hgo]; decide)).trans ((if_neg hopen).trans (if_pos hend))
    · have hopen : ¬((s.thread t).spill || !(s.cluster (t / 2)).room p.1) = true := by
        rw [hspill, hroom.2 hr]
        decide
      rw [exec_sequencerEnqueue]
      simp only [execSequencerEnqueue, hq]
      exact (if_neg (by rw [hgo]; decide)).trans ((if_neg hopen).trans (if_neg hmore))

end Sys2Proof
end


section
/-!
The command graph (spec/13_isa_engines.md R204 to R206, spec/31_errors_engines.md R387).
-/

namespace Sys2Proof

open Sys2Proof.Machine

/-! ### What an issue works with -/

/-- The state of an issue without scalar destinations that are ports: what its source ports have popped. -/
theorem gate_popped {n : Need} {a : Agent} {s t : State} {c : Ctx} (hdst : portsOf n.dst = []) (h : gate n a s = .go c t) :
    t = s ∨ ∃ popped, s.popAll a (portsOf n.src) = some (t, popped) := by
  unfold gate at h
  extract_lets x ports regs held at h
  split at h
  · cases h
  · iterate 4
      split at h
      · cases h
    split at h
    · cases h
    · split at h
      · cases h
      · next got mask _ _ _ _ _ _ _ _ _ _ =>
        have hgot : ∀ p, got = some p → p.1 = s ∨ s.popAll a (portsOf n.src) = some p := by
          intro p e
          simp only [got] at e
          split at e
          · cases e
            exact .inl rfl
          · exact .inr e
        clear_value got
        split at h
        · cases h
        · iterate 2
            split at h
            · cases h
          split at h <;> split at h
          all_goals first
            | cases h; done
            | (obtain ⟨-, rfl⟩ := Gate.go.inj h
               simp only [hdst, List.isEmpty_nil, if_true]
               exact (hgot _ rfl).imp_right (fun e => ⟨_, e⟩))

theorem behind_pop (s : State) (t r : Nat) : (s.pop (.thread t) r).behind = s.behind := by
  unfold State.pop
  split <;> rfl

theorem behind_popAll {s u : State} {t : Nat} {rs : List Nat} {popped : List (Nat × Word)} (h : s.popAll (.thread t) rs = some (u, popped)) :
    u.behind = s.behind := by
  induction rs generalizing s popped with
  | nil =>
    cases h
    rfl
  | cons r rs ih =>
    rw [State.popAll] at h
    split at h
    · cases h
    · obtain ⟨p, hp, he⟩ := Option.map_eq_some_iff.1 h
      cases he
      exact (ih hp).trans (behind_pop s t r)

theorem behind_of_opens {n : Need} {t : Nat} {s u : State} {c : Ctx} (hdst : portsOf n.dst = []) (h : Opens n (.thread t) s c u) :
    u.behind = s.behind := by
  rcases gate_popped hdst h.2.2 with rfl | ⟨popped, hpop⟩
  · rfl
  · exact behind_popAll hpop

/-! ### The graph defined -/

theorem node_open {d : NodeNo} {n : BitVec 6} {i : Instr} {len : Nat} {s u : State} {t : Nat} {c : Ctx} {b : Body}
    (hbehind : s.behind = some (i, len)) (h : Opens (nodeNeed (some i)) (.thread t) s c u) (htrap : bodyTrap c u i = none)
    (hbody : captureBody c u i = some b) :
    (u.nodeHeld (t / 2) d.toNat = false → exec (.node d n) s = .next (((if bodyCommits i then u.implicitCommit (.thread t) else u).define
      (.thread t) d.toNat n.toNat b).retire (nodeNeed (some i)) c ((s.strand (.thread t)).pc + 4 + BitVec.ofNat 64 len))) ∧
    (u.nodeHeld (t / 2) d.toNat = true → exec (.node d n) s = .next (s.blockNeed (.thread t) (nodeNeed (some i)) .async)) := by
  have hu : u.behind = some (i, len) := (behind_of_opens rfl h).trans hbehind
  have ha := opens_agent h
  have hnext : c.next = (s.strand (.thread t)).pc + 4 := opens_next h
  rw [exec_node, execNode, hbehind]
  refine ⟨fun hfree => jump_of (p := c.next + BitVec.ofNat 64 len) h rfl ?_ (by rw [hnext]) rfl, fun hheld => wait_of h rfl ?_⟩
  · simp only [hu, htrap, hbody, ha]
    exact if_neg (fun hc => Bool.false_ne_true (hfree.symm.trans hc))
  · simp only [hu, htrap, hbody, ha]
    exact if_pos hheld

/-- NEDGE: nothing to a node DONE with an error, else the edge, which a DONE node releases or cancels along at once. -/
theorem nedge_open {d a : NodeNo} {s u : State} {t : Nat} {c : Ctx} (h : Opens nedgeNeed (.thread t) s c u) {x y : Node}
    (hx : x = u.node (t / 2) d.toNat) (hy : y = u.node (t / 2) a.toNat) {v : State} (hv : v = u.addEdge (t / 2) d.toNat a.toNat) :
    exec (.nedge d a) s = .next ((if y.state = .done ∧ y.error ≠ 0 then u else if x.state = .done then
        (if x.error = 0 then v.release (t / 2) a.toNat else v.cancelAll (t / 2) (v.reachable (t / 2) [a.toNat] 64) x.error)
      else v).retire nedgeNeed c ((s.strand (.thread t)).pc + 4)) := by
  have ha := opens_agent h
  refine done_of h exec_nedge ?_ rfl rfl
  subst hx hy hv
  simp only [ha, Agent.cluster, Bool.and_eq_true, beq_iff_eq, bne_iff_ne]
  split
  · rfl
  · by_cases hdone : (u.node (t / 2) d.toNat).state = .done
    · rw [if_neg (fun hc => hc hdone), if_pos hdone]
      split <;> rfl
    · rw [if_pos hdone, if_neg hdone]

/-! ### Nodes fire and complete -/

theorem nodeFire_open {k n : Nat} {s : State} {b : Body} (hstate : (s.node k n).state = .armed) (hcount : (s.node k n).count = 0)
    (hbody : (s.node k n).body = some b) : exec (.nodeFire k n) s = match b with
    | .tile op dst src bar st sc =>
      if s.engineSlots (Agent.thread (s.node k n).thread).unit = 0 then .next (s.inClk 1 (.nodeFire k n))
      else .next ((s.forkAs (.thread (s.node k n).thread) ((s.node k n).vi, (s.node k n).asid) (s.node k n).wg st sc (some bar)
        (fun _ => tileOpBytes op dst src) (tileOp op dst src) (some n)).fired k n)
    | .weight h va st sc =>
      if s.handleBusy k h || s.engineSlots (Agent.thread (s.node k n).thread).unit = 0 then .next (s.inClk 1 (.nodeFire k n))
      else .next (((s.forkAs (.thread (s.node k n).thread) ((s.node k n).vi, (s.node k n).asid) (s.node k n).wg st sc none
        (fun _ => 0) (.tldw h va) (some n)).tldwStart k h).fired k n)
    | .mat zero i m h cfg =>
      if !(s.cluster k).room i then .next (s.inClk 1 (.nodeFire k n))
      else .next ((s.enqueueOp k (matOp (s.node k n).thread zero i m h cfg (some n) s.clk)).fired k n)
    | .macro_ word geom cfg =>
      if (s.thread (s.node k n).thread).seqr.isSome then .next (s.inClk 1 (.nodeFire k n))
      else .next ((s.startSeq (s.node k n).thread word geom cfg (some n)).fired k n)
    | .launch r addr cap kpid ktid =>
      .next ((s.fired k n).submit (s.node k n).vi (s.node k n).asid r addr cap kpid ktid (some (k, n))) := by
  have hopen : ¬((s.node k n).state != .armed || (s.node k n).count != 0) = true := by simp [hstate, hcount]
  rw [exec_nodeFire]
  simp only [execNodeFire, if_neg hopen, hbody]
  cases b <;> rfl

theorem apply_ite_next {p : Prop} [Decidable p] (s t : State) :
    (if p then Host.Outcome.next s else .next t : Host.Outcome State Fault Refusal) = .next (if p then s else t) := by
  split <;> rfl

theorem node_setNode (s : State) (c n : Nat) (x : Node) : (s.setNode c n x).node c n = x := by
  simp only [State.setNode, State.node, State.cluster_modCluster_self, tabGet_tabPut_self]

/-- An ARMED node that still waits counts one release. -/
theorem release_armed {s : State} {k n : Nat} (hstate : (s.node k n).state = .armed) (hcount : (s.node k n).count ≠ 0) :
    s.release k n = if (s.node k n).count = 1
      then (s.setNode k n { s.node k n with count := (s.node k n).count - 1 }).inClk 1 (.nodeFire k n)
      else s.setNode k n { s.node k n with count := (s.node k n).count - 1 } :=
  if_pos (by simp [hstate, hcount])

/-- Settles O33. -/
theorem graphs : Obligations.Graphs := by
  refine ⟨⟨?_, ?_, ?_, ?_⟩, ?_⟩
  · intro d n i len s t c u b ag hbehind h htrap hbody
    exact node_open hbehind h htrap hbody
  · intro d n b st s t c u v r ag h hfree va f e hclear hread l
    obtain ha := opens_agent h
    refine done_of h exec_nodeL ?_ rfl rfl
    simp only [ha]
    refine (if_neg (fun hc => Bool.false_ne_true (hfree.symm.trans hc))).trans ((if_neg (fun hc => Bool.false_ne_true (hclear.symm.trans hc))).trans ?_)
    rw [show (u.flush ag u.nextId).readFor _ _ _ _ _ _ _ = .ok v (r, false) from hread]
    rfl
  · intro d a s t c u h x v y
    exact nedge_open h rfl rfl rfl
  · intro d a s ag c u n h
    obtain rfl : c.a = ag := opens_agent h
    have hnext : c.next = (s.strand c.a).pc + 4 := opens_next h
    refine ⟨fun hdone => done_of h exec_nwait (if_pos (beq_iff_eq.2 hdone)) rfl rfl,
      fun hopen => jump_of h exec_nwait (if_neg (fun hc => hopen (beq_iff_eq.1 hc))) (opens_pc h) (by rw [hnext])⟩
  · intro k n s x a again
    refine ⟨fun hstate hcount => ⟨fun op dst src bar st sc hbody => ?_, fun h va st sc hbody => ?_, fun z i m h cfg hbody => ?_,
      fun word geom cfg hbody => ?_, fun r addr cap kpid ktid hbody => nodeFire_open hstate hcount hbody⟩, fun hstate => ?_,
      fun hstate hcount => ?_⟩
    · exact (nodeFire_open hstate hcount hbody).trans (apply_ite_next _ _)
    · exact (nodeFire_open hstate hcount hbody).trans (apply_ite_next _ _)
    · refine (nodeFire_open hstate hcount hbody).trans ?_
      by_cases hroom : (tabGet (s.cluster k).mq (i % 16) []).length < 8
      · rw [if_pos hroom]
        exact if_neg (by simp [Cluster.room, hroom])
      · rw [if_neg hroom]
        exact if_pos (by simp [Cluster.room, hroom])
    · exact (nodeFire_open hstate hcount hbody).trans (apply_ite_next _ _)
    · intro v
      have hfired : ¬((s.node k n).state != .fired) = true := by simp [show (s.node k n).state = .fired from hstate]
      rw [exec_nodeComplete]
      simp only [execNodeComplete]
      exact ⟨fun hok => (if_neg hfired).trans (if_pos hok), fun hbad => (if_neg hfired).trans (if_neg hbad)⟩
    · rw [release_armed hstate hcount]
      split
      · refine ⟨?_, ?_, fun _ => rfl⟩
        · exact congrArg Node.count (node_setNode s k n _)
        · exact (congrArg Node.state (node_setNode s k n _)).trans hstate
      · next hmore =>
        refine ⟨?_, ?_, fun hone => absurd hone hmore⟩
        · exact congrArg Node.count (node_setNode s k n _)
        · exact (congrArg Node.state (node_setNode s k n _)).trans hstate

end Sys2Proof
end


section
/-!
Collectives (spec/14_isa_collectives.md R208 to R214, spec/31_errors_engines.md R388, R389).
-/

namespace Sys2Proof

open Sys2Proof.Machine

theorem not_and_and_of_false {a : Bool} (h : a = false) (b c : Bool) : ¬(a && b && c) = true := by
  subst h
  exact Bool.false_ne_true
theorem not_or_of_false {a b : Bool} (ha : a = false) (hb : b = false) : ¬(a || b) = true := by
  subst ha hb
  exact Bool.false_ne_true

/-! ### Issue -/

section
variable {s u v : State} {g k w op : Nat} {c : Ctx} {d : TReg} {a : SReg} {n : BarNo} {st : StreamNo} {r : List Byte}

theorem exec_coll (d : TReg) (a : SReg) (n : BarNo) (st : StreamNo) (s : State) :
    ∀ row ∈ [(Instr.allred, 0), (Instr.redsc, 1), (Instr.allgat, 2), (Instr.bcast, 3)],
      exec (row.1 d a n st) s = Machine.coll row.2 d a n st s := by
  intro row hrow
  simp only [List.mem_cons, List.not_mem_nil, or_false] at hrow
  rcases hrow with rfl | rfl | rfl | rfl <;> rfl

/-- A broken record is the issue's trap. -/
theorem coll_bad (h : Opens (collNeed op d a n) (.split g k) s c u) (hwg : u.wgOf (.split g k) = some w)
    (hread : u.readFor (some w) (.split g k) none (u.ctxOf (.split g k)).1 (u.ctxOf (.split g k)).2 (c.get u a.toNat).toNat 64 = .ok v (r, false))
    {x : Word} (hbad : recordBad n.toNat u (.split g k) (recComm (u.record w) == some (u.group g).idx) r = some x) :
    Machine.coll op d a n st s = .next (s.takeTrap (.split g k) 0x01 (BitVec.ofNat 64 (12 * 2 ^ 56 + x.toNat % 2 ^ 48))) := by
  refine issue_trap h ?_
  simp only [opens_agent h, hwg, Option.getD_some, Agent.groupNo, hread, hbad]
  rfl

theorem coll_misaligned (h : Opens (collNeed op d a n) (.split g k) s c u) (hwg : u.wgOf (.split g k) = some w)
    (hread : u.readFor (some w) (.split g k) none (u.ctxOf (.split g k)).1 (u.ctxOf (.split g k)).2 (c.get u a.toNat).toNat 64 = .ok v (r, false))
    (hpre : regPre n.toNat u (.split g k) = none)
    (hok : recordBad n.toNat u (.split g k) (recComm (u.record w) == some (u.group g).idx) r = none) (hva : (c.get u a.toNat).toNat % 64 ≠ 0) :
    Machine.coll op d a n st s = .next (s.takeTrap (.split g k) 0x03 (c.get u a.toNat)) := by
  refine issue_trap h ?_
  simp only [opens_agent h, hwg, Option.getD_some, Agent.groupNo, hread, hok, hpre]
  exact if_pos (bne_iff_ne.2 hva)

/-- With a record that can be read and is none of these, the group joins. -/
theorem coll_joins (h : Opens (collNeed op d a n) (.split g k) s c u) (hwg : u.wgOf (.split g k) = some w)
    (hread : u.readFor (some w) (.split g k) none (u.ctxOf (.split g k)).1 (u.ctxOf (.split g k)).2 (c.get u a.toNat).toNat 64 = .ok v (r, false))
    (hpre : regPre n.toNat u (.split g k) = none)
    (hok : recordBad n.toNat u (.split g k) (recComm (u.record w) == some (u.group g).idx) r = none) (hva : (c.get u a.toNat).toNat % 64 = 0)
    {y : State} :
    (collJoin op d n st (c.get u a.toNat) c v w r = .done y →
      Machine.coll op d a n st s = .next (y.retire (collNeed op d a n) c ((s.strand (.split g k)).pc + 4))) ∧
    (collJoin op d n st (c.get u a.toNat) c v w r = .jump y c.pc →
      Machine.coll op d a n st s = .next (y.retire (collNeed op d a n) c (s.strand (.split g k)).pc)) := by
  refine ⟨fun hj => issue_done h ?_, fun hj => jump_of h rfl ?_ (opens_pc h) rfl⟩
  all_goals
    simp only [opens_agent h, hwg, Option.getD_some, Agent.groupNo, hread, hok, hpre]
    exact (if_neg (fun hc => bne_iff_ne.1 hc hva)).trans hj

end

/-! ### The driver's steps -/

section
variable {s : State} {w : Nat} {q : Coll} {a : Agent}

/-- COLL_STEP where the driver may try. -/
theorem collStep_open (hcoll : (s.wg w).coll = some q) (hagent : q.agent = some a) (hissued : (s.unit a.unit).issued = false)
    (hwait : (s.strand a).wait = some .coll) : exec (.collStep w) s = .next (s.drive w (q.steps.length + 2)) := by
  have hgo : ¬((s.unit a.unit).issued || (s.strand a).wait != some .coll) = true := by rw [hissued, hwait]; decide
  rw [exec_collStep]
  simp only [execCollStep, hcoll, hagent, if_neg hgo, State.driveColl]

variable (hcoll : (s.wg w).coll = some q) (hagent : q.agent = some a) (hstarted : q.started = true) (habort : q.abort = none)
include hcoll hagent hstarted habort

/-- A driver without steps left ends, or waits for its last acknowledgements. -/
theorem drive_done (hat : q.steps[q.pos]? = none) (f : Nat) :
    s.drive w (f + 1) = if q.sends.isEmpty then s.collEnd w a q else s.block a .async := by
  simp only [State.drive, hcoll, hagent, hstarted, habort, hat, Bool.not_true, Bool.false_eq_true, if_false, Option.isSome_none]

variable {kind c : Nat} (hat : q.steps[q.pos]? = some (kind, c)) {x : Arrival}
  (hx : (if (kind = 0 && q.pos_ (q.owner c) != 0) || (kind = 2 && q.pos_ (q.head c) != 0)
    then s.arrival (s.collEngine w q) q c (if kind = 0 then 0 else 1) else .ready) = x)
include hat hx

theorem drive_waits (hwaits : x = .waits) (f : Nat) : s.drive w (f + 1) = s.block a .async := by
  simp only [State.drive, hcoll, hagent, hstarted, habort, hat, hx, hwaits, Bool.not_true, Bool.false_eq_true, if_false, Option.isSome_none]

theorem drive_aborted (haborted : x = .aborted) (f : Nat) :
    s.drive w (f + 1) = (s.abortColl w 0x73 (q.counter c (if kind = 0 then 0 else 1))).block a .async := by
  simp only [State.drive, hcoll, hagent, hstarted, habort, hat, hx, haborted, Bool.not_true, Bool.false_eq_true, if_false, Option.isSome_none]

/-- A step that is no gather wait and finishes no chunk: an addition or a send, settled. -/
theorem drive_ready (hready : x = .ready) (hfinal : q.finals kind c = false) (hkind : kind ≠ 2) (f : Nat) :
    s.drive w (f + 1) = if kind = 0 then s.collSettle w a q (collAdd (s.collEngine w q) q c s) none
      else s.collSettle w a q (collSend (s.collEngine w q) w q kind c s).1 (some (collSend (s.collEngine w q) w q kind c s).2) := by
  simp only [State.drive, hcoll, hagent, hstarted, habort, hat, hx, hready, hfinal, if_neg hkind, Bool.not_true, Bool.false_eq_true, if_false,
    Option.isSome_none]
  by_cases hzero : kind = 0
  · subst hzero
    simp only [if_true, hfinal, Bool.false_and, Bool.false_eq_true, if_false]
  · simp only [if_neg hzero]

end

/-! ### The ring -/

section
variable {q : Coll} {c : Nat}

theorem pos_owner_eq_zero (hrank : q.rank < q.p) : q.pos_ (c % q.p) = 0 ↔ q.rank = c % q.p := by
  have hpos : 0 < q.p := by omega
  have hc := Nat.mod_lt c hpos
  rw [Coll.pos_, Nat.mod_mod]
  rcases Nat.lt_or_ge q.rank (c % q.p) with h | h
  · rw [Nat.mod_eq_of_lt (by omega)]
    omega
  · rw [show q.rank + q.p - c % q.p = (q.rank - c % q.p) + q.p by omega, Nat.add_mod_right, Nat.mod_eq_of_lt (by omega)]
    omega

theorem pos_owner_last (hrank : q.rank < q.p) : q.pos_ (c % q.p) + 1 = q.p ↔ q.rank = q.last c := by
  have hpos : 0 < q.p := by omega
  have hc := Nat.mod_lt c hpos
  have hlast : q.last c = if c % q.p = 0 then q.p - 1 else c % q.p - 1 := by
    rw [Coll.last]
    split
    · next h => rw [h, Nat.zero_add, Nat.mod_eq_of_lt (by omega)]
    · rw [show c % q.p + q.p - 1 = (c % q.p - 1) + q.p by omega, Nat.add_mod_right, Nat.mod_eq_of_lt (by omega)]
  rw [hlast, Coll.pos_, Nat.mod_mod]
  rcases Nat.lt_or_ge q.rank (c % q.p) with h | h
  · rw [Nat.mod_eq_of_lt (by omega)]
    split <;> omega
  · rw [show q.rank + q.p - c % q.p = (q.rank - c % q.p) + q.p by omega, Nat.add_mod_right, Nat.mod_eq_of_lt (by omega)]
    split <;> omega

/-- A list of a step a chunk, with another step on some. -/
theorem mem_chunkSteps {k l j c n : Nat} {p : Nat → Prop} [DecidablePred p] :
    (j, c) ∈ (List.range n).flatMap (fun c => (k, c) :: if p c then [(l, c)] else []) ↔ c < n ∧ (j = k ∨ (j = l ∧ p c)) := by
  simp only [List.mem_flatMap, List.mem_range, List.mem_cons, Prod.mk.injEq]
  constructor
  · rintro ⟨i, hi, ⟨rfl, rfl⟩ | hmem⟩
    · exact ⟨hi, .inl rfl⟩
    · split at hmem
      · next hp =>
        obtain ⟨rfl, rfl⟩ := Prod.mk.inj (List.mem_singleton.1 hmem)
        exact ⟨hi, .inr ⟨rfl, hp⟩⟩
      · exact absurd hmem List.not_mem_nil
  · rintro ⟨hc, rfl | ⟨rfl, hp⟩⟩
    · exact ⟨c, hc, .inl ⟨rfl, rfl⟩⟩
    · refine ⟨c, hc, .inr ?_⟩
      rw [if_pos hp]
      exact List.mem_singleton.2 rfl

theorem mem_steps {j : Nat} : (j, c) ∈ q.steps ↔ c < q.chunks ∧
    ((q.op.toNat < 2 ∧ (j = 0 ∨ (j = 1 ∧ q.pos_ (q.owner c) + 1 < q.p))) ∨ (q.op ≠ 1 ∧ (j = 2 ∨ (j = 3 ∧ q.pos_ (q.head c) + 1 < q.p)))) := by
  simp only [Coll.steps, List.mem_append, List.mem_ite_nil_right, mem_chunkSteps, Coll.reduces, Coll.gathers, decide_eq_true_eq, bne_iff_ne]
  tauto

end

/-- Settles O35. -/
theorem collectives : Obligations.Collectives := by
  refine ⟨?_, ⟨?_, ?_⟩, ?_⟩
  · intro row hrow d a n st s g k c u v w r ag need h hwg va hread hpre
    rw [exec_coll d a n st s row hrow]
    refine ⟨fun x hbad => coll_bad h hwg hread hbad, fun hok => ⟨fun hva => coll_misaligned h hwg hread hpre hok hva, ?_⟩⟩
    intro me q hva hslots hmine hstarted comm ws chunks stage runs e x hclear all reg
    have ha := opens_agent h
    have hnext : c.next = (s.strand ag).pc + 4 := opens_next h
    refine ⟨fun hc => (coll_joins (st := st) h hwg hread hpre hok hva).1 ?_, fun hc => (coll_joins (st := st) h hwg hread hpre hok hva).2 ?_⟩
    all_goals
      obtain ⟨ca, pc, next, popped, mask, act, replay⟩ := c
      subst ha hnext
      refine (if_neg (not_and_and_of_false hmine _ _)).trans ((if_neg (not_or_of_false hmine hstarted)).trans ((if_neg hslots).trans
        ((if_neg (fun hw => Bool.false_ne_true (hclear.symm.trans hw))).trans ?_)))
      dsimp only
    · rw [show (recComm (v.record w) == some (v.group (Agent.split g k).groupNo).idx) = false from hc]
      rfl
    · rw [show (recComm (v.record w) == some (v.group (Agent.split g k).groupNo).idx) = true from hc]
      simp only [Bool.true_and, decide_eq_true_eq]
      rfl
  · intro w s q a hcoll hagent hissued hwait hstarted habort e
    rw [collStep_open hcoll hagent hissued hwait]
    refine ⟨fun c hat hfirst hfinal => ?_, fun c hat hlater hfinal => ?_, fun k c hk hat => ?_, fun hat hsends => ?_, fun hat hsends => ?_⟩
    · have hready : (if (decide (0 = 0) && q.pos_ (q.owner c) != 0 || decide (0 = 2) && q.pos_ (q.head c) != 0) = true
          then s.arrival e q c 0 else .ready) = .ready := if_neg (by simpa [Coll.owner] using hfirst)
      rw [drive_ready hcoll hagent hstarted habort hat hready rfl hfinal (by decide)]
      rfl
    · have harrival {x : Arrival} (ha : s.arrival e q c 0 = x) : (if (decide (0 = 0) && q.pos_ (q.owner c) != 0 ||
          decide (0 = 2) && q.pos_ (q.head c) != 0) = true then s.arrival e q c 0 else .ready) = x :=
        (if_pos (by simpa [Coll.owner] using hlater)).trans ha
      refine ⟨fun ha => ?_, fun ha => ?_, fun ha => ?_⟩
      · rw [drive_ready hcoll hagent hstarted habort hat (harrival ha) rfl hfinal (by decide)]
        rfl
      · rw [drive_waits hcoll hagent hstarted habort hat (harrival ha) rfl]
      · rw [drive_aborted hcoll hagent hstarted habort hat (harrival ha) rfl]
        rfl
    · rcases hk with rfl | rfl
      · rw [drive_ready hcoll hagent hstarted habort hat (if_neg (by simp)) rfl (by simp [Coll.finals]) (by decide)]
        rfl
      · rw [drive_ready hcoll hagent hstarted habort hat (if_neg (by simp)) rfl (by simp [Coll.finals]) (by decide)]
        rfl
    · rw [drive_done hcoll hagent hstarted habort hat, hsends]
      rfl
    · rw [drive_done hcoll hagent hstarted habort hat, if_neg (fun h => hsends (List.isEmpty_iff.1 h))]
  · intro w reason s q hcoll
    refine ⟨fun hnone hreason => ?_, fun hsome => ?_⟩
    · rw [exec_collAbort]
      simp only [execCollAbort, hcoll, hnone, Option.isNone_none, if_true, if_neg hreason]
    · intro p v again
      have hopen : ¬q.abort.isNone = true := fun hn => by rw [Option.isNone_iff_eq_none.1 hn] at hsome; cases hsome
      rw [exec_collAbort]
      simp only [execCollAbort, hcoll, if_neg hopen]
      refine ⟨fun hphase hsends => (if_pos hphase).trans (if_pos ?_), fun hphase hsends => (if_pos hphase).trans (if_neg ?_),
        fun hphase hheard => (if_neg hphase).trans (if_pos hheard),
        fun hphase hsilent => (if_neg hphase).trans (if_neg (fun hc => Bool.false_ne_true (hsilent.symm.trans hc)))⟩
      · rw [List.isEmpty_eq_false_iff.2 hsends]
        rfl
      · rw [hsends]
        decide
  · intro q c hp hrank
    have howner : q.pos_ (q.owner c) + 1 < q.p ↔ q.rank ≠ q.last c := by
      have hlt : q.pos_ (q.owner c) < q.p := Nat.mod_lt _ hp
      refine Iff.trans ?_ (not_congr (pos_owner_last hrank))
      show _ ↔ ¬(q.pos_ (q.owner c) + 1 = q.p)
      omega
    refine ⟨pos_owner_eq_zero hrank, pos_owner_last hrank, fun hc => ⟨?_, ?_, ?_⟩⟩
    · simp [mem_steps, hc]
    · simp [mem_steps, hc, howner]
    · simp [mem_steps, hc]

end Sys2Proof
end


section
/-!
The merge unit (spec/14_isa_collectives.md R216 to R222, spec/31_errors_engines.md R390).
-/

namespace Sys2Proof

open Sys2Proof.Machine

/-! ### Members -/

section
variable {s u v : State} {ag : Agent} {c : Ctx} {st : StreamNo} {e : Engine} {t : State}

/-- A member that its split performs itself goes on once a slot is free and nothing earlier is in its way. -/
theorem engineHere_go {spans : List (Nat × Nat)} {go : Engine → State → Act} (hslots : u.engineSlots c.a.unit ≠ 0)
    (he : e = { Engine.start c.a (u.ctxOf c.a) (u.wgOf c.a) (.binrst 0) st.toNat (u.stream c.a st.toNat) u.clk with spans := spans })
    (ht : t = u.engineEdge e spans) (hclear : t.engineWaits t.nextId e = false) : engineHere c u st spans go = go e t := by
  subst ht he
  exact (if_neg hslots).trans (if_neg (fun hw => Bool.false_ne_true (hclear.symm.trans hw)))

/-- The record of a merge, read at the issue. -/
theorem bmRecord_go {va : Word} {r : List Byte} {go : State → List Byte → Act} (hslots : u.engineSlots c.a.unit ≠ 0)
    (he : e = { Engine.start c.a (u.ctxOf c.a) (u.wgOf c.a) (.binrst 0) st.toNat (u.stream c.a st.toNat) u.clk with
      spans := [(va.toNat, 64)] })
    (ht : t = u.engineEdge e [(va.toNat, 64)]) (hclear : t.engineWaits t.nextId e = false)
    (hread : t.readFor (u.wgOf c.a) c.a none (u.ctxOf c.a).1 (u.ctxOf c.a).2 va.toNat 64 = .ok v (r, false)) :
    bmRecord c u st va go = go v r := by
  refine (engineHere_go hslots he ht hclear).trans ?_
  subst he
  exact congrArg (fun q => loadFate c t va.toNat q go) hread

/-- Work that meets neither a fault nor an error is performed whole. -/
theorem bmWork_go {spans : List (Nat × Nat)} {work : Engine → State → Work} {go : State → Act} (hslots : u.engineSlots c.a.unit ≠ 0)
    (he : e = { Engine.start c.a (u.ctxOf c.a) (u.wgOf c.a) (.binrst 0) st.toNat (u.stream c.a st.toNat) u.clk with spans := spans })
    (ht : t = u.engineEdge e spans) (hclear : t.engineWaits t.nextId e = false) (hflt : (work e t).flt = none)
    (herr : (work e t).err = none) : bmWork c u st spans work go = go (work e t).s := by
  rcases hctx : u.ctxOf c.a with ⟨vi, asid⟩
  simp only [bmWork, hctx]
  rw [engineHere_go hslots he ht hclear]
  simp only [hflt, herr]

/-- The answers of the unit, from the pair that it gives. -/
theorem openAnswer_eq (c : Ctx) (d : SReg) (p : State × Word) : (match p with
    | (t, x) => bmAnswer c t [(d, x)]) = .jump ((p.1.waitIn c.a c.next (.answer (p.1.clk + 1 + p.1.delay) [(d, p.2)])).spend) c.pc := rfl
theorem closeAnswer_eq (c : Ctx) (d : SReg) (p : State × Word) : (match p with
    | (t, x) => Act.done (t.spend.sset c.a d.toNat x)) = .done (p.1.spend.sset c.a d.toNat p.2) := rfl

end

/-! ### Commits -/

section
variable {s : State} {die : Fin 4}

theorem commitAll_idle (h : (s.die die).ready = []) (f : Nat) : s.commitAll die (f + 1) = s := by
  simp only [State.commitAll, h, List.filterMap_nil, List.foldl_nil]

variable {x : Ready} {v : State} {r : List Byte} {bad : Bool} (h : (s.die die).ready = [x])
  (hread : s.readHome x.vi x.asid x.va.toNat 64 = .ok v (r, bad))
include h hread

/-- The one contributor that waits is not at its merge's NEXT, or its record is broken. -/
theorem commitAll_waits (hno : mrNext r ≠ x.index ∨ mergeOk x.va.toNat r = false) (f : Nat) : s.commitAll die (f + 1) = s := by
  have hnot : ¬(decide (mrNext r = x.index) && mergeOk x.va.toNat r) = true := by
    rcases hno with hne | hbroken
    · simp [hne]
    · simp [hbroken]
  simp only [State.commitAll, h, hread, List.filterMap_cons, List.filterMap_nil, List.foldl_cons, List.foldl_nil, if_neg hnot]

theorem commitAll_one (hnext : mrNext r = x.index) (hok : mergeOk x.va.toNat r = true) {t : State}
    (hcommit : s.commitOne die x r = (t, none)) (hlast : (t.die die).ready = []) (f : Nat) : s.commitAll die (f + 2) = t := by
  have hyes : (decide (mrNext r = x.index) && mergeOk x.va.toNat r) = true := by simp [hnext, hok]
  rw [State.commitAll]
  simp only [h, hread, List.filterMap_cons, List.filterMap_nil, if_pos hyes, hcommit, hlast]
  exact commitAll_idle hlast f

end

/-! ### Slots -/

section
variable {s : State} {a : Agent} {va : Word} {r : List Byte} {i : Nat}

/-- BMOPEN of a contributor within a record that keeps R216, on a die with slots. -/
theorem mergeOpen_pending (hok : mergeOk va.toNat r = true) (hi : i < mrCont r) (hslots : (s.die (mrDie r)).nslot ≠ 0)
    (hpending : s.contrib (s.ctxOf a).1 (s.ctxOf a).2 va r i = .pending) :
    s.mergeOpen a va r i = match (s.die (mrDie r)).freeSlots with
      | [] => (s, (1 : Word) <<< 63)
      | j :: rest =>
        if i = mrNext r || rest != [] || (s.slotOf (mrDie r) (s.ctxOf a).1 (s.ctxOf a).2 va (mrNext r)).isSome
        then (s.setSlot (mrDie r) j (newSlot (s.ctxOf a).1 (s.ctxOf a).2 va i), slotHandle (mrDie r) j) else (s, (1 : Word) <<< 63) := by
  have hrange : ¬(decide ((s.die (mrDie r)).nslot = 0) || decide (mrCont r ≤ i)) = true := by
    simp [hslots, Nat.not_le.2 hi]
  unfold State.mergeOpen
  simp only [hok, Bool.not_true, Bool.false_eq_true, if_false, if_neg hrange, hpending] <;> rfl

/-- A die without slots has none free. -/
theorem nslot_ne_zero_of_free {d : Die} {j : Nat} {rest : List Nat} (h : d.freeSlots = j :: rest) : d.nslot ≠ 0 := by
  intro hzero
  rw [Die.freeSlots, hzero] at h
  cases h

/-- BMCLOSE in the same case, by where the contributor stands. -/
theorem mergeClose_eq (hok : mergeOk va.toNat r = true) (hi : i < mrCont r) (ab : Bool) :
    (s.contrib (s.ctxOf a).1 (s.ctxOf a).2 va r i = .pending → (s.mergeClose a va r i ab).2 = if ab then 0 else 1) ∧
    (∀ j, s.contrib (s.ctxOf a).1 (s.ctxOf a).2 va r i = .opened j →
      (s.mergeClose a va r i ab).2 = 0 ∧ (s.mergeClose a va r i ab).1.mem = s.mem) ∧
    (s.contrib (s.ctxOf a).1 (s.ctxOf a).2 va r i = .closed ∨ s.contrib (s.ctxOf a).1 (s.ctxOf a).2 va r i = .committed →
      s.mergeClose a va r i ab = (s.mergeReport (mrDie r) (s.ctxOf a).1 (s.ctxOf a).2 0x63 va (s.joined a), 2)) := by
  unfold State.mergeClose
  simp only [hok, Bool.not_true, Bool.false_eq_true, if_false, if_neg (Nat.not_le.2 hi)]
  refine ⟨fun h => ?_, fun j h => ?_, fun h => ?_⟩
  · rw [h]
    cases ab <;> rfl
  · rw [h]
    cases ab
    all_goals
      refine ⟨rfl, ?_⟩
      simp only [Bool.false_eq_true, if_false, if_true]
      split <;> rfl
  · rcases h with h | h <;> rw [h]

end

/-- Settles O36. -/
theorem merges : Obligations.Merges := by
  refine ⟨⟨?_, ?_, ?_, ?_, ?_⟩, ?_⟩
  · intro d a b st s ag c u v r hslots va e t hclear hread pc x
    refine ⟨fun h => ?_, fun h hstages => ?_, fun h => ?_⟩
    · obtain rfl : c.a = ag := opens_agent h
      have hnext : c.next = pc + 4 := opens_next h
      refine jump_of h exec_bmopen ((bmRecord_go hslots rfl rfl hclear hread).trans (openAnswer_eq c d (v.mergeOpen c.a va r x))) (opens_pc h) ?_
      rw [hnext]
    · obtain rfl : c.a = ag := opens_agent h
      intro z
      have hstaging : (match v.slotOf (mrDie r) (u.ctxOf c.a).1 (u.ctxOf c.a).2 va x with
          | some (j, _) => v.stagesOf c.a (mrDie r) j
          | none => false) = false := by
        split
        · next j y hslot => exact hstages j y hslot
        · rfl
      exact done_of h exec_bmclose ((bmRecord_go hslots rfl rfl hclear hread).trans
        ((if_neg (fun hc => Bool.false_ne_true (hstaging.symm.trans hc))).trans (closeAnswer_eq c d z))) rfl rfl
    · obtain rfl : c.a = ag := opens_agent h
      exact done_of h exec_bmstat (bmRecord_go hslots rfl rfl hclear hread) rfl rfl
  · intro d a n st s ag c u h hslots
    exact (fork_open (f := fun c s => (fun _ => 4096, .stage (c.get s a.toNat) (s.tget c.a d.toNat))) h rfl rfl).1 hslots |>.trans
      (by rw [opens_agent h])
  · intro d m b st s ag c u h hslots ws runs e t hclear g hflt herr limit sq scale
    obtain rfl : c.a = ag := opens_agent h
    have hnext : c.next = (s.strand c.a).pc + 4 := opens_next h
    refine jump_of h exec_bmnorm ((bmWork_go hslots rfl rfl hclear hflt herr).trans rfl) (opens_pc h) ?_
    rw [hnext]
  · intro d a b st s ag c u h hslots dst src runs e t hclear g hflt herr
    obtain rfl : c.a = ag := opens_agent h
    have hnext : c.next = (s.strand c.a).pc + 4 := opens_next h
    refine jump_of h exec_bmadd ((bmWork_go (work := fun e s => addWork e dst src ((c.get u b.toNat).toNat % 2 ^ 32) s) hslots rfl rfl hclear hflt herr).trans rfl) (opens_pc h) ?_
    rw [hnext]
  · intro die s
    refine ⟨fun h => ?_, fun x v r bad h hread => ⟨fun hno => ?_, fun t hnext hok hcommit hlast => ?_⟩⟩
    · exact congrArg Host.Outcome.next (commitAll_idle h _)
    · exact congrArg Host.Outcome.next (commitAll_waits h hread hno _)
    · have hall : s.commitAll die ((s.die die).ready.length + 1) = t := by
        rw [h]
        exact commitAll_one h hread hnext hok hcommit hlast 0
      exact congrArg Host.Outcome.next hall
  · intro s a va r i hok hi x die free
    refine ⟨fun hpending => ⟨fun j rest hfree hgrant => ?_, fun j hfree hne hnone => ?_, fun hfree hslots => ?_, ?_, ?_⟩, fun j hopen => ?_,
      fun hdone ab => ?_⟩
    · rw [mergeOpen_pending hok hi (nslot_ne_zero_of_free hfree) hpending]
      simp only [show (s.die (mrDie r)).freeSlots = j :: rest from hfree]
      refine if_pos ?_
      simpa [or_assoc] using hgrant
    · rw [mergeOpen_pending hok hi (nslot_ne_zero_of_free hfree) hpending]
      simp only [show (s.die (mrDie r)).freeSlots = [j] from hfree]
      refine if_neg ?_
      simp [hne, show s.slotOf (mrDie r) (s.ctxOf a).1 (s.ctxOf a).2 va (mrNext r) = none from hnone]
    · rw [mergeOpen_pending hok hi hslots hpending]
      simp only [show (s.die (mrDie r)).freeSlots = [] from hfree]
      rfl
    · exact (mergeClose_eq hok hi false).1 hpending
    · exact (mergeClose_eq hok hi true).1 hpending
    · obtain ⟨hstatus, hmem⟩ := (mergeClose_eq hok hi false).2.1 j hopen
      exact ⟨hstatus, ((mergeClose_eq hok hi true).2.1 j hopen).1, hmem⟩
    · rw [(mergeClose_eq hok hi ab).2.2 hdone]
      exact ⟨rfl, rfl⟩

end Sys2Proof
end


section
/-!
Missing lines and the completion of accesses (spec/05_memory.md R85, R89, spec/20_vm.md R290 to R294, R298, spec/11_isa_memory.md R156,
R161, R163).
-/

namespace Sys2Proof

open Sys2Proof.Machine

theorem not_of_eq_false {b : Bool} (h : b = false) : ¬b = true := by
  subst h
  exact Bool.false_ne_true

/-! ### Requests -/

section
variable {id : Nat} {r : Request} {s : State} (hreq : tabFind s.requests id = some r)
include hreq

/-- TRANSLATE of a request whose page's translation the station does not hold. -/
theorem translate_missing (hmiss : s.tlbFind r.vi r.asid r.line = none) :
    (∀ p, (s.requests.filter (fun p => p.2.walk == some p.1)).find? (fun p => s.pageOf p.2 == s.pageOf r) = some p →
      exec (.translate id) s = .next { s with requests := tabPut s.requests id { r with walk := some p.1 } }) ∧
    ((s.requests.filter (fun p => p.2.walk == some p.1)).find? (fun p => s.pageOf p.2 == s.pageOf r) = none → exec (.translate id) s =
      if 16 ≤ ((s.requests.filter (fun p => p.2.walk == some p.1)).filter (fun p => (s.pageOf p.2).1 == (s.pageOf r).1)).length
      then .next (s.inClk 1 (.translate id))
      else .next (({ s with requests := tabPut s.requests id { r with walk := some id } } : State).later 1 (.walkComplete id))) := by
  rw [exec_translate]
  simp only [execTranslate, hreq, hmiss]
  refine ⟨fun p hp => ?_, fun hnone => ?_⟩
  · rw [hp]
  · rw [hnone]

theorem translate_held {t : Tlb} (hheld : s.tlbFind r.vi r.asid r.line = some t) :
    exec (.translate id) s = .next ((s.tlbTouch r.vi r.asid r.line).translated id r t) := by
  rw [exec_translate]
  simp only [execTranslate, hreq, hheld]

/-- WALK_COMPLETE waits while a hop of its walk lies on a die where the interface is at its ceiling. -/
theorem walkComplete_open : exec (.walkComplete id) s =
    if (s.hops r.vi r.asid r.line).any (fun h => match h.pa with
      | some pa => hasMemory pa && s.atCeiling r.vi (pa / 0x200000000 / 12)
      | none => false) = true then .next (s.nextWindow (.walkComplete id))
    else match s.translate r.vi r.asid r.line with
      | .ok v t => .next (((s.requests.filter (fun p => p.2.walk == some id)).map (·.1)).foldl (fun s i => s.walkAnswer (some t) i) v)
      | .fault v _ _ => .next (((s.requests.filter (fun p => p.2.walk == some id)).map (·.1)).foldl (fun s i => s.walkAnswer none i) v)
      | .bad v => .next (((s.requests.filter (fun p => p.2.walk == some id)).map (·.1)).foldl (fun s i => s.walkAnswer none i) v) := by
  rw [exec_walkComplete]
  simp only [execWalkComplete, hreq] <;> rfl

variable {t : Tlb} (htlb : r.tlb = some t) (g : GddrReport)
include htlb

theorem l2Fill_present (h : (s.l2 (lineKey t.asid r.line)).isSome = true) : exec (.l2Fill id g) s = .next (s.endRequest id true) := by
  rw [exec_l2Fill]
  simp only [execL2Fill, hreq, htlb, if_pos h]

variable (habsent : s.l2 (lineKey t.asid r.line) = none)
include habsent

theorem l2Fill_ceiling (h : s.atCeiling r.vi (t.at r.line / 0x200000000 / 12) = true) :
    exec (.l2Fill id g) s = .next (s.nextWindow (.l2Fill id g)) := by
  rw [exec_l2Fill]
  simp only [execL2Fill, hreq, htlb, habsent, Option.isSome_none, Bool.false_eq_true, if_false, if_pos h]

variable (hroom : s.atCeiling r.vi (t.at r.line / 0x200000000 / 12) = false)
include hroom

theorem l2Fill_refused (h : s.fill r.vi r.line t = none) : exec (.l2Fill id g) s = .next (s.endRequest id false) := by
  rw [exec_l2Fill]
  simp only [execL2Fill, hreq, htlb, habsent, Option.isSome_none, Bool.false_eq_true, if_false, hroom, h]

theorem l2Fill_filled {v : State} (h : s.fill r.vi r.line t = some v) : exec (.l2Fill id .none) s = .next (v.endRequest id true) := by
  rw [exec_l2Fill]
  simp only [execL2Fill, hreq, htlb, habsent, Option.isSome_none, Bool.false_eq_true, if_false, hroom, h, State.burst]

end

/-! ### Fetches -/

theorem fetches_block (s : State) (a : Agent) (w : Cause) : (s.block a w).fetches = s.fetches := by
  cases a <;> rfl

theorem upset_none (s : State) (p : Place) (va : Nat) (ctx : BitVec 8 × BitVec 16) (name : List Byte) :
    s.upset p va ctx name .none = s := by
  unfold State.upset
  cases p.addr
  rfl

/-! ### Accesses -/

section
variable {id : Nat} {p : Upset} {s v : State} {x : Access} (hfind : tabFind s.accesses id = some x) (hv : v = s.upsetFor x p)
include hfind hv

/-- LOAD_COMPLETE of a load or atomic. -/
theorem loadComplete_orphan (hwhat : x.what = 0 ∨ x.what = 2) (horphan : v.orphan x = true) {w : State}
    (hw : w = if x.what = 2 then (v.performOne id).1 else v) :
    exec (.loadComplete id p) s = .next { w with accesses := tabDel w.accesses id } := by
  have hload : ¬(x.what != 0 && x.what != 2) = true := by rcases hwhat with h | h <;> simp [h]
  rw [exec_loadComplete]
  simp only [execLoadComplete, hfind, if_neg hload, ← hv, if_pos horphan, ← hw]

theorem loadComplete_owned (hwhat : x.what = 0 ∨ x.what = 2) (hown : v.orphan x = false) {w : State}
    (hw : w = if v.mustWait id x then v.flush x.agent id else v) :
    ((w.mustWait id x || w.releaseWaits x || w.releaseHeld x) = true →
      exec (.loadComplete id p) s = .next (w.inClk 1 (.loadComplete id .none))) ∧
    ((w.mustWait id x || w.releaseWaits x || w.releaseHeld x) = false → ∀ y, tabFind w.accesses id = some y →
      (∀ va, w.missing y = some va → exec (.loadComplete id p) s = .next (w.bring id x va)) ∧
      (w.missing y = none → exec (.loadComplete id p) s = .next (w.finishLoad id))) := by
  have hload : ¬(x.what != 0 && x.what != 2) = true := by rcases hwhat with h | h <;> simp [h]
  rw [exec_loadComplete]
  simp only [execLoadComplete, hfind, if_neg hload, ← hv, if_neg (not_of_eq_false hown), ← hw]
  refine ⟨fun h => if_pos h, fun h y hy => ⟨fun va hva => ?_, fun hnone => ?_⟩⟩
  · simp only [if_neg (not_of_eq_false h), hy, Option.getD_some, hva]
  · simp only [if_neg (not_of_eq_false h), hy, Option.getD_some, hnone]

/-- STORE_PERFORMED of a store. -/
theorem storePerformed_store (hwhat : x.what = 1) {w : State} (hw : w = if v.mustWait id x then v.flush x.agent id else v) :
    (tabFind w.accesses id = none → exec (.storePerformed id p) s = .next w) ∧
    ∀ y, tabFind w.accesses id = some y →
      ((w.mustWait id y || w.releaseWaits y) = true → exec (.storePerformed id p) s = .next (w.inClk 1 (.storePerformed id .none))) ∧
      ((w.mustWait id y || w.releaseWaits y) = false → y.via = false → exec (.storePerformed id p) s =
        .next (match w.missing x with
          | some va => w.bring id x va
          | none => w.finishStore id)) := by
  have hstore : ¬(x.what != 1 && x.what != 4) = true := by simp [hwhat]
  have hnot : ¬x.what = 4 := by simp [hwhat]
  rw [exec_storePerformed]
  simp only [execStorePerformed, hfind, if_neg hstore, if_neg hnot, ← hv, ← hw]
  refine ⟨fun h => ?_, fun y hy => ⟨fun h => ?_, fun h hvia => ?_⟩⟩
  · simp only [h]
  · simp only [hy, if_pos h]
  · simp only [hy, if_neg (not_of_eq_false h), if_neg (not_of_eq_false hvia)] <;> rfl

theorem storePerformed_back (hwhat : x.what = 4) : exec (.storePerformed id p) s =
    .next (match v.missing x with
      | some va => v.bring id x va
      | none => v.finishStore id) := by
  have hstore : ¬(x.what != 1 && x.what != 4) = true := by simp [hwhat]
  rw [exec_storePerformed]
  simp only [execStorePerformed, hfind, if_neg hstore, if_pos hwhat, ← hv] <;> rfl

end

/-- What a load or atomic that has its lines comes to. -/
theorem finishLoad_trap {w q : State} {id : Nat} {y : Access} (hy : tabFind w.accesses id = some y)
    (hq : q = { w with accesses := tabMod w.accesses id (fun x => { x with token := none }) }) {code : BitVec 8} {va : Nat}
    (htrap : q.lateTrap y = some (code, va)) : w.finishLoad id =
      (if code = 0x06 then q.malformedAt y.agent y.vi y.asid va else q).trapLoad id y code va := by
  simp only [State.finishLoad, hy, ← hq, htrap]

theorem finishLoad_done {w q z : State} {id : Nat} {y got : Access} (hy : tabFind w.accesses id = some y)
    (hq : q = { w with accesses := tabMod w.accesses id (fun x => { x with token := none }) }) (hclear : q.lateTrap y = none)
    (hperform : (q.performOne id).2 = none) (hz : z = (q.performOne id).1) (hgot : tabFind z.accesses id = some got) :
    w.finishLoad id = z.endLoad id got := by
  have hpair : q.performOne id = (z, none) := Prod.ext hz.symm hperform
  simp only [State.finishLoad, hy, ← hq, hclear, hpair, hgot, Option.getD_some]

/-- Settles O37: each step is evaluated guard by guard, through the equations of its stages above. -/
theorem memorySteps : Obligations.MemorySteps := by
  refine ⟨⟨?_, ?_, ?_⟩, ?_, ?_⟩
  · intro id r s hreq through walks answer mine
    have hceiling : ((s.hops r.vi r.asid r.line).any (fun h => match h.pa with
        | some pa => hasMemory pa && s.atCeiling r.vi (pa / 0x200000000 / 12)
        | none => false)) = true ↔
        ∃ h ∈ s.hops r.vi r.asid r.line, ∃ pa, h.pa = some pa ∧ hasMemory pa = true ∧ s.atCeiling r.vi (pa / 0x200000000 / 12) = true := by
      rw [List.any_eq_true]
      refine exists_congr (fun h => and_congr_right (fun _ => ?_))
      cases h.pa <;> simp
    refine ⟨fun t hheld => translate_held hreq hheld, fun hmiss => ?_, fun hbelow => ?_, fun habove => ?_, fun t htlb hpresent g => ?_,
      fun t v htlb habsent hroom hfill => ?_, fun t g htlb habsent hfull => ?_, fun t g htlb habsent hroom hfill => ?_⟩
    · obtain ⟨hjoin, halone⟩ := translate_missing hreq hmiss
      exact ⟨fun n q hwalk => hjoin (n, q) hwalk, fun hnone => ⟨fun hmany => (halone hnone).trans (if_pos hmany),
        fun hfew => (halone hnone).trans (if_neg (Nat.not_le.2 hfew))⟩⟩
    · have hopen := (walkComplete_open hreq).trans (if_neg (fun hc => by
        obtain ⟨h, hh, pa, hpa, hmem, hat⟩ := hceiling.1 hc
        rw [hbelow h hh pa hpa hmem] at hat
        cases hat))
      refine ⟨fun v t hok => ?_, fun v st i hfault => ?_, fun v hbad => ?_⟩
      · rw [hopen, hok]
        rfl
      · rw [hopen, hfault]
        rfl
      · rw [hopen, hbad]
        rfl
    · exact (walkComplete_open hreq).trans (if_pos (hceiling.2 habove))
    · exact l2Fill_present hreq htlb g hpresent
    · exact l2Fill_filled hreq htlb habsent hroom hfill
    · exact l2Fill_ceiling hreq htlb g habsent hfull
    · exact l2Fill_refused hreq htlb g habsent hroom hfill
  · intro va s a hcur hnone v f
    rw [exec_fetchMiss]
    rcases hctx : s.ctxOf a with ⟨vi, asid⟩
    have hnofind : ∀ q, (s.block a .fetch).fetches.find? q = none := by
      intro q
      rw [fetches_block, hnone, List.find?_nil]
    simp only [execFetchMiss, hcur, hctx, hnofind, v, f]
  · intro id f s hfind key
    rw [exec_fetchFill]
    simp only [execFetchFill, hfind, upset_none]
    exact ⟨fun hheld => if_neg (by simpa [key] using Option.isSome_iff_ne_none.1 hheld), fun habsent => if_pos (by simp only [key] at habsent; rw [habsent]; rfl)⟩
  · intro id p s x hfind hwhat v
    refine ⟨fun horphan => loadComplete_orphan hfind rfl hwhat horphan rfl, fun hown => ?_⟩
    intro w stays
    obtain ⟨hstays, hgoes⟩ := loadComplete_owned hfind (v := v) rfl hwhat hown (w := w) rfl
    refine ⟨hstays, fun hclear y hy => ⟨(hgoes hclear y hy).1, fun hhere => ?_⟩⟩
    intro q
    refine ⟨fun hquiet hperform => ?_, fun code va htrap => ?_⟩
    · intro z got hgot
      rw [(hgoes hclear y hy).2 hhere, finishLoad_done hy rfl hquiet hperform rfl hgot]
      rfl
    · rw [(hgoes hclear y hy).2 hhere, finishLoad_trap hy rfl htrap]
  · intro id p s x hfind v home
    refine ⟨fun hwhat => ?_, fun hwhat => ?_⟩
    · refine (storePerformed_back hfind (v := v) rfl hwhat).trans (congrArg Host.Outcome.next ?_)
      dsimp only [home]
      cases v.missing x <;> rfl
    · intro w
      obtain ⟨hgone, hthere⟩ := storePerformed_store hfind (v := v) rfl hwhat (w := w) rfl
      refine ⟨hgone, fun y hy => ⟨(hthere y hy).1, fun hclear hvia => ((hthere y hy).2 hclear hvia).trans (congrArg Host.Outcome.next ?_)⟩⟩
      dsimp only [home]
      cases w.missing x <;> rfl

end Sys2Proof
end

section
/-! # Draw windows, accounts and the clk

The end of a draw window runs over the four layers of a cluster one by one (`layerEnd`); each turn changes its own core and no
other, so the four cores are read off one by one (`foldl_layerEnd`). A clk that ends with no pre-emption and no halt pending
changes nothing of the machine but the clk, the marks of issue, and the steps and turns of the next (`nextClk_quiet`). -/
namespace Sys2Proof
open Sys2Proof.Machine

/-! ### Sorted lists and folds -/

theorem mem_insertBy {α : Type} {f : α → α → Bool} {x y : α} {l : List α} : y ∈ insertBy f x l ↔ y = x ∨ y ∈ l := by
  induction l with
  | nil => simp [insertBy]
  | cons z r ih =>
    unfold insertBy
    split
    · simp
    · simp [ih, or_left_comm]

theorem mem_foldl_insertBy {α : Type} {f : α → α → Bool} {y : α} (l acc : List α) :
    y ∈ l.foldl (fun acc x => insertBy f x acc) acc ↔ y ∈ l ∨ y ∈ acc := by
  induction l generalizing acc with
  | nil => simp
  | cons x r ih => simp [ih, mem_insertBy, or_assoc, or_left_comm]

@[simp] theorem mem_sortBy {α : Type} {f : α → α → Bool} {y : α} {l : List α} : y ∈ sortBy f l ↔ y ∈ l := by
  simp [sortBy, mem_foldl_insertBy]

theorem foldl_fixed_of_mem {α β : Type} {f : α → β → α} {a : α} {l : List β} (h : ∀ b ∈ l, f a b = a) : l.foldl f a = a := by
  induction l with
  | nil => rfl
  | cons b r ih => rw [List.foldl_cons, h b List.mem_cons_self, ih (fun x hx => h x (List.mem_cons_of_mem b hx))]

theorem isSome_tabFind_of_mem {α : Type} {t : Tab α} {p : Nat × α} (h : p ∈ t) : (tabFind t p.1).isSome = true := by
  induction t with
  | nil => cases h
  | cons q r ih =>
    unfold tabFind
    split
    · rfl
    · rcases List.mem_cons.1 h with rfl | hr
      · contradiction
      · exact ih hr

/-! ### Draw windows -/

theorem getLsbD_append_high {n m : Nat} (x : BitVec n) (y : BitVec m) (i : Nat) : (x ++ y).getLsbD (m + i) = x.getLsbD i := by
  simp [BitVec.getLsbD_append]

theorem extractLsb'_append_low {n m : Nat} (x : BitVec n) (y : BitVec m) : (x ++ y).extractLsb' 0 m = y := by
  ext i hi
  simp [BitVec.getLsbD_append, hi]

theorem extractLsb'_append_high {n m : Nat} (x : BitVec n) (y : BitVec m) (lo k : Nat) :
    (x ++ y).extractLsb' (m + lo) k = x.extractLsb' lo k := by
  ext i hi
  simp [Nat.add_assoc, getLsbD_append_high]

section
variable (thr shn : Bool) (mean d : Nat) (m : Int)

theorem misWord_m : (misWord thr shn mean d m).extractLsb' 0 16 = BitVec.ofInt 16 m :=
  extractLsb'_append_low (n := 48) (m := 16) _ _
theorem misWord_d : (misWord thr shn mean d m).extractLsb' 16 16 = BitVec.ofNat 16 d :=
  (extractLsb'_append_high (n := 48) (m := 16) _ _ 0 16).trans (extractLsb'_append_low (n := 32) (m := 16) _ _)
theorem misWord_mean : (misWord thr shn mean d m).extractLsb' 32 16 = BitVec.ofNat 16 mean :=
  (extractLsb'_append_high (n := 48) (m := 16) _ _ 16 16).trans ((extractLsb'_append_high (n := 32) (m := 16) _ _ 0 16).trans
    (extractLsb'_append_low (n := 16) (m := 16) _ _))
theorem misWord_marks {i : Nat} : (misWord thr shn mean d m).getLsbD (16 + (16 + (16 + i))) =
    ((0 : BitVec 14) ++ (if thr then 1#1 else 0#1) ++ (if shn then 1#1 else 0#1) : BitVec 16).getLsbD i :=
  (getLsbD_append_high (n := 48) (m := 16) _ _ _).trans ((getLsbD_append_high (n := 32) (m := 16) _ _ _).trans
    (getLsbD_append_high (n := 16) (m := 16) _ _ _))
theorem misWord_shn : (misWord thr shn mean d m).getLsbD 48 = shn := by
  rw [misWord_marks (i := 0)]
  cases thr <;> cases shn <;> rfl
theorem misWord_thr : (misWord thr shn mean d m).getLsbD 49 = thr := by
  rw [misWord_marks (i := 1)]
  cases thr <;> cases shn <;> rfl

end

/-- What the end of a window leaves of the core of layer `l`, whose power asks for `power` throttled windows. -/
def layerCore (ls : List LayerDraw) (throttle : Int) (l power : Nat) (k : Core) : Core :=
  let thr := decide (throttle < windowM ls l) || power != 0
  let shn := match ls[l]? with
    | some x => x.changed (meanOf (ls.map LayerDraw.raw))
    | none => false
  { k with
    mis := misWord thr shn (meanOf (windowD ls)) ((windowD ls).getD l 0) (windowM ls l)
    throttled := thr
    power := k.power - 1
    draw := k.drawNext
    drawNext := 0
    burned := 0
    autobal := 0
    shunt := 0
    ended := (k.ended.filter (fun e => e.next != 0)).map (fun e => { e with draw := e.next, next := 0 }) }

/-- The end of a window at one layer of cluster `c`. -/
def layerEnd (c : Nat) (ls : List LayerDraw) (throttle : Int) (s : State) (l : Nat) : State :=
  let s := s.modCore (4 * c + l) (layerCore ls throttle l (s.core (4 * c + l)).power)
  { s with groups := tabMap s.groups (fun g x => if g / 32 = 4 * c + l then
      { x with splits := tabMap x.splits (fun _ y => { y with draw := y.drawNext, drawNext := 0 }) } else x) }

section
variable (c : Nat) (ls : List LayerDraw) (throttle : Int)

theorem core_layerEnd_self (s : State) (l : Nat) :
    (layerEnd c ls throttle s l).core (4 * c + l) = layerCore ls throttle l (s.core (4 * c + l)).power (s.core (4 * c + l)) :=
  core_modCore_self _ _ _

theorem core_layerEnd_other (s : State) {l m : Nat} (h : m ≠ l) :
    (layerEnd c ls throttle s l).core (4 * c + m) = s.core (4 * c + m) :=
  core_modCore_other _ _ (fun hc => h (Nat.add_left_cancel hc))

theorem foldl_layerEnd_keeps (s : State) (layers : List Nat) :
    (layers.foldl (layerEnd c ls throttle) s).mem = s.mem ∧ (layers.foldl (layerEnd c ls throttle) s).clusters = s.clusters ∧
      (layers.foldl (layerEnd c ls throttle) s).clk = s.clk := by
  induction layers generalizing s with
  | nil => exact ⟨rfl, rfl, rfl⟩
  | cons l r ih => exact ih (layerEnd c ls throttle s l)

theorem core_foldl_layerEnd_notMem (s : State) {layers : List Nat} {m : Nat} (h : m ∉ layers) :
    (layers.foldl (layerEnd c ls throttle) s).core (4 * c + m) = s.core (4 * c + m) := by
  induction layers generalizing s with
  | nil => rfl
  | cons l r ih =>
    obtain ⟨hl, hr⟩ := not_or.1 (mt List.mem_cons.2 h)
    exact (ih _ hr).trans (core_layerEnd_other c ls throttle s hl)

theorem core_foldl_layerEnd (s : State) {layers : List Nat} (hnodup : layers.Nodup) {m : Nat} (h : m ∈ layers) :
    (layers.foldl (layerEnd c ls throttle) s).core (4 * c + m) = layerCore ls throttle m (s.core (4 * c + m)).power (s.core (4 * c + m)) := by
  induction layers generalizing s with
  | nil => cases h
  | cons l r ih =>
    obtain ⟨hl, hr⟩ := List.nodup_cons.1 hnodup
    rcases List.mem_cons.1 h with rfl | hm
    · exact (core_foldl_layerEnd_notMem c ls throttle _ hl).trans (core_layerEnd_self c ls throttle s m)
    · have hne : m ≠ l := fun e => hl (e ▸ hm)
      rw [List.foldl_cons, ih _ hr hm, core_layerEnd_other c ls throttle s hne]

end

theorem worstLayer_lt (ls : List LayerDraw) : worstLayer ls < 4 := by
  simp only [worstLayer, List.foldl_cons, List.foldl_nil]
  split_ifs <;> decide

/-- A window in which no layer is above the trap threshold. -/
theorem windowEvaluation_quiet {c : Nat} {s : State} (h : ∀ l < 4, windowM (s.layers c) l ≤ bits (s.cluster c).stkcfg.toNat 16 16) :
    exec (.windowEvaluation c) s = .next (((List.range 4).foldl
      (layerEnd c (s.layers c) (bits (s.cluster c).stkcfg.toNat 0 16)) s).modCluster c (fun x => { x with
        mean := meanOf (windowD (s.layers c)), granted := 0, budget := bits x.stkcfg.toNat 48 16 })) := by
  have hlow := Int.not_lt.2 (h _ (worstLayer_lt (s.layers c)))
  exact congrArg (fun u : State => Host.Outcome.next (((List.range 4).foldl
    (layerEnd c (s.layers c) (bits (s.cluster c).stkcfg.toNat 0 16)) u).modCluster c (fun x => { x with
      mean := meanOf (windowD (s.layers c)), granted := 0, budget := bits x.stkcfg.toNat 48 16 }))) (if_neg hlow)

theorem meanOf_range_four (f : Nat → Nat) : meanOf ((List.range 4).map f) = (f 0 + f 1 + f 2 + f 3) / 4 := by
  show (f 0 + (f 1 + (f 2 + (f 3 + 0)))) / 4 = _
  simp only [Nat.add_zero, Nat.add_assoc]

/-! ### The next clk -/

/-- The next clk before its steps and turns are made out. -/
def tick (s : State) : State := { s with
  clk := s.clk + 1
  cores := tabMap s.cores (fun _ k => { k with unit := { k.unit with issued := false } })
  clusters := tabMap s.clusters (fun _ k => { k with unit := { k.unit with issued := false } }) }

theorem nextClk_eq (s : State) : s.nextClk =
    { (tick s).closeLeft.leaveNow with
      due := (tick s).closeLeft.leaveNow.due ++ (tick s).closeLeft.leaveNow.clkSteps
      agenda := (tick s).closeLeft.leaveNow.agenda.filter (fun p => decide ((tick s).closeLeft.leaveNow.clk < p.1))
      turn := ((tick s).closeLeft.leaveNow.busyUnits.filter (fun u => decide (384 ≤ u)) ++
        (tick s).closeLeft.leaveNow.busyUnits.filter (fun u => decide (u < 384))).flatMap (tick s).closeLeft.leaveNow.turnOf } := rfl

theorem unit_tick_issued (s : State) (u : Nat) : ((tick s).unit u).issued = false := by
  by_cases hu : u < 384
  · simp only [State.unit, if_pos hu, State.core, tick, tabGet, tabFind_tabMap]
    cases tabFind s.cores u <;> rfl
  · simp only [State.unit, if_neg hu, State.cluster, tick, tabGet, tabFind_tabMap]
    cases tabFind s.clusters (u - 384) <;> rfl

theorem unit_tick_banks (s : State) {c : Nat} (h : (tabFind s.clusters c).isSome = true) :
    ((tick s).unit (384 + c)).banks = (s.unit (384 + c)).banks := by
  have hu : ¬384 + c < 384 := by omega
  have hc : 384 + c - 384 = c := by omega
  obtain ⟨k, hk⟩ := Option.isSome_iff_exists.1 h
  simp only [State.unit, if_neg hu, State.cluster, tick, tabGet, tabFind_tabMap, hc, hk, Option.map_some, Option.getD_some]

/-- Each bank of a control thread that stands is that of the context the thread is in. -/
def BanksHeld (s : State) : Prop := ∀ c ∈ s.clusters, ∀ i < 2, ∀ b, tabFind (s.unit (384 + c.1)).banks (1 + i) = some b →
  (s.thread (2 * c.1 + i)).ctx = some (b.vi, b.asid)

section
variable {s : State}

theorem closeLeft_tick (h : BanksHeld s) : (tick s).closeLeft = (tick s) := by
  refine foldl_fixed_of_mem (fun t ht => ?_)
  obtain ⟨p, hp, ht⟩ := List.mem_flatMap.1 ht
  obtain ⟨c, hc, hpc⟩ : ∃ c ∈ s.clusters, c.1 = p.1 := by
    obtain ⟨c, hc, rfl⟩ := List.mem_map.1 hp
    exact ⟨c, hc, rfl⟩
  obtain ⟨i, hi, rfl⟩ : ∃ i < 2, t = 2 * c.1 + i := by
    rw [hpc]
    simp only [List.mem_cons, List.not_mem_nil, or_false] at ht
    rcases ht with rfl | rfl
    · exact ⟨0, by decide, rfl⟩
    · exact ⟨1, by decide, rfl⟩
  have hdiv : (2 * c.1 + i) / 2 = c.1 := by omega
  have hmod : (2 * c.1 + i) % 2 = i := by omega
  rw [hdiv, hmod, unit_tick_banks s (isSome_tabFind_of_mem hc)]
  cases hb : tabFind (s.unit (384 + c.1)).banks (1 + i) with
  | none => rfl
  | some b => exact if_pos (h c hc i hi b hb)

theorem leaveNow_tick (hcalm : (s.wgs.all (fun p => !p.2.preempt) && s.threads.all (fun p => !p.2.halt)) = true) :
    (tick s).leaveNow = (tick s) := by
  obtain ⟨hwgs, hthreads⟩ := Bool.and_eq_true_iff.1 hcalm
  have hgo : (tick s).wgs.filter (fun p => p.2.preempt && p.2.buffers && p.2.discard.isNone && p.2.arrived.isEmpty) = [] := by
    refine List.filter_eq_nil_iff.2 (fun p hp => ?_)
    have := List.all_eq_true.1 hwgs p hp
    simp_all
  have hout : s.threads.filter (fun p => p.2.halt && (tick s).saveReady p.1) = [] := by
    refine List.filter_eq_nil_iff.2 (fun p hp => ?_)
    have := List.all_eq_true.1 hthreads p hp
    simp_all
  unfold State.leaveNow
  simp only [hgo, List.map_nil, List.foldl_nil]
  exact congrArg (List.foldl _ (tick s)) hout

variable (hcalm : (s.wgs.all (fun p => !p.2.preempt) && s.threads.all (fun p => !p.2.halt)) = true) (hbanks : BanksHeld s)
include hcalm hbanks

theorem nextClk_quiet : s.nextClk =
    { (tick s) with
      due := s.due ++ (tick s).clkSteps
      agenda := s.agenda.filter (fun p => decide (s.clk + 1 < p.1))
      turn := ((tick s).busyUnits.filter (fun u => decide (384 ≤ u)) ++
        (tick s).busyUnits.filter (fun u => decide (u < 384))).flatMap (tick s).turnOf } := by
  rw [nextClk_eq, closeLeft_tick hbanks, leaveNow_tick hcalm] <;> rfl

end

theorem agenda_mem_clkSteps {s : State} {at_ : Nat} {i : Instr} (h : (at_, i) ∈ s.agenda) (hat : at_ ≤ s.clk) : i ∈ s.clkSteps := by
  have : i ∈ s.agendaNow := mem_sortBy.2 (List.mem_map.2 ⟨(at_, i), List.mem_filter.2 ⟨h, decide_eq_true hat⟩, rfl⟩)
  simp [State.clkSteps, this]

theorem window_mem_clkSteps {s : State} {k : Nat × Cluster} (h : k ∈ s.clusters) (hclk : s.clk % 64 = 0) :
    .windowEvaluation k.1 ∈ s.clkSteps := by
  have : Instr.windowEvaluation k.1 ∈ (((s.cores.map (fun (p : Nat × Core) => p.1 / 4)) ++ s.clusters.map Prod.fst).eraseDups).map Instr.windowEvaluation :=
    List.mem_map_of_mem (List.mem_eraseDups.2 (List.mem_append_right _ (List.mem_map_of_mem h)))
  unfold State.clkSteps
  rw [if_pos hclk]
  simp only [List.mem_append]
  tauto

/-- Settles O39: the four layers of a window are read off one by one, and a quiet clk is the state of `nextClk_quiet`. -/
theorem windowsAndAccounts : Obligations.WindowsAndAccounts := by
  refine ⟨?_, ?_, ?_, ?_, ?_, ?_, ?_, ?_⟩
  · intro c s k x raw m0 D mean M hM
    have hm0 : meanOf ((s.layers c).map LayerDraw.raw) = m0 := by
      unfold State.layers
      rw [List.map_map]
      exact meanOf_range_four _
    have hD : windowD (s.layers c) = (List.range 4).map D := by
      unfold windowD
      rw [hm0]
      unfold State.layers
      rw [List.map_map]
      rfl
    have hmean : meanOf (windowD (s.layers c)) = mean := hD ▸ meanOf_range_four D
    have hget : ∀ l < 4, (windowD (s.layers c)).getD l 0 = D l := fun l hl => hD ▸ getD_map_range D 0 hl
    have hm : ∀ l < 4, windowM (s.layers c) l = M l := by
      intro l hl
      simp only [windowM, hmean, hget l hl, M]
    have hchanged : ∀ l < 4, (match (s.layers c)[l]? with
        | some x => x.changed (meanOf ((s.layers c).map LayerDraw.raw))
        | none => false) = (D l != raw l) := by
      intro l hl
      have : (s.layers c)[l]? = some { raw := raw l, shunt := (x l).shunt } := by
        simp [State.layers, hl, raw, x, k]
      rw [this, hm0]
      rfl
    have hquiet := windowEvaluation_quiet (c := c) (s := s) (fun l hl => by
      rw [hm l hl, ← toNat_extractLsb']
      exact hM l hl)
    obtain ⟨hmem, hclusters, hclk⟩ := foldl_layerEnd_keeps c (s.layers c) (bits (s.cluster c).stkcfg.toNat 0 16) s (List.range 4)
    refine ⟨_, hquiet, hmem, ?_, ?_, ?_, fun l hl => ?_⟩
    · rw [State.cluster_modCluster_self, hmean]
    · rw [State.cluster_modCluster_self]
    · rw [State.cluster_modCluster_self, toNat_extractLsb']
      rw [State.cluster, hclusters, hclk]
      rfl
    · intro y
      have hy : y = layerCore (s.layers c) (bits (s.cluster c).stkcfg.toNat 0 16) l (x l).power (x l) :=
        core_foldl_layerEnd c _ _ s List.nodup_range (List.mem_range.2 hl)
      rw [hy]
      have hthr : (layerCore (s.layers c) (bits (s.cluster c).stkcfg.toNat 0 16) l (x l).power (x l)).throttled =
          (decide (((k.stkcfg.extractLsb' 0 16).toNat : Int) < M l) || (x l).power != 0) := by
        rw [toNat_extractLsb', ← hm l hl]
        rfl
      refine ⟨hthr, rfl, rfl, rfl, rfl, rfl, rfl, (misWord_m ..).trans (by rw [hm l hl]), (misWord_d ..).trans (by rw [hget l hl]),
        (misWord_mean ..).trans (by rw [hmean]), (misWord_shn ..).trans ?_, misWord_thr ..⟩
      exact hchanged l hl
  · intro c t s hkeeping
    rw [exec_keepingEnd]
    simp only [execKeepingEnd, hkeeping]
    exact ⟨fun h => congrArg _ (if_pos h), fun h => congrArg _ (if_neg (Nat.not_le.2 h))⟩
  · intro u s
    refine ⟨fun h => ?_, fun x h => ?_⟩
    · rw [exec_sample]
      simp only [execSample, h]
    · intro p
      rw [exec_sample]
      simp only [execSample, h]
      refine ⟨fun hctx hp hperiod hon => if_neg ?_, fun hnone => if_pos ?_⟩
      · rw [decide_eq_false hctx, decide_eq_false hp, hperiod, hon]
        decide
      · simp only [Bool.or_eq_true, decide_eq_true_eq, bne_iff_ne, ne_eq]
        tauto
  · intro u bank s ⟨x, hx, hlimit⟩
    exact congrArg Host.Outcome.next (if_pos (List.any_eq_true.2 ⟨x, hx, decide_eq_true hlimit⟩))
  · exact fun u s => rfl
  · exact fun vi asid s => rfl
  · intro die s
    exact ⟨_, rfl, congrArg Die.band (tabGet_tabPut_self ..), rfl, fun d hd => tabGet_tabPut_other _ _ _ _ _ hd⟩
  · intro s
    refine ⟨rfl, fun hcalm hbanks => ?_⟩
    rw [nextClk_quiet hcalm hbanks]
    refine ⟨rfl, rfl, unit_tick_issued s, fun at_ i h hat => List.mem_append_right _ (agenda_mem_clkSteps (s := tick s) h hat),
      fun at_ i h hat => List.mem_filter.2 ⟨h, decide_eq_true hat⟩, fun hclk k hk => List.mem_append_right _ ?_⟩
    exact window_mem_clkSteps (s := tick s)
      (k := (k.1, { k.2 with unit := { k.2.unit with issued := false } })) (List.mem_map.2 ⟨k, hk, rfl⟩) hclk

end Sys2Proof
end

section
/-! # Launches and placement

What reaches Monarch and what it decides: the doorbell of a launch queue, its entries one by one, the check of the launches that
wait, the decision of a die, a graph's activation, a node's flush, and the steps that take a workgroup's program off its thread and
bring it back. -/
namespace Sys2Proof
open Sys2Proof.Machine

/-! ### Doorbells and launch queues -/

theorem dbell_names (c : Fin 16) (n : BitVec 32 × BitVec 32) (pa : BitVec 64) (s : State) :
    exec (.dbell (some c) (some n) pa []) s = .next (s.setNames c n) := rfl

theorem apertureOf_doorbell (vi : BitVec 8) (q : BitVec 3) :
    apertureOf (0x200000000000 + 0x10000 * vi.setWidth 64 + 8 * q.setWidth 64 : BitVec 64).toNat = .doorbell vi (8 * q.toNat) := by
  have hvi := vi.isLt
  have hq := q.isLt
  have hpa : (0x200000000000 + 0x10000 * vi.setWidth 64 + 8 * q.setWidth 64 : BitVec 64).toNat =
      0x200000000000 + 0x10000 * vi.toNat + 8 * q.toNat := by
    bv_omega
  rw [hpa]
  have hpage : (0x200000000000 + 0x10000 * vi.toNat + 8 * q.toNat - 0x200000000000) / 0x10000 = vi.toNat := by omega
  have hoff : (0x200000000000 + 0x10000 * vi.toNat + 8 * q.toNat) % 0x10000 = 8 * q.toNat := by omega
  have hrange : decide (0x200000000000 ≤ 0x200000000000 + 0x10000 * vi.toNat + 8 * q.toNat) &&
      decide (0x200000000000 + 0x10000 * vi.toNat + 8 * q.toNat < 0x200001000000) := by
    simp only [Bool.and_eq_true, decide_eq_true_eq]
    omega
  unfold apertureOf
  rw [if_pos (by simpa using hrange), hpage, hoff, BitVec.ofNat_toNat, BitVec.setWidth_eq]

theorem pageWrite_queue {s : State} {c : Fin 16} {vi : BitVec 8} {q : BitVec 3} {data : List Byte} :
    s.pageWrite (some c) vi (8 * q.toNat) data = s.ringBell vi q.toNat (tabGet s.mgmt.kpid c.val 0) (tabGet s.mgmt.ktid c.val 0) := by
  have hq := q.isLt
  have hoff : 8 * q.toNat % 8 = 0 := by omega
  have hlow : 8 * q.toNat < 0x40 := by omega
  have hdiv : 8 * q.toNat / 8 = q.toNat := by omega
  unfold State.pageWrite
  simp only [hoff, bne_self_eq_false, Bool.false_eq_true, if_false, if_pos hlow, hdiv]

theorem dbell_queue {s : State} {c : Fin 16} {vi : BitVec 8} {q : BitVec 3} {data : List Byte} (hdata : data ≠ []) :
    exec (.dbell (some c) none (0x200000000000 + 0x10000 * vi.setWidth 64 + 8 * q.setWidth 64) data) s =
      .next (s.ringBell vi q.toNat (tabGet s.mgmt.kpid c.val 0) (tabGet s.mgmt.ktid c.val 0)) := by
  have hempty : ¬data.isEmpty = true := by simpa [List.isEmpty_iff] using hdata
  rw [exec_dbell]
  simp only [execDbell, if_neg hempty, apertureOf_doorbell, pageWrite_queue]

section
variable {s : State} {vi : BitVec 8} {q : Nat} {kp kt : BitVec 32}

theorem ringBell_served (hon : s.viBit vi 0 = true) (hserved : s.monarch.bells.any (fun b => b.key == bellKey vi q) = true) :
    s.ringBell vi q kp kt =
      s.setBells (fun bs => bs.map (fun b => if b.key == bellKey vi q then { b with again := some (kp, kt) } else b)) := by
  simp only [State.ringBell, hon, hserved, Bool.not_true, Bool.false_eq_true, if_false, if_true]

theorem ringBell_idle (hon : s.viBit vi 0 = true) (hidle : s.monarch.bells.any (fun b => b.key == bellKey vi q) = false) :
    s.ringBell vi q kp kt = s.readTail vi q kp kt := by
  simp only [State.ringBell, hon, hidle, Bool.not_true, Bool.false_eq_true, if_false]

variable {v : State} {d : LaunchQueue}
  (hread : s.firstFault vi (BitVec.ofNat 16 (s.viField vi (0x80 + 2 * q) 2)) [(s.viField vi (0x40 + 8 * q) 8, 64)] = none)
  (hqueue : s.launchQueue vi q = some (v, d))
include hread hqueue

theorem readTail_bad (hbad : d.good = false) :
    s.readTail vi q kp kt = (v.queueReport vi d.asid d.va).endBell (bellKey vi q) := by
  simp only [State.readTail, hread, hqueue, hbad, Bool.not_false, if_true]

theorem readTail_good (hgood : d.good = true) (hroom : d.waiting ≤ d.size) :
    s.readTail vi q kp kt = (({ v with monarch := { v.monarch with ovf := v.monarch.ovf.filter (· != bellKey vi q) } } : State).setBells
      (fun bs => bs.filter (fun b => b.key != bellKey vi q) ++
        [{ key := bellKey vi q, kpid := kp, ktid := kt, tail := d.tail, again := none }])).serve (bellKey vi q) := by
  simp only [State.readTail, hread, hqueue, hgood, Bool.not_true, Bool.false_eq_true, if_false, if_neg (Nat.not_lt.2 hroom)]

end

theorem serve_bellKey (s : State) (vi : BitVec 8) (q : BitVec 3) : s.serve (bellKey vi q.toNat) = s.first (.launchArrival vi q) := by
  have hq := q.isLt
  have hdiv : bellKey vi q.toNat / 8 = vi.toNat := by unfold bellKey; omega
  have hmod : bellKey vi q.toNat % 8 = q.toNat := by unfold bellKey; omega
  rw [State.serve, hdiv, hmod, BitVec.ofNat_toNat, BitVec.ofNat_toNat, BitVec.setWidth_eq, BitVec.setWidth_eq]

theorem takeEntry_launch {v x : State} {vi : BitVec 8} {d : LaunchQueue} {ent at_ : Nat} {kp kt : BitVec 32} {r : List Byte}
    (haligned : ent % 64 = 0) (hread : v.monRead vi d.asid ent 512 = some (x, r)) :
    v.takeEntry vi d ent at_ kp kt = x.submit vi d.asid r ent d.prio kp kt none := by
  have haddr : ent / 64 * 64 = ent := by omega
  have hkind : ent % 4 = 0 := by omega
  have hfree : ent / 4 % 16 = 0 := by omega
  simp [State.takeEntry, haddr, hkind, hfree, hread]

section
variable {vi : BitVec 8} {q : BitVec 3} {b : Bell} {s u : State} {d : LaunchQueue}
  (hbell : s.monarch.bells.find? (fun b => b.key == 8 * vi.toNat + q.toNat) = some b)
  (hopen : s.monarch.closed.contains vi.toNat = false) (hmine : s.heldBy vi < 64) (hall : s.heldAll < 4096)
  (hread : s.firstFault vi (BitVec.ofNat 16 (s.viField vi (0x80 + 2 * q.toNat) 2)) [(s.viField vi (0x40 + 8 * q.toNat) 8, 64)] = none)
  (hqueue : s.launchQueue vi q.toNat = some (u, d))
include hbell hopen hmine hall hread hqueue

theorem launchArrival_end (htail : d.head = b.tail) : exec (.launchArrival vi q) s = .next (match b.again with
    | some n => u.readTail vi q.toNat n.1 n.2
    | none => u.endBell (bellKey vi q.toNat)) := by
  rw [exec_launchArrival]
  simp only [execLaunchArrival, bellKey, hbell, hopen, hread, hqueue, Nat.not_le.2 hmine, Nat.not_le.2 hall, decide_false, Bool.or_false,
    Bool.false_eq_true, if_false, if_pos htail] <;> rfl

theorem launchArrival_entry {v : State} {bs : List Byte} (htail : d.head ≠ b.tail) (hroom : d.waiting ≤ d.size)
    (hentry : u.firstFault vi d.asid (u.entryReads vi d (d.base + 8 * (d.head % d.size))) = none)
    (hbytes : u.monRead vi d.asid (d.base + 8 * (d.head % d.size)) 8 = some (v, bs)) :
    exec (.launchArrival vi q) s = .next (((v.takeEntry vi d (ofBytes bs) (d.base + 8 * (d.head % d.size)) b.kpid b.ktid).writeOwn .device
      vi d.asid 0 (d.va + 0xC) (toBytes ((d.head + 1) % 2 ^ 32) 4)).first (.launchArrival vi q)) := by
  rw [exec_launchArrival]
  simp only [execLaunchArrival, bellKey, hbell, hopen, hread, hqueue, Nat.not_le.2 hmine, Nat.not_le.2 hall, decide_false, Bool.or_false,
    Bool.false_eq_true, if_false, if_neg htail, if_neg (Nat.not_lt.2 hroom), hentry, hbytes]
  exact congrArg Host.Outcome.next (serve_bellKey _ vi q)

end

/-! ### Eligibility -/

/-- Memory, the clk and Monarch's launches stand. -/
structure LaunchesStand (s t : State) : Prop where
  mem : t.mem = s.mem
  clk : t.clk = s.clk
  launches : t.monarch.launches = s.monarch.launches

theorem LaunchesStand.refl (s : State) : LaunchesStand s s := ⟨rfl, rfl, rfl⟩

theorem LaunchesStand.trans {s t u : State} (h : LaunchesStand s t) (g : LaunchesStand t u) : LaunchesStand s u :=
  ⟨g.mem.trans h.mem, g.clk.trans h.clk, g.launches.trans h.launches⟩

theorem LaunchesStand.foldl {α : Type} {f : State → α → State} (h : ∀ s x, LaunchesStand s (f s x)) (l : List α) (s : State) :
    LaunchesStand s (l.foldl f s) := by
  induction l generalizing s with
  | nil => exact .refl s
  | cons x r ih => exact (h s x).trans (ih (f s x))

theorem LaunchesStand.soon (s : State) (i : Instr) : LaunchesStand s (s.soon i) := ⟨rfl, rfl, rfl⟩

theorem LaunchesStand.monWait (s : State) (vi : BitVec 8) (asid : BitVec 16) (f : Nat × Nat × Nat × Bool) (i : Instr) :
    LaunchesStand s (s.monWait vi asid f i) := by
  unfold State.monWait State.raise
  dsimp only
  split
  · exact ⟨rfl, rfl, rfl⟩
  · exact ⟨rfl, rfl, rfl⟩

theorem LaunchesStand.askAfters (s : State) (vi : BitVec 8) (asid : BitVec 16) (r : List Byte) : LaunchesStand s (s.askAfters vi asid r) := by
  refine .foldl (fun s i => ?_) _ s
  dsimp only
  split
  · exact .refl s
  · split
    · exact .monWait ..
    · exact .refl s

theorem LaunchesStand.ringBells (s : State) : LaunchesStand s s.ringBells := .foldl (fun s _ => .soon s _) _ s

theorem LaunchesStand.flushAll (s : State) : LaunchesStand s s.flushAll :=
  .foldl (fun s _ => .foldl (fun s _ => .soon s _) _ s) _ s

/-- A launch as the check of its AFTER objects leaves it. -/
def lookAfters (s : State) (l : Launch) : Launch :=
  if l.graph.isNone && !l.eligible && s.afters l.vi l.asid l.record then { l with eligible := true } else l

theorem lookAfters_eq (s : State) (l : Launch) : lookAfters s l =
    if l.graph = none ∧ l.eligible = false ∧ s.afters l.vi l.asid l.record = true then { l with eligible := true } else l := by
  unfold lookAfters
  simp only [Bool.and_eq_true, Option.isNone_iff_eq_none, Bool.not_eq_true', and_assoc]

theorem eligibilityCheck_stands (s : State) : ∃ t, exec .eligibilityCheck s = .next t ∧
    LaunchesStand { s with monarch := { s.monarch with launches := tabMap s.monarch.launches (fun _ => lookAfters s) } } t :=
  ⟨_, rfl, ((LaunchesStand.foldl (fun s _ => .soon s _) _ _).trans (.foldl (fun s _ => .askAfters s _ _ _) _ _)).trans
    ((LaunchesStand.ringBells _).trans (.flushAll _))⟩

/-! ### Placement, graphs, discards -/

theorem decide_place {s : State} {d : Nat} {k num cluster core : Nat} {l : Launch} {rest : List (Nat × Launch)} {back : Option Restart}
    (horder : s.order = (k, l) :: rest) (hnext : l.candidate = some (num, back)) (hplace : s.placeFor d k num back = some (cluster, core)) :
    s.decide_ d = s.place k num cluster core back := by
  simp only [State.decide_, horder, hnext, hplace]

section
variable {id : Nat} {g : Graph} {s t : State} (hgraph : tabFind s.monarch.graphs id = some g) (hidle : g.active = false)
  (ht : t = (g.launches.map (·.1)).foldl (fun s n => s.reserve id n) s) (hseeds : field g.record 0x10 4 = 0)
include hgraph hidle ht hseeds

theorem graphActivate_waits {f : Nat × Nat × Nat × Bool} (hread : t.monRead g.vi g.asid (field g.record 0 8) 2048 = none)
    (hfault : t.firstFault g.vi g.asid [(field g.record 0 8, 2048)] = some f) :
    exec (.graphActivate id) s = .next (t.monWait g.vi g.asid f (.graphActivate id)) := by
  rw [exec_graphActivate]
  simp only [execGraphActivate, hgraph, hidle, ← ht, hread, hseeds, Bool.false_eq_true, if_false, Option.getD_none, List.range_zero,
    List.map_nil, hfault]

theorem graphActivate_goes {x : Graph} (hx : tabFind t.monarch.graphs id = some x) (hheld : x.reserved = true) {v : State} {table : List Byte} (hread : t.monRead g.vi g.asid (field g.record 0 8) 2048 = some (v, table))
    (hclear : v.firstFault g.vi g.asid [(field g.record 0 8, 2048)] = none) :
    exec (.graphActivate id) s = .next (((((g.launches.map (·.2)).foldl (fun s k => s.modLaunch k (fun l => { l with eligible := true }))
      (v.modGraph id (fun x => { x with active := true, table := table }))).arrive_ id (field g.record 0x14 1) []).flushAll).graphCheck
        id) := by
  rw [exec_graphActivate]
  simp only [execGraphActivate, hgraph, hidle, ← ht, hread, hseeds, Bool.false_eq_true, if_false, Option.getD_some, List.range_zero,
    List.map_nil, hclear, hx, hheld, if_true]

end

section
variable {w : Nat} {x : Workgroup} {s v : State} (hwg : tabFind s.wgs w = some x) (hv : v = x.liveCores.foldl State.beginKeeping (s.dropGroups w))
include hwg hv

theorem discardComplete_engines (hbusy : v.enginesOf w = true) : exec (.discardComplete w) s = .next (v.inClk 1 (.discardComplete w)) := by
  rw [exec_discardComplete]
  simp only [execDiscardComplete, hwg, ← hv, if_pos hbusy]

theorem discardComplete_ends (hctl : ∀ t, x.ctl = some t → x.ctlDone = true) (hidle : v.enginesOf w = false) {p : State × Option Thread × Bool}
    (hp : p = (v.drainWg w).discardCtl w) : exec (.discardComplete w) s = .next ((p.1.modLaunch x.launch (fun l => { l with
      wait := l.wait ++ [(x.num, { (p.1.wg w).restart with
        discardable := true, ctl := p.2.1, pending := false, suspended := false, saveLost := p.2.2 })] })).freeWg w) := by
  obtain ⟨z, ctl, lost⟩ := p
  rw [exec_discardComplete]
  cases hc : x.ctl with
  | none => simp only [execDiscardComplete, hwg, ← hv, hidle, hc, ← hp, Bool.false_eq_true, if_false]
  | some t =>
    simp only [execDiscardComplete, hwg, ← hv, hidle, hc, hctl t hc, ← hp, Bool.false_eq_true, if_false, Bool.not_true, Bool.false_and, if_true]

end

theorem discardCtl_none {u : State} {w : Nat} (h : (u.wg w).ctl = none) : u.discardCtl w = (u, (u.wg w).suspended, (u.wg w).saveLost) := by
  simp only [State.discardCtl, h]

section
variable {w at_ t : Nat} {s v : State} (hgrace : (s.wg w).grace = some at_) (hctl : (s.wg w).ctl = some t) (hdue : at_ ≤ s.clk)
  (hpreempt : (s.wg w).preempt = true) (hkept : (s.wg w).discard = none) (hneeds : (s.wg w).ctlDone = false ∨ s.holdsAcc w = true)
  (hv : v = s.modThread t (fun y => { y with halt := true }))
include hgrace hctl hdue hpreempt hkept hneeds hv

theorem graceExpiry_open : exec (.graceExpiry w) s = if !v.saveReady t then .next (v.inClk 1 (.graceExpiry w)) else
    .next ((v.report 7 0 (unitWord 10 ((s.wg w).cluster / 24)) ((s.wg w).vi, (s.wg w).asid)
      (v.thread t).strand.pc.toNat 0 1 0x85 (v.joinedWg w)).suspendWg w false) := by
  have hlive : ((s.wg w).ctlDone && !s.holdsAcc w) = false := by
    rcases hneeds with h | h <;> simp [h]
  rw [exec_graceExpiry]
  simp only [execGraceExpiry, hgrace, hctl, hpreempt, hkept, hlive, ← hv, Nat.not_lt.2 hdue, decide_false, Bool.not_true, Bool.or_false,
    Option.isSome_none, Bool.false_eq_true, if_false]

end

theorem suspendWg_plain {u : State} {w t : Nat} (hctl : (u.wg w).ctl = some t) (hacc : u.holdsAcc w = false) :
    u.suspendWg w false = ((u.dropUndone t).freeThread t).modWg w (fun x => { x with
      ctl := none, grace := none, suspended := if x.ctlDone then none else some (u.savedCtl t), saveLost := false }) := by
  unfold State.suspendWg
  simp only [hctl, hacc, Bool.false_eq_true, if_false, Bool.not_false, Bool.true_or, if_true, Bool.true_and, Bool.not_true]
  refine congrArg (State.modWg _ w) (funext fun x => ?_)
  cases x.ctlDone <;> rfl

section
variable {w t : Nat} {r : List Nat} {y : Thread} {s : State} (hsaved : (s.wg w).suspended = some y)
  (hfree : s.freeThreads (s.wg w).cluster = t :: r)
include hsaved hfree

theorem suspendedRestore_open : exec (.suspendedRestore w) s = if s.monarch.closed.contains (s.wg w).vi.toNat then .next s else
    .next ((s.takeThread t (s.thawed y (some w) (s.wg w).stopped false)).modWg w (fun x => { x with ctl := some t, suspended := none })) := by
  rw [exec_suspendedRestore]
  simp only [execSuspendedRestore, hsaved, hfree]

end

/-- Settles O38: each step is evaluated along its guards, through the equations above. -/
theorem launchesAndPlacement : Obligations.LaunchesAndPlacement := by
  refine ⟨⟨?_, ?_, ?_, ?_⟩, ?_, ?_, ?_, ?_, ?_, ?_⟩
  · exact fun c kp kt pa s => dbell_names c (kp, kt) pa s
  · intro vi q c data s hon hdata ring key kp kt va
    have hring : exec ring s = .next (s.ringBell vi q.toNat kp kt) := dbell_queue hdata
    refine ⟨fun hserved => hring.trans (congrArg _ (ringBell_served hon hserved)), fun hidle hread v d hqueue => ?_⟩
    have htail := hring.trans (congrArg Host.Outcome.next (ringBell_idle hon hidle))
    refine ⟨fun hgood hroom => ⟨_, htail.trans (congrArg _ ((readTail_good hread hqueue hgood hroom).trans (serve_bellKey _ vi q))), rfl, rfl, rfl⟩,
      fun hbad => htail.trans (congrArg _ (readTail_bad hread hqueue hbad))⟩
  · intro vi q b s u d hbell hopen hmine hall hread hqueue
    refine ⟨fun htail hagain => ?_, fun htail n hagain => ?_, fun htail hroom hentry v bs hbytes => ⟨?_, ?_⟩⟩
    · rw [launchArrival_end hbell hopen hmine hall hread hqueue htail, hagain]
      rfl
    · rw [launchArrival_end hbell hopen hmine hall hread hqueue htail, hagain]
    · exact launchArrival_entry hbell hopen hmine hall hread hqueue htail hroom hentry hbytes
    · exact fun haligned x rec_ hrec => takeEntry_launch haligned hrec
  · intro s
    obtain ⟨t, hexec, hstands⟩ := eligibilityCheck_stands s
    refine ⟨t, hexec, hstands.mem, hstands.clk, hstands.launches.trans ?_⟩
    exact List.map_congr_left (fun p _ => congrArg (Prod.mk p.1) (lookAfters_eq s p.2))
  · refine fun die s => ⟨fun hnone => ?_, fun k l rest num back cluster core horder hnext hplace => ?_, fun m hon => ?_⟩
    · rw [exec_placementDecision]
      simp only [execPlacementDecision, State.decide_, hnone]
    · exact congrArg Host.Outcome.next (decide_place horder hnext hplace)
    · rw [exec_placementDecision, exec_placementDecision]
      simp only [execPlacementDecision, if_pos hon]
  · intro id g x s hgraph hidle t at_ hx hheld hseeds
    refine ⟨fun f hread hfault => graphActivate_waits hgraph hidle rfl hseeds hread hfault, fun v table hread hclear => ?_⟩
    exact graphActivate_goes hgraph hidle rfl hseeds hx hheld hread hclear
  · intro id n g0 g s hbefore v hafter
    rw [exec_nodeFlush]
    simp only [execNodeFlush, hbefore]
    have hv : (s.refill id n).gather id n (g0.total n + 1) = v := rfl
    rw [hv]
    simp only [hafter]
    exact ⟨fun h => if_pos h, fun h => if_neg (not_of_eq_false h)⟩
  · intro w x s hwg hctl v
    exact ⟨discardComplete_engines hwg rfl, fun hidle => discardComplete_ends hwg rfl hctl hidle rfl, fun u h => discardCtl_none h⟩
  · intro w at_ t s hgrace hctl hdue hpreempt hkept hneeds v
    have hopen := graceExpiry_open hgrace hctl hdue hpreempt hkept hneeds (v := v) rfl
    refine ⟨fun hbusy => hopen.trans (if_pos ?_), fun hready => hopen.trans (if_neg ?_), fun u hthread hacc => suspendWg_plain hthread hacc⟩
    · rw [hbusy]
      rfl
    · rw [hready]
      decide
  · intro w t r y s hsaved hfree
    exact ⟨fun h => (suspendedRestore_open hsaved hfree).trans (if_pos h),
      fun h => (suspendedRestore_open hsaved hfree).trans (if_neg (not_of_eq_false h))⟩

end Sys2Proof
end

section
/-! # Bring-up, power and reset

The record of an error leaves the bring-up's own fields alone (`report_boot`); the steps of bring-up and of power are then read off
their last writes, core by core where they run over a list of cores (`core_foldl_modCore`). -/
namespace Sys2Proof
open Sys2Proof.Machine

/-! ### What a record leaves -/

section
variable (s : State) (cls sev unit : Nat) (ctx : BitVec 8 × BitVec 16) (addr retry addrk code : Nat) (name : List Byte)

/-- A record is read in the management state only where the rings or the number of the next record are. -/
theorem report_mgmt {β : Type} (p : Mgmt → β) (hrings : ∀ m r, p { m with rings := r } = p m) (hseq : ∀ m n, p { m with errSeq := n } = p m) :
    p (s.report cls sev unit ctx addr retry addrk code name).mgmt = p s.mgmt := by
  have henqueue : ∀ (t : State) (ring : Nat) (b : List Byte), p (t.enqueue ring b).mgmt = p t.mgmt := fun t _ _ => hrings t.mgmt _
  have hsoon : ∀ (t : State) (i : Instr), p (t.soon i).mgmt = p t.mgmt := fun _ _ => rfl
  have hnext : ∀ (n : BitVec 32) (d : Nat) (f : Die → Die),
      p (State.modDie { s with mgmt := { s.mgmt with errSeq := n } } d f).mgmt = p s.mgmt := fun n _ _ => hseq s.mgmt n
  unfold State.report
  dsimp only
  split_ifs
  · rfl
  all_goals simp only [hsoon, henqueue, hnext]

@[simp] theorem report_mem : (s.report cls sev unit ctx addr retry addrk code name).mem = s.mem := by
  unfold State.report
  dsimp only
  split_ifs
  all_goals rfl

end

theorem bootFail_state (s : State) (reason unit : Nat) : (s.bootFail reason unit).mgmt.state = s.mgmt.state :=
  report_mgmt _ _ _ _ _ _ _ _ _ _ Mgmt.state (fun _ _ => rfl) (fun _ _ => rfl)

theorem bootFail_reason (s : State) (reason unit : Nat) : (s.bootFail reason unit).mgmt.reason = BitVec.ofNat 8 reason :=
  report_mgmt _ _ _ _ _ _ _ _ _ _ Mgmt.reason (fun _ _ => rfl) (fun _ _ => rfl)

theorem bootFail_measure (s : State) (reason unit : Nat) : (s.bootFail reason unit).mgmt.measure = s.mgmt.measure :=
  report_mgmt _ _ _ _ _ _ _ _ _ _ Mgmt.measure (fun _ _ => rfl) (fun _ _ => rfl)

theorem bootFail_mem (s : State) (reason unit : Nat) : (s.bootFail reason unit).mem = s.mem := report_mem ..

/-! ### Cores one by one -/

/-- What holds of a core goes on holding of it in a fold that keeps it at every change. -/
theorem core_foldl_keeps {α : Type} {g : State → α → State} {c : Nat} {P : Core → Prop} (hkeeps : ∀ s x, P (s.core c) → P ((g s x).core c))
    (l : List α) (s : State) (h : P (s.core c)) : P ((l.foldl g s).core c) := by
  induction l generalizing s with
  | nil => exact h
  | cons x r ih => exact ih (g s x) (hkeeps s x h)

theorem core_modCore_keeps {s : State} {c d : Nat} {f : Core → Core} {P : Core → Prop} (hf : ∀ k, P k → P (f k)) (h : P (s.core c)) :
    P ((s.modCore d f).core c) := by
  by_cases hd : c = d
  · subst hd
    rw [core_modCore_self]
    exact hf _ h
  · rwa [core_modCore_other _ _ hd]

/-- In a fold that sets what is asked at one element and keeps it at all, it holds at the end. -/
theorem core_foldl_sets {α : Type} {g : State → α → State} {c : Nat} {P : Core → Prop} {y : α} (hkeeps : ∀ s x, P (s.core c) → P ((g s x).core c))
    (hsets : ∀ s, P ((g s y).core c)) {l : List α} (hy : y ∈ l) (s : State) : P ((l.foldl g s).core c) := by
  induction l generalizing s with
  | nil => cases hy
  | cons x r ih =>
    rcases List.mem_cons.1 hy with rfl | hr
    · exact core_foldl_keeps hkeeps r _ (hsets s)
    · exact ih hr _

theorem core_four {f : Core → Core} {P : Core → Prop} (hset : ∀ k, P (f k)) (r : Nat) (s : State) {q : Nat} (hq : q < 4) :
    P (((List.range 4).foldl (fun s l => s.modCore (4 * r + l) f) s).core (4 * r + q)) :=
  core_foldl_sets (fun _ _ h => core_modCore_keeps (fun k _ => hset k) h)
    (fun s => by rw [core_modCore_self]; exact hset _) (List.mem_range.2 hq) s

/-! ### Verification and training -/

theorem verify_open {s : State} (h : s.mgmt.state = 0) : exec .verify s =
    if !Config.keyFused then .next ((s.setBoot 1).bootFail 3 (unitWord 13 0))
    else if !Config.imageOk s.mgmt.firmware then .next ((s.setBoot 1).bootFail 2 (unitWord 13 0))
    else if !Config.signatureOk s.mgmt.firmware then .next ((s.setBoot 1).bootFail 1 (unitWord 13 0))
    else .next { s.setBoot 1 with mgmt := { (s.setBoot 1).mgmt with
      measure := Config.extend s.mgmt.measure (Config.digest s.mgmt.firmware) } } := by
  rw [exec_verify]
  simp only [execVerify, h, bne_self_eq_false, Bool.false_eq_true, if_false] <;> rfl

theorem memtrain_open {s : State} (hstate : s.mgmt.state = 1) (hreason : s.mgmt.reason = 0) (failed : Option (Fin 48)) :
    exec (.memtrain failed) s = .next (match failed with
      | some m => (s.setBoot 2).bootFail 4 (unitWord 6 m)
      | none => s.setBoot 2) := by
  rw [exec_memtrain]
  simp only [execMemtrain, hstate, hreason, bne_self_eq_false, Bool.or_false, Bool.false_eq_true, if_false]
  cases failed <;> rfl

/-! ### Lane repair and partitions -/

/-- A core, or the cluster of a unit of the report, out of service. -/
def fenceCore (s : State) (c : Nat) : State := s.modCore c (fun k => { k with fenced := true })
def fenceCluster (s : State) (r : Nat) : State := s.modCluster (r - 400) (fun k => { k with fenced := true })

/-- The state of LANEMAP once lanes are repaired and what is out of service is fenced. -/
def lanesMapped (s : State) (retired : List Nat) (faulty : List (Nat × Nat)) : State :=
  (retired.filter (fun r => decide (400 ≤ r) && decide (r < 496))).foldl fenceCluster
    ((retiredCores retired).foldl fenceCore
      ((((faulty.map Prod.fst).filter (fun c => decide (c < 384))).eraseDups).foldl (fun s c => s.repairLanes faulty c) (s.setBoot 3)))

theorem lanemap_open {s : State} (hstate : s.mgmt.state = 2) (hreason : s.mgmt.reason = 0) (retired : List Nat) (faulty : List (Nat × Nat)) :
    exec (.lanemap ⟨retired, faulty⟩) s = if !partsOk (lanesMapped s retired faulty).mgmt.map retired then
        .next ((lanesMapped s retired faulty).bootFail 5 (unitWord 13 0))
      else .next { lanesMapped s retired faulty with
        fabric := { (lanesMapped s retired faulty).fabric with mkey := BitVec.ofNat 16 (field (lanesMapped s retired faulty).mgmt.map 0 2) }
        mgmt := { (lanesMapped s retired faulty).mgmt with
          state := 4
          parts := (mapParts (lanesMapped s retired faulty).mgmt.map).map (fun p => (p.1, p.2.1))
          grace := (mapParts (lanesMapped s retired faulty).mgmt.map).map (fun p => (p.1, p.2.2)) } } := by
  rw [exec_lanemap]
  unfold execLanemap
  rw [hstate, hreason]
  rfl

theorem repairLanes_mgmt (s : State) (faulty : List (Nat × Nat)) (c : Nat) : (s.repairLanes faulty c).mgmt = s.mgmt := by
  unfold State.repairLanes
  split <;> rfl

theorem lanesMapped_mgmt (s : State) (retired : List Nat) (faulty : List (Nat × Nat)) :
    (lanesMapped s retired faulty).mgmt = { s.mgmt with state := 3 } := by
  unfold lanesMapped
  exact (foldl_keeps State.mgmt fenceCluster (fun _ _ => rfl) _ _).trans ((foldl_keeps State.mgmt fenceCore (fun _ _ => rfl) _ _).trans
    (foldl_keeps State.mgmt _ (fun s c => repairLanes_mgmt s faulty c) _ _))

theorem core_lanesMapped {s : State} {retired : List Nat} {faulty : List (Nat × Nat)} {c : Nat} {P : Core → Prop}
    (hfence : ∀ k, P k → P { k with fenced := true })
    (h : P (((((faulty.map Prod.fst).filter (fun c => decide (c < 384))).eraseDups).foldl (fun s c => s.repairLanes faulty c)
      (s.setBoot 3)).core c)) : P ((lanesMapped s retired faulty).core c) :=
  core_foldl_keeps (g := fenceCluster) (fun _ _ h => h) _ _
    (core_foldl_keeps (g := fenceCore) (fun _ _ h => core_modCore_keeps (fun k hk => hfence k hk) h) _ _ h)

theorem repairLanes_self_none {s : State} {faulty : List (Nat × Nat)} {c : Nat} (h : laneRepair (faultyLanes faulty c) = none) :
    ((s.repairLanes faulty c).core c).fenced = true := by
  simp only [State.repairLanes, h, core_modCore_self]

theorem repairLanes_self_some {s : State} {faulty : List (Nat × Nat)} {c : Nat} {m : Tab Nat} (h : laneRepair (faultyLanes faulty c) = some m) :
    ((s.repairLanes faulty c).core c).spares = m := by
  simp only [State.repairLanes, h, core_modCore_self]

theorem repairLanes_other {s : State} {faulty : List (Nat × Nat)} {c d : Nat} (h : c ≠ d) : (s.repairLanes faulty d).core c = s.core c := by
  unfold State.repairLanes
  split <;> exact core_modCore_other _ _ h

/-- A core of the report is left by LANEMAP as its own repair leaves it. -/
theorem core_lanesMapped_reported {s : State} {retired : List Nat} {faulty : List (Nat × Nat)} {c : Nat} {P : Core → Prop}
    (hfence : ∀ k, P k → P { k with fenced := true }) (hrepair : ∀ s : State, P ((s.repairLanes faulty c).core c))
    (hc : c < 384) (hfaulty : c ∈ faulty.map Prod.fst) : P ((lanesMapped s retired faulty).core c) := by
  refine core_lanesMapped hfence (core_foldl_sets (y := c) (fun s d h => ?_) hrepair ?_ _)
  · by_cases hd : c = d
    · exact hd ▸ hrepair s
    · rwa [repairLanes_other hd]
  · exact List.mem_eraseDups.2 (List.mem_filter.2 ⟨hfaulty, decide_eq_true hc⟩)

theorem core_lanesMapped_retired {s : State} {retired : List Nat} {faulty : List (Nat × Nat)} {c : Nat} (hc : c < 384) (h : c ∈ retired) :
    ((lanesMapped s retired faulty).core c).fenced = true := by
  have hmem : c ∈ retiredCores retired := List.mem_flatMap.2 ⟨c, h, by rw [if_pos hc]; exact List.mem_singleton.2 rfl⟩
  exact core_foldl_keeps (g := fenceCluster) (P := fun k => k.fenced = true) (fun _ _ h => h) _ _
    (core_foldl_sets (g := fenceCore) (P := fun k => k.fenced = true)
      (fun _ _ h => core_modCore_keeps (P := fun k => k.fenced = true) (fun _ _ => rfl) h)
      (fun s => congrArg Core.fenced (core_modCore_self s c _)) hmem _)

/-! ### Power and reset -/

theorem layerOk_cluster {r l : Nat} (hr : r < 96) (hl : l < 4) : layerOk r l = true := by
  simp [layerOk, hr, hl]

theorem volt_setVolt_self (s : State) (r l : Nat) (v : Volt) : (s.setVolt r l v).volt r l = v := tabGet_tabPut_self ..

theorem mv_see (v : Volt) (mv : BitVec 16) (time : Nat) : (v.see mv time).mv.toNat = Nat.min mv.toNat v.mv.toNat := by
  unfold Volt.see
  split
  · exact (Nat.min_eq_left (Nat.le_of_lt ‹_›)).symm
  · exact (Nat.min_eq_right (Nat.not_lt.1 ‹_›)).symm

theorem core_modCluster (s : State) (c d : Nat) (f : Cluster → Cluster) : (s.modCluster c f).core d = s.core d := rfl

theorem regulatorFault_cluster {s : State} {r l : Nat} {mv : BitVec 16} (hr : r < 96) (hl : l < 4) : ∃ u, exec (.regulatorFault r l mv) s =
    .next (((List.range 4).foldl (fun (s : State) l => s.modCore (4 * r + l) (fun c => { c with fenced := true })) u).modCluster r
      (fun c => { c with fenced := true })) := by
  have hgo : ¬(!layerOk r l) = true := by simp [layerOk_cluster hr hl]
  exact ⟨_, (if_neg hgo).trans (if_neg (Nat.not_le.2 hr))⟩

theorem tabFind_filter_key {α : Type} (p : Nat → Bool) (t : Tab α) (k : Nat) :
    tabFind (t.filter (fun c => p c.1)) k = if p k then tabFind t k else none := by
  induction t with
  | nil => simp [tabFind]
  | cons q r ih =>
    obtain ⟨j, b⟩ := q
    by_cases hj : j = k
    · subst hj
      cases hp : p j <;> simp [tabFind, hp, ih]
    · cases hp : p j <;> simp [tabFind, hp, hj, ih]

theorem memGet_filter_low (m : List Host.Cell) (n a : Nat) :
    memGet (m.filter (fun c => c.1 < n)) a = if a < n then memGet m a else 0 := by
  have h := tabFind_filter_key (fun j => decide (j < n)) m a
  unfold memGet tabGet
  rw [h]
  by_cases ha : a < n
  · simp [ha]
  · simp [ha, Memory.unlisted]

/-- Settles O42: each step of bring-up and of power is evaluated along its guards, and its cores are read off its folds. -/
theorem powerAndBringUp : Obligations.PowerAndBringUp := by
  refine fun s => ⟨fun hstate => ?_, fun hstate hreason => ⟨?_, fun m => ?_⟩, fun hstate hreason retired faulty => ⟨fun hok => ?_, fun hbad => ?_⟩,
    fun r l mv hr hl => ⟨?_, fun hmv => ?_⟩, fun r mv hlow hhigh => ?_, fun r l mv hr hl => ?_, ?_, fun image => rfl, fun image => rfl⟩
  · intro good
    rw [verify_open hstate]
    cases hfused : Config.keyFused with
    | false => exact ⟨_, rfl, bootFail_state .., bootFail_mem .., bootFail_reason .., by simp [good, hfused, bootFail_measure, State.setBoot]⟩
    | true =>
      cases himage : Config.imageOk s.mgmt.firmware with
      | false => exact ⟨_, rfl, bootFail_state .., bootFail_mem .., bootFail_reason .., by simp [good, himage, bootFail_measure, State.setBoot]⟩
      | true =>
        cases hsign : Config.signatureOk s.mgmt.firmware with
        | false => exact ⟨_, rfl, bootFail_state .., bootFail_mem .., bootFail_reason .., by simp [good, hsign, bootFail_measure, State.setBoot]⟩
        | true => exact ⟨_, rfl, rfl, rfl, rfl, by simp [good, hfused, himage, hsign]⟩
  · exact ⟨_, memtrain_open hstate hreason none, rfl, hreason⟩
  · exact ⟨_, memtrain_open hstate hreason (some m), bootFail_state .., bootFail_reason ..⟩
  · have hparts : partsOk (lanesMapped s retired faulty).mgmt.map retired = true := by rw [lanesMapped_mgmt]; exact hok
    refine ⟨_, (lanemap_open hstate hreason retired faulty).trans (if_neg (by rw [hparts]; decide)), rfl, fun c hc hfaulty hmany => ?_,
      fun c hc hretired => core_lanesMapped_retired hc hretired, fun c hc hfaulty m hm => ?_, ?_, ?_⟩
    · exact core_lanesMapped_reported (P := fun k => k.fenced = true) (fun _ _ => rfl) (fun s => repairLanes_self_none (if_pos hmany)) hc hfaulty
    · exact core_lanesMapped_reported (P := fun k => k.spares = m) (fun _ h => h) (fun s => repairLanes_self_some hm) hc hfaulty
    · rw [lanesMapped_mgmt]
    · rw [lanesMapped_mgmt]
  · have hparts : partsOk (lanesMapped s retired faulty).mgmt.map retired = false := by rw [lanesMapped_mgmt]; exact hbad
    refine ⟨_, (lanemap_open hstate hreason retired faulty).trans (if_pos (by rw [hparts]; rfl)), ?_, bootFail_reason ..⟩
    rw [bootFail_state, lanesMapped_mgmt]
  · refine ⟨_, congrArg Host.Outcome.next (if_pos (layerOk_cluster hr hl)), ?_, rfl⟩
    rw [volt_setVolt_self, mv_see]
  · have hgo : ¬(!layerOk r l || decide (700 ≤ mv.toNat)) = true := by
      rw [layerOk_cluster hr hl, decide_eq_false (Nat.not_le.2 hmv)]
      decide
    exact ⟨_, (if_neg hgo).trans (congrArg Host.Outcome.next (if_pos hr)),
      fun q hq => core_four (P := fun k => k.power = 16) (fun _ => rfl) r _ hq⟩
  · have hgo : ¬(!layerOk r 0) = true := by simp [layerOk, hhigh]
    have haddr : voltAddr 0 mv = mv.toNat := by simp [voltAddr]
    exact ((if_neg hgo).trans (if_pos hlow)).trans (by rw [haddr])
  · obtain ⟨u, hu⟩ := regulatorFault_cluster (s := s) (mv := mv) hr hl
    exact ⟨_, hu, congrArg Cluster.fenced (State.cluster_modCluster_self ..), fun q hq => (congrArg Core.fenced (core_modCluster ..)).trans
      (core_four (P := fun k => k.fenced = true) (fun _ => rfl) r u hq)⟩
  · refine ⟨_, rfl, memGet_filter_low s.mem 0x400000000000, rfl, rfl, rfl, rfl, rfl, rfl, rfl, ?_⟩
    cases h : tabFind s.mgmt.rings ringMgmt <;> simp [tabFind]

end Sys2Proof
end

section
/-! # The fabric: packets, flits, ports and timers

A packet is performed at its step where it has passed ingress (`Passed`, `terminate_passed`); in its turn it moves its flow on
(`flowTurn`, `terminateIn_turn`), and each kind of packet is then what it does there. -/
namespace Sys2Proof
open Sys2Proof.Machine

/-! ### Ingress and order -/

/-- A packet terminates here at its step: it has passed ingress, or passes it now. -/
def Passed (s : State) (port : Fin 24) (h : PktHdr) : Prop :=
  s.fabric.passed.contains (port.val, h) = true ∨ (s.fromHere h || (s.port port).up) = true ∧ s.passes port h true = true

/-- The state in which a packet that terminates here is performed. -/
def arrived (s : State) (port : Fin 24) (h : PktHdr) : State :=
  if s.fabric.passed.contains (port.val, h) then { s with fabric := { s.fabric with passed := s.fabric.passed.erase (port.val, h) } } else s

/-- A flow goes on behind a packet that has been delivered. -/
def flowTurn (k : Nat) (t : State) : State := (t.expect k (t.expected k + 1)).release_ k (t.fabric.hold.length + 1)

section
variable {s : State} {port : Fin 24} {h : PktHdr}

theorem terminate_passed (hpass : Passed s port h) (f : State → State) : s.terminate port h f = f (arrived s port h) := by
  unfold State.terminate arrived
  cases hpast : s.fabric.passed.contains (port.val, h) with
  | true => rfl
  | false =>
    obtain ⟨hhere, hpasses⟩ := hpass.resolve_left (by rw [hpast]; decide)
    have hin : ¬(!s.fromHere h && !(s.port port).up) = true := by
      rw [← Bool.not_or, hhere]
      decide
    rw [if_neg (by decide), if_neg hin, if_pos hpasses]
    rfl

theorem terminate_down (hpast : s.fabric.passed.contains (port.val, h) = false) (hhere : (s.fromHere h || (s.port port).up) = false)
    (f : State → State) : s.terminate port h f = s := by
  have hout : (!s.fromHere h && !(s.port port).up) = true := by
    rw [← Bool.not_or, hhere]
    rfl
  simp only [State.terminate, hpast, hout, Bool.false_eq_true, if_false, if_true]

theorem terminate_refused (hpast : s.fabric.passed.contains (port.val, h) = false) (hhere : (s.fromHere h || (s.port port).up) = true)
    (hbad : s.passes port h true = false) (f : State → State) : s.terminate port h f = s.refusePacket port h.src.toNat := by
  have hin : (!s.fromHere h && !(s.port port).up) = false := by
    rw [← Bool.not_or, hhere]
    rfl
  simp only [State.terminate, hpast, hin, hbad, Bool.false_eq_true, if_false]

/-- A packet in the order of its flow whose turn it is, and that needs no fault served. -/
theorem terminateIn_turn (hpass : Passed s port h) (hturn : h.oseq.toNat = (arrived s port h).expected (flowKey h.src h.flow))
    (pay : List Byte) {f : State → State × Bool} {t : State} (hf : f (arrived s port h) = (t, true)) :
    s.terminateIn port h pay f = flowTurn (flowKey h.src h.flow) t := by
  have hahead : (h.oseq.toNat + 65536 - (arrived s port h).expected (flowKey h.src h.flow)) % 65536 = 0 := by
    rw [hturn, Nat.add_sub_cancel_left]
  unfold State.terminateIn
  rw [terminate_passed hpass]
  simp only [State.inOrder, if_pos hahead, hf, flowTurn]

end

/-! ### Data, acknowledgements and counters -/

section
variable {s v : State} {port : Fin 24} {h : PktHdr} (hpass : Passed s port h) (hv : arrived s port h = v)
include hpass hv

theorem write_passed {rva : BitVec 64} {xid : BitVec 32} {po : BitVec 8} {data : List Byte} {e : BitVec 128} {t : State} {q : Bool}
    (hlen : h.len.toNat = data.length + 16) (hkey : v.keyFor port h true = some e) (hsector : rva.toNat % 16 = 0 ∨ rva.toNat % 16 + data.length ≤ 16)
    (hwrite : v.writeHome (keyVi e) (keyAsid e) rva.toNat data (po.getLsbD 0) = .ok t q) :
    exec (.write port h rva xid po data) s = .next ((t.meterIn (keyVi e) (keyAsid e) rva.toNat data.length).ackTo port h xid 0) := by
  have hok : ¬(rva.toNat % 16 != 0 && decide (16 < rva.toNat % 16 + data.length)) = true := by
    simp only [Bool.and_eq_true, bne_iff_ne, decide_eq_true_eq]
    omega
  rw [exec_write]
  simp only [execWrite, hlen, bne_self_eq_false, Bool.false_eq_true, if_false, terminate_passed hpass, hv, hkey, State.remoteWrite,
    if_neg hok, hwrite, State.remoteDone]

theorem ack_passed {xid : BitVec 32} {st : BitVec 8} (hst : st.toNat < 4) : exec (.ack port h xid st) s =
    .next (match v.fabric.sent.find? (fun x => x.xid == xid && x.hdr.dest == h.src) with
      | some x => v.acked x st.toNat
      | none => v) := by
  rw [exec_ack]
  simp only [execAck, terminate_passed hpass, hv, if_neg (Nat.not_le.2 hst)] <;> rfl

variable (hturn : h.oseq.toNat = v.expected (flowKey h.src h.flow))
include hturn

theorem counterPacket_turn {rva n : BitVec 64} {xid : BitVec 32} {e : BitVec 128} {f : Nat → Nat} {i : Instr} {t u : State} {q : Bool} {bs : List Byte}
    (hkey : v.keyFor port h true = some e) (haligned : rva.toNat % 8 = 0)
    (hread : v.readHome (keyVi e) (keyAsid e) rva.toNat 8 = .ok t (bs, false))
    (hwrite : t.writeHome (keyVi e) (keyAsid e) rva.toNat (toBytes (f (ofBytes bs) % 2 ^ 64) 8) false = .ok u q) :
    s.counterPacket port h rva n xid f i =
      flowTurn (flowKey h.src h.flow) ((u.meterIn (keyVi e) (keyAsid e) rva.toNat 8).ackTo port h xid 0) := by
  refine terminateIn_turn hpass (hv ▸ hturn) _ ?_
  simp only [hv, hkey, State.remoteCounter, haligned, bne_self_eq_false, Bool.false_eq_true, if_false, hread, hwrite, State.remoteDone]

theorem mreq_turn {mop limit : Nat} {i : BitVec 32} {rid : BitVec 64} {d : BitVec 128} {f : State → State × BitVec 128} :
    (i.toNat < limit → s.mreq port h mop limit i rid d f = flowTurn (flowKey h.src h.flow) ((f v).1.answer port h mop 0 i rid (f v).2)) ∧
    (limit ≤ i.toNat → s.mreq port h mop limit i rid d f = flowTurn (flowKey h.src h.flow) (v.answer port h mop 2 i rid 0)) := by
  refine ⟨fun hin => terminateIn_turn hpass (hv ▸ hturn) _ ?_, fun hout => terminateIn_turn hpass (hv ▸ hturn) _ ?_⟩
  · rw [hv, if_neg (Nat.not_le.2 hin)]
  · rw [hv, if_pos hout]

theorem linkdown_turn {dev : BitVec 17} {dn re : BitVec 8} {tm : BitVec 64} :
    exec (.linkdown port h dev dn re tm) s = .next (flowTurn (flowKey h.src h.flow) v) :=
  congrArg Host.Outcome.next (terminateIn_turn hpass (hv ▸ hturn) _ (congrArg (·, true) hv))

theorem undeliv_turn {dr : BitVec 128} {xid : BitVec 32} {re : BitVec 8} {tm : BitVec 64} {x : Sent}
    (hmine : (hdrOf dr.toNat).src = v.fabric.self) (hlow : 1 ≤ (hdrOf dr.toNat).op.toNat) (hhigh : (hdrOf dr.toNat).op.toNat ≤ 4)
    (hsent : v.fabric.sent.find? (fun x => x.xid == xid && x.hdr.dest == (hdrOf dr.toNat).dest) = some x) :
    exec (.undeliv port h dr xid re tm) s = .next (flowTurn (flowKey h.src h.flow) (v.lost x)) := by
  refine congrArg Host.Outcome.next (terminateIn_turn hpass (hv ▸ hturn) _ ?_)
  rw [hv]
  simp only [hmine, beq_self_eq_true, decide_eq_true hlow, decide_eq_true hhigh, Bool.and_self, if_true, hsent]

end

section
variable {s : State} {port : Nat} {h : PktHdr}

theorem counterPacket_terminate (rva n : BitVec 64) (xid : BitVec 32) (f : Nat → Nat) (i : Instr) :
    ∃ g, (.next (s.counterPacket port h rva n xid f i) : Host.Outcome State Fault Refusal) = .next (s.terminate port h g) := by
  unfold State.counterPacket State.terminateIn
  exact ⟨_, rfl⟩

theorem mreq_terminate (mop limit : Nat) (i : BitVec 32) (rid : BitVec 64) (d : BitVec 128) (f : State → State × BitVec 128) :
    ∃ g, (.next (s.mreq port h mop limit i rid d f) : Host.Outcome State Fault Refusal) = .next (s.terminate port h g) := by
  unfold State.mreq State.terminateIn
  exact ⟨_, rfl⟩

end

/-- The steps of packets that their ingress alone decides, each as `terminate` of what it does. -/
theorem exec_terminate {port : Fin 24} {h : PktHdr} {rva n : BitVec 64} {xid i : BitVec 32} {rid : BitVec 64} {d : BitVec 128} {st re : BitVec 8}
    {tm : BitVec 64} {dev : BitVec 17} {dn : BitVec 8} {row : Instr} (hrow : row ∈ [Instr.caddPacket port h rva n xid, .csetPacket port h rva n xid,
      .cmax port h rva n xid, .ack port h xid st, .rtwrite port h i rid d, .rtread port h i rid d, .rtreada port h i rid d,
      .keywrite port h i rid d, .keyread port h i rid d, .commit port h i rid d, .subwrite port h i rid d, .subread port h i rid d,
      .portdown port h i rid d, .linkdown port h dev dn re tm, .undeliv port h d xid re tm]) (s : State) :
    ∃ f, exec row s = .next (s.terminate port h f) := by
  simp only [List.mem_cons, List.not_mem_nil, or_false] at hrow
  rcases hrow with rfl | rfl | rfl | rfl | rfl | rfl | rfl | rfl | rfl | rfl | rfl | rfl | rfl | rfl | rfl
  · exact counterPacket_terminate ..
  · exact counterPacket_terminate ..
  · exact counterPacket_terminate ..
  · exact ⟨_, rfl⟩
  · exact mreq_terminate ..
  · exact mreq_terminate ..
  · exact mreq_terminate ..
  · exact mreq_terminate ..
  · exact mreq_terminate ..
  · exact mreq_terminate ..
  · exact mreq_terminate ..
  · exact mreq_terminate ..
  · exact mreq_terminate ..
  · exact ⟨_, rfl⟩
  · exact ⟨_, rfl⟩

/-! ### Flits and ports -/

@[simp] theorem port_modPort_self (s : State) (p : Nat) (f : Port → Port) : (s.modPort p f).port p = f (s.port p) := tabGet_tabPut_self ..

section
variable {port : Fin 24} {f : Flit} {s v w : State} (hup : (s.port port).up = true) (hv : s.heard port = v)
include hup hv

theorem ackFlit_open : exec (.ackFlit port f) s = .next (if flitGood 2 f then v.ackFlits port (f.ackSeq.toNat % 4096) else v) := by
  rw [exec_ackFlit]
  simp only [execAckFlit, hup, hv, Bool.not_true, Bool.false_eq_true, if_false]
  exact (apply_ite Host.Outcome.next ..).symm

theorem nakFlit_open : exec (.nakFlit port f) s =
    .next (if flitGood 3 f then (v.ackFlits port (f.ackSeq.toNat % 4096)).modPort port (fun y => { y with next := 0 }) else v) := by
  rw [exec_nakFlit]
  simp only [execNakFlit, hup, hv, Bool.not_true, Bool.false_eq_true, if_false]
  exact (apply_ite Host.Outcome.next ..).symm

theorem idleFlit_open : exec (.idleFlit port f) s = .next (if flitGood 0 f then v.ackFlits port (f.ackSeq.toNat % 4096) else v) := by
  rw [exec_idleFlit]
  simp only [execIdleFlit, hup, hv, Bool.not_true, Bool.false_eq_true, if_false]
  exact (apply_ite Host.Outcome.next ..).symm

theorem dataFlit_bad (hbad : flitGood 1 f = false) : exec (.dataFlit port f) s = .next (v.dropFlit port true) := by
  rw [exec_dataFlit]
  simp only [execDataFlit, hup, hv, hbad, Bool.not_true, Bool.not_false, Bool.false_eq_true, if_false, if_true]

variable (hgood : flitGood 1 f = true) (hw : v.ackFlits port (f.ackSeq.toNat % 4096) = w)
include hgood hw

theorem dataFlit_behind (hseq : f.seq.toNat % 4096 ≠ (s.port port).rxSeq) : exec (.dataFlit port f) s = .next (w.dropFlit port false) := by
  rw [exec_dataFlit]
  simp only [execDataFlit, hup, hv, hgood, hw, bne_iff_ne.2 hseq, Bool.not_true, Bool.false_eq_true, if_false, if_true]

theorem dataFlit_next (hseq : f.seq.toNat % 4096 = (s.port port).rxSeq) (hfresh : (s.port port).nakked = false) (hplain : flitPlain f = true) :
    exec (.dataFlit port f) s = .next (((w.modPort port (fun y => { y with rxSeq := (y.rxSeq + 1) % 4096, nakked := false, replays := 0 })).modPort
      port (fun y => { y with said := some (2, y.ackSeq) })).parsePackets port ((s.port port).part ++ f.payload)
        ((s.port port).part.length + 2)) := by
  rw [exec_dataFlit]
  simp only [execDataFlit, hup, hv, hgood, hw, hseq, hfresh, hplain, bne_self_eq_false, Bool.not_true, Bool.false_eq_true, if_false]

end

theorem dropFlit_first {s : State} {port : Fin 24} (h : (s.port port).nakked = false) (crc : Bool) : s.dropFlit port crc =
    s.modPort port (fun y => { y with nakked := true, said := some (3, y.ackSeq), replays := if y.nakked then y.replays + 1 else 0 }) := by
  simp only [State.dropFlit, h, Bool.false_and, Bool.false_eq_true, if_false]

theorem dropFlit_again {s : State} {port : Fin 24} (h : (s.port port).nakked = true) : s.dropFlit port true = s.dropPort port 1 := by
  simp only [State.dropFlit, h, Bool.true_or, Bool.and_self, if_true]

/-! ### Timers -/

section
variable {src : BitVec 17} {flow : BitVec 12} {s : State} {p : Nat × Nat × PktHdr × List Byte} (hhold : s.fabric.hold = [p])
  (hsrc : p.2.2.1.src = src) (hflow : p.2.2.1.flow = flow) (hfaults : s.faults = [])
include hhold hsrc hflow hfaults

theorem orderedHoldExpiry_open : exec (.orderedHoldExpiry src flow) s = if p.2.1 + 120000 ≤ s.clk then
      .next ((({ s with fabric := { s.fabric with hold := [] } } : State).undeliverable (unitWord 11 p.1) p.2.2.1 p.2.2.2 2).expect
        (flowKey src flow) (s.expected (flowKey src flow) + (p.2.2.1.oseq.toNat + 65536 - s.expected (flowKey src flow)) % 65536 + 1))
    else .next s := by
  have hmine : heldOf (flowKey src flow) p = true := by
    unfold heldOf
    rw [hsrc, hflow]
    exact beq_self_eq_true _
  rw [exec_orderedHoldExpiry]
  by_cases hdue : p.2.1 + 120000 ≤ s.clk
  · simp [execOrderedHoldExpiry, hhold, hfaults, hmine, hdue]
  · simp [execOrderedHoldExpiry, hhold, hfaults, hmine, hdue]

end

/-- Settles O41: a packet's step is `terminate` of what it does, a flit's is read off the guards of its port. -/
theorem packetsAndFlits : Obligations.PacketsAndFlits := by
  refine ⟨fun port h s => ?_, ?_, ?_, ?_⟩
  · intro past here
    refine ⟨fun hpass => ?_, fun hpast rva n xid i rid d st re tm dev dn row hrow => ?_⟩
    · intro v
      have hp : Passed s port h := hpass
      have hv : arrived s port h = v := rfl
      refine ⟨fun rva xid po data e hlen hkey hsector t q hwrite => write_passed hp hv hlen hkey hsector hwrite, fun xid st hst => ?_, fun hturn => ?_⟩
      · exact ack_passed hp hv hst
      · intro k turn
        refine ⟨fun rva n xid e hkey haligned t bs hread row hrow u q hwrite => ?_, fun i rid d row hrow => ?_, fun dev dn re tm => ?_,
          fun dr xid re tm x hmine hlow hhigh hsent => undeliv_turn hp hv hturn hmine hlow hhigh hsent⟩
        · simp only [List.mem_cons, List.not_mem_nil, or_false] at hrow
          rcases hrow with rfl | rfl | rfl
          · exact congrArg Host.Outcome.next (counterPacket_turn hp hv hturn (f := fun x => x + n.toNat) hkey haligned hread hwrite)
          · exact congrArg Host.Outcome.next (counterPacket_turn hp hv hturn (f := fun _ => n.toNat) hkey haligned hread hwrite)
          · exact congrArg Host.Outcome.next (counterPacket_turn hp hv hturn (f := fun x => Nat.max x n.toNat) hkey haligned hread hwrite)
        · have hmreq := fun (mop limit : Nat) (f : State → State × BitVec 128) => mreq_turn hp hv hturn (mop := mop) (limit := limit) (i := i) (rid := rid) (d := d) (f := f)
          simp only [List.mem_cons, List.not_mem_nil, or_false] at hrow
          rcases hrow with rfl | rfl | rfl | rfl | rfl | rfl | rfl | rfl | rfl <;>
            exact ⟨fun hin => congrArg Host.Outcome.next ((hmreq _ _ _).1 hin), fun hout => congrArg Host.Outcome.next ((hmreq _ _ _).2 hout)⟩
        · exact linkdown_turn hp hv hturn
    · obtain ⟨f, hf⟩ := exec_terminate hrow s
      exact ⟨fun hhere => hf.trans (congrArg _ (terminate_down hpast hhere f)),
        fun hhere hbad => hf.trans (congrArg _ (terminate_refused hpast hhere hbad f))⟩
  · intro port f s hup v w last
    have hv : s.heard port = v := rfl
    have hnakked : (v.port port).nakked = (s.port port).nakked := (congrArg Port.nakked (port_modPort_self s port.val (fun x => { x with rx := s.clk })) :)
    refine ⟨fun row hrow => ?_, fun hgood hseq hfresh hplain => ?_, fun hbad hfresh => ?_, fun hgood hseq hfresh => ?_, fun hbad hagain => ?_,
      fun r hr => ?_, fun r hr hsilent => ?_⟩
    · simp only [List.mem_cons, List.not_mem_nil, or_false] at hrow
      rcases hrow with rfl | rfl | rfl
      · rw [ackFlit_open hup hv]
        exact ⟨fun hgood => congrArg _ (if_pos hgood), fun hbad => congrArg _ (if_neg (not_of_eq_false hbad))⟩
      · rw [nakFlit_open hup hv]
        exact ⟨fun hgood => congrArg _ (if_pos hgood), fun hbad => congrArg _ (if_neg (not_of_eq_false hbad))⟩
      · rw [idleFlit_open hup hv]
        exact ⟨fun hgood => congrArg _ (if_pos hgood), fun hbad => congrArg _ (if_neg (not_of_eq_false hbad))⟩
    · exact dataFlit_next hup hv hgood rfl hseq hfresh hplain
    · exact (dataFlit_bad hup hv hbad).trans (congrArg _ (dropFlit_first (hnakked.trans hfresh) true))
    · exact (dataFlit_behind hup hv hgood rfl hseq).trans (congrArg _ (dropFlit_first hfresh false))
    · exact (dataFlit_bad hup hv hbad).trans (congrArg _ (dropFlit_again (hnakked.trans hagain)))
    · refine if_neg (fun hc => ?_)
      obtain ⟨htwo, hquiet⟩ := Bool.and_eq_true_iff.1 hc
      rcases hr with h | h
      · exact h (of_decide_eq_true htwo)
      · exact absurd (of_decide_eq_true hquiet) (Nat.not_lt.2 h)
    · exact if_pos (Bool.and_eq_true_iff.2 ⟨decide_eq_true hr, decide_eq_true hsilent⟩)
  · intro xid x s hsent
    rw [exec_undeliverableTimeout]
    simp only [execUndeliverableTimeout, hsent]
  · intro src flow s p hhold hsrc hflow hfaults
    rw [orderedHoldExpiry_open hhold hsrc hflow hfaults]
    exact ⟨fun hearly => if_neg (Nat.not_le.2 hearly), fun hdue => if_pos hdue⟩

end Sys2Proof
end

section
/-! # Commands

A mailbox command answers by the first of its three checks that fails (`command_answers`); a translation command refuses, waits for the
page of its DONE, or runs (`cmdRun_runs`, `cmdRun_waits`); a session is what its SELECT and the interface's mask give. -/
namespace Sys2Proof
open Sys2Proof.Machine

/-! ### Mailbox commands -/

section
variable {s : State} {p : Fin 8} {tag : BitVec 16} {x : Partition} {row : Instr} {range : Bool} {inside able : Partition → Bool}
  {f : State → State × List Byte}

theorem command_closed (h : s.mgmt.state ≠ 4 ∨ (s.box p.val).state ≠ 0) : s.command p tag range inside able f = s := by
  have hclosed : (s.mgmt.state != 4 || (s.box p.val).state != 0) = true := by
    simpa only [Bool.or_eq_true, bne_iff_ne] using h
  simp only [State.command, if_pos hclosed]

theorem command_open (hready : s.mgmt.state = 4) (hidle : (s.box p.val).state = 0) (hpart : tabFind s.mgmt.parts p.val = some x) :
    s.command p tag range inside able f = if !range then s.reply p tag 1 [] else if !inside x then s.reply p tag 2 []
      else if !able x then s.reply p tag 3 [] else (f s).1.reply p tag 0 (f s).2 := by
  simp only [State.command, State.part, hready, hidle, hpart, bne_self_eq_false, Bool.or_self, Bool.false_eq_true, if_false]

/-- The answers of a mailbox command, by the first of its checks that fails. -/
theorem command_answers (hrow : exec row s = .next (s.command p tag range inside able f)) :
    (s.mgmt.state ≠ 4 ∨ (s.box p.val).state ≠ 0 → exec row s = .next s) ∧
    (s.mgmt.state = 4 → (s.box p.val).state = 0 → tabFind s.mgmt.parts p.val = some x →
      (range = false → exec row s = .next (s.reply p tag 1 [])) ∧
      (range = true → inside x = false → exec row s = .next (s.reply p tag 2 [])) ∧
      (range = true → inside x = true → able x = false → exec row s = .next (s.reply p tag 3 [])) ∧
      (range = true → inside x = true → able x = true → exec row s = .next ((f s).1.reply p tag 0 (f s).2))) := by
  refine ⟨fun hclosed => hrow.trans (congrArg _ (command_closed hclosed)), fun hready hidle hpart => ?_⟩
  rw [hrow, command_open hready hidle hpart]
  refine ⟨fun hr => ?_, fun hr hi => ?_, fun hr hi ha => ?_, fun hr hi ha => ?_⟩
  · rw [hr]; rfl
  · rw [hr, hi]; rfl
  · rw [hr, hi, ha]; rfl
  · rw [hr, hi, ha]; rfl

end

/-! ### Translation commands -/

section
variable {s : State} {vi : BitVec 8} {e : TCmd} {row : Instr} {f : State → State}

theorem cmdRun_runs (h : ∀ st ipa, s.stage2 48 vi e.done.toNat ≠ .fault st ipa) : s.cmdRun vi e row f = ((f s).cmdDone vi e).cmdNext vi := by
  unfold State.cmdRun
  split
  · exact absurd ‹_› (h _ _)
  · rfl

theorem cmdRun_waits {st ipa : Nat} (h : s.stage2 48 vi e.done.toNat = .fault st ipa) :
    s.cmdRun vi e row f = (s.raise vi 0 0 st ipa 2 noName (.step row)).1 := by
  simp only [State.cmdRun, h, State.cmdWait]

theorem cmdDone_written {pa : Nat} (hpa : s.ipa vi e.done.toNat = some pa) (hok : s.ownOk pa = true) : s.cmdDone vi e = s.putNum pa 8 1 := by
  simp only [State.cmdDone, hpa, if_pos hok]

variable (hon : s.viBit vi 0 = true)
include hon

theorem purge_refused (hwhole : e.flags.getLsbD 1 = true) (hguest : s.viBit vi 3 = false) : exec (.purge vi e) s = .next (s.cmdRefuse vi e) := by
  rw [exec_purge]
  simp only [execPurge, hon, hwhole, hguest, Bool.not_true, Bool.not_false, Bool.and_self, Bool.false_eq_true, if_false, if_true]

theorem purge_allowed (h : e.flags.getLsbD 1 = false ∨ s.viBit vi 3 = true) :
    exec (.purge vi e) s = .next (s.cmdRun vi e (.purge vi e) (fun s => s.purge (s.purgeOf vi e))) := by
  have hmay : (e.flags.getLsbD 1 && !s.viBit vi 3) = false := by
    rcases h with h | h
    · rw [h, Bool.false_and]
    · rw [h, Bool.not_true, Bool.and_false]
  rw [exec_purge]
  simp only [execPurge, hon, hmay, Bool.not_true, Bool.false_eq_true, if_false]

/-- The frame of a FOTSET is the hypervisor's partition's. -/
def FotsetMine (s : State) (vi : BitVec 8) (e : TCmd) : Prop :=
  ∃ x, s.viBit vi 3 = true ∧ tabFind s.mgmt.parts (s.viPart vi) = some x ∧ x.hasPa e.addr.toNat = true

theorem fotset_mine (h : FotsetMine s vi e) : exec (.fotset vi e) s = .next (s.cmdRun vi e (.fotset vi e) (fun s =>
    s.putNum (e.addr.toNat / 0x200000000 * 0x200000000 + (0x200000000 - 0x40000) + 2 * (e.addr.toNat % 0x200000000 / 65536)) 2
      (e.count.toNat % 65536))) := by
  obtain ⟨x, hhyp, hpart, hpa⟩ := h
  rw [exec_fotset]
  simp only [execFotset, State.part, hon, hhyp, hpart, hpa, Bool.not_true, Bool.or_self, Bool.false_eq_true, if_false]

theorem fotset_refused (h : ¬FotsetMine s vi e) : exec (.fotset vi e) s = .next (s.cmdRefuse vi e) := by
  rw [exec_fotset]
  cases hhyp : s.viBit vi 3 with
  | false => simp only [execFotset, hon, hhyp, Bool.not_true, Bool.not_false, Bool.true_or, Bool.false_eq_true, if_false, if_true]
  | true =>
    cases hpart : tabFind s.mgmt.parts (s.viPart vi) with
    | none => simp only [execFotset, State.part, hon, hhyp, hpart, Bool.not_true, Bool.not_false, Bool.or_true, Bool.false_eq_true, if_false, if_true]
    | some x =>
      have hpa : x.hasPa e.addr.toNat = false := Bool.eq_false_iff.2 (fun hpa => h ⟨x, hhyp, hpart, hpa⟩)
      simp only [execFotset, State.part, hon, hhyp, hpart, hpa, Bool.not_true, Bool.not_false, Bool.or_true, Bool.false_eq_true, if_false, if_true]

theorem resume_refused (h : 1 < e.count.toNat) : exec (.resume vi e) s = .next (s.cmdRefuse vi e) := by
  rw [exec_resume]
  simp only [execResume, hon, if_pos h, Bool.not_true, Bool.false_eq_true, if_false]

/-- What a RESUME does to the fault of its token. -/
def resumed (e : TCmd) (s : State) : State :=
  match tabFind s.faults (e.addr.toNat % 2 ^ 32) with
  | none => s
  | some f =>
    let s := { s with faults := tabDel s.faults (e.addr.toNat % 2 ^ 32) }
    if e.count = 1 then
      f.steps.foldl (fun s i => s.denyStep f.va i)
        (f.splits.foldl (fun (s : State) (a : Agent × Word) => s.denyAgent (e.addr.toNat % 2 ^ 32) a.1 a.2) s)
    else f.steps.foldl State.soon (f.splits.foldl (fun (s : State) (a : Agent × Word) => s.unpark (e.addr.toNat % 2 ^ 32) a.1) s)

theorem resume_allowed (h : e.count.toNat ≤ 1) : exec (.resume vi e) s = .next (s.cmdRun vi e (.resume vi e) (resumed e)) := by
  rw [exec_resume]
  simp only [execResume, hon, if_neg (Nat.not_lt.2 h), Bool.not_true, Bool.false_eq_true, if_false]
  rfl

end

section
variable {e : TCmd} {s : State}

theorem resumed_none (h : tabFind s.faults (e.addr.toNat % 2 ^ 32) = none) : resumed e s = s := by
  simp only [resumed, h]

variable {f : FaultRec} (h : tabFind s.faults (e.addr.toNat % 2 ^ 32) = some f)
include h

theorem resumed_retry (hcount : e.count.toNat = 0) : resumed e s = f.steps.foldl State.soon (f.splits.foldl
    (fun (s : State) (a : Agent × Word) => s.unpark (e.addr.toNat % 2 ^ 32) a.1) { s with faults := tabDel s.faults (e.addr.toNat % 2 ^ 32) }) := by
  have hne : ¬e.count = 1 := fun hc => by rw [hc] at hcount; cases hcount
  simp only [resumed, h, if_neg hne]

theorem resumed_deny (hcount : e.count.toNat = 1) : resumed e s = f.steps.foldl (fun s i => s.denyStep f.va i) (f.splits.foldl
    (fun (s : State) (a : Agent × Word) => s.denyAgent (e.addr.toNat % 2 ^ 32) a.1 a.2)
      { s with faults := tabDel s.faults (e.addr.toNat % 2 ^ 32) }) := by
  have heq : e.count = 1 := BitVec.eq_of_toNat_eq hcount
  simp only [resumed, h, if_pos heq]

end

/-! ### Sessions -/

/-- A record leaves the record of every virtual interface. -/
theorem report_viBit (s : State) (cls sev unit : Nat) (ctx : BitVec 8 × BitVec 16) (addr retry addrk code : Nat) (name : List Byte)
    (vi : BitVec 8) (b : Nat) : (s.report cls sev unit ctx addr retry addrk code name).viBit vi b = s.viBit vi b := by
  have hused : (s.report cls sev unit ctx addr retry addrk code name).mgmt.used = s.mgmt.used :=
    report_mgmt _ _ _ _ _ _ _ _ _ _ Mgmt.used (fun _ _ => rfl) (fun _ _ => rfl)
  simp only [State.viBit, State.viField, State.viRec, hused]

/-- The records of the reserved events among a session's selected ones. -/
def notedEvents (vi : BitVec 8) (asid : BitVec 16) (status : Word) (s : State) : State :=
  ((List.range 64).filter (fun n => status.getLsbD n)).foldl (fun s n => s.report 7 0 (unitWord 9 0) (vi, asid) n 0 0 0x88 noName) s

theorem notedEvents_viBit (vi : BitVec 8) (asid : BitVec 16) (status : Word) (s : State) (b : Nat) :
    (notedEvents vi asid status s).viBit vi b = s.viBit vi b :=
  foldl_keeps (fun s : State => s.viBit vi b) _ (fun s n => report_viBit s _ _ _ _ n _ _ _ _ vi b) _ s

/-- The session that a SELECT opens, with the counts that a migration record carries for the events allowed in `v`. -/
def openedSession (v : State) (vi : BitVec 8) (select : Word) (carried : Option (List (BitVec 64))) : Session :=
  { select := select, status := select &&& 0xFFFFFFFFFFE00000, counts := match carried with
    | none => []
    | some cs => ((List.range 21).filter (fun n => select.getLsbD n && (v.viField vi 0x30 8).testBit n)).map (fun n => (n, cs.getD n 0)) }

/-- The state with a context's session. -/
def withSession (v : State) (vi : BitVec 8) (asid : BitVec 16) (n : Session) : State :=
  { v with mgmt := { v.mgmt with sessions := tabPut v.mgmt.sessions (ringCtx vi asid) n } }

section
variable {vi : BitVec 8} {asid : BitVec 16} {s v w : State} {r : RingAt} {sel : Nat} {carried : Option (List (BitVec 64))}
  (hon : s.viBit vi 0 = true) (hring : s.ringAt (ringCtx vi asid) = some r) (hread : r.read s (r.base + 0x18) 8 = some (v, sel))
include hon hring hread

/-- A session is opened, its STATUS written; under MODE 1 each selected event that is not allowed is noticed. -/
theorem sessionOpen_open {status : Word} {t : State} (hstatus : status = BitVec.ofNat 64 sel &&& 0xFFFFFFFFFFE00000)
    (ht : t = withSession v vi asid (openedSession v vi (BitVec.ofNat 64 sel) carried)) : exec (.sessionOpen vi ⟨asid, carried⟩) s =
    .next ((fun (u : State) => if u.viBit vi 1 then ((List.range 21).filter (fun n => u.eventOff vi asid n)).foldl
        (fun s n => s.report 7 0 (unitWord 9 0) (vi, asid) n 0 0 0x87 noName) u else u)
      (if carried.isSome then notedEvents vi asid status ((r.write t (r.base + 0x20) (toBytes status.toNat 8)).getD t)
        else (r.write t (r.base + 0x20) (toBytes status.toNat 8)).getD t)) := by
  subst hstatus ht
  rw [exec_sessionOpen]
  simp only [execSessionOpen, hon, hring, hread, Bool.not_true, Bool.false_eq_true, if_false] <;> rfl

theorem sessionOpen_own {status : Word} {t : State} (hstatus : status = BitVec.ofNat 64 sel &&& 0xFFFFFFFFFFE00000)
    (ht : t = withSession v vi asid (openedSession v vi (BitVec.ofNat 64 sel) carried))
    (hwrite : r.write t (r.base + 0x20) (toBytes status.toNat 8) = some w) (hown : w.viBit vi 1 = false) :
    exec (.sessionOpen vi ⟨asid, carried⟩) s = .next (if carried.isSome then notedEvents vi asid status w else w) := by
  have hquiet : (if carried.isSome then notedEvents vi asid status w else w).viBit vi 1 = false := by
    split
    · rw [notedEvents_viBit, hown]
    · exact hown
  rw [sessionOpen_open hon hring hread hstatus ht, hwrite, Option.getD_some]
  exact congrArg Host.Outcome.next (if_neg (not_of_eq_false hquiet))

end

/-- Settles O40: a mailbox command's row is `command_answers` of its checks and effect; a translation command is refused, waits or runs. -/
theorem commands : Obligations.Commands := by
  refine ⟨?_, ?_, ?_, ?_⟩
  · intro p tag vi asid pa n e l m name s x yes mine row hrow ok
    simp only [List.mem_cons, List.not_mem_nil, or_false] at hrow
    rcases hrow with rfl | rfl | rfl | rfl | rfl | rfl | rfl | rfl | rfl | rfl
    · exact command_answers rfl
    · exact command_answers rfl
    · exact command_answers rfl
    · exact command_answers rfl
    · exact command_answers rfl
    · exact command_answers rfl
    · exact command_answers rfl
    · exact command_answers rfl
    · exact command_answers rfl
    · exact command_answers rfl
  · intro vi e s hon done refuse there mine
    refine ⟨fun hmay hthere => ?_, fun hwhole hguest => purge_refused hon hwhole hguest, fun hmine hthere => ?_, fun hnot => fotset_refused hon hnot,
      fun hcount => resume_refused hon hcount, fun st ipa hfault => ?_, fun hcount hthere hnone => ?_, fun f hthere hfound => ?_⟩
    · rw [purge_allowed hon hmay, cmdRun_runs hthere]
    · rw [fotset_mine hon hmine, cmdRun_runs hthere]
    · exact ⟨fun hmay => (purge_allowed hon hmay).trans (congrArg _ (cmdRun_waits hfault)),
        fun hmine => (fotset_mine hon hmine).trans (congrArg _ (cmdRun_waits hfault)),
        fun hcount => (resume_allowed hon hcount).trans (congrArg _ (cmdRun_waits hfault))⟩
    · rw [resume_allowed hon hcount, cmdRun_runs hthere, resumed_none hnone]
    · intro t
      refine ⟨fun hcount => ?_, fun hcount => ?_⟩
      · rw [resume_allowed hon (by omega), cmdRun_runs hthere, resumed_retry hfound hcount]
      · rw [resume_allowed hon (by omega), cmdRun_runs hthere, resumed_deny hfound hcount]
  · exact fun vi e s pa hpa hok => cmdDone_written hpa hok
  · intro vi asid s v w r sel carried hon hmode hring hread x status n t hwrite hown
    exact sessionOpen_own hon hring hread rfl rfl hwrite hown

end Sys2Proof
end

section
/-! O47, the vocabulary: `Safe` of the states inside the answers that the model's functions give (options, homes, gates,
acts, outcomes), how it passes through folds and binds, and that it depends on memory alone. The sections after this one
say of each function that a step calls that it keeps `Safe`; they follow the model's order. -/
namespace Sys2Proof
open Sys2Proof.Machine

theorem safe_iff (s : State) : Safe s ↔ Memory.wf s.mem = true := Iff.rfl

theorem Safe.foldl {α : Type} {f : State → α → State} {s : State} (h : Safe s) (l : List α)
    (hf : ∀ s x, Safe s → Safe (f s x)) : Safe (l.foldl f s) := by
  induction l generalizing s with
  | nil => exact h
  | cons x r ih => exact ih (hf s x h)

theorem Safe.foldl_fst {α β : Type} {f : State × β → α → State × β} {p : State × β} (h : Safe p.1) (l : List α)
    (hf : ∀ p x, Safe p.1 → Safe (f p x).1) : Safe (l.foldl f p).1 := by
  induction l generalizing p with
  | nil => exact h
  | cons x r ih => exact ih (hf p x h)

theorem Safe.foldl_put {α : Type} {f : Put → α → Put} {p : Put} (h : Safe p.s) (l : List α)
    (hf : ∀ p x, Safe p.s → Safe (f p x).s) : Safe (l.foldl f p).s := by
  induction l generalizing p with
  | nil => exact h
  | cons x r ih => exact ih (hf p x h)

theorem Safe.foldl_work {α : Type} {f : Work → α → Work} {p : Work} (h : Safe p.s) (l : List α)
    (hf : ∀ p x, Safe p.s → Safe (f p x).s) : Safe (l.foldl f p).s := by
  induction l generalizing p with
  | nil => exact h
  | cons x r ih => exact ih (hf p x h)

theorem Safe.foldl_work_fst {α β : Type} {f : Work × β → α → Work × β} {p : Work × β} (h : Safe p.1.s) (l : List α)
    (hf : ∀ p x, Safe p.1.s → Safe (f p x).1.s) : Safe (l.foldl f p).1.s := by
  induction l generalizing p with
  | nil => exact h
  | cons x r ih => exact ih (hf p x h)

/-- A state, where there is one, is safe. -/
def SafeOpt : Option State → Prop
  | none => True
  | some t => Safe t
/-- The state of a pair, where there is one, is safe. -/
def SafeSome {α : Type} : Option (State × α) → Prop
  | none => True
  | some p => Safe p.1
/-- The state that an access by address leaves, where it reached its bytes. -/
def SafeReach {α : Type} : Reach α → Prop
  | .ok t _ => Safe t
  | _ => True
/-- The state with the line at its home. -/
def SafeHome : Home → Prop
  | .ok t => Safe t
  | _ => True
/-- An answer of a home, where there is one. -/
def SafeOptHome : Option Home → Prop
  | some h => SafeHome h
  | none => True
/-- The state that a translation leaves, whatever it answers. -/
def SafeTrans : Trans → Prop
  | .ok t _ => Safe t
  | .fault t _ _ => Safe t
  | .bad t => Safe t
/-- The state of an element that a load or atomic got. -/
def SafeGot : Got → Prop
  | .ok t _ _ => Safe t
  | .stop _ => True
/-- The state that a send to another device leaves. -/
def SafeRemote : Remote → Prop
  | .ok t => Safe t
  | .refused t _ => Safe t
  | .waits t => Safe t
/-- The state in which an issue goes on. -/
def SafeGate : Gate → Prop
  | .go _ t => Safe t
  | _ => True
/-- The state that an attempt leaves. -/
def SafePick : Pick → Prop
  | .idle t => Safe t
  | .run _ t => Safe t
  | .reject _ _ _ t => Safe t
/-- Every state that the answer of a meaning holds or makes from a safe one. -/
def SafeAct : Act → Prop
  | .done t => Safe t
  | .jump t _ => Safe t
  | .wait _ => True
  | .trap _ _ => True
  | .trapOn t _ _ => Safe t
  | .trapAnd f _ _ => ∀ s, Safe s → Safe (f s)
  | .sys _ _ => True
  | .park t _ _ => Safe t
  | .gone t => Safe t
/-- An answer of a meaning, where there is one. -/
def SafeOptAct : Option Act → Prop
  | some a => SafeAct a
  | none => True
/-- The next state, where an outcome is one. -/
def SafeNext : Host.Outcome State Fault Refusal → Prop
  | .next t => Safe t
  | _ => True

/-- Memory is all that counts. -/
theorem Safe.of_mem {s t : State} (h : Safe s) (e : t.mem = s.mem) : Safe t := by
  rw [safe_iff, e]
  exact h

theorem Safe.next {t : State} (h : Safe t) : SafeNext (.next t) := h

theorem SafeSome.getD {α : Type} {o : Option (State × α)} (h : SafeSome o) {s : State} (x : α) (hs : Safe s) :
    Safe (o.getD (s, x)).1 := by
  cases o with
  | none => exact hs
  | some p => exact h

theorem SafeSome.map {α β : Type} {o : Option (State × α)} (h : SafeSome o) (f : State × α → β) :
    SafeSome (o.map (fun p => (p.1, f p))) := by
  cases o with
  | none => trivial
  | some p => exact h

theorem SafeOpt.getD {o : Option State} (h : SafeOpt o) {s : State} (hs : Safe s) : Safe (o.getD s) := by
  cases o with
  | none => exact hs
  | some t => exact h

theorem Safe.ite {p : Prop} [Decidable p] {s t : State} (hs : Safe s) (ht : Safe t) : Safe (if p then s else t) := by
  split
  · exact hs
  · exact ht

theorem Safe.gone {t : State} (h : Safe t) : SafeAct (.gone t) := h

theorem SafeOpt.bind {o : Option State} (h : SafeOpt o) {f : State → Option State} (hf : ∀ t, Safe t → SafeOpt (f t)) :
    SafeOpt (o >>= f) := by
  cases o with
  | none => trivial
  | some t => exact hf t h

theorem SafeOpt.bind_state {α : Type} {o : Option (State × α)} (h : SafeSome o) {f : State × α → Option State}
    (hf : ∀ t x, Safe t → SafeOpt (f (t, x))) : SafeOpt (o >>= f) := by
  cases o with
  | none => trivial
  | some p => exact hf p.1 p.2 h

/-- A fold through states that may be none. -/
theorem SafeOpt.foldl {α : Type} {f : Option State → α → Option State} (hf : ∀ o x, SafeOpt o → SafeOpt (f o x))
    (l : List α) {o : Option State} (h : SafeOpt o) : SafeOpt (l.foldl f o) := by
  induction l generalizing o with
  | nil => exact h
  | cons x r ih => exact ih (hf o x h)

theorem Memory.wf_foldl {α : Type} (f : List Host.Cell → α → List Host.Cell)
    (hf : ∀ m x, Memory.wf m = true → Memory.wf (f m x) = true) (l : List α) {m : List Host.Cell}
    (h : Memory.wf m = true) : Memory.wf (l.foldl f m) = true := by
  induction l generalizing m with
  | nil => exact h
  | cons x r ih => exact ih (hf m x h)

theorem Safe.putBytes {s : State} (hs : Safe s) (a : Nat) (bs : List Byte) : Safe (s.putBytes a bs) :=
  Memory.wf_memWrite bs s.mem a hs

end Sys2Proof
end

section
/-! O47: memory stays canonical under functions that write the state without the help of another one that does. A lemma uses
those of the layers before its own only; within a layer the lemmas stand in the order of the model. -/
namespace Sys2Proof
open Sys2Proof.Machine

theorem Safe.modGroup {s : State} (hs : Safe s) (g : ℕ) (f : Group → Group) : Safe (State.modGroup s g f) := hs

theorem Safe.modSplit {s : State} (hs : Safe s) (g k : ℕ) (f : Split → Split) : Safe (State.modSplit s g k f) := hs

theorem Safe.modThread {s : State} (hs : Safe s) (t : ℕ) (f : Thread → Thread) : Safe (State.modThread s t f) := hs

theorem Safe.modCore {s : State} (hs : Safe s) (c : ℕ) (f : Core → Core) : Safe (State.modCore s c f) := hs

theorem Safe.modCluster {s : State} (hs : Safe s) (c : ℕ) (f : Cluster → Cluster) : Safe (State.modCluster s c f) := hs

theorem Safe.modDie {s : State} (hs : Safe s) (d : ℕ) (f : Die → Die) : Safe (State.modDie s d f) := hs

theorem Safe.modWg {s : State} (hs : Safe s) (w : ℕ) (f : Workgroup → Workgroup) : Safe (State.modWg s w f) := hs

theorem Safe.modLaunch {s : State} (hs : Safe s) (l : ℕ) (f : Launch → Launch) : Safe (State.modLaunch s l f) := hs

theorem Safe.modStation {s : State} (hs : Safe s) (k : ℕ) (f : Station → Station) : Safe (State.modStation s k f) := hs

theorem Safe.modPort {s : State} (hs : Safe s) (p : ℕ) (f : Port → Port) : Safe (State.modPort s p f) := hs

theorem Safe.vput {s : State} (hs : Safe s) (g r : ℕ) (v : List Lane) : Safe (State.vput s g r v) := hs

theorem Safe.spend {s : State} (hs : Safe s) : Safe (State.spend s) := hs

theorem Safe.soon {s : State} (hs : Safe s) (i : Instr) : Safe (State.soon s i) := hs

theorem Safe.first {s : State} (hs : Safe s) (i : Instr) : Safe (State.first s i) := hs

theorem Safe.inClk {s : State} (hs : Safe s) (n : ℕ) (i : Instr) : Safe (State.inClk s n i) := hs

theorem Safe.later {s : State} (hs : Safe s) (n : ℕ) (i : Instr) : Safe (State.later s n i) := hs

theorem Safe.addPoison {s : State} (hs : Safe s) (a : ℕ) : Safe (State.addPoison s a) := by
  grind [State.addPoison, safe_iff]

theorem Safe.putNum {s : State} (hs : Safe s) (a n v : ℕ) : Safe (State.putNum s a n v) := Safe.putBytes (hs := hs) ..

theorem Safe.enqueueFrom {s : State} (hs : Safe s) (from_ ring : ℕ) (r : List Byte) :
    Safe (State.enqueueFrom s from_ ring r) := hs

theorem Safe.enqueue {s : State} (hs : Safe s) (ring : ℕ) (r : List Byte) : Safe (State.enqueue s ring r) := hs

theorem Safe.findError {s : State} (hs : Safe s) (r : ℕ × ℕ) {rec_ : State → State} (hrec_ : ∀ s, Safe s → Safe (rec_ s)) :
    Safe (State.findError s r rec_) := by
  grind [State.findError, safe_iff]

theorem Safe.awaitRow {s : State} (hs : Safe s) (r : ℕ × ℕ) : Safe (State.awaitRow s r) := hs

theorem Safe.countEvent {s : State} (hs : Safe s) (vi : BitVec 8) (asid : BitVec 16) (n k : ℕ) :
    Safe (State.countEvent s vi asid n k) := by
  grind [State.countEvent, safe_iff]

theorem Safe.meter {s : State} (hs : Safe s) (pa n : ℕ) (vi : BitVec 8) : Safe (State.meter s pa n vi) := hs

theorem Safe.tlbTouch {s : State} (hs : Safe s) (vi : BitVec 8) (asid : BitVec 16) (va : ℕ) :
    Safe (State.tlbTouch s vi asid va) := hs

theorem Safe.tlbPut {s : State} (hs : Safe s) (va : ℕ) (t : Tlb) : Safe (State.tlbPut s va t) := hs

theorem Safe.setL2 {s : State} (hs : Safe s) (key : ℕ) (l : L2Line) : Safe (State.setL2 s key l) := hs

theorem Safe.dropL2 {s : State} (hs : Safe s) (key : ℕ) : Safe (State.dropL2 s key) := hs

theorem Safe.rights (s : State) (vi : BitVec 8) (asid : BitVec 16) (va : ℕ) (write fetch w x : Bool) :
    SafeOptHome (State.rights s vi asid va write fetch w x) := by
  grind [State.rights, SafeHome, SafeOptHome]

theorem Safe.setL1 {s : State} (hs : Safe s) (core key : ℕ) (l : L1Line) : Safe (State.setL1 s core key l) := hs

theorem Safe.mapL1 {s : State} (hs : Safe s) (core : ℕ) (f : ℕ → L1Line → Sector → Option Sector) :
    Safe (State.mapL1 s core f) := hs

theorem Safe.freeHeld {s : State} (hs : Safe s) (w : ℕ) : Safe (State.freeHeld s w) := hs

theorem Safe.writeL1 {s : State} (hs : Safe s) (core key va stream wg : ℕ) (a : Agent) (region : Bool)
    (policy : Option (BitVec 2)) (covers : ℕ → Bool) (bs : List Byte) :
    Safe (State.writeL1 s core key va stream wg a region policy covers bs) := hs

theorem Safe.invalidate {s : State} (hs : Safe s) (core : ℕ) (streams : BitVec 16) :
    Safe (State.invalidate s core streams) := hs

theorem Safe.Home_stop {α : Type} (h : Home) (va : ℕ) : SafeReach (Home.stop (α := α) h va) := by
  unfold Home.stop
  grind [SafeHome, SafeReach]

theorem Safe.stallUp {s : State} (hs : Safe s) (g : ℕ) (c : Cause) : Safe (State.stallUp s g c) := hs

theorem Safe.unhold {s : State} (hs : Safe s) (id : ℕ) : Safe (State.unhold s id) := hs

theorem Safe.wholeBytes {s : State} (hs : Safe s) (a n : ℕ) (covers : ℕ → Bool) : Safe (State.wholeBytes s a n covers) := hs

theorem Safe.after {s : State} (hs : Safe s) (a : Agent) (act : After) : Safe (State.after s a act) := hs

theorem Safe.setTile {s : State} (hs : Safe s) (c n : ℕ) (v : List Lane) (bad : Bool) : Safe (State.setTile s c n v bad) := hs

theorem Safe.relTile {s : State} (hs : Safe s) (c n : ℕ) : Safe (State.relTile s c n) := hs

theorem Safe.disown {s : State} (hs : Safe s) (t : ℕ) : Safe (State.disown s t) := hs

theorem Safe.emptyQueues {s : State} (hs : Safe s) (w : ℕ) : Safe (State.emptyQueues s w) := hs

theorem Safe.returnHeld {s : State} (hs : Safe s) (w : ℕ) : Safe (State.returnHeld s w) := hs

theorem Safe.freeUnits {s : State} (hs : Safe s) (w : ℕ) : Safe (State.freeUnits s w) := by
  grind [State.freeUnits, safe_iff]

theorem Safe.noteHeld {s : State} (hs : Safe s) (w : ℕ) : Safe (State.noteHeld s w) := hs

theorem Safe.setQueue {s : State} (hs : Safe s) (c q : ℕ) (l : List QEntry) : Safe (State.setQueue s c q l) := hs

theorem Safe.pushEntry {s : State} (hs : Safe s) (c q : ℕ) (v : Word) : Safe (State.pushEntry s c q v) := hs

theorem Safe.vmove {s : State} (hs : Safe s) (a : Agent) (d : ℕ) (act : Mask) (z : Bool) (f : ℕ → Lane) :
    Safe (State.vmove s a d act z f) := hs

theorem Safe.setFeed {s : State} (hs : Safe s) (c m : ℕ) (f : Feed) : Safe (State.setFeed s c m f) := hs

theorem Safe.setHandle {s : State} (hs : Safe s) (c k : ℕ) (h : Handle) : Safe (State.setHandle s c k h) := hs

theorem Safe.reservePush {s : State} (hs : Safe s) (a : Agent) (id r : ℕ) : Safe (State.reservePush s a id r) := by
  grind [State.reservePush, safe_iff]

theorem Safe.dropPush {s : State} (hs : Safe s) (id : ℕ) : Safe (State.dropPush s id) := hs

theorem Safe.nextWindow {s : State} (hs : Safe s) (i : Instr) : Safe (State.nextWindow s i) := hs

theorem Safe.retireFrame {s : State} (hs : Safe s) (pa : ℕ) : Safe (State.retireFrame s pa) := hs

theorem Safe.toPort {s : State} (hs : Safe s) (p : ℕ) (h : PktHdr) (pay : List Byte) : Safe (State.toPort s p h pay) := hs

theorem Safe.pumpPorts {s : State} (hs : Safe s) : Safe (State.pumpPorts s) := hs

theorem Safe.passIn {s : State} (hs : Safe s) (port : ℕ) (h : PktHdr) : Safe (State.passIn s port h) := hs

theorem Safe.Work_start {s : State} (hs : Safe s) : Safe (Work.start s).s := by
  grind [Work.start]

theorem Safe.Work_fail {g : Work} (hs : Safe g.s) (code va : ℕ) (stop : Bool) : Safe (Work.fail g code va stop).s := by
  grind [Work.fail]

theorem Safe.dropLines {s : State} (hs : Safe s) (core : ℕ) (e : Engine) (va n : ℕ) :
    Safe (State.dropLines s core e va n) := hs

theorem Safe.tldwStart {s : State} (hs : Safe s) (c k : ℕ) : Safe (State.tldwStart s c k) := hs

theorem Safe.setSlot {s : State} (hs : Safe s) (die j : ℕ) (x : Slot) : Safe (State.setSlot s die j x) := hs

theorem Safe.setColl {s : State} (hs : Safe s) (w : ℕ) (q : Option Coll) : Safe (State.setColl s w q) := hs

theorem Safe.mergeSplits {s : State} (hs : Safe s) (g k sib : ℕ) (join : Word) (fmt : BitVec 9) :
    Safe (State.mergeSplits s g k sib join fmt) := hs

theorem Safe.latchBody {s : State} (hs : Safe s) (a : Agent) (pc : Word) (i : Instr) :
    SafePick (State.latchBody s a pc i) := by
  grind [State.latchBody, safe_iff, SafePick]

theorem Safe.enqueueOp {s : State} (hs : Safe s) (c : ℕ) (o : MatOp) : Safe (State.enqueueOp s c o) := hs

theorem Safe.popOp {s : State} (hs : Safe s) (c : ℕ) (o : MatOp) : Safe (State.popOp s c o) := hs

theorem Safe.zeroOp {s : State} (hs : Safe s) (c : ℕ) (o : MatOp) : Safe (State.zeroOp s c o) := hs

theorem Safe.startSeq {s : State} (hs : Safe s) (t : ℕ) (word : BitVec 32) (g : Word) (cfg : BitVec 2) (node : Option ℕ) :
    Safe (State.startSeq s t word g cfg node) := hs

theorem Safe.accown (n : ℕ) : SafeAct (Machine.accown n) := by
  grind [Machine.accown, SafeAct]

theorem Safe.giveUnit {s : State} (hs : Safe s) (parts : List ℕ) (n k lvl u : ℕ) :
    Safe (State.giveUnit s parts n k lvl u) := by
  grind [State.giveUnit, safe_iff, Memory.wf_memZero, Safe.foldl]

theorem Safe.useResv {s : State} (hs : Safe s) (k cluster core w : ℕ) : Safe (State.useResv s k cluster core w) := by
  grind [State.useResv, safe_iff]

theorem Safe.takeId {s : State} (hs : Safe s) (vi : BitVec 8) : Safe (State.takeId s vi).1 := by
  grind [State.takeId, safe_iff]

theorem Safe.takeArrival {s : State} (hs : Safe s) : Safe (State.takeArrival s).1 := by
  grind [State.takeArrival, safe_iff]

theorem Safe.takeKey {s : State} (hs : Safe s) : Safe (State.takeKey s).1 := by
  grind [State.takeKey, safe_iff]

theorem Safe.setBells {s : State} (hs : Safe s) (f : List Bell → List Bell) : Safe (State.setBells s f) := hs

theorem Safe.endBell {s : State} (hs : Safe s) (key : ℕ) : Safe (State.endBell s key) := hs

theorem Safe.serve {s : State} (hs : Safe s) (key : ℕ) : Safe (State.serve s key) := hs

theorem Safe.modGraph {s : State} (hs : Safe s) (gid : ℕ) (f : Graph → Graph) : Safe (State.modGraph s gid f) := hs

theorem Safe.putBatch {s : State} (hs : Safe s) (k num : ℕ) (bs : List Byte) : Safe (State.putBatch s k num bs) := by
  unfold State.putBatch
  exact Safe.foldl_fst (p := (s, bs)) hs _ (fun _ _ h => h.putBytes _ _)

theorem Safe.beginLaunch {s : State} (hs : Safe s) (k : ℕ) : Safe (State.beginLaunch s k) := hs

theorem Safe.without {s : State} (hs : Safe s) (w : ℕ) : Safe (State.without s w) := hs

theorem Safe.dropUndone {s : State} (hs : Safe s) (t : ℕ) : Safe (State.dropUndone s t) := hs

theorem Safe.setNode {s : State} (hs : Safe s) (c n : ℕ) (x : Node) : Safe (State.setNode s c n x) := hs

theorem Safe.fired {s : State} (hs : Safe s) (c n : ℕ) : Safe (State.fired s c n) := hs

theorem Safe.expect {s : State} (hs : Safe s) (k q : ℕ) : Safe (State.expect s k q) := hs

theorem Safe.unpass {s : State} (hs : Safe s) (port : ℕ) (h : PktHdr) : Safe (State.unpass s port h) := hs

theorem Safe.endSent {s : State} (hs : Safe s) (xid : BitVec 32) : Safe (State.endSent s xid) := hs

theorem Safe.stopEngine {s : State} (hs : Safe s) (n : ℕ) : Safe (State.stopEngine s n) := hs

theorem Safe.modFabric {s : State} (hs : Safe s) (f : Fabric → Fabric) : Safe (State.modFabric s f) := hs

theorem Safe.heard {s : State} (hs : Safe s) (p : ℕ) : Safe (State.heard s p) := hs

theorem Safe.setBox {s : State} (hs : Safe s) (p : ℕ) (m : Mailbox) : Safe (State.setBox s p m) := hs

theorem Safe.reply {s : State} (hs : Safe s) (p : ℕ) (tag : BitVec 16) (result : ℕ) (data : List Byte) :
    Safe (State.reply s p tag result data) := hs

theorem Safe.endSlice {s : State} (hs : Safe s) (vi : BitVec 8) : Safe (State.endSlice s vi) := hs

theorem Safe.setVolt {s : State} (hs : Safe s) (region layer : ℕ) (v : Volt) : Safe (State.setVolt s region layer v) := hs

theorem Safe.cmdEnd {s : State} (hs : Safe s) (vi : BitVec 8) : Safe (State.cmdEnd s vi) := hs

theorem Safe.setNames {s : State} (hs : Safe s) (c : Fin 16) (n : BitVec 32 × BitVec 32) : Safe (State.setNames s c n) := hs

theorem Safe.setBoot {s : State} (hs : Safe s) (n : BitVec 3) : Safe (State.setBoot s n) := hs

theorem Safe.execDeviceReset {s : State} (hs : Safe s) : SafeNext (Machine.execDeviceReset s) := Memory.wf_filter _ _ hs

theorem Safe.execFirmwareUpdate (image : List (BitVec 8)) {s : State} (hs : Safe s) :
    SafeNext (Machine.execFirmwareUpdate image s) := by
  grind [Machine.execFirmwareUpdate, safe_iff, SafeNext]

theorem Safe.execPartitionMapWrite (image : List (BitVec 8)) {s : State} (hs : Safe s) :
    SafeNext (Machine.execPartitionMapWrite image s) := by
  grind [Machine.execPartitionMapWrite, safe_iff, SafeNext]

theorem Safe.pickOn {s : State} (hs : Safe s) (u : ℕ) : Safe (State.pickOn s u) := by
  grind [State.pickOn, safe_iff]

theorem Safe.jumpTo {s : State} (hs : Safe s) (t : Word) {link : State → State} (hlink : ∀ s, Safe s → Safe (link s)) :
    SafeAct (Machine.jumpTo s t link) := by
  grind [Machine.jumpTo, SafeAct]

end Sys2Proof
end

section
/-! O47: memory stays canonical under the second layer. A lemma uses those of the layers before its own only; within a layer
the lemmas stand in the order of the model. -/
namespace Sys2Proof
open Sys2Proof.Machine

theorem Safe.modUnit {s : State} (hs : Safe s) (u : ℕ) (f : CoreUnit → CoreUnit) : Safe (State.modUnit s u f) := by
  grind [State.modUnit, Safe.modCore, Safe.modCluster]

theorem Safe.modStrand {s : State} (hs : Safe s) (a : Agent) (f : Strand → Strand) : Safe (State.modStrand s a f) := by
  unfold State.modStrand
  grind [Safe.modSplit, Safe.modThread]

theorem Safe.sput {s : State} (hs : Safe s) (a : Agent) (r : ℕ) (v : Word) : Safe (State.sput s a r v) := by
  unfold State.sput
  grind [Safe.modGroup, Safe.modThread]

theorem Safe.kput {s : State} (hs : Safe s) (g r : ℕ) (m : Mask) : Safe (State.kput s g r m) := by
  grind [State.kput, Safe.modGroup]

theorem Safe.stput {s : State} (hs : Safe s) (a : Agent) (n : ℕ) (w : BitVec 7) : Safe (State.stput s a n w) := by
  unfold State.stput
  grind [Safe.modGroup, Safe.modThread]

theorem Safe.setTrap {s : State} (hs : Safe s) (a : Agent) (cause pc val : Word) : Safe (State.setTrap s a cause pc val) := by
  unfold State.setTrap
  grind [Safe.modGroup, Safe.modThread]

theorem Safe.setTview {s : State} (hs : Safe s) (a : Agent) (v : Tab (ℕ × Word)) : Safe (State.setTview s a v) := by
  unfold State.setTview
  grind [Safe.modGroup, Safe.modThread]

theorem Safe.bput {s : State} (hs : Safe s) (w : Option ℕ) (t n : ℕ) (b : Bar) : Safe (State.bput s w t n b) := by
  unfold State.bput
  grind [Safe.modWg, Safe.modThread]

theorem Safe.report {s : State} (hs : Safe s) (cls sev unit : ℕ) (ctx : BitVec 8 × BitVec 16) (addr retry addrk code : ℕ)
    (name : List Byte) :
    Safe (State.report s cls sev unit ctx addr retry addrk code name) := by
  grind [State.report, Safe.modDie, Safe.enqueue, Safe.soon, safe_iff]

theorem Safe.traceEvent {s : State} (hs : Safe s) (vi : BitVec 8) (asid : BitVec 16) (name : List Byte) (event value : ℕ)
    (pc : Word) :
    Safe (State.traceEvent s vi asid name event value pc) := by
  grind [State.traceEvent, Safe.enqueue, Safe.countEvent]

theorem Safe.walked {s : State} (hs : Safe s) (vi : BitVec 8) (asid : BitVec 16) (va : ℕ) :
    Safe (State.walked s vi asid va) := by
  grind [State.walked, Safe.meter, Safe.modStation, Safe.foldl]

theorem Safe.raise {s : State} (hs : Safe s) (vi : BitVec 8) (asid : BitVec 16) (va stage ipa flags : ℕ) (name : List Byte)
    (w : Waiter) :
    Safe (State.raise s vi asid va stage ipa flags name w).1 := by
  grind [State.raise, Safe.enqueue, safe_iff]

theorem Safe.homeWhole {s : State} (hs : Safe s) (key va n : ℕ) (covers : ℕ → Bool) :
    Safe (State.homeWhole s key va n covers) := by
  grind [State.homeWhole, Safe.setL2]

theorem Safe.touchL1 {s : State} (hs : Safe s) (core key stream : ℕ) : Safe (State.touchL1 s core key stream) := by
  grind [State.touchL1, Safe.setL1]

theorem Safe.pcOut {s : State} (hs : Safe s) (from_ u bank : ℕ) (es : List PcEntry) (extra : ℕ) :
    Safe (State.pcOut s from_ u bank es extra) := by
  grind [State.pcOut, Safe.enqueueFrom, Safe.countEvent, Safe.foldl]

theorem Safe.exitRecord {s : State} (hs : Safe s) (w : ℕ) : Safe (State.exitRecord s w) := by
  grind [State.exitRecord, Safe.enqueue, Safe.foldl]

theorem Safe.setFmt {s : State} (hs : Safe s) (a : Agent) (v : Word) : Safe (State.setFmt s a v) := by
  unfold State.setFmt
  grind [Safe.modSplit]

theorem Safe.raiseFlags {s : State} (hs : Safe s) (a : Agent) (f : FFlags) : Safe (State.raiseFlags s a f) := by
  unfold State.raiseFlags
  grind [Safe.modSplit]

theorem Safe.setFlags {s : State} (hs : Safe s) (a : Agent) (f : FFlags) : Safe (State.setFlags s a f) := by
  unfold State.setFlags
  grind [Safe.modSplit]

theorem Safe.relAll {s : State} (hs : Safe s) (c : ℕ) : Safe (State.relAll s c) := by
  grind [State.relAll, Safe.relTile, Safe.foldl]

theorem Safe.spillTiles {s : State} (hs : Safe s) (c : ℕ) (vi : BitVec 8) (asid : BitVec 16) (ns : List ℕ) (done : BitVec 128)
    :
    Safe (State.spillTiles s c vi asid ns done).1 := by
  fun_induction State.spillTiles s c vi asid ns done <;> grind [Safe.putBytes, Safe.addPoison, Safe.relTile, Safe.foldl,
    Safe.foldl_fst]

theorem Safe.setStopped {s : State} (hs : Safe s) (w : ℕ) (b : Bool) : Safe (State.setStopped s w b) := by
  grind [State.setStopped, Safe.modGroup, Safe.modWg, Safe.modThread, Safe.foldl]

theorem Safe.dropRegion {s : State} (hs : Safe s) (w : ℕ) : Safe (State.dropRegion s w) := by
  grind [State.dropRegion, Safe.mapL1, safe_iff, Safe.foldl]

theorem Safe.pop {s : State} (hs : Safe s) (a : Agent) (r : ℕ) : Safe (State.pop s a r) := by
  unfold State.pop
  grind [Safe.setQueue, Safe.invalidate]

theorem Safe.drawn {s : State} (hs : Safe s) (a : Agent) (d : Draw) (m : Mask) : Safe (State.drawn s a d m) := by
  unfold State.drawn
  grind [Safe.modCore, Safe.modSplit]

theorem Safe.tPend {s : State} (hs : Safe s) (a : Agent) (new : List Pending) : Safe (State.tPend s a new) := by
  grind [State.tPend, Safe.modWg, Safe.modThread]

theorem Safe.execStkcfgWrite (c : ℕ) (v : BitVec 64) {s : State} (hs : Safe s) :
    SafeNext (Machine.execStkcfgWrite c v s) := Safe.modCluster (hs := hs) ..

theorem Safe.execAccownerWrite (c : ℕ) (v : BitVec 64) {s : State} (hs : Safe s) :
    SafeNext (Machine.execAccownerWrite c v s) := by
  grind [Machine.execAccownerWrite, Safe.inClk, Safe.modCluster, SafeNext]

theorem Safe.execAccliveWrite (c : ℕ) (h : BitVec 1) (v : BitVec 64) {s : State} (hs : Safe s) :
    SafeNext (Machine.execAccliveWrite c h v s) := by
  grind [Machine.execAccliveWrite, Safe.inClk, Safe.relTile, Safe.modCluster, SafeNext, Safe.foldl]

theorem Safe.execChrycfgWrite (die : Fin 4) (v : BitVec 64) {s : State} (hs : Safe s) :
    SafeNext (Machine.execChrycfgWrite die v s) := by
  grind [Machine.execChrycfgWrite, Safe.modDie, safe_iff, SafeNext, Memory.wf_memZero]

theorem Safe.widen {s : State} (hs : Safe s) (a : Agent) (m : BitVec 16) : Safe (State.widen s a m) := by
  unfold State.widen
  grind [Safe.mapL1, safe_iff]

theorem Safe.fenceEnd {s : State} (hs : Safe s) (a : Agent) (m : BitVec 16) : Safe (State.fenceEnd s a m) := by
  unfold State.fenceEnd
  grind [Safe.invalidate]

theorem Safe.bindPort {s : State} (hs : Safe s) (a : Agent) (p : ℕ) (q : Option (BitVec 5)) :
    Safe (State.bindPort s a p q) := by
  unfold State.bindPort
  grind [Safe.modGroup, Safe.modThread]

theorem Safe.poisonAt {s : State} (hs : Safe s) (p : Place) (va : ℕ) : Safe (State.poisonAt s p va) := by
  unfold State.poisonAt
  grind [Safe.modCore, Safe.setL2, Safe.addPoison]

theorem Safe.request {s : State} (hs : Safe s) (vi : BitVec 8) (asid : BitVec 16) (va : ℕ) (write fetch : Bool) (w : Instr) :
    Safe (State.request s vi asid va write fetch w) := by
  grind [State.request, Safe.soon, safe_iff]

theorem Safe.settlePend {s : State} (hs : Safe s) (x : Access) (at_ : ℕ) : Safe (State.settlePend s x at_) := by
  grind [State.settlePend, Safe.modGroup, Safe.modThread]

theorem Safe.transmit0 {s : State} (hs : Safe s) (h : PktHdr) (pay : List Byte) : Safe (State.transmit0 s h pay) := by
  grind [State.transmit0, Safe.soon, Safe.toPort]

theorem Safe.Work_aligned {g : Work} (hs : Safe g.s) (al : ℕ) (vas : List ℕ) : Safe (Work.aligned g al vas).s := by
  grind [Work.aligned, Safe.Work_fail]

theorem Safe.feedWork (e : Engine) (d : Desc) {row : Work → ℕ → Work × List (List Byte × Bool)}
    (hrow : ∀ g n, Safe g.s → Safe (row g n).1.s) {g : Work} (hs : Safe g.s) :
    Safe (Machine.feedWork e d row g).s := by
  grind [Machine.feedWork, Safe.setFeed, Safe.foldl, Safe.foldl_work, Safe.foldl_work_fst]

theorem Safe.engineAck {s : State} (hs : Safe s) (id : ℕ) (xid : BitVec 32) : Safe (State.engineAck s id xid) := by
  grind [State.engineAck, Safe.soon, safe_iff]

theorem Safe.divergeOn (c : Ctx) {s : State} (hs : Safe s) (T : Mask) (tgt join : Word) :
    SafeAct (Machine.divergeOn c s T tgt join) := by
  grind [Machine.divergeOn, Safe.modSplit, Safe.modGroup, SafeAct]

theorem Safe.opGone {s : State} (hs : Safe s) (c : ℕ) (o : MatOp) : Safe (State.opGone s c o) := by
  grind [State.opGone, Safe.soon]

theorem Safe.markCand {s : State} (hs : Safe s) (c : ℕ) : Safe (State.markCand s c) := by
  grind [State.markCand, Safe.modCluster, Safe.foldl]

theorem Safe.execPassEnd (c cell : ℕ) {s : State} (hs : Safe s) : SafeNext (Machine.execPassEnd c cell s) := by
  grind [Machine.execPassEnd, Safe.setFeed, Safe.modCluster, SafeNext]

theorem Safe.writePass {s : State} (hs : Safe s) (c : ℕ) (o : MatOp) (f : Feed) (h : Handle) :
    Safe (State.writePass s c o f h) := by
  grind [State.writePass, Safe.setTile, Safe.foldl]

theorem Safe.execSequencerEnqueue (t : ℕ) {s : State} (hs : Safe s) : SafeNext (Machine.execSequencerEnqueue t s) := by
  grind [Machine.execSequencerEnqueue, Safe.inClk, Safe.enqueueOp, Safe.modThread, SafeNext]

theorem Safe.choose {s : State} (hs : Safe s) (xs : List ℕ) : SafeSome (State.choose s xs) := by
  grind [State.choose, Safe.spend, SafeSome]

theorem Safe.flushAll {s : State} (hs : Safe s) : Safe (State.flushAll s) := by
  grind [State.flushAll, Safe.soon, Safe.foldl]

theorem Safe.ringBells {s : State} (hs : Safe s) : Safe (State.ringBells s) := by
  grind [State.ringBells, Safe.soon, Safe.foldl]

theorem Safe.withoutAll {s : State} (hs : Safe s) (ws : List ℕ) : Safe (State.withoutAll s ws) := by
  grind [State.withoutAll, Safe.without, Safe.foldl]

theorem Safe.startGrace {s : State} (hs : Safe s) (w : ℕ) : Safe (State.startGrace s w) := by
  grind [State.startGrace, Safe.inClk, Safe.modWg]

theorem Safe.beginKeeping {s : State} (hs : Safe s) (c : ℕ) : Safe (State.beginKeeping s c) := by
  grind [State.beginKeeping, Safe.inClk, Safe.modCore]

theorem Safe.release {s : State} (hs : Safe s) (c n : ℕ) : Safe (State.release s c n) := by
  grind [State.release, Safe.setNode, Safe.inClk]

theorem Safe.bodyTrap (c : Ctx) (s : State) (i : Instr) : SafeOptAct (Machine.bodyTrap c s i) := by
  unfold Machine.bodyTrap
  grind [Safe.accown, SafeAct, SafeOptAct]

theorem Safe.define {s : State} (hs : Safe s) (a : Agent) (n count : ℕ) (b : Body) : Safe (State.define s a n count b) := by
  grind [State.define, Safe.setNode, Safe.soon]

theorem Safe.addEdge {s : State} (hs : Safe s) (c a b : ℕ) : Safe (State.addEdge s c a b) := by
  grind [State.addEdge, Safe.setNode, Safe.spend]

theorem Safe.meterIn {s : State} (hs : Safe s) (vi : BitVec 8) (asid : BitVec 16) (va n : ℕ) :
    Safe (State.meterIn s vi asid va n) := by
  grind [State.meterIn, Safe.meter]

theorem Safe.ackFlits {s : State} (hs : Safe s) (p upto : ℕ) : Safe (State.ackFlits s p upto) := by
  grind [State.ackFlits, Safe.modPort]

theorem Safe.command {s : State} (hs : Safe s) (p : ℕ) (tag : BitVec 16) (range : Bool) (inside able : Partition → Bool)
    {f : State → State × List Byte} (hf : ∀ s, Safe s → Safe (f s).1) :
    Safe (State.command s p tag range inside able f) := by
  grind [State.command, Safe.reply]

theorem Safe.enableVi {s : State} (hs : Safe s) (vi : BitVec 8) (en : Bool) : Safe (State.enableVi s vi en) := by
  grind [State.enableVi, Safe.soon, safe_iff, Safe.foldl]

theorem Safe.cmdDone {s : State} (hs : Safe s) (vi : BitVec 8) (e : TCmd) : Safe (State.cmdDone s vi e) := by
  grind [State.cmdDone, Safe.putNum]

theorem Safe.cmdNext {s : State} (hs : Safe s) (vi : BitVec 8) : Safe (State.cmdNext s vi) := by
  grind [State.cmdNext, Safe.cmdEnd, Safe.putNum, Safe.first]

theorem Safe.boxWrite {s : State} (hs : Safe s) (p : Fin 8) (off : ℕ) (data : List Byte) :
    Safe (State.boxWrite s p off data) := by
  grind [State.boxWrite, Safe.setBox, Safe.soon]

theorem Safe.execVoltageMinimum (region layer : ℕ) (mv : BitVec 16) {s : State} (hs : Safe s) :
    SafeNext (Machine.execVoltageMinimum region layer mv s) := by
  grind [Machine.execVoltageMinimum, Safe.setVolt, SafeNext]

theorem Safe.repairLanes {s : State} (hs : Safe s) (faulty : List (ℕ × ℕ)) (core : ℕ) :
    Safe (State.repairLanes s faulty core) := by
  grind [State.repairLanes, Safe.modCore]

theorem Safe.execKeepingEnd (core : ℕ) {s : State} (hs : Safe s) : SafeNext (Machine.execKeepingEnd core s) := by
  grind [Machine.execKeepingEnd, Safe.modCore, SafeNext]

theorem Safe.execSample (u : ℕ) {s : State} (hs : Safe s) : SafeNext (Machine.execSample u s) := by
  grind [Machine.execSample, Safe.enqueue, Safe.countEvent, SafeNext]

theorem Safe.execBandwidthWindow (die : Fin 4) {s : State} (hs : Safe s) :
    SafeNext (Machine.execBandwidthWindow die s) := Safe.modDie (hs := hs) ..

theorem Safe.stalls {s : State} (hs : Safe s) : Safe (State.stalls s) := by
  grind [State.stalls, Safe.stallUp, Safe.foldl]

theorem Safe.balance {s : State} (hs : Safe s) (u : ℕ) : Safe (State.balance s u) := by
  grind [State.balance, Safe.modCore]

theorem Safe.allUnits {s : State} (hs : Safe s) : Safe (State.allUnits s) := by
  grind [State.allUnits, Safe.modCluster, Safe.modCore, Safe.foldl]

theorem Safe.invalL1 {s : State} (hs : Safe s) (a : Agent) (va : ℕ) : Safe (State.invalL1 s a va) := by
  grind [State.invalL1, Safe.modCore]

end Sys2Proof
end

section
/-! O47: memory stays canonical under the third layer. A lemma uses those of the layers before its own only; within a layer
the lemmas stand in the order of the model. -/
namespace Sys2Proof
open Sys2Proof.Machine

theorem Safe.tput {s : State} (hs : Safe s) (a : Agent) (n w : ℕ) (v : Word) :
    Safe (State.tput s a n w v) := Safe.setTview (hs := hs) ..

theorem Safe.traceOf {s : State} (hs : Safe s) (a : Agent) (event value : ℕ) (pc : Word) :
    Safe (State.traceOf s a event value pc) := Safe.traceEvent (hs := hs) ..

theorem Safe.traceWg {s : State} (hs : Safe s) (w event : ℕ) (pc : Word) :
    Safe (State.traceWg s w event pc) := Safe.traceEvent (hs := hs) ..

theorem Safe.translate {s : State} (hs : Safe s) (vi : BitVec 8) (asid : BitVec 16) (va : ℕ) :
    SafeTrans (State.translate s vi asid va) := by
  grind [State.translate, Safe.tlbTouch, Safe.tlbPut, Safe.walked, SafeTrans]

theorem Safe.writeBack {s : State} (hs : Safe s) (key : ℕ) : Safe (State.writeBack s key) := by
  grind [State.writeBack, Safe.putBytes, Safe.addPoison, Safe.setL2, Safe.meter, Safe.report, Safe.foldl]

theorem Safe.queueTrap {s : State} (hs : Safe s) (a : Agent) (code : BitVec 8) (val : Word) :
    Safe (State.queueTrap s a code val) := by
  grind [State.queueTrap, Safe.modStrand]

theorem Safe.drainCounters {s : State} (hs : Safe s) (u bank reason : ℕ) : Safe (State.drainCounters s u bank reason) := by
  grind [State.drainCounters, Safe.countEvent, Safe.enqueue, Safe.modUnit, Safe.foldl]

theorem Safe.copyTable {s : State} (hs : Safe s) (u : ℕ) : Safe (State.copyTable s u) := by
  grind [State.copyTable, Safe.pcOut, Safe.soon, Safe.modUnit, Safe.foldl]

theorem Safe.newBank {s : State} (hs : Safe s) (u bank : ℕ) (vi : BitVec 8) (asid : BitVec 16) :
    Safe (State.newBank s u bank vi asid) := by
  grind [State.newBank, Safe.modUnit]

theorem Safe.lostSave {s : State} (hs : Safe s) (c : ℕ) (vi : BitVec 8) (asid : BitVec 16) (off : ℕ) (name : List Byte) :
    Safe (State.lostSave s c vi asid off name) := by
  grind [State.lostSave, Safe.report, Safe.modCluster, Safe.relAll]

theorem Safe.stackLost {s : State} (hs : Safe s) (g : ℕ) (p : ℕ × Split) : Safe (State.stackLost s g p) := by
  grind [State.stackLost, Safe.modCore, Safe.report]

theorem Safe.shareViews {s : State} (hs : Safe s) (w : ℕ) : Safe (State.shareViews s w) := by
  grind [State.shareViews, Safe.setTview, Safe.foldl]

theorem Safe.block {s : State} (hs : Safe s) (a : Agent) (c : Cause) :
    Safe (State.block s a c) := Safe.modStrand (hs := hs) ..

theorem Safe.awaitTrap {s : State} (hs : Safe s) (a : Agent) : Safe (State.awaitTrap s a) := Safe.modStrand (hs := hs) ..

theorem Safe.returnTrap {s : State} (hs : Safe s) (a : Agent) : Safe (State.returnTrap s a) := by
  unfold State.returnTrap
  grind [Safe.modStrand, Safe.modThread]

theorem Safe.popAll {s : State} (hs : Safe s) (a : Agent) (ports : List ℕ) : SafeSome (State.popAll s a ports) := by
  fun_induction State.popAll s a ports with
  | case1 => exact hs
  | case2 => trivial
  | case3 s r rest v hv ih => exact (ih (hs.pop ..)).map _

theorem Safe.markParcels {s : State} (hs : Safe s) (a : Agent) (pc : Word) (len : ℕ) :
    Safe (State.markParcels s a pc len) := by
  grind [State.markParcels, Safe.modUnit, Safe.foldl]

theorem Safe.waitIn {s : State} (hs : Safe s) (a : Agent) (next : Word) (w : Wait) :
    Safe (State.waitIn s a next w) := Safe.modStrand (hs := hs) ..

theorem Safe.endWait {s : State} (hs : Safe s) (a : Agent) : Safe (State.endWait s a) := Safe.modStrand (hs := hs) ..

theorem Safe.parkAt {s : State} (hs : Safe s) (a : Agent) (mask : Mask) (token : ℕ) (popped : List (ℕ × Word)) :
    Safe (State.parkAt s a mask token popped) := Safe.modStrand (hs := hs) ..

theorem Safe.vwrite {s : State} (hs : Safe s) (a : Agent) (d : ℕ) (act : Mask) (z : Bool) (f : ℕ → Lane × FFlags) :
    Safe (State.vwrite s a d act z f) := by
  grind [State.vwrite, Safe.raiseFlags, Safe.vput]

theorem Safe.kwrite {s : State} (hs : Safe s) (g d : ℕ) (act : Mask) (z : Bool) (m : Mask) :
    Safe (State.kwrite s g d act z m) := Safe.kput (hs := hs) ..

theorem Safe.sysWrite {s : State} (hs : Safe s) (a : Agent) (n : ℕ) (v : Word) : Safe (State.sysWrite s a n v) := by
  unfold State.sysWrite
  grind [Safe.setFmt, Safe.setFlags, Safe.modGroup, Safe.modThread, Safe.soon, Safe.stput, safe_iff]

theorem Safe.setBar {s : State} (hs : Safe s) (a : Agent) (n : ℕ) (b : Bar) :
    Safe (State.setBar s a n b) := Safe.bput (hs := hs) ..

theorem Safe.acquireAll {s : State} (hs : Safe s) (a : Agent) (n : ℕ) : Safe (State.acquireAll s a n) := by
  grind [State.acquireAll, Safe.fenceEnd, Safe.setTview]

theorem Safe.markReplay {s : State} (hs : Safe s) (a : Agent) : Safe (State.markReplay s a) := Safe.modStrand (hs := hs) ..

theorem Safe.arriveAt {s : State} (hs : Safe s) (w : Option ℕ) (t n : ℕ) :
    Safe (State.arriveAt s w t n) := Safe.bput (hs := hs) ..

theorem Safe.postAt {s : State} (hs : Safe s) (w : Option ℕ) (t n : ℕ) (bytes : ℤ) :
    Safe (State.postAt s w t n bytes) := Safe.bput (hs := hs) ..

theorem Safe.testBar {s : State} (hs : Safe s) (w : Option ℕ) (t n : ℕ) : Safe (State.testBar s w t n) := by
  unfold State.testBar
  grind [Safe.report, Safe.bput]

theorem Safe.malformedAt {s : State} (hs : Safe s) (a : Agent) (vi : BitVec 8) (asid : BitVec 16) (va : ℕ) :
    Safe (State.malformedAt s a vi asid va) := Safe.report (hs := hs) ..

theorem Safe.loseWay {s : State} (hs : Safe s) (p : Place) : Safe (State.loseWay s p) := by
  unfold State.loseWay
  grind [Safe.modCore, Safe.modDie, Safe.modUnit]

theorem Safe.refetch {s : State} (hs : Safe s) (p : Place) : Safe (State.refetch s p) := by
  unfold State.refetch
  grind [Safe.mapL1, Safe.setL2, Safe.modUnit]

theorem Safe.bring {s : State} (hs : Safe s) (id : ℕ) (x : Access) (va : ℕ) : Safe (State.bring s id x va) := by
  grind [State.bring, Safe.request, safe_iff]

theorem Safe.installLine {s : State} (hs : Safe s) (u key : ℕ) (l : ILine) :
    Safe (State.installLine s u key l) := Safe.modUnit (hs := hs) ..

theorem Safe.reportFrames {s : State} (hs : Safe s) : Safe (State.reportFrames s) := by
  grind [State.reportFrames, Safe.retireFrame, Safe.report, Safe.foldl]

theorem Safe.burst {s : State} (hs : Safe s) (vi : BitVec 8) (asid : BitVec 16) (pa : ℕ) (g : GddrReport)
    (gone : List (ℕ × BitVec 8)) :
    Safe (State.burst s vi asid pa g gone).1 := by
  unfold State.burst
  grind [Safe.findError, Safe.report, Safe.retireFrame, Safe.addPoison, safe_iff, Safe.foldl, Safe.foldl_fst]

theorem Safe.undeliverable {s : State} (hs : Safe s) (unit : ℕ) (h : PktHdr) (pay : List Byte) (reason : ℕ) :
    Safe (State.undeliverable s unit h pay reason) := by
  grind [State.undeliverable, Safe.report, Safe.transmit0, safe_iff]

theorem Safe.engineRecord {s : State} (hs : Safe s) (e : Engine) (code va : ℕ) :
    Safe (State.engineRecord s e code va) := Safe.report (hs := hs) ..

theorem Safe.postBar {s : State} (hs : Safe s) (e : Engine) (bytes : ℕ) : Safe (State.postBar s e bytes) := by
  grind [State.postBar, Safe.bput]

theorem Safe.cntAcquire {s : State} (hs : Safe s) (a : Agent) (st : ℕ) :
    Safe (State.cntAcquire s a st) := Safe.fenceEnd (hs := hs) ..

theorem Safe.mergeReport {s : State} (hs : Safe s) (die : ℕ) (vi : BitVec 8) (asid : BitVec 16) (code : ℕ) (va : Word)
    (name : List Byte) :
    Safe (State.mergeReport s die vi asid code va name) := Safe.report (hs := hs) ..

theorem Safe.abortColl {s : State} (hs : Safe s) (w code va : ℕ) : Safe (State.abortColl s w code va) := by
  grind [State.abortColl, Safe.report, Safe.soon, Safe.setColl]

theorem Safe.resolved {s : State} (hs : Safe s) (a : Agent) : Safe (State.resolved s a) := Safe.modStrand (hs := hs) ..

theorem Safe.probed {s : State} (hs : Safe s) (a : Agent) : Safe (State.probed s a) := by
  unfold State.probed
  grind [Safe.setTrap, Safe.modGroup, Safe.modThread]

theorem Safe.matReport {s : State} (hs : Safe s) (c : ℕ) (o : MatOp) (sev retry code : ℕ) :
    Safe (State.matReport s c o sev retry code) := by
  grind [State.matReport, Safe.findError, Safe.report]

theorem Safe.accPark (c : Ctx) {s : State} (hs : Safe s) (n va st ipa : ℕ) (perm write : Bool) :
    SafeAct (Machine.accPark c s n va st ipa perm write) := by
  grind [Machine.accPark, Safe.raise, Safe.modThread, SafeAct]

theorem Safe.allocUnit {s : State} (hs : Safe s) (k num cluster core lvl : ℕ) :
    SafeOpt (State.allocUnit s k num cluster core lvl) := by
  unfold State.allocUnit
  dsimp only
  split
  · exact hs
  split
  · exact Memory.wf_foldl (fun m (a : Nat × Nat × Nat × Nat × Nat) => memZero m a.1 a.2.1) (fun m a h => Memory.wf_memZero m
    a.1 a.2.1 h) _ hs
  · grind [Safe.choose, Safe.giveUnit, SafeSome, SafeOpt]

theorem Safe.monWait {s : State} (hs : Safe s) (vi : BitVec 8) (asid : BitVec 16) (f : ℕ × ℕ × ℕ × Bool) (i : Instr) :
    Safe (State.monWait s vi asid f i) := Safe.raise (hs := hs) ..

theorem Safe.queueReport {s : State} (hs : Safe s) (vi : BitVec 8) (asid : BitVec 16) (va : ℕ) :
    Safe (State.queueReport s vi asid va) := Safe.report (hs := hs) ..

theorem Safe.freeSlot {s : State} (hs : Safe s) (core : ℕ) : SafeSome (State.freeSlot s core) := Safe.choose (hs := hs) ..

theorem Safe.startGraces {s : State} (hs : Safe s) (die k num : ℕ) (back : Option Restart) :
    Safe (State.startGraces s die k num back) := by
  grind [State.startGraces, Safe.withoutAll, Safe.startGrace, Safe.foldl]

theorem Safe.emitFull {s : State} (hs : Safe s) (a : Agent) (gid : ℕ) (g : Graph) (t : ℕ) :
    Safe (State.emitFull s a gid g t) := by
  grind [State.emitFull, Safe.report, Safe.modGraph]

theorem Safe.refusePacket {s : State} (hs : Safe s) (port src : ℕ) : Safe (State.refusePacket s port src) := by
  grind [State.refusePacket, Safe.report, Safe.modPort]

theorem Safe.remoteStop {α : Type} {s : State} (hs : Safe s) (vi : BitVec 8) (asid : BitVec 16) {r : Reach α}
    (hr : SafeReach r) (i : Instr) :
    SafeRemote (State.remoteStop s vi asid r i) := by
  unfold State.remoteStop
  grind [Safe.raise, Safe.report, SafeReach, SafeRemote]

theorem Safe.execAckFlit (port : Fin 24) (f : Flit) {s : State} (hs : Safe s) : SafeNext (Machine.execAckFlit port f s) := by
  grind [Machine.execAckFlit, Safe.ackFlits, Safe.heard, SafeNext]

theorem Safe.execNakFlit (port : Fin 24) (f : Flit) {s : State} (hs : Safe s) : SafeNext (Machine.execNakFlit port f s) := by
  grind [Machine.execNakFlit, Safe.modPort, Safe.ackFlits, Safe.heard, SafeNext]

theorem Safe.execIdleFlit (port : Fin 24) (f : Flit) {s : State} (hs : Safe s) :
    SafeNext (Machine.execIdleFlit port f s) := by
  grind [Machine.execIdleFlit, Safe.ackFlits, Safe.heard, SafeNext]

theorem Safe.execSavereg (p : Fin 8) (tag : BitVec 16) (vi : BitVec 8) (asid : BitVec 16) (pa : BitVec 64) {s : State}
    (hs : Safe s) :
    SafeNext (Machine.execSavereg p tag vi asid pa s) := by
  grind [Machine.execSavereg, Safe.command, safe_iff, SafeNext]

theorem Safe.execVienable (p : Fin 8) (tag : BitVec 16) (vi en : BitVec 8) {s : State} (hs : Safe s) :
    SafeNext (Machine.execVienable p tag vi en s) := by
  grind [Machine.execVienable, Safe.command, Safe.enableVi, SafeNext]

theorem Safe.execViwrite (p : Fin 8) (tag : BitVec 16) (vi : BitVec 8) (pa : BitVec 64) {s : State} (hs : Safe s) :
    SafeNext (Machine.execViwrite p tag vi pa s) := by
  grind [Machine.execViwrite, Safe.command, safe_iff, SafeNext]

theorem Safe.execViread (p : Fin 8) (tag : BitVec 16) (vi : BitVec 8) (pa : BitVec 64) {s : State} (hs : Safe s) :
    SafeNext (Machine.execViread p tag vi pa s) := by
  grind [Machine.execViread, Safe.command, Safe.putBytes, SafeNext]

theorem Safe.execSetgrace (p : Fin 8) (tag : BitVec 16) (us : BitVec 32) {s : State} (hs : Safe s) :
    SafeNext (Machine.execSetgrace p tag us s) := by
  grind [Machine.execSetgrace, Safe.command, safe_iff, SafeNext]

theorem Safe.execVminread (p : Fin 8) (tag : BitVec 16) (region layer clear : BitVec 8) {s : State} (hs : Safe s) :
    SafeNext (Machine.execVminread p tag region layer clear s) := by
  grind [Machine.execVminread, Safe.command, Safe.setVolt, SafeNext]

theorem Safe.execReservedCommand (p : Fin 8) (tag : BitVec 16) (_code : BitVec 8) {s : State} (hs : Safe s) :
    SafeNext (Machine.execReservedCommand p tag _code s) := by
  grind [Machine.execReservedCommand, Safe.command, SafeNext]

theorem Safe.cmdRefuse {s : State} (hs : Safe s) (vi : BitVec 8) (e : TCmd) : Safe (State.cmdRefuse s vi e) := by
  grind [State.cmdRefuse, Safe.cmdNext, Safe.report]

theorem Safe.cmdWait {s : State} (hs : Safe s) (vi : BitVec 8) (st ipa flags : ℕ) (i : Instr) :
    Safe (State.cmdWait s vi st ipa flags i) := Safe.raise (hs := hs) ..

theorem Safe.unpark {s : State} (hs : Safe s) (tok : ℕ) (a : Agent) : Safe (State.unpark s tok a) := by
  grind [State.unpark, Safe.modStrand]

theorem Safe.execUndervoltage (region layer : ℕ) (mv : BitVec 16) {s : State} (hs : Safe s) :
    SafeNext (Machine.execUndervoltage region layer mv s) := by
  grind [Machine.execUndervoltage, Safe.setVolt, Safe.report, Safe.modCore, SafeNext, Safe.foldl]

theorem Safe.bootFail {s : State} (hs : Safe s) (reason unit : ℕ) : Safe (State.bootFail s reason unit) := by
  grind [State.bootFail, Safe.report, safe_iff]

theorem Safe.noteLook {s : State} (hs : Safe s) (a : Agent) {t : State} (hs2 : Safe t) : Safe (State.noteLook s a t) := by
  grind [State.noteLook, Safe.modStrand]

theorem Safe.stackRecord {s : State} (hs : Safe s) (a : Agent) : Safe (State.stackRecord s a) := Safe.report (hs := hs) ..

end Sys2Proof
end

section
/-! O47: memory stays canonical under layers 4 to 6. A lemma uses those of the layers before its own only; within a layer
the lemmas stand in the order of the model. -/
namespace Sys2Proof
open Sys2Proof.Machine

theorem Safe.trimSet {s : State} (hs : Safe s) (die key need fuel : ℕ) : Safe (State.trimSet s die key need fuel) := by
  fun_induction State.trimSet s die key need fuel <;> grind [Safe.dropL2, Safe.writeBack]

theorem Safe.failWrite {s : State} (hs : Safe s) (x : Access) (id va : ℕ) (code : BitVec 8) (word : Word) :
    Safe (State.failWrite s x id va code word) := by
  grind [State.failWrite, Safe.queueTrap, Safe.modLaunch]

theorem Safe.settleL2 {s : State} (hs : Safe s) (key : ℕ) (policy : BitVec 2) (fresh : Bool) :
    Safe (State.settleL2 s key policy fresh) := by
  grind [State.settleL2, Safe.dropL2, Safe.writeBack, Safe.setL2]

theorem Safe.chargePc {s : State} (hs : Safe s) (u bank : ℕ) (pc : Word) (c : Cause) :
    Safe (State.chargePc s u bank pc c) := by
  grind [State.chargePc, Safe.modUnit, Safe.copyTable]

theorem Safe.openBank {s : State} (hs : Safe s) (u : ℕ) (vi : BitVec 8) (asid : BitVec 16) :
    Safe (State.openBank s u vi asid) := by
  grind [State.openBank, Safe.newBank]

theorem Safe.closeBankNo {s : State} (hs : Safe s) (u bank : ℕ) : Safe (State.closeBankNo s u bank) := by
  grind [State.closeBankNo, Safe.drainCounters, Safe.pcOut, Safe.modUnit]

theorem Safe.spillAll {s : State} (hs : Safe s) (c : ℕ) (vi : BitVec 8) (asid : BitVec 16) (name : List Byte) :
    Safe (State.spillAll s c vi asid name).1 := by
  grind [State.spillAll, Safe.spillTiles, Safe.putNum, Safe.lostSave]

theorem Safe.stopWg {s : State} (hs : Safe s) (w : ℕ) (pc : Word) : Safe (State.stopWg s w pc) := by
  grind [State.stopWg, Safe.traceWg, Safe.setStopped, Safe.modWg]

theorem Safe.blockNeed {s : State} (hs : Safe s) (a : Agent) (n : Need) (c : Cause) : Safe (State.blockNeed s a n c) := by
  unfold State.blockNeed
  grind [Safe.modStrand, Safe.block]

theorem Safe.publish {s : State} (hs : Safe s) (a : Agent) (n : ℕ) : Safe (State.publish s a n) := Safe.setBar (hs := hs) ..

theorem Safe.enact {s : State} (hs : Safe s) (a1 : After) : Safe (State.enact s a1) := by
  unfold State.enact
  grind [Safe.arriveAt, Safe.postAt, Safe.pushEntry]

theorem Safe.loadFate (c : Ctx) {s : State} (hs : Safe s) (va : ℕ) {r : Reach (List Byte × Bool)} (hr : SafeReach r)
    {go : State → List Byte → Act} (hgo : ∀ s b, Safe s → SafeAct (go s b)) :
    SafeAct (Machine.loadFate c s va r go) := by
  grind [Machine.loadFate, Safe.raise, Safe.malformedAt, SafeAct, SafeReach]

theorem Safe.fenceRow {s : State} (hs : Safe s) (p : Place) : Safe (State.fenceRow s p) := by
  unfold State.fenceRow
  grind [Safe.modCore, Safe.loseWay, Safe.modDie]

theorem Safe.trapLoad {s : State} (hs : Safe s) (id : ℕ) (x : Access) (code : BitVec 8) (va : ℕ) :
    Safe (State.trapLoad s id x code va) := by
  grind [State.trapLoad, Safe.dropPush, Safe.settlePend, Safe.modStrand, Safe.queueTrap, safe_iff]

theorem Safe.transmit {s : State} (hs : Safe s) (unit : ℕ) (h : PktHdr) (pay : List Byte) :
    Safe (State.transmit s unit h pay) := by
  grind [State.transmit, Safe.transmit0, Safe.toPort, Safe.undeliverable]

theorem Safe.Work_stopped {α : Type} {g : Work} (hs : Safe g.s) (e : Engine) (write : Bool) (r : Reach α) :
    Safe (Work.stopped g e write r).s := by
  unfold Work.stopped
  grind [Safe.Work_fail, Safe.malformedAt]

theorem Safe.failEngine {s : State} (hs : Safe s) (id : ℕ) (e : Engine) (code va : ℕ) :
    Safe (State.failEngine s id e code va) := by
  grind [State.failEngine, Safe.engineRecord, Safe.modCluster, safe_iff]

theorem Safe.waitOn (c : Ctx) {s : State} (hs : Safe s) (w : Cause) : SafeAct (Machine.waitOn c s w) := by
  grind [Machine.waitOn, Safe.modStrand, Safe.block, SafeAct]

theorem Safe.mergeOpen {s : State} (hs : Safe s) (a : Agent) (va : Word) (r : List Byte) (i : ℕ) :
    Safe (State.mergeOpen s a va r i).1 := by
  grind [State.mergeOpen, Safe.mergeReport, Safe.setSlot]

theorem Safe.mergeClose {s : State} (hs : Safe s) (a : Agent) (va : Word) (r : List Byte) (i : ℕ) (absent : Bool) :
    Safe (State.mergeClose s a va r i absent).1 := by
  grind [State.mergeClose, Safe.mergeReport, Safe.later, Safe.modDie]

theorem Safe.bmAnswer (c : Ctx) {s : State} (hs : Safe s) (out : List (SReg × Word)) :
    SafeAct (Machine.bmAnswer c s out) := by
  grind [Machine.bmAnswer, Safe.spend, Safe.waitIn, SafeAct]

theorem Safe.collFault {s : State} (hs : Safe s) (w : ℕ) (a : Agent) (va st ipa : ℕ) (p write : Bool) :
    Safe (State.collFault s w a va st ipa p write) := by
  grind [State.collFault, Safe.block, Safe.raise]

theorem Safe.refuseOp {s : State} (hs : Safe s) (c : ℕ) (o : MatOp) (why : ℕ) : Safe (State.refuseOp s c o why) := by
  grind [State.refuseOp, Safe.popOp, Safe.setFeed, Safe.modThread, Safe.modCluster, Safe.queueTrap, Safe.opGone]

theorem Safe.matUpset {s : State} (hs : Safe s) (c : ℕ) (o : MatOp) (u : Upset) : Safe (State.matUpset s c o u).1 := by
  unfold State.matUpset
  grind [Safe.findError, Safe.report, Safe.modCluster, Safe.awaitRow, Safe.matReport]

theorem Safe.accFirst {α : Type} (c : Ctx) (s : State) (n st va : ℕ) (r : Reach α) :
    SafeOptAct (Machine.accFirst c s n st va r) := by
  grind [Machine.accFirst, Safe.malformedAt, Safe.accown, SafeAct, SafeOptAct, SafeReach]

theorem Safe.accWait (c : Ctx) {s : State} (hs : Safe s) : SafeAct (Machine.accWait c s) := by
  grind [Machine.accWait, Safe.modThread, Safe.spend, Safe.waitIn, SafeAct]

theorem Safe.allocUnits {s : State} (hs : Safe s) (k num cluster core : ℕ) (lvls : List ℕ) :
    SafeOpt (State.allocUnits s k num cluster core lvls) := by
  fun_induction State.allocUnits s k num cluster core lvls <;> grind [Safe.allocUnit, SafeOpt]

theorem Safe.askAfters {s : State} (hs : Safe s) (vi : BitVec 8) (asid : BitVec 16) (r : List Byte) :
    Safe (State.askAfters s vi asid r) := by
  grind [State.askAfters, Safe.monWait, Safe.foldl]

theorem Safe.reserve {s : State} (hs : Safe s) (gid n : ℕ) : Safe (State.reserve s gid n) := by
  unfold State.reserve
  dsimp only
  split
  · exact hs
  split
  · exact hs
  split
  · exact hs
  next cluster core hp =>
    split
    · exact hs
    next t ht =>
      have h : SafeOpt (some t) := ht ▸ SafeOpt.foldl (o := some s)
        (fun o x h => by cases o with | none => trivial | some t => exact Safe.allocUnit h ..) _ hs
      exact Safe.modGraph h ..

theorem Safe.takeSlots {s : State} (hs : Safe s) (w : ℕ) (core : ℕ → ℕ) (live : List (ℕ × Mask)) :
    Safe (State.takeSlots s w core live) := by
  grind [State.takeSlots, Safe.freeSlot, Safe.modWg, SafeSome, Safe.foldl, Safe.foldl_fst]

theorem Safe.terminate {s : State} (hs : Safe s) (port : ℕ) (h : PktHdr) {f : State → State} (hf : ∀ s, Safe s → Safe (f s)) :
    Safe (State.terminate s port h f) := by
  grind [State.terminate, Safe.unpass, Safe.refusePacket]

theorem Safe.execOrderedHoldExpiry (src : BitVec 17) (flow : BitVec 12) {s : State} (hs : Safe s) :
    SafeNext (Machine.execOrderedHoldExpiry src flow s) := by
  grind [Machine.execOrderedHoldExpiry, Safe.inClk, Safe.undeliverable, Safe.expect, safe_iff, SafeNext, Safe.foldl]

theorem Safe.cmdRun {s : State} (hs : Safe s) (vi : BitVec 8) (e : TCmd) (row : Instr) {f : State → State}
    (hf : ∀ s, Safe s → Safe (f s)) :
    Safe (State.cmdRun s vi e row f) := by
  grind [State.cmdRun, Safe.cmdWait, Safe.cmdNext, Safe.cmdDone]

theorem Safe.cmdBell {s : State} (hs : Safe s) (vi : BitVec 8) : Safe (State.cmdBell s vi) := by
  grind [State.cmdBell, Safe.cmdWait, Safe.first, Safe.cmdRefuse, safe_iff]

theorem Safe.denyAgent {s : State} (hs : Safe s) (tok : ℕ) (a : Agent) (va : Word) : Safe (State.denyAgent s tok a va) := by
  grind [State.denyAgent, Safe.queueTrap, Safe.unpark]

theorem Safe.execVerify {s : State} (hs : Safe s) : SafeNext (Machine.execVerify s) := by
  grind [Machine.execVerify, Safe.setBoot, Safe.bootFail, safe_iff, SafeNext]

theorem Safe.execMemtrain (failed : Option (Fin 48)) {s : State} (hs : Safe s) :
    SafeNext (Machine.execMemtrain failed s) := by
  grind [Machine.execMemtrain, Safe.setBoot, Safe.bootFail, SafeNext]

theorem Safe.execLanemap (r : LaneReport) {s : State} (hs : Safe s) : SafeNext (Machine.execLanemap r s) := by
  grind [Machine.execLanemap, Safe.setBoot, Safe.repairLanes, Safe.modCore, Safe.modCluster, Safe.bootFail, safe_iff,
    SafeNext, Safe.foldl]

theorem Safe.stackDue {s : State} (hs : Safe s) (core : ℕ) (m : ℤ) : Safe (State.stackDue s core m) := by
  grind [State.stackDue, Safe.report, Safe.stackRecord, Safe.modStrand]

theorem Safe.execLimitDrain (u bank : ℕ) {s : State} (hs : Safe s) : SafeNext (Machine.execLimitDrain u bank s) := by
  grind [Machine.execLimitDrain, Safe.drainCounters, SafeNext]

theorem Safe.vecBody (d : VReg) (p : Option Prefix) (f : ℕ → Lane × FFlags) (c : Ctx) {s : State} (hs : Safe s) :
    SafeAct (Machine.vecBody d p f c s) := Safe.vwrite (hs := hs) ..

theorem Safe.makeRoom {s : State} (hs : Safe s) (key : ℕ) (bs : List Byte) : Safe (State.makeRoom s key bs) := by
  grind [State.makeRoom, Safe.trimSet]

theorem Safe.hold {s : State} (hs : Safe s) (x : Access) (id va stage ipa : ℕ) (perm : Bool) :
    Safe (State.hold s x id va stage ipa perm) := by
  grind [State.hold, Safe.report, Safe.failWrite, Safe.raise, Safe.modDie, safe_iff]

theorem Safe.refuseWrite {s : State} (hs : Safe s) (x : Access) (va : ℕ) (code : BitVec 8) :
    Safe (State.refuseWrite s x va code) := by
  grind [State.refuseWrite, Safe.report, Safe.failWrite]

theorem Safe.charge {s : State} (hs : Safe s) (u : ℕ) (vi : BitVec 8) (asid : BitVec 16) (pc : Word) (c : Cause)
    (a : Option Agent) (w : Option ℕ) :
    Safe (State.charge s u vi asid pc c a w) := by
  unfold State.charge
  grind [Safe.modUnit, Safe.modWg, Safe.soon, Safe.chargePc]

theorem Safe.closeBank {s : State} (hs : Safe s) (u : ℕ) (vi : BitVec 8) (asid : BitVec 16) :
    Safe (State.closeBank s u vi asid) := Safe.closeBankNo (hs := hs) ..

theorem Safe.closeThread {s : State} (hs : Safe s) (t : ℕ) : Safe (State.closeThread s t) := Safe.closeBankNo (hs := hs) ..

theorem Safe.engineOwner {s : State} (hs : Safe s) (t : ℕ) : Safe (State.engineOwner s t) := by
  grind [State.engineOwner, Safe.modCluster, Safe.spillAll, Safe.lostSave, Safe.setTile, Safe.putNum, Safe.foldl,
    Safe.foldl_fst]

theorem Safe.upset {s : State} (hs : Safe s) (p : Place) (va : ℕ) (ctx : BitVec 8 × BitVec 16) (name : List Byte) (u : Upset)
    :
    Safe (State.upset s p va ctx name u) := by
  grind [State.upset, Safe.findError, Safe.report, Safe.loseWay, Safe.refetch, Safe.fenceRow, Safe.awaitRow, Safe.poisonAt]

theorem Safe.sendPacket {s : State} (hs : Safe s) (unit : ℕ) (vi : BitVec 8) (asid : BitVec 16) (op dest rva : ℕ)
    (pay : List Byte) :
    Safe (State.sendPacket s unit vi asid op dest rva pay) := by
  grind [State.sendPacket, Safe.transmit, safe_iff]

theorem Safe.settleWork {s : State} (hs : Safe s) (id : ℕ) (e : Engine) {g : Work} (hs2 : Safe g.s) (xids : List (BitVec 32))
    :
    Safe (State.settleWork s id e g xids) := by
  grind [State.settleWork, Safe.raise, Safe.failEngine, Safe.soon, safe_iff]

theorem Safe.refuseFailed {s : State} (hs : Safe s) (c : ℕ) : Safe (State.refuseFailed s c) := by
  grind [State.refuseFailed, Safe.refuseOp, Safe.foldl]

theorem Safe.admitOp {s : State} (hs : Safe s) (c : ℕ) (o : MatOp) : Safe (State.admitOp s c o) := by
  grind [State.admitOp, Safe.popOp, Safe.modCluster, Safe.inClk, Safe.refuseOp]

theorem Safe.execMmaComplete (c op : ℕ) (u : Upset) {s : State} (hs : Safe s) :
    SafeNext (Machine.execMmaComplete c op u s) := by
  grind [Machine.execMmaComplete, Safe.inClk, Safe.matUpset, Safe.writePass, Safe.zeroOp, Safe.modCluster, Safe.opGone,
    SafeNext]

theorem Safe.execEligibilityCheck {s : State} (hs : Safe s) : SafeNext (Machine.execEligibilityCheck s) := by
  grind [execEligibilityCheck, Safe.soon, Safe.askAfters, Safe.flushAll, Safe.ringBells, safe_iff, SafeNext, Safe.foldl]

theorem Safe.eagerSpill {s : State} (hs : Safe s) (cluster : ℕ) (vi : BitVec 8) : Safe (State.eagerSpill s cluster vi) := by
  grind [State.eagerSpill, Safe.modCluster, Safe.spillAll]

theorem Safe.discardCtl {s : State} (hs : Safe s) (w : ℕ) : Safe (State.discardCtl s w).1 := by
  grind [State.discardCtl, Safe.modCluster, Safe.relAll, Safe.dropUndone, Safe.spillAll]

theorem Safe.ackTo {s : State} (hs : Safe s) (port : ℕ) (h : PktHdr) (xid : BitVec 32) (status : ℕ) :
    Safe (State.ackTo s port h xid status) := Safe.transmit (hs := hs) ..

theorem Safe.sendMgmt {s : State} (hs : Safe s) (unit op : ℕ) (dest : BitVec 17) (flow : BitVec 12) (pay : List Byte) :
    Safe (State.sendMgmt s unit op dest flow pay) := by
  grind [State.sendMgmt, Safe.transmit, safe_iff]

theorem Safe.execStop (p : Fin 8) (tag : BitVec 16) (name : WgName) {s : State} (hs : Safe s) :
    SafeNext (Machine.execStop p tag name s) := by
  grind [Machine.execStop, Safe.command, Safe.stopWg, SafeNext]

theorem Safe.dropHeld {s : State} (hs : Safe s) (id : ℕ) : Safe (State.dropHeld s id) := by
  grind [State.dropHeld, Safe.report, Safe.failWrite, Safe.unhold, safe_iff]

theorem Safe.execFotset (vi : BitVec 8) (e : TCmd) {s : State} (hs : Safe s) : SafeNext (Machine.execFotset vi e s) := by
  grind [Machine.execFotset, Safe.cmdRefuse, Safe.cmdRun, Safe.putNum, SafeNext]

theorem Safe.execWindowEvaluation (c : ℕ) {s : State} (hs : Safe s) : SafeNext (Machine.execWindowEvaluation c s) := by
  grind [Machine.execWindowEvaluation, Safe.stackDue, Safe.modCore, Safe.modCluster, safe_iff, SafeNext, Safe.foldl]

theorem Safe.fill {s : State} (hs : Safe s) (vi : BitVec 8) (va : ℕ) (t : Tlb) : SafeOpt (State.fill s vi va t) := by
  grind [State.fill, Safe.makeRoom, Safe.setL2, Safe.meter, SafeOpt]

theorem Safe.homePut {s : State} (hs : Safe s) (key va : ℕ) (bs : List Byte) (bad : Bool) :
    Safe (State.homePut s key va bs bad) := by
  grind [State.homePut, Safe.setL2, Safe.makeRoom]

theorem Safe.openThread {s : State} (hs : Safe s) (t : ℕ) (vi : BitVec 8) (asid : BitVec 16) :
    Safe (State.openThread s t vi asid) := by
  grind [State.openThread, Safe.newBank, Safe.closeThread]

theorem Safe.closeLeft {s : State} (hs : Safe s) : Safe (State.closeLeft s) := by
  grind [State.closeLeft, Safe.closeThread, Safe.foldl]

theorem Safe.leaveCore {s : State} (hs : Safe s) (core : ℕ) (vi : BitVec 8) (asid : BitVec 16) :
    Safe (State.leaveCore s core vi asid) := by
  grind [State.leaveCore, Safe.closeBank]

theorem Safe.freeThread {s : State} (hs : Safe s) (t : ℕ) : Safe (State.freeThread s t) := by
  grind [State.freeThread, Safe.modThread, Safe.disown, Safe.closeThread, Safe.first]

theorem Safe.useSlot {s : State} (hs : Safe s) (a : Agent) (pc : Word) (c : Cause) : Safe (State.useSlot s a pc c) := by
  grind [State.useSlot, Safe.charge, Safe.modUnit, Safe.modStrand, Safe.modCore, Safe.modCluster, safe_iff]

theorem Safe.upsetFor {s : State} (hs : Safe s) (x : Access) (u : Upset) : Safe (State.upsetFor s x u) := by
  grind [State.upsetFor, Safe.upset]

theorem Safe.execFetchMiss (m : CodeMiss) {s : State} (hs : Safe s) : SafeNext (Machine.execFetchMiss m s) := by
  grind [execFetchMiss, Safe.upset, Safe.block, Safe.later, safe_iff, SafeNext]

theorem Safe.sendOp {s : State} (hs : Safe s) (unit : ℕ) (vi : BitVec 8) (asid : BitVec 16) (op dest rva va : ℕ)
    (pay : BitVec 32 → List Byte) (engine coll : Option ℕ) :
    Safe (State.sendOp s unit vi asid op dest rva va pay engine coll).1 := by
  grind [State.sendOp, Safe.inClk, Safe.sendPacket, safe_iff]

theorem Safe.execMatrixAdmit (c : ℕ) {s : State} (hs : Safe s) : SafeNext (Machine.execMatrixAdmit c s) := by
  grind [Machine.execMatrixAdmit, Safe.markCand, Safe.refuseFailed, Safe.admitOp, SafeNext, Safe.foldl]

theorem Safe.pollSpill {s : State} (hs : Safe s) (t : ℕ) : Safe (State.pollSpill s t) := by
  grind [State.pollSpill, Safe.modThread, Safe.eagerSpill]

theorem Safe.answer {s : State} (hs : Safe s) (port : ℕ) (h : PktHdr) (mop status : ℕ) (index : BitVec 32) (rid : BitVec 64)
    (data : BitVec 128) :
    Safe (State.answer s port h mop status index rid data) := Safe.sendMgmt (hs := hs) ..

theorem Safe.remoteDone (port : ℕ) (h : PktHdr) (xid : BitVec 32) {r : Remote} (hr : SafeRemote r) :
    Safe (State.remoteDone port h xid r).1 := by
  unfold State.remoteDone
  grind [Safe.ackTo, Safe.passIn, SafeRemote]

theorem Safe.dropPort {s : State} (hs : Safe s) (p reason : ℕ) : Safe (State.dropPort s p reason) := by
  grind [State.dropPort, Safe.modPort, Safe.report, Safe.sendMgmt, Safe.undeliverable, Safe.foldl]

theorem Safe.chargeIdle {s : State} (hs : Safe s) (u : ℕ) : Safe (State.chargeIdle s u) := by
  grind [State.chargeIdle, Safe.charge]

theorem Safe.pollOwner {s : State} (hs : Safe s) (a : Agent) : Safe (State.pollOwner s a) := by
  grind [State.pollOwner, Safe.spend, Safe.modStrand, Safe.engineOwner]

end Sys2Proof
end

section
/-! O47: memory stays canonical under layers 7 to 11. A lemma uses those of the layers before its own only; within a layer
the lemmas stand in the order of the model. -/
namespace Sys2Proof
open Sys2Proof.Machine

theorem Safe.home {s : State} (hs : Safe s) (vi : BitVec 8) (asid : BitVec 16) (va : ℕ) (write fetch : Bool) :
    SafeHome (State.home s vi asid va write fetch) := by
  unfold State.home
  grind [Safe.rights, Safe.setL2, Safe.translate, Safe.fill, SafeHome, SafeOpt, SafeOptHome, SafeTrans]

theorem Safe.saveContext {s : State} (hs : Safe s) (t : ℕ) : Safe (State.saveContext s t) := by
  grind [State.saveContext, Safe.freeThread, Safe.putBytes, Safe.lostSave]

theorem Safe.dropGroups {s : State} (hs : Safe s) (w : ℕ) : Safe (State.dropGroups s w) := by
  grind [State.dropGroups, Safe.stackLost, Safe.modWg, Safe.leaveCore, safe_iff, Safe.foldl]

theorem Safe.retire {s : State} (hs : Safe s) (n : Need) (c : Ctx) (pc : Word) : Safe (State.retire s n c pc) := by
  grind [State.retire, Safe.markParcels, Safe.useSlot, Safe.drawn, Safe.modGroup, Safe.modThread, Safe.tPend, Safe.modUnit,
    Safe.modStrand]

theorem Safe.sendWrite {s : State} (hs : Safe s) (unit : ℕ) (vi : BitVec 8) (asid : BitVec 16) (dest rva va : ℕ) (bad : Bool)
    (data : List Byte) (engine coll : Option ℕ) :
    Safe (State.sendWrite s unit vi asid dest rva va bad data engine coll).1 := Safe.sendOp (hs := hs) ..

theorem Safe.sendCounter {s : State} (hs : Safe s) (unit : ℕ) (vi : BitVec 8) (asid : BitVec 16) (op dest rva va : ℕ)
    (v : Word) (engine coll : Option ℕ) :
    Safe (State.sendCounter s unit vi asid op dest rva va v engine coll).1 := Safe.sendOp (hs := hs) ..

theorem Safe.collSlot {s : State} (hs : Safe s) (a : Agent) : Safe (State.collSlot s a) := by
  grind [State.collSlot, Safe.drawn, Safe.useSlot]

theorem Safe.takeThread {s : State} (hs : Safe s) (t : ℕ) (x : Thread) : Safe (State.takeThread s t x) := by
  grind [State.takeThread, Safe.pollSpill, Safe.modThread, Safe.openThread, Safe.soon]

theorem Safe.suspendWg {s : State} (hs : Safe s) (w : ℕ) (keep : Bool) : Safe (State.suspendWg s w keep) := by
  grind [State.suspendWg, Safe.spillAll, Safe.modCluster, Safe.putBytes, Safe.lostSave, Safe.freeThread, Safe.dropUndone,
    Safe.modWg]

theorem Safe.release_ {s : State} (hs : Safe s) (k a2 : ℕ) : Safe (State.release_ s k a2) := by
  fun_induction State.release_ s k a2 <;> grind [Safe.soon, Safe.passIn, Safe.answer, Safe.expect, safe_iff]

theorem Safe.execPortDown (port : Fin 24) (reason : BitVec 8) {s : State} (hs : Safe s) :
    SafeNext (Machine.execPortDown port reason s) := by
  grind [Machine.execPortDown, Safe.dropPort, SafeNext]

theorem Safe.dropFlit {s : State} (hs : Safe s) (p : ℕ) (crc : Bool) : Safe (State.dropFlit s p crc) := by
  grind [State.dropFlit, Safe.dropPort, Safe.modPort]

theorem Safe.putHome {s : State} (hs : Safe s) (a : Agent) (vi : BitVec 8) (asid : BitVec 16) (wg va : ℕ) (tags : BitVec 16)
    (bs : List Byte) (bad : Bool) :
    Safe (State.putHome s a vi asid wg va tags bs bad) := by
  grind [State.putHome, Safe.home, Safe.homePut, Safe.hold, Safe.failWrite, Safe.report, Safe.refuseWrite, safe_iff, SafeHome]

theorem Safe.readRuns {s : State} (hs : Safe s) (vi : BitVec 8) (asid : BitVec 16) (acc : List Byte) (bad : Bool)
    (runs : List (ℕ × ℕ)) :
    SafeReach (State.readRuns s vi asid acc bad runs) := by
  fun_induction State.readRuns s vi asid acc bad runs <;> grind [Safe.home, Safe.Home_stop, SafeHome, SafeReach]

theorem Safe.writeRuns {s : State} (hs : Safe s) (vi : BitVec 8) (asid : BitVec 16) (bs : List Byte) (bad : Bool)
    (runs : List (ℕ × ℕ)) :
    SafeReach (State.writeRuns s vi asid bs bad runs) := by
  fun_induction State.writeRuns s vi asid bs bad runs <;> grind [Safe.home, Safe.homePut, Safe.Home_stop, SafeHome, SafeReach]

theorem Safe.sliceOut {s : State} (hs : Safe s) (t : ℕ) : Safe (State.sliceOut s t) := by
  grind [State.sliceOut, Safe.spillAll, Safe.saveContext, Safe.modCluster, Safe.putNum, Safe.putBytes, Safe.freeThread]

theorem Safe.freeWg {s : State} (hs : Safe s) (w : ℕ) : Safe (State.freeWg s w) := by
  grind [State.freeWg, Safe.dropGroups, Safe.freeUnits, Safe.freeThread, safe_iff]

theorem Safe.finishFetch {s : State} (hs : Safe s) (id : ℕ) : Safe (State.finishFetch s id) := by
  grind [State.finishFetch, Safe.home, Safe.installLine, Safe.raise, Safe.modStrand, Safe.queueTrap, Safe.malformedAt,
    safe_iff, SafeHome, Safe.foldl, Safe.foldl_fst]

theorem Safe.engineSend {s : State} (hs : Safe s) (id : ℕ) (e : Engine) (dev rva : ℕ) :
    Safe (State.engineSend s id e dev rva).1.s := by
  grind [State.engineSend, Safe.Work_fail, Safe.Work_start, Safe.sendCounter]

theorem Safe.Work_allFar {g : Work} (hs : Safe g.s) (e : Engine) (runs : List (ℕ × ℕ)) : Safe (Work.allFar g e runs).s := by
  grind [Work.allFar, Safe.home, Safe.Work_fail, Safe.Work_stopped, Safe.Home_stop, Safe.foldl, Safe.foldl_work,
    Safe.foldl_work_fst]

theorem Safe.pumpSends {s : State} (hs : Safe s) (w : ℕ) (e : Engine) (xs : List Send) :
    Safe (State.pumpSends s w e xs).1 := by
  grind [State.pumpSends, Safe.sendCounter, Safe.foldl, Safe.foldl_fst]

theorem Safe.abortRaise {s : State} (hs : Safe s) (w : ℕ) (q : Coll) : Safe (State.abortRaise s w q) := by
  grind [State.abortRaise, Safe.sendCounter, Safe.modWg, Safe.foldl, Safe.foldl_fst]

theorem Safe.place {s : State} (hs : Safe s) (k num cluster core : ℕ) (back : Option Restart) :
    Safe (State.place s k num cluster core back) := by
  unfold State.place
  grind [Safe.beginLaunch, Safe.allocUnits, Safe.putBatch, Safe.modLaunch, Safe.takeSlots, Safe.invalidate, Safe.modCore,
    Safe.openBank, Safe.useResv, Safe.modWg, Safe.takeThread, Safe.traceWg, Safe.setStopped, safe_iff, SafeOpt,
    Memory.wf_memZero, Safe.foldl]

theorem Safe.execGraceExpiry (w : ℕ) {s : State} (hs : Safe s) : SafeNext (Machine.execGraceExpiry w s) := by
  grind [Machine.execGraceExpiry, Safe.modThread, Safe.inClk, Safe.suspendWg, Safe.report, SafeNext]

theorem Safe.execSuspendedRestore (w : ℕ) {s : State} (hs : Safe s) : SafeNext (Machine.execSuspendedRestore w s) := by
  grind [Machine.execSuspendedRestore, Safe.modWg, Safe.takeThread, SafeNext]

theorem Safe.inOrder {s : State} (hs : Safe s) (port : ℕ) (h : PktHdr) (pay : List Byte) {f : State → State × Bool}
    (hf : ∀ s, Safe s → Safe (f s).1) :
    Safe (State.inOrder s port h pay f) := by
  grind [State.inOrder, Safe.release_, Safe.expect, Safe.inClk, Safe.undeliverable, safe_iff]

theorem Safe.denyPacket {s : State} (hs : Safe s) (i : Instr) : Safe (State.denyPacket s i) := by
  unfold State.denyPacket
  grind [Safe.release_, Safe.expect, Safe.ackTo, Safe.unpass]

theorem Safe.tryHome {s : State} (hs : Safe s) (a : Agent) (va : ℕ) (write : Bool) :
    SafeOpt (State.tryHome s a va write) := by
  grind [State.tryHome, Safe.home, SafeHome, SafeOpt]

theorem Safe.mergeHome {s : State} (hs : Safe s) (a : Agent) (vi : BitVec 8) (asid : BitVec 16) (wg va : ℕ) (tags : BitVec 16)
    (bs : List Byte) (bad : Bool) :
    Safe (State.mergeHome s a vi asid wg va tags bs bad) := by
  grind [State.mergeHome, Safe.putHome, safe_iff]

theorem Safe.readHome {s : State} (hs : Safe s) (vi : BitVec 8) (asid : BitVec 16) (va n : ℕ) :
    SafeReach (State.readHome s vi asid va n) := by
  grind [State.readHome, Safe.readRuns, SafeReach]

theorem Safe.writeHome {s : State} (hs : Safe s) (vi : BitVec 8) (asid : BitVec 16) (va : ℕ) (bs : List Byte) (bad : Bool) :
    SafeReach (State.writeHome s vi asid va bs bad) := by
  grind [State.writeHome, Safe.writeRuns, SafeReach]

theorem Safe.execFetchFill (id : ℕ) (u : Upset) {s : State} (hs : Safe s) : SafeNext (Machine.execFetchFill id u s) := by
  grind [execFetchFill, Safe.upset, Safe.request, Safe.finishFetch, safe_iff, SafeNext]

theorem Safe.pumpColl {s : State} (hs : Safe s) (w : ℕ) : Safe (State.pumpColl s w) := by
  grind [State.pumpColl, Safe.pumpSends, Safe.modWg]

theorem Safe.terminateIn {s : State} (hs : Safe s) (port : ℕ) (h : PktHdr) (pay : List Byte) {f : State → State × Bool}
    (hf : ∀ s, Safe s → Safe (f s).1) :
    Safe (State.terminateIn s port h pay f) := by
  grind [State.terminateIn, Safe.terminate, Safe.inOrder]

theorem Safe.deliverPacket {s : State} (hs : Safe s) (port : Fin 24) (h : PktHdr) (pay : List Byte) :
    Safe (State.deliverPacket s port h pay) := by
  grind [State.deliverPacket, Safe.refusePacket, Safe.soon, Safe.passIn, Safe.inOrder, Safe.answer, Safe.transmit]

theorem Safe.backSector {s : State} (hs : Safe s) (core key i : ℕ) (leaves : Bool) :
    Safe (State.backSector s core key i leaves) := by
  grind [State.backSector, Safe.putBytes, Safe.mergeHome, Safe.setL1, Safe.foldl]

theorem Safe.readFor {s : State} (hs : Safe s) (w : Option ℕ) (a : Agent) (lane : Option ℕ) (vi : BitVec 8) (asid : BitVec 16)
    (va n : ℕ) :
    SafeReach (State.readFor s w a lane vi asid va n) := by
  grind [State.readFor, Safe.readHome, SafeReach]

theorem Safe.writeFor {s : State} (hs : Safe s) (w : Option ℕ) (a : Agent) (lane : Option ℕ) (vi : BitVec 8)
    (asid : BitVec 16) (va : ℕ) (bs : List Byte) (bad : Bool) :
    SafeReach (State.writeFor s w a lane vi asid va bs bad) := by
  grind [State.writeFor, Safe.writeHome, Safe.putBytes, Safe.addPoison, SafeReach, Safe.foldl]

theorem Safe.writeOwn {s : State} (hs : Safe s) (a : Agent) (vi : BitVec 8) (asid : BitVec 16) (wg va : ℕ) (bs : List Byte) :
    Safe (State.writeOwn s a vi asid wg va bs) := by
  grind [State.writeOwn, Safe.mergeHome, Safe.foldl]

theorem Safe.peekNum {s : State} (hs : Safe s) (vi : BitVec 8) (asid : BitVec 16) (va n : ℕ) :
    Safe (State.peekNum s vi asid va n).1 := by
  grind [State.peekNum, Safe.readHome, SafeReach]

theorem Safe.RingAt_read (r : RingAt) {s : State} (hs : Safe s) (a n : ℕ) : SafeSome (RingAt.read r s a n) := by
  cases r with
  | va vi asid b =>
    have h := hs.readHome vi asid a n
    grind [RingAt.read, SafeReach, SafeSome]
  | ipa vi b => cases hp : s.ipa vi a <;> simp [RingAt.read, SafeSome, hp, hs]
  | pa b => exact hs

theorem Safe.RingAt_write (r : RingAt) {s : State} (hs : Safe s) (a : ℕ) (bs : List Byte) :
    SafeOpt (RingAt.write r s a bs) := by
  unfold RingAt.write
  grind [Safe.writeHome, Safe.putBytes, SafeOpt, SafeReach]

theorem Safe.storeLanes {s : State} (hs : Safe s) (x : Access) (id : ℕ) (ls : List (ℕ × Word × List Byte)) :
    Safe (State.storeLanes s x id ls) := by
  fun_induction State.storeLanes s x id ls <;> grind [Safe.home, Safe.hold, Safe.homeWhole, Safe.putHome, Safe.mergeHome,
    Safe.foldl, safe_iff]

theorem Safe.collAck {s : State} (hs : Safe s) (w : ℕ) (xid : BitVec 32) : Safe (State.collAck s w xid) := by
  grind [State.collAck, Safe.modWg, Safe.pumpColl]

theorem Safe.collLost {s : State} (hs : Safe s) (w : ℕ) (xid : BitVec 32) (code va : ℕ) :
    Safe (State.collLost s w xid code va) := by
  grind [State.collLost, Safe.modWg, Safe.pumpColl, Safe.abortColl]

theorem Safe.collSettle {s : State} (hs : Safe s) (w : ℕ) (a : Agent) (q : Coll) {g : Work} (hs2 : Safe g.s)
    (out : Option Send) :
    Safe (State.collSettle s w a q g out) := by
  unfold State.collSettle
  grind [Safe.collFault, Safe.abortColl, Safe.collSlot, Safe.setColl, Safe.pumpColl]

theorem Safe.monRead {s : State} (hs : Safe s) (vi : BitVec 8) (asid : BitVec 16) (va n : ℕ) :
    SafeSome (State.monRead s vi asid va n) := by
  grind [State.monRead, Safe.readHome, SafeReach, SafeSome]

theorem Safe.remoteWrite {s : State} (hs : Safe s) (e : BitVec 128) (rva : ℕ) (bad : Bool) (data : List Byte) (i : Instr) :
    SafeRemote (State.remoteWrite s e rva bad data i) := by
  grind [State.remoteWrite, Safe.writeHome, Safe.meterIn, Safe.remoteStop, SafeReach, SafeRemote]

theorem Safe.remoteCounter {s : State} (hs : Safe s) (e : BitVec 128) (rva : ℕ) (f : ℕ → ℕ) (i : Instr) :
    SafeRemote (State.remoteCounter s e rva f i) := by
  grind [State.remoteCounter, Safe.readHome, Safe.writeHome, Safe.meterIn, Safe.remoteStop, SafeReach, SafeRemote]

theorem Safe.mreq {s : State} (hs : Safe s) (port : ℕ) (h : PktHdr) (mop limit : ℕ) (index : BitVec 32) (rid : BitVec 64)
    (data : BitVec 128) {f : State → State × BitVec 128} (hf : ∀ s, Safe s → Safe (f s).1) :
    Safe (State.mreq s port h mop limit index rid data f) := by
  grind [State.mreq, Safe.terminateIn, Safe.answer]

theorem Safe.execLinkdown (port : Fin 24) (h : PktHdr) (dev : BitVec 17) (down reason : BitVec 8) (time : BitVec 64)
    {s : State} (hs : Safe s) :
    SafeNext (Machine.execLinkdown port h dev down reason time s) := by
  grind [Machine.execLinkdown, Safe.terminateIn, SafeNext]

theorem Safe.parsePackets {s : State} (hs : Safe s) (port : Fin 24) (bs : List Byte) (a3 : ℕ) :
    Safe (State.parsePackets s port bs a3) := by
  fun_induction State.parsePackets s port bs a3 <;> grind [Safe.modPort, Safe.refusePacket, Safe.deliverPacket]

theorem Safe.backWhere {s : State} (hs : Safe s) (core : ℕ) (p : ℕ → Sector → Bool) : Safe (State.backWhere s core p) := by
  grind [State.backWhere, Safe.backSector, Safe.foldl]

theorem Safe.commitSector {s : State} (hs : Safe s) (core key i : ℕ) (wide : Bool) (ps : List (BitVec 2)) :
    Safe (State.commitSector s core key i wide ps) := by
  unfold State.commitSector
  grind [Safe.backSector, Safe.settleL2]

theorem Safe.complete {s : State} (hs : Safe s) (vi : BitVec 8) (asid : BitVec 16) (done wgs : ℕ) (record : Word) :
    Safe (State.complete s vi asid done wgs record) := by
  grind [State.complete, Safe.writeOwn, Safe.soon]

theorem Safe.Work_read {g : Work} (hs : Safe g.s) (e : Engine) (lane : Option ℕ) (va n : ℕ) :
    Safe (Work.read g e lane va n).1.s := by
  grind [Work.read, Safe.readFor, Safe.Work_fail, Safe.Work_stopped, SafeReach]

theorem Safe.seeCounter {s : State} (hs : Safe s) (a : Agent) (va : ℕ) :
    SafeReach (State.seeCounter s a va) := Safe.readFor (hs := hs) ..

theorem Safe.kernels {s : State} (hs : Safe s) (vi : BitVec 8) (asid : BitVec 16) (table : List Byte) :
    Safe (State.kernels s vi asid table).1 := by
  grind [State.kernels, Safe.monRead, SafeSome, Safe.foldl, Safe.foldl_fst]

theorem Safe.launchQueue {s : State} (hs : Safe s) (vi : BitVec 8) (q : ℕ) : SafeSome (State.launchQueue s vi q) := by
  grind [State.launchQueue, Safe.monRead, SafeSome]

theorem Safe.spillRecs {s : State} (hs : Safe s) (gid n : ℕ) (recs : List (List Byte)) :
    Safe (State.spillRecs s gid n recs) := by
  grind [State.spillRecs, Safe.writeOwn, Safe.modGraph, Safe.foldl]

theorem Safe.unspill {s : State} (hs : Safe s) (gid n count : ℕ) : Safe (State.unspill s gid n count).1 := by
  grind [State.unspill, Safe.monWait, Safe.monRead, Safe.modGraph]

theorem Safe.execWrite (port : Fin 24) (h : PktHdr) (rva : BitVec 64) (xid : BitVec 32) (poison : BitVec 8)
    (data : List (BitVec 8)) {s : State} (hs : Safe s) :
    SafeNext (Machine.execWrite port h rva xid poison data s) := by
  grind [Machine.execWrite, Safe.refusePacket, Safe.terminate, Safe.remoteDone, Safe.remoteWrite, SafeNext, SafeRemote]

theorem Safe.counterPacket {s : State} (hs : Safe s) (port : ℕ) (h : PktHdr) (rva v : BitVec 64) (xid : BitVec 32) (f : ℕ → ℕ)
    (i : Instr) :
    Safe (State.counterPacket s port h rva v xid f i) := by
  grind [State.counterPacket, Safe.terminateIn, Safe.remoteDone, Safe.remoteCounter]

theorem Safe.acked {s : State} (hs : Safe s) (x : Sent) (status : ℕ) : Safe (State.acked s x status) := by
  grind [State.acked, Safe.endSent, Safe.stopEngine, Safe.failEngine, Safe.engineAck, Safe.collAck, Safe.collLost]

theorem Safe.lost {s : State} (hs : Safe s) (x : Sent) : Safe (State.lost s x) := by
  grind [State.lost, Safe.endSent, Safe.report, Safe.modCluster, Safe.engineAck, Safe.stopEngine, Safe.collLost, safe_iff]

theorem Safe.execRtwrite (port : Fin 24) (h : PktHdr) (index : BitVec 32) (rid : BitVec 64) (data : BitVec 128) {s : State}
    (hs : Safe s) :
    SafeNext (Machine.execRtwrite port h index rid data s) := by
  grind [Machine.execRtwrite, Safe.mreq, Safe.modFabric, SafeNext]

theorem Safe.execRtread (port : Fin 24) (h : PktHdr) (index : BitVec 32) (rid : BitVec 64) (data : BitVec 128) {s : State}
    (hs : Safe s) :
    SafeNext (Machine.execRtread port h index rid data s) := by
  grind [Machine.execRtread, Safe.mreq, SafeNext]

theorem Safe.execRtreada (port : Fin 24) (h : PktHdr) (index : BitVec 32) (rid : BitVec 64) (data : BitVec 128) {s : State}
    (hs : Safe s) :
    SafeNext (Machine.execRtreada port h index rid data s) := by
  grind [Machine.execRtreada, Safe.mreq, SafeNext]

theorem Safe.execKeywrite (port : Fin 24) (h : PktHdr) (index : BitVec 32) (rid : BitVec 64) (data : BitVec 128) {s : State}
    (hs : Safe s) :
    SafeNext (Machine.execKeywrite port h index rid data s) := by
  grind [Machine.execKeywrite, Safe.mreq, Safe.modFabric, SafeNext]

theorem Safe.execKeyread (port : Fin 24) (h : PktHdr) (index : BitVec 32) (rid : BitVec 64) (data : BitVec 128) {s : State}
    (hs : Safe s) :
    SafeNext (Machine.execKeyread port h index rid data s) := by
  grind [Machine.execKeyread, Safe.mreq, SafeNext]

theorem Safe.execCommit (port : Fin 24) (h : PktHdr) (index : BitVec 32) (rid : BitVec 64) (data : BitVec 128) {s : State}
    (hs : Safe s) :
    SafeNext (Machine.execCommit port h index rid data s) := by
  grind [Machine.execCommit, Safe.mreq, Safe.modFabric, SafeNext]

theorem Safe.execSubwrite (port : Fin 24) (h : PktHdr) (index : BitVec 32) (rid : BitVec 64) (data : BitVec 128) {s : State}
    (hs : Safe s) :
    SafeNext (Machine.execSubwrite port h index rid data s) := by
  grind [Machine.execSubwrite, Safe.mreq, Safe.modFabric, SafeNext]

theorem Safe.execSubread (port : Fin 24) (h : PktHdr) (index : BitVec 32) (rid : BitVec 64) (data : BitVec 128) {s : State}
    (hs : Safe s) :
    SafeNext (Machine.execSubread port h index rid data s) := by
  grind [Machine.execSubread, Safe.mreq, SafeNext]

theorem Safe.execPortdown (port : Fin 24) (h : PktHdr) (index : BitVec 32) (rid : BitVec 64) (data : BitVec 128) {s : State}
    (hs : Safe s) :
    SafeNext (Machine.execPortdown port h index rid data s) := by
  grind [Machine.execPortdown, Safe.mreq, Safe.dropPort, SafeNext]

theorem Safe.execDataFlit (port : Fin 24) (f : Flit) {s : State} (hs : Safe s) :
    SafeNext (Machine.execDataFlit port f s) := by
  grind [Machine.execDataFlit, Safe.heard, Safe.dropFlit, Safe.ackFlits, Safe.report, Safe.modPort, Safe.refusePacket,
    Safe.parsePackets, SafeNext]

theorem Safe.execSessionOpen (vi : BitVec 8) (o : Opening) {s : State} (hs : Safe s) :
    SafeNext (Machine.execSessionOpen vi o s) := by
  unfold Machine.execSessionOpen
  extract_lets asid key note
  split
  · exact hs
  split
  · exact hs
  next r _ =>
    split
    · exact hs
    next t sel ht =>
      have h : Safe t := by
        have h := Safe.RingAt_read r hs (r.base + 0x18) 8
        rwa [ht] at h
      extract_lets select status active counts x m t₁ t₂ t₃
      have h₁ : Safe t₁ := h.of_mem rfl
      have h₂ : Safe t₂ := (Safe.RingAt_write r h₁ ..).getD h₁
      have hn (l : List Nat) (code : Nat) {u : State} (h : Safe u) : Safe (l.foldl (fun s n => note s code n) u) :=
        Safe.foldl h l fun s n h => h.report ..
      have h₃ : Safe t₃ := Safe.ite (hn _ _ h₂) h₂
      exact Safe.next (Safe.ite (hn _ _ h₃) h₃)

end Sys2Proof
end

section
/-! O47: memory stays canonical under layers 12 to 16. A lemma uses those of the layers before its own only; within a layer
the lemmas stand in the order of the model. -/
namespace Sys2Proof
open Sys2Proof.Machine

theorem Safe.commitStores {s : State} (hs : Safe s) (w : ℕ) : Safe (State.commitStores s w) := by
  grind [State.commitStores, Safe.mapL1, Safe.commitSector, Safe.freeHeld, safe_iff, Safe.foldl]

theorem Safe.releaseL1 {s : State} (hs : Safe s) (a : Agent) (streams : BitVec 16) (scope : BitVec 3) :
    Safe (State.releaseL1 s a streams scope) := by
  unfold State.releaseL1
  grind [Safe.backWhere]

theorem Safe.backLines {s : State} (hs : Safe s) (core : ℕ) (e : Engine) (va n : ℕ) :
    Safe (State.backLines s core e va n) := Safe.backWhere (hs := hs) ..

theorem Safe.Work_readRow {g : Work} (hs : Safe g.s) (e : Engine) (d : Desc) (y : ℕ) : Safe (Work.readRow g e d y).1.s := by
  grind [Work.readRow, Safe.Work_read, Safe.foldl, Safe.foldl_work, Safe.foldl_work_fst]

theorem Safe.tldwWork (e : Engine) (k : ℕ) (va : Word) {s : State} (hs : Safe s) : Safe (Machine.tldwWork e k va s).s := by
  grind [Machine.tldwWork, Safe.Work_aligned, Safe.Work_start, Safe.Work_read, Safe.setHandle, Safe.Work_fail]

theorem Safe.refuseLaunch {s : State} (hs : Safe s) (vi : BitVec 8) (asid : BitVec 16) (l : Launch) (code addr done : ℕ) :
    Safe (State.refuseLaunch s vi asid l code addr done) := by
  grind [State.refuseLaunch, Safe.report, Safe.complete]

theorem Safe.readTail {s : State} (hs : Safe s) (vi : BitVec 8) (q : ℕ) (kpid ktid : BitVec 32) :
    Safe (State.readTail s vi q kpid ktid) := by
  unfold State.readTail
  dsimp only
  split
  · exact Safe.monWait (Safe.setBells hs ..) ..
  split
  · exact Safe.endBell (hs.queueReport ..) ..
  next t d ht =>
    have h : Safe t := by
      have h := hs.launchQueue vi q
      rwa [ht] at h
    split
    · exact Safe.endBell (h.queueReport ..) ..
    split
    · split
      · exact h.endBell ..
      · refine Safe.endBell (Safe.queueReport ?_ ..) ..
        exact h.of_mem rfl
    · refine Safe.serve (Safe.setBells ?_ ..) ..
      exact h.of_mem rfl

theorem Safe.refill {s : State} (hs : Safe s) (gid n : ℕ) : Safe (State.refill s gid n) := by
  grind [State.refill, Safe.unspill, Safe.modGraph]

theorem Safe.cancelNode {s : State} (hs : Safe s) (c n : ℕ) (word : Word) : Safe (State.cancelNode s c n word) := by
  grind [State.cancelNode, Safe.report, Safe.setNode, Safe.complete]

theorem Safe.execCaddPacket (port : Fin 24) (h : PktHdr) (rva v : BitVec 64) (xid : BitVec 32) {s : State} (hs : Safe s) :
    SafeNext (Machine.execCaddPacket port h rva v xid s) := Safe.counterPacket (hs := hs) ..

theorem Safe.execCsetPacket (port : Fin 24) (h : PktHdr) (rva v : BitVec 64) (xid : BitVec 32) {s : State} (hs : Safe s) :
    SafeNext (Machine.execCsetPacket port h rva v xid s) := Safe.counterPacket (hs := hs) ..

theorem Safe.execCmax (port : Fin 24) (h : PktHdr) (rva v : BitVec 64) (xid : BitVec 32) {s : State} (hs : Safe s) :
    SafeNext (Machine.execCmax port h rva v xid s) := Safe.counterPacket (hs := hs) ..

theorem Safe.execAck (port : Fin 24) (h : PktHdr) (xid : BitVec 32) (status : BitVec 8) {s : State} (hs : Safe s) :
    SafeNext (Machine.execAck port h xid status s) := by
  grind [Machine.execAck, Safe.terminate, Safe.refusePacket, Safe.acked, SafeNext]

theorem Safe.execUndeliv (port : Fin 24) (h : PktHdr) (dropped : BitVec 128) (xid : BitVec 32) (reason : BitVec 8)
    (time : BitVec 64) {s : State} (hs : Safe s) :
    SafeNext (Machine.execUndeliv port h dropped xid reason time s) := by
  grind [Machine.execUndeliv, Safe.terminateIn, Safe.lost, SafeNext]

theorem Safe.execUndeliverableTimeout (xid : BitVec 32) {s : State} (hs : Safe s) :
    SafeNext (Machine.execUndeliverableTimeout xid s) := by
  grind [Machine.execUndeliverableTimeout, Safe.lost, SafeNext]

theorem Safe.wback {s : State} (hs : Safe s) (a : Agent) (va : ℕ) : Safe (State.wback s a va) := by
  grind [State.wback, Safe.tryHome, Safe.backWhere, Safe.writeBack]

theorem Safe.commitRegion {s : State} (hs : Safe s) (w : ℕ) : Safe (State.commitRegion s w) := by
  grind [State.commitRegion, Safe.traceWg, Safe.modWg, Safe.commitStores]

theorem Safe.releaseStep {s : State} (hs : Safe s) (x : Access) : Safe (State.releaseStep s x).1 := by
  grind [State.releaseStep, Safe.releaseL1]

theorem Safe.regionCheck {s : State} (hs : Safe s) (w : ℕ) : Safe (State.regionCheck s w) := by
  grind [State.regionCheck, Safe.traceWg, Safe.commitStores, Safe.modWg, Safe.shareViews, Safe.stopWg]

theorem Safe.Work_write {g : Work} (hs : Safe g.s) (e : Engine) (lane : Option ℕ) (va : ℕ) (bs : List Byte) (bad : Bool) :
    Safe (Work.write g e lane va bs bad).s := by
  grind [Work.write, Safe.backLines, Safe.writeFor, Safe.dropLines, Safe.Work_stopped, SafeReach, Safe.foldl, Safe.foldl_work,
    Safe.foldl_work_fst]

theorem Safe.Work_mergeTile {g : Work} (hs : Safe g.s) (e : Engine) (d : Desc) : Safe (Work.mergeTile g e d).1.s := by
  grind [Work.mergeTile, Safe.Work_readRow, Safe.foldl, Safe.foldl_work, Safe.foldl_work_fst]

theorem Safe.backSpans {s : State} (hs : Safe s) (e : Engine) (spans : List (ℕ × ℕ)) : Safe (State.backSpans s e spans) := by
  grind [State.backSpans, Safe.backLines, Safe.foldl]

theorem Safe.submit {s : State} (hs : Safe s) (vi : BitVec 8) (asid : BitVec 16) (r : List Byte) (addr maxPrio : ℕ)
    (kpid ktid : BitVec 32) (node : Option (ℕ × ℕ)) :
    Safe (State.submit s vi asid r addr maxPrio kpid ktid node) := by
  grind [State.submit, Safe.takeId, Safe.takeKey, Safe.refuseLaunch, Safe.soon, Safe.modCluster, safe_iff]

theorem Safe.submitGraph {s : State} (hs : Safe s) (vi : BitVec 8) (asid : BitVec 16) (r : List Byte) (addr maxPrio : ℕ)
    (kpid ktid : BitVec 32) :
    Safe (State.submitGraph s vi asid r addr maxPrio kpid ktid) := by
  grind [State.submitGraph, Safe.takeId, Safe.takeKey, Safe.refuseLaunch, Safe.monRead, Safe.kernels, Safe.soon, Safe.foldl,
    Safe.foldl_fst, safe_iff]

theorem Safe.ringBell {s : State} (hs : Safe s) (vi : BitVec 8) (q : ℕ) (kpid ktid : BitVec 32) :
    Safe (State.ringBell s vi q kpid ktid) := by
  grind [State.ringBell, Safe.setBells, Safe.readTail]

theorem Safe.addBatch {s : State} (hs : Safe s) (gid n count : ℕ) : Safe (State.addBatch s gid n count).1 := by
  grind [State.addBatch, Safe.unspill, Safe.modGraph, Safe.takeArrival, Safe.refill, Safe.modLaunch]

theorem Safe.takeMoved {s : State} (hs : Safe s) (vi : BitVec 8) (m : MovedLaunch) : Safe (State.takeMoved s vi m) := by
  grind [State.takeMoved, Safe.takeKey, Safe.refuseLaunch, safe_iff]

theorem Safe.cancelAll {s : State} (hs : Safe s) (c : ℕ) (ns : List ℕ) (word : Word) :
    Safe (State.cancelAll s c ns word) := by
  grind [State.cancelAll, Safe.cancelNode, Safe.foldl]

theorem Safe.wbinv {s : State} (hs : Safe s) (a : Agent) (va : ℕ) : Safe (State.wbinv s a va) := by
  grind [State.wbinv, Safe.wback, Safe.dropL2, Safe.invalL1]

theorem Safe.implicitCommit {s : State} (hs : Safe s) (a : Agent) : Safe (State.implicitCommit s a) := by
  grind [State.implicitCommit, Safe.commitRegion]

theorem Safe.evictL1 {s : State} (hs : Safe s) (core key : ℕ) : Safe (State.evictL1 s core key) := by
  grind [State.evictL1, Safe.commitRegion, Safe.backWhere, Safe.modCore, Safe.foldl]

theorem Safe.storeOne {s : State} (hs : Safe s) (id : ℕ) : Safe (State.storeOne s id) := by
  grind [State.storeOne, Safe.releaseStep, Safe.storeLanes, Safe.unhold, Safe.settleL2, Safe.foldl, Safe.foldl_fst]

theorem Safe.regionBody (buffers : Bool) (c : Ctx) {s : State} (hs : Safe s) : SafeAct (Machine.regionBody buffers c s) := by
  grind [Machine.regionBody, Safe.waitIn, Safe.modWg, Safe.regionCheck, SafeAct]

theorem Safe.cpylWork (e : Engine) (size : ℕ) (ls : List (ℕ × Word × Word)) {s : State} (hs : Safe s) :
    Safe (Machine.cpylWork e size ls s).s := by
  grind [Machine.cpylWork, Safe.Work_aligned, Safe.Work_start, Safe.Work_read, Safe.Work_write, Safe.foldl, Safe.foldl_work,
    Safe.foldl_work_fst]

theorem Safe.tldWork (e : Engine) (dst src : List Word) {s : State} (hs : Safe s) : Safe (Machine.tldWork e dst src s).s := by
  grind [Machine.tldWork, Safe.Work_aligned, Safe.Work_start, Safe.feedWork, Safe.Work_readRow, Safe.Work_write, Safe.foldl,
    Safe.foldl_work, Safe.foldl_work_fst]

theorem Safe.tstWork (e : Engine) (dst src : List Word) {s : State} (hs : Safe s) : Safe (Machine.tstWork e dst src s).s := by
  grind [Machine.tstWork, Safe.Work_aligned, Safe.Work_start, Safe.Work_read, Safe.Work_write, Safe.foldl, Safe.foldl_work,
    Safe.foldl_work_fst]

theorem Safe.tzfillWork (e : Engine) (dst : List Word) {s : State} (hs : Safe s) : Safe (Machine.tzfillWork e dst s).s := by
  grind [Machine.tzfillWork, Safe.Work_aligned, Safe.Work_start, Safe.feedWork, Safe.Work_write, Safe.foldl, Safe.foldl_work,
    Safe.foldl_work_fst]

theorem Safe.binToken (e : Engine) (tb : ℕ) (hd : List Byte) (lane : ℕ × Lane × Lane) {g : Work} (hs : Safe g.s) :
    Safe (Machine.binToken e tb hd lane g).s := by
  grind [Machine.binToken, Safe.Work_fail, Safe.Work_read, Safe.Work_write]

theorem Safe.binrstWork (e : Engine) (table : Word) {s : State} (hs : Safe s) : Safe (Machine.binrstWork e table s).s := by
  grind [Machine.binrstWork, Safe.Work_aligned, Safe.Work_start, Safe.Work_read, Safe.Work_write]

theorem Safe.Work_counter {g : Work} (hs : Safe g.s) (e : Engine) (va : ℕ) (f : ℕ → ℕ) : Safe (Work.counter g e va f).s := by
  grind [Work.counter, Safe.Work_aligned, Safe.Work_read, Safe.Work_write]

theorem Safe.stageWork (e : Engine) (handle : Word) (tile : List Word) {s : State} (hs : Safe s) :
    Safe (Machine.stageWork e handle tile s).s := by
  grind [Machine.stageWork, Safe.Work_aligned, Safe.Work_start, Safe.Work_fail, Safe.peekNum, Safe.Work_mergeTile,
    Safe.modDie]

theorem Safe.Work_sendRows {g : Work} (hs : Safe g.s) (e : Engine) (rows : List (ℕ × List (Byte × Bool)))
    (engine coll : Option ℕ) :
    Safe (Work.sendRows g e rows engine coll).1.s := by
  grind [Work.sendRows, Safe.home, Safe.Work_stopped, Safe.Home_stop, Safe.sendWrite, Safe.Work_write, SafeHome, SafeReach,
    Safe.foldl, Safe.foldl_fst, Safe.foldl_work, Safe.foldl_work_fst]

theorem Safe.addWork (e : Engine) (dst src : List Word) (scale : ℕ) {s : State} (hs : Safe s) :
    Safe (Machine.addWork e dst src scale s).s := by
  grind [Machine.addWork, Safe.Work_aligned, Safe.Work_start, Safe.Work_mergeTile, Safe.Work_read, Safe.Work_write,
    Safe.foldl, Safe.foldl_work, Safe.foldl_work_fst]

theorem Safe.addSlot (e : Engine) (r : List Byte) (x : Slot) (scale : ℕ) {s : State} (hs : Safe s) :
    Safe (Machine.addSlot e r x scale s).s := by
  grind [Machine.addSlot, Safe.Work_read, Safe.Work_write, Safe.Work_start, Safe.foldl, Safe.foldl_work, Safe.foldl_work_fst]

theorem Safe.collAdd (e : Engine) (q : Coll) (c : ℕ) {s : State} (hs : Safe s) : Safe (Machine.collAdd e q c s).s := by
  grind [Machine.collAdd, Safe.Work_aligned, Safe.Work_start, Safe.Work_read, Safe.Work_write, Safe.foldl, Safe.foldl_work,
    Safe.foldl_work_fst]

theorem Safe.collEnd {s : State} (hs : Safe s) (w : ℕ) (a : Agent) (q : Coll) : Safe (State.collEnd s w a q) := by
  grind [State.collEnd, Safe.Work_write, Safe.Work_start, Safe.collFault, Safe.block, Safe.abortColl, Safe.bput, Safe.endWait,
    Safe.setColl]

theorem Safe.tryWrite (e : Engine) {s : State} (hs : Safe s) (va : ℕ) (bs : List Byte) :
    Safe (Machine.tryWrite e s va bs) := by
  grind [Machine.tryWrite, Safe.Work_write, Safe.Work_start]

theorem Safe.takeEntry {s : State} (hs : Safe s) (vi : BitVec 8) (d : LaunchQueue) (ent at_ : ℕ) (kpid ktid : BitVec 32) :
    Safe (State.takeEntry s vi d ent at_ kpid ktid) := by
  grind [State.takeEntry, Safe.queueReport, Safe.monRead, Safe.report, Safe.submit, Safe.submitGraph, SafeSome]

theorem Safe.gather {s : State} (hs : Safe s) (gid n a3 : ℕ) : Safe (State.gather s gid n a3) := by
  fun_induction State.gather s gid n a3 <;> grind [Safe.addBatch]

theorem Safe.execNodeComplete (c n : ℕ) {s : State} (hs : Safe s) : SafeNext (Machine.execNodeComplete c n s) := by
  grind [Machine.execNodeComplete, Safe.setNode, Safe.release, Safe.cancelAll, SafeNext, Safe.foldl]

theorem Safe.pageWrite {s : State} (hs : Safe s) (core : Option (Fin 16)) (vi : BitVec 8) (off : ℕ) (data : List Byte) :
    Safe (State.pageWrite s core vi off data) := by
  grind [State.pageWrite, Safe.ringBell, Safe.soon, Safe.cmdBell]

theorem Safe.roomL1 {s : State} (hs : Safe s) (core key : ℕ) : Safe (State.roomL1 s core key) := by
  grind [State.roomL1, Safe.evictL1]

theorem Safe.gate (n : Need) (a : Agent) {s : State} (hs : Safe s) : SafeGate (Machine.gate n a s) := by
  unfold Machine.gate
  dsimp only
  split
  · trivial
  iterate 4
    split
    · trivial
  split
  · trivial
  split
  · trivial
  split
  · trivial
  next t popped hg =>
    have ht : Safe t := by
      split at hg
      · cases hg
        exact hs
      · have h := hs.popAll a (portsOf n.src)
        rwa [hg] at h
    grind [Safe.implicitCommit, SafeGate]

theorem Safe.commitWide {s : State} (hs : Safe s) (a : Agent) : Safe (State.commitWide s a) := by
  grind [State.commitWide, Safe.implicitCommit]

theorem Safe.finishStore {s : State} (hs : Safe s) (id : ℕ) : Safe (State.finishStore s id) := by
  grind [State.finishStore, Safe.storeOne, Safe.inClk]

theorem Safe.binscWork (e : Engine) (table : Word) (ls : List (ℕ × Lane × Lane)) {s : State} (hs : Safe s) :
    Safe (Machine.binscWork e table ls s).s := by
  grind [Machine.binscWork, Safe.Work_aligned, Safe.Work_start, Safe.Work_read, Safe.binToken, Safe.foldl, Safe.foldl_work,
    Safe.foldl_work_fst]

theorem Safe.sendTile {s : State} (hs : Safe s) (id : ℕ) (e : Engine) (dst src : List Word) :
    Safe (State.sendTile s id e dst src).1.s := by
  grind [State.sendTile, Safe.Work_aligned, Safe.Work_start, Safe.Work_readRow, Safe.Work_sendRows, Safe.foldl,
    Safe.foldl_work, Safe.foldl_work_fst]

theorem Safe.commitOne {s : State} (hs : Safe s) (die : ℕ) (x : Ready) (r : List Byte) :
    Safe (State.commitOne s die x r).1 := by
  grind [State.commitOne, Safe.Work_start, Safe.mergeReport, Safe.addSlot, Safe.Work_write, Safe.modDie]

theorem Safe.collSend (e : Engine) (w : ℕ) (q : Coll) (kind c : ℕ) {s : State} (hs : Safe s) :
    Safe (Machine.collSend e w q kind c s).1.s := by
  grind [Machine.collSend, Safe.Work_aligned, Safe.Work_start, Safe.Work_read, Safe.Work_allFar, Safe.Work_sendRows,
    Safe.foldl, Safe.foldl_work, Safe.foldl_work_fst]

theorem Safe.abortEnd {s : State} (hs : Safe s) (w : ℕ) (q : Coll) : Safe (State.abortEnd s w q) := by
  grind [State.abortEnd, Safe.Work_read, Safe.Work_start, Safe.tryWrite, Safe.bput, Safe.setColl, Safe.endWait, Safe.foldl,
    Safe.foldl_work, Safe.foldl_work_fst]

theorem Safe.execLaunchArrival (vi : BitVec 8) (q : BitVec 3) {s : State} (hs : Safe s) :
    SafeNext (Machine.execLaunchArrival vi q s) := by
  unfold Machine.execLaunchArrival
  dsimp only
  split
  · exact hs
  split
  · exact hs
  split
  · exact (hs.monWait ..).next
  split
  · exact (Safe.endBell (hs.queueReport ..) ..).next
  next t d ht =>
    have h : Safe t := by
      have h := hs.launchQueue vi q.toNat
      rwa [ht] at h
    split
    · refine Safe.next ?_
      split
      · exact h.readTail ..
      · exact h.endBell ..
    split
    · refine (Safe.endBell (Safe.queueReport ?_ ..) ..).next
      exact h.of_mem rfl
    split
    · exact (h.monWait ..).next
    split
    · exact (Safe.endBell (h.queueReport ..) ..).next
    next u bs hu =>
      have hu' : Safe u := by
        have h := h.monRead vi d.asid (d.base + 8 * (d.head % d.size)) 8
        rwa [hu] at h
      exact (Safe.serve (Safe.writeOwn (hu'.takeEntry ..) ..) ..).next

theorem Safe.arrive_ {s : State} (hs : Safe s) (gid n : ℕ) (recs : List (List Byte)) : Safe (State.arrive_ s gid n recs) := by
  grind [State.arrive_, Safe.modGraph, Safe.spillRecs, Safe.gather]

theorem Safe.execNodeFlush (graph node : ℕ) {s : State} (hs : Safe s) : SafeNext (Machine.execNodeFlush graph node s) := by
  grind [Machine.execNodeFlush, Safe.gather, Safe.refill, Safe.addBatch, SafeNext]

theorem Safe.execDbell (core : Option (Fin 16)) (names : Option (BitVec 32 × BitVec 32)) (pa : BitVec 64) (data : List Byte)
    {s : State} (hs : Safe s) :
    SafeNext (Machine.execDbell core names pa data s) := by
  unfold Machine.execDbell
  grind [Safe.setNames, Safe.pageWrite, Safe.boxWrite, SafeNext]

theorem Safe.fillL1 {s : State} (hs : Safe s) (core key stream : ℕ) : Safe (State.fillL1 s core key stream) := by
  grind [State.fillL1, Safe.roomL1, Safe.setL1]

theorem Safe.storeElem {p : Put} (hs : Safe p.s) (x : Access) (i va : ℕ) (bs : List Byte) :
    Safe (State.storeElem p x i va bs).s := by
  grind [State.storeElem, Safe.roomL1, Safe.writeL1, Safe.evictL1, Safe.wholeBytes, Safe.putBytes, Safe.foldl, Safe.foldl_put]

theorem Safe.engineWork (e : Engine) {s : State} (hs : Safe s) : Safe (Machine.engineWork e s).s := by
  grind [Machine.engineWork, Safe.cpylWork, Safe.tldWork, Safe.tstWork, Safe.tzfillWork, Safe.tldwWork, Safe.binscWork,
    Safe.binrstWork, Safe.Work_counter, Safe.Work_start, Safe.stageWork]

theorem Safe.commitAll {s : State} (hs : Safe s) (die : Fin 4) (a2 : ℕ) : Safe (State.commitAll s die a2) := by
  fun_induction State.commitAll s die a2 <;> grind [Safe.raise, Safe.readHome, Safe.commitOne, Safe.foldl, Safe.foldl_fst]

theorem Safe.execCollAbort (wg : ℕ) (reason : BitVec 8) {s : State} (hs : Safe s) :
    SafeNext (Machine.execCollAbort wg reason s) := by
  grind [Machine.execCollAbort, Safe.abortColl, Safe.setColl, Safe.inClk, Safe.abortRaise, Safe.abortEnd, SafeNext]

theorem Safe.emitAnswer {s : State} (hs : Safe s) (a : Agent) (gid t : ℕ) (recs : List (List Byte)) :
    Safe (State.emitAnswer s a gid t recs).1 := by
  grind [State.emitAnswer, Safe.arrive_, Safe.emitFull]

end Sys2Proof
end

section
/-! O47: memory stays canonical under layers 17 to 23. A lemma uses those of the layers before its own only; within a layer
the lemmas stand in the order of the model. -/
namespace Sys2Proof
open Sys2Proof.Machine

theorem Safe.loadLine {s : State} (hs : Safe s) (x : Access) (core : Option ℕ) (va n : ℕ) :
    SafeGot (State.loadLine s x core va n) := by
  unfold State.loadLine
  grind [Safe.touchL1, Safe.home, Safe.fillL1, Safe.settleL2, Safe.Home_stop, SafeGot, SafeHome, SafeReach]

theorem Safe.atomicElem {s : State} (hs : Safe s) (x : Access) (i va : ℕ) (y y2 : List Byte) :
    SafeGot (State.atomicElem s x i va y y2) := by
  have hf := hs.home x.vi x.asid va true false
  unfold State.atomicElem
  extract_lets n new key core fill fresh
  have hr : SafeReach fill := by grind [Safe.fillL1, Safe.Home_stop, SafeHome, SafeReach]
  clear_value fill
  split
  · split
    · grind [Safe.writeL1, SafeGot, SafeReach]
    · grind [Safe.evictL1, Safe.homePut, Safe.settleL2, SafeHome, SafeGot]
  · grind [Safe.putBytes, SafeGot]

theorem Safe.storeVia {s : State} (hs : Safe s) (id : ℕ) : Safe (State.storeVia s id) := by
  grind [State.storeVia, Safe.releaseStep, Safe.storeElem, Safe.later, safe_iff, Safe.foldl, Safe.foldl_fst, Safe.foldl_put]

theorem Safe.engineRun {s : State} (hs : Safe s) (id : ℕ) (e : Engine) : Safe (State.engineRun s id e).1.s := by
  grind [State.engineRun, Safe.sendTile, Safe.engineSend, Safe.engineWork]

theorem Safe.execMergeCommit (die : Fin 4) {s : State} (hs : Safe s) :
    SafeNext (Machine.execMergeCommit die s) := Safe.commitAll (hs := hs) ..

theorem Safe.prefetch {s : State} (hs : Safe s) (a : Agent) (va stream : ℕ) (l1 : Bool) :
    Safe (State.prefetch s a va stream l1) := by
  have hn : Safe ((s.tryHome a va false).getD s) := (hs.tryHome a va false).getD hs
  have ht := hs.tryHome a va false
  unfold State.prefetch
  dsimp only
  split
  · exact hs
  split
  · split
    · exact hs.touchL1 ..
    · grind [Safe.fillL1, SafeOpt]
  · exact hn

theorem Safe.loadRuns {s : State} (hs : Safe s) (x : Access) (core : Option ℕ) (acc : List Byte) (bad : Bool)
    (runs : List (ℕ × ℕ)) :
    SafeGot (State.loadRuns s x core acc bad runs) := by
  fun_induction State.loadRuns s x core acc bad runs <;> grind [Safe.loadLine, SafeGot]

theorem Safe.loadElem {s : State} (hs : Safe s) (x : Access) (i va n : ℕ) : SafeGot (State.loadElem s x i va n) := by
  grind [State.loadElem, Safe.loadRuns, SafeGot]

theorem Safe.performLanes {s : State} (hs : Safe s) (x : Access) (ls : List ((ℕ × Word × List Byte) × List Byte)) :
    Safe (State.performLanes s x ls).1 := by
  fun_induction State.performLanes s x ls <;> grind [Safe.atomicElem, Safe.loadElem, SafeGot]

theorem Safe.performOne {s : State} (hs : Safe s) (id : ℕ) : Safe (State.performOne s id).1 := by
  grind [State.performOne, Safe.releaseStep, Safe.performLanes, safe_iff]

theorem Safe.flushIds {s : State} (hs : Safe s) (ids : List ℕ) : Safe (State.flushIds s ids) := by
  fun_induction State.flushIds s ids <;> grind [Safe.storeVia, Safe.storeOne, Safe.performOne]

theorem Safe.performWg {s : State} (hs : Safe s) (w : ℕ) (which : Agent → Bool) : Safe (State.performWg s w which) := by
  grind [State.performWg, Safe.storeOne, Safe.storeVia, Safe.performOne, Safe.foldl, Safe.foldl_fst]

theorem Safe.flush {s : State} (hs : Safe s) (a : Agent) (upto : ℕ) :
    Safe (State.flush s a upto) := Safe.flushIds (hs := hs) ..

theorem Safe.drainWg {s : State} (hs : Safe s) (w : ℕ) : Safe (State.drainWg s w) := by
  grind [State.drainWg, Safe.performWg, Safe.backWhere, Safe.foldl]

theorem Safe.discard {s : State} (hs : Safe s) (w : ℕ) : Safe (State.discard s w) := by
  grind [State.discard, Safe.dropRegion, Safe.returnHeld, Safe.modWg, Safe.modCore, Safe.performWg, Safe.traceWg, Safe.inClk,
    safe_iff, Safe.foldl]

end Sys2Proof
end

section
/-! O47: memory stays canonical under layers 24 to 28. A lemma uses those of the layers before its own only; within a layer
the lemmas stand in the order of the model. -/
namespace Sys2Proof
open Sys2Proof.Machine

theorem Safe.releaseEvery {s : State} (hs : Safe s) (a : Agent) (upto : ℕ) (scope : BitVec 3) :
    Safe (State.releaseEvery s a upto scope).1 := by
  grind [State.releaseEvery, Safe.releaseL1, Safe.flush]

theorem Safe.settle {s : State} (hs : Safe s) (a : Agent) (upto va n : ℕ) : Safe (State.settle s a upto va n) := by
  grind [State.settle, Safe.flush]

theorem Safe.killWg {s : State} (hs : Safe s) (w : ℕ) : Safe (State.killWg s w) := by
  grind [State.killWg, Safe.modWg, Safe.dropRegion, Safe.returnHeld, Safe.exitRecord, Safe.traceWg, Safe.drainWg,
    Safe.noteHeld, Safe.modCluster, Safe.relAll, Safe.modLaunch, Safe.freeWg, Safe.emptyQueues, safe_iff]

theorem Safe.fenceWork {s : State} (hs : Safe s) (a : Agent) (m : BitVec 16) (scope : BitVec 3) :
    Safe (State.fenceWork s a m scope) := by
  grind [State.fenceWork, Safe.releaseL1, Safe.flush]

theorem Safe.afterDue {s : State} (hs : Safe s) (id : ℕ) (x : Access) (act : After) : Safe (State.afterDue s id x act).1 := by
  unfold State.afterDue
  grind [Safe.releaseL1, Safe.flush]

theorem Safe.execStorePerformed (id : ℕ) (u : Upset) {s : State} (hs : Safe s) :
    SafeNext (Machine.execStorePerformed id u s) := by
  grind [Machine.execStorePerformed, Safe.upsetFor, Safe.bring, Safe.finishStore, Safe.flush, Safe.inClk, Safe.storeVia,
    SafeNext]

theorem Safe.engineEdge {s : State} (hs : Safe s) (e : Engine) (spans : List (ℕ × ℕ)) :
    Safe (State.engineEdge s e spans) := by
  grind [State.engineEdge, Safe.commitRegion, Safe.releaseL1, Safe.backSpans, Safe.flush]

theorem Safe.preemptWg {s : State} (hs : Safe s) (w : ℕ) : Safe (State.preemptWg s w) := by
  grind [State.preemptWg, Safe.discard, Safe.modWg]

theorem Safe.execDiscardComplete (w : ℕ) {s : State} (hs : Safe s) : SafeNext (Machine.execDiscardComplete w s) := by
  grind [Machine.execDiscardComplete, Safe.beginKeeping, Safe.dropGroups, Safe.inClk, Safe.modThread, Safe.discardCtl,
    Safe.drainWg, Safe.freeWg, Safe.modLaunch, SafeNext, Safe.foldl, Safe.foldl_fst]

theorem Safe.execReplay (p : Fin 8) (tag : BitVec 16) (name : WgName) {s : State} (hs : Safe s) :
    SafeNext (Machine.execReplay p tag name s) := by
  grind [Machine.execReplay, Safe.command, Safe.discard, Safe.setStopped, SafeNext]

theorem Safe.leaveNow {s : State} (hs : Safe s) : Safe (State.leaveNow s) := by
  grind [State.leaveNow, Safe.discard, Safe.sliceOut, Safe.suspendWg, Safe.foldl]

theorem Safe.push {s : State} (hs : Safe s) (a : Agent) (r : ℕ) (v : Word) : Safe (State.push s a r v) := by
  grind [State.push, Safe.releaseEvery, Safe.pushEntry, Safe.after]

theorem Safe.arrive {s : State} (hs : Safe s) (a : Agent) (n : ℕ) (rlx : Bool) : Safe (State.arrive s a n rlx) := by
  grind [State.arrive, Safe.arriveAt, Safe.releaseEvery, Safe.publish, Safe.commitWide, Safe.after]

theorem Safe.storeOf (f : MemForm) (es : List Elem) (data : Elem → List Byte × FFlags) (c : Ctx) {s : State} (hs : Safe s) :
    SafeAct (Machine.storeOf f es data c s) := by
  unfold Machine.storeOf
  split
  extract_lets st rel beyond buffers probes good bad t₀ t₁ t₂ id x t₃ t₄ t₅ m
  split
  · split
    · exact fun t ht => ht.malformedAt ..
    · trivial
  split
  · trivial
  have h₀ : Safe t₀ := Safe.ite (hs.implicitCommit ..) hs
  have h₁ : Safe t₁ := Safe.ite (h₀.flush ..) (Safe.foldl h₀ _ fun s e h => h.settle ..)
  have h₂ : Safe t₂ := h₁.raiseFlags ..
  have h₄ : Safe t₄ := by
    exact Safe.ite (h₂.of_mem rfl) (Safe.storeVia (s := t₃) (h₂.of_mem rfl) _)
  have h₅ : Safe t₅ := by
    refine Safe.ite h₂ ?_
    split
    · exact Safe.ite (h₄.later ..) h₄
    · exact h₄
  clear_value t₅ m bad
  rcases bad with _ | ⟨⟨e, p⟩, l⟩
  · exact h₅
  cases p with
  | fault va stage ipa perm =>
    dsimp only
    exact Safe.gone (Safe.parkAt (Safe.retire (h₅.raise ..) ..) ..)
  | _ => exact h₅

theorem Safe.forkAs {s : State} (hs : Safe s) (a : Agent) (ctx : BitVec 8 × BitVec 16) (wg : Option ℕ) (st : ℕ) (sc : Stream)
    (bar : Option ℕ) (bytes : State → ℕ) (op : EngineOp) (node : Option ℕ) :
    Safe (State.forkAs s a ctx wg st sc bar bytes op node) := by
  unfold State.forkAs
  grind [Safe.engineEdge, Safe.backSpans, Safe.bput, Safe.later, safe_iff]

theorem Safe.engineHere (c : Ctx) {s : State} (hs : Safe s) (st : StreamNo) (spans : List (ℕ × ℕ)) {go : Engine → State → Act}
    (hgo : ∀ e s, Safe s → SafeAct (go e s)) :
    SafeAct (Machine.engineHere c s st spans go) := by
  grind [Machine.engineHere, Safe.engineEdge, Safe.waitOn, SafeAct]

theorem Safe.decide_ {s : State} (hs : Safe s) (d : ℕ) : Safe (State.decide_ s d) := by
  unfold State.decide_
  grind [Safe.place, Safe.withoutAll, Safe.preemptWg, Safe.startGraces, Safe.foldl]

theorem Safe.execPreempt (p : Fin 8) (tag : BitVec 16) (vi : BitVec 8) (launch : BitVec 32) {s : State} (hs : Safe s) :
    SafeNext (Machine.execPreempt p tag vi launch s) := by
  grind [Machine.execPreempt, Safe.command, Safe.preemptWg, Safe.endSlice, SafeNext, Safe.foldl]

theorem Safe.nextClk {s : State} (hs : Safe s) : Safe (State.nextClk s) := by
  grind [State.nextClk, Safe.leaveNow, Safe.closeLeft, safe_iff]

theorem Safe.cacheBody (f : MemForm) (commit : Bool) {eff : State → Agent → ℕ → State}
    (heff : ∀ s a n, Safe s → Safe (eff s a n)) (c : Ctx) {s : State} (hs : Safe s) :
    SafeAct (Machine.cacheBody f commit eff c s) := by
  grind [Machine.cacheBody, Safe.settle, Safe.implicitCommit, SafeAct]

theorem Safe.RingAt_push (r : RingAt) {s : State} (hs : Safe s) (rec : List Byte) : SafeOpt (RingAt.push r s rec) := by
  unfold RingAt.push
  refine SafeOpt.bind_state (Safe.RingAt_read r hs _ _) fun s₁ base h₁ => ?_
  refine SafeOpt.bind_state (Safe.RingAt_read r h₁ _ _) fun s₂ size h₂ => ?_
  refine SafeOpt.bind_state (Safe.RingAt_read r h₂ _ _) fun s₃ head h₃ => ?_
  refine SafeOpt.bind_state (Safe.RingAt_read r h₃ _ _) fun s₄ tail h₄ => ?_
  dsimp only
  split
  · trivial
  · exact SafeOpt.bind (Safe.RingAt_write r h₄ _ _) fun s₅ h₅ => Safe.RingAt_write r h₅ _ _

theorem Safe.sset {s : State} (hs : Safe s) (a : Agent) (r : ℕ) (v : Word) : Safe (State.sset s a r v) := by
  grind [State.sset, Safe.push, Safe.sput]

theorem Safe.storeBody (f : MemForm) (c : Ctx) {s : State} (hs : Safe s) :
    SafeAct (Machine.storeBody f c s) := Safe.storeOf (hs := hs) ..

theorem Safe.fork {s : State} (hs : Safe s) (a : Agent) (st : ℕ) (sc : Stream) (bar : Option ℕ) (bytes : State → ℕ)
    (op : EngineOp) (node : Option ℕ) :
    Safe (State.fork s a st sc bar bytes op node) := Safe.forkAs (hs := hs) ..

theorem Safe.bmRecord (c : Ctx) {s : State} (hs : Safe s) (st : StreamNo) (va : Word) {go : State → List Byte → Act}
    (hgo : ∀ s b, Safe s → SafeAct (go s b)) :
    SafeAct (Machine.bmRecord c s st va go) := by
  grind [Machine.bmRecord, Safe.engineHere, Safe.loadFate, Safe.readFor]

theorem Safe.bmWork (c : Ctx) {s : State} (hs : Safe s) (st : StreamNo) (spans : List (ℕ × ℕ)) {work : Engine → State → Work}
    (hwork : ∀ e s, Safe s → Safe (work e s).s) {go : State → Act} (hgo : ∀ s, Safe s → SafeAct (go s)) :
    SafeAct (Machine.bmWork c s st spans work go) := by
  grind [Machine.bmWork, Safe.engineHere, Safe.raise, Safe.malformedAt, SafeAct]

theorem Safe.handArrive {s : State} (hs : Safe s) (a : Agent) (q : Coll) : Safe (State.handArrive s a q) := by
  grind [State.handArrive, Safe.arrive]

theorem Safe.collJoin (op : ℕ) (t : TReg) (n : BarNo) (st : StreamNo) (va : Word) (c : Ctx) {s : State} (hs : Safe s) (w : ℕ)
    (r : List Byte) :
    SafeAct (Machine.collJoin op t n st va c s w r) := by
  grind [Machine.collJoin, Safe.waitIn, Safe.engineHere, Safe.setColl, Safe.spend, Safe.bput, SafeAct]

theorem Safe.execPlacementDecision (p : Placing) {s : State} (hs : Safe s) :
    SafeNext (Machine.execPlacementDecision p s) := by
  grind [Machine.execPlacementDecision, Safe.takeMoved, Safe.decide_, SafeNext, Safe.foldl]

theorem Safe.execNodeFire (c n : ℕ) {s : State} (hs : Safe s) : SafeNext (Machine.execNodeFire c n s) := by
  grind [Machine.execNodeFire, Safe.inClk, Safe.fired, Safe.forkAs, Safe.tldwStart, Safe.enqueueOp, Safe.startSeq,
    Safe.submit, SafeNext]

theorem Safe.RingAt_flush (r : RingAt) {s : State} (hs : Safe s) (recs : List (ℕ × List Byte)) :
    Safe (RingAt.flush r s recs).1 := by
  fun_induction RingAt.flush r s recs <;> grind [Safe.RingAt_push, SafeOpt]

theorem Safe.barDone (c : Ctx) {s : State} (hs : Safe s) (d : SReg) (n : BarNo) : SafeAct (Machine.barDone c s d n) := by
  grind [Machine.barDone, Safe.markReplay, Safe.sset, Safe.acquireAll, SafeAct]

theorem Safe.barWake {s : State} (hs : Safe s) (a : Agent) (n : ℕ) (tok : Bool) (d : SReg) :
    Safe (State.barWake s a n tok d) := by
  grind [State.barWake, Safe.queueTrap, Safe.markReplay, Safe.modStrand, Safe.endWait, Safe.sset, Safe.acquireAll]

theorem Safe.loadSet {s : State} (hs : Safe s) (id : ℕ) (a : Agent) (r : ℕ) (v : Word) : Safe (State.loadSet s id a r v) := by
  grind [State.loadSet, Safe.sset, safe_iff]

theorem Safe.forkBody (c : Ctx) {s : State} (hs : Safe s) (st : StreamNo) (bar : Option ℕ) (bytes : State → ℕ) (op : EngineOp)
    :
    SafeAct (Machine.forkBody c s st bar bytes op) := by
  grind [Machine.forkBody, Safe.fork, SafeAct]

theorem Safe.pollCounter {s : State} (hs : Safe s) (a : Agent) (va v : Word) (st : ℕ) (d : SReg) (popped : List (ℕ × Word)) :
    Safe (State.pollCounter s a va v st d popped) := by
  grind [State.pollCounter, Safe.queueTrap, Safe.modStrand, Safe.seeCounter, Safe.endWait, Safe.sset, Safe.cntAcquire,
    Safe.raise, Safe.parkAt, SafeReach]

theorem Safe.takeAnswer {s : State} (hs : Safe s) (a : Agent) (out : List (SReg × Word)) :
    Safe (State.takeAnswer s a out) := by
  grind [State.takeAnswer, Safe.endWait, Safe.sset, Safe.foldl]

theorem Safe.nwaitEnd {s : State} (hs : Safe s) (a : Agent) (n : ℕ) (d : SReg) : Safe (State.nwaitEnd s a n d) := by
  grind [State.nwaitEnd, Safe.sset, Safe.fenceEnd]

theorem Safe.flushRing {s : State} (hs : Safe s) (key : ℕ) : Safe (State.flushRing s key) := by
  grind [State.flushRing, Safe.RingAt_flush, safe_iff]

theorem Safe.testBars {s : State} (hs : Safe s) : Safe (State.testBars s) := by
  grind [State.testBars, Safe.testBar, Safe.barWake, Safe.foldl]

theorem Safe.deliver {s : State} (hs : Safe s) (id : ℕ) (x : Access) : Safe (State.deliver s id x) := by
  grind [State.deliver, Safe.loadSet, Safe.vput, Safe.raiseFlags, Safe.foldl]

theorem Safe.pollNode {s : State} (hs : Safe s) (a : Agent) (n : ℕ) (d : SReg) : Safe (State.pollNode s a n d) := by
  grind [State.pollNode, Safe.endWait, Safe.nwaitEnd]

theorem Safe.emitLate {s : State} (hs : Safe s) (id : ℕ) (x : Access) (gid t : ℕ) (recs : List (List Byte)) (d : ℕ) :
    Safe (State.emitLate s id x gid t recs d) := by
  grind [State.emitLate, Safe.emitAnswer, Safe.loadSet, Safe.sput, Safe.settlePend]

end Sys2Proof
end

section
/-! O47: memory stays canonical under layers 29 to 34. A lemma uses those of the layers before its own only; within a layer
the lemmas stand in the order of the model. -/
namespace Sys2Proof
open Sys2Proof.Machine

theorem Safe.flushRings {s : State} (hs : Safe s) : Safe (State.flushRings s) := by
  grind [State.flushRings, Safe.flushRing, Safe.foldl]

theorem Safe.drainTable {s : State} (hs : Safe s) (u : ℕ) : Safe (State.drainTable s u) := by
  grind [State.drainTable, Safe.flushRing, Safe.foldl]

theorem Safe.endLaunch {s : State} (hs : Safe s) (k : ℕ) : Safe (State.endLaunch s k) := by
  grind [State.endLaunch, Safe.flushRing, Safe.modLaunch, Safe.soon, Safe.modCluster, Safe.complete, safe_iff]

theorem Safe.endGraph {s : State} (hs : Safe s) (gid : ℕ) (record : Word) : Safe (State.endGraph s gid record) := by
  grind [State.endGraph, Safe.flushRing, Safe.complete, safe_iff]

theorem Safe.loadBody (f : MemForm) (c : Ctx) {s : State} (hs : Safe s) : SafeAct (Machine.loadBody f c s) := by
  grind [Machine.loadBody, Safe.settle, Safe.implicitCommit, Safe.reservePush, Safe.performOne, Safe.deliver, Safe.retire,
    Safe.inClk, Safe.later, Safe.modStrand, safe_iff, SafeAct, Safe.foldl, Safe.foldl_fst]

theorem Safe.endLoad {s : State} (hs : Safe s) (id : ℕ) (x : Access) : Safe (State.endLoad s id x) := by
  grind [State.endLoad, Safe.deliver, Safe.settlePend, Safe.fenceEnd, Safe.endWait, safe_iff]

theorem Safe.runAfter {s : State} (hs : Safe s) (id : ℕ) : Safe (State.runAfter s id) := by
  unfold State.runAfter
  grind [Safe.afterDue, Safe.emitLate, Safe.enact, safe_iff]

theorem Safe.pollAgent {s : State} (hs : Safe s) (a : Agent) : Safe (State.pollAgent s a) := by
  unfold State.pollAgent
  rcases (s.strand a).wait with _ | w
  · exact Safe.ite hs hs
  cases w with
  | acc at_ => exact Safe.ite (hs.endWait ..) hs
  | counter va v st sc d popped => exact Safe.ite hs (hs.pollCounter ..)
  | node n d => exact Safe.ite hs (hs.pollNode ..)
  | region =>
    refine Safe.ite hs ?_
    dsimp only
    split
    · exact Safe.ite (hs.endWait ..) hs
    · exact hs
  | fence m scope =>
    exact Safe.ite hs (Safe.ite (Safe.endWait (Safe.fenceEnd (hs.fenceWork ..) ..) ..) (hs.fenceWork ..))
  | answer at_ out => exact Safe.ite hs (Safe.ite (hs.takeAnswer ..) hs)
  | owner o =>
    cases o with
    | none => exact Safe.ite hs (hs.pollOwner ..)
    | some at_ => exact Safe.ite hs (Safe.ite (hs.modStrand ..) hs)
  | _ => exact Safe.ite hs hs

theorem Safe.endHeld {s : State} (hs : Safe s) : Safe (State.endHeld s) := by
  grind [State.endHeld, Safe.endLaunch, Safe.endGraph, Safe.foldl]

theorem Safe.graphCheck {s : State} (hs : Safe s) (gid : ℕ) : Safe (State.graphCheck s gid) := by
  grind [State.graphCheck, Safe.endGraph]

theorem Safe.killLaunch {s : State} (hs : Safe s) (k : ℕ) (record : Word) : Safe (State.killLaunch s k record) := by
  grind [State.killLaunch, Safe.modLaunch, Safe.killWg, Safe.endLaunch, Safe.endGraph, Safe.foldl]

theorem Safe.finishLoad {s : State} (hs : Safe s) (id : ℕ) : Safe (State.finishLoad s id) := by
  grind [State.finishLoad, Safe.trapLoad, Safe.malformedAt, Safe.performOne, Safe.endLoad, Safe.raise, Safe.dropPush,
    Safe.settlePend, Safe.deliver, Safe.parkAt, Safe.modStrand, safe_iff]

theorem Safe.runAfters {s : State} (hs : Safe s) : Safe (State.runAfters s) := by
  grind [State.runAfters, Safe.runAfter, Safe.foldl]

theorem Safe.execTableDrain (u : ℕ) {s : State} (hs : Safe s) :
    SafeNext (Machine.execTableDrain u s) := Safe.drainTable (hs := hs) ..

theorem Safe.runDrains {s : State} (hs : Safe s) : Safe (State.runDrains s) := by
  grind [State.runDrains, Safe.drainCounters, Safe.drainTable, Safe.soon, safe_iff, Safe.foldl]

theorem Safe.endWg {s : State} (hs : Safe s) (w : ℕ) : Safe (State.endWg s w) := by
  grind [State.endWg, Safe.traceWg, Safe.commitStores, Safe.noteHeld, Safe.drainWg, Safe.exitRecord, Safe.modCluster,
    Safe.relAll, Safe.freeWg, Safe.emptyQueues, Safe.modLaunch, Safe.graphCheck, Safe.soon, Safe.endLaunch, safe_iff]

theorem Safe.systemTrap {s : State} (hs : Safe s) (a : Agent) (code : BitVec 8) (pc : Word) :
    Safe (State.systemTrap s a code pc) := by
  unfold State.systemTrap
  grind [Safe.report, Safe.killLaunch, Safe.saveContext, Safe.modThread]

theorem Safe.execLoadComplete (id : ℕ) (u : Upset) {s : State} (hs : Safe s) :
    SafeNext (Machine.execLoadComplete id u s) := by
  grind [execLoadComplete, Safe.upsetFor, Safe.performOne, Safe.flush, Safe.inClk, Safe.bring, Safe.finishLoad, safe_iff,
    SafeNext]

theorem Safe.wake {s : State} (hs : Safe s) (w : Instr) : Safe (State.wake s w) := by
  unfold State.wake
  grind [Safe.finishLoad, Safe.finishStore, Safe.finishFetch, Safe.soon]

theorem Safe.execGraphActivate (id : ℕ) {s : State} (hs : Safe s) : SafeNext (Machine.execGraphActivate id s) := by
  unfold Machine.execGraphActivate
  dsimp only
  split
  · exact hs
  next g _ =>
    have ht : Safe ((g.launches.map (·.1)).foldl (fun s n => s.reserve id n) s) := Safe.foldl hs _ fun s n h => h.reserve id n
    generalize (g.launches.map (·.1)).foldl (fun s n => s.reserve id n) s = t at ht ⊢
    have ha (b : Bool) {u : State} (h : Safe u) : Safe (if b = true then u else u.inClk 1 (.graphActivate id)) := by
      split
      · exact h
      · exact h.inClk ..
    split
    · exact (ha _ ht).next
    have hr (va n : Nat) := SafeSome.getD (ht.monRead g.vi g.asid va n) g.table ht
    replace hr := hr (field g.record 0 8) 2048
    generalize (t.monRead g.vi g.asid (field g.record 0 8) 2048).getD (t, g.table) = p at hr ⊢
    split
    · exact (hr.monWait ..).next
    · exact (ha _ (Safe.graphCheck (Safe.flushAll (Safe.arrive_ (Safe.foldl (hr.modGraph ..) _
        fun s k h => h.modLaunch ..) ..)) ..)).next

theorem Safe.failGraph {s : State} (hs : Safe s) (gid va : ℕ) : Safe (State.failGraph s gid va) := by
  grind [State.failGraph, Safe.report, Safe.killLaunch, Safe.endGraph]

theorem Safe.execRegulatorFault (region layer : ℕ) (mv : BitVec 16) {s : State} (hs : Safe s) :
    SafeNext (Machine.execRegulatorFault region layer mv s) := by
  grind [Machine.execRegulatorFault, Safe.report, Safe.killLaunch, Safe.saveContext, Safe.modThread, Safe.modCore,
    Safe.modCluster, SafeNext, Safe.foldl]

theorem Safe.execRingHeadAdvance (vi : BitVec 8) (asid : BitVec 16) {s : State} (hs : Safe s) :
    SafeNext (Machine.execRingHeadAdvance vi asid s) := by
  grind [Machine.execRingHeadAdvance, Safe.endHeld, Safe.flushRing, SafeNext]

theorem Safe.endClk {s : State} (hs : Safe s) : Safe (State.endClk s) := by
  grind [State.endClk, Safe.allUnits, Safe.chargeIdle, Safe.stalls, Safe.balance, Safe.runDrains, Safe.runAfters,
    Safe.testBars, Safe.pollAgent, Safe.pollSpill, Safe.reportFrames, Safe.pumpPorts, Safe.endHeld, Safe.flushRings, safe_iff,
    Safe.foldl]

theorem Safe.wgCheck {s : State} (hs : Safe s) (w : ℕ) : Safe (State.wgCheck s w) := by
  grind [State.wgCheck, Safe.endWg]

theorem Safe.takeTrapAs {s : State} (hs : Safe s) (a : Agent) (system : Bool) (code : BitVec 8) (val : Word) :
    Safe (State.takeTrapAs s a system code val) := by
  grind [State.takeTrapAs, Safe.awaitTrap, Safe.useSlot, Safe.traceOf, Safe.modStrand, Safe.systemTrap, Safe.setTrap,
    Safe.report, Safe.modThread]

theorem Safe.endRequest {s : State} (hs : Safe s) (id : ℕ) (ok : Bool) : Safe (State.endRequest s id ok) := by
  grind [State.endRequest, Safe.soon, Safe.wake, safe_iff, Safe.foldl]

theorem Safe.denyStep {s : State} (hs : Safe s) (va : Word) (i : Instr) : Safe (State.denyStep s va i) := by
  unfold State.denyStep
  grind [Safe.soon, Safe.dropHeld, Safe.trapLoad, Safe.performOne, Safe.abortColl, Safe.endBell, Safe.queueReport,
    Safe.failGraph, Safe.cmdRefuse, Safe.denyPacket, safe_iff]

theorem Safe.execClk {s : State} (hs : Safe s) : SafeNext (Machine.execClk s) := by
  unfold Machine.execClk
  grind [Safe.nextClk, Safe.endClk, SafeNext]

theorem Safe.endGroup {s : State} (hs : Safe s) (g : ℕ) : Safe (State.endGroup s g) := by
  grind [State.endGroup, Safe.modWg, Safe.regionCheck, Safe.leaveCore, Safe.wgCheck, Safe.commitRegion, safe_iff]

theorem Safe.takeTrap {s : State} (hs : Safe s) (a : Agent) (code : BitVec 8) (val : Word) :
    Safe (State.takeTrap s a code val) := Safe.takeTrapAs (hs := hs) ..

theorem Safe.exitThread {s : State} (hs : Safe s) (t : ℕ) : Safe (State.exitThread s t) := by
  grind [State.exitThread, Safe.modThread, Safe.wgCheck, Safe.modWg, Safe.freeThread]

theorem Safe.translated {s : State} (hs : Safe s) (id : ℕ) (r : Request) (t : Tlb) : Safe (State.translated s id r t) := by
  grind [State.translated, Safe.endRequest, Safe.later, safe_iff]

theorem Safe.execL2Fill (id : ℕ) (g : GddrReport) {s : State} (hs : Safe s) : SafeNext (Machine.execL2Fill id g s) := by
  unfold Machine.execL2Fill
  split
  · exact hs
  next r _ =>
    split
    · exact hs.soon ..
    next t _ =>
      dsimp only
      split
      · exact hs.endRequest ..
      split
      · exact hs.nextWindow ..
      split
      · exact hs.endRequest ..
      next v hv =>
        have h : Safe v := by
          have h := hs.fill r.vi r.line t
          rwa [hv] at h
        have hb := h.burst r.vi r.asid (t.at r.line) g (s.wroteBack v)
        refine Safe.next (Safe.endRequest ?_ ..)
        split
        · exact hb.setL2 ..
        · exact hb

theorem Safe.endEngine {s : State} (hs : Safe s) (id : ℕ) (e : Engine) : Safe (State.endEngine s id e) := by
  grind [State.endEngine, Safe.postBar, Safe.soon, Safe.wgCheck, safe_iff]

theorem Safe.performOld {s : State} (hs : Safe s) (id : ℕ) : Safe (State.performOld s id) := by
  unfold State.performOld
  grind [Safe.fill, Safe.endRequest, Safe.wake, safe_iff, SafeOpt, Safe.foldl]

theorem Safe.execResume (vi : BitVec 8) (e : TCmd) {s : State} (hs : Safe s) : SafeNext (Machine.execResume vi e s) := by
  grind [Machine.execResume, Safe.cmdRefuse, Safe.cmdRun, Safe.denyStep, Safe.denyAgent, Safe.soon, Safe.unpark, safe_iff,
    SafeNext, Safe.foldl]

theorem Safe.endSplit {s : State} (hs : Safe s) (g k : ℕ) : Safe (State.endSplit s g k) := by
  grind [State.endSplit, Safe.stackLost, Safe.modGroup, Safe.endGroup]

theorem Safe.issue (n : Need) {body : Ctx → State → Act} (hbody : ∀ c s, Safe s → SafeAct (body c s)) {s : State}
    (hs : Safe s) :
    SafeNext (Machine.issue n body s) := by
  grind [Machine.issue, Safe.gate, Safe.blockNeed, Safe.takeTrap, Safe.retire, Safe.takeTrapAs, Safe.parkAt, Safe.block,
    SafeAct, SafeGate, SafeNext]

theorem Safe.execIllegalSequence (sub : BitVec 8) (val : BitVec 48) {s : State} (hs : Safe s) :
    SafeNext (Machine.execIllegalSequence sub val s) := by
  grind [Machine.execIllegalSequence, Safe.takeTrap, SafeNext]

theorem Safe.execStackTrap {s : State} (hs : Safe s) : SafeNext (Machine.execStackTrap s) := by
  grind [execStackTrap, Safe.awaitTrap, Safe.takeTrap, Safe.modStrand, safe_iff, SafeNext]

theorem Safe.execTranslate (id : ℕ) {s : State} (hs : Safe s) : SafeNext (Machine.execTranslate id s) := by
  grind [execTranslate, Safe.translated, Safe.tlbTouch, Safe.inClk, Safe.later, safe_iff, SafeNext]

theorem Safe.walkAnswer {s : State} (hs : Safe s) (t : Option Tlb) (id : ℕ) : Safe (State.walkAnswer s t id) := by
  grind [State.walkAnswer, Safe.translated, Safe.endRequest, safe_iff]

theorem Safe.execEngineComplete (id : ℕ) {s : State} (hs : Safe s) : SafeNext (Machine.execEngineComplete id s) := by
  grind [Machine.execEngineComplete, Safe.endEngine, Safe.flush, Safe.inClk, Safe.settleWork, Safe.engineRun, SafeNext]

theorem Safe.drive {s : State} (hs : Safe s) (w a2 : ℕ) : Safe (State.drive s w a2) := by
  fun_induction State.drive s w a2 <;> grind [Safe.block, Safe.collEnd, Safe.abortColl, Safe.collFault, Safe.takeTrap,
    Safe.modStrand, Safe.setColl, Safe.handArrive, Safe.collSettle, Safe.collAdd, Safe.collSend]

theorem Safe.takeQueued {s : State} (hs : Safe s) (a : Agent) (code : BitVec 8) (val : Word) :
    Safe (State.takeQueued s a code val) := by
  grind [State.takeQueued, Safe.awaitTrap, Safe.takeTrap, Safe.modStrand]

theorem Safe.fetchSeq {s : State} (hs : Safe s) (a : Agent) (pc : Word) : SafePick (State.fetchSeq s a pc) := by
  grind [State.fetchSeq, Safe.takeTrap, SafePick]

theorem Safe.purge {s : State} (hs : Safe s) (p : Purge) : Safe (State.purge s p) := by
  grind [State.purge, Safe.evictL1, Safe.performOld, Safe.dropL2, Safe.writeBack, Safe.dropHeld, safe_iff, Safe.foldl]

end Sys2Proof
end

section
/-! O47: memory stays canonical under layer 35, among it what every issue does with a meaning. A lemma uses those of the
layers before its own only; within a layer the lemmas stand in the order of the model. -/
namespace Sys2Proof
open Sys2Proof.Machine

theorem Safe.execSrd (d : SReg) (n : BitVec 12) {s : State} (hs : Safe s) : SafeNext (Machine.execSrd d n s) := by
  unfold Machine.execSrd
  refine Safe.issue _ (fun c s hs => ?_) hs
  grind [Safe.sset, SafeAct]

theorem Safe.execSwr (n : BitVec 12) (a : SReg) {s : State} (hs : Safe s) : SafeNext (Machine.execSwr n a s) := by
  unfold Machine.execSwr
  refine Safe.issue _ (fun c s hs => ?_) hs
  grind [Safe.sysWrite, SafeAct]

theorem Safe.execNop {s : State} (hs : Safe s) : SafeNext (Machine.execNop s) := by
  unfold Machine.execNop
  refine Safe.issue _ (fun c s hs => ?_) hs
  grind [SafeAct]

theorem Safe.execTrap (a : SReg) {s : State} (hs : Safe s) : SafeNext (Machine.execTrap a s) := by
  unfold Machine.execTrap
  refine Safe.issue _ (fun c s hs => ?_) hs
  grind [SafeAct]

theorem Safe.execBkpt {s : State} (hs : Safe s) : SafeNext (Machine.execBkpt s) := by
  unfold Machine.execBkpt
  refine Safe.issue _ (fun c s hs => ?_) hs
  grind [Safe.block, Safe.stopWg, Safe.modStrand, SafeAct]

theorem Safe.execEret {s : State} (hs : Safe s) : SafeNext (Machine.execEret s) := by
  unfold Machine.execEret
  refine Safe.issue _ (fun c s hs => ?_) hs
  grind [Safe.returnTrap, Safe.retire, SafeAct]

theorem Safe.execYield {s : State} (hs : Safe s) : SafeNext (Machine.execYield s) := by
  unfold Machine.execYield
  refine Safe.issue _ (fun c s hs => ?_) hs
  grind [Safe.modStrand, SafeAct]

theorem Safe.execWaitcyc (a : SReg) {s : State} (hs : Safe s) : SafeNext (Machine.execWaitcyc a s) := by
  unfold Machine.execWaitcyc
  refine Safe.issue _ (fun c s hs => ?_) hs
  grind [Safe.modStrand, SafeAct]

theorem Safe.exitSplit {s : State} (hs : Safe s) (g k : ℕ) : Safe (State.exitSplit s g k) := by
  grind [State.exitSplit, Safe.modGroup, Safe.endSplit]

theorem Safe.execSetfmt (d a : SReg) {s : State} (hs : Safe s) : SafeNext (Machine.execSetfmt d a s) := by
  unfold Machine.execSetfmt
  refine Safe.issue _ (fun c s hs => ?_) hs
  grind [Safe.sset, Safe.setFmt, SafeAct]

theorem Safe.execScfg (a : SReg) (h : BitVec 1) {s : State} (hs : Safe s) : SafeNext (Machine.execScfg a h s) := by
  unfold Machine.execScfg
  refine Safe.issue _ (fun c s hs => ?_) hs
  grind [Safe.stput, SafeAct, Safe.foldl]

theorem Safe.execFenceX (a : SReg) {s : State} (hs : Safe s) : SafeNext (Machine.execFenceX a s) := by
  unfold Machine.execFenceX
  refine Safe.issue _ (fun c s hs => ?_) hs
  grind [Safe.widen, SafeAct]

theorem Safe.execFenceS (a : SReg) (sc : ScopeCode) {s : State} (hs : Safe s) : SafeNext (Machine.execFenceS a sc s) := by
  unfold Machine.execFenceS
  refine Safe.issue _ (fun c s hs => ?_) hs
  grind [Safe.implicitCommit, Safe.fenceWork, Safe.fenceEnd, Safe.waitIn, SafeAct]

theorem Safe.execQbind (p a : SReg) {s : State} (hs : Safe s) : SafeNext (Machine.execQbind p a s) := by
  unfold Machine.execQbind
  refine Safe.issue _ (fun c s hs => ?_) hs
  grind [Safe.bindPort, SafeAct]

theorem Safe.execQtry (d p : SReg) {s : State} (hs : Safe s) : SafeNext (Machine.execQtry d p s) := by
  unfold Machine.execQtry
  refine Safe.issue _ (fun c s hs => ?_) hs
  grind [Safe.sset, Safe.pop, SafeAct]

theorem Safe.execQstat (d p : SReg) {s : State} (hs : Safe s) : SafeNext (Machine.execQstat d p s) := by
  unfold Machine.execQstat
  refine Safe.issue _ (fun c s hs => ?_) hs
  grind [Safe.sset, SafeAct]

theorem Safe.execRegion {s : State} (hs : Safe s) : SafeNext (Machine.execRegion s) := by
  grind [Machine.execRegion, Safe.issue, Safe.regionBody]

theorem Safe.execRclose {s : State} (hs : Safe s) : SafeNext (Machine.execRclose s) := by
  grind [Machine.execRclose, Safe.issue, Safe.regionBody]

theorem Safe.execGrab (d : SReg) (b : RangeNo) {s : State} (hs : Safe s) : SafeNext (Machine.execGrab d b s) := by
  unfold Machine.execGrab
  refine Safe.issue _ (fun c s hs => ?_) hs
  grind [Safe.spend, Safe.implicitCommit, Safe.sset, safe_iff, SafeAct]

theorem Safe.execRset (d : RangeNo) (a b : SReg) {s : State} (hs : Safe s) : SafeNext (Machine.execRset d a b s) := by
  unfold Machine.execRset
  refine Safe.issue _ (fun c s hs => ?_) hs
  grind [Safe.implicitCommit, safe_iff, SafeAct]

theorem Safe.execRstat (d : SReg) (b : RangeNo) {s : State} (hs : Safe s) : SafeNext (Machine.execRstat d b s) := by
  unfold Machine.execRstat
  refine Safe.issue _ (fun c s hs => ?_) hs
  grind [Safe.spend, Safe.sset, SafeAct]

theorem Safe.execBurn (a : SReg) {s : State} (hs : Safe s) : SafeNext (Machine.execBurn a s) := by
  unfold Machine.execBurn
  refine Safe.issue _ (fun c s hs => ?_) hs
  grind [Safe.drawn, SafeAct]

theorem Safe.execShunt (d a : SReg) {s : State} (hs : Safe s) : SafeNext (Machine.execShunt d a s) := by
  unfold Machine.execShunt
  refine Safe.issue _ (fun c s hs => ?_) hs
  grind [Safe.modCluster, Safe.modCore, Safe.sset, SafeAct]

theorem Safe.execRdmis (d : SReg) {s : State} (hs : Safe s) : SafeNext (Machine.execRdmis d s) := by
  unfold Machine.execRdmis
  refine Safe.issue _ (fun c s hs => ?_) hs
  grind [Safe.sset, SafeAct]

theorem Safe.execDcls (a : SReg) {s : State} (hs : Safe s) : SafeNext (Machine.execDcls a s) := by
  unfold Machine.execDcls
  refine Safe.issue _ (fun c s hs => ?_) hs
  grind [Safe.modGroup, SafeAct]

theorem Safe.execBarInit (n : BarNo) (a : SReg) {s : State} (hs : Safe s) : SafeNext (Machine.execBarInit n a s) := by
  unfold Machine.execBarInit
  refine Safe.issue _ (fun c s hs => ?_) hs
  grind [Safe.setBar, SafeAct]

theorem Safe.execBarArrive (d : SReg) (n : BarNo) (rlx : Bool) {s : State} (hs : Safe s) :
    SafeNext (Machine.execBarArrive d n rlx s) := by
  unfold Machine.execBarArrive
  refine Safe.issue _ (fun c s hs => ?_) hs
  grind [Safe.sset, Safe.arrive, SafeAct]

theorem Safe.execBarWait (d : SReg) (n : BarNo) (a : SReg) {s : State} (hs : Safe s) :
    SafeNext (Machine.execBarWait d n a s) := by
  grind [Machine.execBarWait, Safe.issue, Safe.barDone, Safe.waitIn, SafeAct, SafeNext]

theorem Safe.execBarAw (d : SReg) (n : BarNo) (rlx : Bool) {s : State} (hs : Safe s) :
    SafeNext (Machine.execBarAw d n rlx s) := by
  grind [Machine.execBarAw, Safe.issue, Safe.barDone, Safe.waitIn, Safe.arrive, SafeAct, SafeNext]

theorem Safe.execBarTest (d : SReg) (n : BarNo) (a : SReg) {s : State} (hs : Safe s) :
    SafeNext (Machine.execBarTest d n a s) := by
  unfold Machine.execBarTest
  refine Safe.issue _ (fun c s hs => ?_) hs
  grind [Safe.sset, Safe.acquireAll, SafeAct]

theorem Safe.execBarExpect (n : BarNo) (a : SReg) (post : Bool) {s : State} (hs : Safe s) :
    SafeNext (Machine.execBarExpect n a post s) := by
  unfold Machine.execBarExpect
  refine Safe.issue _ (fun c s hs => ?_) hs
  grind [Safe.releaseEvery, Safe.commitWide, Safe.postAt, Safe.after, Safe.setBar, SafeAct]

theorem Safe.execTset (n : TReg) (wd : Fin 5) (a : SReg) {s : State} (hs : Safe s) :
    SafeNext (Machine.execTset n wd a s) := by
  unfold Machine.execTset
  refine Safe.issue _ (fun c s hs => ?_) hs
  grind [Safe.tput, SafeAct]

theorem Safe.execTget (d : SReg) (n : TReg) (wd : Fin 5) {s : State} (hs : Safe s) :
    SafeNext (Machine.execTget d n wd s) := by
  unfold Machine.execTget
  refine Safe.issue _ (fun c s hs => ?_) hs
  grind [Safe.sset, SafeAct]

theorem Safe.execTcopy (d a : TReg) {s : State} (hs : Safe s) : SafeNext (Machine.execTcopy d a s) := by
  unfold Machine.execTcopy
  refine Safe.issue _ (fun c s hs => ?_) hs
  grind [Safe.tput, SafeAct, Safe.foldl]

theorem Safe.memIssue (f : MemForm) {s : State} (hs : Safe s) : SafeNext (Machine.memIssue f s) := by
  grind [Machine.memIssue, Safe.issue, Safe.storeBody, Safe.loadBody]

theorem Safe.execWalkComplete (id : ℕ) {s : State} (hs : Safe s) : SafeNext (Machine.execWalkComplete id s) := by
  grind [execWalkComplete, Safe.nextWindow, Safe.translate, Safe.walkAnswer, safe_iff, SafeNext, SafeTrans, Safe.foldl]

theorem Safe.execCpyl (a b : VReg) (n : BarNo) (z : CpSize) (st : StreamNo) {s : State} (hs : Safe s) :
    SafeNext (Machine.execCpyl a b n z st s) := by
  grind [Machine.execCpyl, Safe.issue, Safe.forkBody]

theorem Safe.execTld (d a : TReg) (n : BarNo) (st : StreamNo) {s : State} (hs : Safe s) :
    SafeNext (Machine.execTld d a n st s) := by
  grind [Machine.execTld, Safe.issue, Safe.forkBody]

theorem Safe.execTst (d a : TReg) (n : BarNo) (st : StreamNo) {s : State} (hs : Safe s) :
    SafeNext (Machine.execTst d a n st s) := by
  grind [Machine.execTst, Safe.issue, Safe.forkBody]

theorem Safe.execTzfill (d : TReg) (n : BarNo) (st : StreamNo) {s : State} (hs : Safe s) :
    SafeNext (Machine.execTzfill d n st s) := by
  grind [Machine.execTzfill, Safe.issue, Safe.forkBody]

theorem Safe.execTldw (k : HandleNo) (a : SReg) (st : StreamNo) {s : State} (hs : Safe s) :
    SafeNext (Machine.execTldw k a st s) := by
  unfold Machine.execTldw
  refine Safe.issue _ (fun c s hs => ?_) hs
  grind [Safe.fork, Safe.tldwStart, SafeAct]

theorem Safe.execBinsc (n : BarNo) (a : VReg) (b : SReg) (st : StreamNo) {s : State} (hs : Safe s) :
    SafeNext (Machine.execBinsc n a b st s) := by
  grind [Machine.execBinsc, Safe.issue, Safe.forkBody]

theorem Safe.execBinrst (n : BarNo) (b : SReg) (st : StreamNo) {s : State} (hs : Safe s) :
    SafeNext (Machine.execBinrst n b st s) := by
  grind [Machine.execBinrst, Safe.issue, Safe.forkBody]

theorem Safe.execCadd (a b : SReg) (st : StreamNo) {s : State} (hs : Safe s) : SafeNext (Machine.execCadd a b st s) := by
  grind [Machine.execCadd, Safe.issue, Safe.forkBody]

theorem Safe.execCset (a b : SReg) (st : StreamNo) {s : State} (hs : Safe s) : SafeNext (Machine.execCset a b st s) := by
  grind [Machine.execCset, Safe.issue, Safe.forkBody]

theorem Safe.execCwait (d a b : SReg) (st : StreamNo) {s : State} (hs : Safe s) :
    SafeNext (Machine.execCwait d a b st s) := by
  unfold Machine.execCwait
  refine Safe.issue _ (fun c s hs => ?_) hs
  grind [Safe.seeCounter, Safe.raise, Safe.sset, Safe.cntAcquire, Safe.waitIn, SafeReach, SafeAct]

theorem Safe.execCtest (d a b : SReg) (st : StreamNo) {s : State} (hs : Safe s) :
    SafeNext (Machine.execCtest d a b st s) := by
  unfold Machine.execCtest
  refine Safe.issue _ (fun c s hs => ?_) hs
  grind [Safe.seeCounter, Safe.raise, Safe.sset, Safe.cntAcquire, SafeReach, SafeAct]

theorem Safe.execRcopy (d a : TReg) (b : SReg) (n : BarNo) (st : StreamNo) {s : State} (hs : Safe s) :
    SafeNext (Machine.execRcopy d a b n st s) := by
  grind [Machine.execRcopy, Safe.issue, Safe.forkBody]

theorem Safe.execBmopen (d a b : SReg) (st : StreamNo) {s : State} (hs : Safe s) :
    SafeNext (Machine.execBmopen d a b st s) := by
  grind [Machine.execBmopen, Safe.issue, Safe.bmRecord, Safe.mergeOpen, Safe.bmAnswer]

theorem Safe.execBmclose (d a b : SReg) (st : StreamNo) {s : State} (hs : Safe s) :
    SafeNext (Machine.execBmclose d a b st s) := by
  grind [Machine.execBmclose, Safe.issue, Safe.bmRecord, Safe.mergeClose, Safe.sset, Safe.spend, SafeAct, SafeNext]

theorem Safe.execBmstage (t : TReg) (a : SReg) (n : BarNo) (st : StreamNo) {s : State} (hs : Safe s) :
    SafeNext (Machine.execBmstage t a n st s) := by
  grind [Machine.execBmstage, Safe.issue, Safe.forkBody]

theorem Safe.execBmnorm (d : SReg) (t : TReg) (b : SReg) (st : StreamNo) {s : State} (hs : Safe s) :
    SafeNext (Machine.execBmnorm d t b st s) := by
  grind [Machine.execBmnorm, Safe.issue, Safe.Work_mergeTile, Safe.Work_aligned, Safe.Work_start, Safe.engineEdge,
    Safe.bmWork, Safe.bmAnswer]

theorem Safe.execBmadd (d a : TReg) (b : SReg) (st : StreamNo) {s : State} (hs : Safe s) :
    SafeNext (Machine.execBmadd d a b st s) := by
  grind [Machine.execBmadd, Safe.issue, Safe.bmWork, Safe.addWork, Safe.bmAnswer]

theorem Safe.execBmstat (d a : SReg) (st : StreamNo) {s : State} (hs : Safe s) : SafeNext (Machine.execBmstat d a st s) := by
  grind [Machine.execBmstat, Safe.issue, Safe.bmRecord, Safe.sset, Safe.spend, SafeAct, SafeNext]

theorem Safe.driveColl {s : State} (hs : Safe s) (w : ℕ) : Safe (State.driveColl s w) := by
  grind [State.driveColl, Safe.drive]

theorem Safe.coll (op : ℕ) (t : TReg) (a : SReg) (n : BarNo) (st : StreamNo) {s : State} (hs : Safe s) :
    SafeNext (Machine.coll op t a n st s) := by
  grind [Machine.coll, Safe.issue, Safe.readFor, Safe.loadFate, Safe.collJoin, SafeAct, SafeNext, SafeReach]

theorem Safe.diverge (pol : Bool) (k : KReg) (t : BitVec 11) (j : BitVec 10) {s : State} (hs : Safe s) :
    SafeNext (Machine.diverge pol k t j s) := by
  grind [Machine.diverge, Safe.issue, Safe.divergeOn]

theorem Safe.maskBranch (test : Mask → Mask → Bool) (k : KReg) (o : BitVec 20) (x : Option (BitVec 25)) {s : State}
    (hs : Safe s) :
    SafeNext (Machine.maskBranch test k o x s) := by
  unfold Machine.maskBranch
  refine Safe.issue _ (fun c s hs => ?_) hs
  grind [SafeAct]

theorem Safe.resolve {s : State} (hs : Safe s) (g k : ℕ) : Safe (State.resolve s g k) := by
  grind [State.resolve, Safe.endSplit, Safe.resolved, Safe.modSplit, Safe.mergeSplits, Safe.block]

theorem Safe.execMma (n : AccNo) (m : FeedNo) (k : HandleNo) {s : State} (hs : Safe s) :
    SafeNext (Machine.execMma n m k s) := by
  grind [Machine.execMma, Safe.issue, Safe.accown, Safe.enqueueOp, SafeAct, SafeNext]

theorem Safe.execTzero (n : AccNo) {s : State} (hs : Safe s) : SafeNext (Machine.execTzero n s) := by
  grind [Machine.execTzero, Safe.issue, Safe.accown, Safe.enqueueOp, SafeAct, SafeNext]

theorem Safe.execTcfg (d a : SReg) {s : State} (hs : Safe s) : SafeNext (Machine.execTcfg d a s) := by
  unfold Machine.execTcfg
  refine Safe.issue _ (fun c s hs => ?_) hs
  grind [Safe.modThread, Safe.sset, SafeAct]

theorem Safe.execMmab (n : AccNo) (m : FeedNo) (k : BitVec 5) (b : SReg) {s : State} (hs : Safe s) :
    SafeNext (Machine.execMmab n m k b s) := by
  grind [Machine.execMmab, Safe.issue, Safe.accown, Safe.startSeq, SafeAct, SafeNext]

theorem Safe.execAccspill (n : AccNo) (a : SReg) (st : StreamNo) {s : State} (hs : Safe s) :
    SafeNext (Machine.execAccspill n a st s) := by
  grind [Machine.execAccspill, Safe.issue, Safe.flush, Safe.writeFor, Safe.accFirst, Safe.accWait, Safe.relTile, Safe.accPark,
    SafeAct, SafeNext, SafeOptAct, SafeReach]

theorem Safe.execAccfill (n : AccNo) (a : SReg) (st : StreamNo) {s : State} (hs : Safe s) :
    SafeNext (Machine.execAccfill n a st s) := by
  unfold Machine.execAccfill
  refine Safe.issue _ (fun c s hs => ?_) hs
  generalize (4096 : Nat) = size
  split
  next vi asid _ =>
    extract_lets cl va t r
    have ht : Safe t := hs.flush ..
    have hr : SafeReach r := ht.readFor ..
    split
    next x hx => exact (congrArg SafeOptAct hx).mp (Safe.accFirst ..)
    clear_value r
    split
    · split
      · trivial
      · exact Safe.accWait c (Safe.modCluster (Safe.setTile hr ..) ..)
    · exact Safe.accPark c ht ..
    · trivial

theorem Safe.execAccrel (n : AccNo) (k : BitVec 6) {s : State} (hs : Safe s) : SafeNext (Machine.execAccrel n k s) := by
  grind [Machine.execAccrel, Safe.issue, Safe.accown, Safe.relTile, SafeAct, SafeNext, Safe.foldl]

theorem Safe.execAcclive (d : SReg) (h : BitVec 1) {s : State} (hs : Safe s) : SafeNext (Machine.execAcclive d h s) := by
  grind [Machine.execAcclive, Safe.issue, Safe.accown, Safe.sset, SafeAct, SafeNext]

theorem Safe.execTfeed (m : FeedNo) (a : VReg) (b : SReg) (f : FeedFmt) (sl : Bool) (p : Option Prefix) {s : State}
    (hs : Safe s) :
    SafeNext (Machine.execTfeed m a b f sl p s) := by
  unfold Machine.execTfeed
  refine Safe.issue _ (fun c s hs => ?_) hs
  grind [Safe.setFeed, Safe.raiseFlags, SafeAct]

theorem Safe.execTdrain (d : VReg) (n : AccNo) (b : SReg) (p : Option Prefix) {s : State} (hs : Safe s) :
    SafeNext (Machine.execTdrain d n b p s) := by
  unfold Machine.execTdrain
  refine Safe.issue _ (fun c s hs => ?_) hs
  grind [Safe.vmove, SafeAct]

theorem Safe.execNode (d : NodeNo) (n : BitVec 6) {s : State} (hs : Safe s) : SafeNext (Machine.execNode d n s) := by
  grind [Machine.execNode, Safe.issue, Safe.bodyTrap, Safe.implicitCommit, Safe.define, SafeAct, SafeNext, SafeOptAct]

theorem Safe.execNodeL (d : NodeNo) (n : BitVec 6) (b : SReg) (st : StreamNo) {s : State} (hs : Safe s) :
    SafeNext (Machine.execNodeL d n b st s) := by
  grind [Machine.execNodeL, Safe.issue, Safe.flush, Safe.loadFate, Safe.readFor, Safe.define, SafeAct, SafeNext, SafeReach]

theorem Safe.execNedge (d a : NodeNo) {s : State} (hs : Safe s) : SafeNext (Machine.execNedge d a s) := by
  unfold Machine.execNedge
  refine Safe.issue _ (fun c s hs => ?_) hs
  grind [Safe.addEdge, Safe.release, Safe.cancelAll, SafeAct]

theorem Safe.execNwait (d : SReg) (a : NodeNo) {s : State} (hs : Safe s) : SafeNext (Machine.execNwait d a s) := by
  unfold Machine.execNwait
  refine Safe.issue _ (fun c s hs => ?_) hs
  grind [Safe.nwaitEnd, Safe.waitIn, SafeAct]

theorem Safe.execEmit (d : SReg) (a : VReg) (n : BitVec 2) (_st : StreamNo) {s : State} (hs : Safe s) :
    SafeNext (Machine.execEmit d a n _st s) := by
  unfold Machine.execEmit
  refine Safe.issue _ (fun c s hs => ?_) hs
  grind [Safe.releaseEvery, Safe.implicitCommit, Safe.emitAnswer, Safe.spend, Safe.sset, Safe.after, Safe.reservePush,
    safe_iff, SafeAct]

theorem Safe.execPurge (vi : BitVec 8) (e : TCmd) {s : State} (hs : Safe s) : SafeNext (Machine.execPurge vi e s) := by
  grind [Machine.execPurge, Safe.cmdRefuse, Safe.cmdRun, Safe.purge, SafeNext]

theorem Safe.vfp (op : FOp) (t : FType) (d a b : VReg) (p : Option Prefix) (len : ℕ) {s : State} (hs : Safe s) :
    SafeNext (Machine.vfp op t d a b p len s) := by
  grind [Machine.vfp, Safe.issue, Safe.vecBody]

theorem Safe.vfp1 (op : FOp) (t : FType) (d a : VReg) (p : Option Prefix) {s : State} (hs : Safe s) :
    SafeNext (Machine.vfp1 op t d a p s) := by
  grind [Machine.vfp1, Safe.issue, Safe.vecBody]

theorem Safe.vfps (op : FOp) (t : FType) (d a : VReg) (b : SReg) (p : Option Prefix) {s : State} (hs : Safe s) :
    SafeNext (Machine.vfps op t d a b p s) := by
  grind [Machine.vfps, Safe.issue, Safe.vecBody]

theorem Safe.vfma (op : FmaOp) (t : FType) (d a b : VReg) (p : Option Prefix) {s : State} (hs : Safe s) :
    SafeNext (Machine.vfma op t d a b p s) := by
  grind [Machine.vfma, Safe.issue, Safe.vecBody]

theorem Safe.vint (f : Lane → Lane → Lane) (lat : ℕ) (d a b : VReg) (p : Option Prefix) (len : ℕ) {s : State} (hs : Safe s) :
    SafeNext (Machine.vint f lat d a b p len s) := by
  unfold Machine.vint
  refine Safe.issue _ (fun c s hs => ?_) hs
  grind [Safe.vmove, SafeAct]

theorem Safe.vint1 (f : Lane → Lane) (d a : VReg) (p : Option Prefix) {s : State} (hs : Safe s) :
    SafeNext (Machine.vint1 f d a p s) := by
  unfold Machine.vint1
  refine Safe.issue _ (fun c s hs => ?_) hs
  grind [Safe.vmove, SafeAct]

theorem Safe.vints (f : Lane → Lane → Lane) (lat : ℕ) (d a : VReg) (b : SReg) (p : Option Prefix) {s : State} (hs : Safe s) :
    SafeNext (Machine.vints f lat d a b p s) := by
  unfold Machine.vints
  refine Safe.issue _ (fun c s hs => ?_) hs
  grind [Safe.vmove, SafeAct]

theorem Safe.vinti (f : Lane → Lane → Lane) (lat : ℕ) (d a : VReg) (i : BitVec 10) (p : Option Prefix)
    (e : Option (BitVec 25)) {s : State} (hs : Safe s) :
    SafeNext (Machine.vinti f lat d a i p e s) := by
  unfold Machine.vinti
  refine Safe.issue _ (fun c s hs => ?_) hs
  grind [Safe.vmove, SafeAct]

theorem Safe.vcmp (f : State → Agent → Lane → Lane → Bool × FFlags) (pipe : ℕ) (draw : Draw) (d : KReg) (a b : VReg)
    (p : Option Prefix) {s : State} (hs : Safe s) :
    SafeNext (Machine.vcmp f pipe draw d a b p s) := by
  unfold Machine.vcmp
  refine Safe.issue _ (fun c s hs => ?_) hs
  grind [Safe.raiseFlags, Safe.kwrite, SafeAct]

theorem Safe.vsfu (f : Sfu) (d a : VReg) (p : Option Prefix) {s : State} (hs : Safe s) :
    SafeNext (Machine.vsfu f d a p s) := by
  grind [Machine.vsfu, Safe.issue, Safe.vecBody]

theorem Safe.cvt1 (f : Rnd → Bool → Bool → Lane → Lane × FFlags) (d a : VReg) (p : Option Prefix) {s : State} (hs : Safe s) :
    SafeNext (Machine.cvt1 f d a p s) := by
  grind [Machine.cvt1, Safe.issue, Safe.vecBody]

theorem Safe.cvt2 (dst : FFmt) (d a b : VReg) (p : Option Prefix) {s : State} (hs : Safe s) :
    SafeNext (Machine.cvt2 dst d a b p s) := by
  grind [Machine.cvt2, Safe.issue, Safe.vecBody]

theorem Safe.execVcvtSxF32 (d a : VReg) (p : Option Prefix) {s : State} (hs : Safe s) :
    SafeNext (Machine.execVcvtSxF32 d a p s) := by
  unfold Machine.execVcvtSxF32
  refine Safe.issue _ (fun c s hs => ?_) hs
  grind [Safe.raiseFlags, Safe.vput, SafeAct]

theorem Safe.execVcvtF32Sx (d a : VReg) (p : Option Prefix) {s : State} (hs : Safe s) :
    SafeNext (Machine.execVcvtF32Sx d a p s) := by
  unfold Machine.execVcvtF32Sx
  refine Safe.issue _ (fun c s hs => ?_) hs
  grind [Safe.vmove, SafeAct]

theorem Safe.vred (f : Rnd → Bool → Lane → Lane → Lane × FFlags) (ident : Lane) (ext : Lane → Word) (pipe lat : ℕ)
    (draw : Draw) (d : SReg) (a : VReg) (p : Option Prefix) {s : State} (hs : Safe s) :
    SafeNext (Machine.vred f ident ext pipe lat draw d a p s) := by
  unfold Machine.vred
  refine Safe.issue _ (fun c s hs => ?_) hs
  grind [Safe.raiseFlags, Safe.sset, SafeAct]

theorem Safe.vscan (f : Rnd → Bool → Lane → Lane → Lane × FFlags) (pipe lat : ℕ) (draw : Draw) (d a : VReg) (b : SReg)
    (p : Option Prefix) {s : State} (hs : Safe s) :
    SafeNext (Machine.vscan f pipe lat draw d a b p s) := by
  unfold Machine.vscan
  refine Safe.issue _ (fun c s hs => ?_) hs
  grind [Safe.raiseFlags, Safe.vmove, SafeAct]

theorem Safe.execVcompact (d a : VReg) (b : SReg) (p : Option Prefix) {s : State} (hs : Safe s) :
    SafeNext (Machine.execVcompact d a b p s) := by
  unfold Machine.execVcompact
  refine Safe.issue _ (fun c s hs => ?_) hs
  grind [Safe.vput, SafeAct]

theorem Safe.execVexpand (d a : VReg) (p : Option Prefix) {s : State} (hs : Safe s) :
    SafeNext (Machine.execVexpand d a p s) := by
  unfold Machine.execVexpand
  refine Safe.issue _ (fun c s hs => ?_) hs
  grind [Safe.vmove, SafeAct]

theorem Safe.execVsel (d a b : VReg) (p : Option Prefix) {s : State} (hs : Safe s) :
    SafeNext (Machine.execVsel d a b p s) := by
  unfold Machine.execVsel
  refine Safe.issue _ (fun c s hs => ?_) hs
  grind [Safe.vmove, SafeAct]

theorem Safe.execVperm (d a b : VReg) (p : Option Prefix) {s : State} (hs : Safe s) :
    SafeNext (Machine.execVperm d a b p s) := by
  unfold Machine.execVperm
  refine Safe.issue _ (fun c s hs => ?_) hs
  grind [Safe.vmove, SafeAct]

theorem Safe.kop2 (f : Mask → Mask → Mask) (d a b : KReg) (p : Option Prefix) {s : State} (hs : Safe s) :
    SafeNext (Machine.kop2 f d a b p s) := by
  unfold Machine.kop2
  refine Safe.issue _ (fun c s hs => ?_) hs
  grind [Safe.kwrite, SafeAct]

theorem Safe.kop1 (f : Mask → Mask) (d a : KReg) (p : Option Prefix) {s : State} (hs : Safe s) :
    SafeNext (Machine.kop1 f d a p s) := by
  unfold Machine.kop1
  refine Safe.issue _ (fun c s hs => ?_) hs
  grind [Safe.kwrite, SafeAct]

theorem Safe.kscalar (f : Mask → Mask → Word) (d : SReg) (a : KReg) (p : Option Prefix) {s : State} (hs : Safe s) :
    SafeNext (Machine.kscalar f d a p s) := by
  unfold Machine.kscalar
  refine Safe.issue _ (fun c s hs => ?_) hs
  grind [Safe.sset, SafeAct]

theorem Safe.execS2k (d : KReg) (a : SReg) (n : Fin 3) (p : Option Prefix) {s : State} (hs : Safe s) :
    SafeNext (Machine.execS2k d a n p s) := by
  unfold Machine.execS2k
  refine Safe.issue _ (fun c s hs => ?_) hs
  grind [Safe.kput, SafeAct]

theorem Safe.vmovOf (d a : VReg) (p : Option Prefix) (len : ℕ) {s : State} (hs : Safe s) :
    SafeNext (Machine.vmovOf d a p len s) := by
  unfold Machine.vmovOf
  refine Safe.issue _ (fun c s hs => ?_) hs
  grind [Safe.vmove, SafeAct]

theorem Safe.execVsplat (d : VReg) (a : SReg) (p : Option Prefix) {s : State} (hs : Safe s) :
    SafeNext (Machine.execVsplat d a p s) := by
  unfold Machine.execVsplat
  refine Safe.issue _ (fun c s hs => ?_) hs
  grind [Safe.vmove, SafeAct]

theorem Safe.execVext (d : SReg) (a : VReg) (b : SReg) (p : Option Prefix) {s : State} (hs : Safe s) :
    SafeNext (Machine.execVext d a b p s) := by
  unfold Machine.execVext
  refine Safe.issue _ (fun c s hs => ?_) hs
  grind [Safe.sset, SafeAct]

theorem Safe.execVins (d : VReg) (a b : SReg) (p : Option Prefix) {s : State} (hs : Safe s) :
    SafeNext (Machine.execVins d a b p s) := by
  unfold Machine.execVins
  refine Safe.issue _ (fun c s hs => ?_) hs
  grind [Safe.vmove, SafeAct]

theorem Safe.execVlaneid (d : VReg) (p : Option Prefix) {s : State} (hs : Safe s) : SafeNext (Machine.execVlaneid d p s) := by
  unfold Machine.execVlaneid
  refine Safe.issue _ (fun c s hs => ?_) hs
  grind [Safe.vmove, SafeAct]

theorem Safe.execViota (d : VReg) (p : Option Prefix) {s : State} (hs : Safe s) : SafeNext (Machine.execViota d p s) := by
  unfold Machine.execViota
  refine Safe.issue _ (fun c s hs => ?_) hs
  grind [Safe.vmove, SafeAct]

theorem Safe.execCachePfl1 (r x : SReg) (st : StreamNo) (e : Option (BitVec 25)) {s : State} (hs : Safe s) :
    SafeNext (Machine.execCachePfl1 r x st e s) := by
  grind [Machine.execCachePfl1, Safe.issue, Safe.cacheBody, Safe.prefetch]

theorem Safe.execCachePfl2 (r x : SReg) (st : StreamNo) (e : Option (BitVec 25)) {s : State} (hs : Safe s) :
    SafeNext (Machine.execCachePfl2 r x st e s) := by
  grind [Machine.execCachePfl2, Safe.issue, Safe.cacheBody, Safe.prefetch]

theorem Safe.execCacheWback (r x : SReg) (st : StreamNo) (e : Option (BitVec 25)) {s : State} (hs : Safe s) :
    SafeNext (Machine.execCacheWback r x st e s) := by
  grind [Machine.execCacheWback, Safe.issue, Safe.cacheBody, Safe.wback]

theorem Safe.execCacheInval (r x : SReg) (st : StreamNo) (e : Option (BitVec 25)) {s : State} (hs : Safe s) :
    SafeNext (Machine.execCacheInval r x st e s) := by
  grind [Machine.execCacheInval, Safe.issue, Safe.cacheBody, Safe.invalL1]

theorem Safe.execCacheWbinv (r x : SReg) (st : StreamNo) (e : Option (BitVec 25)) {s : State} (hs : Safe s) :
    SafeNext (Machine.execCacheWbinv r x st e s) := by
  grind [Machine.execCacheWbinv, Safe.issue, Safe.cacheBody, Safe.wbinv]

theorem Safe.execCacheZline (r x : SReg) (st : StreamNo) (e : Option (BitVec 25)) {s : State} (hs : Safe s) :
    SafeNext (Machine.execCacheZline r x st e s) := by
  grind [Machine.execCacheZline, Safe.issue, Safe.storeOf]

theorem Safe.salu (f : Word → Word → Word) (d a b : SReg) (lat : ℕ) (div : Bool) {s : State} (hs : Safe s) :
    SafeNext (Machine.salu f d a b lat div s) := by
  unfold Machine.salu
  refine Safe.issue _ (fun c s hs => ?_) hs
  grind [Safe.sset, SafeAct]

theorem Safe.scalar1 (f : Word → Word) (d a : SReg) (len : ℕ) {s : State} (hs : Safe s) :
    SafeNext (Machine.scalar1 f d a len s) := by
  unfold Machine.scalar1
  refine Safe.issue _ (fun c s hs => ?_) hs
  grind [Safe.sset, SafeAct]

theorem Safe.execSli (d : SReg) (i : BitVec 19) (x : Option (BitVec 25)) {s : State} (hs : Safe s) :
    SafeNext (Machine.execSli d i x s) := by
  unfold Machine.execSli
  refine Safe.issue _ (fun c s hs => ?_) hs
  grind [Safe.sset, SafeAct]

theorem Safe.branch (cond : Word → Bool) (a : SReg) (o : BitVec 16) (x : Option (BitVec 25)) {s : State} (hs : Safe s) :
    SafeNext (Machine.branch cond a o x s) := by
  unfold Machine.branch
  refine Safe.issue _ (fun c s hs => ?_) hs
  grind [SafeAct]

theorem Safe.execJmp (o : BitVec 25) (x : Option (BitVec 25)) {s : State} (hs : Safe s) :
    SafeNext (Machine.execJmp o x s) := by
  unfold Machine.execJmp
  refine Safe.issue _ (fun c s hs => ?_) hs
  grind [SafeAct]

theorem Safe.execCall (o : BitVec 25) (x : Option (BitVec 25)) {s : State} (hs : Safe s) :
    SafeNext (Machine.execCall o x s) := by
  unfold Machine.execCall
  refine Safe.issue _ (fun c s hs => ?_) hs
  grind [Safe.sput, SafeAct]

theorem Safe.execJr (a : SReg) {s : State} (hs : Safe s) : SafeNext (Machine.execJr a s) := by
  grind [Machine.execJr, Safe.issue, Safe.jumpTo]

theorem Safe.execCallr (a : SReg) {s : State} (hs : Safe s) : SafeNext (Machine.execCallr a s) := by
  grind [Machine.execCallr, Safe.issue, Safe.jumpTo, Safe.sput]

theorem Safe.execRet {s : State} (hs : Safe s) : SafeNext (Machine.execRet s) := by
  grind [Machine.execRet, Safe.issue, Safe.jumpTo]

end Sys2Proof
end

section
/-! O47: memory stays canonical under layer 36, most of it instructions over a shared body. A lemma uses those of the layers
before its own only; within a layer the lemmas stand in the order of the model. -/
namespace Sys2Proof
open Sys2Proof.Machine

theorem Safe.execExit {s : State} (hs : Safe s) : SafeNext (Machine.execExit s) := by
  unfold Machine.execExit
  refine Safe.issue _ (fun c s hs => ?_) hs
  grind [Safe.exitSplit, Safe.retire, Safe.exitThread, SafeAct]

theorem Safe.execCollStep (wg : ℕ) {s : State} (hs : Safe s) : SafeNext (Machine.execCollStep wg s) := by
  grind [Machine.execCollStep, Safe.driveColl, SafeNext]

theorem Safe.execAllred (t : TReg) (a : SReg) (n : BarNo) (st : StreamNo) {s : State} (hs : Safe s) :
    SafeNext (Machine.execAllred t a n st s) := Safe.coll (hs := hs) ..

theorem Safe.execRedsc (t : TReg) (a : SReg) (n : BarNo) (st : StreamNo) {s : State} (hs : Safe s) :
    SafeNext (Machine.execRedsc t a n st s) := Safe.coll (hs := hs) ..

theorem Safe.execAllgat (t : TReg) (a : SReg) (n : BarNo) (st : StreamNo) {s : State} (hs : Safe s) :
    SafeNext (Machine.execAllgat t a n st s) := Safe.coll (hs := hs) ..

theorem Safe.execBcast (t : TReg) (a : SReg) (n : BarNo) (st : StreamNo) {s : State} (hs : Safe s) :
    SafeNext (Machine.execBcast t a n st s) := Safe.coll (hs := hs) ..

theorem Safe.execVbr (k : KReg) (t : BitVec 11) (j : BitVec 10) {s : State} (hs : Safe s) :
    SafeNext (Machine.execVbr k t j s) := Safe.diverge (hs := hs) ..

theorem Safe.execVbrN (k : KReg) (t : BitVec 11) (j : BitVec 10) {s : State} (hs : Safe s) :
    SafeNext (Machine.execVbrN k t j s) := Safe.diverge (hs := hs) ..

theorem Safe.execKbrAny (k : KReg) (o : BitVec 20) (x : Option (BitVec 25)) {s : State} (hs : Safe s) :
    SafeNext (Machine.execKbrAny k o x s) := Safe.maskBranch (hs := hs) ..

theorem Safe.execKbrAll (k : KReg) (o : BitVec 20) (x : Option (BitVec 25)) {s : State} (hs : Safe s) :
    SafeNext (Machine.execKbrAll k o x s) := Safe.maskBranch (hs := hs) ..

theorem Safe.execKbrNone (k : KReg) (o : BitVec 20) (x : Option (BitVec 25)) {s : State} (hs : Safe s) :
    SafeNext (Machine.execKbrNone k o x s) := Safe.maskBranch (hs := hs) ..

theorem Safe.execReconvergence {s : State} (hs : Safe s) : SafeNext (Machine.execReconvergence s) := by
  grind [execReconvergence, Safe.resolve, safe_iff, SafeNext]

theorem Safe.attempt {s : State} (hs : Safe s) (a : Agent) : SafePick (State.attempt s a) := by
  unfold State.attempt
  extract_lets t x parked spilling joins
  have hs' : Safe t := hs.of_mem rfl
  clear_value t
  split
  · exact hs'
  split
  · exact hs'.block ..
  split
  · exact hs'.block ..
  split
  · exact hs'.driveColl ..
  · exact hs'.block ..
  split
  · exact hs'.block ..
  split
  · exact hs'.takeQueued ..
  split
  · exact hs'
  have hf := hs'.fetchSeq a (t.strand a).pc
  split
  next ht =>
    rw [ht] at hf
    exact Safe.latchBody hf ..
  · exact hf

theorem Safe.vcmpI (f : Lane → Lane → Bool) (d : KReg) (a b : VReg) (p : Option Prefix) {s : State} (hs : Safe s) :
    SafeNext (Machine.vcmpI f d a b p s) := Safe.vcmp (hs := hs) ..

theorem Safe.vcmpF (f : FVal → FVal → Bool) (d : KReg) (a b : VReg) (p : Option Prefix) {s : State} (hs : Safe s) :
    SafeNext (Machine.vcmpF f d a b p s) := Safe.vcmp (hs := hs) ..

theorem Safe.execVfpFadd (t : FType) (d a b : VReg) (p : Option Prefix) {s : State} (hs : Safe s) :
    SafeNext (Machine.execVfpFadd t d a b p s) := Safe.vfp (hs := hs) ..

theorem Safe.execVfpFsub (t : FType) (d a b : VReg) (p : Option Prefix) {s : State} (hs : Safe s) :
    SafeNext (Machine.execVfpFsub t d a b p s) := Safe.vfp (hs := hs) ..

theorem Safe.execVfpFmul (t : FType) (d a b : VReg) (p : Option Prefix) {s : State} (hs : Safe s) :
    SafeNext (Machine.execVfpFmul t d a b p s) := Safe.vfp (hs := hs) ..

theorem Safe.execVfpFmin (t : FType) (d a b : VReg) (p : Option Prefix) {s : State} (hs : Safe s) :
    SafeNext (Machine.execVfpFmin t d a b p s) := Safe.vfp (hs := hs) ..

theorem Safe.execVfpFmax (t : FType) (d a b : VReg) (p : Option Prefix) {s : State} (hs : Safe s) :
    SafeNext (Machine.execVfpFmax t d a b p s) := Safe.vfp (hs := hs) ..

theorem Safe.execVfpFcpysgn (t : FType) (d a b : VReg) (p : Option Prefix) {s : State} (hs : Safe s) :
    SafeNext (Machine.execVfpFcpysgn t d a b p s) := Safe.vfp (hs := hs) ..

theorem Safe.execVfpFabs (t : FType) (d a : VReg) (p : Option Prefix) {s : State} (hs : Safe s) :
    SafeNext (Machine.execVfpFabs t d a p s) := Safe.vfp1 (hs := hs) ..

theorem Safe.execVfpFneg (t : FType) (d a : VReg) (p : Option Prefix) {s : State} (hs : Safe s) :
    SafeNext (Machine.execVfpFneg t d a p s) := Safe.vfp1 (hs := hs) ..

theorem Safe.execFma (t : FType) (d a b : VReg) (p : Option Prefix) {s : State} (hs : Safe s) :
    SafeNext (Machine.execFma t d a b p s) := Safe.vfma (hs := hs) ..

theorem Safe.execFms (t : FType) (d a b : VReg) (p : Option Prefix) {s : State} (hs : Safe s) :
    SafeNext (Machine.execFms t d a b p s) := Safe.vfma (hs := hs) ..

theorem Safe.execNfma (t : FType) (d a b : VReg) (p : Option Prefix) {s : State} (hs : Safe s) :
    SafeNext (Machine.execNfma t d a b p s) := Safe.vfma (hs := hs) ..

theorem Safe.execNfms (t : FType) (d a b : VReg) (p : Option Prefix) {s : State} (hs : Safe s) :
    SafeNext (Machine.execNfms t d a b p s) := Safe.vfma (hs := hs) ..

theorem Safe.execVfpsFadd (t : FType) (d a : VReg) (b : SReg) (p : Option Prefix) {s : State} (hs : Safe s) :
    SafeNext (Machine.execVfpsFadd t d a b p s) := Safe.vfps (hs := hs) ..

theorem Safe.execVfpsFsub (t : FType) (d a : VReg) (b : SReg) (p : Option Prefix) {s : State} (hs : Safe s) :
    SafeNext (Machine.execVfpsFsub t d a b p s) := Safe.vfps (hs := hs) ..

theorem Safe.execVfpsFmul (t : FType) (d a : VReg) (b : SReg) (p : Option Prefix) {s : State} (hs : Safe s) :
    SafeNext (Machine.execVfpsFmul t d a b p s) := Safe.vfps (hs := hs) ..

theorem Safe.execVfpsFmin (t : FType) (d a : VReg) (b : SReg) (p : Option Prefix) {s : State} (hs : Safe s) :
    SafeNext (Machine.execVfpsFmin t d a b p s) := Safe.vfps (hs := hs) ..

theorem Safe.execVfpsFmax (t : FType) (d a : VReg) (b : SReg) (p : Option Prefix) {s : State} (hs : Safe s) :
    SafeNext (Machine.execVfpsFmax t d a b p s) := Safe.vfps (hs := hs) ..

theorem Safe.execVfpsFcpysgn (t : FType) (d a : VReg) (b : SReg) (p : Option Prefix) {s : State} (hs : Safe s) :
    SafeNext (Machine.execVfpsFcpysgn t d a b p s) := Safe.vfps (hs := hs) ..

theorem Safe.execVintAdd (d a b : VReg) (p : Option Prefix) {s : State} (hs : Safe s) :
    SafeNext (Machine.execVintAdd d a b p s) := Safe.vint (hs := hs) ..

theorem Safe.execVintSub (d a b : VReg) (p : Option Prefix) {s : State} (hs : Safe s) :
    SafeNext (Machine.execVintSub d a b p s) := Safe.vint (hs := hs) ..

theorem Safe.execVintMullo (d a b : VReg) (p : Option Prefix) {s : State} (hs : Safe s) :
    SafeNext (Machine.execVintMullo d a b p s) := Safe.vint (hs := hs) ..

theorem Safe.execVintMulhiS (d a b : VReg) (p : Option Prefix) {s : State} (hs : Safe s) :
    SafeNext (Machine.execVintMulhiS d a b p s) := Safe.vint (hs := hs) ..

theorem Safe.execVintMulhiU (d a b : VReg) (p : Option Prefix) {s : State} (hs : Safe s) :
    SafeNext (Machine.execVintMulhiU d a b p s) := Safe.vint (hs := hs) ..

theorem Safe.execVintAnd (d a b : VReg) (p : Option Prefix) {s : State} (hs : Safe s) :
    SafeNext (Machine.execVintAnd d a b p s) := Safe.vint (hs := hs) ..

theorem Safe.execVintOr (d a b : VReg) (p : Option Prefix) {s : State} (hs : Safe s) :
    SafeNext (Machine.execVintOr d a b p s) := Safe.vint (hs := hs) ..

theorem Safe.execVintXor (d a b : VReg) (p : Option Prefix) {s : State} (hs : Safe s) :
    SafeNext (Machine.execVintXor d a b p s) := Safe.vint (hs := hs) ..

theorem Safe.execVintAndn (d a b : VReg) (p : Option Prefix) {s : State} (hs : Safe s) :
    SafeNext (Machine.execVintAndn d a b p s) := Safe.vint (hs := hs) ..

theorem Safe.execVintShl (d a b : VReg) (p : Option Prefix) {s : State} (hs : Safe s) :
    SafeNext (Machine.execVintShl d a b p s) := Safe.vint (hs := hs) ..

theorem Safe.execVintShr (d a b : VReg) (p : Option Prefix) {s : State} (hs : Safe s) :
    SafeNext (Machine.execVintShr d a b p s) := Safe.vint (hs := hs) ..

theorem Safe.execVintSra (d a b : VReg) (p : Option Prefix) {s : State} (hs : Safe s) :
    SafeNext (Machine.execVintSra d a b p s) := Safe.vint (hs := hs) ..

theorem Safe.execVintMinS (d a b : VReg) (p : Option Prefix) {s : State} (hs : Safe s) :
    SafeNext (Machine.execVintMinS d a b p s) := Safe.vint (hs := hs) ..

theorem Safe.execVintMaxS (d a b : VReg) (p : Option Prefix) {s : State} (hs : Safe s) :
    SafeNext (Machine.execVintMaxS d a b p s) := Safe.vint (hs := hs) ..

theorem Safe.execVintMinU (d a b : VReg) (p : Option Prefix) {s : State} (hs : Safe s) :
    SafeNext (Machine.execVintMinU d a b p s) := Safe.vint (hs := hs) ..

theorem Safe.execVintMaxU (d a b : VReg) (p : Option Prefix) {s : State} (hs : Safe s) :
    SafeNext (Machine.execVintMaxU d a b p s) := Safe.vint (hs := hs) ..

theorem Safe.execVintAbs (d a : VReg) (p : Option Prefix) {s : State} (hs : Safe s) :
    SafeNext (Machine.execVintAbs d a p s) := Safe.vint1 (hs := hs) ..

theorem Safe.execVintClz (d a : VReg) (p : Option Prefix) {s : State} (hs : Safe s) :
    SafeNext (Machine.execVintClz d a p s) := Safe.vint1 (hs := hs) ..

theorem Safe.execVintPopc (d a : VReg) (p : Option Prefix) {s : State} (hs : Safe s) :
    SafeNext (Machine.execVintPopc d a p s) := Safe.vint1 (hs := hs) ..

theorem Safe.execVintBrev (d a : VReg) (p : Option Prefix) {s : State} (hs : Safe s) :
    SafeNext (Machine.execVintBrev d a p s) := Safe.vint1 (hs := hs) ..

theorem Safe.execVintsAdd (d a : VReg) (b : SReg) (p : Option Prefix) {s : State} (hs : Safe s) :
    SafeNext (Machine.execVintsAdd d a b p s) := Safe.vints (hs := hs) ..

theorem Safe.execVintsSub (d a : VReg) (b : SReg) (p : Option Prefix) {s : State} (hs : Safe s) :
    SafeNext (Machine.execVintsSub d a b p s) := Safe.vints (hs := hs) ..

theorem Safe.execVintsMullo (d a : VReg) (b : SReg) (p : Option Prefix) {s : State} (hs : Safe s) :
    SafeNext (Machine.execVintsMullo d a b p s) := Safe.vints (hs := hs) ..

theorem Safe.execVintsMulhiS (d a : VReg) (b : SReg) (p : Option Prefix) {s : State} (hs : Safe s) :
    SafeNext (Machine.execVintsMulhiS d a b p s) := Safe.vints (hs := hs) ..

theorem Safe.execVintsMulhiU (d a : VReg) (b : SReg) (p : Option Prefix) {s : State} (hs : Safe s) :
    SafeNext (Machine.execVintsMulhiU d a b p s) := Safe.vints (hs := hs) ..

theorem Safe.execVintsAnd (d a : VReg) (b : SReg) (p : Option Prefix) {s : State} (hs : Safe s) :
    SafeNext (Machine.execVintsAnd d a b p s) := Safe.vints (hs := hs) ..

theorem Safe.execVintsOr (d a : VReg) (b : SReg) (p : Option Prefix) {s : State} (hs : Safe s) :
    SafeNext (Machine.execVintsOr d a b p s) := Safe.vints (hs := hs) ..

theorem Safe.execVintsXor (d a : VReg) (b : SReg) (p : Option Prefix) {s : State} (hs : Safe s) :
    SafeNext (Machine.execVintsXor d a b p s) := Safe.vints (hs := hs) ..

theorem Safe.execVintsAndn (d a : VReg) (b : SReg) (p : Option Prefix) {s : State} (hs : Safe s) :
    SafeNext (Machine.execVintsAndn d a b p s) := Safe.vints (hs := hs) ..

theorem Safe.execVintsShl (d a : VReg) (b : SReg) (p : Option Prefix) {s : State} (hs : Safe s) :
    SafeNext (Machine.execVintsShl d a b p s) := Safe.vints (hs := hs) ..

theorem Safe.execVintsShr (d a : VReg) (b : SReg) (p : Option Prefix) {s : State} (hs : Safe s) :
    SafeNext (Machine.execVintsShr d a b p s) := Safe.vints (hs := hs) ..

theorem Safe.execVintsSra (d a : VReg) (b : SReg) (p : Option Prefix) {s : State} (hs : Safe s) :
    SafeNext (Machine.execVintsSra d a b p s) := Safe.vints (hs := hs) ..

theorem Safe.execVintsMinS (d a : VReg) (b : SReg) (p : Option Prefix) {s : State} (hs : Safe s) :
    SafeNext (Machine.execVintsMinS d a b p s) := Safe.vints (hs := hs) ..

theorem Safe.execVintsMaxS (d a : VReg) (b : SReg) (p : Option Prefix) {s : State} (hs : Safe s) :
    SafeNext (Machine.execVintsMaxS d a b p s) := Safe.vints (hs := hs) ..

theorem Safe.execVintsMinU (d a : VReg) (b : SReg) (p : Option Prefix) {s : State} (hs : Safe s) :
    SafeNext (Machine.execVintsMinU d a b p s) := Safe.vints (hs := hs) ..

theorem Safe.execVintsMaxU (d a : VReg) (b : SReg) (p : Option Prefix) {s : State} (hs : Safe s) :
    SafeNext (Machine.execVintsMaxU d a b p s) := Safe.vints (hs := hs) ..

theorem Safe.execVintiAddi (d a : VReg) (i : BitVec 10) (p : Option Prefix) (x : Option (BitVec 25)) {s : State} (hs : Safe s)
    :
    SafeNext (Machine.execVintiAddi d a i p x s) := Safe.vinti (hs := hs) ..

theorem Safe.execVintiAndi (d a : VReg) (i : BitVec 10) (p : Option Prefix) (x : Option (BitVec 25)) {s : State} (hs : Safe s)
    :
    SafeNext (Machine.execVintiAndi d a i p x s) := Safe.vinti (hs := hs) ..

theorem Safe.execVintiOri (d a : VReg) (i : BitVec 10) (p : Option Prefix) (x : Option (BitVec 25)) {s : State} (hs : Safe s)
    :
    SafeNext (Machine.execVintiOri d a i p x s) := Safe.vinti (hs := hs) ..

theorem Safe.execVintiXori (d a : VReg) (i : BitVec 10) (p : Option Prefix) (x : Option (BitVec 25)) {s : State} (hs : Safe s)
    :
    SafeNext (Machine.execVintiXori d a i p x s) := Safe.vinti (hs := hs) ..

theorem Safe.execVintiShli (d a : VReg) (i : BitVec 10) (p : Option Prefix) (x : Option (BitVec 25)) {s : State} (hs : Safe s)
    :
    SafeNext (Machine.execVintiShli d a i p x s) := Safe.vinti (hs := hs) ..

theorem Safe.execVintiShri (d a : VReg) (i : BitVec 10) (p : Option Prefix) (x : Option (BitVec 25)) {s : State} (hs : Safe s)
    :
    SafeNext (Machine.execVintiShri d a i p x s) := Safe.vinti (hs := hs) ..

theorem Safe.execVintiSrai (d a : VReg) (i : BitVec 10) (p : Option Prefix) (x : Option (BitVec 25)) {s : State} (hs : Safe s)
    :
    SafeNext (Machine.execVintiSrai d a i p x s) := Safe.vinti (hs := hs) ..

theorem Safe.execVintiMuli (d a : VReg) (i : BitVec 10) (p : Option Prefix) (x : Option (BitVec 25)) {s : State} (hs : Safe s)
    :
    SafeNext (Machine.execVintiMuli d a i p x s) := Safe.vinti (hs := hs) ..

theorem Safe.execRcp (d a : VReg) (p : Option Prefix) {s : State} (hs : Safe s) :
    SafeNext (Machine.execRcp d a p s) := Safe.vsfu (hs := hs) ..

theorem Safe.execRsq (d a : VReg) (p : Option Prefix) {s : State} (hs : Safe s) :
    SafeNext (Machine.execRsq d a p s) := Safe.vsfu (hs := hs) ..

theorem Safe.execSqrt (d a : VReg) (p : Option Prefix) {s : State} (hs : Safe s) :
    SafeNext (Machine.execSqrt d a p s) := Safe.vsfu (hs := hs) ..

theorem Safe.execEx2 (d a : VReg) (p : Option Prefix) {s : State} (hs : Safe s) :
    SafeNext (Machine.execEx2 d a p s) := Safe.vsfu (hs := hs) ..

theorem Safe.execLg2 (d a : VReg) (p : Option Prefix) {s : State} (hs : Safe s) :
    SafeNext (Machine.execLg2 d a p s) := Safe.vsfu (hs := hs) ..

theorem Safe.execSin (d a : VReg) (p : Option Prefix) {s : State} (hs : Safe s) :
    SafeNext (Machine.execSin d a p s) := Safe.vsfu (hs := hs) ..

theorem Safe.execCos (d a : VReg) (p : Option Prefix) {s : State} (hs : Safe s) :
    SafeNext (Machine.execCos d a p s) := Safe.vsfu (hs := hs) ..

theorem Safe.execTanh (d a : VReg) (p : Option Prefix) {s : State} (hs : Safe s) :
    SafeNext (Machine.execTanh d a p s) := Safe.vsfu (hs := hs) ..

theorem Safe.execVaddF32Compact (d : VReg) (b : BitVec 5) {s : State} (hs : Safe s) :
    SafeNext (Machine.execVaddF32Compact d b s) := Safe.vfp (hs := hs) ..

theorem Safe.execVsubF32Compact (d : VReg) (b : BitVec 5) {s : State} (hs : Safe s) :
    SafeNext (Machine.execVsubF32Compact d b s) := Safe.vfp (hs := hs) ..

theorem Safe.execVmulF32Compact (d : VReg) (b : BitVec 5) {s : State} (hs : Safe s) :
    SafeNext (Machine.execVmulF32Compact d b s) := Safe.vfp (hs := hs) ..

theorem Safe.execVmaxF32Compact (d : VReg) (b : BitVec 5) {s : State} (hs : Safe s) :
    SafeNext (Machine.execVmaxF32Compact d b s) := Safe.vfp (hs := hs) ..

theorem Safe.execVminF32Compact (d : VReg) (b : BitVec 5) {s : State} (hs : Safe s) :
    SafeNext (Machine.execVminF32Compact d b s) := Safe.vfp (hs := hs) ..

theorem Safe.execVaddI32Compact (d : VReg) (b : BitVec 5) {s : State} (hs : Safe s) :
    SafeNext (Machine.execVaddI32Compact d b s) := Safe.vint (hs := hs) ..

theorem Safe.execVsubI32Compact (d : VReg) (b : BitVec 5) {s : State} (hs : Safe s) :
    SafeNext (Machine.execVsubI32Compact d b s) := Safe.vint (hs := hs) ..

theorem Safe.execVandCompact (d : VReg) (b : BitVec 5) {s : State} (hs : Safe s) :
    SafeNext (Machine.execVandCompact d b s) := Safe.vint (hs := hs) ..

theorem Safe.execVorCompact (d : VReg) (b : BitVec 5) {s : State} (hs : Safe s) :
    SafeNext (Machine.execVorCompact d b s) := Safe.vint (hs := hs) ..

theorem Safe.execVxorCompact (d : VReg) (b : BitVec 5) {s : State} (hs : Safe s) :
    SafeNext (Machine.execVxorCompact d b s) := Safe.vint (hs := hs) ..

theorem Safe.execVshlCompact (d : VReg) (b : BitVec 5) {s : State} (hs : Safe s) :
    SafeNext (Machine.execVshlCompact d b s) := Safe.vint (hs := hs) ..

theorem Safe.execVshrU32Compact (d : VReg) (b : BitVec 5) {s : State} (hs : Safe s) :
    SafeNext (Machine.execVshrU32Compact d b s) := Safe.vint (hs := hs) ..

theorem Safe.execVmulLoCompact (d : VReg) (b : BitVec 5) {s : State} (hs : Safe s) :
    SafeNext (Machine.execVmulLoCompact d b s) := Safe.vint (hs := hs) ..

theorem Safe.execVmaxS32Compact (d : VReg) (b : BitVec 5) {s : State} (hs : Safe s) :
    SafeNext (Machine.execVmaxS32Compact d b s) := Safe.vint (hs := hs) ..

theorem Safe.execVminS32Compact (d : VReg) (b : BitVec 5) {s : State} (hs : Safe s) :
    SafeNext (Machine.execVminS32Compact d b s) := Safe.vint (hs := hs) ..

theorem Safe.execK2s (d : SReg) (a : KReg) (n : Fin 3) (p : Option Prefix) {s : State} (hs : Safe s) :
    SafeNext (Machine.execK2s d a n p s) := Safe.kscalar (hs := hs) ..

theorem Safe.execKpopc (d : SReg) (a : KReg) (p : Option Prefix) {s : State} (hs : Safe s) :
    SafeNext (Machine.execKpopc d a p s) := Safe.kscalar (hs := hs) ..

theorem Safe.execKfirst (d : SReg) (a : KReg) (p : Option Prefix) {s : State} (hs : Safe s) :
    SafeNext (Machine.execKfirst d a p s) := Safe.kscalar (hs := hs) ..

theorem Safe.execVmov (d a : VReg) (p : Option Prefix) {s : State} (hs : Safe s) :
    SafeNext (Machine.execVmov d a p s) := Safe.vmovOf (hs := hs) ..

theorem Safe.execVmovCompact (d : VReg) (b : BitVec 5) {s : State} (hs : Safe s) :
    SafeNext (Machine.execVmovCompact d b s) := Safe.vmovOf (hs := hs) ..

theorem Safe.execVcvtF32S32 (d a : VReg) (p : Option Prefix) {s : State} (hs : Safe s) :
    SafeNext (Machine.execVcvtF32S32 d a p s) := Safe.cvt1 (hs := hs) ..

theorem Safe.execVcvtF32U32 (d a : VReg) (p : Option Prefix) {s : State} (hs : Safe s) :
    SafeNext (Machine.execVcvtF32U32 d a p s) := Safe.cvt1 (hs := hs) ..

theorem Safe.execVcvtS32F32 (d a : VReg) (p : Option Prefix) {s : State} (hs : Safe s) :
    SafeNext (Machine.execVcvtS32F32 d a p s) := Safe.cvt1 (hs := hs) ..

theorem Safe.execVcvtU32F32 (d a : VReg) (p : Option Prefix) {s : State} (hs : Safe s) :
    SafeNext (Machine.execVcvtU32F32 d a p s) := Safe.cvt1 (hs := hs) ..

theorem Safe.execVcvtBf16F32 (d a b : VReg) (p : Option Prefix) {s : State} (hs : Safe s) :
    SafeNext (Machine.execVcvtBf16F32 d a b p s) := Safe.cvt2 (hs := hs) ..

theorem Safe.execVcvtF16F32 (d a b : VReg) (p : Option Prefix) {s : State} (hs : Safe s) :
    SafeNext (Machine.execVcvtF16F32 d a b p s) := Safe.cvt2 (hs := hs) ..

theorem Safe.execVcvtF32Bf16 (d a : VReg) (e : BitVec 1) (p : Option Prefix) {s : State} (hs : Safe s) :
    SafeNext (Machine.execVcvtF32Bf16 d a e p s) := Safe.cvt1 (hs := hs) ..

theorem Safe.execVcvtF32F16 (d a : VReg) (e : BitVec 1) (p : Option Prefix) {s : State} (hs : Safe s) :
    SafeNext (Machine.execVcvtF32F16 d a e p s) := Safe.cvt1 (hs := hs) ..

theorem Safe.execVredFadd (d : SReg) (a : VReg) (p : Option Prefix) {s : State} (hs : Safe s) :
    SafeNext (Machine.execVredFadd d a p s) := Safe.vred (hs := hs) ..

theorem Safe.execVredFmin (d : SReg) (a : VReg) (p : Option Prefix) {s : State} (hs : Safe s) :
    SafeNext (Machine.execVredFmin d a p s) := Safe.vred (hs := hs) ..

theorem Safe.execVredFmax (d : SReg) (a : VReg) (p : Option Prefix) {s : State} (hs : Safe s) :
    SafeNext (Machine.execVredFmax d a p s) := Safe.vred (hs := hs) ..

theorem Safe.execVredIadd (d : SReg) (a : VReg) (p : Option Prefix) {s : State} (hs : Safe s) :
    SafeNext (Machine.execVredIadd d a p s) := Safe.vred (hs := hs) ..

theorem Safe.execVredIminS (d : SReg) (a : VReg) (p : Option Prefix) {s : State} (hs : Safe s) :
    SafeNext (Machine.execVredIminS d a p s) := Safe.vred (hs := hs) ..

theorem Safe.execVredImaxS (d : SReg) (a : VReg) (p : Option Prefix) {s : State} (hs : Safe s) :
    SafeNext (Machine.execVredImaxS d a p s) := Safe.vred (hs := hs) ..

theorem Safe.execVscanFadd (d a : VReg) (b : SReg) (p : Option Prefix) {s : State} (hs : Safe s) :
    SafeNext (Machine.execVscanFadd d a b p s) := Safe.vscan (hs := hs) ..

theorem Safe.execVscanIadd (d a : VReg) (b : SReg) (p : Option Prefix) {s : State} (hs : Safe s) :
    SafeNext (Machine.execVscanIadd d a b p s) := Safe.vscan (hs := hs) ..

theorem Safe.execKand (d a b : KReg) (p : Option Prefix) {s : State} (hs : Safe s) :
    SafeNext (Machine.execKand d a b p s) := Safe.kop2 (hs := hs) ..

theorem Safe.execKor (d a b : KReg) (p : Option Prefix) {s : State} (hs : Safe s) :
    SafeNext (Machine.execKor d a b p s) := Safe.kop2 (hs := hs) ..

theorem Safe.execKxor (d a b : KReg) (p : Option Prefix) {s : State} (hs : Safe s) :
    SafeNext (Machine.execKxor d a b p s) := Safe.kop2 (hs := hs) ..

theorem Safe.execKandn (d a b : KReg) (p : Option Prefix) {s : State} (hs : Safe s) :
    SafeNext (Machine.execKandn d a b p s) := Safe.kop2 (hs := hs) ..

theorem Safe.execKnot (d a : KReg) (p : Option Prefix) {s : State} (hs : Safe s) :
    SafeNext (Machine.execKnot d a p s) := Safe.kop1 (hs := hs) ..

theorem Safe.execKmov (d a : KReg) (p : Option Prefix) {s : State} (hs : Safe s) :
    SafeNext (Machine.execKmov d a p s) := Safe.kop1 (hs := hs) ..

theorem Safe.execVld (d : VReg) (r : SReg) (x : VReg) (st : StreamNo) (z : MemSize) (e : Option (BitVec 25)) {s : State}
    (hs : Safe s) :
    SafeNext (Machine.execVld d r x st z e s) := Safe.memIssue (hs := hs) ..

theorem Safe.execVst (d : VReg) (r : SReg) (x : VReg) (st : StreamNo) (z : MemSize) (e : Option (BitVec 25)) {s : State}
    (hs : Safe s) :
    SafeNext (Machine.execVst d r x st z e s) := Safe.memIssue (hs := hs) ..

theorem Safe.execVlda (d : VReg) (r : SReg) (x : VReg) (st : StreamNo) (z : MemSize) (e : Option (BitVec 25)) {s : State}
    (hs : Safe s) :
    SafeNext (Machine.execVlda d r x st z e s) := Safe.memIssue (hs := hs) ..

theorem Safe.execVstr (d : VReg) (r : SReg) (x : VReg) (st : StreamNo) (z : MemSize) (e : Option (BitVec 25)) {s : State}
    (hs : Safe s) :
    SafeNext (Machine.execVstr d r x st z e s) := Safe.memIssue (hs := hs) ..

theorem Safe.execSld (d r x : SReg) (st : StreamNo) (z : SMemSize) (e : Option (BitVec 25)) {s : State} (hs : Safe s) :
    SafeNext (Machine.execSld d r x st z e s) := Safe.memIssue (hs := hs) ..

theorem Safe.execSst (d r x : SReg) (st : StreamNo) (z : SMemSize) (e : Option (BitVec 25)) {s : State} (hs : Safe s) :
    SafeNext (Machine.execSst d r x st z e s) := Safe.memIssue (hs := hs) ..

theorem Safe.execSlda (d r x : SReg) (st : StreamNo) (z : SMemSize) (e : Option (BitVec 25)) {s : State} (hs : Safe s) :
    SafeNext (Machine.execSlda d r x st z e s) := Safe.memIssue (hs := hs) ..

theorem Safe.execSstr (d r x : SReg) (st : StreamNo) (z : SMemSize) (e : Option (BitVec 25)) {s : State} (hs : Safe s) :
    SafeNext (Machine.execSstr d r x st z e s) := Safe.memIssue (hs := hs) ..

theorem Safe.execVatomAdd (d : VReg) (r : SReg) (x : VReg) (st : StreamNo) (e : Option (BitVec 25)) {s : State} (hs : Safe s)
    :
    SafeNext (Machine.execVatomAdd d r x st e s) := Safe.memIssue (hs := hs) ..

theorem Safe.execVatomAnd (d : VReg) (r : SReg) (x : VReg) (st : StreamNo) (e : Option (BitVec 25)) {s : State} (hs : Safe s)
    :
    SafeNext (Machine.execVatomAnd d r x st e s) := Safe.memIssue (hs := hs) ..

theorem Safe.execVatomOr (d : VReg) (r : SReg) (x : VReg) (st : StreamNo) (e : Option (BitVec 25)) {s : State} (hs : Safe s) :
    SafeNext (Machine.execVatomOr d r x st e s) := Safe.memIssue (hs := hs) ..

theorem Safe.execVatomXor (d : VReg) (r : SReg) (x : VReg) (st : StreamNo) (e : Option (BitVec 25)) {s : State} (hs : Safe s)
    :
    SafeNext (Machine.execVatomXor d r x st e s) := Safe.memIssue (hs := hs) ..

theorem Safe.execVatomMinS (d : VReg) (r : SReg) (x : VReg) (st : StreamNo) (e : Option (BitVec 25)) {s : State} (hs : Safe s)
    :
    SafeNext (Machine.execVatomMinS d r x st e s) := Safe.memIssue (hs := hs) ..

theorem Safe.execVatomMaxS (d : VReg) (r : SReg) (x : VReg) (st : StreamNo) (e : Option (BitVec 25)) {s : State} (hs : Safe s)
    :
    SafeNext (Machine.execVatomMaxS d r x st e s) := Safe.memIssue (hs := hs) ..

theorem Safe.execVatomXchg (d : VReg) (r : SReg) (x : VReg) (st : StreamNo) (e : Option (BitVec 25)) {s : State} (hs : Safe s)
    :
    SafeNext (Machine.execVatomXchg d r x st e s) := Safe.memIssue (hs := hs) ..

theorem Safe.execVatomCas (d : VReg) (r : SReg) (x : VReg) (st : StreamNo) (e : Option (BitVec 25)) {s : State} (hs : Safe s)
    :
    SafeNext (Machine.execVatomCas d r x st e s) := Safe.memIssue (hs := hs) ..

theorem Safe.execVatomfFadd (d : VReg) (r : SReg) (x : VReg) (st : StreamNo) (e : Option (BitVec 25)) {s : State}
    (hs : Safe s) :
    SafeNext (Machine.execVatomfFadd d r x st e s) := Safe.memIssue (hs := hs) ..

theorem Safe.execVatomfFmin (d : VReg) (r : SReg) (x : VReg) (st : StreamNo) (e : Option (BitVec 25)) {s : State}
    (hs : Safe s) :
    SafeNext (Machine.execVatomfFmin d r x st e s) := Safe.memIssue (hs := hs) ..

theorem Safe.execVatomfFmax (d : VReg) (r : SReg) (x : VReg) (st : StreamNo) (e : Option (BitVec 25)) {s : State}
    (hs : Safe s) :
    SafeNext (Machine.execVatomfFmax d r x st e s) := Safe.memIssue (hs := hs) ..

theorem Safe.execVatomfMinU (d : VReg) (r : SReg) (x : VReg) (st : StreamNo) (e : Option (BitVec 25)) {s : State}
    (hs : Safe s) :
    SafeNext (Machine.execVatomfMinU d r x st e s) := Safe.memIssue (hs := hs) ..

theorem Safe.execVatomfMaxU (d : VReg) (r : SReg) (x : VReg) (st : StreamNo) (e : Option (BitVec 25)) {s : State}
    (hs : Safe s) :
    SafeNext (Machine.execVatomfMaxU d r x st e s) := Safe.memIssue (hs := hs) ..

theorem Safe.execVatomfIncw (d : VReg) (r : SReg) (x : VReg) (st : StreamNo) (e : Option (BitVec 25)) {s : State}
    (hs : Safe s) :
    SafeNext (Machine.execVatomfIncw d r x st e s) := Safe.memIssue (hs := hs) ..

theorem Safe.execVatomfDecw (d : VReg) (r : SReg) (x : VReg) (st : StreamNo) (e : Option (BitVec 25)) {s : State}
    (hs : Safe s) :
    SafeNext (Machine.execVatomfDecw d r x st e s) := Safe.memIssue (hs := hs) ..

theorem Safe.execSatomAdd (d r x : SReg) (st : StreamNo) (e : Option (BitVec 25)) {s : State} (hs : Safe s) :
    SafeNext (Machine.execSatomAdd d r x st e s) := Safe.memIssue (hs := hs) ..

theorem Safe.execSatomAnd (d r x : SReg) (st : StreamNo) (e : Option (BitVec 25)) {s : State} (hs : Safe s) :
    SafeNext (Machine.execSatomAnd d r x st e s) := Safe.memIssue (hs := hs) ..

theorem Safe.execSatomOr (d r x : SReg) (st : StreamNo) (e : Option (BitVec 25)) {s : State} (hs : Safe s) :
    SafeNext (Machine.execSatomOr d r x st e s) := Safe.memIssue (hs := hs) ..

theorem Safe.execSatomXor (d r x : SReg) (st : StreamNo) (e : Option (BitVec 25)) {s : State} (hs : Safe s) :
    SafeNext (Machine.execSatomXor d r x st e s) := Safe.memIssue (hs := hs) ..

theorem Safe.execSatomMinS (d r x : SReg) (st : StreamNo) (e : Option (BitVec 25)) {s : State} (hs : Safe s) :
    SafeNext (Machine.execSatomMinS d r x st e s) := Safe.memIssue (hs := hs) ..

theorem Safe.execSatomMaxS (d r x : SReg) (st : StreamNo) (e : Option (BitVec 25)) {s : State} (hs : Safe s) :
    SafeNext (Machine.execSatomMaxS d r x st e s) := Safe.memIssue (hs := hs) ..

theorem Safe.execSatomXchg (d r x : SReg) (st : StreamNo) (e : Option (BitVec 25)) {s : State} (hs : Safe s) :
    SafeNext (Machine.execSatomXchg d r x st e s) := Safe.memIssue (hs := hs) ..

theorem Safe.execSatomCas (d r x : SReg) (st : StreamNo) (e : Option (BitVec 25)) {s : State} (hs : Safe s) :
    SafeNext (Machine.execSatomCas d r x st e s) := Safe.memIssue (hs := hs) ..

theorem Safe.execAdd (d a b : SReg) {s : State} (hs : Safe s) : SafeNext (Machine.execAdd d a b s) := Safe.salu (hs := hs) ..

theorem Safe.execSub (d a b : SReg) {s : State} (hs : Safe s) : SafeNext (Machine.execSub d a b s) := Safe.salu (hs := hs) ..

theorem Safe.execAnd (d a b : SReg) {s : State} (hs : Safe s) : SafeNext (Machine.execAnd d a b s) := Safe.salu (hs := hs) ..

theorem Safe.execOr (d a b : SReg) {s : State} (hs : Safe s) : SafeNext (Machine.execOr d a b s) := Safe.salu (hs := hs) ..

theorem Safe.execXor (d a b : SReg) {s : State} (hs : Safe s) : SafeNext (Machine.execXor d a b s) := Safe.salu (hs := hs) ..

theorem Safe.execShl (d a b : SReg) {s : State} (hs : Safe s) : SafeNext (Machine.execShl d a b s) := Safe.salu (hs := hs) ..

theorem Safe.execShr (d a b : SReg) {s : State} (hs : Safe s) : SafeNext (Machine.execShr d a b s) := Safe.salu (hs := hs) ..

theorem Safe.execSra (d a b : SReg) {s : State} (hs : Safe s) : SafeNext (Machine.execSra d a b s) := Safe.salu (hs := hs) ..

theorem Safe.execMin (d a b : SReg) {s : State} (hs : Safe s) : SafeNext (Machine.execMin d a b s) := Safe.salu (hs := hs) ..

theorem Safe.execMax (d a b : SReg) {s : State} (hs : Safe s) : SafeNext (Machine.execMax d a b s) := Safe.salu (hs := hs) ..

theorem Safe.execMinu (d a b : SReg) {s : State} (hs : Safe s) :
    SafeNext (Machine.execMinu d a b s) := Safe.salu (hs := hs) ..

theorem Safe.execMaxu (d a b : SReg) {s : State} (hs : Safe s) :
    SafeNext (Machine.execMaxu d a b s) := Safe.salu (hs := hs) ..

theorem Safe.execSlt (d a b : SReg) {s : State} (hs : Safe s) : SafeNext (Machine.execSlt d a b s) := Safe.salu (hs := hs) ..

theorem Safe.execSltu (d a b : SReg) {s : State} (hs : Safe s) :
    SafeNext (Machine.execSltu d a b s) := Safe.salu (hs := hs) ..

theorem Safe.execSeq (d a b : SReg) {s : State} (hs : Safe s) : SafeNext (Machine.execSeq d a b s) := Safe.salu (hs := hs) ..

theorem Safe.execSne (d a b : SReg) {s : State} (hs : Safe s) : SafeNext (Machine.execSne d a b s) := Safe.salu (hs := hs) ..

theorem Safe.execMul (d a b : SReg) {s : State} (hs : Safe s) : SafeNext (Machine.execMul d a b s) := Safe.salu (hs := hs) ..

theorem Safe.execMulh (d a b : SReg) {s : State} (hs : Safe s) :
    SafeNext (Machine.execMulh d a b s) := Safe.salu (hs := hs) ..

theorem Safe.execMulhu (d a b : SReg) {s : State} (hs : Safe s) :
    SafeNext (Machine.execMulhu d a b s) := Safe.salu (hs := hs) ..

theorem Safe.execDiv (d a b : SReg) {s : State} (hs : Safe s) : SafeNext (Machine.execDiv d a b s) := Safe.salu (hs := hs) ..

theorem Safe.execDivu (d a b : SReg) {s : State} (hs : Safe s) :
    SafeNext (Machine.execDivu d a b s) := Safe.salu (hs := hs) ..

theorem Safe.execRem (d a b : SReg) {s : State} (hs : Safe s) : SafeNext (Machine.execRem d a b s) := Safe.salu (hs := hs) ..

theorem Safe.execRemu (d a b : SReg) {s : State} (hs : Safe s) :
    SafeNext (Machine.execRemu d a b s) := Safe.salu (hs := hs) ..

theorem Safe.execClz (d a : SReg) {s : State} (hs : Safe s) : SafeNext (Machine.execClz d a s) := Safe.scalar1 (hs := hs) ..

theorem Safe.execPopc (d a : SReg) {s : State} (hs : Safe s) : SafeNext (Machine.execPopc d a s) := Safe.scalar1 (hs := hs) ..

theorem Safe.salui (f : Word → Word → Word) (d a : SReg) (i : BitVec 10) (x : Option (BitVec 25)) {s : State} (hs : Safe s) :
    SafeNext (Machine.salui f d a i x s) := Safe.scalar1 (hs := hs) ..

theorem Safe.execBrEqz (a : SReg) (o : BitVec 16) (x : Option (BitVec 25)) {s : State} (hs : Safe s) :
    SafeNext (Machine.execBrEqz a o x s) := Safe.branch (hs := hs) ..

theorem Safe.execBrNez (a : SReg) (o : BitVec 16) (x : Option (BitVec 25)) {s : State} (hs : Safe s) :
    SafeNext (Machine.execBrNez a o x s) := Safe.branch (hs := hs) ..

theorem Safe.execBrLtz (a : SReg) (o : BitVec 16) (x : Option (BitVec 25)) {s : State} (hs : Safe s) :
    SafeNext (Machine.execBrLtz a o x s) := Safe.branch (hs := hs) ..

theorem Safe.execBrGez (a : SReg) (o : BitVec 16) (x : Option (BitVec 25)) {s : State} (hs : Safe s) :
    SafeNext (Machine.execBrGez a o x s) := Safe.branch (hs := hs) ..

theorem Safe.execBrGtz (a : SReg) (o : BitVec 16) (x : Option (BitVec 25)) {s : State} (hs : Safe s) :
    SafeNext (Machine.execBrGtz a o x s) := Safe.branch (hs := hs) ..

theorem Safe.execBrLez (a : SReg) (o : BitVec 16) (x : Option (BitVec 25)) {s : State} (hs : Safe s) :
    SafeNext (Machine.execBrLez a o x s) := Safe.branch (hs := hs) ..

end Sys2Proof
end

section
/-! O47: memory stays canonical under instructions that go through several layers, `exec`, and a step. A lemma uses those of
the layers before its own only; within a layer the lemmas stand in the order of the model. -/
namespace Sys2Proof
open Sys2Proof.Machine

theorem Safe.execVcmpEqS32 (d : KReg) (a b : VReg) (p : Option Prefix) {s : State} (hs : Safe s) :
    SafeNext (Machine.execVcmpEqS32 d a b p s) := Safe.vcmpI (hs := hs) ..

theorem Safe.execVcmpNeS32 (d : KReg) (a b : VReg) (p : Option Prefix) {s : State} (hs : Safe s) :
    SafeNext (Machine.execVcmpNeS32 d a b p s) := Safe.vcmpI (hs := hs) ..

theorem Safe.execVcmpLtS32 (d : KReg) (a b : VReg) (p : Option Prefix) {s : State} (hs : Safe s) :
    SafeNext (Machine.execVcmpLtS32 d a b p s) := Safe.vcmpI (hs := hs) ..

theorem Safe.execVcmpLeS32 (d : KReg) (a b : VReg) (p : Option Prefix) {s : State} (hs : Safe s) :
    SafeNext (Machine.execVcmpLeS32 d a b p s) := Safe.vcmpI (hs := hs) ..

theorem Safe.execVcmpGtS32 (d : KReg) (a b : VReg) (p : Option Prefix) {s : State} (hs : Safe s) :
    SafeNext (Machine.execVcmpGtS32 d a b p s) := Safe.vcmpI (hs := hs) ..

theorem Safe.execVcmpGeS32 (d : KReg) (a b : VReg) (p : Option Prefix) {s : State} (hs : Safe s) :
    SafeNext (Machine.execVcmpGeS32 d a b p s) := Safe.vcmpI (hs := hs) ..

theorem Safe.execVcmpEqU32 (d : KReg) (a b : VReg) (p : Option Prefix) {s : State} (hs : Safe s) :
    SafeNext (Machine.execVcmpEqU32 d a b p s) := Safe.vcmpI (hs := hs) ..

theorem Safe.execVcmpNeU32 (d : KReg) (a b : VReg) (p : Option Prefix) {s : State} (hs : Safe s) :
    SafeNext (Machine.execVcmpNeU32 d a b p s) := Safe.vcmpI (hs := hs) ..

theorem Safe.execVcmpLtU32 (d : KReg) (a b : VReg) (p : Option Prefix) {s : State} (hs : Safe s) :
    SafeNext (Machine.execVcmpLtU32 d a b p s) := Safe.vcmpI (hs := hs) ..

theorem Safe.execVcmpLeU32 (d : KReg) (a b : VReg) (p : Option Prefix) {s : State} (hs : Safe s) :
    SafeNext (Machine.execVcmpLeU32 d a b p s) := Safe.vcmpI (hs := hs) ..

theorem Safe.execVcmpGtU32 (d : KReg) (a b : VReg) (p : Option Prefix) {s : State} (hs : Safe s) :
    SafeNext (Machine.execVcmpGtU32 d a b p s) := Safe.vcmpI (hs := hs) ..

theorem Safe.execVcmpGeU32 (d : KReg) (a b : VReg) (p : Option Prefix) {s : State} (hs : Safe s) :
    SafeNext (Machine.execVcmpGeU32 d a b p s) := Safe.vcmpI (hs := hs) ..

theorem Safe.execVcmpEqF32 (d : KReg) (a b : VReg) (p : Option Prefix) {s : State} (hs : Safe s) :
    SafeNext (Machine.execVcmpEqF32 d a b p s) := Safe.vcmpF (hs := hs) ..

theorem Safe.execVcmpNeF32 (d : KReg) (a b : VReg) (p : Option Prefix) {s : State} (hs : Safe s) :
    SafeNext (Machine.execVcmpNeF32 d a b p s) := Safe.vcmpF (hs := hs) ..

theorem Safe.execVcmpLtF32 (d : KReg) (a b : VReg) (p : Option Prefix) {s : State} (hs : Safe s) :
    SafeNext (Machine.execVcmpLtF32 d a b p s) := Safe.vcmpF (hs := hs) ..

theorem Safe.execVcmpLeF32 (d : KReg) (a b : VReg) (p : Option Prefix) {s : State} (hs : Safe s) :
    SafeNext (Machine.execVcmpLeF32 d a b p s) := Safe.vcmpF (hs := hs) ..

theorem Safe.execVcmpGtF32 (d : KReg) (a b : VReg) (p : Option Prefix) {s : State} (hs : Safe s) :
    SafeNext (Machine.execVcmpGtF32 d a b p s) := Safe.vcmpF (hs := hs) ..

theorem Safe.execVcmpGeF32 (d : KReg) (a b : VReg) (p : Option Prefix) {s : State} (hs : Safe s) :
    SafeNext (Machine.execVcmpGeF32 d a b p s) := Safe.vcmpF (hs := hs) ..

theorem Safe.execVcmpUnord (d : KReg) (a b : VReg) (p : Option Prefix) {s : State} (hs : Safe s) :
    SafeNext (Machine.execVcmpUnord d a b p s) := Safe.vcmpF (hs := hs) ..

theorem Safe.execAddi (d a : SReg) (i : BitVec 10) (x : Option (BitVec 25)) {s : State} (hs : Safe s) :
    SafeNext (Machine.execAddi d a i x s) := Safe.salui (hs := hs) ..

theorem Safe.execAndi (d a : SReg) (i : BitVec 10) (x : Option (BitVec 25)) {s : State} (hs : Safe s) :
    SafeNext (Machine.execAndi d a i x s) := Safe.salui (hs := hs) ..

theorem Safe.execOri (d a : SReg) (i : BitVec 10) (x : Option (BitVec 25)) {s : State} (hs : Safe s) :
    SafeNext (Machine.execOri d a i x s) := Safe.salui (hs := hs) ..

theorem Safe.execXori (d a : SReg) (i : BitVec 10) (x : Option (BitVec 25)) {s : State} (hs : Safe s) :
    SafeNext (Machine.execXori d a i x s) := Safe.salui (hs := hs) ..

theorem Safe.execShli (d a : SReg) (i : BitVec 10) (x : Option (BitVec 25)) {s : State} (hs : Safe s) :
    SafeNext (Machine.execShli d a i x s) := Safe.salui (hs := hs) ..

theorem Safe.execShri (d a : SReg) (i : BitVec 10) (x : Option (BitVec 25)) {s : State} (hs : Safe s) :
    SafeNext (Machine.execShri d a i x s) := Safe.salui (hs := hs) ..

theorem Safe.execSrai (d a : SReg) (i : BitVec 10) (x : Option (BitVec 25)) {s : State} (hs : Safe s) :
    SafeNext (Machine.execSrai d a i x s) := Safe.salui (hs := hs) ..

theorem Safe.execSlti (d a : SReg) (i : BitVec 10) (x : Option (BitVec 25)) {s : State} (hs : Safe s) :
    SafeNext (Machine.execSlti d a i x s) := Safe.salui (hs := hs) ..

theorem Safe.exec (i : Instr) {s : State} (hs : Safe s) : SafeNext (Machine.exec i s) :=
  match i with
  | .stackTrap => Safe.execStackTrap hs
  | .reconvergence => Safe.execReconvergence hs
  | .loadComplete id u => Safe.execLoadComplete id u hs
  | .l2Fill id g => Safe.execL2Fill id g hs
  | .translate id => Safe.execTranslate id hs
  | .walkComplete id => Safe.execWalkComplete id hs
  | .fetchMiss m => Safe.execFetchMiss m hs
  | .fetchFill id u => Safe.execFetchFill id u hs
  | .dbell core names pa data => Safe.execDbell core names pa data hs
  | .launchArrival vi q => Safe.execLaunchArrival vi q hs
  | .eligibilityCheck => Safe.execEligibilityCheck hs
  | .graphActivate id => Safe.execGraphActivate id hs
  | .placementDecision p => Safe.execPlacementDecision p hs
  | .discardComplete wg => Safe.execDiscardComplete wg hs
  | .graceExpiry wg => Safe.execGraceExpiry wg hs
  | .suspendedRestore wg => Safe.execSuspendedRestore wg hs
  | .nodeFlush graph node => Safe.execNodeFlush graph node hs
  | .windowEvaluation c => Safe.execWindowEvaluation c hs
  | .keepingEnd core => Safe.execKeepingEnd core hs
  | .matrixAdmit c => Safe.execMatrixAdmit c hs
  | .passEnd c cell => Safe.execPassEnd c cell hs
  | .mmaComplete c op u => Safe.execMmaComplete c op u hs
  | .sequencerEnqueue t => Safe.execSequencerEnqueue t hs
  | .engineComplete id => Safe.execEngineComplete id hs
  | .nodeFire c n => Safe.execNodeFire c n hs
  | .nodeComplete c n => Safe.execNodeComplete c n hs
  | .collStep wg => Safe.execCollStep wg hs
  | .collAbort wg reason => Safe.execCollAbort wg reason hs
  | .mergeCommit die => Safe.execMergeCommit die hs
  | .stkcfgWrite c v => Safe.execStkcfgWrite c v hs
  | .chrycfgWrite die v => Safe.execChrycfgWrite die v hs
  | .accownerWrite c v => Safe.execAccownerWrite c v hs
  | .accliveWrite c h v => Safe.execAccliveWrite c h v hs
  | .preempt p tag vi launch => Safe.execPreempt p tag vi launch hs
  | .savereg p tag vi asid pa => Safe.execSavereg p tag vi asid pa hs
  | .vienable p tag vi en => Safe.execVienable p tag vi en hs
  | .stop p tag name => Safe.execStop p tag name hs
  | .replay p tag name => Safe.execReplay p tag name hs
  | .setgrace p tag us => Safe.execSetgrace p tag us hs
  | .vminread p tag region layer clear => Safe.execVminread p tag region layer clear hs
  | .viwrite p tag vi pa => Safe.execViwrite p tag vi pa hs
  | .viread p tag vi pa => Safe.execViread p tag vi pa hs
  | .reservedCommand p tag code => Safe.execReservedCommand p tag code hs
  | .sessionOpen vi o => Safe.execSessionOpen vi o hs
  | .purge vi e => Safe.execPurge vi e hs
  | .resume vi e => Safe.execResume vi e hs
  | .fotset vi e => Safe.execFotset vi e hs
  | .sample unit => Safe.execSample unit hs
  | .limitDrain unit bank => Safe.execLimitDrain unit bank hs
  | .tableDrain unit => Safe.execTableDrain unit hs
  | .dataFlit port f => Safe.execDataFlit port f hs
  | .ackFlit port f => Safe.execAckFlit port f hs
  | .nakFlit port f => Safe.execNakFlit port f hs
  | .idleFlit port f => Safe.execIdleFlit port f hs
  | .write port h rva xid poison data => Safe.execWrite port h rva xid poison data hs
  | .caddPacket port h rva v xid => Safe.execCaddPacket port h rva v xid hs
  | .csetPacket port h rva v xid => Safe.execCsetPacket port h rva v xid hs
  | .cmax port h rva v xid => Safe.execCmax port h rva v xid hs
  | .ack port h xid status => Safe.execAck port h xid status hs
  | .undeliv port h dropped xid reason time => Safe.execUndeliv port h dropped xid reason time hs
  | .linkdown port h dev down reason time => Safe.execLinkdown port h dev down reason time hs
  | .rtwrite port h index rid data => Safe.execRtwrite port h index rid data hs
  | .rtread port h index rid data => Safe.execRtread port h index rid data hs
  | .rtreada port h index rid data => Safe.execRtreada port h index rid data hs
  | .keywrite port h index rid data => Safe.execKeywrite port h index rid data hs
  | .keyread port h index rid data => Safe.execKeyread port h index rid data hs
  | .commit port h index rid data => Safe.execCommit port h index rid data hs
  | .subwrite port h index rid data => Safe.execSubwrite port h index rid data hs
  | .subread port h index rid data => Safe.execSubread port h index rid data hs
  | .portdown port h index rid data => Safe.execPortdown port h index rid data hs
  | .portDown port reason => Safe.execPortDown port reason hs
  | .undeliverableTimeout xid => Safe.execUndeliverableTimeout xid hs
  | .orderedHoldExpiry src flow => Safe.execOrderedHoldExpiry src flow hs
  | .undervoltage region layer mv => Safe.execUndervoltage region layer mv hs
  | .regulatorFault region layer mv => Safe.execRegulatorFault region layer mv hs
  | .deviceReset => Safe.execDeviceReset hs
  | .verify => Safe.execVerify hs
  | .memtrain failed => Safe.execMemtrain failed hs
  | .lanemap r => Safe.execLanemap r hs
  | .firmwareUpdate image => Safe.execFirmwareUpdate image hs
  | .partitionMapWrite image => Safe.execPartitionMapWrite image hs
  | .illegalSequence sub val => Safe.execIllegalSequence sub val hs
  | .clk => Safe.execClk hs
  | .storePerformed id u => Safe.execStorePerformed id u hs
  | .ringHeadAdvance vi asid => Safe.execRingHeadAdvance vi asid hs
  | .bandwidthWindow die => Safe.execBandwidthWindow die hs
  | .voltageMinimum region layer mv => Safe.execVoltageMinimum region layer mv hs
  | .add d a b => Safe.execAdd d a b hs
  | .sub d a b => Safe.execSub d a b hs
  | .and d a b => Safe.execAnd d a b hs
  | .or d a b => Safe.execOr d a b hs
  | .xor d a b => Safe.execXor d a b hs
  | .shl d a b => Safe.execShl d a b hs
  | .shr d a b => Safe.execShr d a b hs
  | .sra d a b => Safe.execSra d a b hs
  | .min d a b => Safe.execMin d a b hs
  | .max d a b => Safe.execMax d a b hs
  | .minu d a b => Safe.execMinu d a b hs
  | .maxu d a b => Safe.execMaxu d a b hs
  | .slt d a b => Safe.execSlt d a b hs
  | .sltu d a b => Safe.execSltu d a b hs
  | .seq d a b => Safe.execSeq d a b hs
  | .sne d a b => Safe.execSne d a b hs
  | .mul d a b => Safe.execMul d a b hs
  | .mulh d a b => Safe.execMulh d a b hs
  | .mulhu d a b => Safe.execMulhu d a b hs
  | .div d a b => Safe.execDiv d a b hs
  | .divu d a b => Safe.execDivu d a b hs
  | .rem d a b => Safe.execRem d a b hs
  | .remu d a b => Safe.execRemu d a b hs
  | .clz d a => Safe.execClz d a hs
  | .popc d a => Safe.execPopc d a hs
  | .addi d a imm x => Safe.execAddi d a imm x hs
  | .andi d a imm x => Safe.execAndi d a imm x hs
  | .ori d a imm x => Safe.execOri d a imm x hs
  | .xori d a imm x => Safe.execXori d a imm x hs
  | .shli d a imm x => Safe.execShli d a imm x hs
  | .shri d a imm x => Safe.execShri d a imm x hs
  | .srai d a imm x => Safe.execSrai d a imm x hs
  | .slti d a imm x => Safe.execSlti d a imm x hs
  | .sli d imm x => Safe.execSli d imm x hs
  | .brEqz a o x => Safe.execBrEqz a o x hs
  | .brNez a o x => Safe.execBrNez a o x hs
  | .brLtz a o x => Safe.execBrLtz a o x hs
  | .brGez a o x => Safe.execBrGez a o x hs
  | .brGtz a o x => Safe.execBrGtz a o x hs
  | .brLez a o x => Safe.execBrLez a o x hs
  | .jmp o x => Safe.execJmp o x hs
  | .call o x => Safe.execCall o x hs
  | .jr a => Safe.execJr a hs
  | .callr a => Safe.execCallr a hs
  | .ret => Safe.execRet hs
  | .vbr k t j => Safe.execVbr k t j hs
  | .vbrN k t j => Safe.execVbrN k t j hs
  | .kbrAny k o x => Safe.execKbrAny k o x hs
  | .kbrAll k o x => Safe.execKbrAll k o x hs
  | .kbrNone k o x => Safe.execKbrNone k o x hs
  | .nop => Safe.execNop hs
  | .srd d n => Safe.execSrd d n hs
  | .swr n a => Safe.execSwr n a hs
  | .trap a => Safe.execTrap a hs
  | .eret => Safe.execEret hs
  | .bkpt => Safe.execBkpt hs
  | .yield => Safe.execYield hs
  | .exit => Safe.execExit hs
  | .setfmt d a => Safe.execSetfmt d a hs
  | .scfg a h => Safe.execScfg a h hs
  | .waitcyc a => Safe.execWaitcyc a hs
  | .barInit n a => Safe.execBarInit n a hs
  | .barArrive d n rlx => Safe.execBarArrive d n rlx hs
  | .barWait d n a => Safe.execBarWait d n a hs
  | .barAw d n rlx => Safe.execBarAw d n rlx hs
  | .barTest d n a => Safe.execBarTest d n a hs
  | .barExpect n a post => Safe.execBarExpect n a post hs
  | .fenceX a => Safe.execFenceX a hs
  | .fenceS a sc => Safe.execFenceS a sc hs
  | .qbind p a => Safe.execQbind p a hs
  | .qtry d p => Safe.execQtry d p hs
  | .qstat d p => Safe.execQstat d p hs
  | .region => Safe.execRegion hs
  | .rclose => Safe.execRclose hs
  | .vfpFadd t d a b p => Safe.execVfpFadd t d a b p hs
  | .vfpFsub t d a b p => Safe.execVfpFsub t d a b p hs
  | .vfpFmul t d a b p => Safe.execVfpFmul t d a b p hs
  | .vfpFmin t d a b p => Safe.execVfpFmin t d a b p hs
  | .vfpFmax t d a b p => Safe.execVfpFmax t d a b p hs
  | .vfpFabs t d a p => Safe.execVfpFabs t d a p hs
  | .vfpFneg t d a p => Safe.execVfpFneg t d a p hs
  | .vfpFcpysgn t d a b p => Safe.execVfpFcpysgn t d a b p hs
  | .fma t d a b p => Safe.execFma t d a b p hs
  | .fms t d a b p => Safe.execFms t d a b p hs
  | .nfma t d a b p => Safe.execNfma t d a b p hs
  | .nfms t d a b p => Safe.execNfms t d a b p hs
  | .vfpsFadd t d a b p => Safe.execVfpsFadd t d a b p hs
  | .vfpsFsub t d a b p => Safe.execVfpsFsub t d a b p hs
  | .vfpsFmul t d a b p => Safe.execVfpsFmul t d a b p hs
  | .vfpsFmin t d a b p => Safe.execVfpsFmin t d a b p hs
  | .vfpsFmax t d a b p => Safe.execVfpsFmax t d a b p hs
  | .vfpsFcpysgn t d a b p => Safe.execVfpsFcpysgn t d a b p hs
  | .vintAdd d a b p => Safe.execVintAdd d a b p hs
  | .vintSub d a b p => Safe.execVintSub d a b p hs
  | .vintMullo d a b p => Safe.execVintMullo d a b p hs
  | .vintMulhiS d a b p => Safe.execVintMulhiS d a b p hs
  | .vintMulhiU d a b p => Safe.execVintMulhiU d a b p hs
  | .vintAnd d a b p => Safe.execVintAnd d a b p hs
  | .vintOr d a b p => Safe.execVintOr d a b p hs
  | .vintXor d a b p => Safe.execVintXor d a b p hs
  | .vintAndn d a b p => Safe.execVintAndn d a b p hs
  | .vintShl d a b p => Safe.execVintShl d a b p hs
  | .vintShr d a b p => Safe.execVintShr d a b p hs
  | .vintSra d a b p => Safe.execVintSra d a b p hs
  | .vintMinS d a b p => Safe.execVintMinS d a b p hs
  | .vintMaxS d a b p => Safe.execVintMaxS d a b p hs
  | .vintMinU d a b p => Safe.execVintMinU d a b p hs
  | .vintMaxU d a b p => Safe.execVintMaxU d a b p hs
  | .vintAbs d a p => Safe.execVintAbs d a p hs
  | .vintClz d a p => Safe.execVintClz d a p hs
  | .vintPopc d a p => Safe.execVintPopc d a p hs
  | .vintBrev d a p => Safe.execVintBrev d a p hs
  | .vintsAdd d a b p => Safe.execVintsAdd d a b p hs
  | .vintsSub d a b p => Safe.execVintsSub d a b p hs
  | .vintsMullo d a b p => Safe.execVintsMullo d a b p hs
  | .vintsMulhiS d a b p => Safe.execVintsMulhiS d a b p hs
  | .vintsMulhiU d a b p => Safe.execVintsMulhiU d a b p hs
  | .vintsAnd d a b p => Safe.execVintsAnd d a b p hs
  | .vintsOr d a b p => Safe.execVintsOr d a b p hs
  | .vintsXor d a b p => Safe.execVintsXor d a b p hs
  | .vintsAndn d a b p => Safe.execVintsAndn d a b p hs
  | .vintsShl d a b p => Safe.execVintsShl d a b p hs
  | .vintsShr d a b p => Safe.execVintsShr d a b p hs
  | .vintsSra d a b p => Safe.execVintsSra d a b p hs
  | .vintsMinS d a b p => Safe.execVintsMinS d a b p hs
  | .vintsMaxS d a b p => Safe.execVintsMaxS d a b p hs
  | .vintsMinU d a b p => Safe.execVintsMinU d a b p hs
  | .vintsMaxU d a b p => Safe.execVintsMaxU d a b p hs
  | .vintiAddi d a imm p x => Safe.execVintiAddi d a imm p x hs
  | .vintiAndi d a imm p x => Safe.execVintiAndi d a imm p x hs
  | .vintiOri d a imm p x => Safe.execVintiOri d a imm p x hs
  | .vintiXori d a imm p x => Safe.execVintiXori d a imm p x hs
  | .vintiShli d a imm p x => Safe.execVintiShli d a imm p x hs
  | .vintiShri d a imm p x => Safe.execVintiShri d a imm p x hs
  | .vintiSrai d a imm p x => Safe.execVintiSrai d a imm p x hs
  | .vintiMuli d a imm p x => Safe.execVintiMuli d a imm p x hs
  | .vcmpEqS32 d a b p => Safe.execVcmpEqS32 d a b p hs
  | .vcmpNeS32 d a b p => Safe.execVcmpNeS32 d a b p hs
  | .vcmpLtS32 d a b p => Safe.execVcmpLtS32 d a b p hs
  | .vcmpLeS32 d a b p => Safe.execVcmpLeS32 d a b p hs
  | .vcmpGtS32 d a b p => Safe.execVcmpGtS32 d a b p hs
  | .vcmpGeS32 d a b p => Safe.execVcmpGeS32 d a b p hs
  | .vcmpEqU32 d a b p => Safe.execVcmpEqU32 d a b p hs
  | .vcmpNeU32 d a b p => Safe.execVcmpNeU32 d a b p hs
  | .vcmpLtU32 d a b p => Safe.execVcmpLtU32 d a b p hs
  | .vcmpLeU32 d a b p => Safe.execVcmpLeU32 d a b p hs
  | .vcmpGtU32 d a b p => Safe.execVcmpGtU32 d a b p hs
  | .vcmpGeU32 d a b p => Safe.execVcmpGeU32 d a b p hs
  | .vcmpEqF32 d a b p => Safe.execVcmpEqF32 d a b p hs
  | .vcmpNeF32 d a b p => Safe.execVcmpNeF32 d a b p hs
  | .vcmpLtF32 d a b p => Safe.execVcmpLtF32 d a b p hs
  | .vcmpLeF32 d a b p => Safe.execVcmpLeF32 d a b p hs
  | .vcmpGtF32 d a b p => Safe.execVcmpGtF32 d a b p hs
  | .vcmpGeF32 d a b p => Safe.execVcmpGeF32 d a b p hs
  | .vcmpUnord d a b p => Safe.execVcmpUnord d a b p hs
  | .rcp d a p => Safe.execRcp d a p hs
  | .rsq d a p => Safe.execRsq d a p hs
  | .sqrt d a p => Safe.execSqrt d a p hs
  | .ex2 d a p => Safe.execEx2 d a p hs
  | .lg2 d a p => Safe.execLg2 d a p hs
  | .sin d a p => Safe.execSin d a p hs
  | .cos d a p => Safe.execCos d a p hs
  | .tanh d a p => Safe.execTanh d a p hs
  | .vcvtF32S32 d a p => Safe.execVcvtF32S32 d a p hs
  | .vcvtF32U32 d a p => Safe.execVcvtF32U32 d a p hs
  | .vcvtS32F32 d a p => Safe.execVcvtS32F32 d a p hs
  | .vcvtU32F32 d a p => Safe.execVcvtU32F32 d a p hs
  | .vcvtBf16F32 d a b p => Safe.execVcvtBf16F32 d a b p hs
  | .vcvtF16F32 d a b p => Safe.execVcvtF16F32 d a b p hs
  | .vcvtF32Bf16 d a e p => Safe.execVcvtF32Bf16 d a e p hs
  | .vcvtF32F16 d a e p => Safe.execVcvtF32F16 d a e p hs
  | .vcvtSxF32 d a p => Safe.execVcvtSxF32 d a p hs
  | .vcvtF32Sx d a p => Safe.execVcvtF32Sx d a p hs
  | .vredFadd d a p => Safe.execVredFadd d a p hs
  | .vredFmin d a p => Safe.execVredFmin d a p hs
  | .vredFmax d a p => Safe.execVredFmax d a p hs
  | .vredIadd d a p => Safe.execVredIadd d a p hs
  | .vredIminS d a p => Safe.execVredIminS d a p hs
  | .vredImaxS d a p => Safe.execVredImaxS d a p hs
  | .vscanFadd d a b p => Safe.execVscanFadd d a b p hs
  | .vscanIadd d a b p => Safe.execVscanIadd d a b p hs
  | .vcompact d a b p => Safe.execVcompact d a b p hs
  | .vexpand d a p => Safe.execVexpand d a p hs
  | .vsel d a b p => Safe.execVsel d a b p hs
  | .vperm d a b p => Safe.execVperm d a b p hs
  | .kand d a b p => Safe.execKand d a b p hs
  | .kor d a b p => Safe.execKor d a b p hs
  | .kxor d a b p => Safe.execKxor d a b p hs
  | .kandn d a b p => Safe.execKandn d a b p hs
  | .knot d a p => Safe.execKnot d a p hs
  | .kmov d a p => Safe.execKmov d a p hs
  | .k2s d a n p => Safe.execK2s d a n p hs
  | .s2k d a n p => Safe.execS2k d a n p hs
  | .kpopc d a p => Safe.execKpopc d a p hs
  | .kfirst d a p => Safe.execKfirst d a p hs
  | .vmov d a p => Safe.execVmov d a p hs
  | .vsplat d a p => Safe.execVsplat d a p hs
  | .vext d a b p => Safe.execVext d a b p hs
  | .vins d a b p => Safe.execVins d a b p hs
  | .vlaneid d p => Safe.execVlaneid d p hs
  | .viota d p => Safe.execViota d p hs
  | .vaddF32Compact d b => Safe.execVaddF32Compact d b hs
  | .vsubF32Compact d b => Safe.execVsubF32Compact d b hs
  | .vmulF32Compact d b => Safe.execVmulF32Compact d b hs
  | .vmaxF32Compact d b => Safe.execVmaxF32Compact d b hs
  | .vminF32Compact d b => Safe.execVminF32Compact d b hs
  | .vaddI32Compact d b => Safe.execVaddI32Compact d b hs
  | .vsubI32Compact d b => Safe.execVsubI32Compact d b hs
  | .vandCompact d b => Safe.execVandCompact d b hs
  | .vorCompact d b => Safe.execVorCompact d b hs
  | .vxorCompact d b => Safe.execVxorCompact d b hs
  | .vshlCompact d b => Safe.execVshlCompact d b hs
  | .vshrU32Compact d b => Safe.execVshrU32Compact d b hs
  | .vmulLoCompact d b => Safe.execVmulLoCompact d b hs
  | .vmaxS32Compact d b => Safe.execVmaxS32Compact d b hs
  | .vminS32Compact d b => Safe.execVminS32Compact d b hs
  | .vmovCompact d b => Safe.execVmovCompact d b hs
  | .vld d r x st z e => Safe.execVld d r x st z e hs
  | .vst d r x st z e => Safe.execVst d r x st z e hs
  | .vlda d r x st z e => Safe.execVlda d r x st z e hs
  | .vstr d r x st z e => Safe.execVstr d r x st z e hs
  | .sld d r x st z e => Safe.execSld d r x st z e hs
  | .sst d r x st z e => Safe.execSst d r x st z e hs
  | .slda d r x st z e => Safe.execSlda d r x st z e hs
  | .sstr d r x st z e => Safe.execSstr d r x st z e hs
  | .vatomAdd d r x st e => Safe.execVatomAdd d r x st e hs
  | .vatomAnd d r x st e => Safe.execVatomAnd d r x st e hs
  | .vatomOr d r x st e => Safe.execVatomOr d r x st e hs
  | .vatomXor d r x st e => Safe.execVatomXor d r x st e hs
  | .vatomMinS d r x st e => Safe.execVatomMinS d r x st e hs
  | .vatomMaxS d r x st e => Safe.execVatomMaxS d r x st e hs
  | .vatomXchg d r x st e => Safe.execVatomXchg d r x st e hs
  | .vatomCas d r x st e => Safe.execVatomCas d r x st e hs
  | .vatomfFadd d r x st e => Safe.execVatomfFadd d r x st e hs
  | .vatomfFmin d r x st e => Safe.execVatomfFmin d r x st e hs
  | .vatomfFmax d r x st e => Safe.execVatomfFmax d r x st e hs
  | .vatomfMinU d r x st e => Safe.execVatomfMinU d r x st e hs
  | .vatomfMaxU d r x st e => Safe.execVatomfMaxU d r x st e hs
  | .vatomfIncw d r x st e => Safe.execVatomfIncw d r x st e hs
  | .vatomfDecw d r x st e => Safe.execVatomfDecw d r x st e hs
  | .satomAdd d r x st e => Safe.execSatomAdd d r x st e hs
  | .satomAnd d r x st e => Safe.execSatomAnd d r x st e hs
  | .satomOr d r x st e => Safe.execSatomOr d r x st e hs
  | .satomXor d r x st e => Safe.execSatomXor d r x st e hs
  | .satomMinS d r x st e => Safe.execSatomMinS d r x st e hs
  | .satomMaxS d r x st e => Safe.execSatomMaxS d r x st e hs
  | .satomXchg d r x st e => Safe.execSatomXchg d r x st e hs
  | .satomCas d r x st e => Safe.execSatomCas d r x st e hs
  | .cachePfl1 r x st e => Safe.execCachePfl1 r x st e hs
  | .cachePfl2 r x st e => Safe.execCachePfl2 r x st e hs
  | .cacheWback r x st e => Safe.execCacheWback r x st e hs
  | .cacheInval r x st e => Safe.execCacheInval r x st e hs
  | .cacheWbinv r x st e => Safe.execCacheWbinv r x st e hs
  | .cacheZline r x st e => Safe.execCacheZline r x st e hs
  | .cpyl a b n z st => Safe.execCpyl a b n z st hs
  | .tld d a n st => Safe.execTld d a n st hs
  | .tst d a n st => Safe.execTst d a n st hs
  | .tldw k a st => Safe.execTldw k a st hs
  | .tzfill d n st => Safe.execTzfill d n st hs
  | .binsc n a b st => Safe.execBinsc n a b st hs
  | .binrst n b st => Safe.execBinrst n b st hs
  | .cwait d a b st => Safe.execCwait d a b st hs
  | .cadd a b st => Safe.execCadd a b st hs
  | .cset a b st => Safe.execCset a b st hs
  | .ctest d a b st => Safe.execCtest d a b st hs
  | .allred t a n st => Safe.execAllred t a n st hs
  | .redsc t a n st => Safe.execRedsc t a n st hs
  | .allgat t a n st => Safe.execAllgat t a n st hs
  | .bcast t a n st => Safe.execBcast t a n st hs
  | .rcopy d a b n st => Safe.execRcopy d a b n st hs
  | .bmopen d a b st => Safe.execBmopen d a b st hs
  | .bmstage t a n st => Safe.execBmstage t a n st hs
  | .bmclose d a b st => Safe.execBmclose d a b st hs
  | .bmnorm d t b st => Safe.execBmnorm d t b st hs
  | .bmadd d a b st => Safe.execBmadd d a b st hs
  | .bmstat d a st => Safe.execBmstat d a st hs
  | .emit d a n st => Safe.execEmit d a n st hs
  | .node d c => Safe.execNode d c hs
  | .nodeL d c b st => Safe.execNodeL d c b st hs
  | .nedge d a => Safe.execNedge d a hs
  | .nwait d a => Safe.execNwait d a hs
  | .grab d b => Safe.execGrab d b hs
  | .rset d a b => Safe.execRset d a b hs
  | .rstat d b => Safe.execRstat d b hs
  | .burn a => Safe.execBurn a hs
  | .shunt d a => Safe.execShunt d a hs
  | .rdmis d => Safe.execRdmis d hs
  | .dcls a => Safe.execDcls a hs
  | .tfeed m a b f sl p => Safe.execTfeed m a b f sl p hs
  | .tdrain d n b p => Safe.execTdrain d n b p hs
  | .mma n m k => Safe.execMma n m k hs
  | .mmab n m k b => Safe.execMmab n m k b hs
  | .tzero n => Safe.execTzero n hs
  | .tcfg d a => Safe.execTcfg d a hs
  | .accspill n a st => Safe.execAccspill n a st hs
  | .accfill n a st => Safe.execAccfill n a st hs
  | .accrel n c => Safe.execAccrel n c hs
  | .acclive d h => Safe.execAcclive d h hs
  | .tset n wd a => Safe.execTset n wd a hs
  | .tget d n wd => Safe.execTget d n wd hs
  | .tcopy d a => Safe.execTcopy d a hs

theorem Safe.runTrapping (i : Instr) (a : Agent) {s : State} (hs : Safe s) : SafeNext (Machine.runTrapping i a s) := by
  grind [Machine.runTrapping, Safe.exec]

theorem Safe.runMiss (i : Instr) (a : Agent) {s : State} (hs : Safe s) : SafeNext (Machine.runMiss i a s) := by
  grind [Machine.runMiss, Safe.exec, Safe.block, SafeNext]

theorem Safe.runSeq (i : Instr) (a : Agent) {s : State} (hs : Safe s) : SafeNext (Machine.runSeq i a s) := by
  grind [Machine.runSeq, Safe.exec, Safe.runTrapping]

theorem Safe.runReject (sub : BitVec 8) (val : BitVec 48) (inner : Option Instr) (a : Agent) {s : State} (hs : Safe s) :
    SafeNext (Machine.runReject sub val inner a s) := by
  unfold Machine.runReject
  grind [Safe.runSeq, Safe.exec, Safe.probed]

theorem Safe.tryAgent (a : Agent) {s : State} (hs : Safe s) : SafeNext (Machine.tryAgent a s) := by
  grind [Machine.tryAgent, Safe.attempt, Safe.runMiss, Safe.runSeq, Safe.runReject, SafeNext, SafePick]

theorem Safe.step {s : State} (hs : Safe s) : SafeNext (Machine.step s) := by
  grind [Machine.step, Safe.exec, Safe.tryAgent, Safe.noteLook, Safe.pickOn, safe_iff, SafeNext]

end Sys2Proof
end

section
/-! O47: what a step answers. -/
namespace Sys2Proof
open Sys2Proof.Machine

/-- Settles O47: main memory is written only by `memWrite`, `memZero` and the filter of a device reset, each of which keeps
the canonical form; `Safe.step` carries this through every function that a step calls. -/
theorem stepKeepsMemoryCanonical : Obligations.StepKeepsMemoryCanonical := by
  unfold Obligations.StepKeepsMemoryCanonical
  intro s t hs h
  have hn := hs.step
  rwa [h] at hn

end Sys2Proof
end
